-- ==== Sys2Proof/Word.lean ====
section
/-!
DEFINITION. The words of the model and the plainest arithmetic on them: bit fields of naturals and signed values.
-/

namespace Sys2Proof

/-- One byte. -/
abbrev Byte := BitVec 8

/-- The field of `w` bits from bit `lo` of `v`. -/
def bits (v lo w : Nat) : Nat := v / 2 ^ lo % 2 ^ w

/-- Bit `i` of `v`. -/
def bit (v i : Nat) : Bool := v / 2 ^ i % 2 == 1

/-- A Boolean as the bit it is. -/
def b2n (b : Bool) : Nat := if b then 1 else 0

/-- The value of a `w`-bit two's complement field. -/
def toSigned (w v : Nat) : Int := if v % 2 ^ w < 2 ^ (w - 1) then ((v % 2 ^ w : Nat) : Int) else (v % 2 ^ w : Nat) - 2 ^ w

/-- The `w`-bit two's complement field that holds `z` modulo 2^w. -/
def ofSigned (w : Nat) (z : Int) : Nat := (z % (2 ^ w : Nat)).toNat

end Sys2Proof
end

