-- ==== Sys2Proof/Syntax.lean ====
section
/-!
DEFINITION. The commands of the block: one constructor for each row of spec/opcode_table.json, with the row's operands.
Every command carries first the instant `t` at which it comes, counted in q: 1 q = 1/3,125 tick = 1/16,384 ps, so that
a tick (R8) is 3,125 q, a coarse period 6,400,000 q and 1 ns 16,384,000 q. `p` is the port of a register access (R397).
What a sensor, an input ball, the flash (bytes as read), a partner or the calibration oscillator presents to the block is an operand.
-/

namespace Sys2Proof

/-- What is present at the two balls of a timing input (R126), in nV. -/
structure Input where
  p : Int
  n : Int
  deriving DecidableEq, Repr

/-- One attempt of the PMBus host to read a regulator (R82, R84): whether it acknowledges, whether packet error checking
passes, and READ_VOUT in mV, STATUS_WORD and READ_IOUT in mA. -/
structure PmbReply where
  ack    : Bool
  pec    : Bool
  mv     : Nat
  status : Nat
  ma     : Nat
  deriving DecidableEq, Repr

/-- The totals of an HOURLY ledger entry (R429). -/
structure Totals where
  hours        : Nat
  screenHours  : Nat
  consumed     : Nat
  avgTj        : Nat
  avgPower     : Nat
  shutdowns    : Nat
  rows         : Nat
  refreshLast  : Nat
  refreshNext  : Nat
  deriving DecidableEq, Repr

/-- The retired set of a SERVICE ledger entry (R429). -/
structure ServiceSet where
  eng      : Nat
  pch      : Nat
  slu      : Nat
  lane     : Nat
  backends : List Nat
  deriving DecidableEq, Repr

/-- What the ledger read of R432 finds: the latest valid entries of the two kinds, the shutdowns and repairs of the
EVENT entries after the HOURLY one, the highest ENTRY value, and whether the region is blank. -/
structure LedgerRead where
  hourly    : Option Totals
  service   : Option ServiceSet
  evShut    : Nat
  evRows    : Nat
  entry     : Nat
  blank     : Bool
  deriving DecidableEq, Repr

/-- The subsystems that RECOVERY restores (R468). -/
inductive Subsystem where
  | is8 | sluice | hbmTraining | hbmRails | laneQuads | laneRails | ingest
  deriving DecidableEq, Repr

/-- The commands, in the order of the table. -/
inductive Instr where
  | uvloRise (t : Nat)
  | auxEntry (t : Nat)
  | aoRelease (t : Nat)
  | uvloFall (t : Nat)
  | lowInput (t : Nat) (low : Bool)
  | overvoltage (t : Nat)
  | hotSwapTrip (t since ma : Nat)
  | fastTrip (t ma : Nat)
  | fetRetry (t : Nat)
  | fetRestart (t p : Nat)
  | peakClear (t p : Nat)
  | heartbeatLost (t : Nat)
  | telemetryFrame (t mv ma : Nat) (limiting beat : Bool)
  | busEn (t mv : Nat)
  | railEnable (t : Nat)
  | pmbusAlert (t j : Nat) (first second : PmbReply)
  | railRetry (t p : Nat)
  | thermalShutdown (t i : Nat)
  | thermalCooldown (t : Nat)
  | protectiveRestart (t : Nat)
  | reboot (t p : Nat)
  | governorTick (t : Nat) (temps : List Int) (rails : List (PmbReply × PmbReply))
  | islandFloor (t p k v : Nat)
  | wakeIsland (t k : Nat)
  | islandDrained (t k : Nat)
  | islandUnlock (t k : Nat)
  | islandRelock (t k : Nat) (counts : List Nat)
  | is8Unlock (t : Nat)
  | is8Relock (t : Nat)
  | restorationDone (t : Nat) (sub : Subsystem)
  | restorationTimeout (t : Nat) (sub : Subsystem)
  | restorationHeld (t : Nat) (sub : Subsystem)
  | sfdpRead (t : Nat) (found : Bool) (density modes : Nat) (fourByte : Bool)
  | slotSelect (t : Nat) (a b : List Byte) (ledger : LedgerRead)
  | pass1 (t : Nat) (body : List Byte)
  | pass2 (t : Nat) (body again : List Byte)
  | flashTimeout (t : Nat)
  | write (t : Nat)
  | modify (t : Nat)
  | poll (t : Nat)
  | pollTimeout (t : Nat)
  | delay (t : Nat)
  | listBlock (t : Nat)
  | refLock (t hz since phase refOut : Nat)
  | holdover (t hz missed : Nat)
  | ppsEdge (t : Nat) (pol : Bool) (bin refOut : Nat)
  | ppsMissing (t : Nat)
  | alignWaitTimeout (t : Nat)
  | realign (t p : Nat)
  | realignTimeout (t : Nat)
  | setSec (t p : Nat)
  | leapAnnounce (t p sec dir : Nat)
  | sysrefBurst (t p : Nat)
  | secondBoundary (t : Nat)
  | frameBoundary (t : Nat) (inputs : List (Nat × Input × Nat))
  | frameCommit (t p : Nat)
  | sysrefPulse (t bin fallBin : Nat)
  | periodicAnchor (t src : Nat)
  | gapAnchor (t src : Nat)
  | armChannel (t p n : Nat)
  | disarmChannel (t p n : Nat)
  | channelStart (t n : Nat) (input : Input) (bin : Nat)
  | edge (t n : Nat) (pol : Bool) (bin : Nat)
  | runtPulse (t n width bin endBin : Nat)
  | overflowEnd (t src : Nat)
  | recordToFabric (t src : Nat)
  | calibrationHit (t be bin : Nat)
  | calTableBuild (t be : Nat)
  | calRestart (t p n : Nat)
  | feCommit (t p n : Nat)
  | commitApplyEarly (t n : Nat) (input : Input) (bin : Nat)
  | settleEnd (t n : Nat)
  | overdriveStart (t n : Nat) (peak : Input)
  | overdriveEnd (t n : Nat)
  | windowEnable (t p n en : Nat)
  | windowAssert (t n : Nat) (samples : List Input)
  | windowDeassert (t n : Nat) (samples : List Input)
  | windowHoldEnd (t n : Nat)
  | beRetire (t p n : Nat)
  | retireNow (t p n : Nat)
  | beReturn (t p n : Nat)
  | switch (t n count : Nat)
  | spareWarmupTimeout (t n : Nat)
  | rejoin (t n : Nat)
  | backendFault (t be : Nat)
  | interpolatorNoHits (t be : Nat)
  | startWaveform (t p n : Nat)
  | disarmWaveform (t p n : Nat)
  | ingestStart (t n : Nat)
  | embRelease (t m : Nat) (a b : List Int) (ma mb : Nat)
  | jesdCrcError (t slot : Nat)
  | ingestFault (t slot : Nat)
  | waveformCommit (t p n : Nat)
  | waveformSettleEnd (t n : Nat)
  | convEnd (t n : Nat)
  | windowOpen (t n : Nat)
  | windowClose (t n : Nat)
  | startContext (t p n : Nat)
  | disarmContext (t p n : Nat)
  | contextRestart (t p n : Nat)
  | stabClear (t p n : Nat)
  | engineUpdate (t e : Nat)
  | gateTimeout (t n : Nat)
  | publish (t n : Nat)
  | contextMove (t n : Nat)
  | armAcquisition (t p n : Nat)
  | disarmAcquisition (t p n : Nat)
  | fillStart (t n : Nat)
  | ready (t n : Nat)
  | autoTimeout (t n : Nat)
  | intervalTimeout (t n c : Nat)
  | force (t p n : Nat)
  | abort (t p n : Nat)
  | captureClose (t n : Nat)
  | panRelease (t p pan : Nat)
  | freeze (t p n v : Nat)
  | clear (t p n : Nat)
  | clearDone (t n : Nat)
  | release (t p n : Nat)
  | stagingMerge (t n : Nat)
  | sweepComplete (t n : Nat)
  | tapEdge (t src : Nat)
  | maskSpanPassed (t n : Nat)
  | ruleEnable (t p v en : Nat)
  | presenceWindowEnd (t v : Nat)
  | targetEdgeExpiry (t v : Nat)
  | verdict (t link : Nat)
  | markerArm (t p k : Nat)
  | markerDisarm (t p k : Nat)
  | firing (t k bin : Nat)
  | pulseEnd (t k bin : Nat)
  | tripSelect (t p : Nat) (trip : Bool) (i lines : Nat)
  | tripCfg (t p i v : Nat)
  | go (t p c : Nat)
  | disable (t p c : Nat)
  | pause (t p c : Nat)
  | pauseDrained (t c : Nat)
  | resume (t p c : Nat)
  | listCommit (t p c : Nat)
  | sluiceBurst (t c : Nat) (ecc : Bool)
  | descriptorComplete (t c : Nat)
  | engineHalt (t cause addr : Nat)
  | autoRestore (t : Nat)
  | engineResume (t p : Nat)
  | disableAll (t p : Nat)
  | laneEnable (t p l en : Nat)
  | laneStartTime (t : Nat)
  | attempt (t l : Nat)
  | signal (t l : Nat)
  | lock (t l : Nat)
  | adapt (t l ctle : Nat) (dfe : List Int)
  | ffe (t l : Nat)
  | trainingTimeout (t l : Nat)
  | los (t l : Nat)
  | lostLock (t l : Nat)
  | seekRetry (t l : Nat) (signal : Bool)
  | retrain (t p l : Nat)
  | eyeMeasurement (t l vm hm : Nat)
  | adaptationUpdate (t l : Nat) (steps : List Int)
  | adaptationFreeze (t l : Nat)
  | slip (t p l : Nat)
  | laneRetire (t p l : Nat)
  | laneReturn (t p l : Nat)
  | p1Req (t p l v : Nat)
  | p2 (t p q : Nat)
  | p2Exit (t p q : Nat)
  | p2ExitTimeout (t l : Nat)
  | linkUp (t p b en : Nat)
  | alignSlot (t b : Nat)
  | align (t lane payload : Nat)
  | data (t b word : Nat)
  | stream (t b payload : Nat)
  | credit (t b payload : Nat)
  | creditRepeat (t b stream : Nat)
  | start (t b payload : Nat)
  | timeSet (t b payload : Nat)
  | leap (t b payload : Nat)
  | linkTrigger (t b payload : Nat)
  | train (t lane payload : Nat)
  | p1 (t lane payload : Nat)
  | unknownBlock (t b payload : Nat)
  | read (t b : Nat) (words : List Nat)
  | writePacket (t b : Nat) (words : List Nat)
  | read8 (t count addr : Nat)
  | read16 (t count addr : Nat)
  | read32 (t count addr : Nat)
  | write32 (t count addr : Nat) (data : List Nat)
  | phase (t : Nat)
  | spiCutShort (t op count addr : Nat) (bytes : List Byte)
  | regacc (t dr : Nat)
  | captureDr (t : Nat)
  | idcode (t : Nat)
  | bypass (t : Nat)
  | samplePreload (t balls load : Nat)
  | extest (t balls : Nat)
  | registerWrite (t p addr data : Nat)
  | eventWriteBack (t p addr data : Nat)
  | tideGate (t p key : Nat)
  | harvest (t p : Nat)
  | harvestInstant (t : Nat)
  | harvestDone (t : Nat)
  | enterTest (t p : Nat)
  | leaveTest (t p : Nat)
  | hbmTrained (t : Nat)
  | lifeHour (t : Nat) (rings : List (Nat × Int))
  | hourly (t : Nat)
  | ledgerSync (t p : Nat)
  | ledgerWrite (t : Nat) (good : Bool)
  | patrolRead (t addr result : Nat) (spareRow lastUnit : Bool)
  | refreshDue (t : Nat)
  | refresh (t p : Nat)
  | refreshAutoStart (t : Nat)
  | refreshSector (t : Nat) (good lastOfSlot slotOk : Bool)
  | unitRetire (t p kind index : Nat)
  | unitReturn (t p kind index : Nat)
  | migrationDone (t : Nat)
  | engineMoveDone (t : Nat)
  | embLock (t slot : Nat)
  | laneQuadFault (t q : Nat)
  | hbmTrainingStart (t : Nat)
  | hbmRetrainingFail (t : Nat)
  | p2ExitComplete (t q : Nat)
  | p1SignalReturn (t l : Nat)
  deriving DecidableEq, Repr

end Sys2Proof
end

