-- ==== Sys2Proof/WellFormed.lean ====
section
/-!
DEFINITION. Which commands name something that exists: the ports (R397) and the units with their ranges (R27).
-/

namespace Sys2Proof

/-- The number of units of each kind (R27, R81, R95, R166). -/
def numRails : Nat := 10
def numSensors : Nat := 24
def numIslands : Nat := 8
def numSources : Nat := 194
def numChannels : Nat := 144
def numClusters : Nat := 12
def numWaves : Nat := 16
def numSlots : Nat := 32
def numContexts : Nat := 8192
def numEngines : Nat := 24
def numUnits : Nat := 16
def numPans : Nat := 256
def numRules : Nat := 256
def numLinks : Nat := 16
def numMarkers : Nat := 32
def numTrips : Nat := 16
def numSluice : Nat := 32
def numLanes : Nat := 64
def numQuads : Nat := 16

/-- The ports of R397: SPI, JTAG, the image, and the register packets of the links. -/
def isPort (p : Nat) : Bool := decide (p < 3) || (decide (16 ≤ p) && decide (p < 32))

/-- The back-ends: of the timing channels, of the loop-backs, PPS_IN and SYSREF by their source, and the spare of
cluster c as 256 + c (R153, R180, R317). -/
def isBackEnd (b : Nat) : Bool :=
  decide (b < 144) || (decide (160 ≤ b) && decide (b < 194)) || (decide (256 ≤ b) && decide (b < 268))

/-- Whether the units and the port that a command names exist. -/
def Instr.wf : Instr → Bool
  | .uvloRise _ => true
  | .auxEntry _ => true
  | .aoRelease _ => true
  | .uvloFall _ => true
  | .lowInput _ _ => true
  | .overvoltage _ => true
  | .hotSwapTrip _ _ _ => true
  | .fastTrip _ _ => true
  | .fetRetry _ => true
  | .fetRestart _ p => isPort p
  | .peakClear _ p => isPort p
  | .heartbeatLost _ => true
  | .telemetryFrame _ _ _ _ _ => true
  | .busEn _ _ => true
  | .railEnable _ => true
  | .pmbusAlert _ j _ _ => decide (j < numRails)
  | .railRetry _ p => isPort p
  | .thermalShutdown _ i => decide (i < numSensors)
  | .thermalCooldown _ => true
  | .protectiveRestart _ => true
  | .reboot _ p => isPort p
  | .governorTick _ _ _ => true
  | .islandFloor _ p k _ => isPort p && decide (k < numIslands)
  | .wakeIsland _ k => decide (k < numIslands)
  | .islandDrained _ k => decide (k < numIslands)
  | .islandUnlock _ k => decide (k < numIslands)
  | .islandRelock _ k _ => decide (k < numIslands)
  | .is8Unlock _ => true
  | .is8Relock _ => true
  | .restorationDone _ _ => true
  | .restorationTimeout _ _ => true
  | .restorationHeld _ _ => true
  | .sfdpRead _ _ _ _ _ => true
  | .slotSelect _ _ _ _ => true
  | .pass1 _ _ => true
  | .pass2 _ _ _ => true
  | .flashTimeout _ => true
  | .write _ => true
  | .modify _ => true
  | .poll _ => true
  | .pollTimeout _ => true
  | .delay _ => true
  | .listBlock _ => true
  | .refLock _ _ _ _ _ => true
  | .holdover _ _ _ => true
  | .ppsEdge _ _ _ _ => true
  | .ppsMissing _ => true
  | .alignWaitTimeout _ => true
  | .realign _ p => isPort p
  | .realignTimeout _ => true
  | .setSec _ p => isPort p
  | .leapAnnounce _ p _ _ => isPort p
  | .sysrefBurst _ p => isPort p
  | .secondBoundary _ => true
  | .frameBoundary _ _ => true
  | .frameCommit _ p => isPort p
  | .sysrefPulse _ _ _ => true
  | .periodicAnchor _ src => decide (src < numSources)
  | .gapAnchor _ src => decide (src < numSources)
  | .armChannel _ p n => isPort p && decide (n < numChannels)
  | .disarmChannel _ p n => isPort p && decide (n < numChannels)
  | .channelStart _ n _ _ => decide (n < numChannels)
  | .edge _ n _ _ => decide (n < numChannels)
  | .runtPulse _ n _ _ _ => decide (n < numChannels)
  | .overflowEnd _ src => decide (src < numSources)
  | .recordToFabric _ src => decide (src < numSources)
  | .calibrationHit _ be _ => isBackEnd be
  | .calTableBuild _ be => isBackEnd be
  | .calRestart _ p n => isPort p && decide (n < numChannels)
  | .feCommit _ p n => isPort p && decide (n < numChannels)
  | .commitApplyEarly _ n _ _ => decide (n < numChannels + numWaves)
  | .settleEnd _ n => decide (n < numChannels)
  | .overdriveStart _ n _ => decide (n < numChannels)
  | .overdriveEnd _ n => decide (n < numChannels)
  | .windowEnable _ p n _ => isPort p && decide (n < numChannels)
  | .windowAssert _ n _ => decide (n < numChannels)
  | .windowDeassert _ n _ => decide (n < numChannels)
  | .windowHoldEnd _ n => decide (n < numChannels)
  | .beRetire _ p n => isPort p && decide (n < numChannels)
  | .retireNow _ p n => isPort p && decide (n < numChannels)
  | .beReturn _ p n => isPort p && decide (n < numChannels)
  | .switch _ n _ => decide (n < numChannels)
  | .spareWarmupTimeout _ n => decide (n < numChannels)
  | .rejoin _ n => decide (n < numChannels)
  | .backendFault _ b => isBackEnd b
  | .interpolatorNoHits _ b => isBackEnd b
  | .startWaveform _ p n => isPort p && decide (n < numWaves)
  | .disarmWaveform _ p n => isPort p && decide (n < numWaves)
  | .ingestStart _ n => decide (n < numWaves)
  | .embRelease _ m _ _ _ _ => decide (m < numWaves)
  | .jesdCrcError _ slot => decide (slot < numSlots)
  | .ingestFault _ slot => decide (slot < numSlots)
  | .waveformCommit _ p n => isPort p && decide (n < numWaves)
  | .waveformSettleEnd _ n => decide (n < numWaves)
  | .convEnd _ n => decide (n < numWaves)
  | .windowOpen _ n => decide (n < numWaves)
  | .windowClose _ n => decide (n < numWaves)
  | .startContext _ p n => isPort p && decide (n < numContexts)
  | .disarmContext _ p n => isPort p && decide (n < numContexts)
  | .contextRestart _ p n => isPort p && decide (n < numContexts)
  | .stabClear _ p n => isPort p && decide (n < numContexts)
  | .engineUpdate _ e => decide (e < numEngines)
  | .gateTimeout _ n => decide (n < numContexts)
  | .publish _ n => decide (n < numContexts)
  | .contextMove _ n => decide (n < numContexts)
  | .armAcquisition _ p n => isPort p && decide (n < numUnits)
  | .disarmAcquisition _ p n => isPort p && decide (n < numUnits)
  | .fillStart _ n => decide (n < numUnits)
  | .ready _ n => decide (n < numUnits)
  | .autoTimeout _ n => decide (n < numUnits)
  | .intervalTimeout _ n c => decide (n < numUnits ∧ c < 8) || decide (n = numUnits ∧ c < numRules)
  | .force _ p n => isPort p && decide (n < numUnits)
  | .abort _ p n => isPort p && decide (n < numUnits)
  | .captureClose _ n => decide (n < numUnits)
  | .panRelease _ p pan => isPort p && decide (pan < numPans)
  | .freeze _ p n _ => isPort p && decide (n < numUnits)
  | .clear _ p n => isPort p && decide (n < numUnits)
  | .clearDone _ n => decide (n < numUnits)
  | .release _ p n => isPort p && decide (n < numUnits)
  | .stagingMerge _ n => decide (n < numUnits)
  | .sweepComplete _ n => decide (n < numUnits)
  | .tapEdge _ src => decide (src < numSources)
  | .maskSpanPassed _ n => decide (n < numUnits)
  | .ruleEnable _ p v _ => isPort p && decide (v < numRules)
  | .presenceWindowEnd _ v => decide (v < numRules)
  | .targetEdgeExpiry _ v => decide (v < numRules)
  | .verdict _ link => decide (link < numLinks)
  | .markerArm _ p k => isPort p && decide (k < numMarkers)
  | .markerDisarm _ p k => isPort p && decide (k < numMarkers)
  | .firing _ k _ => decide (k < numMarkers)
  | .pulseEnd _ k _ => decide (k < numMarkers)
  | .tripSelect _ p trip i _ => isPort p && decide (i < if trip then numTrips else numMarkers)
  | .tripCfg _ p i _ => isPort p && decide (i < numTrips)
  | .go _ p c => isPort p && decide (c < numSluice)
  | .disable _ p c => isPort p && decide (c < numSluice)
  | .pause _ p c => isPort p && decide (c < numSluice)
  | .pauseDrained _ c => decide (c < numSluice)
  | .resume _ p c => isPort p && decide (c < numSluice)
  | .listCommit _ p c => isPort p && decide (c < numSluice)
  | .sluiceBurst _ c _ => decide (c < numSluice)
  | .descriptorComplete _ c => decide (c < numSluice)
  | .engineHalt _ _ _ => true
  | .autoRestore _ => true
  | .engineResume _ p => isPort p
  | .disableAll _ p => isPort p
  | .laneEnable _ p l _ => isPort p && decide (l < numLanes)
  | .laneStartTime _ => true
  | .attempt _ l => decide (l < numLanes)
  | .signal _ l => decide (l < numLanes)
  | .lock _ l => decide (l < numLanes)
  | .adapt _ l _ _ => decide (l < numLanes)
  | .ffe _ l => decide (l < numLanes)
  | .trainingTimeout _ l => decide (l < numLanes)
  | .los _ l => decide (l < numLanes)
  | .lostLock _ l => decide (l < numLanes)
  | .seekRetry _ l _ => decide (l < numLanes)
  | .retrain _ p l => isPort p && decide (l < numLanes)
  | .eyeMeasurement _ l _ _ => decide (l < numLanes)
  | .adaptationUpdate _ l _ => decide (l < numLanes)
  | .adaptationFreeze _ l => decide (l < numLanes)
  | .slip _ p l => isPort p && decide (l < numLanes)
  | .laneRetire _ p l => isPort p && decide (l < numLanes)
  | .laneReturn _ p l => isPort p && decide (l < numLanes)
  | .p1Req _ p l _ => isPort p && decide (l < numLanes)
  | .p2 _ p q => isPort p && decide (q < numQuads)
  | .p2Exit _ p q => isPort p && decide (q < numQuads)
  | .p2ExitTimeout _ l => decide (l < numLanes)
  | .linkUp _ p b _ => isPort p && decide (b < numLinks)
  | .alignSlot _ b => decide (b < numLinks)
  | .align _ lane _ => decide (lane < numLanes)
  | .data _ b _ => decide (b < numLinks)
  | .stream _ b _ => decide (b < numLinks)
  | .credit _ b _ => decide (b < numLinks)
  | .creditRepeat _ b _ => decide (b < numLinks)
  | .start _ b _ => decide (b < numLinks)
  | .timeSet _ b _ => decide (b < numLinks)
  | .leap _ b _ => decide (b < numLinks)
  | .linkTrigger _ b _ => decide (b < numLinks)
  | .train _ lane _ => decide (lane < numLanes)
  | .p1 _ lane _ => decide (lane < numLanes)
  | .unknownBlock _ b _ => decide (b < numLinks)
  | .read _ b _ => decide (b < numLinks)
  | .writePacket _ b _ => decide (b < numLinks)
  | .read8 _ _ _ => true
  | .read16 _ _ _ => true
  | .read32 _ _ _ => true
  | .write32 _ _ _ _ => true
  | .phase _ => true
  | .spiCutShort _ _ _ _ _ => true
  | .regacc _ _ => true
  | .captureDr _ => true
  | .idcode _ => true
  | .bypass _ => true
  | .samplePreload _ _ _ => true
  | .extest _ _ => true
  | .registerWrite _ p _ _ => isPort p
  | .eventWriteBack _ p _ _ => isPort p
  | .tideGate _ p _ => isPort p
  | .harvest _ p => isPort p
  | .harvestInstant _ => true
  | .harvestDone _ => true
  | .enterTest _ p => isPort p
  | .leaveTest _ p => isPort p
  | .hbmTrained _ => true
  | .lifeHour _ _ => true
  | .hourly _ => true
  | .ledgerSync _ p => isPort p
  | .ledgerWrite _ _ => true
  | .patrolRead _ _ _ _ _ => true
  | .refreshDue _ => true
  | .refresh _ p => isPort p
  | .refreshAutoStart _ => true
  | .refreshSector _ _ _ _ => true
  | .unitRetire _ p _ _ => isPort p
  | .unitReturn _ p _ _ => isPort p
  | .migrationDone _ => true
  | .engineMoveDone _ => true
  | .embLock _ slot => decide (slot < numSlots)
  | .laneQuadFault _ q => decide (q < numQuads)
  | .hbmTrainingStart _ => true
  | .hbmRetrainingFail _ => true
  | .p2ExitComplete _ q => decide (q < numQuads)
  | .p1SignalReturn _ l => decide (l < numLanes)

end Sys2Proof
end

