-- ==== Sys2Proof/Decode.lean ====
section
/-!
DEFINITION. Commands as words. The table of commands (spec/opcode_table.json) gives no row any bits: a command comes as
a register access of a port, a block of a link, an event at a ball or an instant, and no row has an encoding of its own.
-/

namespace Sys2Proof

/-- The command that a word spells by the bits of the table: no row has bits, so no word spells one. -/
def decodeTableWord (_nbits _w : Nat) : Option Instr := none

end Sys2Proof
end

