-- ==== Sys2Proof/Config.lean ====
section
/-!
DEFINITION. What the part fixes and the manual does not state: fuses, fixed addresses, free values and the choices of
rounding. Each is a constant without a body, so that nothing can be proved of its value.
-/

namespace Sys2Proof

/-- A free value: what stands where the manual states no value. The argument is a counter of the state (log entry 3). -/
opaque Config.freeValue : Nat → Nat

/-- Whether an inexact quotient `num / den` of a result is held as the integer above it rather than below it
(log entry 6). -/
opaque Config.roundsUp (num den : Nat) : Bool

/-- The factory default table (R161): position of a raw bin of an interpolator of a back-end, in 1/65,536 tick. -/
opaque Config.defaultTable (be interp bin : Nat) : Nat

/-- The eight fuse words of the owner key hash (R108). -/
opaque Config.keyHash : Nat → Nat

/-- The ordering code fuse (R422). -/
opaque Config.grade : Nat

/-- The manufacturer field of IDCODE (R404, R422). -/
opaque Config.jtagMfr : Nat

/-- The screening hours in fuses (R427). -/
opaque Config.screenHours : Nat

/-- The screening consumption in fuses, in units of 2^-24 (R427). -/
opaque Config.screenConsumed : Nat

/-- The fabric address of the result ring (R244, R250: "Fixed"). -/
opaque Config.ringBase : Nat

/-- The taps of the fractional delay of R195, in 2^-24, which the manual does not give: by the skew (1/1,024 ps) and the
place of the tap, 0 the newest sample. -/
opaque Config.delayTap (s : Int) (j : Nat) : Int

/-- The steps of the three estimates of R195 (mu_d, mu_g and mu_s are fixed and not stated): the change of an estimate
for the error term the manual gives. -/
opaque Config.stepD (err : Int) : Int
opaque Config.stepG (num : Int) (den : Nat) : Int
opaque Config.stepS (sgn : Int) : Int

/-- How many samples R195 judges the input by, and the sum of their squares that lies between 10 MHz and 1.9 GHz: the
manual gives neither the span nor the measurement. -/
opaque Config.richSpan : Nat
opaque Config.bandPower (hist : List Int) : Nat

/-- The window and the sinc of R198 at a distance from the middle tap, in 2^-12 each; the manual names neither window. -/
opaque Config.taper (order dist : Nat) : Int
opaque Config.sinc (fc dist : Nat) : Int

/-- The taps of the notch of R199 at a distance from the middle tap, in 2^-24. -/
opaque Config.notchTap (f dist : Nat) : Int

/-- The coefficients of R207, in 2^-24, by phase (0-1,024) and tap (0-15): of the interpolation and of its slope. -/
opaque Config.interpTap (phase tap : Nat) : Int
opaque Config.slopeTap (phase tap : Nat) : Int

/-- The place, in 1/1,024 of the spacing, of a crossing where a quotient of R207 has divisor 0 (log entry 72). -/
opaque Config.flatPlace (hist : List Int) (level : Int) : Nat

end Sys2Proof
end

