-- ==== Sys2Proof/Machine/RegMap.lean ====
section
/-!
DEFINITION. The register map: every register of the analyser and every field of it, as the chapters' register
tables give them (R98, R99, R125, R150, R186, R217, R249, R250, R280-R282, R311-R313, R322, R344-R348, R366, R396,
R422-R424), with the address of each instance (R405) and the access code of each field (R13).
-/

namespace Sys2Proof.Machine

/-- The access codes of R13. The flags of an EV register are `EV`; its sequence number is `RO`, as the tables list it. -/
inductive Acc where
  | RW | RO | SH | ST | EV | CT | GO | KY
  deriving DecidableEq, Repr

/-- The register blocks of R405 (MSK with CRY and TRIP with MRK, as R421 groups their interrupts). -/
inductive Blk where
  | DEV | PWR | HVS | BOOT | TB | LIFE | TCH | WCH | MC | AQ | CRY | PAN | VD | SLU | LNK | MRK
  deriving DecidableEq, Repr

/-- Every register of the register tables, by the name the tables give it. -/
inductive Reg where
  /-- R98. -/
  | PWR_CFG
  /-- R98. -/
  | PWR_LIMIT
  /-- R98. -/
  | PWR_GUARD
  /-- R98. -/
  | PWR_THERM
  /-- R98. -/
  | PWR_STATUS
  /-- R98. -/
  | PWR_BUDGET
  /-- R98. -/
  | PWR_LOAD
  /-- R98. -/
  | PWR_QUEUE
  /-- R98. -/
  | PWR_SHED
  /-- R98. -/
  | PWR_EVENT
  /-- R98. -/
  | PWR_TICK
  /-- R98. -/
  | PWR_BACKLOG
  /-- R98. -/
  | PWR_TEMP
  /-- R98. -/
  | PWR_ISLAND
  /-- R98. -/
  | PWR_COST
  /-- R98. -/
  | PWR_RAIL
  /-- R98. -/
  | PWR_CMD
  /-- R99. -/
  | HVS_CFG
  /-- R99. -/
  | HVS_STATUS
  /-- R99. -/
  | HVS_VIN
  /-- R99. -/
  | HVS_IIN
  /-- R99. -/
  | HVS_PIN
  /-- R99. -/
  | HVS_ENERGY
  /-- R99. -/
  | HVS_PEAK
  /-- R99. -/
  | HVS_EVENT
  /-- R99. -/
  | HVS_TRIPS
  /-- R99. -/
  | HVS_CMD
  /-- R125. -/
  | BOOT_PHASE
  /-- R125. -/
  | BOOT_STATUS
  /-- R125. -/
  | BOOT_GEN_A
  /-- R125. -/
  | BOOT_GEN_B
  /-- R125. -/
  | BOOT_FAIL
  /-- R125. -/
  | BOOT_FLASH
  /-- R125. -/
  | BOOT_CFG
  /-- R125. -/
  | BOOT_CMD
  /-- R125. -/
  | BOOT_EVENT
  /-- R125. -/
  | BOOT_MARK
  /-- R125. -/
  | BOOT_KEYHASH
  /-- R150. -/
  | TCH_INPUT
  /-- R150. -/
  | TCH_THRESH
  /-- R150. -/
  | TCH_FE_COMMIT
  /-- R150. -/
  | TCH_FE_STATUS
  /-- R150. -/
  | TCH_WIN_LIMIT
  /-- R150. -/
  | TCH_WIN_CFG
  /-- R150. -/
  | TCH_WIN_CTL
  /-- R150. -/
  | TCH_WIN_STATUS
  /-- R150. -/
  | TCH_WIN_EVENT
  /-- R150. -/
  | TCH_WIN_COUNT
  /-- R150. -/
  | TCH_OVR_COUNT
  /-- R150. -/
  | TCH_RUNT
  /-- R186. -/
  | TCH_INDELAY
  /-- R186. -/
  | TCH_ARM
  /-- R186. -/
  | TCH_BE_CFG
  /-- R186. -/
  | TCH_STORE
  /-- R186. -/
  | TCH_BE_STATUS
  /-- R186. -/
  | TCH_BE_EVENT
  /-- R186. -/
  | TCH_BE_CMD
  /-- R186. -/
  | TCH_CAL_STATUS
  /-- R186. -/
  | TCH_CAL_DRIFT
  /-- R186. -/
  | TCH_CAL_HITS
  /-- R186. -/
  | TCH_EDGES
  /-- R186. -/
  | TCH_LOST
  /-- R186. -/
  | TCH_SUPPRESSED
  /-- R186. -/
  | TCH_OVF_COUNT
  /-- R186. -/
  | TCH_SPARE_CFG
  /-- R217. -/
  | WCH_SOURCE
  /-- R217. -/
  | WCH_JESD
  /-- R217. -/
  | WCH_CV_LAT
  /-- R217. -/
  | WCH_INDELAY
  /-- R217. -/
  | WCH_ARM
  /-- R217. -/
  | WCH_GAIN
  /-- R217. -/
  | WCH_FILT
  /-- R217. -/
  | WCH_NOTCH
  /-- R217. -/
  | WCH_XTHRESH
  /-- R217. -/
  | WCH_COMMIT
  /-- R217. -/
  | WCH_WIN_CFG
  /-- R217. -/
  | WCH_WIN_START
  /-- R217. -/
  | WCH_WIN_LEN
  /-- R217. -/
  | WCH_WIN_PERIOD
  /-- R217. -/
  | WCH_WIN_DELAY
  /-- R217. -/
  | WCH_STATUS
  /-- R217. -/
  | WCH_EVENT
  /-- R217. -/
  | WCH_SLOT_STATUS
  /-- R217. -/
  | WCH_CORR_OFS
  /-- R217. -/
  | WCH_CORR_GAIN
  /-- R217. -/
  | WCH_CORR_SKEW
  /-- R217. -/
  | WCH_CROSSINGS
  /-- R217. -/
  | WCH_LOST
  /-- R217. -/
  | WCH_SUPPRESSED
  /-- R217. -/
  | WCH_OVF_COUNT
  /-- R217. -/
  | WCH_WIN_COUNT
  /-- R217. -/
  | WCH_WIN_MISSED
  /-- R217. -/
  | WCH_PREEMPT
  /-- R217. -/
  | WCH_CRC_ERR
  /-- R249. -/
  | MC_CFG
  /-- R249. -/
  | MC_SRC
  /-- R249. -/
  | MC_CTL
  /-- R249. -/
  | MC_STATUS
  /-- R249. -/
  | MC_RESULT
  /-- R249. -/
  | MC_GATE_END
  /-- R249. -/
  | MC_VALID
  /-- R249. -/
  | MC_COUNT
  /-- R250. -/
  | MC_RING_BASE
  /-- R250. -/
  | MC_RING_WR
  /-- R250. -/
  | MC_RING_RD
  /-- R250. -/
  | MC_RING_LOST
  /-- R250. -/
  | MC_EVENT
  /-- R250. -/
  | MC_STAB_FREE
  /-- R250. -/
  | MC_DROPS
  /-- R250. -/
  | MC_ENG_STATUS
  /-- R250. -/
  | MC_ENG_DROPS
  /-- R280. -/
  | AQ_CFG
  /-- R280. -/
  | AQ_ARM
  /-- R280. -/
  | AQ_CMD
  /-- R280. -/
  | AQ_STATUS
  /-- R280. -/
  | AQ_EVENT
  /-- R280. -/
  | AQ_PANS
  /-- R280. -/
  | AQ_PRE
  /-- R280. -/
  | AQ_HOLDOFF
  /-- R280. -/
  | AQ_POST
  /-- R280. -/
  | AQ_AUTO
  /-- R280. -/
  | AQ_STREAM
  /-- R280. -/
  | AQ_LAST_T
  /-- R280. -/
  | AQ_CAPTURES
  /-- R280. -/
  | AQ_IGNORED
  /-- R280. -/
  | AQ_STOPS
  /-- R280. -/
  | AQ_SRC
  /-- R280. -/
  | AQ_TRG_CTL
  /-- R280. -/
  | AQ_TRG_LO
  /-- R280. -/
  | AQ_TRG_HI
  /-- R280. -/
  | AQ_TRG_MASK
  /-- R282. -/
  | PAN_BASE
  /-- R282. -/
  | PAN_LEN
  /-- R282. -/
  | PAN_STATUS
  /-- R282. -/
  | PAN_HDR
  /-- R311. -/
  | CRY_CFG
  /-- R311. -/
  | CRY_CTL
  /-- R311. -/
  | CRY_CMD
  /-- R311. -/
  | CRY_STATUS
  /-- R311. -/
  | CRY_EVENT
  /-- R311. -/
  | CRY_DROPS
  /-- R311. -/
  | CRY_EXCLUDED
  /-- R311. -/
  | CRY_H_CFG
  /-- R311. -/
  | CRY_H_ORIGIN
  /-- R311. -/
  | CRY_H_UNDER
  /-- R311. -/
  | CRY_H_OVER
  /-- R311. -/
  | CRY_H_TOTAL
  /-- R311. -/
  | CRY_H_STATUS
  /-- R311. -/
  | CRY_MAP_CFG
  /-- R311. -/
  | CRY_MAP_OFFSET
  /-- R311. -/
  | CRY_MAP_ROW
  /-- R311. -/
  | CRY_MAP_SWEEPS
  /-- R311. -/
  | CRY_MAP_SKIPPED
  /-- R311. -/
  | CRY_MAP_CLIP
  /-- R311. -/
  | CRY_MAP_STATUS
  /-- R311. -/
  | MSK_CFG
  /-- R311. -/
  | MSK_STATUS
  /-- R311. -/
  | MSK_EVENT
  /-- R311. -/
  | MSK_PASS
  /-- R311. -/
  | MSK_FAIL
  /-- R311. -/
  | MSK_DISCARDED
  /-- R311. -/
  | MSK_ENT_CFG
  /-- R311. -/
  | MSK_ENT_LO
  /-- R311. -/
  | MSK_ENT_HI
  /-- R311. -/
  | MSK_ENT_SPAN
  /-- R313. -/
  | VD_CFG
  /-- R313. -/
  | VD_SRC
  /-- R313. -/
  | VD_LO
  /-- R313. -/
  | VD_HI
  /-- R313. -/
  | VD_STATUS
  /-- R313. -/
  | VD_SENT
  /-- R313. -/
  | VD_DROPS
  /-- R322. -/
  | MRK_CFG
  /-- R322. -/
  | MRK_CTL
  /-- R322. -/
  | MRK_STATUS
  /-- R322. -/
  | MRK_EVENT
  /-- R322. -/
  | MRK_START
  /-- R322. -/
  | MRK_FINE
  /-- R322. -/
  | MRK_WIDTH
  /-- R322. -/
  | MRK_PERIOD
  /-- R322. -/
  | MRK_BURST
  /-- R322. -/
  | MRK_TRIPSEL
  /-- R322. -/
  | MRK_FIRED
  /-- R322. -/
  | MRK_SUPPRESSED
  /-- R322. -/
  | MRK_MISSED
  /-- R322. -/
  | MRK_TRUNCATED
  /-- R322. -/
  | TRIP_CFG
  /-- R322. -/
  | TRIP_SEL
  /-- R322. -/
  | TRIP_STATUS
  /-- R322. -/
  | TRIP_EVENT
  /-- R322. -/
  | TRIP_COUNT
  /-- R344. -/
  | SLU_CFG
  /-- R344. -/
  | SLU_ENGINE_CFG
  /-- R344. -/
  | SLU_CTL
  /-- R344. -/
  | SLU_ENGINE_CTL
  /-- R344. -/
  | SLU_STATUS
  /-- R344. -/
  | SLU_ENGINE_STATUS
  /-- R344. -/
  | SLU_EVENT
  /-- R344. -/
  | SLU_ENGINE_EVENT
  /-- R344. -/
  | SLU_SRC
  /-- R344. -/
  | SLU_HALT_ADDR
  /-- R344. -/
  | SLU_DST
  /-- R344. -/
  | SLU_HALT_CAUSE
  /-- R344. -/
  | SLU_COUNT
  /-- R344. -/
  | SLU_HALTS
  /-- R344. -/
  | SLU_COMMIT
  /-- R344. -/
  | SLU_LIST
  /-- R344. -/
  | SLU_DONE
  /-- R344. -/
  | SLU_CREDIT
  /-- R344. -/
  | SLU_DESC
  /-- R366. -/
  | LNK_QUAD_CFG
  /-- R366. -/
  | LNK_LANE_CFG
  /-- R366. -/
  | LNK_QUAD_CTL
  /-- R366. -/
  | LNK_LANE_CTL
  /-- R366. -/
  | LNK_QUAD_STATUS
  /-- R366. -/
  | LNK_LANE_CMD
  /-- R366. -/
  | LNK_LANE_STATUS
  /-- R366. -/
  | LNK_LANE_EVENT
  /-- R366. -/
  | LNK_LANE_PRESET
  /-- R366. -/
  | LNK_LANE_TAPS
  /-- R366. -/
  | LNK_LANE_DFE
  /-- R366. -/
  | LNK_LANE_EYE
  /-- R366. -/
  | LNK_LANE_RETRAINS
  /-- R366. -/
  | LNK_LANE_SHERR
  /-- R366. -/
  | LNK_LANE_GUARD
  /-- R396. -/
  | LNK_LINK_CFG
  /-- R396. -/
  | LNK_LINK_CTL
  /-- R396. -/
  | LNK_LINK_STATUS
  /-- R396. -/
  | LNK_LINK_EVENT
  /-- R396. -/
  | LNK_LINK_PKTS
  /-- R396. -/
  | LNK_LINK_BUSY
  /-- R396. -/
  | LNK_LINK_PKT_ERR
  /-- R396. -/
  | LNK_LINK_CHK_ERR
  /-- R396. -/
  | LNK_LINK_LOST_BLOCKS
  /-- R396. -/
  | LNK_LINK_BIP_ERR
  /-- R396. -/
  | LNK_LINK_UNKNOWN
  /-- R396. -/
  | LNK_LINK_TRIGGERS
  /-- R396. -/
  | LNK_LINK_VERDICTS
  /-- R422. -/
  | DEV_ID
  /-- R422. -/
  | DEV_VENDOR
  /-- R422. -/
  | DEV_STATE
  /-- R422. -/
  | DEV_TIDEGATE
  /-- R422. -/
  | DEV_CMD
  /-- R422. -/
  | DEV_EVENT
  /-- R422. -/
  | DEV_BUSERR
  /-- R422. -/
  | DEV_BUSERR_ADDR
  /-- R422. -/
  | DEV_BUSERR_COUNT
  /-- R422. -/
  | DEV_IRQ_STATUS
  /-- R422. -/
  | DEV_IRQ_ENABLE
  /-- R422. -/
  | DEV_HARVEST
  /-- R422. -/
  | DEV_HARVEST_TIME
  /-- R423. -/
  | TB_REF_CFG
  /-- R423. -/
  | TB_STATUS
  /-- R423. -/
  | TB_PPS_CFG
  /-- R423. -/
  | TB_PPS_DELAY
  /-- R423. -/
  | TB_PPS_OFFSET
  /-- R423. -/
  | TB_PPS_EXTRA
  /-- R423. -/
  | TB_HOLD_PHASE
  /-- R423. -/
  | TB_REF_OUT_PHASE
  /-- R423. -/
  | TB_SEC_SET
  /-- R423. -/
  | TB_CMD
  /-- R423. -/
  | TB_LEAP
  /-- R423. -/
  | TB_FRAME
  /-- R423. -/
  | TB_FRAME_COMMIT
  /-- R423. -/
  | TB_PPS_OUT
  /-- R423. -/
  | TB_SYSREF
  /-- R423. -/
  | TB_SYSREF_SKEW
  /-- R423. -/
  | TB_ISLAND_UNLOCK
  /-- R423. -/
  | TB_NOW
  /-- R424. -/
  | LIFE_STATUS
  /-- R424. -/
  | LIFE_HOURS
  /-- R424. -/
  | LIFE_SCREEN_HOURS
  /-- R424. -/
  | LIFE_CONSUMED
  /-- R424. -/
  | LIFE_AVG
  /-- R424. -/
  | LIFE_SHUTDOWNS
  /-- R424. -/
  | LIFE_ENTRIES
  /-- R424. -/
  | LIFE_REFRESH_LAST
  /-- R424. -/
  | LIFE_REFRESH_NEXT
  /-- R424. -/
  | LIFE_RO
  /-- R424. -/
  | LIFE_SCRUB_CE
  /-- R424. -/
  | LIFE_SCRUB_UE
  /-- R424. -/
  | LIFE_ROWS_REPAIRED
  /-- R424. -/
  | LIFE_SCRUB_PASSES
  /-- R424. -/
  | LIFE_UNIT_CMD
  /-- R424. -/
  | LIFE_ENG_RETIRED
  /-- R424. -/
  | LIFE_PCH_RETIRED
  /-- R424. -/
  | LIFE_SLU_RETIRED
  /-- R424. -/
  | LIFE_CMD
  /-- R424. -/
  | LIFE_EVENT
  /-- R366. -/
  | LNK_TRAIN
  /-- R313. -/
  | VD_EVENT
  /-- R322. -/
  | TRIP_LINES
  deriving DecidableEq, Repr

/-- Every field of the register tables: `X_Y` is the field `X.Y` of the tables. -/
inductive Fld where
  /-- R98 [9:0] SH. -/
  | PWR_CFG_EFF
  /-- R98 [19:0] SH. -/
  | PWR_LIMIT_INPUT_MW
  /-- R98 [19:0] ST. -/
  | PWR_GUARD_SLICE_MW
  /-- R98 [7:0] SH. -/
  | PWR_THERM_TARGET
  /-- R98 [23:8] SH. -/
  | PWR_THERM_GAIN
  /-- R98 [0] RO. -/
  | PWR_STATUS_DEFER
  /-- R98 [1] RO. -/
  | PWR_STATUS_SHEDDING
  /-- R98 [4:2] RO. -/
  | PWR_STATUS_STEP
  /-- R98 [6:5] RO. -/
  | PWR_STATUS_IS8_STATE
  /-- R98 [12:8] RO. -/
  | PWR_STATUS_HOTTEST_ID
  /-- R98 [31:16] RO. -/
  | PWR_STATUS_HOTTEST
  /-- R98 [19:0] RO. -/
  | PWR_BUDGET_MW
  /-- R98 [19:0] RO. -/
  | PWR_LOAD_MW
  /-- R98 [13:0] RO. -/
  | PWR_QUEUE_GUARD
  /-- R98 [20:16] RO. -/
  | PWR_QUEUE_SYSTEM
  /-- R98 [13:0] RO. -/
  | PWR_BACKLOG_SURVEY
  /-- R98 [15:0] CT. -/
  | PWR_SHED_COUNT
  /-- R98 [23:16] CT. -/
  | PWR_SHED_SHUTDOWNS
  /-- R98 [0] EV. -/
  | PWR_EVENT_DEFER_START
  /-- R98 [1] EV. -/
  | PWR_EVENT_SHED_START
  /-- R98 [2] EV. -/
  | PWR_EVENT_GUARD_REFUSED
  /-- R98 [3] EV. -/
  | PWR_EVENT_RAIL_FAULT
  /-- R98 [4] EV. -/
  | PWR_EVENT_SENSOR_LOST
  /-- R98 [31:24] RO. -/
  | PWR_EVENT_SEQ
  /-- R98 [31:0] CT. -/
  | PWR_TICK_COUNT
  /-- R98 [11:0] RO. -/
  | PWR_TEMP_TEMP
  /-- R98 [15] RO. -/
  | PWR_TEMP_VALID
  /-- R98 [1:0] RW. -/
  | PWR_ISLAND_FLOOR
  /-- R98 [5:4] RO. -/
  | PWR_ISLAND_STATE
  /-- R98 [23:8] RW. -/
  | PWR_ISLAND_HOLD_MS
  /-- R98 [23:0] SH. -/
  | PWR_COST_COST
  /-- R98 [12:0] RO. -/
  | PWR_RAIL_VOUT_MV
  /-- R98 [16] RO. -/
  | PWR_RAIL_PG
  /-- R98 [19:17] RO. -/
  | PWR_RAIL_FAULT
  /-- R98 [20] RO. -/
  | PWR_RAIL_ENABLED
  /-- R98 [0] GO. -/
  | PWR_CMD_RAIL_RETRY
  /-- R99 [6:0] KY. -/
  | HVS_CFG_ILIM
  /-- R99 [9:7] KY. -/
  | HVS_CFG_SLEW
  /-- R99 [15:10] KY. -/
  | HVS_CFG_FAULT_MS
  /-- R99 [16] KY. -/
  | HVS_CFG_RETRY
  /-- R99 [0] RO. -/
  | HVS_STATUS_VIN_OK
  /-- R99 [1] RO. -/
  | HVS_STATUS_OVER
  /-- R99 [2] RO. -/
  | HVS_STATUS_LOW
  /-- R99 [3] RO. -/
  | HVS_STATUS_FET_ON
  /-- R99 [4] RO. -/
  | HVS_STATUS_BUS_ON
  /-- R99 [5] RO. -/
  | HVS_STATUS_LIMITING
  /-- R99 [6] RO. -/
  | HVS_STATUS_LINK_OK
  /-- R99 [16:0] RO. -/
  | HVS_VIN_MV
  /-- R99 [12:0] RO. -/
  | HVS_IIN_MA
  /-- R99 [19:0] RO. -/
  | HVS_PIN_MW
  /-- R99 [63:0] CT. -/
  | HVS_ENERGY_MJ
  /-- R99 [19:0] RO. -/
  | HVS_PEAK_MW
  /-- R99 [0] EV. -/
  | HVS_EVENT_OVER_SEEN
  /-- R99 [1] EV. -/
  | HVS_EVENT_LOW_SEEN
  /-- R99 [2] EV. -/
  | HVS_EVENT_LIMIT_TRIP
  /-- R99 [3] EV. -/
  | HVS_EVENT_HEARTBEAT_LOST
  /-- R99 [31:24] RO. -/
  | HVS_EVENT_SEQ
  /-- R99 [15:0] CT. -/
  | HVS_TRIPS_COUNT
  /-- R99 [0] GO. -/
  | HVS_CMD_PEAK_CLEAR
  /-- R99 [1] KY. -/
  | HVS_CMD_FET_RESTART
  /-- R120 [2:0] RO. -/
  | BOOT_PHASE_STATE
  /-- R120 [3] RO. -/
  | BOOT_PHASE_SLOT
  /-- R120 [7:4] RO. -/
  | BOOT_PHASE_PHASE
  /-- R120 [15:8] RO. -/
  | BOOT_PHASE_SECTION
  /-- R120 [23:16] RO. -/
  | BOOT_PHASE_ERROR
  /-- R120 [31:24] RO. -/
  | BOOT_PHASE_PROGRESS
  /-- R125 [0] RO. -/
  | BOOT_STATUS_VALID_A
  /-- R125 [1] RO. -/
  | BOOT_STATUS_VALID_B
  /-- R125 [2] RO. -/
  | BOOT_STATUS_FUSED
  /-- R125 [3] RO. -/
  | BOOT_STATUS_SIGNED
  /-- R125 [4] RO. -/
  | BOOT_STATUS_FALLBACK
  /-- R125 [5] RO. -/
  | BOOT_STATUS_LOCKOUT
  /-- R125 [15:8] RO. -/
  | BOOT_STATUS_SKIPPED
  /-- R125 [23:16] RO. -/
  | BOOT_STATUS_APPLIED
  /-- R125 [31:0] RO. -/
  | BOOT_GEN_A_GEN
  /-- R125 [31:0] RO. -/
  | BOOT_GEN_B_GEN
  /-- R125 [7:0] RO. -/
  | BOOT_FAIL_CODE
  /-- R125 [15:8] RO. -/
  | BOOT_FAIL_SECTION
  /-- R125 [31:16] RO. -/
  | BOOT_FAIL_ENTRY
  /-- R125 [1:0] RO. -/
  | BOOT_FLASH_MODE
  /-- R125 [4] RO. -/
  | BOOT_FLASH_FOUR_BYTE
  /-- R125 [12:8] RO. -/
  | BOOT_FLASH_DENSITY
  /-- R125 [1:0] RW. -/
  | BOOT_CFG_FORCE
  /-- R125 [0] KY. -/
  | BOOT_CMD_REBOOT
  /-- R125 [0] EV. -/
  | BOOT_EVENT_FALLBACK_USED
  /-- R125 [1] EV. -/
  | BOOT_EVENT_SECTION_SKIPPED
  /-- R125 [2] EV. -/
  | BOOT_EVENT_PASS2_RETRY
  /-- R125 [31:24] RO. -/
  | BOOT_EVENT_SEQ
  /-- R125 [31:0] RO. -/
  | BOOT_MARK_US
  /-- R125 [31:0] RO. -/
  | BOOT_KEYHASH_WORD
  /-- R151 [0] ST. -/
  | TCH_INPUT_MODE
  /-- R151 [11:0] SH. -/
  | TCH_THRESH_LEVEL
  /-- R151 [19:16] SH. -/
  | TCH_THRESH_HYST
  /-- R151 [0] GO. -/
  | TCH_FE_COMMIT_COMMIT
  /-- R151 [15:8] RO. -/
  | TCH_FE_COMMIT_APPLIED_SEQ
  /-- R151 [0] RO. -/
  | TCH_FE_STATUS_STATE_KNOWN
  /-- R151 [1] RO. -/
  | TCH_FE_STATUS_LEVEL
  /-- R151 [2] RO. -/
  | TCH_FE_STATUS_OVR_NOW
  /-- R151 [3] RO. -/
  | TCH_FE_STATUS_NBR_NOW
  /-- R151 [4] RO. -/
  | TCH_FE_STATUS_THS_NOW
  /-- R151 [7:5] RO. -/
  | TCH_FE_STATUS_OVR_CLASS
  /-- R151 [9:0] SH. -/
  | TCH_WIN_LIMIT_HIGH
  /-- R151 [25:16] SH. -/
  | TCH_WIN_LIMIT_LOW
  /-- R151 [1:0] ST. -/
  | TCH_WIN_CFG_SENSE
  /-- R151 [6:2] ST. -/
  | TCH_WIN_CFG_N
  /-- R151 [11:7] ST. -/
  | TCH_WIN_CFG_M
  /-- R151 [13:12] ST. -/
  | TCH_WIN_CFG_LATCH
  /-- R151 [21:16] ST. -/
  | TCH_WIN_CFG_TL
  /-- R151 [22] ST. -/
  | TCH_WIN_CFG_ROUTE
  /-- R151 [0] RW. -/
  | TCH_WIN_CTL_ENABLE
  /-- R151 [0] RO. -/
  | TCH_WIN_STATUS_ACTIVE
  /-- R151 [1] RO. -/
  | TCH_WIN_STATUS_FILTER
  /-- R151 [2] RO. -/
  | TCH_WIN_STATUS_LATCHED
  /-- R151 [3] RO. -/
  | TCH_WIN_STATUS_HELD
  /-- R151 [8:4] RO. -/
  | TCH_WIN_STATUS_COUNT
  /-- R151 [0] EV. -/
  | TCH_WIN_EVENT_TRIPPED
  /-- R151 [31:24] RO. -/
  | TCH_WIN_EVENT_SEQ
  /-- R151 [31:0] CT. -/
  | TCH_WIN_COUNT_ASSERTS
  /-- R151 [31:0] CT. -/
  | TCH_OVR_COUNT_EPISODES
  /-- R151 [31:0] CT. -/
  | TCH_RUNT_COUNT
  /-- R187 [31:0] ST. -/
  | TCH_INDELAY_TICKS
  /-- R187 [0] RW. -/
  | TCH_ARM_ARM
  /-- R187 [0] ST. -/
  | TCH_BE_CFG_CLASS
  /-- R187 [2:1] ST. -/
  | TCH_BE_CFG_EDGES
  /-- R187 [3] ST. -/
  | TCH_BE_CFG_CHANGE
  /-- R187 [4] ST. -/
  | TCH_BE_CFG_CAL_BYPASS
  /-- R187 [15:0] ST. -/
  | TCH_STORE_TOL
  /-- R187 [0] RO. -/
  | TCH_BE_STATUS_PENDING
  /-- R187 [1] RO. -/
  | TCH_BE_STATUS_ARMED
  /-- R187 [2] RO. -/
  | TCH_BE_STATUS_TAKING
  /-- R187 [4:3] RO. -/
  | TCH_BE_STATUS_CAL
  /-- R187 [5] RO. -/
  | TCH_BE_STATUS_OVERFLOW
  /-- R187 [7:6] RO. -/
  | TCH_BE_STATUS_SUB
  /-- R187 [8] RO. -/
  | TCH_BE_STATUS_SPARE_BUSY
  /-- R187 [28:16] RO. -/
  | TCH_BE_STATUS_LEVEL
  /-- R187 [0] EV. -/
  | TCH_BE_EVENT_OVERFLOW
  /-- R187 [1] EV. -/
  | TCH_BE_EVENT_FAULT
  /-- R187 [2] EV. -/
  | TCH_BE_EVENT_CAL_FAIL
  /-- R187 [3] EV. -/
  | TCH_BE_EVENT_SWITCHED
  /-- R187 [4] EV. -/
  | TCH_BE_EVENT_REJOINED
  /-- R187 [5] EV. -/
  | TCH_BE_EVENT_GUARD_OVERFLOW
  /-- R187 [31:24] RO. -/
  | TCH_BE_EVENT_SEQ
  /-- R187 [0] KY. -/
  | TCH_BE_CMD_RETIRE
  /-- R187 [1] KY. -/
  | TCH_BE_CMD_RETURN
  /-- R187 [2] KY. -/
  | TCH_BE_CMD_RETIRE_NOW
  /-- R187 [3] GO. -/
  | TCH_BE_CMD_CAL_RESTART
  /-- R187 [1:0] RO. -/
  | TCH_CAL_STATUS_STATE
  /-- R187 [9:8] RO. -/
  | TCH_CAL_STATUS_FAILS
  /-- R187 [31:16] RO. -/
  | TCH_CAL_STATUS_GEN
  /-- R187 [15:0] RO. -/
  | TCH_CAL_DRIFT_MAX
  /-- R187 [31:0] RO. -/
  | TCH_CAL_HITS_COUNT
  /-- R187 [63:0] CT. -/
  | TCH_EDGES_COUNT
  /-- R187 [63:0] CT. -/
  | TCH_LOST_COUNT
  /-- R187 [63:0] CT. -/
  | TCH_SUPPRESSED_COUNT
  /-- R187 [31:0] CT. -/
  | TCH_OVF_COUNT_EPISODES
  /-- R187 [0] RW. -/
  | TCH_SPARE_CFG_AUTO
  /-- R218 [1:0] ST. -/
  | WCH_SOURCE_PAIR
  /-- R218 [7:4] ST. -/
  | WCH_SOURCE_CHAIN
  /-- R218 [8] ST. -/
  | WCH_SOURCE_CLASS
  /-- R218 [10:9] ST. -/
  | WCH_SOURCE_EDGES
  /-- R218 [1:0] ST. -/
  | WCH_JESD_PSET
  /-- R218 [14:8] ST. -/
  | WCH_JESD_RBD
  /-- R218 [31:0] ST. -/
  | WCH_CV_LAT_TICKS
  /-- R218 [31:0] ST. -/
  | WCH_INDELAY_TICKS
  /-- R218 [0] RW. -/
  | WCH_ARM_ARM
  /-- R218 [15:0] SH. -/
  | WCH_GAIN_G
  /-- R218 [2:0] SH. -/
  | WCH_FILT_ORDER
  /-- R218 [11:8] SH. -/
  | WCH_FILT_FC
  /-- R218 [15:0] SH. -/
  | WCH_NOTCH_F
  /-- R218 [16] SH. -/
  | WCH_NOTCH_ENABLE
  /-- R218 [15:0] SH. -/
  | WCH_XTHRESH_LEVEL
  /-- R218 [23:16] SH. -/
  | WCH_XTHRESH_HYST
  /-- R218 [0] GO. -/
  | WCH_COMMIT_COMMIT
  /-- R218 [15:8] RO. -/
  | WCH_COMMIT_APPLIED_SEQ
  /-- R218 [1:0] ST. -/
  | WCH_WIN_CFG_MODE
  /-- R218 [6:2] ST. -/
  | WCH_WIN_CFG_MK
  /-- R218 [63:0] ST. -/
  | WCH_WIN_START_TIME
  /-- R218 [31:0] ST. -/
  | WCH_WIN_LEN_COARSE
  /-- R218 [31:0] ST. -/
  | WCH_WIN_PERIOD_COARSE
  /-- R218 [31:0] ST. -/
  | WCH_WIN_DELAY_COARSE
  /-- R218 [0] RO. -/
  | WCH_STATUS_PENDING
  /-- R218 [1] RO. -/
  | WCH_STATUS_ARMED
  /-- R218 [2] RO. -/
  | WCH_STATUS_WINDOW
  /-- R218 [3] RO. -/
  | WCH_STATUS_INVALID
  /-- R218 [4] RO. -/
  | WCH_STATUS_CONV
  /-- R218 [5] RO. -/
  | WCH_STATUS_OVERFLOW
  /-- R218 [6] RO. -/
  | WCH_STATUS_PREEMPTED
  /-- R218 [7] RO. -/
  | WCH_STATUS_CORR_HELD
  /-- R218 [28:16] RO. -/
  | WCH_STATUS_LEVEL
  /-- R218 [0] EV. -/
  | WCH_EVENT_OVERFLOW
  /-- R218 [1] EV. -/
  | WCH_EVENT_INGEST_FAULT
  /-- R218 [2] EV. -/
  | WCH_EVENT_CORR_LIMIT
  /-- R218 [3] EV. -/
  | WCH_EVENT_MISSED
  /-- R218 [4] EV. -/
  | WCH_EVENT_PREEMPTED
  /-- R218 [5] EV. -/
  | WCH_EVENT_ABORT_LATE
  /-- R218 [6] EV. -/
  | WCH_EVENT_CRC
  /-- R218 [31:24] RO. -/
  | WCH_EVENT_SEQ
  /-- R218 [1:0] RO. -/
  | WCH_SLOT_STATUS_STATE
  /-- R218 [15:8] RO. -/
  | WCH_SLOT_STATUS_MARGIN
  /-- R218 [15:0] RO. -/
  | WCH_CORR_OFS_DIFF
  /-- R218 [15:0] RO. -/
  | WCH_CORR_GAIN_RATIO
  /-- R218 [15:0] RO. -/
  | WCH_CORR_SKEW_FS
  /-- R218 [63:0] CT. -/
  | WCH_CROSSINGS_COUNT
  /-- R218 [63:0] CT. -/
  | WCH_LOST_COUNT
  /-- R218 [31:0] CT. -/
  | WCH_SUPPRESSED_COUNT
  /-- R218 [31:0] CT. -/
  | WCH_OVF_COUNT_EPISODES
  /-- R218 [31:0] CT. -/
  | WCH_WIN_COUNT_DONE
  /-- R218 [31:0] CT. -/
  | WCH_WIN_MISSED_COUNT
  /-- R218 [31:0] CT. -/
  | WCH_PREEMPT_COUNT
  /-- R218 [31:0] CT. -/
  | WCH_CRC_ERR_COUNT
  /-- R249 [3:0] ST. -/
  | MC_CFG_TYPE
  /-- R249 [5:4] ST. -/
  | MC_CFG_GMODE
  /-- R249 [6] ST. -/
  | MC_CFG_STAB
  /-- R249 [7] ST. -/
  | MC_CFG_RING
  /-- R249 [9:8] ST. -/
  | MC_CFG_EDGE_A
  /-- R249 [11:10] ST. -/
  | MC_CFG_EDGE_B
  /-- R249 [13:12] ST. -/
  | MC_CFG_GATE_EDGE
  /-- R249 [14] ST. -/
  | MC_CFG_WIDTH_POL
  /-- R249 [15] ST. -/
  | MC_CFG_INT_MODE
  /-- R249 [31:16] ST. -/
  | MC_CFG_GATE_N
  /-- R249 [7:0] ST. -/
  | MC_SRC_SRC_A
  /-- R249 [15:8] ST. -/
  | MC_SRC_SRC_B
  /-- R249 [23:16] ST. -/
  | MC_SRC_SRC_G
  /-- R249 [27:24] ST. -/
  | MC_SRC_DIV_A
  /-- R249 [31:28] ST. -/
  | MC_SRC_DIV_B
  /-- R249 [0] RW. -/
  | MC_CTL_ARM
  /-- R249 [1] GO. -/
  | MC_CTL_RESTART
  /-- R249 [2] GO. -/
  | MC_CTL_STAB_CLEAR
  /-- R249 [0] RO. -/
  | MC_STATUS_PENDING
  /-- R249 [1] RO. -/
  | MC_STATUS_ARMED
  /-- R249 [2] RO. -/
  | MC_STATUS_OPEN
  /-- R249 [3] RO. -/
  | MC_STATUS_RESERVED
  /-- R249 [4] RO. -/
  | MC_STATUS_WAITING
  /-- R249 [12:8] RO. -/
  | MC_STATUS_ENGINE
  /-- R249 [25:16] RO. -/
  | MC_STATUS_STAB_SLOT
  /-- R249 [26] RO. -/
  | MC_STATUS_STAB_HELD
  /-- R249 [63:0] RO. -/
  | MC_RESULT_VALUE
  /-- R249 [63:0] RO. -/
  | MC_GATE_END_TIME
  /-- R249 [2:0] RO. -/
  | MC_VALID_CODE
  /-- R249 [19:4] RO. -/
  | MC_VALID_FLAGS
  /-- R249 [31:20] RO. -/
  | MC_VALID_GATE_SEQ
  /-- R249 [31:0] RO. -/
  | MC_COUNT_N
  /-- R250 [63:0] RO. -/
  | MC_RING_BASE_ADDR
  /-- R250 [11:0] RO. -/
  | MC_RING_WR_INDEX
  /-- R250 [11:0] RW. -/
  | MC_RING_RD_INDEX
  /-- R250 [31:0] CT. -/
  | MC_RING_LOST_COUNT
  /-- R250 [0] EV. -/
  | MC_EVENT_RING_HALF
  /-- R250 [1] EV. -/
  | MC_EVENT_RING_FULL
  /-- R250 [2] EV. -/
  | MC_EVENT_DROP
  /-- R250 [3] EV. -/
  | MC_EVENT_FRAME_INVALID
  /-- R250 [31:24] RO. -/
  | MC_EVENT_SEQ
  /-- R250 [10:0] RO. -/
  | MC_STAB_FREE_SLOTS
  /-- R250 [31:0] CT. -/
  | MC_DROPS_COUNT
  /-- R250 [15:0] RO. -/
  | MC_ENG_STATUS_LOAD
  /-- R250 [29:16] RO. -/
  | MC_ENG_STATUS_CONTEXTS
  /-- R250 [30] RO. -/
  | MC_ENG_STATUS_RETIRED
  /-- R250 [31:0] CT. -/
  | MC_ENG_DROPS_COUNT
  /-- R281 [1:0] ST. -/
  | AQ_CFG_MODE
  /-- R281 [2] ST. -/
  | AQ_CFG_STORE
  /-- R281 [3] ST. -/
  | AQ_CFG_PRE_WAIT
  /-- R281 [4] ST. -/
  | AQ_CFG_RECYCLE
  /-- R281 [0] RW. -/
  | AQ_ARM_ARM
  /-- R281 [0] GO. -/
  | AQ_CMD_FORCE
  /-- R281 [1] GO. -/
  | AQ_CMD_ABORT
  /-- R281 [3:0] RO. -/
  | AQ_STATUS_STATE
  /-- R281 [4] RO. -/
  | AQ_STATUS_PENDING
  /-- R281 [5] RO. -/
  | AQ_STATUS_ARMED
  /-- R281 [6] RO. -/
  | AQ_STATUS_CLASS
  /-- R281 [7] RO. -/
  | AQ_STATUS_STREAMING
  /-- R281 [15:8] RO. -/
  | AQ_STATUS_PAN
  /-- R281 [24:16] RO. -/
  | AQ_STATUS_FREE_PANS
  /-- R281 [0] EV. -/
  | AQ_EVENT_CAPTURED
  /-- R281 [1] EV. -/
  | AQ_EVENT_STOPPED
  /-- R281 [2] EV. -/
  | AQ_EVENT_ABORT_LATE
  /-- R281 [3] EV. -/
  | AQ_EVENT_PRE_LOST
  /-- R281 [4] EV. -/
  | AQ_EVENT_NO_PAN
  /-- R281 [31:24] RO. -/
  | AQ_EVENT_SEQ
  /-- R281 [7:0] ST. -/
  | AQ_PANS_FIRST
  /-- R281 [16:8] ST. -/
  | AQ_PANS_COUNT
  /-- R281 [31:0] ST. -/
  | AQ_PRE_WORDS
  /-- R281 [31:0] ST. -/
  | AQ_HOLDOFF_COARSE
  /-- R281 [39:0] ST. -/
  | AQ_POST_WORDS
  /-- R281 [31:0] ST. -/
  | AQ_AUTO_TIMEOUT
  /-- R281 [0] ST. -/
  | AQ_STREAM_ENABLE
  /-- R281 [12:8] ST. -/
  | AQ_STREAM_SL
  /-- R281 [63:0] RO. -/
  | AQ_LAST_T_TIME
  /-- R281 [31:0] CT. -/
  | AQ_CAPTURES_COUNT
  /-- R281 [31:0] CT. -/
  | AQ_IGNORED_COUNT
  /-- R281 [31:0] CT. -/
  | AQ_STOPS_COUNT
  /-- R281 [7:0] ST. -/
  | AQ_SRC_SRC
  /-- R281 [8] ST. -/
  | AQ_SRC_ENABLE
  /-- R281 [3:0] ST. -/
  | AQ_TRG_CTL_TYPE
  /-- R281 [11:4] ST. -/
  | AQ_TRG_CTL_SRC
  /-- R281 [13:12] ST. -/
  | AQ_TRG_CTL_EDGE
  /-- R281 [21:14] ST. -/
  | AQ_TRG_CTL_SRC_B
  /-- R281 [23:22] ST. -/
  | AQ_TRG_CTL_EDGE_B
  /-- R281 [31:0] ST. -/
  | AQ_TRG_LO_VALUE
  /-- R281 [31:0] ST. -/
  | AQ_TRG_HI_VALUE
  /-- R281 [31:0] ST. -/
  | AQ_TRG_MASK_BITS
  /-- R282 [18:0] ST. -/
  | PAN_BASE_BASE
  /-- R282 [19:0] ST. -/
  | PAN_LEN_LEN
  /-- R282 [1:0] RO. -/
  | PAN_STATUS_STATE
  /-- R282 [7:4] RO. -/
  | PAN_STATUS_OWNER
  /-- R282 [8] GO. -/
  | PAN_STATUS_RELEASE
  /-- R282 [31:16] RO. -/
  | PAN_STATUS_CAPSEQ
  /-- R282 [31:0] RO. -/
  | PAN_HDR_OFS
  /-- R312 [1:0] ST. -/
  | CRY_CFG_KIND
  /-- R312 [5:2] ST. -/
  | CRY_CFG_NHIST
  /-- R312 [6] ST. -/
  | CRY_CFG_SCOPE
  /-- R312 [7] ST. -/
  | CRY_CFG_EXCL_FE
  /-- R312 [8] ST. -/
  | CRY_CFG_EXCL_CONV
  /-- R312 [0] RW. -/
  | CRY_CTL_FREEZE
  /-- R312 [0] GO. -/
  | CRY_CMD_CLEAR
  /-- R312 [1] GO. -/
  | CRY_CMD_RELEASE
  /-- R312 [0] RO. -/
  | CRY_STATUS_FROZEN
  /-- R312 [1] RO. -/
  | CRY_STATUS_CLEARING
  /-- R312 [2] RO. -/
  | CRY_STATUS_MERGING
  /-- R312 [3] RO. -/
  | CRY_STATUS_HELD
  /-- R312 [0] EV. -/
  | CRY_EVENT_SAT
  /-- R312 [1] EV. -/
  | CRY_EVENT_DROP
  /-- R312 [31:24] RO. -/
  | CRY_EVENT_SEQ
  /-- R312 [31:0] CT. -/
  | CRY_DROPS_COUNT
  /-- R312 [31:0] CT. -/
  | CRY_EXCLUDED_COUNT
  /-- R312 [2:0] ST. -/
  | CRY_H_CFG_KIND
  /-- R312 [4:3] ST. -/
  | CRY_H_CFG_EDGE_A
  /-- R312 [6:5] ST. -/
  | CRY_H_CFG_EDGE_B
  /-- R312 [7] ST. -/
  | CRY_H_CFG_WIDTH_POL
  /-- R312 [12:8] ST. -/
  | CRY_H_CFG_SHIFT
  /-- R312 [23:16] ST. -/
  | CRY_H_CFG_SRC_A
  /-- R312 [31:24] ST. -/
  | CRY_H_CFG_SRC_B
  /-- R312 [63:0] ST. -/
  | CRY_H_ORIGIN_VALUE
  /-- R312 [31:0] CT. -/
  | CRY_H_UNDER_COUNT
  /-- R312 [31:0] CT. -/
  | CRY_H_OVER_COUNT
  /-- R312 [63:0] CT. -/
  | CRY_H_TOTAL_COUNT
  /-- R312 [7:0] RO. -/
  | CRY_H_STATUS_GRANULE
  /-- R312 [8] RO. -/
  | CRY_H_STATUS_SAT
  /-- R312 [3:0] ST. -/
  | CRY_MAP_CFG_SRC
  /-- R312 [6:4] ST. -/
  | CRY_MAP_CFG_COND
  /-- R312 [28:16] ST. -/
  | CRY_MAP_CFG_COLW
  /-- R312 [31:0] ST. -/
  | CRY_MAP_OFFSET_COARSE
  /-- R312 [15:0] ST. -/
  | CRY_MAP_ROW_ORIGIN
  /-- R312 [18:16] ST. -/
  | CRY_MAP_ROW_RSHIFT
  /-- R312 [31:0] CT. -/
  | CRY_MAP_SWEEPS_COUNT
  /-- R312 [31:0] CT. -/
  | CRY_MAP_SKIPPED_COUNT
  /-- R312 [31:0] CT. -/
  | CRY_MAP_CLIP_COUNT
  /-- R312 [7:0] RO. -/
  | CRY_MAP_STATUS_GRANULE
  /-- R312 [8] RO. -/
  | CRY_MAP_STATUS_SWEEPING
  /-- R312 [9] RO. -/
  | CRY_MAP_STATUS_SAT
  /-- R312 [0] ST. -/
  | MSK_CFG_ENABLE
  /-- R312 [1] ST. -/
  | MSK_CFG_REF_KIND
  /-- R312 [9:2] ST. -/
  | MSK_CFG_REF_SRC
  /-- R312 [11:10] ST. -/
  | MSK_CFG_REF_EDGE
  /-- R312 [18:12] ST. -/
  | MSK_CFG_NENT
  /-- R312 [4:0] RO. -/
  | MSK_STATUS_OPEN
  /-- R312 [24:5] RO. -/
  | MSK_STATUS_INSTANCE
  /-- R312 [0] EV. -/
  | MSK_EVENT_VIOLATION
  /-- R312 [1] EV. -/
  | MSK_EVENT_OVERRUN
  /-- R312 [31:24] RO. -/
  | MSK_EVENT_SEQ
  /-- R312 [31:0] CT. -/
  | MSK_PASS_COUNT
  /-- R312 [31:0] CT. -/
  | MSK_FAIL_COUNT
  /-- R312 [31:0] CT. -/
  | MSK_DISCARDED_COUNT
  /-- R312 [4:0] ST. -/
  | MSK_ENT_CFG_SRC
  /-- R312 [5] ST. -/
  | MSK_ENT_CFG_KIND
  /-- R312 [7:6] ST. -/
  | MSK_ENT_CFG_EDGE
  /-- R312 [11:8] ST. -/
  | MSK_ENT_CFG_COUNT
  /-- R312 [31:0] ST. -/
  | MSK_ENT_LO_TICKS
  /-- R312 [31:0] ST. -/
  | MSK_ENT_HI_TICKS
  /-- R312 [15:0] ST. -/
  | MSK_ENT_SPAN_EARLY
  /-- R312 [31:16] ST. -/
  | MSK_ENT_SPAN_LATE
  /-- R313 [3:0] ST. -/
  | VD_CFG_TYPE
  /-- R313 [7:4] ST. -/
  | VD_CFG_LINK
  /-- R313 [9:8] ST. -/
  | VD_CFG_EDGE
  /-- R313 [11:10] ST. -/
  | VD_CFG_EDGE_B
  /-- R313 [12] ST. -/
  | VD_CFG_SEND
  /-- R313 [23:16] ST. -/
  | VD_CFG_CODE
  /-- R313 [31] RW. -/
  | VD_CFG_ENABLE
  /-- R313 [7:0] ST. -/
  | VD_SRC_SRC
  /-- R313 [15:8] ST. -/
  | VD_SRC_SRC_B
  /-- R313 [19:16] ST. -/
  | VD_SRC_UNIT
  /-- R313 [31:0] ST. -/
  | VD_LO_TICKS
  /-- R313 [31:0] ST. -/
  | VD_HI_TICKS
  /-- R313 [0] RO. -/
  | VD_STATUS_OPEN
  /-- R313 [15:8] RO. -/
  | VD_STATUS_SEQ
  /-- R313 [31:0] CT. -/
  | VD_SENT_COUNT
  /-- R313 [31:0] CT. -/
  | VD_DROPS_COUNT
  /-- R313 [0] EV. -/
  | VD_EVENT_DROP
  /-- R313 [31:24] RO. -/
  | VD_EVENT_SEQ
  /-- R322 [1:0] ST. -/
  | MRK_CFG_PATTERN
  /-- R322 [3:2] ST. -/
  | MRK_CFG_LATCH
  /-- R322 [4] ST. -/
  | MRK_CFG_LOOP
  /-- R322 [15:8] ST. -/
  | MRK_CFG_DIV
  /-- R322 [0] RW. -/
  | MRK_CTL_ARM
  /-- R322 [0] RO. -/
  | MRK_STATUS_ARMED
  /-- R322 [1] RO. -/
  | MRK_STATUS_TRIPPED
  /-- R322 [2] RO. -/
  | MRK_STATUS_LATCHED
  /-- R322 [0] EV. -/
  | MRK_EVENT_TRIPPED
  /-- R322 [31:24] RO. -/
  | MRK_EVENT_SEQ
  /-- R322 [63:0] ST. -/
  | MRK_START_TIME
  /-- R322 [4:0] ST. -/
  | MRK_FINE_STEP
  /-- R322 [23:0] ST. -/
  | MRK_WIDTH_STEPS
  /-- R322 [47:0] ST. -/
  | MRK_PERIOD_STEPS
  /-- R322 [15:0] ST. -/
  | MRK_BURST_COUNT
  /-- R322 [31:16] ST. -/
  | MRK_BURST_SPACING
  /-- R322 [63:0] RW. -/
  | MRK_TRIPSEL_LINES
  /-- R322 [31:0] CT. -/
  | MRK_FIRED_COUNT
  /-- R322 [31:0] CT. -/
  | MRK_SUPPRESSED_COUNT
  /-- R322 [31:0] CT. -/
  | MRK_MISSED_COUNT
  /-- R322 [31:0] CT. -/
  | MRK_TRUNCATED_COUNT
  /-- R322 [1:0] RW. -/
  | TRIP_CFG_LATCH
  /-- R322 [2] RW. -/
  | TRIP_CFG_FORCE
  /-- R322 [12:8] RW. -/
  | TRIP_CFG_REL_MK
  /-- R322 [63:0] RW. -/
  | TRIP_SEL_LINES
  /-- R322 [0] RO. -/
  | TRIP_STATUS_TRIPPED
  /-- R322 [1] RO. -/
  | TRIP_STATUS_LATCHED
  /-- R322 [0] EV. -/
  | TRIP_EVENT_TRIPPED
  /-- R322 [31:24] RO. -/
  | TRIP_EVENT_SEQ
  /-- R322 [31:0] CT. -/
  | TRIP_COUNT_ASSERTS
  /-- R322 [63:0] RO. -/
  | TRIP_LINES_STATE
  /-- R345 [0] ST. -/
  | SLU_CFG_MODE
  /-- R345 [1] ST. -/
  | SLU_CFG_LIST_DIR
  /-- R345 [2] ST. -/
  | SLU_CFG_PACE
  /-- R345 [3] ST. -/
  | SLU_CFG_REMOTE_START
  /-- R345 [4] RW. -/
  | SLU_CFG_INT_HALF
  /-- R345 [5] RW. -/
  | SLU_CFG_INT_DONE
  /-- R345 [0] GO. -/
  | SLU_CTL_GO
  /-- R345 [1] GO. -/
  | SLU_CTL_DISABLE
  /-- R345 [2] GO. -/
  | SLU_CTL_PAUSE
  /-- R345 [3] GO. -/
  | SLU_CTL_RESUME
  /-- R345 [2:0] RO. -/
  | SLU_STATUS_STATE
  /-- R345 [3] RO. -/
  | SLU_STATUS_HELD
  /-- R345 [7:4] RO. -/
  | SLU_STATUS_UNIT
  /-- R345 [8] RO. -/
  | SLU_STATUS_WAIT_CREDIT
  /-- R345 [9] RO. -/
  | SLU_STATUS_WAIT_ACK
  /-- R345 [10] RO. -/
  | SLU_STATUS_WAIT_MEM
  /-- R345 [0] EV. -/
  | SLU_EVENT_DONE
  /-- R345 [1] EV. -/
  | SLU_EVENT_HALF
  /-- R345 [2] EV. -/
  | SLU_EVENT_DESC
  /-- R345 [3] EV. -/
  | SLU_EVENT_ABORT_LATE
  /-- R345 [4] EV. -/
  | SLU_EVENT_CREDIT_OVER
  /-- R345 [31:24] RO. -/
  | SLU_EVENT_SEQ
  /-- R345 [47:0] ST. -/
  | SLU_SRC_ADDR
  /-- R345 [47:0] ST. -/
  | SLU_DST_ADDR
  /-- R345 [31:0] ST. -/
  | SLU_COUNT_BYTES
  /-- R345 [0] GO. -/
  | SLU_COMMIT_COMMIT
  /-- R345 [15:8] RO. -/
  | SLU_COMMIT_APPLIED_SEQ
  /-- R345 [47:0] SH. -/
  | SLU_LIST_ADDR
  /-- R345 [63:0] CT. -/
  | SLU_DONE_BYTES
  /-- R345 [11:0] RO. -/
  | SLU_CREDIT_AVAIL
  /-- R345 [31:16] CT. -/
  | SLU_CREDIT_IGNORED
  /-- R345 [31:0] CT. -/
  | SLU_DESC_EVENTS
  /-- R345 [0] RW. -/
  | SLU_ENGINE_CFG_AUTO_RESTORE
  /-- R345 [0] GO. -/
  | SLU_ENGINE_CTL_DISABLE_ALL
  /-- R345 [1] KY. -/
  | SLU_ENGINE_CTL_RESUME
  /-- R345 [0] RO. -/
  | SLU_ENGINE_STATUS_HALTED
  /-- R345 [13:8] RO. -/
  | SLU_ENGINE_STATUS_RUNNING
  /-- R345 [17:16] RO. -/
  | SLU_ENGINE_STATUS_FAILS
  /-- R345 [0] EV. -/
  | SLU_ENGINE_EVENT_HALT
  /-- R345 [31:24] RO. -/
  | SLU_ENGINE_EVENT_SEQ
  /-- R345 [47:0] RO. -/
  | SLU_HALT_ADDR_ADDR
  /-- R345 [3:0] RO. -/
  | SLU_HALT_CAUSE_CODE
  /-- R345 [31:0] CT. -/
  | SLU_HALTS_COUNT
  /-- R367 [1:0] ST. -/
  | LNK_QUAD_CFG_RATE
  /-- R367 [2] ST. -/
  | LNK_QUAD_CFG_SSC_TX
  /-- R367 [3] ST. -/
  | LNK_QUAD_CFG_SSC_RX
  /-- R367 [11:4] RW. -/
  | LNK_QUAD_CFG_EYE_VMIN
  /-- R367 [17:12] RW. -/
  | LNK_QUAD_CFG_EYE_HMIN
  /-- R367 [1:0] RW. -/
  | LNK_QUAD_CTL_PWR
  /-- R367 [1:0] RO. -/
  | LNK_QUAD_STATUS_PWR
  /-- R367 [2] RO. -/
  | LNK_QUAD_STATUS_PLL_LOCK
  /-- R367 [6:3] RO. -/
  | LNK_QUAD_STATUS_TRAINED
  /-- R367 [0] ST. -/
  | LNK_LANE_CFG_RX_INV
  /-- R367 [1] ST. -/
  | LNK_LANE_CFG_TX_INV
  /-- R367 [7:4] ST. -/
  | LNK_LANE_CFG_LINK
  /-- R367 [0] RW. -/
  | LNK_LANE_CTL_ENABLE
  /-- R367 [1] RW. -/
  | LNK_LANE_CTL_P1_REQ
  /-- R367 [2] RW. -/
  | LNK_LANE_CTL_MANUAL_SLIP
  /-- R367 [0] GO. -/
  | LNK_LANE_CMD_RETRAIN
  /-- R367 [1] GO. -/
  | LNK_LANE_CMD_SLIP
  /-- R367 [2] KY. -/
  | LNK_LANE_CMD_RETIRE
  /-- R367 [3] KY. -/
  | LNK_LANE_CMD_RETURN
  /-- R367 [3:0] RO. -/
  | LNK_LANE_STATUS_STATE
  /-- R367 [4] RO. -/
  | LNK_LANE_STATUS_P1_NOW
  /-- R367 [5] RO. -/
  | LNK_LANE_STATUS_SIGNAL
  /-- R367 [6] RO. -/
  | LNK_LANE_STATUS_BLOCK_LOCK
  /-- R367 [7] RO. -/
  | LNK_LANE_STATUS_FROZEN
  /-- R367 [8] RO. -/
  | LNK_LANE_STATUS_IN_SERVICE
  /-- R367 [11:9] RO. -/
  | LNK_LANE_STATUS_BACKOFF
  /-- R367 [22:16] RO. -/
  | LNK_LANE_STATUS_SLIP
  /-- R367 [0] EV. -/
  | LNK_LANE_EVENT_LOS
  /-- R367 [1] EV. -/
  | LNK_LANE_EVENT_LOST_LOCK
  /-- R367 [2] EV. -/
  | LNK_LANE_EVENT_TIMEOUT
  /-- R367 [3] EV. -/
  | LNK_LANE_EVENT_EYE_LOW
  /-- R367 [4] EV. -/
  | LNK_LANE_EVENT_GUARD
  /-- R367 [31:24] RO. -/
  | LNK_LANE_EVENT_SEQ
  /-- R367 [3:0] ST. -/
  | LNK_LANE_PRESET_CTLE
  /-- R367 [7:4] ST. -/
  | LNK_LANE_PRESET_PRE
  /-- R367 [13:8] ST. -/
  | LNK_LANE_PRESET_MAIN
  /-- R367 [20:16] ST. -/
  | LNK_LANE_PRESET_POST
  /-- R367 [3:0] RO. -/
  | LNK_LANE_TAPS_CTLE
  /-- R367 [7:4] RO. -/
  | LNK_LANE_TAPS_PRE
  /-- R367 [13:8] RO. -/
  | LNK_LANE_TAPS_MAIN
  /-- R367 [20:16] RO. -/
  | LNK_LANE_TAPS_POST
  /-- R367 [31:0] RO. -/
  | LNK_LANE_DFE_TAPS
  /-- R367 [7:0] RO. -/
  | LNK_LANE_EYE_VMARGIN
  /-- R367 [13:8] RO. -/
  | LNK_LANE_EYE_HMARGIN
  /-- R367 [31:0] CT. -/
  | LNK_LANE_RETRAINS_COUNT
  /-- R367 [31:0] CT. -/
  | LNK_LANE_SHERR_COUNT
  /-- R367 [31:0] CT. -/
  | LNK_LANE_GUARD_COUNT
  /-- R367 [3:0] RO. -/
  | LNK_TRAIN_PLACES
  /-- R367 [14:8] RO. -/
  | LNK_TRAIN_QUEUED
  /-- R396 [1:0] KY. -/
  | LNK_LINK_CFG_REG
  /-- R396 [2] RW. -/
  | LNK_LINK_CFG_TIME
  /-- R396 [3] RW. -/
  | LNK_LINK_CFG_TRIG
  /-- R396 [0] ST. -/
  | LNK_LINK_CTL_ENABLE
  /-- R396 [0] RO. -/
  | LNK_LINK_STATUS_PENDING
  /-- R396 [1] RO. -/
  | LNK_LINK_STATUS_ADMITTED
  /-- R396 [7:4] RO. -/
  | LNK_LINK_STATUS_TX_SERVICE
  /-- R396 [11:8] RO. -/
  | LNK_LINK_STATUS_RX_SERVICE
  /-- R396 [15:12] RO. -/
  | LNK_LINK_STATUS_OFFER
  /-- R396 [19:16] RO. -/
  | LNK_LINK_STATUS_PARTNER_OFFER
  /-- R396 [25:20] RO. -/
  | LNK_LINK_STATUS_VQUEUE
  /-- R396 [30:26] RO. -/
  | LNK_LINK_STATUS_PKT_PENDING
  /-- R396 [0] EV. -/
  | LNK_LINK_EVENT_ADMIT
  /-- R396 [1] EV. -/
  | LNK_LINK_EVENT_UNADMIT
  /-- R396 [2] EV. -/
  | LNK_LINK_EVENT_DESKEW_FAIL
  /-- R396 [3] EV. -/
  | LNK_LINK_EVENT_PROTOCOL
  /-- R396 [4] EV. -/
  | LNK_LINK_EVENT_LOST
  /-- R396 [31:24] RO. -/
  | LNK_LINK_EVENT_SEQ
  /-- R396 [31:0] CT. -/
  | LNK_LINK_PKTS_COUNT
  /-- R396 [31:0] CT. -/
  | LNK_LINK_BUSY_COUNT
  /-- R396 [31:0] CT. -/
  | LNK_LINK_PKT_ERR_COUNT
  /-- R396 [31:0] CT. -/
  | LNK_LINK_CHK_ERR_COUNT
  /-- R396 [31:0] CT. -/
  | LNK_LINK_LOST_BLOCKS_COUNT
  /-- R396 [31:0] CT. -/
  | LNK_LINK_BIP_ERR_COUNT
  /-- R396 [31:0] CT. -/
  | LNK_LINK_UNKNOWN_COUNT
  /-- R396 [31:0] CT. -/
  | LNK_LINK_TRIGGERS_COUNT
  /-- R396 [31:0] CT. -/
  | LNK_LINK_VERDICTS_COUNT
  /-- R422 [15:0] RO. -/
  | DEV_ID_PART
  /-- R422 [23:16] RO. -/
  | DEV_ID_REV
  /-- R422 [24] RO. -/
  | DEV_ID_GRADE
  /-- R422 [10:0] RO. -/
  | DEV_VENDOR_JTAG_MFR
  /-- R422 [2:0] RO. -/
  | DEV_STATE_STATE
  /-- R422 [6:4] RO. -/
  | DEV_STATE_PREV
  /-- R422 [15:0] RW. -/
  | DEV_TIDEGATE_KEY
  /-- R422 [16] RO. -/
  | DEV_TIDEGATE_OPEN
  /-- R422 [0] GO. -/
  | DEV_CMD_HARVEST
  /-- R422 [1] KY. -/
  | DEV_CMD_ENTER_TEST
  /-- R422 [2] KY. -/
  | DEV_CMD_LEAVE_TEST
  /-- R422 [0] EV. -/
  | DEV_EVENT_BUS_ERROR
  /-- R422 [1] EV. -/
  | DEV_EVENT_PAIR_DROP
  /-- R422 [2] EV. -/
  | DEV_EVENT_HARVEST_DONE
  /-- R422 [3] EV. -/
  | DEV_EVENT_STATE
  /-- R422 [31:24] RO. -/
  | DEV_EVENT_SEQ
  /-- R422 [7:0] RO. -/
  | DEV_BUSERR_CODE
  /-- R422 [12:8] RO. -/
  | DEV_BUSERR_PORT
  /-- R422 [13] RO. -/
  | DEV_BUSERR_WRITE
  /-- R422 [31:0] RO. -/
  | DEV_BUSERR_ADDR_ADDR
  /-- R422 [31:0] CT. -/
  | DEV_BUSERR_COUNT_COUNT
  /-- R422 [15:0] RO. -/
  | DEV_IRQ_STATUS_BLOCKS
  /-- R422 [15:0] RW. -/
  | DEV_IRQ_ENABLE_BLOCKS
  /-- R422 [15:0] RO. -/
  | DEV_HARVEST_HSEQ
  /-- R422 [16] RO. -/
  | DEV_HARVEST_BUSY
  /-- R422 [28:24] RO. -/
  | DEV_HARVEST_QUAL
  /-- R422 [63:0] RO. -/
  | DEV_HARVEST_TIME_TIME
  /-- R423 [1:0] ST. -/
  | TB_REF_CFG_FREQ
  /-- R423 [5:4] RW. -/
  | TB_REF_CFG_BW
  /-- R423 [4:0] RO. -/
  | TB_STATUS_QUAL
  /-- R423 [8] RO. -/
  | TB_STATUS_TIME_VALID
  /-- R423 [9] RO. -/
  | TB_STATUS_REALIGN_PENDING
  /-- R423 [10] RO. -/
  | TB_STATUS_SET_PENDING
  /-- R423 [16] EV. -/
  | TB_STATUS_REALIGN_FAIL
  /-- R423 [31:24] RO. -/
  | TB_STATUS_SEQ
  /-- R423 [0] ST. -/
  | TB_PPS_CFG_EDGE
  /-- R423 [2:1] ST. -/
  | TB_PPS_CFG_MODE
  /-- R423 [15:8] RW. -/
  | TB_PPS_CFG_WAIT
  /-- R423 [23:16] RW. -/
  | TB_PPS_CFG_TOL
  /-- R423 [31:0] ST. -/
  | TB_PPS_DELAY_TICKS
  /-- R423 [31:0] RO. -/
  | TB_PPS_OFFSET_TICKS
  /-- R423 [31:0] CT. -/
  | TB_PPS_EXTRA_COUNT
  /-- R423 [18:0] RO. -/
  | TB_HOLD_PHASE_TICKS
  /-- R423 [18:0] RO. -/
  | TB_REF_OUT_PHASE_TICKS
  /-- R423 [31:0] RW. -/
  | TB_SEC_SET_SEC
  /-- R423 [0] GO. -/
  | TB_CMD_REALIGN
  /-- R423 [1] GO. -/
  | TB_CMD_SET_SEC
  /-- R423 [2] GO. -/
  | TB_CMD_SYSREF_BURST
  /-- R423 [31:0] RW. -/
  | TB_LEAP_SEC
  /-- R423 [32] RW. -/
  | TB_LEAP_DIR
  /-- R423 [23:0] SH. -/
  | TB_FRAME_LEN
  /-- R423 [0] GO. -/
  | TB_FRAME_COMMIT_COMMIT
  /-- R423 [15:8] RO. -/
  | TB_FRAME_COMMIT_APPLIED_SEQ
  /-- R423 [31:0] RW. -/
  | TB_PPS_OUT_OFFSET
  /-- R423 [55:32] RW. -/
  | TB_PPS_OUT_WIDTH
  /-- R423 [23:0] ST. -/
  | TB_SYSREF_PERIOD
  /-- R423 [25:24] ST. -/
  | TB_SYSREF_MODE
  /-- R423 [39:32] ST. -/
  | TB_SYSREF_COUNT
  /-- R423 [15:0] ST. -/
  | TB_SYSREF_SKEW_STEPS
  /-- R423 [8:0] EV. -/
  | TB_ISLAND_UNLOCK_IS
  /-- R423 [31:24] RO. -/
  | TB_ISLAND_UNLOCK_SEQ
  /-- R423 [63:0] RO. -/
  | TB_NOW_TIME
  /-- R424 [0] RO. -/
  | LIFE_STATUS_LEDGER_OK
  /-- R424 [1] RO. -/
  | LIFE_STATUS_REFRESH_DUE
  /-- R424 [2] RO. -/
  | LIFE_STATUS_REFRESHING
  /-- R424 [3] RO. -/
  | LIFE_STATUS_LEDGER_NEW
  /-- R424 [31:0] RO. -/
  | LIFE_HOURS_COUNT
  /-- R424 [31:0] RO. -/
  | LIFE_SCREEN_HOURS_COUNT
  /-- R424 [31:0] RO. -/
  | LIFE_CONSUMED_FRACTION
  /-- R424 [11:0] RO. -/
  | LIFE_AVG_TJ
  /-- R424 [25:16] RO. -/
  | LIFE_AVG_POWER
  /-- R424 [31:0] RO. -/
  | LIFE_SHUTDOWNS_COUNT
  /-- R424 [31:0] RO. -/
  | LIFE_ENTRIES_COUNT
  /-- R424 [31:0] RO. -/
  | LIFE_REFRESH_LAST_SEC
  /-- R424 [31:0] RO. -/
  | LIFE_REFRESH_NEXT_SEC
  /-- R424 [15:0] RO. -/
  | LIFE_RO_FREQ
  /-- R424 [31:16] RO. -/
  | LIFE_RO_DRIFT
  /-- R424 [31:0] CT. -/
  | LIFE_SCRUB_CE_COUNT
  /-- R424 [31:0] CT. -/
  | LIFE_SCRUB_UE_COUNT
  /-- R424 [31:0] RO. -/
  | LIFE_ROWS_REPAIRED_COUNT
  /-- R424 [31:0] CT. -/
  | LIFE_SCRUB_PASSES_COUNT
  /-- R424 [1:0] RW. -/
  | LIFE_UNIT_CMD_KIND
  /-- R424 [13:8] RW. -/
  | LIFE_UNIT_CMD_INDEX
  /-- R424 [16] KY. -/
  | LIFE_UNIT_CMD_RETIRE
  /-- R424 [17] KY. -/
  | LIFE_UNIT_CMD_RETURN
  /-- R424 [23:0] RO. -/
  | LIFE_ENG_RETIRED_BITS
  /-- R424 [63:0] RO. -/
  | LIFE_PCH_RETIRED_BITS
  /-- R424 [31:0] RO. -/
  | LIFE_SLU_RETIRED_BITS
  /-- R424 [0] KY. -/
  | LIFE_CMD_REFRESH
  /-- R424 [1] GO. -/
  | LIFE_CMD_LEDGER_SYNC
  /-- R424 [0] EV. -/
  | LIFE_EVENT_AGEING
  /-- R424 [1] EV. -/
  | LIFE_EVENT_SCRUB_UE
  /-- R424 [2] EV. -/
  | LIFE_EVENT_REFRESH_DONE
  /-- R424 [3] EV. -/
  | LIFE_EVENT_REFRESH_FAIL
  /-- R424 [4] EV. -/
  | LIFE_EVENT_LEDGER_FAIL
  /-- R424 [5] EV. -/
  | LIFE_EVENT_UNIT_DONE
  /-- R424 [31:24] RO. -/
  | LIFE_EVENT_SEQ
  deriving DecidableEq, Repr

/-- Where a register lies (R405): block, address of instance 0, unit stride and count, array stride and count, and
whether it is a 64-bit pair (R409). Instance `i` is unit `i / n2`, array element `i % n2`. -/
structure RegDesc where
  blk  : Blk
  base : Nat
  st   : Nat
  n1   : Nat
  ast  : Nat
  n2   : Nat
  pair : Bool
  deriving DecidableEq, Repr

/-- One field: its register, least significant bit, width and access code. -/
structure FldDesc where
  reg : Reg
  lo  : Nat
  w   : Nat
  acc : Acc
  deriving DecidableEq, Repr

/-- The place of each register in the address map (R405 and the offset tables of the blocks). -/
def Reg.desc : Reg → RegDesc
  | .PWR_CFG => ⟨.PWR, 0x10000, 0x0, 1, 0, 1, false⟩
  | .PWR_LIMIT => ⟨.PWR, 0x10004, 0x0, 1, 0, 1, false⟩
  | .PWR_GUARD => ⟨.PWR, 0x10008, 0x0, 1, 0, 1, false⟩
  | .PWR_THERM => ⟨.PWR, 0x1000c, 0x0, 1, 0, 1, false⟩
  | .PWR_STATUS => ⟨.PWR, 0x10010, 0x0, 1, 0, 1, false⟩
  | .PWR_BUDGET => ⟨.PWR, 0x10014, 0x0, 1, 0, 1, false⟩
  | .PWR_LOAD => ⟨.PWR, 0x10018, 0x0, 1, 0, 1, false⟩
  | .PWR_QUEUE => ⟨.PWR, 0x1001c, 0x0, 1, 0, 1, false⟩
  | .PWR_SHED => ⟨.PWR, 0x10020, 0x0, 1, 0, 1, false⟩
  | .PWR_EVENT => ⟨.PWR, 0x10024, 0x0, 1, 0, 1, false⟩
  | .PWR_TICK => ⟨.PWR, 0x10028, 0x0, 1, 0, 1, false⟩
  | .PWR_BACKLOG => ⟨.PWR, 0x1002c, 0x0, 1, 0, 1, false⟩
  | .PWR_TEMP => ⟨.PWR, 0x10040, 0x0, 1, 4, 24, false⟩
  | .PWR_ISLAND => ⟨.PWR, 0x10100, 0x0, 1, 4, 8, false⟩
  | .PWR_COST => ⟨.PWR, 0x10140, 0x0, 1, 4, 8, false⟩
  | .PWR_RAIL => ⟨.PWR, 0x10180, 0x0, 1, 4, 10, false⟩
  | .PWR_CMD => ⟨.PWR, 0x101c0, 0x0, 1, 0, 1, false⟩
  | .HVS_CFG => ⟨.HVS, 0x20000, 0x0, 1, 0, 1, false⟩
  | .HVS_STATUS => ⟨.HVS, 0x20004, 0x0, 1, 0, 1, false⟩
  | .HVS_VIN => ⟨.HVS, 0x20008, 0x0, 1, 0, 1, false⟩
  | .HVS_IIN => ⟨.HVS, 0x2000c, 0x0, 1, 0, 1, false⟩
  | .HVS_PIN => ⟨.HVS, 0x20010, 0x0, 1, 0, 1, false⟩
  | .HVS_ENERGY => ⟨.HVS, 0x20018, 0x0, 1, 0, 1, true⟩
  | .HVS_PEAK => ⟨.HVS, 0x20020, 0x0, 1, 0, 1, false⟩
  | .HVS_EVENT => ⟨.HVS, 0x20024, 0x0, 1, 0, 1, false⟩
  | .HVS_TRIPS => ⟨.HVS, 0x20028, 0x0, 1, 0, 1, false⟩
  | .HVS_CMD => ⟨.HVS, 0x2002c, 0x0, 1, 0, 1, false⟩
  | .BOOT_PHASE => ⟨.BOOT, 0x30000, 0x0, 1, 0, 1, false⟩
  | .BOOT_STATUS => ⟨.BOOT, 0x30004, 0x0, 1, 0, 1, false⟩
  | .BOOT_GEN_A => ⟨.BOOT, 0x30008, 0x0, 1, 0, 1, false⟩
  | .BOOT_GEN_B => ⟨.BOOT, 0x3000c, 0x0, 1, 0, 1, false⟩
  | .BOOT_FAIL => ⟨.BOOT, 0x30010, 0x0, 1, 0, 1, false⟩
  | .BOOT_FLASH => ⟨.BOOT, 0x30014, 0x0, 1, 0, 1, false⟩
  | .BOOT_CFG => ⟨.BOOT, 0x30018, 0x0, 1, 0, 1, false⟩
  | .BOOT_CMD => ⟨.BOOT, 0x3001c, 0x0, 1, 0, 1, false⟩
  | .BOOT_EVENT => ⟨.BOOT, 0x30020, 0x0, 1, 0, 1, false⟩
  | .BOOT_MARK => ⟨.BOOT, 0x30040, 0x0, 1, 4, 8, false⟩
  | .BOOT_KEYHASH => ⟨.BOOT, 0x30080, 0x0, 1, 4, 8, false⟩
  | .TCH_INPUT => ⟨.TCH, 0x1000000, 0x1000, 144, 0, 1, false⟩
  | .TCH_THRESH => ⟨.TCH, 0x1000004, 0x1000, 144, 0, 1, false⟩
  | .TCH_FE_COMMIT => ⟨.TCH, 0x1000008, 0x1000, 144, 0, 1, false⟩
  | .TCH_FE_STATUS => ⟨.TCH, 0x100000c, 0x1000, 144, 0, 1, false⟩
  | .TCH_WIN_LIMIT => ⟨.TCH, 0x1000010, 0x1000, 144, 0, 1, false⟩
  | .TCH_WIN_CFG => ⟨.TCH, 0x1000014, 0x1000, 144, 0, 1, false⟩
  | .TCH_WIN_CTL => ⟨.TCH, 0x1000018, 0x1000, 144, 0, 1, false⟩
  | .TCH_WIN_STATUS => ⟨.TCH, 0x100001c, 0x1000, 144, 0, 1, false⟩
  | .TCH_WIN_EVENT => ⟨.TCH, 0x1000020, 0x1000, 144, 0, 1, false⟩
  | .TCH_WIN_COUNT => ⟨.TCH, 0x1000024, 0x1000, 144, 0, 1, false⟩
  | .TCH_OVR_COUNT => ⟨.TCH, 0x1000028, 0x1000, 144, 0, 1, false⟩
  | .TCH_RUNT => ⟨.TCH, 0x100002c, 0x1000, 144, 0, 1, false⟩
  | .TCH_INDELAY => ⟨.TCH, 0x1000100, 0x1000, 144, 0, 1, false⟩
  | .TCH_ARM => ⟨.TCH, 0x1000104, 0x1000, 144, 0, 1, false⟩
  | .TCH_BE_CFG => ⟨.TCH, 0x1000108, 0x1000, 144, 0, 1, false⟩
  | .TCH_STORE => ⟨.TCH, 0x100010c, 0x1000, 144, 0, 1, false⟩
  | .TCH_BE_STATUS => ⟨.TCH, 0x1000110, 0x1000, 144, 0, 1, false⟩
  | .TCH_BE_EVENT => ⟨.TCH, 0x1000114, 0x1000, 144, 0, 1, false⟩
  | .TCH_BE_CMD => ⟨.TCH, 0x1000118, 0x1000, 144, 0, 1, false⟩
  | .TCH_CAL_STATUS => ⟨.TCH, 0x100011c, 0x1000, 144, 0, 1, false⟩
  | .TCH_CAL_DRIFT => ⟨.TCH, 0x1000120, 0x1000, 144, 0, 1, false⟩
  | .TCH_CAL_HITS => ⟨.TCH, 0x1000124, 0x1000, 144, 0, 1, false⟩
  | .TCH_EDGES => ⟨.TCH, 0x1000128, 0x1000, 144, 0, 1, true⟩
  | .TCH_LOST => ⟨.TCH, 0x1000130, 0x1000, 144, 0, 1, true⟩
  | .TCH_SUPPRESSED => ⟨.TCH, 0x1000138, 0x1000, 144, 0, 1, true⟩
  | .TCH_OVF_COUNT => ⟨.TCH, 0x1000140, 0x1000, 144, 0, 1, false⟩
  | .TCH_SPARE_CFG => ⟨.TCH, 0x1000144, 0x1000, 144, 0, 1, false⟩
  | .WCH_SOURCE => ⟨.WCH, 0x2000000, 0x1000, 16, 0, 1, false⟩
  | .WCH_JESD => ⟨.WCH, 0x2000004, 0x1000, 16, 0, 1, false⟩
  | .WCH_CV_LAT => ⟨.WCH, 0x2000008, 0x1000, 16, 4, 2, false⟩
  | .WCH_INDELAY => ⟨.WCH, 0x2000010, 0x1000, 16, 0, 1, false⟩
  | .WCH_ARM => ⟨.WCH, 0x2000014, 0x1000, 16, 0, 1, false⟩
  | .WCH_GAIN => ⟨.WCH, 0x2000018, 0x1000, 16, 0, 1, false⟩
  | .WCH_FILT => ⟨.WCH, 0x200001c, 0x1000, 16, 0, 1, false⟩
  | .WCH_NOTCH => ⟨.WCH, 0x2000020, 0x1000, 16, 0, 1, false⟩
  | .WCH_XTHRESH => ⟨.WCH, 0x2000024, 0x1000, 16, 0, 1, false⟩
  | .WCH_COMMIT => ⟨.WCH, 0x2000028, 0x1000, 16, 0, 1, false⟩
  | .WCH_WIN_CFG => ⟨.WCH, 0x200002c, 0x1000, 16, 0, 1, false⟩
  | .WCH_WIN_START => ⟨.WCH, 0x2000030, 0x1000, 16, 0, 1, true⟩
  | .WCH_WIN_LEN => ⟨.WCH, 0x2000038, 0x1000, 16, 0, 1, false⟩
  | .WCH_WIN_PERIOD => ⟨.WCH, 0x200003c, 0x1000, 16, 0, 1, false⟩
  | .WCH_WIN_DELAY => ⟨.WCH, 0x2000040, 0x1000, 16, 0, 1, false⟩
  | .WCH_STATUS => ⟨.WCH, 0x2000044, 0x1000, 16, 0, 1, false⟩
  | .WCH_EVENT => ⟨.WCH, 0x2000048, 0x1000, 16, 0, 1, false⟩
  | .WCH_SLOT_STATUS => ⟨.WCH, 0x200004c, 0x1000, 16, 4, 2, false⟩
  | .WCH_CORR_OFS => ⟨.WCH, 0x2000054, 0x1000, 16, 0, 1, false⟩
  | .WCH_CORR_GAIN => ⟨.WCH, 0x2000058, 0x1000, 16, 0, 1, false⟩
  | .WCH_CORR_SKEW => ⟨.WCH, 0x200005c, 0x1000, 16, 0, 1, false⟩
  | .WCH_CROSSINGS => ⟨.WCH, 0x2000060, 0x1000, 16, 0, 1, true⟩
  | .WCH_LOST => ⟨.WCH, 0x2000068, 0x1000, 16, 0, 1, true⟩
  | .WCH_SUPPRESSED => ⟨.WCH, 0x2000070, 0x1000, 16, 0, 1, false⟩
  | .WCH_OVF_COUNT => ⟨.WCH, 0x2000074, 0x1000, 16, 0, 1, false⟩
  | .WCH_WIN_COUNT => ⟨.WCH, 0x2000078, 0x1000, 16, 0, 1, false⟩
  | .WCH_WIN_MISSED => ⟨.WCH, 0x200007c, 0x1000, 16, 0, 1, false⟩
  | .WCH_PREEMPT => ⟨.WCH, 0x2000080, 0x1000, 16, 0, 1, false⟩
  | .WCH_CRC_ERR => ⟨.WCH, 0x2000084, 0x1000, 16, 0, 1, false⟩
  | .MC_CFG => ⟨.MC, 0x3000000, 0x40, 8192, 0, 1, false⟩
  | .MC_SRC => ⟨.MC, 0x3000004, 0x40, 8192, 0, 1, false⟩
  | .MC_CTL => ⟨.MC, 0x3000008, 0x40, 8192, 0, 1, false⟩
  | .MC_STATUS => ⟨.MC, 0x300000c, 0x40, 8192, 0, 1, false⟩
  | .MC_RESULT => ⟨.MC, 0x3000010, 0x40, 8192, 8, 4, true⟩
  | .MC_GATE_END => ⟨.MC, 0x3000030, 0x40, 8192, 0, 1, true⟩
  | .MC_VALID => ⟨.MC, 0x3000038, 0x40, 8192, 0, 1, false⟩
  | .MC_COUNT => ⟨.MC, 0x300003c, 0x40, 8192, 0, 1, false⟩
  | .MC_RING_BASE => ⟨.MC, 0x3f00000, 0x0, 1, 0, 1, true⟩
  | .MC_RING_WR => ⟨.MC, 0x3f00008, 0x0, 1, 0, 1, false⟩
  | .MC_RING_RD => ⟨.MC, 0x3f0000c, 0x0, 1, 0, 1, false⟩
  | .MC_RING_LOST => ⟨.MC, 0x3f00010, 0x0, 1, 0, 1, false⟩
  | .MC_EVENT => ⟨.MC, 0x3f00014, 0x0, 1, 0, 1, false⟩
  | .MC_STAB_FREE => ⟨.MC, 0x3f00018, 0x0, 1, 0, 1, false⟩
  | .MC_DROPS => ⟨.MC, 0x3f0001c, 0x0, 1, 0, 1, false⟩
  | .MC_ENG_STATUS => ⟨.MC, 0x3f00080, 0x0, 1, 4, 24, false⟩
  | .MC_ENG_DROPS => ⟨.MC, 0x3f00100, 0x0, 1, 4, 24, false⟩
  | .AQ_CFG => ⟨.AQ, 0x4000000, 0x10000, 16, 0, 1, false⟩
  | .AQ_ARM => ⟨.AQ, 0x4000004, 0x10000, 16, 0, 1, false⟩
  | .AQ_CMD => ⟨.AQ, 0x4000008, 0x10000, 16, 0, 1, false⟩
  | .AQ_STATUS => ⟨.AQ, 0x400000c, 0x10000, 16, 0, 1, false⟩
  | .AQ_EVENT => ⟨.AQ, 0x4000010, 0x10000, 16, 0, 1, false⟩
  | .AQ_PANS => ⟨.AQ, 0x4000014, 0x10000, 16, 0, 1, false⟩
  | .AQ_PRE => ⟨.AQ, 0x4000018, 0x10000, 16, 0, 1, false⟩
  | .AQ_HOLDOFF => ⟨.AQ, 0x400001c, 0x10000, 16, 0, 1, false⟩
  | .AQ_POST => ⟨.AQ, 0x4000020, 0x10000, 16, 0, 1, true⟩
  | .AQ_AUTO => ⟨.AQ, 0x4000028, 0x10000, 16, 0, 1, false⟩
  | .AQ_STREAM => ⟨.AQ, 0x400002c, 0x10000, 16, 0, 1, false⟩
  | .AQ_LAST_T => ⟨.AQ, 0x4000030, 0x10000, 16, 0, 1, true⟩
  | .AQ_CAPTURES => ⟨.AQ, 0x4000038, 0x10000, 16, 0, 1, false⟩
  | .AQ_IGNORED => ⟨.AQ, 0x400003c, 0x10000, 16, 0, 1, false⟩
  | .AQ_STOPS => ⟨.AQ, 0x4000040, 0x10000, 16, 0, 1, false⟩
  | .AQ_SRC => ⟨.AQ, 0x4000100, 0x10000, 16, 4, 32, false⟩
  | .AQ_TRG_CTL => ⟨.AQ, 0x4000200, 0x10000, 16, 16, 8, false⟩
  | .AQ_TRG_LO => ⟨.AQ, 0x4000204, 0x10000, 16, 16, 8, false⟩
  | .AQ_TRG_HI => ⟨.AQ, 0x4000208, 0x10000, 16, 16, 8, false⟩
  | .AQ_TRG_MASK => ⟨.AQ, 0x400020c, 0x10000, 16, 16, 8, false⟩
  | .PAN_BASE => ⟨.PAN, 0x4800000, 0x10, 256, 0, 1, false⟩
  | .PAN_LEN => ⟨.PAN, 0x4800004, 0x10, 256, 0, 1, false⟩
  | .PAN_STATUS => ⟨.PAN, 0x4800008, 0x10, 256, 0, 1, false⟩
  | .PAN_HDR => ⟨.PAN, 0x480000c, 0x10, 256, 0, 1, false⟩
  | .CRY_CFG => ⟨.CRY, 0x4000400, 0x10000, 16, 0, 1, false⟩
  | .CRY_CTL => ⟨.CRY, 0x4000404, 0x10000, 16, 0, 1, false⟩
  | .CRY_CMD => ⟨.CRY, 0x4000408, 0x10000, 16, 0, 1, false⟩
  | .CRY_STATUS => ⟨.CRY, 0x400040c, 0x10000, 16, 0, 1, false⟩
  | .CRY_EVENT => ⟨.CRY, 0x4000410, 0x10000, 16, 0, 1, false⟩
  | .CRY_DROPS => ⟨.CRY, 0x4000414, 0x10000, 16, 0, 1, false⟩
  | .CRY_EXCLUDED => ⟨.CRY, 0x4000418, 0x10000, 16, 0, 1, false⟩
  | .CRY_H_CFG => ⟨.CRY, 0x4000440, 0x10000, 16, 32, 8, false⟩
  | .CRY_H_ORIGIN => ⟨.CRY, 0x4000444, 0x10000, 16, 32, 8, true⟩
  | .CRY_H_UNDER => ⟨.CRY, 0x400044c, 0x10000, 16, 32, 8, false⟩
  | .CRY_H_OVER => ⟨.CRY, 0x4000450, 0x10000, 16, 32, 8, false⟩
  | .CRY_H_TOTAL => ⟨.CRY, 0x4000454, 0x10000, 16, 32, 8, true⟩
  | .CRY_H_STATUS => ⟨.CRY, 0x400045c, 0x10000, 16, 32, 8, false⟩
  | .CRY_MAP_CFG => ⟨.CRY, 0x4000580, 0x10000, 16, 0, 1, false⟩
  | .CRY_MAP_OFFSET => ⟨.CRY, 0x4000584, 0x10000, 16, 0, 1, false⟩
  | .CRY_MAP_ROW => ⟨.CRY, 0x4000588, 0x10000, 16, 0, 1, false⟩
  | .CRY_MAP_SWEEPS => ⟨.CRY, 0x400058c, 0x10000, 16, 0, 1, false⟩
  | .CRY_MAP_SKIPPED => ⟨.CRY, 0x4000590, 0x10000, 16, 0, 1, false⟩
  | .CRY_MAP_CLIP => ⟨.CRY, 0x4000594, 0x10000, 16, 0, 1, false⟩
  | .CRY_MAP_STATUS => ⟨.CRY, 0x4000598, 0x10000, 16, 0, 1, false⟩
  | .MSK_CFG => ⟨.CRY, 0x4000800, 0x10000, 16, 0, 1, false⟩
  | .MSK_STATUS => ⟨.CRY, 0x4000804, 0x10000, 16, 0, 1, false⟩
  | .MSK_EVENT => ⟨.CRY, 0x4000808, 0x10000, 16, 0, 1, false⟩
  | .MSK_PASS => ⟨.CRY, 0x400080c, 0x10000, 16, 0, 1, false⟩
  | .MSK_FAIL => ⟨.CRY, 0x4000810, 0x10000, 16, 0, 1, false⟩
  | .MSK_DISCARDED => ⟨.CRY, 0x4000814, 0x10000, 16, 0, 1, false⟩
  | .MSK_ENT_CFG => ⟨.CRY, 0x4000900, 0x10000, 16, 16, 64, false⟩
  | .MSK_ENT_LO => ⟨.CRY, 0x4000904, 0x10000, 16, 16, 64, false⟩
  | .MSK_ENT_HI => ⟨.CRY, 0x4000908, 0x10000, 16, 16, 64, false⟩
  | .MSK_ENT_SPAN => ⟨.CRY, 0x400090c, 0x10000, 16, 16, 64, false⟩
  | .VD_CFG => ⟨.VD, 0x4900000, 0x20, 256, 0, 1, false⟩
  | .VD_SRC => ⟨.VD, 0x4900004, 0x20, 256, 0, 1, false⟩
  | .VD_LO => ⟨.VD, 0x4900008, 0x20, 256, 0, 1, false⟩
  | .VD_HI => ⟨.VD, 0x490000c, 0x20, 256, 0, 1, false⟩
  | .VD_STATUS => ⟨.VD, 0x4900010, 0x20, 256, 0, 1, false⟩
  | .VD_SENT => ⟨.VD, 0x4900014, 0x20, 256, 0, 1, false⟩
  | .VD_DROPS => ⟨.VD, 0x4900018, 0x20, 256, 0, 1, false⟩
  | .MRK_CFG => ⟨.MRK, 0x7000000, 0x40, 32, 0, 1, false⟩
  | .MRK_CTL => ⟨.MRK, 0x7000004, 0x40, 32, 0, 1, false⟩
  | .MRK_STATUS => ⟨.MRK, 0x7000008, 0x40, 32, 0, 1, false⟩
  | .MRK_EVENT => ⟨.MRK, 0x700000c, 0x40, 32, 0, 1, false⟩
  | .MRK_START => ⟨.MRK, 0x7000010, 0x40, 32, 0, 1, true⟩
  | .MRK_FINE => ⟨.MRK, 0x7000018, 0x40, 32, 0, 1, false⟩
  | .MRK_WIDTH => ⟨.MRK, 0x700001c, 0x40, 32, 0, 1, false⟩
  | .MRK_PERIOD => ⟨.MRK, 0x7000020, 0x40, 32, 0, 1, true⟩
  | .MRK_BURST => ⟨.MRK, 0x7000028, 0x40, 32, 0, 1, false⟩
  | .MRK_TRIPSEL => ⟨.MRK, 0x700002c, 0x40, 32, 0, 1, true⟩
  | .MRK_FIRED => ⟨.MRK, 0x7000034, 0x40, 32, 0, 1, false⟩
  | .MRK_SUPPRESSED => ⟨.MRK, 0x7000038, 0x40, 32, 0, 1, false⟩
  | .MRK_MISSED => ⟨.MRK, 0x700003c, 0x40, 32, 0, 1, false⟩
  | .MRK_TRUNCATED => ⟨.MRK, 0x7003000, 0x4, 32, 0, 1, false⟩
  | .TRIP_CFG => ⟨.MRK, 0x7001000, 0x20, 16, 0, 1, false⟩
  | .TRIP_SEL => ⟨.MRK, 0x7001004, 0x20, 16, 0, 1, true⟩
  | .TRIP_STATUS => ⟨.MRK, 0x700100c, 0x20, 16, 0, 1, false⟩
  | .TRIP_EVENT => ⟨.MRK, 0x7001010, 0x20, 16, 0, 1, false⟩
  | .TRIP_COUNT => ⟨.MRK, 0x7001014, 0x20, 16, 0, 1, false⟩
  | .SLU_CFG => ⟨.SLU, 0x5000000, 0x40, 32, 0, 1, false⟩
  | .SLU_ENGINE_CFG => ⟨.SLU, 0x5001000, 0x0, 1, 0, 1, false⟩
  | .SLU_CTL => ⟨.SLU, 0x5000004, 0x40, 32, 0, 1, false⟩
  | .SLU_ENGINE_CTL => ⟨.SLU, 0x5001004, 0x0, 1, 0, 1, false⟩
  | .SLU_STATUS => ⟨.SLU, 0x5000008, 0x40, 32, 0, 1, false⟩
  | .SLU_ENGINE_STATUS => ⟨.SLU, 0x5001008, 0x0, 1, 0, 1, false⟩
  | .SLU_EVENT => ⟨.SLU, 0x500000c, 0x40, 32, 0, 1, false⟩
  | .SLU_ENGINE_EVENT => ⟨.SLU, 0x500100c, 0x0, 1, 0, 1, false⟩
  | .SLU_SRC => ⟨.SLU, 0x5000010, 0x40, 32, 0, 1, true⟩
  | .SLU_HALT_ADDR => ⟨.SLU, 0x5001010, 0x0, 1, 0, 1, true⟩
  | .SLU_DST => ⟨.SLU, 0x5000018, 0x40, 32, 0, 1, true⟩
  | .SLU_HALT_CAUSE => ⟨.SLU, 0x5001018, 0x0, 1, 0, 1, false⟩
  | .SLU_COUNT => ⟨.SLU, 0x5000020, 0x40, 32, 0, 1, false⟩
  | .SLU_HALTS => ⟨.SLU, 0x500101c, 0x0, 1, 0, 1, false⟩
  | .SLU_COMMIT => ⟨.SLU, 0x5000024, 0x40, 32, 0, 1, false⟩
  | .SLU_LIST => ⟨.SLU, 0x5000028, 0x40, 32, 0, 1, true⟩
  | .SLU_DONE => ⟨.SLU, 0x5000030, 0x40, 32, 0, 1, true⟩
  | .SLU_CREDIT => ⟨.SLU, 0x5000038, 0x40, 32, 0, 1, false⟩
  | .SLU_DESC => ⟨.SLU, 0x500003c, 0x40, 32, 0, 1, false⟩
  | .LNK_QUAD_CFG => ⟨.LNK, 0x6000000, 0x40, 16, 0, 1, false⟩
  | .LNK_LANE_CFG => ⟨.LNK, 0x6001000, 0x40, 64, 0, 1, false⟩
  | .LNK_QUAD_CTL => ⟨.LNK, 0x6000004, 0x40, 16, 0, 1, false⟩
  | .LNK_LANE_CTL => ⟨.LNK, 0x6001004, 0x40, 64, 0, 1, false⟩
  | .LNK_QUAD_STATUS => ⟨.LNK, 0x6000008, 0x40, 16, 0, 1, false⟩
  | .LNK_LANE_CMD => ⟨.LNK, 0x6001008, 0x40, 64, 0, 1, false⟩
  | .LNK_LANE_STATUS => ⟨.LNK, 0x600100c, 0x40, 64, 0, 1, false⟩
  | .LNK_LANE_EVENT => ⟨.LNK, 0x6001010, 0x40, 64, 0, 1, false⟩
  | .LNK_LANE_PRESET => ⟨.LNK, 0x6001014, 0x40, 64, 0, 1, false⟩
  | .LNK_LANE_TAPS => ⟨.LNK, 0x6001018, 0x40, 64, 0, 1, false⟩
  | .LNK_LANE_DFE => ⟨.LNK, 0x600101c, 0x40, 64, 4, 3, false⟩
  | .LNK_LANE_EYE => ⟨.LNK, 0x6001028, 0x40, 64, 0, 1, false⟩
  | .LNK_LANE_RETRAINS => ⟨.LNK, 0x600102c, 0x40, 64, 0, 1, false⟩
  | .LNK_LANE_SHERR => ⟨.LNK, 0x6001030, 0x40, 64, 0, 1, false⟩
  | .LNK_LANE_GUARD => ⟨.LNK, 0x6001034, 0x40, 64, 0, 1, false⟩
  | .LNK_LINK_CFG => ⟨.LNK, 0x6004000, 0x40, 16, 0, 1, false⟩
  | .LNK_LINK_CTL => ⟨.LNK, 0x6004004, 0x40, 16, 0, 1, false⟩
  | .LNK_LINK_STATUS => ⟨.LNK, 0x6004008, 0x40, 16, 0, 1, false⟩
  | .LNK_LINK_EVENT => ⟨.LNK, 0x600400c, 0x40, 16, 0, 1, false⟩
  | .LNK_LINK_PKTS => ⟨.LNK, 0x6004010, 0x40, 16, 0, 1, false⟩
  | .LNK_LINK_BUSY => ⟨.LNK, 0x6004014, 0x40, 16, 0, 1, false⟩
  | .LNK_LINK_PKT_ERR => ⟨.LNK, 0x6004018, 0x40, 16, 0, 1, false⟩
  | .LNK_LINK_CHK_ERR => ⟨.LNK, 0x600401c, 0x40, 16, 0, 1, false⟩
  | .LNK_LINK_LOST_BLOCKS => ⟨.LNK, 0x6004020, 0x40, 16, 0, 1, false⟩
  | .LNK_LINK_BIP_ERR => ⟨.LNK, 0x6004024, 0x40, 16, 0, 1, false⟩
  | .LNK_LINK_UNKNOWN => ⟨.LNK, 0x6004028, 0x40, 16, 0, 1, false⟩
  | .LNK_LINK_TRIGGERS => ⟨.LNK, 0x600402c, 0x40, 16, 0, 1, false⟩
  | .LNK_LINK_VERDICTS => ⟨.LNK, 0x6004030, 0x40, 16, 0, 1, false⟩
  | .DEV_ID => ⟨.DEV, 0x0, 0x0, 1, 0, 1, false⟩
  | .DEV_VENDOR => ⟨.DEV, 0x4, 0x0, 1, 0, 1, false⟩
  | .DEV_STATE => ⟨.DEV, 0x8, 0x0, 1, 0, 1, false⟩
  | .DEV_TIDEGATE => ⟨.DEV, 0xc, 0x0, 1, 0, 1, false⟩
  | .DEV_CMD => ⟨.DEV, 0x10, 0x0, 1, 0, 1, false⟩
  | .DEV_EVENT => ⟨.DEV, 0x14, 0x0, 1, 0, 1, false⟩
  | .DEV_BUSERR => ⟨.DEV, 0x18, 0x0, 1, 0, 1, false⟩
  | .DEV_BUSERR_ADDR => ⟨.DEV, 0x1c, 0x0, 1, 0, 1, false⟩
  | .DEV_BUSERR_COUNT => ⟨.DEV, 0x20, 0x0, 1, 0, 1, false⟩
  | .DEV_IRQ_STATUS => ⟨.DEV, 0x24, 0x0, 1, 0, 1, false⟩
  | .DEV_IRQ_ENABLE => ⟨.DEV, 0x28, 0x0, 1, 0, 1, false⟩
  | .DEV_HARVEST => ⟨.DEV, 0x2c, 0x0, 1, 0, 1, false⟩
  | .DEV_HARVEST_TIME => ⟨.DEV, 0x30, 0x0, 1, 0, 1, true⟩
  | .TB_REF_CFG => ⟨.TB, 0x40000, 0x0, 1, 0, 1, false⟩
  | .TB_STATUS => ⟨.TB, 0x40004, 0x0, 1, 0, 1, false⟩
  | .TB_PPS_CFG => ⟨.TB, 0x40008, 0x0, 1, 0, 1, false⟩
  | .TB_PPS_DELAY => ⟨.TB, 0x4000c, 0x0, 1, 0, 1, false⟩
  | .TB_PPS_OFFSET => ⟨.TB, 0x40010, 0x0, 1, 0, 1, false⟩
  | .TB_PPS_EXTRA => ⟨.TB, 0x40014, 0x0, 1, 0, 1, false⟩
  | .TB_HOLD_PHASE => ⟨.TB, 0x40018, 0x0, 1, 0, 1, false⟩
  | .TB_REF_OUT_PHASE => ⟨.TB, 0x4001c, 0x0, 1, 0, 1, false⟩
  | .TB_SEC_SET => ⟨.TB, 0x40020, 0x0, 1, 0, 1, false⟩
  | .TB_CMD => ⟨.TB, 0x40024, 0x0, 1, 0, 1, false⟩
  | .TB_LEAP => ⟨.TB, 0x40028, 0x0, 1, 0, 1, true⟩
  | .TB_FRAME => ⟨.TB, 0x40030, 0x0, 1, 0, 1, false⟩
  | .TB_FRAME_COMMIT => ⟨.TB, 0x40034, 0x0, 1, 0, 1, false⟩
  | .TB_PPS_OUT => ⟨.TB, 0x40038, 0x0, 1, 0, 1, true⟩
  | .TB_SYSREF => ⟨.TB, 0x40040, 0x0, 1, 0, 1, true⟩
  | .TB_SYSREF_SKEW => ⟨.TB, 0x40048, 0x0, 1, 4, 4, false⟩
  | .TB_ISLAND_UNLOCK => ⟨.TB, 0x40058, 0x0, 1, 0, 1, false⟩
  | .TB_NOW => ⟨.TB, 0x40060, 0x0, 1, 0, 1, true⟩
  | .LIFE_STATUS => ⟨.LIFE, 0x50000, 0x0, 1, 0, 1, false⟩
  | .LIFE_HOURS => ⟨.LIFE, 0x50004, 0x0, 1, 0, 1, false⟩
  | .LIFE_SCREEN_HOURS => ⟨.LIFE, 0x50008, 0x0, 1, 0, 1, false⟩
  | .LIFE_CONSUMED => ⟨.LIFE, 0x5000c, 0x0, 1, 0, 1, false⟩
  | .LIFE_AVG => ⟨.LIFE, 0x50010, 0x0, 1, 0, 1, false⟩
  | .LIFE_SHUTDOWNS => ⟨.LIFE, 0x50014, 0x0, 1, 0, 1, false⟩
  | .LIFE_ENTRIES => ⟨.LIFE, 0x50018, 0x0, 1, 0, 1, false⟩
  | .LIFE_REFRESH_LAST => ⟨.LIFE, 0x50020, 0x0, 1, 0, 1, false⟩
  | .LIFE_REFRESH_NEXT => ⟨.LIFE, 0x50024, 0x0, 1, 0, 1, false⟩
  | .LIFE_RO => ⟨.LIFE, 0x50040, 0x0, 1, 4, 9, false⟩
  | .LIFE_SCRUB_CE => ⟨.LIFE, 0x50080, 0x0, 1, 0, 1, false⟩
  | .LIFE_SCRUB_UE => ⟨.LIFE, 0x50084, 0x0, 1, 0, 1, false⟩
  | .LIFE_ROWS_REPAIRED => ⟨.LIFE, 0x50088, 0x0, 1, 0, 1, false⟩
  | .LIFE_SCRUB_PASSES => ⟨.LIFE, 0x5008c, 0x0, 1, 0, 1, false⟩
  | .LIFE_UNIT_CMD => ⟨.LIFE, 0x500a0, 0x0, 1, 0, 1, false⟩
  | .LIFE_ENG_RETIRED => ⟨.LIFE, 0x500a4, 0x0, 1, 0, 1, false⟩
  | .LIFE_PCH_RETIRED => ⟨.LIFE, 0x500a8, 0x0, 1, 0, 1, true⟩
  | .LIFE_SLU_RETIRED => ⟨.LIFE, 0x500b0, 0x0, 1, 0, 1, false⟩
  | .LIFE_CMD => ⟨.LIFE, 0x500b4, 0x0, 1, 0, 1, false⟩
  | .LIFE_EVENT => ⟨.LIFE, 0x500b8, 0x0, 1, 0, 1, false⟩
  | .LNK_TRAIN => ⟨.LNK, 0x6002000, 0x0, 1, 0, 1, false⟩
  | .VD_EVENT => ⟨.VD, 0x4902000, 0x0, 1, 0, 1, false⟩
  | .TRIP_LINES => ⟨.MRK, 0x7002000, 0x0, 1, 0, 1, true⟩

/-- The bits, the register and the access code of each field. -/
def Fld.desc : Fld → FldDesc
  | .PWR_CFG_EFF => ⟨.PWR_CFG, 0, 10, .SH⟩
  | .PWR_LIMIT_INPUT_MW => ⟨.PWR_LIMIT, 0, 20, .SH⟩
  | .PWR_GUARD_SLICE_MW => ⟨.PWR_GUARD, 0, 20, .ST⟩
  | .PWR_THERM_TARGET => ⟨.PWR_THERM, 0, 8, .SH⟩
  | .PWR_THERM_GAIN => ⟨.PWR_THERM, 8, 16, .SH⟩
  | .PWR_STATUS_DEFER => ⟨.PWR_STATUS, 0, 1, .RO⟩
  | .PWR_STATUS_SHEDDING => ⟨.PWR_STATUS, 1, 1, .RO⟩
  | .PWR_STATUS_STEP => ⟨.PWR_STATUS, 2, 3, .RO⟩
  | .PWR_STATUS_IS8_STATE => ⟨.PWR_STATUS, 5, 2, .RO⟩
  | .PWR_STATUS_HOTTEST_ID => ⟨.PWR_STATUS, 8, 5, .RO⟩
  | .PWR_STATUS_HOTTEST => ⟨.PWR_STATUS, 16, 16, .RO⟩
  | .PWR_BUDGET_MW => ⟨.PWR_BUDGET, 0, 20, .RO⟩
  | .PWR_LOAD_MW => ⟨.PWR_LOAD, 0, 20, .RO⟩
  | .PWR_QUEUE_GUARD => ⟨.PWR_QUEUE, 0, 14, .RO⟩
  | .PWR_QUEUE_SYSTEM => ⟨.PWR_QUEUE, 16, 5, .RO⟩
  | .PWR_BACKLOG_SURVEY => ⟨.PWR_BACKLOG, 0, 14, .RO⟩
  | .PWR_SHED_COUNT => ⟨.PWR_SHED, 0, 16, .CT⟩
  | .PWR_SHED_SHUTDOWNS => ⟨.PWR_SHED, 16, 8, .CT⟩
  | .PWR_EVENT_DEFER_START => ⟨.PWR_EVENT, 0, 1, .EV⟩
  | .PWR_EVENT_SHED_START => ⟨.PWR_EVENT, 1, 1, .EV⟩
  | .PWR_EVENT_GUARD_REFUSED => ⟨.PWR_EVENT, 2, 1, .EV⟩
  | .PWR_EVENT_RAIL_FAULT => ⟨.PWR_EVENT, 3, 1, .EV⟩
  | .PWR_EVENT_SENSOR_LOST => ⟨.PWR_EVENT, 4, 1, .EV⟩
  | .PWR_EVENT_SEQ => ⟨.PWR_EVENT, 24, 8, .RO⟩
  | .PWR_TICK_COUNT => ⟨.PWR_TICK, 0, 32, .CT⟩
  | .PWR_TEMP_TEMP => ⟨.PWR_TEMP, 0, 12, .RO⟩
  | .PWR_TEMP_VALID => ⟨.PWR_TEMP, 15, 1, .RO⟩
  | .PWR_ISLAND_FLOOR => ⟨.PWR_ISLAND, 0, 2, .RW⟩
  | .PWR_ISLAND_STATE => ⟨.PWR_ISLAND, 4, 2, .RO⟩
  | .PWR_ISLAND_HOLD_MS => ⟨.PWR_ISLAND, 8, 16, .RW⟩
  | .PWR_COST_COST => ⟨.PWR_COST, 0, 24, .SH⟩
  | .PWR_RAIL_VOUT_MV => ⟨.PWR_RAIL, 0, 13, .RO⟩
  | .PWR_RAIL_PG => ⟨.PWR_RAIL, 16, 1, .RO⟩
  | .PWR_RAIL_FAULT => ⟨.PWR_RAIL, 17, 3, .RO⟩
  | .PWR_RAIL_ENABLED => ⟨.PWR_RAIL, 20, 1, .RO⟩
  | .PWR_CMD_RAIL_RETRY => ⟨.PWR_CMD, 0, 1, .GO⟩
  | .HVS_CFG_ILIM => ⟨.HVS_CFG, 0, 7, .KY⟩
  | .HVS_CFG_SLEW => ⟨.HVS_CFG, 7, 3, .KY⟩
  | .HVS_CFG_FAULT_MS => ⟨.HVS_CFG, 10, 6, .KY⟩
  | .HVS_CFG_RETRY => ⟨.HVS_CFG, 16, 1, .KY⟩
  | .HVS_STATUS_VIN_OK => ⟨.HVS_STATUS, 0, 1, .RO⟩
  | .HVS_STATUS_OVER => ⟨.HVS_STATUS, 1, 1, .RO⟩
  | .HVS_STATUS_LOW => ⟨.HVS_STATUS, 2, 1, .RO⟩
  | .HVS_STATUS_FET_ON => ⟨.HVS_STATUS, 3, 1, .RO⟩
  | .HVS_STATUS_BUS_ON => ⟨.HVS_STATUS, 4, 1, .RO⟩
  | .HVS_STATUS_LIMITING => ⟨.HVS_STATUS, 5, 1, .RO⟩
  | .HVS_STATUS_LINK_OK => ⟨.HVS_STATUS, 6, 1, .RO⟩
  | .HVS_VIN_MV => ⟨.HVS_VIN, 0, 17, .RO⟩
  | .HVS_IIN_MA => ⟨.HVS_IIN, 0, 13, .RO⟩
  | .HVS_PIN_MW => ⟨.HVS_PIN, 0, 20, .RO⟩
  | .HVS_ENERGY_MJ => ⟨.HVS_ENERGY, 0, 64, .CT⟩
  | .HVS_PEAK_MW => ⟨.HVS_PEAK, 0, 20, .RO⟩
  | .HVS_EVENT_OVER_SEEN => ⟨.HVS_EVENT, 0, 1, .EV⟩
  | .HVS_EVENT_LOW_SEEN => ⟨.HVS_EVENT, 1, 1, .EV⟩
  | .HVS_EVENT_LIMIT_TRIP => ⟨.HVS_EVENT, 2, 1, .EV⟩
  | .HVS_EVENT_HEARTBEAT_LOST => ⟨.HVS_EVENT, 3, 1, .EV⟩
  | .HVS_EVENT_SEQ => ⟨.HVS_EVENT, 24, 8, .RO⟩
  | .HVS_TRIPS_COUNT => ⟨.HVS_TRIPS, 0, 16, .CT⟩
  | .HVS_CMD_PEAK_CLEAR => ⟨.HVS_CMD, 0, 1, .GO⟩
  | .HVS_CMD_FET_RESTART => ⟨.HVS_CMD, 1, 1, .KY⟩
  | .BOOT_PHASE_STATE => ⟨.BOOT_PHASE, 0, 3, .RO⟩
  | .BOOT_PHASE_SLOT => ⟨.BOOT_PHASE, 3, 1, .RO⟩
  | .BOOT_PHASE_PHASE => ⟨.BOOT_PHASE, 4, 4, .RO⟩
  | .BOOT_PHASE_SECTION => ⟨.BOOT_PHASE, 8, 8, .RO⟩
  | .BOOT_PHASE_ERROR => ⟨.BOOT_PHASE, 16, 8, .RO⟩
  | .BOOT_PHASE_PROGRESS => ⟨.BOOT_PHASE, 24, 8, .RO⟩
  | .BOOT_STATUS_VALID_A => ⟨.BOOT_STATUS, 0, 1, .RO⟩
  | .BOOT_STATUS_VALID_B => ⟨.BOOT_STATUS, 1, 1, .RO⟩
  | .BOOT_STATUS_FUSED => ⟨.BOOT_STATUS, 2, 1, .RO⟩
  | .BOOT_STATUS_SIGNED => ⟨.BOOT_STATUS, 3, 1, .RO⟩
  | .BOOT_STATUS_FALLBACK => ⟨.BOOT_STATUS, 4, 1, .RO⟩
  | .BOOT_STATUS_LOCKOUT => ⟨.BOOT_STATUS, 5, 1, .RO⟩
  | .BOOT_STATUS_SKIPPED => ⟨.BOOT_STATUS, 8, 8, .RO⟩
  | .BOOT_STATUS_APPLIED => ⟨.BOOT_STATUS, 16, 8, .RO⟩
  | .BOOT_GEN_A_GEN => ⟨.BOOT_GEN_A, 0, 32, .RO⟩
  | .BOOT_GEN_B_GEN => ⟨.BOOT_GEN_B, 0, 32, .RO⟩
  | .BOOT_FAIL_CODE => ⟨.BOOT_FAIL, 0, 8, .RO⟩
  | .BOOT_FAIL_SECTION => ⟨.BOOT_FAIL, 8, 8, .RO⟩
  | .BOOT_FAIL_ENTRY => ⟨.BOOT_FAIL, 16, 16, .RO⟩
  | .BOOT_FLASH_MODE => ⟨.BOOT_FLASH, 0, 2, .RO⟩
  | .BOOT_FLASH_FOUR_BYTE => ⟨.BOOT_FLASH, 4, 1, .RO⟩
  | .BOOT_FLASH_DENSITY => ⟨.BOOT_FLASH, 8, 5, .RO⟩
  | .BOOT_CFG_FORCE => ⟨.BOOT_CFG, 0, 2, .RW⟩
  | .BOOT_CMD_REBOOT => ⟨.BOOT_CMD, 0, 1, .KY⟩
  | .BOOT_EVENT_FALLBACK_USED => ⟨.BOOT_EVENT, 0, 1, .EV⟩
  | .BOOT_EVENT_SECTION_SKIPPED => ⟨.BOOT_EVENT, 1, 1, .EV⟩
  | .BOOT_EVENT_PASS2_RETRY => ⟨.BOOT_EVENT, 2, 1, .EV⟩
  | .BOOT_EVENT_SEQ => ⟨.BOOT_EVENT, 24, 8, .RO⟩
  | .BOOT_MARK_US => ⟨.BOOT_MARK, 0, 32, .RO⟩
  | .BOOT_KEYHASH_WORD => ⟨.BOOT_KEYHASH, 0, 32, .RO⟩
  | .TCH_INPUT_MODE => ⟨.TCH_INPUT, 0, 1, .ST⟩
  | .TCH_THRESH_LEVEL => ⟨.TCH_THRESH, 0, 12, .SH⟩
  | .TCH_THRESH_HYST => ⟨.TCH_THRESH, 16, 4, .SH⟩
  | .TCH_FE_COMMIT_COMMIT => ⟨.TCH_FE_COMMIT, 0, 1, .GO⟩
  | .TCH_FE_COMMIT_APPLIED_SEQ => ⟨.TCH_FE_COMMIT, 8, 8, .RO⟩
  | .TCH_FE_STATUS_STATE_KNOWN => ⟨.TCH_FE_STATUS, 0, 1, .RO⟩
  | .TCH_FE_STATUS_LEVEL => ⟨.TCH_FE_STATUS, 1, 1, .RO⟩
  | .TCH_FE_STATUS_OVR_NOW => ⟨.TCH_FE_STATUS, 2, 1, .RO⟩
  | .TCH_FE_STATUS_NBR_NOW => ⟨.TCH_FE_STATUS, 3, 1, .RO⟩
  | .TCH_FE_STATUS_THS_NOW => ⟨.TCH_FE_STATUS, 4, 1, .RO⟩
  | .TCH_FE_STATUS_OVR_CLASS => ⟨.TCH_FE_STATUS, 5, 3, .RO⟩
  | .TCH_WIN_LIMIT_HIGH => ⟨.TCH_WIN_LIMIT, 0, 10, .SH⟩
  | .TCH_WIN_LIMIT_LOW => ⟨.TCH_WIN_LIMIT, 16, 10, .SH⟩
  | .TCH_WIN_CFG_SENSE => ⟨.TCH_WIN_CFG, 0, 2, .ST⟩
  | .TCH_WIN_CFG_N => ⟨.TCH_WIN_CFG, 2, 5, .ST⟩
  | .TCH_WIN_CFG_M => ⟨.TCH_WIN_CFG, 7, 5, .ST⟩
  | .TCH_WIN_CFG_LATCH => ⟨.TCH_WIN_CFG, 12, 2, .ST⟩
  | .TCH_WIN_CFG_TL => ⟨.TCH_WIN_CFG, 16, 6, .ST⟩
  | .TCH_WIN_CFG_ROUTE => ⟨.TCH_WIN_CFG, 22, 1, .ST⟩
  | .TCH_WIN_CTL_ENABLE => ⟨.TCH_WIN_CTL, 0, 1, .RW⟩
  | .TCH_WIN_STATUS_ACTIVE => ⟨.TCH_WIN_STATUS, 0, 1, .RO⟩
  | .TCH_WIN_STATUS_FILTER => ⟨.TCH_WIN_STATUS, 1, 1, .RO⟩
  | .TCH_WIN_STATUS_LATCHED => ⟨.TCH_WIN_STATUS, 2, 1, .RO⟩
  | .TCH_WIN_STATUS_HELD => ⟨.TCH_WIN_STATUS, 3, 1, .RO⟩
  | .TCH_WIN_STATUS_COUNT => ⟨.TCH_WIN_STATUS, 4, 5, .RO⟩
  | .TCH_WIN_EVENT_TRIPPED => ⟨.TCH_WIN_EVENT, 0, 1, .EV⟩
  | .TCH_WIN_EVENT_SEQ => ⟨.TCH_WIN_EVENT, 24, 8, .RO⟩
  | .TCH_WIN_COUNT_ASSERTS => ⟨.TCH_WIN_COUNT, 0, 32, .CT⟩
  | .TCH_OVR_COUNT_EPISODES => ⟨.TCH_OVR_COUNT, 0, 32, .CT⟩
  | .TCH_RUNT_COUNT => ⟨.TCH_RUNT, 0, 32, .CT⟩
  | .TCH_INDELAY_TICKS => ⟨.TCH_INDELAY, 0, 32, .ST⟩
  | .TCH_ARM_ARM => ⟨.TCH_ARM, 0, 1, .RW⟩
  | .TCH_BE_CFG_CLASS => ⟨.TCH_BE_CFG, 0, 1, .ST⟩
  | .TCH_BE_CFG_EDGES => ⟨.TCH_BE_CFG, 1, 2, .ST⟩
  | .TCH_BE_CFG_CHANGE => ⟨.TCH_BE_CFG, 3, 1, .ST⟩
  | .TCH_BE_CFG_CAL_BYPASS => ⟨.TCH_BE_CFG, 4, 1, .ST⟩
  | .TCH_STORE_TOL => ⟨.TCH_STORE, 0, 16, .ST⟩
  | .TCH_BE_STATUS_PENDING => ⟨.TCH_BE_STATUS, 0, 1, .RO⟩
  | .TCH_BE_STATUS_ARMED => ⟨.TCH_BE_STATUS, 1, 1, .RO⟩
  | .TCH_BE_STATUS_TAKING => ⟨.TCH_BE_STATUS, 2, 1, .RO⟩
  | .TCH_BE_STATUS_CAL => ⟨.TCH_BE_STATUS, 3, 2, .RO⟩
  | .TCH_BE_STATUS_OVERFLOW => ⟨.TCH_BE_STATUS, 5, 1, .RO⟩
  | .TCH_BE_STATUS_SUB => ⟨.TCH_BE_STATUS, 6, 2, .RO⟩
  | .TCH_BE_STATUS_SPARE_BUSY => ⟨.TCH_BE_STATUS, 8, 1, .RO⟩
  | .TCH_BE_STATUS_LEVEL => ⟨.TCH_BE_STATUS, 16, 13, .RO⟩
  | .TCH_BE_EVENT_OVERFLOW => ⟨.TCH_BE_EVENT, 0, 1, .EV⟩
  | .TCH_BE_EVENT_FAULT => ⟨.TCH_BE_EVENT, 1, 1, .EV⟩
  | .TCH_BE_EVENT_CAL_FAIL => ⟨.TCH_BE_EVENT, 2, 1, .EV⟩
  | .TCH_BE_EVENT_SWITCHED => ⟨.TCH_BE_EVENT, 3, 1, .EV⟩
  | .TCH_BE_EVENT_REJOINED => ⟨.TCH_BE_EVENT, 4, 1, .EV⟩
  | .TCH_BE_EVENT_GUARD_OVERFLOW => ⟨.TCH_BE_EVENT, 5, 1, .EV⟩
  | .TCH_BE_EVENT_SEQ => ⟨.TCH_BE_EVENT, 24, 8, .RO⟩
  | .TCH_BE_CMD_RETIRE => ⟨.TCH_BE_CMD, 0, 1, .KY⟩
  | .TCH_BE_CMD_RETURN => ⟨.TCH_BE_CMD, 1, 1, .KY⟩
  | .TCH_BE_CMD_RETIRE_NOW => ⟨.TCH_BE_CMD, 2, 1, .KY⟩
  | .TCH_BE_CMD_CAL_RESTART => ⟨.TCH_BE_CMD, 3, 1, .GO⟩
  | .TCH_CAL_STATUS_STATE => ⟨.TCH_CAL_STATUS, 0, 2, .RO⟩
  | .TCH_CAL_STATUS_FAILS => ⟨.TCH_CAL_STATUS, 8, 2, .RO⟩
  | .TCH_CAL_STATUS_GEN => ⟨.TCH_CAL_STATUS, 16, 16, .RO⟩
  | .TCH_CAL_DRIFT_MAX => ⟨.TCH_CAL_DRIFT, 0, 16, .RO⟩
  | .TCH_CAL_HITS_COUNT => ⟨.TCH_CAL_HITS, 0, 32, .RO⟩
  | .TCH_EDGES_COUNT => ⟨.TCH_EDGES, 0, 64, .CT⟩
  | .TCH_LOST_COUNT => ⟨.TCH_LOST, 0, 64, .CT⟩
  | .TCH_SUPPRESSED_COUNT => ⟨.TCH_SUPPRESSED, 0, 64, .CT⟩
  | .TCH_OVF_COUNT_EPISODES => ⟨.TCH_OVF_COUNT, 0, 32, .CT⟩
  | .TCH_SPARE_CFG_AUTO => ⟨.TCH_SPARE_CFG, 0, 1, .RW⟩
  | .WCH_SOURCE_PAIR => ⟨.WCH_SOURCE, 0, 2, .ST⟩
  | .WCH_SOURCE_CHAIN => ⟨.WCH_SOURCE, 4, 4, .ST⟩
  | .WCH_SOURCE_CLASS => ⟨.WCH_SOURCE, 8, 1, .ST⟩
  | .WCH_SOURCE_EDGES => ⟨.WCH_SOURCE, 9, 2, .ST⟩
  | .WCH_JESD_PSET => ⟨.WCH_JESD, 0, 2, .ST⟩
  | .WCH_JESD_RBD => ⟨.WCH_JESD, 8, 7, .ST⟩
  | .WCH_CV_LAT_TICKS => ⟨.WCH_CV_LAT, 0, 32, .ST⟩
  | .WCH_INDELAY_TICKS => ⟨.WCH_INDELAY, 0, 32, .ST⟩
  | .WCH_ARM_ARM => ⟨.WCH_ARM, 0, 1, .RW⟩
  | .WCH_GAIN_G => ⟨.WCH_GAIN, 0, 16, .SH⟩
  | .WCH_FILT_ORDER => ⟨.WCH_FILT, 0, 3, .SH⟩
  | .WCH_FILT_FC => ⟨.WCH_FILT, 8, 4, .SH⟩
  | .WCH_NOTCH_F => ⟨.WCH_NOTCH, 0, 16, .SH⟩
  | .WCH_NOTCH_ENABLE => ⟨.WCH_NOTCH, 16, 1, .SH⟩
  | .WCH_XTHRESH_LEVEL => ⟨.WCH_XTHRESH, 0, 16, .SH⟩
  | .WCH_XTHRESH_HYST => ⟨.WCH_XTHRESH, 16, 8, .SH⟩
  | .WCH_COMMIT_COMMIT => ⟨.WCH_COMMIT, 0, 1, .GO⟩
  | .WCH_COMMIT_APPLIED_SEQ => ⟨.WCH_COMMIT, 8, 8, .RO⟩
  | .WCH_WIN_CFG_MODE => ⟨.WCH_WIN_CFG, 0, 2, .ST⟩
  | .WCH_WIN_CFG_MK => ⟨.WCH_WIN_CFG, 2, 5, .ST⟩
  | .WCH_WIN_START_TIME => ⟨.WCH_WIN_START, 0, 64, .ST⟩
  | .WCH_WIN_LEN_COARSE => ⟨.WCH_WIN_LEN, 0, 32, .ST⟩
  | .WCH_WIN_PERIOD_COARSE => ⟨.WCH_WIN_PERIOD, 0, 32, .ST⟩
  | .WCH_WIN_DELAY_COARSE => ⟨.WCH_WIN_DELAY, 0, 32, .ST⟩
  | .WCH_STATUS_PENDING => ⟨.WCH_STATUS, 0, 1, .RO⟩
  | .WCH_STATUS_ARMED => ⟨.WCH_STATUS, 1, 1, .RO⟩
  | .WCH_STATUS_WINDOW => ⟨.WCH_STATUS, 2, 1, .RO⟩
  | .WCH_STATUS_INVALID => ⟨.WCH_STATUS, 3, 1, .RO⟩
  | .WCH_STATUS_CONV => ⟨.WCH_STATUS, 4, 1, .RO⟩
  | .WCH_STATUS_OVERFLOW => ⟨.WCH_STATUS, 5, 1, .RO⟩
  | .WCH_STATUS_PREEMPTED => ⟨.WCH_STATUS, 6, 1, .RO⟩
  | .WCH_STATUS_CORR_HELD => ⟨.WCH_STATUS, 7, 1, .RO⟩
  | .WCH_STATUS_LEVEL => ⟨.WCH_STATUS, 16, 13, .RO⟩
  | .WCH_EVENT_OVERFLOW => ⟨.WCH_EVENT, 0, 1, .EV⟩
  | .WCH_EVENT_INGEST_FAULT => ⟨.WCH_EVENT, 1, 1, .EV⟩
  | .WCH_EVENT_CORR_LIMIT => ⟨.WCH_EVENT, 2, 1, .EV⟩
  | .WCH_EVENT_MISSED => ⟨.WCH_EVENT, 3, 1, .EV⟩
  | .WCH_EVENT_PREEMPTED => ⟨.WCH_EVENT, 4, 1, .EV⟩
  | .WCH_EVENT_ABORT_LATE => ⟨.WCH_EVENT, 5, 1, .EV⟩
  | .WCH_EVENT_CRC => ⟨.WCH_EVENT, 6, 1, .EV⟩
  | .WCH_EVENT_SEQ => ⟨.WCH_EVENT, 24, 8, .RO⟩
  | .WCH_SLOT_STATUS_STATE => ⟨.WCH_SLOT_STATUS, 0, 2, .RO⟩
  | .WCH_SLOT_STATUS_MARGIN => ⟨.WCH_SLOT_STATUS, 8, 8, .RO⟩
  | .WCH_CORR_OFS_DIFF => ⟨.WCH_CORR_OFS, 0, 16, .RO⟩
  | .WCH_CORR_GAIN_RATIO => ⟨.WCH_CORR_GAIN, 0, 16, .RO⟩
  | .WCH_CORR_SKEW_FS => ⟨.WCH_CORR_SKEW, 0, 16, .RO⟩
  | .WCH_CROSSINGS_COUNT => ⟨.WCH_CROSSINGS, 0, 64, .CT⟩
  | .WCH_LOST_COUNT => ⟨.WCH_LOST, 0, 64, .CT⟩
  | .WCH_SUPPRESSED_COUNT => ⟨.WCH_SUPPRESSED, 0, 32, .CT⟩
  | .WCH_OVF_COUNT_EPISODES => ⟨.WCH_OVF_COUNT, 0, 32, .CT⟩
  | .WCH_WIN_COUNT_DONE => ⟨.WCH_WIN_COUNT, 0, 32, .CT⟩
  | .WCH_WIN_MISSED_COUNT => ⟨.WCH_WIN_MISSED, 0, 32, .CT⟩
  | .WCH_PREEMPT_COUNT => ⟨.WCH_PREEMPT, 0, 32, .CT⟩
  | .WCH_CRC_ERR_COUNT => ⟨.WCH_CRC_ERR, 0, 32, .CT⟩
  | .MC_CFG_TYPE => ⟨.MC_CFG, 0, 4, .ST⟩
  | .MC_CFG_GMODE => ⟨.MC_CFG, 4, 2, .ST⟩
  | .MC_CFG_STAB => ⟨.MC_CFG, 6, 1, .ST⟩
  | .MC_CFG_RING => ⟨.MC_CFG, 7, 1, .ST⟩
  | .MC_CFG_EDGE_A => ⟨.MC_CFG, 8, 2, .ST⟩
  | .MC_CFG_EDGE_B => ⟨.MC_CFG, 10, 2, .ST⟩
  | .MC_CFG_GATE_EDGE => ⟨.MC_CFG, 12, 2, .ST⟩
  | .MC_CFG_WIDTH_POL => ⟨.MC_CFG, 14, 1, .ST⟩
  | .MC_CFG_INT_MODE => ⟨.MC_CFG, 15, 1, .ST⟩
  | .MC_CFG_GATE_N => ⟨.MC_CFG, 16, 16, .ST⟩
  | .MC_SRC_SRC_A => ⟨.MC_SRC, 0, 8, .ST⟩
  | .MC_SRC_SRC_B => ⟨.MC_SRC, 8, 8, .ST⟩
  | .MC_SRC_SRC_G => ⟨.MC_SRC, 16, 8, .ST⟩
  | .MC_SRC_DIV_A => ⟨.MC_SRC, 24, 4, .ST⟩
  | .MC_SRC_DIV_B => ⟨.MC_SRC, 28, 4, .ST⟩
  | .MC_CTL_ARM => ⟨.MC_CTL, 0, 1, .RW⟩
  | .MC_CTL_RESTART => ⟨.MC_CTL, 1, 1, .GO⟩
  | .MC_CTL_STAB_CLEAR => ⟨.MC_CTL, 2, 1, .GO⟩
  | .MC_STATUS_PENDING => ⟨.MC_STATUS, 0, 1, .RO⟩
  | .MC_STATUS_ARMED => ⟨.MC_STATUS, 1, 1, .RO⟩
  | .MC_STATUS_OPEN => ⟨.MC_STATUS, 2, 1, .RO⟩
  | .MC_STATUS_RESERVED => ⟨.MC_STATUS, 3, 1, .RO⟩
  | .MC_STATUS_WAITING => ⟨.MC_STATUS, 4, 1, .RO⟩
  | .MC_STATUS_ENGINE => ⟨.MC_STATUS, 8, 5, .RO⟩
  | .MC_STATUS_STAB_SLOT => ⟨.MC_STATUS, 16, 10, .RO⟩
  | .MC_STATUS_STAB_HELD => ⟨.MC_STATUS, 26, 1, .RO⟩
  | .MC_RESULT_VALUE => ⟨.MC_RESULT, 0, 64, .RO⟩
  | .MC_GATE_END_TIME => ⟨.MC_GATE_END, 0, 64, .RO⟩
  | .MC_VALID_CODE => ⟨.MC_VALID, 0, 3, .RO⟩
  | .MC_VALID_FLAGS => ⟨.MC_VALID, 4, 16, .RO⟩
  | .MC_VALID_GATE_SEQ => ⟨.MC_VALID, 20, 12, .RO⟩
  | .MC_COUNT_N => ⟨.MC_COUNT, 0, 32, .RO⟩
  | .MC_RING_BASE_ADDR => ⟨.MC_RING_BASE, 0, 64, .RO⟩
  | .MC_RING_WR_INDEX => ⟨.MC_RING_WR, 0, 12, .RO⟩
  | .MC_RING_RD_INDEX => ⟨.MC_RING_RD, 0, 12, .RW⟩
  | .MC_RING_LOST_COUNT => ⟨.MC_RING_LOST, 0, 32, .CT⟩
  | .MC_EVENT_RING_HALF => ⟨.MC_EVENT, 0, 1, .EV⟩
  | .MC_EVENT_RING_FULL => ⟨.MC_EVENT, 1, 1, .EV⟩
  | .MC_EVENT_DROP => ⟨.MC_EVENT, 2, 1, .EV⟩
  | .MC_EVENT_FRAME_INVALID => ⟨.MC_EVENT, 3, 1, .EV⟩
  | .MC_EVENT_SEQ => ⟨.MC_EVENT, 24, 8, .RO⟩
  | .MC_STAB_FREE_SLOTS => ⟨.MC_STAB_FREE, 0, 11, .RO⟩
  | .MC_DROPS_COUNT => ⟨.MC_DROPS, 0, 32, .CT⟩
  | .MC_ENG_STATUS_LOAD => ⟨.MC_ENG_STATUS, 0, 16, .RO⟩
  | .MC_ENG_STATUS_CONTEXTS => ⟨.MC_ENG_STATUS, 16, 14, .RO⟩
  | .MC_ENG_STATUS_RETIRED => ⟨.MC_ENG_STATUS, 30, 1, .RO⟩
  | .MC_ENG_DROPS_COUNT => ⟨.MC_ENG_DROPS, 0, 32, .CT⟩
  | .AQ_CFG_MODE => ⟨.AQ_CFG, 0, 2, .ST⟩
  | .AQ_CFG_STORE => ⟨.AQ_CFG, 2, 1, .ST⟩
  | .AQ_CFG_PRE_WAIT => ⟨.AQ_CFG, 3, 1, .ST⟩
  | .AQ_CFG_RECYCLE => ⟨.AQ_CFG, 4, 1, .ST⟩
  | .AQ_ARM_ARM => ⟨.AQ_ARM, 0, 1, .RW⟩
  | .AQ_CMD_FORCE => ⟨.AQ_CMD, 0, 1, .GO⟩
  | .AQ_CMD_ABORT => ⟨.AQ_CMD, 1, 1, .GO⟩
  | .AQ_STATUS_STATE => ⟨.AQ_STATUS, 0, 4, .RO⟩
  | .AQ_STATUS_PENDING => ⟨.AQ_STATUS, 4, 1, .RO⟩
  | .AQ_STATUS_ARMED => ⟨.AQ_STATUS, 5, 1, .RO⟩
  | .AQ_STATUS_CLASS => ⟨.AQ_STATUS, 6, 1, .RO⟩
  | .AQ_STATUS_STREAMING => ⟨.AQ_STATUS, 7, 1, .RO⟩
  | .AQ_STATUS_PAN => ⟨.AQ_STATUS, 8, 8, .RO⟩
  | .AQ_STATUS_FREE_PANS => ⟨.AQ_STATUS, 16, 9, .RO⟩
  | .AQ_EVENT_CAPTURED => ⟨.AQ_EVENT, 0, 1, .EV⟩
  | .AQ_EVENT_STOPPED => ⟨.AQ_EVENT, 1, 1, .EV⟩
  | .AQ_EVENT_ABORT_LATE => ⟨.AQ_EVENT, 2, 1, .EV⟩
  | .AQ_EVENT_PRE_LOST => ⟨.AQ_EVENT, 3, 1, .EV⟩
  | .AQ_EVENT_NO_PAN => ⟨.AQ_EVENT, 4, 1, .EV⟩
  | .AQ_EVENT_SEQ => ⟨.AQ_EVENT, 24, 8, .RO⟩
  | .AQ_PANS_FIRST => ⟨.AQ_PANS, 0, 8, .ST⟩
  | .AQ_PANS_COUNT => ⟨.AQ_PANS, 8, 9, .ST⟩
  | .AQ_PRE_WORDS => ⟨.AQ_PRE, 0, 32, .ST⟩
  | .AQ_HOLDOFF_COARSE => ⟨.AQ_HOLDOFF, 0, 32, .ST⟩
  | .AQ_POST_WORDS => ⟨.AQ_POST, 0, 40, .ST⟩
  | .AQ_AUTO_TIMEOUT => ⟨.AQ_AUTO, 0, 32, .ST⟩
  | .AQ_STREAM_ENABLE => ⟨.AQ_STREAM, 0, 1, .ST⟩
  | .AQ_STREAM_SL => ⟨.AQ_STREAM, 8, 5, .ST⟩
  | .AQ_LAST_T_TIME => ⟨.AQ_LAST_T, 0, 64, .RO⟩
  | .AQ_CAPTURES_COUNT => ⟨.AQ_CAPTURES, 0, 32, .CT⟩
  | .AQ_IGNORED_COUNT => ⟨.AQ_IGNORED, 0, 32, .CT⟩
  | .AQ_STOPS_COUNT => ⟨.AQ_STOPS, 0, 32, .CT⟩
  | .AQ_SRC_SRC => ⟨.AQ_SRC, 0, 8, .ST⟩
  | .AQ_SRC_ENABLE => ⟨.AQ_SRC, 8, 1, .ST⟩
  | .AQ_TRG_CTL_TYPE => ⟨.AQ_TRG_CTL, 0, 4, .ST⟩
  | .AQ_TRG_CTL_SRC => ⟨.AQ_TRG_CTL, 4, 8, .ST⟩
  | .AQ_TRG_CTL_EDGE => ⟨.AQ_TRG_CTL, 12, 2, .ST⟩
  | .AQ_TRG_CTL_SRC_B => ⟨.AQ_TRG_CTL, 14, 8, .ST⟩
  | .AQ_TRG_CTL_EDGE_B => ⟨.AQ_TRG_CTL, 22, 2, .ST⟩
  | .AQ_TRG_LO_VALUE => ⟨.AQ_TRG_LO, 0, 32, .ST⟩
  | .AQ_TRG_HI_VALUE => ⟨.AQ_TRG_HI, 0, 32, .ST⟩
  | .AQ_TRG_MASK_BITS => ⟨.AQ_TRG_MASK, 0, 32, .ST⟩
  | .PAN_BASE_BASE => ⟨.PAN_BASE, 0, 19, .ST⟩
  | .PAN_LEN_LEN => ⟨.PAN_LEN, 0, 20, .ST⟩
  | .PAN_STATUS_STATE => ⟨.PAN_STATUS, 0, 2, .RO⟩
  | .PAN_STATUS_OWNER => ⟨.PAN_STATUS, 4, 4, .RO⟩
  | .PAN_STATUS_RELEASE => ⟨.PAN_STATUS, 8, 1, .GO⟩
  | .PAN_STATUS_CAPSEQ => ⟨.PAN_STATUS, 16, 16, .RO⟩
  | .PAN_HDR_OFS => ⟨.PAN_HDR, 0, 32, .RO⟩
  | .CRY_CFG_KIND => ⟨.CRY_CFG, 0, 2, .ST⟩
  | .CRY_CFG_NHIST => ⟨.CRY_CFG, 2, 4, .ST⟩
  | .CRY_CFG_SCOPE => ⟨.CRY_CFG, 6, 1, .ST⟩
  | .CRY_CFG_EXCL_FE => ⟨.CRY_CFG, 7, 1, .ST⟩
  | .CRY_CFG_EXCL_CONV => ⟨.CRY_CFG, 8, 1, .ST⟩
  | .CRY_CTL_FREEZE => ⟨.CRY_CTL, 0, 1, .RW⟩
  | .CRY_CMD_CLEAR => ⟨.CRY_CMD, 0, 1, .GO⟩
  | .CRY_CMD_RELEASE => ⟨.CRY_CMD, 1, 1, .GO⟩
  | .CRY_STATUS_FROZEN => ⟨.CRY_STATUS, 0, 1, .RO⟩
  | .CRY_STATUS_CLEARING => ⟨.CRY_STATUS, 1, 1, .RO⟩
  | .CRY_STATUS_MERGING => ⟨.CRY_STATUS, 2, 1, .RO⟩
  | .CRY_STATUS_HELD => ⟨.CRY_STATUS, 3, 1, .RO⟩
  | .CRY_EVENT_SAT => ⟨.CRY_EVENT, 0, 1, .EV⟩
  | .CRY_EVENT_DROP => ⟨.CRY_EVENT, 1, 1, .EV⟩
  | .CRY_EVENT_SEQ => ⟨.CRY_EVENT, 24, 8, .RO⟩
  | .CRY_DROPS_COUNT => ⟨.CRY_DROPS, 0, 32, .CT⟩
  | .CRY_EXCLUDED_COUNT => ⟨.CRY_EXCLUDED, 0, 32, .CT⟩
  | .CRY_H_CFG_KIND => ⟨.CRY_H_CFG, 0, 3, .ST⟩
  | .CRY_H_CFG_EDGE_A => ⟨.CRY_H_CFG, 3, 2, .ST⟩
  | .CRY_H_CFG_EDGE_B => ⟨.CRY_H_CFG, 5, 2, .ST⟩
  | .CRY_H_CFG_WIDTH_POL => ⟨.CRY_H_CFG, 7, 1, .ST⟩
  | .CRY_H_CFG_SHIFT => ⟨.CRY_H_CFG, 8, 5, .ST⟩
  | .CRY_H_CFG_SRC_A => ⟨.CRY_H_CFG, 16, 8, .ST⟩
  | .CRY_H_CFG_SRC_B => ⟨.CRY_H_CFG, 24, 8, .ST⟩
  | .CRY_H_ORIGIN_VALUE => ⟨.CRY_H_ORIGIN, 0, 64, .ST⟩
  | .CRY_H_UNDER_COUNT => ⟨.CRY_H_UNDER, 0, 32, .CT⟩
  | .CRY_H_OVER_COUNT => ⟨.CRY_H_OVER, 0, 32, .CT⟩
  | .CRY_H_TOTAL_COUNT => ⟨.CRY_H_TOTAL, 0, 64, .CT⟩
  | .CRY_H_STATUS_GRANULE => ⟨.CRY_H_STATUS, 0, 8, .RO⟩
  | .CRY_H_STATUS_SAT => ⟨.CRY_H_STATUS, 8, 1, .RO⟩
  | .CRY_MAP_CFG_SRC => ⟨.CRY_MAP_CFG, 0, 4, .ST⟩
  | .CRY_MAP_CFG_COND => ⟨.CRY_MAP_CFG, 4, 3, .ST⟩
  | .CRY_MAP_CFG_COLW => ⟨.CRY_MAP_CFG, 16, 13, .ST⟩
  | .CRY_MAP_OFFSET_COARSE => ⟨.CRY_MAP_OFFSET, 0, 32, .ST⟩
  | .CRY_MAP_ROW_ORIGIN => ⟨.CRY_MAP_ROW, 0, 16, .ST⟩
  | .CRY_MAP_ROW_RSHIFT => ⟨.CRY_MAP_ROW, 16, 3, .ST⟩
  | .CRY_MAP_SWEEPS_COUNT => ⟨.CRY_MAP_SWEEPS, 0, 32, .CT⟩
  | .CRY_MAP_SKIPPED_COUNT => ⟨.CRY_MAP_SKIPPED, 0, 32, .CT⟩
  | .CRY_MAP_CLIP_COUNT => ⟨.CRY_MAP_CLIP, 0, 32, .CT⟩
  | .CRY_MAP_STATUS_GRANULE => ⟨.CRY_MAP_STATUS, 0, 8, .RO⟩
  | .CRY_MAP_STATUS_SWEEPING => ⟨.CRY_MAP_STATUS, 8, 1, .RO⟩
  | .CRY_MAP_STATUS_SAT => ⟨.CRY_MAP_STATUS, 9, 1, .RO⟩
  | .MSK_CFG_ENABLE => ⟨.MSK_CFG, 0, 1, .ST⟩
  | .MSK_CFG_REF_KIND => ⟨.MSK_CFG, 1, 1, .ST⟩
  | .MSK_CFG_REF_SRC => ⟨.MSK_CFG, 2, 8, .ST⟩
  | .MSK_CFG_REF_EDGE => ⟨.MSK_CFG, 10, 2, .ST⟩
  | .MSK_CFG_NENT => ⟨.MSK_CFG, 12, 7, .ST⟩
  | .MSK_STATUS_OPEN => ⟨.MSK_STATUS, 0, 5, .RO⟩
  | .MSK_STATUS_INSTANCE => ⟨.MSK_STATUS, 5, 20, .RO⟩
  | .MSK_EVENT_VIOLATION => ⟨.MSK_EVENT, 0, 1, .EV⟩
  | .MSK_EVENT_OVERRUN => ⟨.MSK_EVENT, 1, 1, .EV⟩
  | .MSK_EVENT_SEQ => ⟨.MSK_EVENT, 24, 8, .RO⟩
  | .MSK_PASS_COUNT => ⟨.MSK_PASS, 0, 32, .CT⟩
  | .MSK_FAIL_COUNT => ⟨.MSK_FAIL, 0, 32, .CT⟩
  | .MSK_DISCARDED_COUNT => ⟨.MSK_DISCARDED, 0, 32, .CT⟩
  | .MSK_ENT_CFG_SRC => ⟨.MSK_ENT_CFG, 0, 5, .ST⟩
  | .MSK_ENT_CFG_KIND => ⟨.MSK_ENT_CFG, 5, 1, .ST⟩
  | .MSK_ENT_CFG_EDGE => ⟨.MSK_ENT_CFG, 6, 2, .ST⟩
  | .MSK_ENT_CFG_COUNT => ⟨.MSK_ENT_CFG, 8, 4, .ST⟩
  | .MSK_ENT_LO_TICKS => ⟨.MSK_ENT_LO, 0, 32, .ST⟩
  | .MSK_ENT_HI_TICKS => ⟨.MSK_ENT_HI, 0, 32, .ST⟩
  | .MSK_ENT_SPAN_EARLY => ⟨.MSK_ENT_SPAN, 0, 16, .ST⟩
  | .MSK_ENT_SPAN_LATE => ⟨.MSK_ENT_SPAN, 16, 16, .ST⟩
  | .VD_CFG_TYPE => ⟨.VD_CFG, 0, 4, .ST⟩
  | .VD_CFG_LINK => ⟨.VD_CFG, 4, 4, .ST⟩
  | .VD_CFG_EDGE => ⟨.VD_CFG, 8, 2, .ST⟩
  | .VD_CFG_EDGE_B => ⟨.VD_CFG, 10, 2, .ST⟩
  | .VD_CFG_SEND => ⟨.VD_CFG, 12, 1, .ST⟩
  | .VD_CFG_CODE => ⟨.VD_CFG, 16, 8, .ST⟩
  | .VD_CFG_ENABLE => ⟨.VD_CFG, 31, 1, .RW⟩
  | .VD_SRC_SRC => ⟨.VD_SRC, 0, 8, .ST⟩
  | .VD_SRC_SRC_B => ⟨.VD_SRC, 8, 8, .ST⟩
  | .VD_SRC_UNIT => ⟨.VD_SRC, 16, 4, .ST⟩
  | .VD_LO_TICKS => ⟨.VD_LO, 0, 32, .ST⟩
  | .VD_HI_TICKS => ⟨.VD_HI, 0, 32, .ST⟩
  | .VD_STATUS_OPEN => ⟨.VD_STATUS, 0, 1, .RO⟩
  | .VD_STATUS_SEQ => ⟨.VD_STATUS, 8, 8, .RO⟩
  | .VD_SENT_COUNT => ⟨.VD_SENT, 0, 32, .CT⟩
  | .VD_DROPS_COUNT => ⟨.VD_DROPS, 0, 32, .CT⟩
  | .VD_EVENT_DROP => ⟨.VD_EVENT, 0, 1, .EV⟩
  | .VD_EVENT_SEQ => ⟨.VD_EVENT, 24, 8, .RO⟩
  | .MRK_CFG_PATTERN => ⟨.MRK_CFG, 0, 2, .ST⟩
  | .MRK_CFG_LATCH => ⟨.MRK_CFG, 2, 2, .ST⟩
  | .MRK_CFG_LOOP => ⟨.MRK_CFG, 4, 1, .ST⟩
  | .MRK_CFG_DIV => ⟨.MRK_CFG, 8, 8, .ST⟩
  | .MRK_CTL_ARM => ⟨.MRK_CTL, 0, 1, .RW⟩
  | .MRK_STATUS_ARMED => ⟨.MRK_STATUS, 0, 1, .RO⟩
  | .MRK_STATUS_TRIPPED => ⟨.MRK_STATUS, 1, 1, .RO⟩
  | .MRK_STATUS_LATCHED => ⟨.MRK_STATUS, 2, 1, .RO⟩
  | .MRK_EVENT_TRIPPED => ⟨.MRK_EVENT, 0, 1, .EV⟩
  | .MRK_EVENT_SEQ => ⟨.MRK_EVENT, 24, 8, .RO⟩
  | .MRK_START_TIME => ⟨.MRK_START, 0, 64, .ST⟩
  | .MRK_FINE_STEP => ⟨.MRK_FINE, 0, 5, .ST⟩
  | .MRK_WIDTH_STEPS => ⟨.MRK_WIDTH, 0, 24, .ST⟩
  | .MRK_PERIOD_STEPS => ⟨.MRK_PERIOD, 0, 48, .ST⟩
  | .MRK_BURST_COUNT => ⟨.MRK_BURST, 0, 16, .ST⟩
  | .MRK_BURST_SPACING => ⟨.MRK_BURST, 16, 16, .ST⟩
  | .MRK_TRIPSEL_LINES => ⟨.MRK_TRIPSEL, 0, 64, .RW⟩
  | .MRK_FIRED_COUNT => ⟨.MRK_FIRED, 0, 32, .CT⟩
  | .MRK_SUPPRESSED_COUNT => ⟨.MRK_SUPPRESSED, 0, 32, .CT⟩
  | .MRK_MISSED_COUNT => ⟨.MRK_MISSED, 0, 32, .CT⟩
  | .MRK_TRUNCATED_COUNT => ⟨.MRK_TRUNCATED, 0, 32, .CT⟩
  | .TRIP_CFG_LATCH => ⟨.TRIP_CFG, 0, 2, .RW⟩
  | .TRIP_CFG_FORCE => ⟨.TRIP_CFG, 2, 1, .RW⟩
  | .TRIP_CFG_REL_MK => ⟨.TRIP_CFG, 8, 5, .RW⟩
  | .TRIP_SEL_LINES => ⟨.TRIP_SEL, 0, 64, .RW⟩
  | .TRIP_STATUS_TRIPPED => ⟨.TRIP_STATUS, 0, 1, .RO⟩
  | .TRIP_STATUS_LATCHED => ⟨.TRIP_STATUS, 1, 1, .RO⟩
  | .TRIP_EVENT_TRIPPED => ⟨.TRIP_EVENT, 0, 1, .EV⟩
  | .TRIP_EVENT_SEQ => ⟨.TRIP_EVENT, 24, 8, .RO⟩
  | .TRIP_COUNT_ASSERTS => ⟨.TRIP_COUNT, 0, 32, .CT⟩
  | .TRIP_LINES_STATE => ⟨.TRIP_LINES, 0, 64, .RO⟩
  | .SLU_CFG_MODE => ⟨.SLU_CFG, 0, 1, .ST⟩
  | .SLU_CFG_LIST_DIR => ⟨.SLU_CFG, 1, 1, .ST⟩
  | .SLU_CFG_PACE => ⟨.SLU_CFG, 2, 1, .ST⟩
  | .SLU_CFG_REMOTE_START => ⟨.SLU_CFG, 3, 1, .ST⟩
  | .SLU_CFG_INT_HALF => ⟨.SLU_CFG, 4, 1, .RW⟩
  | .SLU_CFG_INT_DONE => ⟨.SLU_CFG, 5, 1, .RW⟩
  | .SLU_CTL_GO => ⟨.SLU_CTL, 0, 1, .GO⟩
  | .SLU_CTL_DISABLE => ⟨.SLU_CTL, 1, 1, .GO⟩
  | .SLU_CTL_PAUSE => ⟨.SLU_CTL, 2, 1, .GO⟩
  | .SLU_CTL_RESUME => ⟨.SLU_CTL, 3, 1, .GO⟩
  | .SLU_STATUS_STATE => ⟨.SLU_STATUS, 0, 3, .RO⟩
  | .SLU_STATUS_HELD => ⟨.SLU_STATUS, 3, 1, .RO⟩
  | .SLU_STATUS_UNIT => ⟨.SLU_STATUS, 4, 4, .RO⟩
  | .SLU_STATUS_WAIT_CREDIT => ⟨.SLU_STATUS, 8, 1, .RO⟩
  | .SLU_STATUS_WAIT_ACK => ⟨.SLU_STATUS, 9, 1, .RO⟩
  | .SLU_STATUS_WAIT_MEM => ⟨.SLU_STATUS, 10, 1, .RO⟩
  | .SLU_EVENT_DONE => ⟨.SLU_EVENT, 0, 1, .EV⟩
  | .SLU_EVENT_HALF => ⟨.SLU_EVENT, 1, 1, .EV⟩
  | .SLU_EVENT_DESC => ⟨.SLU_EVENT, 2, 1, .EV⟩
  | .SLU_EVENT_ABORT_LATE => ⟨.SLU_EVENT, 3, 1, .EV⟩
  | .SLU_EVENT_CREDIT_OVER => ⟨.SLU_EVENT, 4, 1, .EV⟩
  | .SLU_EVENT_SEQ => ⟨.SLU_EVENT, 24, 8, .RO⟩
  | .SLU_SRC_ADDR => ⟨.SLU_SRC, 0, 48, .ST⟩
  | .SLU_DST_ADDR => ⟨.SLU_DST, 0, 48, .ST⟩
  | .SLU_COUNT_BYTES => ⟨.SLU_COUNT, 0, 32, .ST⟩
  | .SLU_COMMIT_COMMIT => ⟨.SLU_COMMIT, 0, 1, .GO⟩
  | .SLU_COMMIT_APPLIED_SEQ => ⟨.SLU_COMMIT, 8, 8, .RO⟩
  | .SLU_LIST_ADDR => ⟨.SLU_LIST, 0, 48, .SH⟩
  | .SLU_DONE_BYTES => ⟨.SLU_DONE, 0, 64, .CT⟩
  | .SLU_CREDIT_AVAIL => ⟨.SLU_CREDIT, 0, 12, .RO⟩
  | .SLU_CREDIT_IGNORED => ⟨.SLU_CREDIT, 16, 16, .CT⟩
  | .SLU_DESC_EVENTS => ⟨.SLU_DESC, 0, 32, .CT⟩
  | .SLU_ENGINE_CFG_AUTO_RESTORE => ⟨.SLU_ENGINE_CFG, 0, 1, .RW⟩
  | .SLU_ENGINE_CTL_DISABLE_ALL => ⟨.SLU_ENGINE_CTL, 0, 1, .GO⟩
  | .SLU_ENGINE_CTL_RESUME => ⟨.SLU_ENGINE_CTL, 1, 1, .KY⟩
  | .SLU_ENGINE_STATUS_HALTED => ⟨.SLU_ENGINE_STATUS, 0, 1, .RO⟩
  | .SLU_ENGINE_STATUS_RUNNING => ⟨.SLU_ENGINE_STATUS, 8, 6, .RO⟩
  | .SLU_ENGINE_STATUS_FAILS => ⟨.SLU_ENGINE_STATUS, 16, 2, .RO⟩
  | .SLU_ENGINE_EVENT_HALT => ⟨.SLU_ENGINE_EVENT, 0, 1, .EV⟩
  | .SLU_ENGINE_EVENT_SEQ => ⟨.SLU_ENGINE_EVENT, 24, 8, .RO⟩
  | .SLU_HALT_ADDR_ADDR => ⟨.SLU_HALT_ADDR, 0, 48, .RO⟩
  | .SLU_HALT_CAUSE_CODE => ⟨.SLU_HALT_CAUSE, 0, 4, .RO⟩
  | .SLU_HALTS_COUNT => ⟨.SLU_HALTS, 0, 32, .CT⟩
  | .LNK_QUAD_CFG_RATE => ⟨.LNK_QUAD_CFG, 0, 2, .ST⟩
  | .LNK_QUAD_CFG_SSC_TX => ⟨.LNK_QUAD_CFG, 2, 1, .ST⟩
  | .LNK_QUAD_CFG_SSC_RX => ⟨.LNK_QUAD_CFG, 3, 1, .ST⟩
  | .LNK_QUAD_CFG_EYE_VMIN => ⟨.LNK_QUAD_CFG, 4, 8, .RW⟩
  | .LNK_QUAD_CFG_EYE_HMIN => ⟨.LNK_QUAD_CFG, 12, 6, .RW⟩
  | .LNK_QUAD_CTL_PWR => ⟨.LNK_QUAD_CTL, 0, 2, .RW⟩
  | .LNK_QUAD_STATUS_PWR => ⟨.LNK_QUAD_STATUS, 0, 2, .RO⟩
  | .LNK_QUAD_STATUS_PLL_LOCK => ⟨.LNK_QUAD_STATUS, 2, 1, .RO⟩
  | .LNK_QUAD_STATUS_TRAINED => ⟨.LNK_QUAD_STATUS, 3, 4, .RO⟩
  | .LNK_LANE_CFG_RX_INV => ⟨.LNK_LANE_CFG, 0, 1, .ST⟩
  | .LNK_LANE_CFG_TX_INV => ⟨.LNK_LANE_CFG, 1, 1, .ST⟩
  | .LNK_LANE_CFG_LINK => ⟨.LNK_LANE_CFG, 4, 4, .ST⟩
  | .LNK_LANE_CTL_ENABLE => ⟨.LNK_LANE_CTL, 0, 1, .RW⟩
  | .LNK_LANE_CTL_P1_REQ => ⟨.LNK_LANE_CTL, 1, 1, .RW⟩
  | .LNK_LANE_CTL_MANUAL_SLIP => ⟨.LNK_LANE_CTL, 2, 1, .RW⟩
  | .LNK_LANE_CMD_RETRAIN => ⟨.LNK_LANE_CMD, 0, 1, .GO⟩
  | .LNK_LANE_CMD_SLIP => ⟨.LNK_LANE_CMD, 1, 1, .GO⟩
  | .LNK_LANE_CMD_RETIRE => ⟨.LNK_LANE_CMD, 2, 1, .KY⟩
  | .LNK_LANE_CMD_RETURN => ⟨.LNK_LANE_CMD, 3, 1, .KY⟩
  | .LNK_LANE_STATUS_STATE => ⟨.LNK_LANE_STATUS, 0, 4, .RO⟩
  | .LNK_LANE_STATUS_P1_NOW => ⟨.LNK_LANE_STATUS, 4, 1, .RO⟩
  | .LNK_LANE_STATUS_SIGNAL => ⟨.LNK_LANE_STATUS, 5, 1, .RO⟩
  | .LNK_LANE_STATUS_BLOCK_LOCK => ⟨.LNK_LANE_STATUS, 6, 1, .RO⟩
  | .LNK_LANE_STATUS_FROZEN => ⟨.LNK_LANE_STATUS, 7, 1, .RO⟩
  | .LNK_LANE_STATUS_IN_SERVICE => ⟨.LNK_LANE_STATUS, 8, 1, .RO⟩
  | .LNK_LANE_STATUS_BACKOFF => ⟨.LNK_LANE_STATUS, 9, 3, .RO⟩
  | .LNK_LANE_STATUS_SLIP => ⟨.LNK_LANE_STATUS, 16, 7, .RO⟩
  | .LNK_LANE_EVENT_LOS => ⟨.LNK_LANE_EVENT, 0, 1, .EV⟩
  | .LNK_LANE_EVENT_LOST_LOCK => ⟨.LNK_LANE_EVENT, 1, 1, .EV⟩
  | .LNK_LANE_EVENT_TIMEOUT => ⟨.LNK_LANE_EVENT, 2, 1, .EV⟩
  | .LNK_LANE_EVENT_EYE_LOW => ⟨.LNK_LANE_EVENT, 3, 1, .EV⟩
  | .LNK_LANE_EVENT_GUARD => ⟨.LNK_LANE_EVENT, 4, 1, .EV⟩
  | .LNK_LANE_EVENT_SEQ => ⟨.LNK_LANE_EVENT, 24, 8, .RO⟩
  | .LNK_LANE_PRESET_CTLE => ⟨.LNK_LANE_PRESET, 0, 4, .ST⟩
  | .LNK_LANE_PRESET_PRE => ⟨.LNK_LANE_PRESET, 4, 4, .ST⟩
  | .LNK_LANE_PRESET_MAIN => ⟨.LNK_LANE_PRESET, 8, 6, .ST⟩
  | .LNK_LANE_PRESET_POST => ⟨.LNK_LANE_PRESET, 16, 5, .ST⟩
  | .LNK_LANE_TAPS_CTLE => ⟨.LNK_LANE_TAPS, 0, 4, .RO⟩
  | .LNK_LANE_TAPS_PRE => ⟨.LNK_LANE_TAPS, 4, 4, .RO⟩
  | .LNK_LANE_TAPS_MAIN => ⟨.LNK_LANE_TAPS, 8, 6, .RO⟩
  | .LNK_LANE_TAPS_POST => ⟨.LNK_LANE_TAPS, 16, 5, .RO⟩
  | .LNK_LANE_DFE_TAPS => ⟨.LNK_LANE_DFE, 0, 32, .RO⟩
  | .LNK_LANE_EYE_VMARGIN => ⟨.LNK_LANE_EYE, 0, 8, .RO⟩
  | .LNK_LANE_EYE_HMARGIN => ⟨.LNK_LANE_EYE, 8, 6, .RO⟩
  | .LNK_LANE_RETRAINS_COUNT => ⟨.LNK_LANE_RETRAINS, 0, 32, .CT⟩
  | .LNK_LANE_SHERR_COUNT => ⟨.LNK_LANE_SHERR, 0, 32, .CT⟩
  | .LNK_LANE_GUARD_COUNT => ⟨.LNK_LANE_GUARD, 0, 32, .CT⟩
  | .LNK_TRAIN_PLACES => ⟨.LNK_TRAIN, 0, 4, .RO⟩
  | .LNK_TRAIN_QUEUED => ⟨.LNK_TRAIN, 8, 7, .RO⟩
  | .LNK_LINK_CFG_REG => ⟨.LNK_LINK_CFG, 0, 2, .KY⟩
  | .LNK_LINK_CFG_TIME => ⟨.LNK_LINK_CFG, 2, 1, .RW⟩
  | .LNK_LINK_CFG_TRIG => ⟨.LNK_LINK_CFG, 3, 1, .RW⟩
  | .LNK_LINK_CTL_ENABLE => ⟨.LNK_LINK_CTL, 0, 1, .ST⟩
  | .LNK_LINK_STATUS_PENDING => ⟨.LNK_LINK_STATUS, 0, 1, .RO⟩
  | .LNK_LINK_STATUS_ADMITTED => ⟨.LNK_LINK_STATUS, 1, 1, .RO⟩
  | .LNK_LINK_STATUS_TX_SERVICE => ⟨.LNK_LINK_STATUS, 4, 4, .RO⟩
  | .LNK_LINK_STATUS_RX_SERVICE => ⟨.LNK_LINK_STATUS, 8, 4, .RO⟩
  | .LNK_LINK_STATUS_OFFER => ⟨.LNK_LINK_STATUS, 12, 4, .RO⟩
  | .LNK_LINK_STATUS_PARTNER_OFFER => ⟨.LNK_LINK_STATUS, 16, 4, .RO⟩
  | .LNK_LINK_STATUS_VQUEUE => ⟨.LNK_LINK_STATUS, 20, 6, .RO⟩
  | .LNK_LINK_STATUS_PKT_PENDING => ⟨.LNK_LINK_STATUS, 26, 5, .RO⟩
  | .LNK_LINK_EVENT_ADMIT => ⟨.LNK_LINK_EVENT, 0, 1, .EV⟩
  | .LNK_LINK_EVENT_UNADMIT => ⟨.LNK_LINK_EVENT, 1, 1, .EV⟩
  | .LNK_LINK_EVENT_DESKEW_FAIL => ⟨.LNK_LINK_EVENT, 2, 1, .EV⟩
  | .LNK_LINK_EVENT_PROTOCOL => ⟨.LNK_LINK_EVENT, 3, 1, .EV⟩
  | .LNK_LINK_EVENT_LOST => ⟨.LNK_LINK_EVENT, 4, 1, .EV⟩
  | .LNK_LINK_EVENT_SEQ => ⟨.LNK_LINK_EVENT, 24, 8, .RO⟩
  | .LNK_LINK_PKTS_COUNT => ⟨.LNK_LINK_PKTS, 0, 32, .CT⟩
  | .LNK_LINK_BUSY_COUNT => ⟨.LNK_LINK_BUSY, 0, 32, .CT⟩
  | .LNK_LINK_PKT_ERR_COUNT => ⟨.LNK_LINK_PKT_ERR, 0, 32, .CT⟩
  | .LNK_LINK_CHK_ERR_COUNT => ⟨.LNK_LINK_CHK_ERR, 0, 32, .CT⟩
  | .LNK_LINK_LOST_BLOCKS_COUNT => ⟨.LNK_LINK_LOST_BLOCKS, 0, 32, .CT⟩
  | .LNK_LINK_BIP_ERR_COUNT => ⟨.LNK_LINK_BIP_ERR, 0, 32, .CT⟩
  | .LNK_LINK_UNKNOWN_COUNT => ⟨.LNK_LINK_UNKNOWN, 0, 32, .CT⟩
  | .LNK_LINK_TRIGGERS_COUNT => ⟨.LNK_LINK_TRIGGERS, 0, 32, .CT⟩
  | .LNK_LINK_VERDICTS_COUNT => ⟨.LNK_LINK_VERDICTS, 0, 32, .CT⟩
  | .DEV_ID_PART => ⟨.DEV_ID, 0, 16, .RO⟩
  | .DEV_ID_REV => ⟨.DEV_ID, 16, 8, .RO⟩
  | .DEV_ID_GRADE => ⟨.DEV_ID, 24, 1, .RO⟩
  | .DEV_VENDOR_JTAG_MFR => ⟨.DEV_VENDOR, 0, 11, .RO⟩
  | .DEV_STATE_STATE => ⟨.DEV_STATE, 0, 3, .RO⟩
  | .DEV_STATE_PREV => ⟨.DEV_STATE, 4, 3, .RO⟩
  | .DEV_TIDEGATE_KEY => ⟨.DEV_TIDEGATE, 0, 16, .RW⟩
  | .DEV_TIDEGATE_OPEN => ⟨.DEV_TIDEGATE, 16, 1, .RO⟩
  | .DEV_CMD_HARVEST => ⟨.DEV_CMD, 0, 1, .GO⟩
  | .DEV_CMD_ENTER_TEST => ⟨.DEV_CMD, 1, 1, .KY⟩
  | .DEV_CMD_LEAVE_TEST => ⟨.DEV_CMD, 2, 1, .KY⟩
  | .DEV_EVENT_BUS_ERROR => ⟨.DEV_EVENT, 0, 1, .EV⟩
  | .DEV_EVENT_PAIR_DROP => ⟨.DEV_EVENT, 1, 1, .EV⟩
  | .DEV_EVENT_HARVEST_DONE => ⟨.DEV_EVENT, 2, 1, .EV⟩
  | .DEV_EVENT_STATE => ⟨.DEV_EVENT, 3, 1, .EV⟩
  | .DEV_EVENT_SEQ => ⟨.DEV_EVENT, 24, 8, .RO⟩
  | .DEV_BUSERR_CODE => ⟨.DEV_BUSERR, 0, 8, .RO⟩
  | .DEV_BUSERR_PORT => ⟨.DEV_BUSERR, 8, 5, .RO⟩
  | .DEV_BUSERR_WRITE => ⟨.DEV_BUSERR, 13, 1, .RO⟩
  | .DEV_BUSERR_ADDR_ADDR => ⟨.DEV_BUSERR_ADDR, 0, 32, .RO⟩
  | .DEV_BUSERR_COUNT_COUNT => ⟨.DEV_BUSERR_COUNT, 0, 32, .CT⟩
  | .DEV_IRQ_STATUS_BLOCKS => ⟨.DEV_IRQ_STATUS, 0, 16, .RO⟩
  | .DEV_IRQ_ENABLE_BLOCKS => ⟨.DEV_IRQ_ENABLE, 0, 16, .RW⟩
  | .DEV_HARVEST_HSEQ => ⟨.DEV_HARVEST, 0, 16, .RO⟩
  | .DEV_HARVEST_BUSY => ⟨.DEV_HARVEST, 16, 1, .RO⟩
  | .DEV_HARVEST_QUAL => ⟨.DEV_HARVEST, 24, 5, .RO⟩
  | .DEV_HARVEST_TIME_TIME => ⟨.DEV_HARVEST_TIME, 0, 64, .RO⟩
  | .TB_REF_CFG_FREQ => ⟨.TB_REF_CFG, 0, 2, .ST⟩
  | .TB_REF_CFG_BW => ⟨.TB_REF_CFG, 4, 2, .RW⟩
  | .TB_STATUS_QUAL => ⟨.TB_STATUS, 0, 5, .RO⟩
  | .TB_STATUS_TIME_VALID => ⟨.TB_STATUS, 8, 1, .RO⟩
  | .TB_STATUS_REALIGN_PENDING => ⟨.TB_STATUS, 9, 1, .RO⟩
  | .TB_STATUS_SET_PENDING => ⟨.TB_STATUS, 10, 1, .RO⟩
  | .TB_STATUS_REALIGN_FAIL => ⟨.TB_STATUS, 16, 1, .EV⟩
  | .TB_STATUS_SEQ => ⟨.TB_STATUS, 24, 8, .RO⟩
  | .TB_PPS_CFG_EDGE => ⟨.TB_PPS_CFG, 0, 1, .ST⟩
  | .TB_PPS_CFG_MODE => ⟨.TB_PPS_CFG, 1, 2, .ST⟩
  | .TB_PPS_CFG_WAIT => ⟨.TB_PPS_CFG, 8, 8, .RW⟩
  | .TB_PPS_CFG_TOL => ⟨.TB_PPS_CFG, 16, 8, .RW⟩
  | .TB_PPS_DELAY_TICKS => ⟨.TB_PPS_DELAY, 0, 32, .ST⟩
  | .TB_PPS_OFFSET_TICKS => ⟨.TB_PPS_OFFSET, 0, 32, .RO⟩
  | .TB_PPS_EXTRA_COUNT => ⟨.TB_PPS_EXTRA, 0, 32, .CT⟩
  | .TB_HOLD_PHASE_TICKS => ⟨.TB_HOLD_PHASE, 0, 19, .RO⟩
  | .TB_REF_OUT_PHASE_TICKS => ⟨.TB_REF_OUT_PHASE, 0, 19, .RO⟩
  | .TB_SEC_SET_SEC => ⟨.TB_SEC_SET, 0, 32, .RW⟩
  | .TB_CMD_REALIGN => ⟨.TB_CMD, 0, 1, .GO⟩
  | .TB_CMD_SET_SEC => ⟨.TB_CMD, 1, 1, .GO⟩
  | .TB_CMD_SYSREF_BURST => ⟨.TB_CMD, 2, 1, .GO⟩
  | .TB_LEAP_SEC => ⟨.TB_LEAP, 0, 32, .RW⟩
  | .TB_LEAP_DIR => ⟨.TB_LEAP, 32, 1, .RW⟩
  | .TB_FRAME_LEN => ⟨.TB_FRAME, 0, 24, .SH⟩
  | .TB_FRAME_COMMIT_COMMIT => ⟨.TB_FRAME_COMMIT, 0, 1, .GO⟩
  | .TB_FRAME_COMMIT_APPLIED_SEQ => ⟨.TB_FRAME_COMMIT, 8, 8, .RO⟩
  | .TB_PPS_OUT_OFFSET => ⟨.TB_PPS_OUT, 0, 32, .RW⟩
  | .TB_PPS_OUT_WIDTH => ⟨.TB_PPS_OUT, 32, 24, .RW⟩
  | .TB_SYSREF_PERIOD => ⟨.TB_SYSREF, 0, 24, .ST⟩
  | .TB_SYSREF_MODE => ⟨.TB_SYSREF, 24, 2, .ST⟩
  | .TB_SYSREF_COUNT => ⟨.TB_SYSREF, 32, 8, .ST⟩
  | .TB_SYSREF_SKEW_STEPS => ⟨.TB_SYSREF_SKEW, 0, 16, .ST⟩
  | .TB_ISLAND_UNLOCK_IS => ⟨.TB_ISLAND_UNLOCK, 0, 9, .EV⟩
  | .TB_ISLAND_UNLOCK_SEQ => ⟨.TB_ISLAND_UNLOCK, 24, 8, .RO⟩
  | .TB_NOW_TIME => ⟨.TB_NOW, 0, 64, .RO⟩
  | .LIFE_STATUS_LEDGER_OK => ⟨.LIFE_STATUS, 0, 1, .RO⟩
  | .LIFE_STATUS_REFRESH_DUE => ⟨.LIFE_STATUS, 1, 1, .RO⟩
  | .LIFE_STATUS_REFRESHING => ⟨.LIFE_STATUS, 2, 1, .RO⟩
  | .LIFE_STATUS_LEDGER_NEW => ⟨.LIFE_STATUS, 3, 1, .RO⟩
  | .LIFE_HOURS_COUNT => ⟨.LIFE_HOURS, 0, 32, .RO⟩
  | .LIFE_SCREEN_HOURS_COUNT => ⟨.LIFE_SCREEN_HOURS, 0, 32, .RO⟩
  | .LIFE_CONSUMED_FRACTION => ⟨.LIFE_CONSUMED, 0, 32, .RO⟩
  | .LIFE_AVG_TJ => ⟨.LIFE_AVG, 0, 12, .RO⟩
  | .LIFE_AVG_POWER => ⟨.LIFE_AVG, 16, 10, .RO⟩
  | .LIFE_SHUTDOWNS_COUNT => ⟨.LIFE_SHUTDOWNS, 0, 32, .RO⟩
  | .LIFE_ENTRIES_COUNT => ⟨.LIFE_ENTRIES, 0, 32, .RO⟩
  | .LIFE_REFRESH_LAST_SEC => ⟨.LIFE_REFRESH_LAST, 0, 32, .RO⟩
  | .LIFE_REFRESH_NEXT_SEC => ⟨.LIFE_REFRESH_NEXT, 0, 32, .RO⟩
  | .LIFE_RO_FREQ => ⟨.LIFE_RO, 0, 16, .RO⟩
  | .LIFE_RO_DRIFT => ⟨.LIFE_RO, 16, 16, .RO⟩
  | .LIFE_SCRUB_CE_COUNT => ⟨.LIFE_SCRUB_CE, 0, 32, .CT⟩
  | .LIFE_SCRUB_UE_COUNT => ⟨.LIFE_SCRUB_UE, 0, 32, .CT⟩
  | .LIFE_ROWS_REPAIRED_COUNT => ⟨.LIFE_ROWS_REPAIRED, 0, 32, .RO⟩
  | .LIFE_SCRUB_PASSES_COUNT => ⟨.LIFE_SCRUB_PASSES, 0, 32, .CT⟩
  | .LIFE_UNIT_CMD_KIND => ⟨.LIFE_UNIT_CMD, 0, 2, .RW⟩
  | .LIFE_UNIT_CMD_INDEX => ⟨.LIFE_UNIT_CMD, 8, 6, .RW⟩
  | .LIFE_UNIT_CMD_RETIRE => ⟨.LIFE_UNIT_CMD, 16, 1, .KY⟩
  | .LIFE_UNIT_CMD_RETURN => ⟨.LIFE_UNIT_CMD, 17, 1, .KY⟩
  | .LIFE_ENG_RETIRED_BITS => ⟨.LIFE_ENG_RETIRED, 0, 24, .RO⟩
  | .LIFE_PCH_RETIRED_BITS => ⟨.LIFE_PCH_RETIRED, 0, 64, .RO⟩
  | .LIFE_SLU_RETIRED_BITS => ⟨.LIFE_SLU_RETIRED, 0, 32, .RO⟩
  | .LIFE_CMD_REFRESH => ⟨.LIFE_CMD, 0, 1, .KY⟩
  | .LIFE_CMD_LEDGER_SYNC => ⟨.LIFE_CMD, 1, 1, .GO⟩
  | .LIFE_EVENT_AGEING => ⟨.LIFE_EVENT, 0, 1, .EV⟩
  | .LIFE_EVENT_SCRUB_UE => ⟨.LIFE_EVENT, 1, 1, .EV⟩
  | .LIFE_EVENT_REFRESH_DONE => ⟨.LIFE_EVENT, 2, 1, .EV⟩
  | .LIFE_EVENT_REFRESH_FAIL => ⟨.LIFE_EVENT, 3, 1, .EV⟩
  | .LIFE_EVENT_LEDGER_FAIL => ⟨.LIFE_EVENT, 4, 1, .EV⟩
  | .LIFE_EVENT_UNIT_DONE => ⟨.LIFE_EVENT, 5, 1, .EV⟩
  | .LIFE_EVENT_SEQ => ⟨.LIFE_EVENT, 24, 8, .RO⟩

/-- The reset value of each field that the tables give one number; a field whose reset differs between instances or
lies in a fuse or the ledger is 0 here and given by `Fld.reset`. -/
def Fld.tableReset : Fld → Nat
  | .PWR_CFG_EFF => 857
  | .PWR_LIMIT_INPUT_MW => 115000
  | .PWR_THERM_TARGET => 90
  | .PWR_THERM_GAIN => 2500
  | .PWR_ISLAND_FLOOR => 2
  | .PWR_ISLAND_STATE => 3
  | .PWR_ISLAND_HOLD_MS => 100
  | .HVS_CFG_ILIM => 80
  | .HVS_CFG_SLEW => 2
  | .HVS_CFG_FAULT_MS => 10
  | .HVS_CFG_RETRY => 1
  | .BOOT_PHASE_STATE => 1
  | .TCH_THRESH_HYST => 3
  | .TCH_WIN_LIMIT_HIGH => 511
  | .TCH_WIN_LIMIT_LOW => 512
  | .TCH_WIN_CFG_N => 1
  | .TCH_WIN_CFG_M => 1
  | .TCH_BE_STATUS_CAL => 2
  | .TCH_CAL_STATUS_STATE => 2
  | .TCH_SPARE_CFG_AUTO => 1
  | .WCH_JESD_RBD => 16
  | .WCH_GAIN_G => 4096
  | .WCH_FILT_FC => 15
  | .WCH_XTHRESH_HYST => 16
  | .MC_CFG_EDGE_A => 1
  | .MC_CFG_EDGE_B => 1
  | .MC_CFG_GATE_EDGE => 1
  | .MC_CFG_GATE_N => 10000
  | .MC_STAB_FREE_SLOTS => 1024
  | .AQ_CFG_STORE => 1
  | .AQ_PANS_COUNT => 1
  | .AQ_POST_WORDS => 1
  | .AQ_TRG_CTL_EDGE => 1
  | .AQ_TRG_CTL_EDGE_B => 1
  | .PAN_HDR_OFS => 4294967295
  | .CRY_CFG_NHIST => 1
  | .CRY_H_CFG_EDGE_A => 1
  | .CRY_H_CFG_EDGE_B => 1
  | .CRY_MAP_CFG_COLW => 1
  | .CRY_MAP_ROW_ORIGIN => 49152
  | .CRY_MAP_ROW_RSHIFT => 3
  | .MSK_CFG_REF_EDGE => 1
  | .MSK_CFG_NENT => 1
  | .MSK_ENT_CFG_EDGE => 1
  | .MSK_ENT_CFG_COUNT => 1
  | .VD_CFG_EDGE => 1
  | .VD_CFG_EDGE_B => 1
  | .MRK_CFG_DIV => 1
  | .MRK_WIDTH_STEPS => 16
  | .TRIP_STATUS_TRIPPED => 1
  | .SLU_ENGINE_CFG_AUTO_RESTORE => 1
  | .LNK_QUAD_CFG_EYE_VMIN => 10
  | .LNK_QUAD_CFG_EYE_HMIN => 12
  | .LNK_QUAD_STATUS_PWR => 2
  | .LNK_LANE_PRESET_CTLE => 8
  | .LNK_LANE_PRESET_PRE => 4
  | .LNK_LANE_PRESET_MAIN => 51
  | .LNK_LANE_PRESET_POST => 8
  | .LNK_LINK_CFG_REG => 2
  | .LNK_LINK_CFG_TRIG => 1
  | .DEV_ID_PART => 324
  | .DEV_ID_REV => 192
  | .DEV_STATE_STATE => 1
  | .DEV_STATE_PREV => 1
  | .TB_REF_CFG_BW => 1
  | .TB_PPS_CFG_MODE => 1
  | .TB_PPS_CFG_WAIT => 2
  | .TB_PPS_CFG_TOL => 10
  | .TB_FRAME_LEN => 10000
  | .TB_PPS_OUT_WIDTH => 200
  | .TB_SYSREF_PERIOD => 64
  | .TB_SYSREF_COUNT => 1
  | _ => 0

/-- The fields of each register, in the tables' order. -/
def Reg.fields : Reg → List Fld
  | .PWR_CFG => [.PWR_CFG_EFF]
  | .PWR_LIMIT => [.PWR_LIMIT_INPUT_MW]
  | .PWR_GUARD => [.PWR_GUARD_SLICE_MW]
  | .PWR_THERM => [.PWR_THERM_TARGET, .PWR_THERM_GAIN]
  | .PWR_STATUS => [.PWR_STATUS_DEFER, .PWR_STATUS_SHEDDING, .PWR_STATUS_STEP, .PWR_STATUS_IS8_STATE,
      .PWR_STATUS_HOTTEST_ID, .PWR_STATUS_HOTTEST]
  | .PWR_BUDGET => [.PWR_BUDGET_MW]
  | .PWR_LOAD => [.PWR_LOAD_MW]
  | .PWR_QUEUE => [.PWR_QUEUE_GUARD, .PWR_QUEUE_SYSTEM]
  | .PWR_SHED => [.PWR_SHED_COUNT, .PWR_SHED_SHUTDOWNS]
  | .PWR_EVENT => [.PWR_EVENT_DEFER_START, .PWR_EVENT_SHED_START, .PWR_EVENT_GUARD_REFUSED, .PWR_EVENT_RAIL_FAULT,
      .PWR_EVENT_SENSOR_LOST, .PWR_EVENT_SEQ]
  | .PWR_TICK => [.PWR_TICK_COUNT]
  | .PWR_BACKLOG => [.PWR_BACKLOG_SURVEY]
  | .PWR_TEMP => [.PWR_TEMP_TEMP, .PWR_TEMP_VALID]
  | .PWR_ISLAND => [.PWR_ISLAND_FLOOR, .PWR_ISLAND_STATE, .PWR_ISLAND_HOLD_MS]
  | .PWR_COST => [.PWR_COST_COST]
  | .PWR_RAIL => [.PWR_RAIL_VOUT_MV, .PWR_RAIL_PG, .PWR_RAIL_FAULT, .PWR_RAIL_ENABLED]
  | .PWR_CMD => [.PWR_CMD_RAIL_RETRY]
  | .HVS_CFG => [.HVS_CFG_ILIM, .HVS_CFG_SLEW, .HVS_CFG_FAULT_MS, .HVS_CFG_RETRY]
  | .HVS_STATUS => [.HVS_STATUS_VIN_OK, .HVS_STATUS_OVER, .HVS_STATUS_LOW, .HVS_STATUS_FET_ON, .HVS_STATUS_BUS_ON,
      .HVS_STATUS_LIMITING, .HVS_STATUS_LINK_OK]
  | .HVS_VIN => [.HVS_VIN_MV]
  | .HVS_IIN => [.HVS_IIN_MA]
  | .HVS_PIN => [.HVS_PIN_MW]
  | .HVS_ENERGY => [.HVS_ENERGY_MJ]
  | .HVS_PEAK => [.HVS_PEAK_MW]
  | .HVS_EVENT => [.HVS_EVENT_OVER_SEEN, .HVS_EVENT_LOW_SEEN, .HVS_EVENT_LIMIT_TRIP, .HVS_EVENT_HEARTBEAT_LOST,
      .HVS_EVENT_SEQ]
  | .HVS_TRIPS => [.HVS_TRIPS_COUNT]
  | .HVS_CMD => [.HVS_CMD_PEAK_CLEAR, .HVS_CMD_FET_RESTART]
  | .BOOT_PHASE => [.BOOT_PHASE_STATE, .BOOT_PHASE_SLOT, .BOOT_PHASE_PHASE, .BOOT_PHASE_SECTION, .BOOT_PHASE_ERROR,
      .BOOT_PHASE_PROGRESS]
  | .BOOT_STATUS => [.BOOT_STATUS_VALID_A, .BOOT_STATUS_VALID_B, .BOOT_STATUS_FUSED, .BOOT_STATUS_SIGNED,
      .BOOT_STATUS_FALLBACK, .BOOT_STATUS_LOCKOUT, .BOOT_STATUS_SKIPPED, .BOOT_STATUS_APPLIED]
  | .BOOT_GEN_A => [.BOOT_GEN_A_GEN]
  | .BOOT_GEN_B => [.BOOT_GEN_B_GEN]
  | .BOOT_FAIL => [.BOOT_FAIL_CODE, .BOOT_FAIL_SECTION, .BOOT_FAIL_ENTRY]
  | .BOOT_FLASH => [.BOOT_FLASH_MODE, .BOOT_FLASH_FOUR_BYTE, .BOOT_FLASH_DENSITY]
  | .BOOT_CFG => [.BOOT_CFG_FORCE]
  | .BOOT_CMD => [.BOOT_CMD_REBOOT]
  | .BOOT_EVENT => [.BOOT_EVENT_FALLBACK_USED, .BOOT_EVENT_SECTION_SKIPPED, .BOOT_EVENT_PASS2_RETRY, .BOOT_EVENT_SEQ]
  | .BOOT_MARK => [.BOOT_MARK_US]
  | .BOOT_KEYHASH => [.BOOT_KEYHASH_WORD]
  | .TCH_INPUT => [.TCH_INPUT_MODE]
  | .TCH_THRESH => [.TCH_THRESH_LEVEL, .TCH_THRESH_HYST]
  | .TCH_FE_COMMIT => [.TCH_FE_COMMIT_COMMIT, .TCH_FE_COMMIT_APPLIED_SEQ]
  | .TCH_FE_STATUS => [.TCH_FE_STATUS_STATE_KNOWN, .TCH_FE_STATUS_LEVEL, .TCH_FE_STATUS_OVR_NOW,
      .TCH_FE_STATUS_NBR_NOW, .TCH_FE_STATUS_THS_NOW, .TCH_FE_STATUS_OVR_CLASS]
  | .TCH_WIN_LIMIT => [.TCH_WIN_LIMIT_HIGH, .TCH_WIN_LIMIT_LOW]
  | .TCH_WIN_CFG => [.TCH_WIN_CFG_SENSE, .TCH_WIN_CFG_N, .TCH_WIN_CFG_M, .TCH_WIN_CFG_LATCH, .TCH_WIN_CFG_TL,
      .TCH_WIN_CFG_ROUTE]
  | .TCH_WIN_CTL => [.TCH_WIN_CTL_ENABLE]
  | .TCH_WIN_STATUS => [.TCH_WIN_STATUS_ACTIVE, .TCH_WIN_STATUS_FILTER, .TCH_WIN_STATUS_LATCHED,
      .TCH_WIN_STATUS_HELD, .TCH_WIN_STATUS_COUNT]
  | .TCH_WIN_EVENT => [.TCH_WIN_EVENT_TRIPPED, .TCH_WIN_EVENT_SEQ]
  | .TCH_WIN_COUNT => [.TCH_WIN_COUNT_ASSERTS]
  | .TCH_OVR_COUNT => [.TCH_OVR_COUNT_EPISODES]
  | .TCH_RUNT => [.TCH_RUNT_COUNT]
  | .TCH_INDELAY => [.TCH_INDELAY_TICKS]
  | .TCH_ARM => [.TCH_ARM_ARM]
  | .TCH_BE_CFG => [.TCH_BE_CFG_CLASS, .TCH_BE_CFG_EDGES, .TCH_BE_CFG_CHANGE, .TCH_BE_CFG_CAL_BYPASS]
  | .TCH_STORE => [.TCH_STORE_TOL]
  | .TCH_BE_STATUS => [.TCH_BE_STATUS_PENDING, .TCH_BE_STATUS_ARMED, .TCH_BE_STATUS_TAKING, .TCH_BE_STATUS_CAL,
      .TCH_BE_STATUS_OVERFLOW, .TCH_BE_STATUS_SUB, .TCH_BE_STATUS_SPARE_BUSY, .TCH_BE_STATUS_LEVEL]
  | .TCH_BE_EVENT => [.TCH_BE_EVENT_OVERFLOW, .TCH_BE_EVENT_FAULT, .TCH_BE_EVENT_CAL_FAIL, .TCH_BE_EVENT_SWITCHED,
      .TCH_BE_EVENT_REJOINED, .TCH_BE_EVENT_GUARD_OVERFLOW, .TCH_BE_EVENT_SEQ]
  | .TCH_BE_CMD => [.TCH_BE_CMD_RETIRE, .TCH_BE_CMD_RETURN, .TCH_BE_CMD_RETIRE_NOW, .TCH_BE_CMD_CAL_RESTART]
  | .TCH_CAL_STATUS => [.TCH_CAL_STATUS_STATE, .TCH_CAL_STATUS_FAILS, .TCH_CAL_STATUS_GEN]
  | .TCH_CAL_DRIFT => [.TCH_CAL_DRIFT_MAX]
  | .TCH_CAL_HITS => [.TCH_CAL_HITS_COUNT]
  | .TCH_EDGES => [.TCH_EDGES_COUNT]
  | .TCH_LOST => [.TCH_LOST_COUNT]
  | .TCH_SUPPRESSED => [.TCH_SUPPRESSED_COUNT]
  | .TCH_OVF_COUNT => [.TCH_OVF_COUNT_EPISODES]
  | .TCH_SPARE_CFG => [.TCH_SPARE_CFG_AUTO]
  | .WCH_SOURCE => [.WCH_SOURCE_PAIR, .WCH_SOURCE_CHAIN, .WCH_SOURCE_CLASS, .WCH_SOURCE_EDGES]
  | .WCH_JESD => [.WCH_JESD_PSET, .WCH_JESD_RBD]
  | .WCH_CV_LAT => [.WCH_CV_LAT_TICKS]
  | .WCH_INDELAY => [.WCH_INDELAY_TICKS]
  | .WCH_ARM => [.WCH_ARM_ARM]
  | .WCH_GAIN => [.WCH_GAIN_G]
  | .WCH_FILT => [.WCH_FILT_ORDER, .WCH_FILT_FC]
  | .WCH_NOTCH => [.WCH_NOTCH_F, .WCH_NOTCH_ENABLE]
  | .WCH_XTHRESH => [.WCH_XTHRESH_LEVEL, .WCH_XTHRESH_HYST]
  | .WCH_COMMIT => [.WCH_COMMIT_COMMIT, .WCH_COMMIT_APPLIED_SEQ]
  | .WCH_WIN_CFG => [.WCH_WIN_CFG_MODE, .WCH_WIN_CFG_MK]
  | .WCH_WIN_START => [.WCH_WIN_START_TIME]
  | .WCH_WIN_LEN => [.WCH_WIN_LEN_COARSE]
  | .WCH_WIN_PERIOD => [.WCH_WIN_PERIOD_COARSE]
  | .WCH_WIN_DELAY => [.WCH_WIN_DELAY_COARSE]
  | .WCH_STATUS => [.WCH_STATUS_PENDING, .WCH_STATUS_ARMED, .WCH_STATUS_WINDOW, .WCH_STATUS_INVALID,
      .WCH_STATUS_CONV, .WCH_STATUS_OVERFLOW, .WCH_STATUS_PREEMPTED, .WCH_STATUS_CORR_HELD, .WCH_STATUS_LEVEL]
  | .WCH_EVENT => [.WCH_EVENT_OVERFLOW, .WCH_EVENT_INGEST_FAULT, .WCH_EVENT_CORR_LIMIT, .WCH_EVENT_MISSED,
      .WCH_EVENT_PREEMPTED, .WCH_EVENT_ABORT_LATE, .WCH_EVENT_CRC, .WCH_EVENT_SEQ]
  | .WCH_SLOT_STATUS => [.WCH_SLOT_STATUS_STATE, .WCH_SLOT_STATUS_MARGIN]
  | .WCH_CORR_OFS => [.WCH_CORR_OFS_DIFF]
  | .WCH_CORR_GAIN => [.WCH_CORR_GAIN_RATIO]
  | .WCH_CORR_SKEW => [.WCH_CORR_SKEW_FS]
  | .WCH_CROSSINGS => [.WCH_CROSSINGS_COUNT]
  | .WCH_LOST => [.WCH_LOST_COUNT]
  | .WCH_SUPPRESSED => [.WCH_SUPPRESSED_COUNT]
  | .WCH_OVF_COUNT => [.WCH_OVF_COUNT_EPISODES]
  | .WCH_WIN_COUNT => [.WCH_WIN_COUNT_DONE]
  | .WCH_WIN_MISSED => [.WCH_WIN_MISSED_COUNT]
  | .WCH_PREEMPT => [.WCH_PREEMPT_COUNT]
  | .WCH_CRC_ERR => [.WCH_CRC_ERR_COUNT]
  | .MC_CFG => [.MC_CFG_TYPE, .MC_CFG_GMODE, .MC_CFG_STAB, .MC_CFG_RING, .MC_CFG_EDGE_A, .MC_CFG_EDGE_B,
      .MC_CFG_GATE_EDGE, .MC_CFG_WIDTH_POL, .MC_CFG_INT_MODE, .MC_CFG_GATE_N]
  | .MC_SRC => [.MC_SRC_SRC_A, .MC_SRC_SRC_B, .MC_SRC_SRC_G, .MC_SRC_DIV_A, .MC_SRC_DIV_B]
  | .MC_CTL => [.MC_CTL_ARM, .MC_CTL_RESTART, .MC_CTL_STAB_CLEAR]
  | .MC_STATUS => [.MC_STATUS_PENDING, .MC_STATUS_ARMED, .MC_STATUS_OPEN, .MC_STATUS_RESERVED, .MC_STATUS_WAITING,
      .MC_STATUS_ENGINE, .MC_STATUS_STAB_SLOT, .MC_STATUS_STAB_HELD]
  | .MC_RESULT => [.MC_RESULT_VALUE]
  | .MC_GATE_END => [.MC_GATE_END_TIME]
  | .MC_VALID => [.MC_VALID_CODE, .MC_VALID_FLAGS, .MC_VALID_GATE_SEQ]
  | .MC_COUNT => [.MC_COUNT_N]
  | .MC_RING_BASE => [.MC_RING_BASE_ADDR]
  | .MC_RING_WR => [.MC_RING_WR_INDEX]
  | .MC_RING_RD => [.MC_RING_RD_INDEX]
  | .MC_RING_LOST => [.MC_RING_LOST_COUNT]
  | .MC_EVENT => [.MC_EVENT_RING_HALF, .MC_EVENT_RING_FULL, .MC_EVENT_DROP, .MC_EVENT_FRAME_INVALID, .MC_EVENT_SEQ]
  | .MC_STAB_FREE => [.MC_STAB_FREE_SLOTS]
  | .MC_DROPS => [.MC_DROPS_COUNT]
  | .MC_ENG_STATUS => [.MC_ENG_STATUS_LOAD, .MC_ENG_STATUS_CONTEXTS, .MC_ENG_STATUS_RETIRED]
  | .MC_ENG_DROPS => [.MC_ENG_DROPS_COUNT]
  | .AQ_CFG => [.AQ_CFG_MODE, .AQ_CFG_STORE, .AQ_CFG_PRE_WAIT, .AQ_CFG_RECYCLE]
  | .AQ_ARM => [.AQ_ARM_ARM]
  | .AQ_CMD => [.AQ_CMD_FORCE, .AQ_CMD_ABORT]
  | .AQ_STATUS => [.AQ_STATUS_STATE, .AQ_STATUS_PENDING, .AQ_STATUS_ARMED, .AQ_STATUS_CLASS, .AQ_STATUS_STREAMING,
      .AQ_STATUS_PAN, .AQ_STATUS_FREE_PANS]
  | .AQ_EVENT => [.AQ_EVENT_CAPTURED, .AQ_EVENT_STOPPED, .AQ_EVENT_ABORT_LATE, .AQ_EVENT_PRE_LOST, .AQ_EVENT_NO_PAN,
      .AQ_EVENT_SEQ]
  | .AQ_PANS => [.AQ_PANS_FIRST, .AQ_PANS_COUNT]
  | .AQ_PRE => [.AQ_PRE_WORDS]
  | .AQ_HOLDOFF => [.AQ_HOLDOFF_COARSE]
  | .AQ_POST => [.AQ_POST_WORDS]
  | .AQ_AUTO => [.AQ_AUTO_TIMEOUT]
  | .AQ_STREAM => [.AQ_STREAM_ENABLE, .AQ_STREAM_SL]
  | .AQ_LAST_T => [.AQ_LAST_T_TIME]
  | .AQ_CAPTURES => [.AQ_CAPTURES_COUNT]
  | .AQ_IGNORED => [.AQ_IGNORED_COUNT]
  | .AQ_STOPS => [.AQ_STOPS_COUNT]
  | .AQ_SRC => [.AQ_SRC_SRC, .AQ_SRC_ENABLE]
  | .AQ_TRG_CTL => [.AQ_TRG_CTL_TYPE, .AQ_TRG_CTL_SRC, .AQ_TRG_CTL_EDGE, .AQ_TRG_CTL_SRC_B, .AQ_TRG_CTL_EDGE_B]
  | .AQ_TRG_LO => [.AQ_TRG_LO_VALUE]
  | .AQ_TRG_HI => [.AQ_TRG_HI_VALUE]
  | .AQ_TRG_MASK => [.AQ_TRG_MASK_BITS]
  | .PAN_BASE => [.PAN_BASE_BASE]
  | .PAN_LEN => [.PAN_LEN_LEN]
  | .PAN_STATUS => [.PAN_STATUS_STATE, .PAN_STATUS_OWNER, .PAN_STATUS_RELEASE, .PAN_STATUS_CAPSEQ]
  | .PAN_HDR => [.PAN_HDR_OFS]
  | .CRY_CFG => [.CRY_CFG_KIND, .CRY_CFG_NHIST, .CRY_CFG_SCOPE, .CRY_CFG_EXCL_FE, .CRY_CFG_EXCL_CONV]
  | .CRY_CTL => [.CRY_CTL_FREEZE]
  | .CRY_CMD => [.CRY_CMD_CLEAR, .CRY_CMD_RELEASE]
  | .CRY_STATUS => [.CRY_STATUS_FROZEN, .CRY_STATUS_CLEARING, .CRY_STATUS_MERGING, .CRY_STATUS_HELD]
  | .CRY_EVENT => [.CRY_EVENT_SAT, .CRY_EVENT_DROP, .CRY_EVENT_SEQ]
  | .CRY_DROPS => [.CRY_DROPS_COUNT]
  | .CRY_EXCLUDED => [.CRY_EXCLUDED_COUNT]
  | .CRY_H_CFG => [.CRY_H_CFG_KIND, .CRY_H_CFG_EDGE_A, .CRY_H_CFG_EDGE_B, .CRY_H_CFG_WIDTH_POL, .CRY_H_CFG_SHIFT,
      .CRY_H_CFG_SRC_A, .CRY_H_CFG_SRC_B]
  | .CRY_H_ORIGIN => [.CRY_H_ORIGIN_VALUE]
  | .CRY_H_UNDER => [.CRY_H_UNDER_COUNT]
  | .CRY_H_OVER => [.CRY_H_OVER_COUNT]
  | .CRY_H_TOTAL => [.CRY_H_TOTAL_COUNT]
  | .CRY_H_STATUS => [.CRY_H_STATUS_GRANULE, .CRY_H_STATUS_SAT]
  | .CRY_MAP_CFG => [.CRY_MAP_CFG_SRC, .CRY_MAP_CFG_COND, .CRY_MAP_CFG_COLW]
  | .CRY_MAP_OFFSET => [.CRY_MAP_OFFSET_COARSE]
  | .CRY_MAP_ROW => [.CRY_MAP_ROW_ORIGIN, .CRY_MAP_ROW_RSHIFT]
  | .CRY_MAP_SWEEPS => [.CRY_MAP_SWEEPS_COUNT]
  | .CRY_MAP_SKIPPED => [.CRY_MAP_SKIPPED_COUNT]
  | .CRY_MAP_CLIP => [.CRY_MAP_CLIP_COUNT]
  | .CRY_MAP_STATUS => [.CRY_MAP_STATUS_GRANULE, .CRY_MAP_STATUS_SWEEPING, .CRY_MAP_STATUS_SAT]
  | .MSK_CFG => [.MSK_CFG_ENABLE, .MSK_CFG_REF_KIND, .MSK_CFG_REF_SRC, .MSK_CFG_REF_EDGE, .MSK_CFG_NENT]
  | .MSK_STATUS => [.MSK_STATUS_OPEN, .MSK_STATUS_INSTANCE]
  | .MSK_EVENT => [.MSK_EVENT_VIOLATION, .MSK_EVENT_OVERRUN, .MSK_EVENT_SEQ]
  | .MSK_PASS => [.MSK_PASS_COUNT]
  | .MSK_FAIL => [.MSK_FAIL_COUNT]
  | .MSK_DISCARDED => [.MSK_DISCARDED_COUNT]
  | .MSK_ENT_CFG => [.MSK_ENT_CFG_SRC, .MSK_ENT_CFG_KIND, .MSK_ENT_CFG_EDGE, .MSK_ENT_CFG_COUNT]
  | .MSK_ENT_LO => [.MSK_ENT_LO_TICKS]
  | .MSK_ENT_HI => [.MSK_ENT_HI_TICKS]
  | .MSK_ENT_SPAN => [.MSK_ENT_SPAN_EARLY, .MSK_ENT_SPAN_LATE]
  | .VD_CFG => [.VD_CFG_TYPE, .VD_CFG_LINK, .VD_CFG_EDGE, .VD_CFG_EDGE_B, .VD_CFG_SEND, .VD_CFG_CODE, .VD_CFG_ENABLE]
  | .VD_SRC => [.VD_SRC_SRC, .VD_SRC_SRC_B, .VD_SRC_UNIT]
  | .VD_LO => [.VD_LO_TICKS]
  | .VD_HI => [.VD_HI_TICKS]
  | .VD_STATUS => [.VD_STATUS_OPEN, .VD_STATUS_SEQ]
  | .VD_SENT => [.VD_SENT_COUNT]
  | .VD_DROPS => [.VD_DROPS_COUNT]
  | .MRK_CFG => [.MRK_CFG_PATTERN, .MRK_CFG_LATCH, .MRK_CFG_LOOP, .MRK_CFG_DIV]
  | .MRK_CTL => [.MRK_CTL_ARM]
  | .MRK_STATUS => [.MRK_STATUS_ARMED, .MRK_STATUS_TRIPPED, .MRK_STATUS_LATCHED]
  | .MRK_EVENT => [.MRK_EVENT_TRIPPED, .MRK_EVENT_SEQ]
  | .MRK_START => [.MRK_START_TIME]
  | .MRK_FINE => [.MRK_FINE_STEP]
  | .MRK_WIDTH => [.MRK_WIDTH_STEPS]
  | .MRK_PERIOD => [.MRK_PERIOD_STEPS]
  | .MRK_BURST => [.MRK_BURST_COUNT, .MRK_BURST_SPACING]
  | .MRK_TRIPSEL => [.MRK_TRIPSEL_LINES]
  | .MRK_FIRED => [.MRK_FIRED_COUNT]
  | .MRK_SUPPRESSED => [.MRK_SUPPRESSED_COUNT]
  | .MRK_MISSED => [.MRK_MISSED_COUNT]
  | .MRK_TRUNCATED => [.MRK_TRUNCATED_COUNT]
  | .TRIP_CFG => [.TRIP_CFG_LATCH, .TRIP_CFG_FORCE, .TRIP_CFG_REL_MK]
  | .TRIP_SEL => [.TRIP_SEL_LINES]
  | .TRIP_STATUS => [.TRIP_STATUS_TRIPPED, .TRIP_STATUS_LATCHED]
  | .TRIP_EVENT => [.TRIP_EVENT_TRIPPED, .TRIP_EVENT_SEQ]
  | .TRIP_COUNT => [.TRIP_COUNT_ASSERTS]
  | .SLU_CFG => [.SLU_CFG_MODE, .SLU_CFG_LIST_DIR, .SLU_CFG_PACE, .SLU_CFG_REMOTE_START, .SLU_CFG_INT_HALF,
      .SLU_CFG_INT_DONE]
  | .SLU_ENGINE_CFG => [.SLU_ENGINE_CFG_AUTO_RESTORE]
  | .SLU_CTL => [.SLU_CTL_GO, .SLU_CTL_DISABLE, .SLU_CTL_PAUSE, .SLU_CTL_RESUME]
  | .SLU_ENGINE_CTL => [.SLU_ENGINE_CTL_DISABLE_ALL, .SLU_ENGINE_CTL_RESUME]
  | .SLU_STATUS => [.SLU_STATUS_STATE, .SLU_STATUS_HELD, .SLU_STATUS_UNIT, .SLU_STATUS_WAIT_CREDIT,
      .SLU_STATUS_WAIT_ACK, .SLU_STATUS_WAIT_MEM]
  | .SLU_ENGINE_STATUS => [.SLU_ENGINE_STATUS_HALTED, .SLU_ENGINE_STATUS_RUNNING, .SLU_ENGINE_STATUS_FAILS]
  | .SLU_EVENT => [.SLU_EVENT_DONE, .SLU_EVENT_HALF, .SLU_EVENT_DESC, .SLU_EVENT_ABORT_LATE, .SLU_EVENT_CREDIT_OVER,
      .SLU_EVENT_SEQ]
  | .SLU_ENGINE_EVENT => [.SLU_ENGINE_EVENT_HALT, .SLU_ENGINE_EVENT_SEQ]
  | .SLU_SRC => [.SLU_SRC_ADDR]
  | .SLU_HALT_ADDR => [.SLU_HALT_ADDR_ADDR]
  | .SLU_DST => [.SLU_DST_ADDR]
  | .SLU_HALT_CAUSE => [.SLU_HALT_CAUSE_CODE]
  | .SLU_COUNT => [.SLU_COUNT_BYTES]
  | .SLU_HALTS => [.SLU_HALTS_COUNT]
  | .SLU_COMMIT => [.SLU_COMMIT_COMMIT, .SLU_COMMIT_APPLIED_SEQ]
  | .SLU_LIST => [.SLU_LIST_ADDR]
  | .SLU_DONE => [.SLU_DONE_BYTES]
  | .SLU_CREDIT => [.SLU_CREDIT_AVAIL, .SLU_CREDIT_IGNORED]
  | .SLU_DESC => [.SLU_DESC_EVENTS]
  | .LNK_QUAD_CFG => [.LNK_QUAD_CFG_RATE, .LNK_QUAD_CFG_SSC_TX, .LNK_QUAD_CFG_SSC_RX, .LNK_QUAD_CFG_EYE_VMIN,
      .LNK_QUAD_CFG_EYE_HMIN]
  | .LNK_LANE_CFG => [.LNK_LANE_CFG_RX_INV, .LNK_LANE_CFG_TX_INV, .LNK_LANE_CFG_LINK]
  | .LNK_QUAD_CTL => [.LNK_QUAD_CTL_PWR]
  | .LNK_LANE_CTL => [.LNK_LANE_CTL_ENABLE, .LNK_LANE_CTL_P1_REQ, .LNK_LANE_CTL_MANUAL_SLIP]
  | .LNK_QUAD_STATUS => [.LNK_QUAD_STATUS_PWR, .LNK_QUAD_STATUS_PLL_LOCK, .LNK_QUAD_STATUS_TRAINED]
  | .LNK_LANE_CMD => [.LNK_LANE_CMD_RETRAIN, .LNK_LANE_CMD_SLIP, .LNK_LANE_CMD_RETIRE, .LNK_LANE_CMD_RETURN]
  | .LNK_LANE_STATUS => [.LNK_LANE_STATUS_STATE, .LNK_LANE_STATUS_P1_NOW, .LNK_LANE_STATUS_SIGNAL,
      .LNK_LANE_STATUS_BLOCK_LOCK, .LNK_LANE_STATUS_FROZEN, .LNK_LANE_STATUS_IN_SERVICE, .LNK_LANE_STATUS_BACKOFF,
      .LNK_LANE_STATUS_SLIP]
  | .LNK_LANE_EVENT => [.LNK_LANE_EVENT_LOS, .LNK_LANE_EVENT_LOST_LOCK, .LNK_LANE_EVENT_TIMEOUT,
      .LNK_LANE_EVENT_EYE_LOW, .LNK_LANE_EVENT_GUARD, .LNK_LANE_EVENT_SEQ]
  | .LNK_LANE_PRESET => [.LNK_LANE_PRESET_CTLE, .LNK_LANE_PRESET_PRE, .LNK_LANE_PRESET_MAIN, .LNK_LANE_PRESET_POST]
  | .LNK_LANE_TAPS => [.LNK_LANE_TAPS_CTLE, .LNK_LANE_TAPS_PRE, .LNK_LANE_TAPS_MAIN, .LNK_LANE_TAPS_POST]
  | .LNK_LANE_DFE => [.LNK_LANE_DFE_TAPS]
  | .LNK_LANE_EYE => [.LNK_LANE_EYE_VMARGIN, .LNK_LANE_EYE_HMARGIN]
  | .LNK_LANE_RETRAINS => [.LNK_LANE_RETRAINS_COUNT]
  | .LNK_LANE_SHERR => [.LNK_LANE_SHERR_COUNT]
  | .LNK_LANE_GUARD => [.LNK_LANE_GUARD_COUNT]
  | .LNK_LINK_CFG => [.LNK_LINK_CFG_REG, .LNK_LINK_CFG_TIME, .LNK_LINK_CFG_TRIG]
  | .LNK_LINK_CTL => [.LNK_LINK_CTL_ENABLE]
  | .LNK_LINK_STATUS => [.LNK_LINK_STATUS_PENDING, .LNK_LINK_STATUS_ADMITTED, .LNK_LINK_STATUS_TX_SERVICE,
      .LNK_LINK_STATUS_RX_SERVICE, .LNK_LINK_STATUS_OFFER, .LNK_LINK_STATUS_PARTNER_OFFER, .LNK_LINK_STATUS_VQUEUE,
      .LNK_LINK_STATUS_PKT_PENDING]
  | .LNK_LINK_EVENT => [.LNK_LINK_EVENT_ADMIT, .LNK_LINK_EVENT_UNADMIT, .LNK_LINK_EVENT_DESKEW_FAIL,
      .LNK_LINK_EVENT_PROTOCOL, .LNK_LINK_EVENT_LOST, .LNK_LINK_EVENT_SEQ]
  | .LNK_LINK_PKTS => [.LNK_LINK_PKTS_COUNT]
  | .LNK_LINK_BUSY => [.LNK_LINK_BUSY_COUNT]
  | .LNK_LINK_PKT_ERR => [.LNK_LINK_PKT_ERR_COUNT]
  | .LNK_LINK_CHK_ERR => [.LNK_LINK_CHK_ERR_COUNT]
  | .LNK_LINK_LOST_BLOCKS => [.LNK_LINK_LOST_BLOCKS_COUNT]
  | .LNK_LINK_BIP_ERR => [.LNK_LINK_BIP_ERR_COUNT]
  | .LNK_LINK_UNKNOWN => [.LNK_LINK_UNKNOWN_COUNT]
  | .LNK_LINK_TRIGGERS => [.LNK_LINK_TRIGGERS_COUNT]
  | .LNK_LINK_VERDICTS => [.LNK_LINK_VERDICTS_COUNT]
  | .DEV_ID => [.DEV_ID_PART, .DEV_ID_REV, .DEV_ID_GRADE]
  | .DEV_VENDOR => [.DEV_VENDOR_JTAG_MFR]
  | .DEV_STATE => [.DEV_STATE_STATE, .DEV_STATE_PREV]
  | .DEV_TIDEGATE => [.DEV_TIDEGATE_KEY, .DEV_TIDEGATE_OPEN]
  | .DEV_CMD => [.DEV_CMD_HARVEST, .DEV_CMD_ENTER_TEST, .DEV_CMD_LEAVE_TEST]
  | .DEV_EVENT => [.DEV_EVENT_BUS_ERROR, .DEV_EVENT_PAIR_DROP, .DEV_EVENT_HARVEST_DONE, .DEV_EVENT_STATE,
      .DEV_EVENT_SEQ]
  | .DEV_BUSERR => [.DEV_BUSERR_CODE, .DEV_BUSERR_PORT, .DEV_BUSERR_WRITE]
  | .DEV_BUSERR_ADDR => [.DEV_BUSERR_ADDR_ADDR]
  | .DEV_BUSERR_COUNT => [.DEV_BUSERR_COUNT_COUNT]
  | .DEV_IRQ_STATUS => [.DEV_IRQ_STATUS_BLOCKS]
  | .DEV_IRQ_ENABLE => [.DEV_IRQ_ENABLE_BLOCKS]
  | .DEV_HARVEST => [.DEV_HARVEST_HSEQ, .DEV_HARVEST_BUSY, .DEV_HARVEST_QUAL]
  | .DEV_HARVEST_TIME => [.DEV_HARVEST_TIME_TIME]
  | .TB_REF_CFG => [.TB_REF_CFG_FREQ, .TB_REF_CFG_BW]
  | .TB_STATUS => [.TB_STATUS_QUAL, .TB_STATUS_TIME_VALID, .TB_STATUS_REALIGN_PENDING, .TB_STATUS_SET_PENDING,
      .TB_STATUS_REALIGN_FAIL, .TB_STATUS_SEQ]
  | .TB_PPS_CFG => [.TB_PPS_CFG_EDGE, .TB_PPS_CFG_MODE, .TB_PPS_CFG_WAIT, .TB_PPS_CFG_TOL]
  | .TB_PPS_DELAY => [.TB_PPS_DELAY_TICKS]
  | .TB_PPS_OFFSET => [.TB_PPS_OFFSET_TICKS]
  | .TB_PPS_EXTRA => [.TB_PPS_EXTRA_COUNT]
  | .TB_HOLD_PHASE => [.TB_HOLD_PHASE_TICKS]
  | .TB_REF_OUT_PHASE => [.TB_REF_OUT_PHASE_TICKS]
  | .TB_SEC_SET => [.TB_SEC_SET_SEC]
  | .TB_CMD => [.TB_CMD_REALIGN, .TB_CMD_SET_SEC, .TB_CMD_SYSREF_BURST]
  | .TB_LEAP => [.TB_LEAP_SEC, .TB_LEAP_DIR]
  | .TB_FRAME => [.TB_FRAME_LEN]
  | .TB_FRAME_COMMIT => [.TB_FRAME_COMMIT_COMMIT, .TB_FRAME_COMMIT_APPLIED_SEQ]
  | .TB_PPS_OUT => [.TB_PPS_OUT_OFFSET, .TB_PPS_OUT_WIDTH]
  | .TB_SYSREF => [.TB_SYSREF_PERIOD, .TB_SYSREF_MODE, .TB_SYSREF_COUNT]
  | .TB_SYSREF_SKEW => [.TB_SYSREF_SKEW_STEPS]
  | .TB_ISLAND_UNLOCK => [.TB_ISLAND_UNLOCK_IS, .TB_ISLAND_UNLOCK_SEQ]
  | .TB_NOW => [.TB_NOW_TIME]
  | .LIFE_STATUS => [.LIFE_STATUS_LEDGER_OK, .LIFE_STATUS_REFRESH_DUE, .LIFE_STATUS_REFRESHING,
      .LIFE_STATUS_LEDGER_NEW]
  | .LIFE_HOURS => [.LIFE_HOURS_COUNT]
  | .LIFE_SCREEN_HOURS => [.LIFE_SCREEN_HOURS_COUNT]
  | .LIFE_CONSUMED => [.LIFE_CONSUMED_FRACTION]
  | .LIFE_AVG => [.LIFE_AVG_TJ, .LIFE_AVG_POWER]
  | .LIFE_SHUTDOWNS => [.LIFE_SHUTDOWNS_COUNT]
  | .LIFE_ENTRIES => [.LIFE_ENTRIES_COUNT]
  | .LIFE_REFRESH_LAST => [.LIFE_REFRESH_LAST_SEC]
  | .LIFE_REFRESH_NEXT => [.LIFE_REFRESH_NEXT_SEC]
  | .LIFE_RO => [.LIFE_RO_FREQ, .LIFE_RO_DRIFT]
  | .LIFE_SCRUB_CE => [.LIFE_SCRUB_CE_COUNT]
  | .LIFE_SCRUB_UE => [.LIFE_SCRUB_UE_COUNT]
  | .LIFE_ROWS_REPAIRED => [.LIFE_ROWS_REPAIRED_COUNT]
  | .LIFE_SCRUB_PASSES => [.LIFE_SCRUB_PASSES_COUNT]
  | .LIFE_UNIT_CMD => [.LIFE_UNIT_CMD_KIND, .LIFE_UNIT_CMD_INDEX, .LIFE_UNIT_CMD_RETIRE, .LIFE_UNIT_CMD_RETURN]
  | .LIFE_ENG_RETIRED => [.LIFE_ENG_RETIRED_BITS]
  | .LIFE_PCH_RETIRED => [.LIFE_PCH_RETIRED_BITS]
  | .LIFE_SLU_RETIRED => [.LIFE_SLU_RETIRED_BITS]
  | .LIFE_CMD => [.LIFE_CMD_REFRESH, .LIFE_CMD_LEDGER_SYNC]
  | .LIFE_EVENT => [.LIFE_EVENT_AGEING, .LIFE_EVENT_SCRUB_UE, .LIFE_EVENT_REFRESH_DONE, .LIFE_EVENT_REFRESH_FAIL,
      .LIFE_EVENT_LEDGER_FAIL, .LIFE_EVENT_UNIT_DONE, .LIFE_EVENT_SEQ]
  | .LNK_TRAIN => [.LNK_TRAIN_PLACES, .LNK_TRAIN_QUEUED]
  | .VD_EVENT => [.VD_EVENT_DROP, .VD_EVENT_SEQ]
  | .TRIP_LINES => [.TRIP_LINES_STATE]

/-- The registers of each block. -/
def Blk.regs : Blk → List Reg
  | .DEV => [.DEV_ID, .DEV_VENDOR, .DEV_STATE, .DEV_TIDEGATE, .DEV_CMD, .DEV_EVENT, .DEV_BUSERR, .DEV_BUSERR_ADDR,
      .DEV_BUSERR_COUNT, .DEV_IRQ_STATUS, .DEV_IRQ_ENABLE, .DEV_HARVEST, .DEV_HARVEST_TIME]
  | .PWR => [.PWR_CFG, .PWR_LIMIT, .PWR_GUARD, .PWR_THERM, .PWR_STATUS, .PWR_BUDGET, .PWR_LOAD, .PWR_QUEUE,
      .PWR_SHED, .PWR_EVENT, .PWR_TICK, .PWR_BACKLOG, .PWR_TEMP, .PWR_ISLAND, .PWR_COST, .PWR_RAIL, .PWR_CMD]
  | .HVS => [.HVS_CFG, .HVS_STATUS, .HVS_VIN, .HVS_IIN, .HVS_PIN, .HVS_ENERGY, .HVS_PEAK, .HVS_EVENT, .HVS_TRIPS,
      .HVS_CMD]
  | .BOOT => [.BOOT_PHASE, .BOOT_STATUS, .BOOT_GEN_A, .BOOT_GEN_B, .BOOT_FAIL, .BOOT_FLASH, .BOOT_CFG, .BOOT_CMD,
      .BOOT_EVENT, .BOOT_MARK, .BOOT_KEYHASH]
  | .TB => [.TB_REF_CFG, .TB_STATUS, .TB_PPS_CFG, .TB_PPS_DELAY, .TB_PPS_OFFSET, .TB_PPS_EXTRA, .TB_HOLD_PHASE,
      .TB_REF_OUT_PHASE, .TB_SEC_SET, .TB_CMD, .TB_LEAP, .TB_FRAME, .TB_FRAME_COMMIT, .TB_PPS_OUT, .TB_SYSREF,
      .TB_SYSREF_SKEW, .TB_ISLAND_UNLOCK, .TB_NOW]
  | .LIFE => [.LIFE_STATUS, .LIFE_HOURS, .LIFE_SCREEN_HOURS, .LIFE_CONSUMED, .LIFE_AVG, .LIFE_SHUTDOWNS,
      .LIFE_ENTRIES, .LIFE_REFRESH_LAST, .LIFE_REFRESH_NEXT, .LIFE_RO, .LIFE_SCRUB_CE, .LIFE_SCRUB_UE,
      .LIFE_ROWS_REPAIRED, .LIFE_SCRUB_PASSES, .LIFE_UNIT_CMD, .LIFE_ENG_RETIRED, .LIFE_PCH_RETIRED,
      .LIFE_SLU_RETIRED, .LIFE_CMD, .LIFE_EVENT]
  | .TCH => [.TCH_INPUT, .TCH_THRESH, .TCH_FE_COMMIT, .TCH_FE_STATUS, .TCH_WIN_LIMIT, .TCH_WIN_CFG, .TCH_WIN_CTL,
      .TCH_WIN_STATUS, .TCH_WIN_EVENT, .TCH_WIN_COUNT, .TCH_OVR_COUNT, .TCH_RUNT, .TCH_INDELAY, .TCH_ARM,
      .TCH_BE_CFG, .TCH_STORE, .TCH_BE_STATUS, .TCH_BE_EVENT, .TCH_BE_CMD, .TCH_CAL_STATUS, .TCH_CAL_DRIFT,
      .TCH_CAL_HITS, .TCH_EDGES, .TCH_LOST, .TCH_SUPPRESSED, .TCH_OVF_COUNT, .TCH_SPARE_CFG]
  | .WCH => [.WCH_SOURCE, .WCH_JESD, .WCH_CV_LAT, .WCH_INDELAY, .WCH_ARM, .WCH_GAIN, .WCH_FILT, .WCH_NOTCH,
      .WCH_XTHRESH, .WCH_COMMIT, .WCH_WIN_CFG, .WCH_WIN_START, .WCH_WIN_LEN, .WCH_WIN_PERIOD, .WCH_WIN_DELAY,
      .WCH_STATUS, .WCH_EVENT, .WCH_SLOT_STATUS, .WCH_CORR_OFS, .WCH_CORR_GAIN, .WCH_CORR_SKEW, .WCH_CROSSINGS,
      .WCH_LOST, .WCH_SUPPRESSED, .WCH_OVF_COUNT, .WCH_WIN_COUNT, .WCH_WIN_MISSED, .WCH_PREEMPT, .WCH_CRC_ERR]
  | .MC => [.MC_CFG, .MC_SRC, .MC_CTL, .MC_STATUS, .MC_RESULT, .MC_GATE_END, .MC_VALID, .MC_COUNT, .MC_RING_BASE,
      .MC_RING_WR, .MC_RING_RD, .MC_RING_LOST, .MC_EVENT, .MC_STAB_FREE, .MC_DROPS, .MC_ENG_STATUS, .MC_ENG_DROPS]
  | .AQ => [.AQ_CFG, .AQ_ARM, .AQ_CMD, .AQ_STATUS, .AQ_EVENT, .AQ_PANS, .AQ_PRE, .AQ_HOLDOFF, .AQ_POST, .AQ_AUTO,
      .AQ_STREAM, .AQ_LAST_T, .AQ_CAPTURES, .AQ_IGNORED, .AQ_STOPS, .AQ_SRC, .AQ_TRG_CTL, .AQ_TRG_LO, .AQ_TRG_HI,
      .AQ_TRG_MASK]
  | .CRY => [.CRY_CFG, .CRY_CTL, .CRY_CMD, .CRY_STATUS, .CRY_EVENT, .CRY_DROPS, .CRY_EXCLUDED, .CRY_H_CFG,
      .CRY_H_ORIGIN, .CRY_H_UNDER, .CRY_H_OVER, .CRY_H_TOTAL, .CRY_H_STATUS, .CRY_MAP_CFG, .CRY_MAP_OFFSET,
      .CRY_MAP_ROW, .CRY_MAP_SWEEPS, .CRY_MAP_SKIPPED, .CRY_MAP_CLIP, .CRY_MAP_STATUS, .MSK_CFG, .MSK_STATUS,
      .MSK_EVENT, .MSK_PASS, .MSK_FAIL, .MSK_DISCARDED, .MSK_ENT_CFG, .MSK_ENT_LO, .MSK_ENT_HI, .MSK_ENT_SPAN]
  | .PAN => [.PAN_BASE, .PAN_LEN, .PAN_STATUS, .PAN_HDR]
  | .VD => [.VD_CFG, .VD_SRC, .VD_LO, .VD_HI, .VD_STATUS, .VD_SENT, .VD_DROPS, .VD_EVENT]
  | .SLU => [.SLU_CFG, .SLU_ENGINE_CFG, .SLU_CTL, .SLU_ENGINE_CTL, .SLU_STATUS, .SLU_ENGINE_STATUS, .SLU_EVENT,
      .SLU_ENGINE_EVENT, .SLU_SRC, .SLU_HALT_ADDR, .SLU_DST, .SLU_HALT_CAUSE, .SLU_COUNT, .SLU_HALTS, .SLU_COMMIT,
      .SLU_LIST, .SLU_DONE, .SLU_CREDIT, .SLU_DESC]
  | .LNK => [.LNK_QUAD_CFG, .LNK_LANE_CFG, .LNK_QUAD_CTL, .LNK_LANE_CTL, .LNK_QUAD_STATUS, .LNK_LANE_CMD,
      .LNK_LANE_STATUS, .LNK_LANE_EVENT, .LNK_LANE_PRESET, .LNK_LANE_TAPS, .LNK_LANE_DFE, .LNK_LANE_EYE,
      .LNK_LANE_RETRAINS, .LNK_LANE_SHERR, .LNK_LANE_GUARD, .LNK_LINK_CFG, .LNK_LINK_CTL, .LNK_LINK_STATUS,
      .LNK_LINK_EVENT, .LNK_LINK_PKTS, .LNK_LINK_BUSY, .LNK_LINK_PKT_ERR, .LNK_LINK_CHK_ERR, .LNK_LINK_LOST_BLOCKS,
      .LNK_LINK_BIP_ERR, .LNK_LINK_UNKNOWN, .LNK_LINK_TRIGGERS, .LNK_LINK_VERDICTS, .LNK_TRAIN]
  | .MRK => [.MRK_CFG, .MRK_CTL, .MRK_STATUS, .MRK_EVENT, .MRK_START, .MRK_FINE, .MRK_WIDTH, .MRK_PERIOD,
      .MRK_BURST, .MRK_TRIPSEL, .MRK_FIRED, .MRK_SUPPRESSED, .MRK_MISSED, .MRK_TRUNCATED, .TRIP_CFG, .TRIP_SEL,
      .TRIP_STATUS, .TRIP_EVENT, .TRIP_COUNT, .TRIP_LINES]

/-- Every block. -/
def Blk.all : List Blk :=
  [.DEV, .PWR, .HVS, .BOOT, .TB, .LIFE, .TCH, .WCH, .MC, .AQ, .CRY, .PAN, .VD, .SLU, .LNK, .MRK]

end Sys2Proof.Machine
end

