-- ==== Sys2Proof/Machine/State.lean ====
section
/-!
DEFINITION. The state of the block as plain data: every register field of the register tables, and the machinery the
chapters describe behind them, group by group, with its value right after reset. Instants are counted in q
(3,125 q = 1 tick); times on the time word's scale are whole ticks, kept unwrapped as integers (R58).
-/

namespace Sys2Proof.Machine

/-- Why a command has no meaning at all. -/
inductive Refusal where
  /-- Raised by `exec` for a command whose meaning is not written. Safe: the machine stops. -/
  | notModelled (mnemonic : String)
  deriving DecidableEq, Repr

/-- Why the machine stops on a command. -/
inductive Fault where
  /-- Raised by every command that names a unit outside its range (R27): there is no such unit. Safe. -/
  | noSuchUnit
  deriving DecidableEq, Repr

/-- The device states, in the order of R28. -/
inductive DevState where
  | off | aux | boot | run | test | recovery | hold
  deriving DecidableEq, Repr

/-- What a port reports of its last transaction (R401, R404, R385). -/
structure Resp where
  data   : List Nat := []
  status : Nat := 0
  err    : Nat := 0
  done   : Nat := 0
  flags  : Nat := 0
  deriving DecidableEq, Repr

/-- One port (R397): its tide gate (R414); its pair latches (R409), by the address of the low word; and the register fields that it
has written or commanded in the management cycle of its last accepted write (R420). -/
structure Port where
  gate : Bool := false
  rd   : Option (Nat × Nat) := none
  wr   : Option (Nat × Nat) := none
  resp : Resp := {}
  wroteAt : Nat := 0
  wrote   : List Nat := []
  deriving DecidableEq, Repr

/-! ## The record stream -/

/-- The fields of an edge record (R166). -/
structure EdgeRec where
  src   : Nat
  pol   : Bool
  cal   : Nat
  nbr   : Bool
  ths   : Bool
  est   : Bool
  ovr   : Bool
  alt   : Bool
  seq   : Nat
  delta : Nat
  deriving DecidableEq, Repr

/-- One item of the record stream (R165, R168). -/
inductive Item where
  | edge (e : EdgeRec)
  | anchor (src seq reason time : Nat)
  | overflow (src seq cause lost : Nat)
  | rejoin (src seq unit slot returns : Nat)
  | settle (src seq change suppressed : Nat)
  | header (words : List Nat)
  | violation (words : List Nat)
  | pad
  deriving DecidableEq, Repr

/-- An item with what the block knows of it: whether it is a word of the stream (an edge that R176 or R177 keeps out of
the stream still passes to the engines in its place), its time in ticks, and whether it went through the edge tap. -/
structure Entry where
  item   : Item
  stored : Bool := true
  time   : Int
  tapped : Bool := false
  deriving DecidableEq, Repr

/-- An overflow episode (R157, R158): its causes in the order RAIL, UNLOCK, BACKEND, INGEST, BUFFER (0-4) that are in
progress and that have taken part, the edges counted, and whether a part was not counted; `start` is its beginning
and `outside` counts edges that the back-end did not form, until the front-end's counter is read (R62, R185). -/
structure Episode where
  start     : Int := 0
  active    : List Nat
  causes    : List Nat
  count     : Nat := 0
  outside   : Nat := 0
  uncounted : Bool := false
  deriving DecidableEq, Repr

/-- What change-only storage keeps of one polarity (R177). -/
structure PolState where
  written : Nat := 0
  last    : Int := 0
  step    : Int := 0
  pred    : Int := 0
  deriving DecidableEq, Repr

/-- The edge counts of a source behind R222: per polarity, the number of the run, whether the base is known, and the
polarity of the last edge formed. -/
structure EdgeIndex where
  rise  : Nat := 0
  fall  : Nat := 0
  run   : Nat := 0
  known : Bool := true
  last  : Bool := false
  deriving DecidableEq, Repr

/-- One edge waiting in an edge tap (R304). -/
structure TapEdge where
  pol   : Bool
  time  : Int
  fe    : Bool
  cal   : Nat
  est   : Bool
  brk   : Bool
  deriving DecidableEq, Repr

/-- What falls due in the stream of a source at a time of its recorded scale (R470): an anchor of a REASON, a REJOIN or
SETTLE marker, the end of a cause of an episode, a stop. -/
inductive DueWord where
  | anchor (reason : Nat)
  | marker (i : Item)
  | ends (cause : Nat)
  | stop
  deriving DecidableEq, Repr

/-- A control word that is to stand before the first edge at or after a time (R470, R174). -/
structure Due where
  at_  : Int
  word : DueWord
  deriving DecidableEq, Repr

/-- One source of records (R166): its place in the stream (R167, R172), the buffer of the back-end in service and the words
that an earlier back-end has left (R155), the control words that are due, the words of a stop that wait for room (R471),
for a waveform source the time up to which its crossings have been formed, its episode, its tap, and what has reached the
fabric; last, the time at which the buffer became empty, while it is, and the last coarse boundary at which it has been seen
empty since (R263). -/
structure Source where
  taking  : Bool := false
  start   : Int := 0
  seq     : Nat := 0
  gov     : Int := 0
  based   : Bool := false
  lastAt  : Int := 0
  buf     : List Entry := []
  old     : List Entry := []
  due     : List Due := []
  owed    : List Entry := []
  sure    : Int := 0
  ovf     : Option Episode := none
  rise    : PolState := {}
  fall    : PolState := {}
  dropped : Nat := 0
  lastCal : Option Nat := none
  idx     : EdgeIndex := {}
  fab     : EdgeIndex := {}
  tap     : List TapEdge := []
  tapBrk  : Bool := false
  fabTime : Int := 0
  fabQual : Nat := 0
  fabBased : Bool := false
  fabSeq  : Nat := 0
  fabLast : Int := 0
  gaps    : List (Int × Int) := []
  emptied : Option Int := none
  emptyAt : Int := 0
  deriving DecidableEq, Repr

/-- One back-end: the hits of the round by interpolator and bin (key 2,048 i + bin), the live and the stored tables as
the hits they were built from, and the instants at which its interpolators are free (R154, R159-R162). -/
structure BackEnd where
  hits    : SMap Nat := []
  live    : Option (SMap Nat) := none
  stored  : Option (SMap Nat) := none
  cal     : Nat := 2
  fails   : Nat := 0
  gen     : Nat := 0
  drift   : Nat := 0
  free    : List Nat := [0, 0, 0, 0]
  lastHit : List Nat := [0, 0, 0, 0]
  powered : Bool := true
  fault   : Option Nat := none
  aged    : Bool := false
  deriving DecidableEq, Repr

/-- A window monitor (R140-R146): the last samples, newest first, the filter output, the latch, whether it waits for its
island, and the time on the recorded scale at which it became active. -/
structure WinMon where
  active : Bool := false
  hist   : List Bool := []
  out    : Bool := false
  latch  : Bool := false
  wait   : Bool := false
  since  : Int := 0
  deriving DecidableEq, Repr

/-- One timing channel: its arm; its comparator (R130) with the instant of the edge delivered last (R136); a COMMIT, and the
application instants of the last changes of the threshold and of the limits (R132-R134, R143); its overdrives, with the
beginning of the episode (R137-R139); its monitor; and the substitution of its back-end, with the time of the last
change-over on the recorded scale (R182, R183; `sub` is TCH_BE_STATUS.SUB). -/
structure Chan where
  pend    : Bool := false
  armed   : Bool := false
  startAt : Option Nat := none
  level   : Bool := false
  known   : Bool := false
  edgeAt  : Option Nat := none
  commit  : Option Nat := none
  thsFrom : Option Nat := none
  limAt   : Option Nat := none
  above   : Bool := false
  ovrAt   : Nat := 0
  cls     : Nat := 0
  ownEnd  : Nat := 0
  nbrEnd  : Nat := 0
  win     : WinMon := {}
  sub     : Nat := 0
  subAt   : Nat := 0
  subNow  : Bool := false
  returns : Nat := 0
  subDue  : Option Nat := none
  back    : Option Nat := none
  chgAt   : Option Int := none
  deriving DecidableEq, Repr

/-! ## Waveform channels -/

/-- A window of a waveform channel (R211-R215): its opening, the opening first requested, its close if that is fixed,
whether it restarts after a preemption, whether the stream has reached its opening, whether its close has fallen due, how
it ended (0 by its length, 1 preempted, 2 by a disarm), and the crossings suppressed since its last settle. -/
structure Window where
  opened    : Int
  requested : Int
  closes    : Option Int
  restart   : Bool := false
  begun     : Bool := false
  shut      : Bool := false
  how       : Nat := 0
  hidden    : Nat := 0
  deriving DecidableEq, Repr

/-- The stages and levels that a chain applies from an instant on (R201), for a channel, with the settle they cause. -/
structure WaveSet where
  at_    : Int := 0
  chan   : Nat := 0
  gain   : Nat := 4096
  order  : Nat := 0
  fc     : Nat := 15
  notch  : Bool := false
  f      : Nat := 0
  level  : Int := 0
  hyst   : Nat := 16
  change : Nat := 0
  len    : Nat := 0
  deriving DecidableEq, Repr

/-- One processed sample of a chain: its value in 1/8 code; its instant of R192 less the group delay of the stages that
made it (R200), in q; what R201-R208 say of it (bits: 0 invalid, 1 CONV, 2 not used, 3 saturated, 4 usable for the owner's
window, 5 for the borrower's, 6 the first valid one of a settle, 7 the first one after an outage); and the channel whose
stages and levels apply to it. -/
structure Samp where
  x     : Int := 0
  at_   : Int := 0
  mark  : Nat := 0
  chan  : Nat := 0
  level : Int := 0
  hyst  : Nat := 0
  deriving DecidableEq, Repr

/-- One waveform channel and the chain of its number (chapter 7). The channel: its arm, its windows that the stream has
not left, oldest first, the numbers of its openings, a window that waits for its restart, and its detector. The chain: the
stages in force and to come, the invalid and CONV samples left, whether an outage has interrupted it, the multiblocks not
used, the interleave estimates with the corrected samples that they use, the recent converter codes, the histories of the
stages, which inputs were at full scale or saturated before the filter and which before the notch (R208), and the processed
samples, newest first. -/
structure Wave where
  pend     : Bool := false
  armed    : Bool := false
  admitAt  : Nat := 0
  startAt  : Option Nat := none
  commit   : Option Nat := none
  wins     : List Window := []
  nextJ    : Nat := 0
  due      : List Int := []
  waiting  : Option Window := none
  level    : Bool := false
  known    : Bool := false
  fresh    : Bool := false
  preAt    : List Int := []
  set      : WaveSet := {}
  sets     : List WaveSet := []
  invalid  : Nat := 0
  settling : Bool := false
  change   : Nat := 0
  changeLen : Nat := 0
  conv     : Nat := 0
  convOn   : Bool := false
  outage   : Bool := false
  badIn    : List (Nat × Nat) := []
  corr     : Int × Int × Int := (0, 0, 0)
  kept     : Option (Int × Int × Int) := none
  held     : Bool := false
  last     : Int × Int := (0, 0)
  raw      : List Int := []
  codes    : List Int := []
  full     : List Bool := []
  midFull  : List Bool := []
  pre      : List Int := []
  mid      : List Int := []
  x        : List Samp := []
  deriving DecidableEq, Repr

/-- One converter slot (R191): its state, the margins of the last second that no later one undercuts (instant and octets),
the recent CRC mismatches, and an ingest fault not restored. -/
structure Slot where
  state  : Nat := 0
  margins : List (Nat × Nat) := []
  bad    : List Nat := []
  failed : Bool := false
  deriving DecidableEq, Repr

/-! ## Measurement contexts -/

/-- One edge as a context keeps it: its timestamp, its index (after the prescaler) and run (R222, R238), its polarity,
and the flags of R231 that it brings to a gate that uses it. -/
structure CEdge where
  time : Int
  idx  : Nat
  run  : Nat
  pol  : Bool
  fl   : Nat := 0
  deriving DecidableEq, Repr

/-- What an engine is given (R222, R228): an edge in the role of one or more of the sources (bits A = 1, B = 2, G = 4),
an anchor with the flags of R231 that it brings and whether it closes a preempted window (R216), an overflow mark with the lost
edges of the two polarities, a SETTLE marker. -/
inductive Upd where
  | edge (roles : Nat) (e : CEdge) (est : Bool)
  | anchor (roles reason : Nat) (time : Int) (fl : Nat) (pre : Bool)
  | mark (roles : Nat) (time : Int) (rise fall : Nat)
  | settle (roles : Nat) (time : Int)
  deriving DecidableEq, Repr

/-- A gate (R224): its open, its scheduled close, the selected gate edges since it opened, its actual close, the code
that an event has given it (R230), and whether it carries MOVED. -/
structure Gate where
  opened : Int
  closes : Option Int
  edges  : Nat := 0
  shut   : Int := 0
  code   : Nat := 0
  moved  : Bool := false
  deriving DecidableEq, Repr

/-- What a gate that overlaps an interval of time takes over: flags (R231), updates dropped, edges lost (R235), and that
a source was taking edges. -/
structure Note where
  from_  : Int
  til     : Int
  flags  : Nat := 0
  missed : Nat := 0
  lost   : Nat := 0
  took   : Bool := false
  deriving DecidableEq, Repr

/-- The phase unwrap of a context (R237, R238): the runs its offset belongs to, the offset, and the last phase formed
(its time, and the phase as a fraction). -/
structure Unwrap where
  runA : Nat
  runB : Nat
  off  : Int
  time : Int
  num  : Int
  den  : Nat
  deriving DecidableEq, Repr

/-- The slope of the phase over the last VALID gate, in cycles per tick, and its T_ref (R238). -/
structure Slope where
  num  : Int
  den  : Nat
  tnum : Nat
  tden : Nat
  deriving DecidableEq, Repr

/-- One measurement context (R219): its arm, its open gate, the gates closed and not yet published, oldest first, the
earlier frames of a sliding gate, the selected edges of A and B that gates can still need with the breaks of the two
sources (R229), what its gates take over, the gates closed since arm, the edges counted since arm that are no longer
listed, the last raw index and the run of each source, the time of an overflow mark that no anchor has followed yet by the
roles of its source, the phase unwrap, the slope of the
last VALID gate, its stability slot, the engine that serves it when that is not its home, and a move that waits for a
gate close or is under way (R247). -/
structure Ctx where
  pend    : Bool := false
  armed   : Bool := false
  admitAt : Nat := 0
  waits   : Bool := false
  gate    : Option Gate := none
  closed  : List Gate := []
  frames  : List Int := []
  seq     : Nat := 0
  total   : Nat := 0
  as_     : List CEdge := []
  bs      : List CEdge := []
  brkA    : List Int := []
  brkB    : List Int := []
  notes   : List Note := []
  rawA    : Option (Nat × Nat) := none
  rawB    : Option (Nat × Nat) := none
  runA    : Nat := 0
  runB    : Nat := 0
  ovfs    : List (Nat × Int) := []
  phase   : Option Unwrap := none
  phiOpen : Option (Int × Int × Nat) := none
  slope   : Option Slope := none
  slot    : Option Nat := none
  engine  : Option Nat := none
  move    : Option Nat := none
  moving  : Bool := false
  deriving DecidableEq, Repr

/-- One octave of a stability accumulator (R240, R241): the two rings, newest first, the sums and the counts. -/
structure Octave where
  xr : List Int := []
  sr : List Int := []
  sa : Nat := 0
  na : Nat := 0
  sm : Nat := 0
  nm : Nat := 0
  deriving DecidableEq, Repr

/-- One stability accumulator, held by a context (R239-R241). -/
structure Stab where
  owner   : Option Nat := none
  tau     : Nat := 0
  samples : Nat := 0
  last    : Nat := 0
  flags   : Nat := 0
  sum     : Int := 0
  i       : Nat := 0
  octaves : List Octave := []
  deriving DecidableEq, Repr

/-- One engine (R246, R247): its queue, oldest first, the updates of the frame so far, and those of the last frame. -/
structure Engine where
  queue   : List (Nat × Upd) := []
  applied : Nat := 0
  load    : Nat := 0
  deriving DecidableEq, Repr

/-! ## Captures -/

/-- What a trigger condition keeps (R259): the selected edges since fill start, the last edge of each masked source by
entry, the A edge that waits for its B edge, and the B edges that came ahead of an A edge. -/
structure CondState where
  count : Nat := 0
  seen  : List (Nat × Int) := []
  a     : Option Int := none
  bs    : List Int := []
  deriving DecidableEq, Repr

/-- The trigger of a capture (R262): its cause, the conditions met, T with its QUAL, the trigger word, the
instant of the decision, the flag FORCED, and what AQ_LAST_T held before it. -/
structure Trig where
  cause  : Nat
  met    : Nat
  time   : Int
  qual   : Nat
  word   : Nat
  at_    : Nat := 0
  forced : Bool := false
  before : Nat := 0
  deriving DecidableEq, Repr

/-- What a unit keeps of each source (R266, R274): the governing time before the oldest word kept, the SEQ expected
there, and the time of the last word stored (R263). -/
structure AqSrc where
  base   : Int := 0
  qual   : Nat := 0
  based  : Bool := false
  expect : Nat := 0
  seen   : Option Int := none
  deriving DecidableEq, Repr

/-- One acquisition unit (chapter 9). `state` is AQ_STATUS.STATE. `queued` counts the words in its write queue that wait for a
grant, `own` those of a guard unit that come from the survey share, `closing` that a closing item is to be finished (R269),
and `drops` lists the items dropped for want of room, by word and source (R270). Words of the capture are numbered from fill start;
`kept` lists the items that may still be in it, oldest first, each with its first word. `head` is the length of the OPEN
header, `handed` and `drained` are the words handed to Sluice and read by it, `last` the extent in time of the capture
closed last (R286), and `viol` a violation whose catch-up is under way: its instant and marker (R301). -/
structure Acq where
  state   : Nat := 0
  pend    : Bool := false
  armed   : Bool := false
  guard   : Bool := false
  pan     : Nat := 0
  used    : Bool := false
  capSeq  : Nat := 0
  fillAt  : Int := 0
  began   : Bool := false
  head    : Nat := 0
  stored  : Nat := 0
  kept    : List (Nat × Item) := []
  srcs    : SMap AqSrc := []
  trig    : Option Trig := none
  readyAt : Nat := 0
  holdEnd : Option Int := none
  conds   : SMap CondState := []
  lastSrc : Option Nat := none
  handed  : Nat := 0
  drained : Nat := 0
  last    : Option (Int × Int) := none
  viol    : Option (Int × List Nat) := none
  ignAt   : Option Nat := none
  queued  : Nat := 0
  own     : Nat := 0
  closing : Bool := false
  drops   : List (Nat × Nat) := []
  deriving DecidableEq, Repr

/-- The grants of 64 B into memory (R269): how many the survey share and the reserve have passed, and the unit that each
serves next. -/
structure Share where
  survey  : Nat := 0
  reserve : Nat := 0
  turn    : Nat := 0
  turnG   : Nat := 0
  deriving DecidableEq, Repr

/-- One pan (R254): its state, and the instant at which its capture closed. -/
structure Pan where
  state  : Nat := 0
  closed : Nat := 0
  deriving DecidableEq, Repr

/-- An edge that a histogram uses (R284, R286). -/
structure HEdge where
  time : Int
  fe   : Bool := false
  cv   : Bool := false
  deriving DecidableEq, Repr

/-- What a histogram keeps of its sources (R284): the A edge that waits for its partner, the A edges that wait for the next B
edge, and the last B edges: those that came ahead of an A edge. -/
structure HistState where
  a    : Option HEdge := none
  wait : List HEdge := []
  bs   : List HEdge := []
  deriving DecidableEq, Repr

/-- One crystalliser (R283-R293): what it holds, its granules and staging granules, whether it is frozen or freezes at
the end of the sweep, the ends of a clear and of a merge, a clear that waits for the merge, its histograms with the values in
its input queue at a fabric cycle (R287), the starts of sweeps whose references have been decided, the sweep
in progress (the instant of its first column and the number of its samples so far), and the time of the last sample of the one
before. -/
structure Cry where
  kind     : Nat := 0
  nhist    : Nat := 0
  granules : List Nat := []
  staging  : List Nat := []
  frozen   : Bool := false
  freezes  : Bool := false
  clearEnd : Option Nat := none
  clearReq : Bool := false
  mergeEnd : Option Nat := none
  hists    : SMap HistState := []
  queue    : Nat := 0
  queueAt  : Nat := 0
  starts   : List Int := []
  sweep    : Option (Int × Nat) := none
  swept    : Option Int := none
  deriving DecidableEq, Repr

/-- One entry of an open instance (R297): its counts, its outcome once decided, and the deciding event. -/
structure MaskEntry where
  early   : Nat := 0
  inside  : Nat := 0
  late    : Nat := 0
  outcome : Option Nat := none
  event   : Option Int := none
  deriving DecidableEq, Repr

/-- One open instance of a mask (R295-R302). -/
structure Instance where
  ref     : Int
  number  : Nat
  entries : List MaskEntry
  fe      : Bool := false
  cal     : Bool := false
  late    : Bool := false
  deriving DecidableEq, Repr

/-- An event of a mask (R296): an edge of a source or an assertion of a monitor, its polarity and time, and its flags FE, CAL
and TAP_LATE. -/
structure MaskEvent where
  trip : Bool
  src  : Nat
  pol  : Bool
  time : Int
  fe   : Bool
  cal  : Bool
  late : Bool
  deriving DecidableEq, Repr

/-- One mask unit: its open instances, oldest first, the instances opened since arm, and the events that a reference still to
come can count. -/
structure Mask where
  instances : List Instance := []
  opened    : Nat := 0
  events    : List MaskEvent := []
  deriving DecidableEq, Repr

/-- A target edge that a rule keeps (R306): its time, the instant of its arrival, and its DETAIL. -/
structure KeptEdge where
  time   : Int
  came   : Nat
  detail : Nat
  deriving DecidableEq, Repr

/-- One verdict rule (R305, R306): the reference of its open window or the A edge of its pair, whether that has met a
break, the target edges kept ahead of a reference, and the verdicts decided since it was enabled. -/
structure Rule where
  window : Option Int := none
  lost   : Bool := false
  kept   : List KeptEdge := []
  seq    : Nat := 0
  deriving DecidableEq, Repr

/-! ## Markers, Sluice, lanes and links -/

/-- One marker output (R314-R321): the next firing of its pattern, the pulse in progress, its latch, and whether the next firing
is the last one, since it falls in the cycle of the disarm. -/
structure Marker where
  armed  : Bool := false
  armAt  : Int := 0
  next   : Option Nat := none
  high   : Option Int := none
  ball   : Bool := false
  latch  : Bool := false
  lines  : Nat := 0
  tripAt : Option Nat := none
  ending : Bool := false
  last   : Bool := false
  deriving DecidableEq, Repr

/-- One trip output. -/
structure TripOut where
  latch   : Bool := false
  lines   : Nat := 0
  deriving DecidableEq, Repr

/-- A descriptor (R327). -/
structure Desc where
  addr    : Nat
  len     : Nat
  last    : Bool
  jump    : Bool
  irq     : Bool
  half    : Bool
  waitAck : Bool
  link    : Nat
  self    : Nat
  deriving DecidableEq, Repr

/-- A block of a pan handed to a Sluice channel (R267): its address, its bytes and how many of them are left, the unit and
the pan, and whether it is the last of its capture. -/
structure Handed where
  addr : Nat
  len  : Nat
  left : Nat
  unit : Nat
  pan  : Nat
  last : Bool
  deriving DecidableEq, Repr

/-- One Sluice channel. `state` is SLU_STATUS.STATE. Further: the unit that holds it, COUNT at the start and whether HALF
has been set, the address of the next descriptor, a committed list, the descriptor in progress with what is left of it and
whether it has started, the words that a partner has sent and that are not yet
written, the blocks handed over, the source bytes that the transfer itself has overwritten (R333), the last start with whether a
start request gave it, the credits of the AOCLK cycle of the last ones, and the last DISABLE (R343). -/
structure Slu where
  state   : Nat := 0
  held    : Option Nat := none
  goCount : Nat := 0
  half    : Bool := false
  list    : Nat := 0
  commit  : Option Nat := none
  desc    : Option Desc := none
  going   : Bool := false
  ended   : Bool := false
  room    : Nat := 0
  recv    : List Nat := []
  inbox   : List Handed := []
  saved   : List Host.Cell := []
  startAt : Option (Nat × Bool) := none
  credits : Nat × Nat := (0, 0)
  stopAt  : Option Nat := none
  deriving DecidableEq, Repr

/-- The Sluice engine (R339, R340), with the channel that took the last grant of each group (R334). -/
structure SluEngine where
  halted  : Bool := false
  haltAt  : Nat := 0
  turn    : List Nat := [31, 31, 31]
  deriving DecidableEq, Repr

/-- One lane (chapter 13). `state` is LNK_LANE_STATUS.STATE; `cfg` says that LNK_LANE_CFG has been written (R348, log
entry 20). Then the place of an attempt, the starts of its phase and of the attempt, and whether it began at ADAPT; signal
and lock; deskew with the slots missed; the SERVICE bit, its end at the next ALIGN, and an OFFER since the last one; SEEK;
the low measurements; adaptation; the taps and the trained values (CTLE, PRE, MAIN, POST, DFE 1-12); P1, and a P1 of the
partner; a retirement, a return or a disable under way; REJECT; the place in the queue; the instant at which the
partner's blocks began to be lost (R376); and whether a lane rail fault has queued it (R364). -/
structure Lane where
  state   : Nat := 0
  cfg     : Bool := false
  place   : Bool := false
  phaseAt : Nat := 0
  tryAt   : Nat := 0
  eyeTry  : Bool := false
  signal  : Bool := false
  lock    : Bool := false
  deskew  : Bool := false
  miss    : Nat := 0
  service : Bool := false
  leaving : Bool := false
  offered : Bool := false
  seekAt  : Nat := 0
  entered : Nat := 0
  backoff : Nat := 0
  lows    : Nat := 0
  frozen  : Bool := false
  slip    : Nat := 0
  taps    : List Int := []
  trained : List Int := []
  p1      : Bool := false
  muted   : Bool := false
  retire  : Bool := false
  returns : Bool := false
  off     : Bool := false
  reject  : Bool := false
  order   : Nat := 0
  lostAt  : Option Nat := none
  early   : Bool := false
  deriving DecidableEq, Repr

/-- One lane quad: its power state (LNK_QUAD_STATUS.PWR), its PLL, the instant its exit from P2 began, and a fault that is
not restored. -/
structure Quad where
  pwr    : Nat := 2
  pll    : Bool := false
  exitAt : Nat := 0
  failed : Bool := false
  deriving DecidableEq, Repr

/-- A kept response of a link (R387): tag, CRC and words. -/
structure Kept where
  tag   : Nat
  crc   : Nat
  words : List Nat
  deriving DecidableEq, Repr

/-- One Borgor link (chapter 14): a pending LINK_UP task and its admission; the admission of the link; the next ASEQ, and
the ASEQ of the partner with the arrival of its slot; the SERVICE and OFFER masks of both sides; the queued verdicts (the
fabric cycle of the decision and the word); the register packet in progress with its LEN; the stream selected by the partner; the responses kept; the TOTALs
granted and taken by stream, with the instant of the last CREDIT block; the blocks sent other than stream data (the words of
a packet follow its PKT block) and the stream words sent, oldest first; and the stream selected last on transmit. -/
structure Link where
  pend     : Bool := false
  up       : Bool := false
  admitted : Bool := false
  aseq     : Nat := 0
  rxAseq   : Option Nat := none
  rxAt     : Nat := 0
  tx       : Nat := 0
  rx       : Nat := 0
  offer    : Nat := 0
  partner  : Nat := 0
  verdicts : List (Nat × Nat) := []
  packet   : Option (Nat × List Nat) := none
  stream   : Option Nat := none
  kept     : List Kept := []
  given    : SMap Nat := []
  taken    : SMap Nat := []
  repeatAt : SMap Nat := []
  sent     : List Nat := []
  outData  : List (Nat × Nat) := []
  outSel   : Option Nat := none
  deriving DecidableEq, Repr

/-! ## Power, islands and the governor -/

/-- The subjects of governor tasks and costs (R92). -/
inductive Subject where
  | base
  | wake (k cls : Nat)
  | island (k : Nat)
  | chan (n : Nat)
  | wave (n : Nat)
  | ctx (n : Nat)
  | acq (n : Nat)
  | link (b : Nat)
  | lane (l : Nat)
  deriving DecidableEq, Repr

/-- A queued task and the instant of its write. -/
structure Task where
  subj : Subject
  at_  : Nat
  deriving DecidableEq, Repr

/-- A cost held by an admitted subject, in 0.1 mW, and whether it is charged to the guard slice. -/
structure Commit where
  subj  : Subject
  cost  : Nat
  guard : Bool
  deriving DecidableEq, Repr

/-- The governor (R90-R96): the queues, the costs held, the subjects that have stopped since the last tick, the tasks that a
disarm has withdrawn in the present cycle (instant, class, task), and what the ticks have read. -/
structure Gov where
  guardQ  : List Task := []
  sysQ    : List Task := []
  survQ   : List Task := []
  held    : List Commit := []
  ended   : List Task := []
  gone    : List (Nat × Nat × Task) := []
  returns : List Nat := []
  pin     : List Nat := List.replicate 16 0
  bad     : List Nat := List.replicate 24 0
  good    : List Nat := List.replicate 24 0
  valid   : List Bool := List.replicate 24 true
  temps   : List Int := List.replicate 24 0
  costs   : Bool := false
  cool    : Option Nat := none
  railBad : List Nat := List.replicate 10 0
  hourTj  : Int := 0
  hourP   : Nat := 0
  hourN   : Nat := 0
  deriving DecidableEq, Repr

/-- One island (R87). `state` is PWR_ISLAND.STATE for IS0-IS7. Then the lower state it is to enter and whether a fault of a
front-end rail forces it there (R84), the admission of a wake under way, whether its PLL has lost lock, the last instant at which one of the first three rows of R88 held, and whether
its ring oscillator has passed its limit (R433). -/
structure Island where
  state  : Nat := 3
  target : Option Nat := none
  forced : Bool := false
  wakeAt : Option Nat := none
  unlock : Bool := false
  unused : Nat := 0
  onAt   : Nat := 0
  aged   : Bool := false
  deriving DecidableEq, Repr

/-- One regulator, as the PMBus host has programmed and last read it (R82): its address and page, whether it is capable of
packet error checking, the values of ON_OFF_CONFIG, VOUT_COMMAND and the two fault limits, whether OPERATION turns it on, and
STATUS_WORD and READ_IOUT (mA). -/
structure Regulator where
  addr   : Nat := 0
  page   : Nat := 0
  pec    : Bool := false
  onOff  : Nat := 0
  vout   : Nat := 0
  ov     : Nat := 0
  uv     : Nat := 0
  on     : Bool := false
  status : Nat := 0
  iout   : Nat := 0
  deriving DecidableEq, Repr

/-- The power-entry side and the rails (R72-R86): VIN above the undervoltage lockout since an instant, whether it has come
down to 34 V since, the overvoltage, the FET with the instant at which it was turned on, the instant of a trip and its latch-off, BUS_EN, the
heartbeat, the last telemetry frame with the powers of the last ten (µW) and the energy short of 1 mJ (0.1 nJ), the
reference instant and the entry of the boot (R467), the
rails to be enabled with their instants, the rails enabled with theirs, those found in their window since and not in fault,
the regulators, the beginning of an ordered power-down (R86), the
thermal shutdowns and protective entries of the last hour, why the device is in AUX, a REBOOT that waits and the instant of the
last one, and the time from a fault of a front-end rail until both are good again. -/
structure Power where
  vin      : Bool := true
  vinAt    : Nat := 0
  under    : Bool := false
  above     : Bool := false
  fet      : Bool := false
  fetAt    : Nat := 0
  fetOffAt : Option Nat := none
  latched  : Bool := false
  bus      : Bool := false
  beat     : Bool := true
  frameAt  : Option Nat := none
  watts    : List Nat := []
  energy   : Nat := 0
  t0       : Nat := 0
  bootAt   : Nat := 0
  seq      : List (Nat × Nat) := []
  enabled  : List Nat := []
  enabledAt : List Nat := List.replicate 10 0
  good     : List Nat := []
  pmb      : List Regulator := List.replicate 10 {}
  downAt   : Option Nat := none
  heat     : List Nat := []
  prot     : List Nat := []
  thermal  : Bool := false
  protect  : Bool := false
  reboot   : Bool := false
  rebootAt : Option Nat := none
  feDown   : Bool := false
  deriving DecidableEq, Repr

/-- A restoration in progress or a failure declared of a subsystem (R468): the instants of the failure, of the beginning
of the restoration, of what follows its rails and of its success, whether it restores rails, and the consecutive
failures. -/
structure Restore where
  rails    : Bool := false
  declared : Option Nat := none
  began    : Option Nat := none
  second   : Option Nat := none
  ended    : Option Nat := none
  fails    : Nat := 0
  deriving DecidableEq, Repr

/-! ## The configuration image -/

/-- One section table entry (R104). -/
structure SectionHdr where
  typ       : Nat
  mandatory : Bool
  offset    : Nat
  length    : Nat
  crc       : Nat
  digest    : List Byte
  deriving DecidableEq, Repr

/-- One entry of the RAILS body (R110); `vexp` is the negative of VEXP. -/
structure RailsEntry where
  rail   : Nat
  addr   : Nat
  page   : Nat
  pflags : Nat
  vout   : Nat
  ov     : Nat
  uv     : Nat
  onoff  : Nat
  vexp   : Nat
  zero   : Bool
  deriving DecidableEq, Repr

/-- One register entry of a section (R111). -/
structure RegEntry where
  addr    : Nat
  value   : Nat
  mask    : Nat
  op      : Nat
  timeout : Nat
  zero    : Bool
  deriving DecidableEq, Repr

/-- What a restoration applies again (R29, R340): a register entry, or a list block. -/
inductive ImageItem where
  | reg (e : RegEntry)
  | list (addr : Nat) (data : List Byte)
  deriving DecidableEq, Repr

/-- The application of CLOCKS_TIME or COST_TABLE (R114): the entries left, the number of the next one, the end of a DELAY and
the beginning of a POLL in progress. -/
structure AoRun where
  left  : List RegEntry
  entry : Nat := 0
  wait  : Nat := 0
  poll  : Option Nat := none
  deriving DecidableEq, Repr

/-- The boot (chapter 4): the parts of BOOT_PHASE (R120); the two headers as read, START_STATE and the section table of the
chosen slot; the section that a pass has reached, its body in pass 2 with the place and the number of the next entry, and the
flash address read last; whether the chosen slot is the second one tried; CLOCKS_TIME and COST_TABLE
while they are applied, and whether CLOCKS_TIME is in force; whether MARKERS_TRIPS has been
applied, whether the lanes have been started (R118), whether pass 1 has ended, whether SETTLED has been reached, and whether BOOT has ended; the RAILS section; the items
of pass 2 applied without an error, with their section and its type, in image order; the beginning of a POLL in progress, and
the end of a DELAY. -/
structure BootCtl where
  slot     : Nat := 0
  phase    : Nat := 0
  section_ : Nat := 0
  error    : Nat := 0
  progress : Nat := 0
  hdrA     : List Byte := []
  hdrB     : List Byte := []
  start    : Nat := 3
  secs     : List SectionHdr := []
  index    : Nat := 0
  body     : List Byte := []
  place    : Nat := 0
  entry    : Nat := 0
  readAt   : Nat := 0
  second   : Bool := false
  clocks   : Option AoRun := none
  clocksOn : Bool := false
  cost     : Option AoRun := none
  trips    : Bool := false
  lanesOn  : Bool := false
  pass1    : Bool := false
  settled  : Bool := false
  complete : Bool := false
  rails    : List RailsEntry := []
  image    : List (Nat × Nat × ImageItem) := []
  polling  : Option Nat := none
  wait     : Nat := 0
  deriving DecidableEq, Repr

/-! ## The time base -/

/-- The time base (chapter 2). `origin` is the device origin: the tick count at instant `x` is `origin + x / 3125`. Then
the start instant of R51, the time at which the time word started, a starting SEC from a link (R59), the bits of QUAL with
the announced second, the instant from which the conditioner acquires REF_IN and the frequency it has locked to (Hz, 0 before
the first lock), a pending realignment and a pending SEC set with its
boundary, the last second and frame boundaries dealt with, a frame COMMIT, the checks of R54 (whether there are any, the
seconds checked and found missing last, the run of good and of bad pulses), the SYSREF burst and the last boundary of its
pulses, the pulses of PPS_OUT (rise and fall) and the last pulse of SYSREF, REF_OUT, the gap of R63, the last SEC taken from a
link with that link, and the trigger codes of links at the last boundary (R395). -/
structure TimeBase where
  valid    : Bool := false
  origin   : Int := 0
  lockAt   : Option Nat := none
  validAt  : Int := 0
  linkSec  : Option Nat := none
  timeSet  : Bool := false
  refLock  : Bool := false
  aligned  : Bool := false
  holdover : Bool := false
  leap     : Bool := false
  leapSec  : Nat := 0
  acquire  : Option Nat := none
  refHz    : Nat := 0
  realign  : Option Nat := none
  setSec   : Option (Nat × Int) := none
  second   : Int := -1
  frame    : Int := -1
  frameCom : Option Nat := none
  checks   : Bool := false
  ppsSec   : Int := -1
  ppsMiss  : Int := -1
  ppsGood  : Nat := 0
  ppsBad   : Nat := 0
  burst    : Nat := 0
  sysref   : Int := -1
  pulses   : List (Nat × Nat) := []
  sysPulse : Option Nat := none
  halted   : Bool := false
  setBy    : Option (Nat × Nat) := none
  linkTrig : Int × List Nat := (0, [])
  deriving DecidableEq, Repr

/-! ## HBM, service life and the rest -/

/-- One ledger entry waiting to be written (R429): its kind, and for an EVENT its cause and detail. -/
structure LedgerJob where
  kind   : Nat
  cause  : Nat := 0
  detail : Nat := 0
  deriving DecidableEq, Repr

/-- The service functions (chapter 16). Counts of the ledger that registers mirror stand in the registers. Here: the entries
that are due and the failures of the first one; the active half with the slots used and what has been written of other kinds
since the last HOURLY and SERVICE entries; the life consumed, in 2^-40; the instants of the last HOURLY entry by time and of
the last whole hour; the hours that consumed life with the sums of their means (1/8 °C, 0.1 %), each in 1/65,536; the
slots of the flash; the engine and the pseudo-channel being retired (or returned); the retired lanes and the substitutions of
the retired set; the rows corrected in earlier passes and in this one, those repaired softly, and those that no spare row was
left for; the refresh: the instant it fell due, the slot in progress, the failures of the sector, a request; the 64 B units whose
ECC marks them bad (R435); and the last retirement or return of a Sluice channel. -/
structure Life where
  jobs      : List LedgerJob := []
  tries     : Nat := 0
  half      : Nat := 0
  slots     : Nat := 0
  sinceHour : Nat := 0
  sinceServ : Nat := 0
  consumed  : Nat := 0
  hoursAt   : Nat := 0
  wholeAt   : Nat := 0
  lifeHours : Nat := 0
  sumTj     : Int := 0
  sumP      : Nat := 0
  image     : List (Nat × Nat × List Byte) := []
  engBusy   : Option (Nat × Bool) := none
  pchBusy   : Option (Nat × Bool) := none
  retLane   : Nat := 0
  subs      : List Nat := List.replicate 12 255
  patrolBad : List Nat := []
  spent     : List Nat := []
  soft      : List Nat := []
  pass      : List Nat := []
  refDueAt  : Option Nat := none
  refStage  : Nat := 0
  refFails  : Nat := 0
  refWant   : Bool := false
  bad       : List Nat := []
  sluAt     : Option Nat := none
  deriving DecidableEq, Repr

/-- HBM (R117, R124). -/
structure Hbm where
  training : Option Nat := none
  trained  : Bool := false
  deriving DecidableEq, Repr

/-- The Harvest holding bank (R245, R417): what it is being filled with or holds. -/
structure Bank where
  regs  : SMap Nat := []
  stabs : SMap Stab := []
  due   : Option Nat := none
  busy  : Bool := false
  time  : Nat := 0
  qual  : Nat := 0
  next  : SMap Nat := []
  nextStabs : SMap Stab := []
  deriving DecidableEq, Repr

/-- The JTAG port (R404): the data register of REGACC, the access in progress, the selected instruction and the
boundary scan register. -/
structure Jtag where
  instr  : Nat := 0
  op     : Nat := 0
  doneAt : Option Nat := none
  data   : Nat := 0
  status : Nat := 0
  err    : Nat := 0
  dr     : Nat := 0
  bscan  : Nat := 0
  drive  : Bool := false
  deriving DecidableEq, Repr

/-- The whole state. `prev` is the device state before the present one, taken at `devAt`; `pkts` are the register packets that
have no answer yet, by link and the instant of the answer (R123, R398). -/
structure State where
  now     : Nat := 0
  dev     : DevState := .aux
  prev    : DevState := .aux
  devAt   : Nat := 0
  pkts    : List (Nat × Nat) := []
  regs    : SMap Nat := []
  force   : SMap Nat := []
  ports   : SMap Port := []
  seqNo   : Nat := 0
  mem     : List Host.Cell := []
  time    : TimeBase := {}
  power   : Power := {}
  boot    : BootCtl := {}
  gov     : Gov := {}
  islands : SMap Island := []
  restore : SMap Restore := []
  sources : SMap Source := []
  ends    : SMap BackEnd := []
  chans   : SMap Chan := []
  waves   : SMap Wave := []
  slots   : SMap Slot := []
  ctxs    : SMap Ctx := []
  stabs   : SMap Stab := []
  engines : SMap Engine := []
  acqs    : SMap Acq := []
  share   : Share := {}
  pans    : SMap Pan := []
  crys    : SMap Cry := []
  masks   : SMap Mask := []
  rules   : SMap Rule := []
  markers : SMap Marker := []
  trips   : SMap TripOut := []
  slus    : SMap Slu := []
  slu     : SluEngine := {}
  lanes   : SMap Lane := []
  quads   : SMap Quad := []
  links   : SMap Link := []
  life    : Life := {}
  hbm     : Hbm := {}
  bank    : Bank := {}
  jtag    : Jtag := {}
  pending : List Instr := []
  deriving DecidableEq, Repr

/-- The machine right after reset: AUX has just been entered, 8 ms after VIN became valid at instant 0 (R29); every
register field is at its reset value and nothing else has happened (log entry 2). -/
def State.reset : State := { now := 131072000000000 }

end Sys2Proof.Machine
end

