-- ==== Sys2Proof/Machine/Ops.lean ====
section
/-!
DEFINITION. The named operations over the state: instants and time words, register fields (R13), event flags (R410),
counters (R411), the parts of each group, memory, and free values. Every meaning goes through these.
-/

namespace Sys2Proof.Machine

/-! ## Instants -/

/-- One tick, one coarse period, and decimal spans, in q (R8). -/
def qTick : Nat := 3125
def qCoarse : Nat := 6400000
def qNs : Nat := 16384000
def qUs : Nat := 16384000000
def qMs : Nat := 16384000000000
def qSec : Nat := 16384000000000000

/-- Ticks of one 100 ns period and of one second (R58). -/
def tPer : Nat := 524288
def tSec : Nat := 5242880000000

/-- R58: the tick count of a time word. -/
def ticksOf (sec per frac : Nat) : Nat := (sec * 10000000 + per) * 524288 + frac

/-- R58: the parts of the time word of a tick count. -/
def fracOf (t : Int) : Nat := (t % 524288).toNat
def perOf (t : Int) : Nat := (t / 524288 % 10000000).toNat
def secOf (t : Int) : Nat := (t / 524288 / 10000000 % 4294967296).toNat

/-- R56: the 80-bit time word of a tick count, with the quality bits. -/
def wordOf (t : Int) (qual : Nat) : Nat :=
  secOf t * 2 ^ 48 + perOf t * 2 ^ 24 + fracOf t * 2 ^ 5 + qual % 32

/-- Bits [79:16] of a time word: SEC, PER and the coarse part of FRAC. -/
def time64 (t : Int) : Nat := wordOf t 0 / 2 ^ 16

/-- The coarse-period boundary at or after a time (R171). -/
def ceilCoarse (t : Int) : Int := -((-t) / 2048) * 2048

/-- The coarse-period boundary at or before a time. -/
def floorCoarse (t : Int) : Int := t / 2048 * 2048

/-- The result `num / den` of a formula held in an integer field: exact where it is an integer, otherwise one of its two
neighbours (log entry 6). -/
def quot (num den : Nat) : Nat :=
  if den = 0 then 0
  else if num % den = 0 then num / den
  else num / den + b2n (Config.roundsUp num den)

/-- The nearest integer to `num / den`; a tie takes either neighbour (log entry 6). -/
def nearest (num den : Nat) : Nat :=
  if 2 * (num % den) < den then num / den
  else if den < 2 * (num % den) then num / den + 1
  else num / den + b2n (Config.roundsUp num den)

/-- As `quot`, for a signed numerator. -/
def quotI (num : Int) (den : Nat) : Int :=
  if 0 ≤ num then quot num.toNat den else -(quot (-num).toNat den : Int)

/-- The time base counts: the tick count that the conditioner and every island show at an instant. -/
def State.ticksAt (s : State) (x : Nat) : Int := s.time.origin + (x / qTick : Nat)

/-- The instant at which the tick count reaches a time. -/
def State.instOf (s : State) (t : Int) : Nat := (t - s.time.origin).toNat * qTick

/-- QUAL at present (R57). -/
def State.qual (s : State) : Nat :=
  b2n s.time.timeSet + 2 * b2n s.time.refLock + 4 * b2n s.time.aligned + 8 * b2n s.time.holdover + 16 * b2n s.time.leap

/-- A command comes at instant `t` (log entry 1): the present never moves back. -/
def State.at (s : State) (t : Nat) : State := { s with now := max s.now t }

/-- The present tick count. -/
def State.tick (s : State) : Int := s.ticksAt s.now

/-! ## Register fields -/

/-- Whether a field lies in a block of AO (DEV, PWR, HVS, BOOT, TB, LIFE), which keeps power in AUX and HOLD. -/
def Blk.ao : Blk → Bool
  | .DEV | .PWR | .HVS | .BOOT | .TB | .LIFE => true
  | _ => false

/-- The number that a field of an instance has in the register maps. -/
def Fld.key (f : Fld) (i : Nat) : Nat := i * 1024 + f.ctorIdx

/-- The reset value of each field of each instance: the table's number, and the values that differ between instances. -/
def Fld.reset (f : Fld) (i : Nat) : Nat :=
  match f with
  | .PWR_COST_COST => [339000, 3600, 1200, 4500, 12, 45, 3750, 2100].getD i 0
  | .WCH_SOURCE_CHAIN => i % 16
  | _ => f.tableReset

/-- What an unlisted key reads as: the reset value of its field. -/
def regDefault (k : Nat) : Nat := Fld.reset (Fld.ofNat (k % 1024)) (k / 1024)

/-- The field as a host reads it: for an SH field the shadow copy (R406). -/
def State.get (s : State) (f : Fld) (i : Nat := 0) : Nat := SMap.get regDefault s.regs (f.key i)

/-- The SH field in force (R415). -/
def State.inForce (s : State) (f : Fld) (i : Nat := 0) : Nat := SMap.get regDefault s.force (f.key i)

/-- Sets a field, held to its width. -/
def State.put (s : State) (f : Fld) (i : Nat) (v : Nat) : State :=
  { s with regs := SMap.set regDefault s.regs (f.key i) (v % 2 ^ f.desc.w) }

/-- Copies the shadow of an SH field into force (R415). -/
def State.apply (s : State) (f : Fld) (i : Nat) : State :=
  { s with force := SMap.set regDefault s.force (f.key i) (s.get f i) }

/-- Copies the shadows of several SH fields into force. -/
def State.applyAll (s : State) (fs : List Fld) (i : Nat) : State := fs.foldl (fun s f => s.apply f i) s

/-- A one-bit field as a Boolean. -/
def State.flag (s : State) (f : Fld) (i : Nat := 0) : Bool := s.get f i == 1

/-- A field as a signed number. -/
def State.signed (s : State) (f : Fld) (i : Nat := 0) : Int := toSigned f.desc.w (s.get f i)

/-- Adds one to a field, wrapping to 0 (the sequence numbers and the counts whose tables say so). -/
def State.bump (s : State) (f : Fld) (i : Nat := 0) : State := s.put f i (s.get f i + 1)

/-- Adds to a CT field, which saturates (R411). -/
def State.count (s : State) (f : Fld) (i : Nat := 0) (n : Nat := 1) : State :=
  s.put f i (min (s.get f i + n) (2 ^ f.desc.w - 1))

/-- The sequence number of the EV register that holds a flag (R410). -/
def Fld.seqOf (f : Fld) : Fld :=
  ((f.desc.reg.fields.filter fun g => g.desc.lo == 24 && g.desc.w == 8).head?).getD f

/-- R410: sets an event flag; SEQ advances modulo 256 at every setting. -/
def State.raise (s : State) (f : Fld) (i : Nat := 0) : State := (s.put f i 1).bump f.seqOf i

/-- A free value, and the state with the counter of free values advanced (log entry 3). -/
def State.free (s : State) : Nat × State := (Config.freeValue s.seqNo, { s with seqNo := s.seqNo + 1 })

/-! ## Bus errors (R412) -/

def eUnmapped : Nat := 0x01
def eWidth : Nat := 0x02
def eAlign : Nat := 0x03
def eAlias : Nat := 0x04
def eReadOnly : Nat := 0x05
def eStructural : Nat := 0x06
def eKeyed : Nat := 0x07
def eValue : Nat := 0x08
def eState : Nat := 0x09
def eSide : Nat := 0x0A
def ePair : Nat := 0x0B
def eBudget : Nat := 0x0C
def eInProgress : Nat := 0x0D
def eHeld : Nat := 0x0E
def ePacket : Nat := 0xFF

/-- The lowest of the codes that apply (R412). -/
def lowestCode (l : List (Bool × Nat)) : Option Nat :=
  ((l.filter (·.1)).map (·.2)).foldl (fun a c => some (match a with
    | some b => min b c
    | none => c)) none

/-! ## The parts of each group -/

def State.port (s : State) (p : Nat) : Port := SMap.get (fun _ => {}) s.ports p
def State.setPort (s : State) (p : Nat) (v : Port) : State := { s with ports := SMap.set (fun _ => {}) s.ports p v }
def State.src (s : State) (k : Nat) : Source := SMap.get (fun _ => {}) s.sources k
def State.setSrc (s : State) (k : Nat) (v : Source) : State := { s with sources := SMap.set (fun _ => {}) s.sources k v }
def State.be (s : State) (k : Nat) : BackEnd := SMap.get (fun _ => {}) s.ends k
def State.setBe (s : State) (k : Nat) (v : BackEnd) : State := { s with ends := SMap.set (fun _ => {}) s.ends k v }
def State.chan (s : State) (n : Nat) : Chan := SMap.get (fun _ => {}) s.chans n
def State.setChan (s : State) (n : Nat) (v : Chan) : State := { s with chans := SMap.set (fun _ => {}) s.chans n v }
def State.wave (s : State) (n : Nat) : Wave := SMap.get (fun _ => {}) s.waves n
def State.setWave (s : State) (n : Nat) (v : Wave) : State := { s with waves := SMap.set (fun _ => {}) s.waves n v }
def State.slot (s : State) (n : Nat) : Slot := SMap.get (fun _ => {}) s.slots n
def State.setSlot (s : State) (n : Nat) (v : Slot) : State := { s with slots := SMap.set (fun _ => {}) s.slots n v }
def State.ctx (s : State) (n : Nat) : Ctx := SMap.get (fun _ => {}) s.ctxs n
def State.setCtx (s : State) (n : Nat) (v : Ctx) : State := { s with ctxs := SMap.set (fun _ => {}) s.ctxs n v }
def State.stab (s : State) (j : Nat) : Stab := SMap.get (fun _ => {}) s.stabs j
def State.setStab (s : State) (j : Nat) (v : Stab) : State := { s with stabs := SMap.set (fun _ => {}) s.stabs j v }
def State.engine (s : State) (e : Nat) : Engine := SMap.get (fun _ => {}) s.engines e
def State.setEngine (s : State) (e : Nat) (v : Engine) : State :=
  { s with engines := SMap.set (fun _ => {}) s.engines e v }
def State.acq (s : State) (n : Nat) : Acq := SMap.get (fun _ => {}) s.acqs n
def State.setAcq (s : State) (n : Nat) (v : Acq) : State := { s with acqs := SMap.set (fun _ => {}) s.acqs n v }
def State.pan (s : State) (p : Nat) : Pan := SMap.get (fun _ => {}) s.pans p
def State.setPan (s : State) (p : Nat) (v : Pan) : State := { s with pans := SMap.set (fun _ => {}) s.pans p v }
def State.cry (s : State) (n : Nat) : Cry := SMap.get (fun _ => {}) s.crys n
def State.setCry (s : State) (n : Nat) (v : Cry) : State := { s with crys := SMap.set (fun _ => {}) s.crys n v }
def State.mask (s : State) (n : Nat) : Mask := SMap.get (fun _ => {}) s.masks n
def State.setMask (s : State) (n : Nat) (v : Mask) : State := { s with masks := SMap.set (fun _ => {}) s.masks n v }
def State.rule (s : State) (v : Nat) : Rule := SMap.get (fun _ => {}) s.rules v
def State.setRule (s : State) (v : Nat) (r : Rule) : State := { s with rules := SMap.set (fun _ => {}) s.rules v r }
def State.marker (s : State) (k : Nat) : Marker := SMap.get (fun _ => {}) s.markers k
def State.setMarker (s : State) (k : Nat) (v : Marker) : State :=
  { s with markers := SMap.set (fun _ => {}) s.markers k v }
def State.trip (s : State) (i : Nat) : TripOut := SMap.get (fun _ => {}) s.trips i
def State.setTrip (s : State) (i : Nat) (v : TripOut) : State := { s with trips := SMap.set (fun _ => {}) s.trips i v }
def State.sl (s : State) (c : Nat) : Slu := SMap.get (fun _ => {}) s.slus c
def State.setSl (s : State) (c : Nat) (v : Slu) : State := { s with slus := SMap.set (fun _ => {}) s.slus c v }
def State.lane (s : State) (l : Nat) : Lane := SMap.get (fun _ => {}) s.lanes l
def State.setLane (s : State) (l : Nat) (v : Lane) : State := { s with lanes := SMap.set (fun _ => {}) s.lanes l v }
def State.quad (s : State) (q : Nat) : Quad := SMap.get (fun _ => {}) s.quads q
def State.setQuad (s : State) (q : Nat) (v : Quad) : State := { s with quads := SMap.set (fun _ => {}) s.quads q v }
def State.link (s : State) (b : Nat) : Link := SMap.get (fun _ => {}) s.links b
def State.setLink (s : State) (b : Nat) (v : Link) : State := { s with links := SMap.set (fun _ => {}) s.links b v }
def State.island (s : State) (k : Nat) : Island := SMap.get (fun _ => {}) s.islands k
def State.setIsland (s : State) (k : Nat) (v : Island) : State :=
  { s with islands := SMap.set (fun _ => {}) s.islands k v }
def State.rest (s : State) (k : Nat) : Restore := SMap.get (fun _ => {}) s.restore k
def State.setRest (s : State) (k : Nat) (v : Restore) : State :=
  { s with restore := SMap.set (fun _ => {}) s.restore k v }

/-! ## IS8 -/

/-- R26, R317: whether anything that is armed keeps IS8 in ON: an enabled loop-back of an armed marker counts as a channel. -/
def State.anyArmed (s : State) : Bool :=
  ((List.range 144).any fun n => (s.chan n).armed) ||
    ((List.range 32).any fun k => (s.marker k).armed && s.flag .MRK_CFG_LOOP k) || ((List.range 16).any fun n => (s.wave n).armed) ||
    (s.ctxs.any fun x => x.2.armed) || ((List.range 16).any fun n => (s.acq n).armed)

/-- R26: whether a lane quad is outside P2. -/
def State.anyQuad (s : State) : Bool := (List.range 16).any fun q => (s.quad q).pwr != 2

/-- R26: the state of IS8, as in R87. -/
def State.is8State (s : State) : Nat :=
  match s.dev with
  | .boot | .run | .test | .recovery => if s.anyArmed || s.anyQuad then 0 else 1
  | _ => 3

/-- R32, R63: whether the fabric clock runs: IS8 is in ON and has not lost lock. -/
def State.fabricRuns (s : State) : Bool := s.is8State == 0 && !s.time.halted

/-- R30: the AOCLK cycle of an instant. -/
def aoCycle (x : Nat) : Nat := x / (40 * qNs)

/-- R398: the management cycle, 5 ns, of an instant. -/
def portCycle (x : Nat) : Nat := x / (5 * qNs)

/-- One fabric cycle in q, 781.25 ps (R32), and the number of the cycle of an instant. -/
def qCycle : Nat := 12800000
def fabCycle (x : Nat) : Nat := x / qCycle

/-! ## Memory -/

/-- What a byte of memory that nothing has written reads as (log entry 5). -/
def memDefault (_ : Nat) : BitVec 8 := 0

/-- One byte of the fabric address space. -/
def State.readByte (s : State) (a : Nat) : BitVec 8 := SMap.get memDefault s.mem a

/-- Writes one byte. -/
def State.writeByte (s : State) (a : Nat) (b : BitVec 8) : State := { s with mem := SMap.set memDefault s.mem a b }

/-- The canonical form of memory. -/
def memWf (m : List Host.Cell) : Bool := SMap.wf memDefault m

/-- A little-endian number of `n` bytes (R6). -/
def State.readLe (s : State) : Nat → Nat → Nat
  | _, 0 => 0
  | a, n + 1 => (s.readByte a).toNat + 256 * s.readLe (a + 1) n

/-- A memory with bytes written one after another. -/
def memWrite (m : List Host.Cell) (a : Nat) : List (BitVec 8) → List Host.Cell
  | [] => m
  | b :: bs => memWrite (SMap.set memDefault m a b) (a + 1) bs

/-- Writes bytes one after another. -/
def State.writeBytes (s : State) (a : Nat) (bs : List (BitVec 8)) : State := { s with mem := memWrite s.mem a bs }

/-- R435: a write of a unit makes it good, and the first bad unit of a stretch of memory. -/
def State.cleanUnits (s : State) (a n : Nat) : State :=
  { s with life := { s.life with bad := s.life.bad.filter fun u => decide (u + 64 ≤ a) || decide (a + n ≤ u) } }
def State.badUnit (s : State) (a n : Nat) : Option Nat :=
  s.life.bad.find? fun u => decide (a < u + 64) && decide (u < a + n)

/-- The bytes of a little-endian number of `n` bytes (R6). -/
def leCells (n v : Nat) : List (BitVec 8) := (List.range n).map fun j => BitVec.ofNat 8 (v / 256 ^ j)

/-- Writes a little-endian number of `n` bytes. -/
def State.writeLe (s : State) (a n v : Nat) : State := s.writeBytes a (leCells n v)

/-- Writes 64-bit words one after another. -/
def State.writeWords (s : State) (a : Nat) (ws : List Nat) : State := s.writeBytes a (ws.map (leCells 8)).flatten

end Sys2Proof.Machine
end

