-- ==== Sys2Proof/Machine/Blocks.lean ====
section
/-!
DEFINITION. The payloads of control blocks (R372-R379, R390) and the CRC of packets and images (R105).
-/

namespace Sys2Proof.Machine

/-! ## CRC-32C -/

/-- One bit of the reflected CRC-32C. -/
def crcBit (c : Nat) : Nat := if c % 2 = 1 then (c / 2) ^^^ 0x82F63B78 else c / 2

/-- One byte of the CRC. -/
def crcByte (c b : Nat) : Nat :=
  let x := c ^^^ (b % 256)
  crcBit (crcBit (crcBit (crcBit (crcBit (crcBit (crcBit (crcBit x)))))))

/-- R105: the CRC-32C of bytes. -/
def crc32c (bs : List Nat) : Nat := bs.foldl crcByte 0xFFFFFFFF ^^^ 0xFFFFFFFF

/-- The eight little-endian bytes of a word. -/
def wordBytes (w : Nat) : List Nat := (List.range 8).map fun i => w / 256 ^ i % 256

/-- The CRC of a packet's words (R384). -/
def crcWords (ws : List Nat) : Nat := crc32c (ws.map wordBytes).flatten

/-! ## Payloads -/

/-- R373: CHECK of a payload: bytes 0-6 and 0xA5, by exclusive or. -/
def checkOf (p : Nat) : Nat := ((wordBytes p).take 7).foldl (· ^^^ ·) 0xA5

/-- A payload with its CHECK byte. -/
def withCheck (p : Nat) : Nat := p % 2 ^ 56 + checkOf p * 2 ^ 56

/-- Whether a payload's CHECK holds. -/
def checkOk (p : Nat) : Bool := p / 2 ^ 56 % 256 == checkOf p

/-- R379: a CTRL block; the body lies in [55:16]. -/
def ctrlWord (sub flags body : Nat) : Nat := withCheck (0x78 + sub * 2 ^ 8 + flags * 2 ^ 12 + body % 2 ^ 40 * 2 ^ 16)

/-- The SUB values of R379. -/
def subStream : Nat := 0
def subCredit : Nat := 1
def subStart : Nat := 2
def subPkt : Nat := 3
def subTimeSet : Nat := 4
def subLeap : Nat := 5
def subAck : Nat := 6
def subTrigger : Nat := 7
def subTrain : Nat := 8
def subP1 : Nat := 9

/-- R379: STREAM, CREDIT and ACK. -/
def streamWord (stream : Nat) : Nat := ctrlWord subStream 0 stream
def creditWord (stream total : Nat) : Nat := ctrlWord subCredit 0 (stream + total % 4096 * 2 ^ 6)
def ackWord (tag resp err subject : Nat) : Nat := ctrlWord subAck 0 (tag + resp * 2 ^ 8 + err * 2 ^ 12 + subject * 2 ^ 20)

/-- R372: an ALIGN block. -/
def alignWord (qlane service offer link aseq : Nat) (admitted : Bool) (bip : Nat) : Nat :=
  withCheck (0x33 + qlane * 2 ^ 8 + service * 2 ^ 12 + offer * 2 ^ 16 + link * 2 ^ 20 + aseq % 256 * 2 ^ 24 +
    b2n admitted * 2 ^ 32 + bip * 2 ^ 48)

/-- R392: a TRAIN block of the analyser, which requests nothing: its FFE in force, and whether the last request broke the ranges. -/
def trainWord (pre main post : Nat) (reject : Bool) : Nat :=
  ctrlWord subTrain 0 (pre % 16 * 2 ^ 16 + main % 64 * 2 ^ 20 + post % 32 * 2 ^ 26 + b2n reject * 2 ^ 31 + 2 ^ 32)

/-- R378: a NOT_READY block. -/
def notReadyWord (reason phase : Nat) : Nat := withCheck (0x4B + reason * 2 ^ 8 + phase % 2 ^ 32 * 2 ^ 16)

/-- R390: a VERDICT block carries the verdict word without bits [31:24]. -/
def verdictBlock (v : Nat) : Nat := 0x55 + v % 2 ^ 24 * 2 ^ 8 + v / 2 ^ 32 % 2 ^ 32 * 2 ^ 32

/-- Sends a control word on a link. -/
def State.sendBlock (s : State) (b w : Nat) : State :=
  let k := s.link b
  s.setLink b { k with sent := k.sent ++ [w] }

end Sys2Proof.Machine
end

