-- ==== Sys2Proof/Machine/Operands.lean ====
section
/-!
DEFINITION. The forms in which results are computed and held: exact fractions, square roots, fields held at their limits
(R236), and binary64 words (R241, R245).
-/

namespace Sys2Proof.Machine

/-- A fraction; its denominator is positive. -/
structure Frac where
  num : Int
  den : Nat
  deriving DecidableEq, Repr

def Frac.ofInt (z : Int) : Frac := ⟨z, 1⟩
def Frac.add (a b : Frac) : Frac := ⟨a.num * b.den + b.num * a.den, a.den * b.den⟩
def Frac.sub (a b : Frac) : Frac := ⟨a.num * b.den - b.num * a.den, a.den * b.den⟩
def Frac.mul (a b : Frac) : Frac := ⟨a.num * b.num, a.den * b.den⟩
def Frac.le (a b : Frac) : Bool := decide (a.num * b.den ≤ b.num * a.den)
def Frac.sum (l : List Frac) : Frac := l.foldl Frac.add ⟨0, 1⟩

/-- The quotient of two fractions, if the second is not 0. -/
def Frac.div (a b : Frac) : Option Frac :=
  if b.num = 0 then none
  else if 0 < b.num then some ⟨a.num * b.den, a.den * b.num.toNat⟩
  else some ⟨-(a.num * b.den), a.den * (-b.num).toNat⟩

/-- The largest integer not above a fraction. -/
def Frac.floor (a : Frac) : Int := a.num / a.den

/-- The nearest integer to a fraction; a tie takes either neighbour (log entry 6). -/
def Frac.round (a : Frac) : Int :=
  let f := a.floor
  let r := 2 * (a.num - f * a.den)
  if r < a.den then f
  else if (a.den : Int) < r then f + 1
  else f + b2n (Config.roundsUp (a.num.natAbs) a.den)

/-- The square root of `num / den` in whole units: exact, or one of the two neighbours (log entry 6). -/
def sqrtQuot (num den : Nat) : Nat :=
  if den = 0 then 0
  else
    let r := Nat.sqrt (num / den)
    if r * r * den = num then r else r + b2n (Config.roundsUp num den)

/-- R236: a value held in an unsigned field of 64 bits, and whether it was held at its limit. -/
def holdU (v : Int) : Nat × Bool :=
  if v < 0 then (0, true) else if 2 ^ 64 ≤ v then (2 ^ 64 - 1, true) else (v.toNat, false)

/-- R236: a value held in a signed field of 64 bits, and whether it was held at its limit. -/
def holdS (v : Int) : Nat × Bool :=
  if v < -(2 ^ 63) then (2 ^ 63, true)
  else if 2 ^ 63 ≤ v then (2 ^ 63 - 1, true)
  else (ofSigned 64 v, false)

/-- A fraction in units of `1 / scale`, in an unsigned field. -/
def Frac.fieldU (a : Frac) (scale : Nat) : Nat × Bool := holdU (quotI (a.num * scale) a.den)

/-- A fraction in units of `1 / scale`, in a signed field. -/
def Frac.fieldS (a : Frac) (scale : Nat) : Nat × Bool := holdS (quotI (a.num * scale) a.den)

/-- The square root of a fraction in units of `1 / scale`, as an integer. A negative fraction counts as 0. -/
def Frac.root (a : Frac) (scale : Nat) : Int := (sqrtQuot (a.num.toNat * scale * scale) a.den : Nat)

/-- The number of bits of a natural number. -/
def bitLen (n : Nat) : Nat := if n = 0 then 0 else Nat.log2 n + 1

/-- The binary64 word of a non-negative fraction whose value is in the normal range, rounded to 53 bits (log entry 6). -/
def binary64 (num den : Nat) : Nat :=
  if num = 0 ∨ den = 0 then 0
  else
    let e : Int := (bitLen num : Int) - bitLen den
    let scaled (sh : Int) : Nat × Nat :=
      if 0 ≤ sh then (num * 2 ^ sh.toNat, den) else (num, den * 2 ^ (-sh).toNat)
    let whole (e : Int) : Nat := let (n, d) := scaled (53 - e); n / d
    let e := if 2 ^ 53 ≤ whole e then e + 1 else e
    let (n, d) := scaled (53 - e)
    let m := nearest n d
    let (m, e) := if 2 ^ 53 ≤ m then (2 ^ 52, e + 1) else (m, e)
    (e + 1075 - 53).toNat * 2 ^ 52 + m % 2 ^ 52

end Sys2Proof.Machine
end

