-- ==== Sys2Proof/Machine/Flags.lean ====
section
/-!
DEFINITION. The flags and the codes of results (R230, R231).
-/

namespace Sys2Proof.Machine

/-! The bits of MC_VALID.FLAGS (R231). -/

def fMissed : Nat := 2 ^ 0
def fLost : Nat := 2 ^ 1
def fCal : Nat := 2 ^ 2
def fFe : Nat := 2 ^ 3
def fAlt : Nat := 2 ^ 4
def fEst : Nat := 2 ^ 5
def fConv : Nat := 2 ^ 6
def fSettle : Nat := 2 ^ 7
def fHoldover : Nat := 2 ^ 8
def fQual : Nat := 2 ^ 9
def fBridged : Nat := 2 ^ 10
def fRewound : Nat := 2 ^ 11
def fMoved : Nat := 2 ^ 12
def fSaturated : Nat := 2 ^ 13
def fOrphan : Nat := 2 ^ 14

/-! The codes of MC_VALID.CODE (R230). -/

def cNoGate : Nat := 0
def cValid : Nat := 1
def cPartial : Nat := 2
def cInsufficient : Nat := 3
def cShort : Nat := 4
def cDiscarded : Nat := 5
def cNoData : Nat := 6

/-- R230: the code of a result: the highest of the codes 3-6 that apply, otherwise PARTIAL before VALID. -/
def resultCode (evCode : Nat) (insufficient noData : Bool) (flags : Nat) : Nat :=
  let c := if insufficient then max evCode cInsufficient else evCode
  let c := if noData then cNoData else c
  if 3 ≤ c then c
  else if flags &&& (fMissed ||| fLost ||| fSettle) ≠ 0 then cPartial
  else cValid

/-- The union of a list of flag words. -/
def orAll (l : List Nat) : Nat := l.foldl (· ||| ·) 0

end Sys2Proof.Machine
end

