-- ==== Sys2Proof/Machine/Records.lean ====
section
/-!
DEFINITION. The record stream of one source (chapter 6): the words of the items, the buffer, governing times, overflow
episodes, storage selection, the edge tap, the interpolators and their tables. Sources are numbered by SRC (R166).
-/

namespace Sys2Proof.Machine

/-! ## Words -/

/-- R166: the word of an edge record. -/
def EdgeRec.word (e : EdgeRec) : Nat :=
  e.src * 2 ^ 56 + b2n e.pol * 2 ^ 55 + e.cal * 2 ^ 53 + b2n e.nbr * 2 ^ 52 + b2n e.ths * 2 ^ 51 + b2n e.est * 2 ^ 50 +
    b2n e.ovr * 2 ^ 49 + b2n e.alt * 2 ^ 48 + e.seq * 2 ^ 40 + e.delta % 2 ^ 40

/-- R168: the words of an item. -/
def Item.words : Item → List Nat
  | .edge e => [e.word]
  | .anchor src seq reason time =>
    [0xE1 * 2 ^ 56 + src * 2 ^ 48 + seq * 2 ^ 40 + reason * 2 ^ 32 + time / 2 ^ 64 % 2 ^ 16, time % 2 ^ 64]
  | .overflow src seq cause lost => [0xE2 * 2 ^ 56 + src * 2 ^ 48 + seq * 2 ^ 40 + cause * 2 ^ 36 + lost % 2 ^ 36]
  | .rejoin src seq unit slot returns =>
    [0xE3 * 2 ^ 56 + src * 2 ^ 48 + seq * 2 ^ 40 + unit * 2 ^ 32 + slot * 2 ^ 24 + returns % 2 ^ 16]
  | .settle src seq change n => [0xE6 * 2 ^ 56 + src * 2 ^ 48 + seq * 2 ^ 40 + change * 2 ^ 32 + min n 0xFFFFFFFF]
  | .header ws => ws
  | .violation ws => ws
  | .pad => [0xE0 * 2 ^ 56]

/-- R169: the length of an item in words. -/
def Item.len (i : Item) : Nat := i.words.length

/-- The source an item concerns, if it is a word of a source. -/
def Item.src : Item → Option Nat
  | .edge e => some e.src
  | .anchor src _ _ _ => some src
  | .overflow src _ _ _ => some src
  | .rejoin src _ _ _ _ => some src
  | .settle src _ _ _ => some src
  | _ => none

/-- Overflow marks and anchors among the items. -/
def Item.isOverflow : Item → Bool
  | .overflow .. => true
  | _ => false
def Item.isAnchor : Item → Bool
  | .anchor .. => true
  | _ => false

/-- The buffer words an entry takes: an edge kept out of the stream takes none (R157). -/
def Entry.len (e : Entry) : Nat := if e.stored then e.item.len else 0

/-- The words in a buffer. -/
def Source.level (r : Source) : Nat := (r.buf.map Entry.len).sum

/-- Whether a buffer of 4,096 words has room for `n` more (R155). -/
def Source.room (r : Source) (n : Nat) : Bool := r.level + n ≤ 4096

/-! ## The sources -/

/-- SRC of PPS_IN and of the SYSREF loop-back (R166). -/
def srcPps : Nat := 0xC0
def srcSysref : Nat := 0xC1


/-- R470: the input delay of a source, in ticks. -/
def State.delayOf (s : State) (k : Nat) : Int :=
  if k < 144 then s.signed .TCH_INDELAY_TICKS k
  else if k < 160 then s.signed .WCH_INDELAY_TICKS (k - 144)
  else if k = srcPps then s.signed .TB_PPS_DELAY_TICKS
  else 0

/-- The present time on a source's recorded scale (R470). -/
def State.recTick (s : State) (k : Nat) : Int := s.tick - s.delayOf k

/-- Whether a source is guard (R92): timing and waveform channels by their CLASS. -/
def State.srcGuard (s : State) (k : Nat) : Bool :=
  if k < 144 then s.flag .TCH_BE_CFG_CLASS k
  else if k < 160 then s.flag .WCH_SOURCE_CLASS (k - 144)
  else false

/-- R176, R206: whether an edge of a polarity is selected by a two-bit selection. -/
def selects (sel : Nat) (pol : Bool) : Bool := sel == 0 || (sel == 1 && pol) || (sel == 2 && !pol)

/-- The storage selection of a source. -/
def State.storeSel (s : State) (k : Nat) : Nat :=
  if k < 144 then s.get .TCH_BE_CFG_EDGES k
  else if k < 160 then s.get .WCH_SOURCE_EDGES (k - 144)
  else 0

/-- Whether a source has an edge tap (R304). -/
def State.tapped (s : State) (k : Nat) : Bool := if k < 144 then s.srcGuard k else decide (160 ≤ k)

/-- R55, R59: arms that come while a realignment or a SEC set is pending start no earlier than it. -/
def State.startsHeld (s : State) : Bool := s.time.realign.isSome || s.time.setSec.isSome

/-! ## Overflow episodes -/

/-- R170: the CAUSE code of a cause, causes being numbered in the order of R158. -/
def causeCode (c : Nat) : Nat := [2, 1, 3, 5, 0].getD c 0

/-- The number of the cause of a full buffer. -/
def fullCause : Nat := 4

/-- Whether a source is a waveform channel (R166). -/
def isWave (k : Nat) : Bool := decide (144 ≤ k) && decide (k < 160)

/-- The events and counters of the beginning of an episode (R157). -/
def State.noteOverflow (s : State) (k : Nat) (buffer : Bool) : State :=
  if k < 144 then
    let s := (s.raise .TCH_BE_EVENT_OVERFLOW k).count .TCH_OVF_COUNT_EPISODES k
    if buffer && s.srcGuard k then s.raise .TCH_BE_EVENT_GUARD_OVERFLOW k else s
  else if k < 160 then
    (s.raise .WCH_EVENT_OVERFLOW (k - 144)).count .WCH_OVF_COUNT_EPISODES (k - 144)
  else s

/-- R157, R158: a cause begins; it begins an episode or joins the one in progress. -/
def State.beginCause (s : State) (k c : Nat) (uncounted : Bool) : State :=
  let r := s.src k
  match r.ovf with
  | some e =>
    s.setSrc k { r with ovf := some { e with
      active := if e.active.contains c then e.active else c :: e.active
      causes := if e.causes.contains c then e.causes else c :: e.causes
      uncounted := e.uncounted || uncounted } }
  | none =>
    (s.setSrc k { r with ovf := some {
      start := if isWave k then r.sure else s.recTick k, active := [c], causes := [c], uncounted := uncounted } }).noteOverflow k
      (decide (c = fullCause))

/-- R168: the LOST of an episode, saturating, and the field maximum when a part was not counted. -/
def Episode.lost (e : Episode) : Nat := if e.uncounted then 0xFFFFFFFFF else min (e.count + e.outside) 0xFFFFFFFFF

/-- R158, R209: the CAUSE of an episode: the first cause, in the order of R158, that took part; a waveform source has
INGEST alone. -/
def Episode.cause (e : Episode) (k : Nat) : Nat := if isWave k then 5 else causeCode (e.causes.foldl min 4)

/-- Keeps the extent of an episode that ends, for the spans of masks (R297). -/
def Source.noteGap (r : Source) (a b : Int) : Source := { r with gaps := ((a, b) :: r.gaps).take 16 }

/-- Adds the LOST of a mark to the source's count of lost edges. -/
def State.noteLost (s : State) (k : Nat) (e : Episode) : State :=
  if k < 144 then s.count .TCH_LOST_COUNT k e.lost
  else if k < 160 then (if e.uncounted then s else s.count .WCH_LOST_COUNT (k - 144) e.lost)
  else s

/-! ## Anchors -/

/-- The reasons of R171. -/
def rArm : Nat := 0x01
def rPeriodic : Nat := 0x02
def rGap : Nat := 0x03
def rOverflowEnd : Nat := 0x04
def rRejoin : Nat := 0x05
def rSettleEnd : Nat := 0x06
def rRestart : Nat := 0x07
def rSwitch : Nat := 0x08
def rDisarm : Nat := 0x09
def rRequested : Nat := 0x80

/-- The entry of an anchor of a source at a time of its recorded scale. -/
def State.anchorEntry (s : State) (k reason : Nat) (t : Int) : Entry :=
  { item := .anchor k (s.src k).seq reason (wordOf t s.qual), time := t }

/-- A governing anchor sets the governing time (R172), and change-only storage starts again (R178). -/
def Source.governed (r : Source) (t : Int) : Source :=
  { r with gov := t, based := true, rise := { r.rise with written := 0 }, fall := { r.fall with written := 0 },
           dropped := 0 }

/-- Writes an anchor whose room is given, with its effect on the governing time. -/
def State.putAnchor (s : State) (k reason : Nat) (t : Int) : State :=
  let e := s.anchorEntry k reason t
  let r := s.src k
  let r := { r with buf := r.buf ++ [e] }
  s.setSrc k (if reason < 0x80 then r.governed t else r)

/-- R157, R471: a control word other than ARM and DISARM falls due. During an episode it is not written; without room it
begins an episode and is not written. -/
def State.dueAnchor (s : State) (k reason : Nat) (t : Int) : State :=
  if (s.src k).ovf.isSome then s
  else if (s.src k).room 2 then s.putAnchor k reason t
  else s.beginCause k fullCause false

/-- The SEQ of a marker is that of the next edge record (R167). -/
def Item.withSeq (q : Nat) : Item → Item
  | .rejoin src _ unit slot returns => .rejoin src q unit slot returns
  | .settle src _ change n => .settle src q change n
  | i => i

/-- R471: as `dueAnchor`, for a REJOIN or SETTLE marker. -/
def State.dueMarker (s : State) (k : Nat) (t : Int) (i : Item) : State :=
  let r := s.src k
  if r.ovf.isSome then s
  else if r.room 1 then s.setSrc k { r with buf := r.buf ++ [{ item := i.withSeq r.seq, time := t }] }
  else s.beginCause k fullCause false

/-- The overflow mark of an episode. -/
def State.markEntry (s : State) (k : Nat) (e : Episode) (t : Int) : Entry :=
  { item := .overflow k (s.src k).seq (e.cause k) e.lost, time := t }

/-- Moves the words that wait for room into the buffer once it has room for them all (R471). -/
def Source.payOwed (r : Source) : Source :=
  if r.owed ≠ [] ∧ r.room ((r.owed.map Entry.len).sum) = true then { r with buf := r.buf ++ r.owed, owed := [] } else r

/-- R171, R471: the source stops taking edges; an episode in progress ends at the stop with its mark, and the DISARM
anchor is the last word, after the markers that are due (R174). -/
def State.stopNow (s : State) (k : Nat) (t : Int) (markers : List Item) : State :=
  let r := s.src k
  let mark : List Entry := match r.ovf with
    | some e => [s.markEntry k e r.gov]
    | none => []
  let items := markers.map fun i => ({ item := i.withSeq r.seq, time := t } : Entry)
  let words := mark ++ items ++ [s.anchorEntry k rDisarm t]
  let s' := match r.ovf with
    | some e => s.noteLost k e
    | none => s
  let r := match r.ovf with
    | some e => r.noteGap e.start t
    | none => r
  s'.setSrc k ({ r with taking := false, ovf := none, tapBrk := true, gov := t, due := [], owed := r.owed ++ words }).payOwed

/-- R157, R158: causes end at a time. When no cause is left, the episode ends there: the mark, the markers that are due,
then an anchor. Without room for these words the full buffer becomes a cause. -/
def State.endCauses (s : State) (k : Nat) (cs : List Nat) (t : Int) (markers : List Item) (reason : Nat) : State :=
  let r := s.src k
  match r.ovf with
  | none => s
  | some e =>
    let act := e.active.filter fun c => !cs.contains c
    if act ≠ [] then s.setSrc k { r with ovf := some { e with active := act } }
    else if r.room (3 + markers.length) then
      let items := markers.map fun i => ({ item := i.withSeq r.seq, time := t } : Entry)
      let s := (s.noteLost k e).setSrc k
        { r.noteGap e.start t with ovf := none, tapBrk := true, buf := r.buf ++ [s.markEntry k e r.gov] ++ items }
      s.putAnchor k reason t
    else
      s.setSrc k { r with ovf := some { e with
        active := [fullCause], causes := if e.causes.contains fullCause then e.causes else fullCause :: e.causes } }

/-! ## What is due

A control word has its place among the edges by its time (R153, R470), and a command that makes it due can come before or
after edges on either side of that time. So it waits in `due` until an edge at or after its time is formed, or until no
edge before its time can be formed any more. -/

/-- R171: the last PERIODIC instant at or before a time. -/
def lastPeriodic (t : Int) : Int := (t - 2621440000000) / tSec * tSec + 2621440000000

/-- R171, R175: the next PERIODIC and GAP instants of a source that is taking edges outside an episode (log entry 32). -/
def Source.periodicAt (r : Source) : Int := lastPeriodic r.gov + (tSec : Int)
def Source.gapAt (r : Source) : Int := r.gov + 2 ^ 39
def Source.timed (r : Source) : Bool := r.taking && r.ovf.isNone

/-- The earliest time at which something falls due. -/
def Source.nextDue (r : Source) : Option Int :=
  let l := r.due.map (·.at_) ++ (if r.timed then [r.periodicAt, r.gapAt] else [])
  l.foldl (fun m t => some (match m with
    | some x => min x t
    | none => t)) none

/-- What of each kind falls due at a time: the causes that end, the markers, the reasons of anchors, a stop. -/
def Source.wordsAt (r : Source) (t : Int) : List DueWord := (r.due.filter fun d => d.at_ == t).map (·.word)
def causesOf (l : List DueWord) : List Nat := l.filterMap fun
  | .ends c => some c
  | _ => none
def markersOf (l : List DueWord) : List Item := l.filterMap fun
  | .marker i => some i
  | _ => none
def Source.reasonsAt (r : Source) (t : Int) : List Nat :=
  ((r.wordsAt t).filterMap fun
    | .anchor x => some x
    | _ => none) ++
  (if r.timed && t == r.gapAt then [rGap] else []) ++ (if r.timed && t == r.periodicAt then [rPeriodic] else [])

/-- R174: the first reason, in the order of that rule, of those that fall due at one instant. ARM, and RESTART of a
window, are written where the source starts. -/
def firstReason (l : List Nat) : Option Nat :=
  ([rRejoin, rOverflowEnd, rSwitch, rRestart, rSettleEnd, rGap, rPeriodic] : List Nat).find? fun x => l.contains x

/-- R155: another back-end comes into service: its buffer is empty, and the words of the old one drain before its own. -/
def Source.newBuffer (r : Source) : Source := { r with old := r.old ++ r.buf, buf := [] }

/-- R157, R174, R182, R183, R185: what falls due at a time is written in the order of R174. A change of back-ends brings an
empty buffer, and ends the causes of a full one and of a faulted back-end; after a fault the SWITCH anchor stands in the
place of OVERFLOW_END (R185). -/
def State.meet (s : State) (k : Nat) (t : Int) : State :=
  let r := s.src k
  let ws := r.wordsAt t
  let reasons := r.reasonsAt t
  let s := s.setSrc k { r with due := r.due.filter fun d => d.at_ != t }
  if !r.taking then s
  else
    let markers := markersOf ws
    let change := reasons.contains rSwitch || reasons.contains rRejoin
    let s := if change then s.setSrc k (s.src k).newBuffer else s
    let causes := causesOf ws ++ (if change then [2, fullCause] else [])
    if ws.contains .stop then s.stopNow k t markers
    else match r.ovf with
      | some e =>
        if causes = [] then s
        else
          let all := if reasons.contains rSwitch && e.causes.contains 2 then reasons else rOverflowEnd :: reasons
          s.endCauses k causes t markers ((firstReason all).getD rOverflowEnd)
      | none =>
        let s := markers.foldl (fun s i => s.dueMarker k t i) s
        match firstReason reasons with
        | some x => s.dueAnchor k x t
        | none => s

/-- Everything that falls due up to a time is written; the number bounds the instants at which something does. -/
def State.meetAll (k : Nat) (t : Int) : Nat → State → State
  | 0, s => s
  | n + 1, s => match (s.src k).nextDue with
    | some x => if x ≤ t then State.meetAll k t n (s.meet k x) else s
    | none => s

/-- Everything that falls due up to a time is written: each due item is one instant, and a GAP or PERIODIC instant lies at
least 2^39 ticks after the second one before it. -/
def State.writeDue (s : State) (k : Nat) (t : Int) : State :=
  let r := s.src k
  State.meetAll k t (2 * r.due.length + 2 * ((t - r.gov).toNat / 2 ^ 39) + 4) s

/-- The time before which no further edge of a source can be formed: for a back-end with interpolators the beginning of the
present coarse period, less the delay. -/
def State.sureTick (s : State) (k : Nat) : Int :=
  if isWave k then (s.src k).sure else floorCoarse s.tick - s.delayOf k

/-- Writes what can no longer be preceded by an edge. -/
def State.flush (s : State) (k : Nat) : State := s.writeDue k (s.sureTick k)

/-- Something falls due at a time. -/
def State.pushDue (s : State) (k : Nat) (t : Int) (w : DueWord) : State :=
  let r := s.src k
  (s.setSrc k { r with due := r.due ++ [{ at_ := t, word := w }] }).flush k

/-- The first coarse-period boundary of the recorded scale at or after the present that lies after every edge formed
(R470). -/
def State.nextBound (s : State) (k : Nat) : Int := ceilCoarse (max (s.recTick k) ((s.src k).lastAt + 1))

/-- R167, R171: the source starts taking edges at a start instant: SEQ 0 and the ARM anchor (or another reason). -/
def State.startTaking (s : State) (k : Nat) (t : Int) (reason : Nat := rArm) : State :=
  let s := s.writeDue k t
  let r := s.src k
  (s.setSrc k { r with taking := true, start := t, seq := 0, due := [], lastCal := none, tapBrk := true, lastAt := t - 1,
                       idx := { run := r.idx.run + 1 } }).putAnchor k reason t

/-- R171: the source stops at a time: an edge before that time is still recorded. -/
def State.stopTaking (s : State) (k : Nat) (t : Int) : State := if (s.src k).taking then s.pushDue k t .stop else s

/-- R157, R158: a cause of an episode ends at a time. -/
def State.endCause (s : State) (k c : Nat) (t : Int) : State :=
  match (s.src k).ovf with
  | some e => if e.active.contains c then s.pushDue k t (.ends c) else s
  | none => s

/-- Whether a stop of a source is due: it takes edges no longer once its time has come. -/
def Source.stopping (r : Source) : Bool := r.due.any fun d => d.word == .stop

/-! ## Edges -/

/-- Advances the index of a polarity (R222). -/
def EdgeIndex.step (i : EdgeIndex) (pol : Bool) : EdgeIndex :=
  if pol then { i with rise := i.rise + 1, last := true } else { i with fall := i.fall + 1, last := false }

/-- R177: the state of a polarity after a written record. -/
def PolState.write (p : PolState) (t : Int) : PolState :=
  { written := min (p.written + 1) 2, last := t, step := t - p.last, pred := t + (t - p.last) }

/-- What the back-end has formed: the flags of an edge record. -/
structure EdgeFlags where
  cal : Nat := 3
  nbr : Bool := false
  ths : Bool := false
  est : Bool := false
  ovr : Bool := false
  alt : Bool := false
  deriving DecidableEq, Repr

/-- R177, R178: whether change-only storage suppresses an edge. -/
def State.suppresses (s : State) (k : Nat) (t : Int) (pol : Bool) (f : EdgeFlags) : Bool :=
  let r := s.src k
  let p := if pol then r.rise else r.fall
  decide (k < 144) && s.flag .TCH_BE_CFG_CHANGE k && decide (2 ≤ p.written) &&
    decide (((t - p.pred).natAbs) ≤ s.get .TCH_STORE_TOL k) &&
    !(f.est || f.ths || f.ovr || f.nbr || f.alt) && decide (r.lastCal = some f.cal) && decide (r.dropped < 127)

/-- R304: offers an edge to the tap; the answer says whether it went in. -/
def State.offerTap (s : State) (k : Nat) (t : Int) (pol : Bool) (f : EdgeFlags) : Bool × State :=
  let r := s.src k
  if s.tapped k && decide (r.tap.length < 16) then
    (true, s.setSrc k { r with
      tap := r.tap ++ [{ pol, time := t, fe := f.ovr || f.nbr || f.ths, cal := f.cal, est := f.est, brk := r.tapBrk }]
      tapBrk := false })
  else (false, s)

/-- R62, R185: an edge that the front-end's unclocked counter counts while no back-end forms it. -/
def State.outsideEdge (s : State) (k : Nat) : State :=
  let r := s.src k
  match r.ovf with
  | some e => s.setSrc k { r with ovf := some { e with outside := e.outside + 1 } }
  | none => s

/-- The front-end's counter is read: its count stands for the edges outside the back-end. -/
def State.readCounter (s : State) (k n : Nat) : State :=
  let r := s.src k
  match r.ovf with
  | some e => s.setSrc k { r with ovf := some { e with count := e.count + n, outside := 0 } }
  | none => s

/-- Counts an edge formed (R186, R217). -/
def State.countEdge (s : State) (k : Nat) : State := if k < 144 then s.count .TCH_EDGES_COUNT k else s

/-- R153-R157, R166, R167, R176-R179: the back-end forms an edge at timestamp `t`. What is due at or before its time is
written first (R470). Edges before the start instant are neither recorded nor counted (R58), and each timestamp is greater
than the one before it (R153). -/
def State.formEdge (s : State) (k : Nat) (t : Int) (pol : Bool) (f : EdgeFlags) : State :=
  let t := if (s.src k).taking && decide ((s.src k).start ≤ t) then max t ((s.src k).lastAt + 1) else t
  let s := s.writeDue k t
  let r := s.src k
  if r.taking && decide (r.start ≤ t) then
    let s := s.countEdge k
    let s := s.setSrc k { r with idx := r.idx.step pol, lastAt := t }
    match r.ovf with
    | some e => s.setSrc k { s.src k with ovf := some { e with count := e.count + 1 } }
    | none =>
      let edge : EdgeRec := { src := k, pol, cal := f.cal, nbr := f.nbr, ths := f.ths, est := f.est, ovr := f.ovr,
                              alt := f.alt, seq := r.seq, delta := (t - r.gov).toNat }
      let sel := selects (s.storeSel k) pol
      let sup := sel && s.suppresses k t pol f
      if sel && !sup && !r.room 1 then
        let s := s.beginCause k fullCause false
        match (s.src k).ovf with
        | some e => s.setSrc k { s.src k with ovf := some { e with count := e.count + 1 } }
        | none => s
      else
        let (tap, s) := s.offerTap k t pol f
        let r := s.src k
        let p := if pol then r.rise else r.fall
        if !sel then
          s.setSrc k { r with buf := r.buf ++ [{ item := .edge edge, stored := false, time := t, tapped := tap }] }
        else if sup then
          let p := { p with pred := p.pred + p.step }
          (s.setSrc k { r with
            buf := r.buf ++ [{ item := .edge edge, stored := false, time := t, tapped := tap }]
            seq := (r.seq + 1) % 256, dropped := r.dropped + 1
            rise := if pol then p else r.rise, fall := if pol then r.fall else p }).count .TCH_SUPPRESSED_COUNT k
        else
          let p := p.write t
          s.setSrc k { r with
            buf := r.buf ++ [{ item := .edge edge, time := t, tapped := tap }]
            seq := (r.seq + 1) % 256, gov := max r.gov t, dropped := 0, lastCal := some f.cal
            rise := if pol then p else r.rise, fall := if pol then r.fall else p }
  else s

/-! ## Interpolators and tables -/

/-- The key of the spare back-end of a cluster, beside the back-ends of the sources. -/
def spareKey (c : Nat) : Nat := 256 + c

/-- The back-end in service for a source (R180). -/
def State.beOf (s : State) (k : Nat) : Nat := if k < 144 ∧ (s.chan k).sub = 2 then spareKey (k / 12) else k

/-- The hits of an interpolator's bin. -/
def hitsOf (h : SMap Nat) (i c : Nat) : Nat := SMap.get (fun _ => 0) h (i * 2048 + c)

/-- The hits of one interpolator in all. -/
def hitTotal (h : SMap Nat) (i : Nat) : Nat := ((h.filter fun x => x.1 / 2048 == i).map (·.2)).sum

/-- The hits of an interpolator below a bin. -/
def hitsBelow (h : SMap Nat) (i c : Nat) : Nat :=
  ((h.filter fun x => x.1 / 2048 == i && x.1 % 2048 < c).map (·.2)).sum

/-- R160: `pos[c]` of a table built from hits, in 1/65,536 tick. -/
def tablePos (h : SMap Nat) (i c : Nat) : Nat :=
  quot ((2 * hitsBelow h i c + hitsOf h i c) * 2048 * 65536) (2 * hitTotal h i)

/-- R161, R162: the calibration state in which a back-end measures a source's edges: BYPASS while CAL_BYPASS is set in
TEST, otherwise its own. -/
def State.calBy (s : State) (k b : Nat) : Nat :=
  if k < 144 ∧ s.dev = .test ∧ s.flag .TCH_BE_CFG_CAL_BYPASS k = true then 3 else (s.be b).cal

/-- The calibration state of the back-end in service for a source. -/
def State.calOf (s : State) (k : Nat) : Nat := s.calBy k (s.beOf k)

/-- R161, R4: the default table of a back-end, a position within the coarse period. -/
def defaultPos (b i bin : Nat) : Nat := Config.defaultTable b i bin % (2048 * 65536 + 1)

/-- R161: the fine position of a raw bin by a back-end in a calibration state, rounded to the nearest tick (R152). -/
def BackEnd.fine (e : BackEnd) (b cal i bin : Nat) : Nat :=
  let stored : Nat := match e.stored with
    | some h => nearest (tablePos h i bin) 65536
    | none => nearest (defaultPos b i bin) 65536
  match cal with
  | 0 => match e.live with
    | some h => nearest (tablePos h i bin) 65536
    | none => stored
  | 1 => stored
  | 2 => nearest (defaultPos b i bin) 65536
  | _ => bin

/-- The interpolator that has been free the longest (R154). -/
def longestFree (fr : List Nat) : Nat := fr.idxOf (fr.foldl min (fr.headD 0))

/-- R154: an edge or hit at an instant takes an interpolator for 420 ps. -/
def BackEnd.take (e : BackEnd) (i x : Nat) : BackEnd := { e with free := e.free.set i (x + 420 * 16384) }

/-- R152: the timestamp that a back-end gives an edge of a source at the present instant: coarse count, calibrated fine
position, input delay. -/
def State.stampBy (s : State) (k b bin : Nat) : Int :=
  let e := s.be b
  floorCoarse s.tick + e.fine b (s.calBy k b) (longestFree e.free) bin - s.delayOf k

/-- R154: an edge at the present instant takes an interpolator of a back-end. -/
def State.takeBy (s : State) (b : Nat) : State := s.setBe b ((s.be b).take (longestFree (s.be b).free) s.now)

/-- R152: the timestamp by the back-end in service, and the state with the interpolator taken. -/
def State.stamp (s : State) (k bin : Nat) : Int × State := (s.stampBy k (s.beOf k) bin, s.takeBy (s.beOf k))

/-- R162: the state of a back-end whose live tables are not in use; they are kept (log entry 68). -/
def BackEnd.fallBack (e : BackEnd) : BackEnd := { e with cal := if e.stored.isSome then 1 else 2 }

/-- R162: the state that the tables support once BYPASS ends. -/
def BackEnd.supported (e : BackEnd) : BackEnd :=
  { e with cal := if e.live.isSome then 0 else if e.stored.isSome then 1 else 2 }

/-! ## Frames on a recorded scale -/

/-- TB_FRAME.LEN in force, in ticks (R64). -/
def State.frameTicks (s : State) : Nat := s.inForce .TB_FRAME_LEN * tPer

/-- The first frame boundary of the recorded scale of a source after an instant, and the first at or after it. -/
def State.frameAfter (s : State) (k x : Nat) : Int :=
  let f : Int := s.frameTicks
  ((s.ticksAt x - s.delayOf k) / f + 1) * f
def State.frameFrom (s : State) (k x : Nat) : Int :=
  let f : Int := s.frameTicks
  let t := s.ticksAt x - s.delayOf k
  (t + (f - 1)) / f * f

end Sys2Proof.Machine
end

