-- ==== Sys2Proof/Machine/Trips.lean ====
section
/-!
DEFINITION. Trip lines, the gating of the marker and trip outputs, and the marker schedules (R147, R314-R321).
-/

namespace Sys2Proof.Machine

/-! ## Trip lines -/

/-- R147: whether the front-end dies have their rails: rails 8 and 9 have been good since their enable, and are in no fault. -/
def State.dieUp (s : State) : Bool := s.power.good.contains 8 && s.power.good.contains 9

/-- R145: the contribution of a monitor to its trip line. -/
def State.contribution (s : State) (n : Nat) : Bool :=
  let w := (s.chan n).win
  w.out || (s.get .TCH_WIN_CFG_LATCH n != 0 && w.latch)

/-- R147: whether a channel asserts the line it is routed to. -/
def State.drivesLine (s : State) (n : Nat) : Bool :=
  s.flag .TCH_WIN_CFG_ROUTE n && (s.contribution n || !s.dieUp || (s.island (n / 18)).unlock)

/-- The present state of the 64 trip lines as a mask (TRIP_LINES). -/
def State.tripLines (s : State) : Nat :=
  (List.range 144).foldl (fun m n => if s.drivesLine n then m ||| 2 ^ s.get .TCH_WIN_CFG_TL n else m) 0

/-- How many bits of a mask of 64 are set. -/
def popCount (m : Nat) : Nat := ((List.range 64).filter fun i => bit m i).length

/-! ## Output gates -/

/-- Repeats an operation. -/
def times {α : Type} (f : α → α) : Nat → α → α
  | 0, a => a
  | n + 1, a => times f n (f a)

/-- R320: the assertions of newly asserted selected lines set the event of a marker and, under SEQ or NEXT, its latch. -/
def State.assertMarker (s : State) (k fresh : Nat) : State :=
  if fresh = 0 then s
  else
    let s := times (fun s => s.raise .MRK_EVENT_TRIPPED k) (popCount fresh) s
    let m := s.marker k
    s.setMarker k { m with latch := m.latch || s.get .MRK_CFG_LATCH k != 0 }

/-- R318: whether a marker is tripped. -/
def State.markerTripped (s : State) (k : Nat) : Bool :=
  let m := s.marker k
  m.lines != 0 || m.latch

/-- The loop-back of a marker records an edge of its output (R317). -/
def State.loopEdge (s : State) (k : Nat) (pol : Bool) (bin : Nat) : State :=
  if s.flag .MRK_CFG_LOOP k && (s.src (160 + k)).taking then
    let (t, s) := s.stamp (160 + k) bin
    s.formEdge (160 + k) t pol { cal := s.calOf (160 + k) }
  else s

/-- R317: the loop-back of a marker that has been disarmed stops after its last falling edge. -/
def State.endMarker (s : State) (k : Nat) : State :=
  let s := s.stopTaking (160 + k) (s.nextBound (160 + k))
  s.setMarker k { s.marker k with ending := false }

/-- R321: a trip while the pulse is high forces it low; the loop-back records that edge, whose raw bin is a free value. -/
def State.truncate (s : State) (k : Nat) : State :=
  let m := s.marker k
  if m.ball then
    let (v, s) := s.free
    let s := (s.setMarker k { m with ball := false, high := none }).count .MRK_TRUNCATED_COUNT k
    let s := s.loopEdge k false (v % 2048)
    if m.ending then s.endMarker k else s
  else s

/-- The gate of one marker after a change of the lines or of its selection (R318, R320, R321). -/
def State.gateMarker (s : State) (k lines : Nat) : State :=
  let sel := s.get .MRK_TRIPSEL_LINES k &&& lines
  let m := s.marker k
  let fresh := sel - (sel &&& m.lines)
  -- a marker in FOLLOW keeps no latch; `tripAt` is the beginning of the trip
  let latch := m.latch && (s.get .MRK_CFG_LATCH k != 0 || sel != 0)
  let tripAt := if m.lines != 0 || m.latch || fresh == 0 then m.tripAt else some s.now
  let s := (s.setMarker k { m with lines := sel, latch := latch, tripAt := tripAt }).assertMarker k fresh
  if s.markerTripped k then s.truncate k else s

/-- R122: whether the trip outputs are active: MARKERS_TRIPS has been applied, or BOOT has ended. -/
def State.tripsActive (s : State) : Bool :=
  match s.dev with
  | .run | .test | .recovery => true
  | .boot => s.boot.trips
  | _ => false

/-- The gate of one trip output (R318, R320, R322). No line acts on it before it is active (R122). -/
def State.gateTrip (s : State) (i lines : Nat) : State :=
  let sel := if s.tripsActive then s.get .TRIP_SEL_LINES i &&& lines else 0
  let o := s.trip i
  let fresh := sel - (sel &&& o.lines)
  let s := times (fun s => (s.raise .TRIP_EVENT_TRIPPED i).count .TRIP_COUNT_ASSERTS i) (popCount fresh) s
  let mode := s.get .TRIP_CFG_LATCH i
  let latch := o.latch || (fresh != 0 && mode != 0)
  let latch := if mode = 0 ∧ sel = 0 then false else latch
  s.setTrip i { o with lines := sel, latch := latch }

/-- R318: every output follows the trip lines. -/
def State.settleTrips (s : State) : State :=
  let lines := s.tripLines
  let s := (List.range 32).foldl (fun s k => s.gateMarker k lines) s
  (List.range 16).foldl (fun s i => s.gateTrip i lines) s

/-- R318, R122, R85: whether a trip output is at the tripped level. -/
def State.tripOut (s : State) (i : Nat) : Bool :=
  let o := s.trip i
  !s.tripsActive || s.get .PWR_RAIL_FAULT 4 != 0 || s.flag .TRIP_CFG_FORCE i || o.lines != 0 || o.latch

/-! ## Marker schedules -/

/-- T0 of a marker (R315). -/
def State.markerT0 (s : State) (k : Nat) : Int :=
  let v := s.get .MRK_START_TIME k
  (ticksOf (bits v 32 32) (bits v 8 24) (bits v 0 8 * 2048 + s.get .MRK_FINE_STEP k * 64) : Nat)

/-- R315: the instant of firing `j` of a marker's pattern; firings of the PPS pattern are numbered by their second. -/
def State.firingTime (s : State) (k j : Nat) : Option Int :=
  let t0 := s.markerT0 k
  let period := s.get .MRK_PERIOD_STEPS k * 64
  let count := s.get .MRK_BURST_COUNT k
  match s.get .MRK_CFG_PATTERN k with
  | 0 => if j = 0 then some t0 else none
  | 1 => if count = 0 ∨ j < count then some (t0 + (j * period : Nat)) else none
  | 2 => some (t0 + (j / count * period + j % count * (s.get .MRK_BURST_SPACING k * 64) : Nat))
  | _ => some ((j * tSec : Nat) + t0 % tSec)

/-- The number of the first firing of a PPS pattern from second `n` on: seconds with SEC mod DIV = 0. -/
def State.ppsFrom (s : State) (k n : Nat) : Nat :=
  let d := max 1 (s.get .MRK_CFG_DIV k)
  (n + (d - 1)) / d * d

/-- R316: the number of the first firing of the pattern at or after a time. -/
def State.firstFiring (s : State) (k : Nat) (at_ : Int) : Nat :=
  let t0 := s.markerT0 k
  let period := max 1 (s.get .MRK_PERIOD_STEPS k * 64)
  let late := (at_ - t0).toNat
  match s.get .MRK_CFG_PATTERN k with
  | 0 => 0
  | 1 => (late + (period - 1)) / period
  | 2 =>
    let count := max 1 (s.get .MRK_BURST_COUNT k)
    let gap := max 1 (s.get .MRK_BURST_SPACING k * 64)
    let b := late / period
    let i := (late % period + (gap - 1)) / gap
    if i < count then b * count + i else (b + 1) * count
  | _ => s.ppsFrom k ((at_.toNat + (tSec - 1)) / tSec)

/-- The number of the firing after firing `j`. -/
def State.nextFiring (s : State) (k j : Nat) : Nat :=
  if s.get .MRK_CFG_PATTERN k = 3 then s.ppsFrom k (j + 1) else j + 1

/-- R55: whether a marker is scheduled: armed with a firing still due. -/
def State.markerScheduled (s : State) (k : Nat) : Bool :=
  let m := s.marker k
  m.armed && (match m.next with
    | some j => (s.firingTime k j).isSome
    | none => false)

/-- R315: whether the configuration refuses an arm. -/
def State.markerBad (s : State) (k : Nat) : Bool :=
  let width := s.get .MRK_WIDTH_STEPS k
  let period := s.get .MRK_PERIOD_STEPS k
  let count := s.get .MRK_BURST_COUNT k
  let gap := s.get .MRK_BURST_SPACING k
  decide (width < 16) || (match s.get .MRK_CFG_PATTERN k with
    | 0 => false
    | 1 => decide (period < width + 16)
    | 2 => decide (count = 0) || decide (gap < width + 16) || decide (period < (count - 1) * gap + width + 16)
    | _ => decide (s.get .MRK_CFG_DIV k = 0) || decide (10000000 ≤ bits (s.get .MRK_START_TIME k) 8 24))

/-- R317, R53, R471: the loop-back of an armed marker starts taking edges once the time is valid and its buffer has room for
the anchor and nothing owed. -/
def State.startLoop (s : State) (k : Nat) : State :=
  let r := s.src (160 + k)
  if (s.marker k).armed && s.flag .MRK_CFG_LOOP k && s.time.valid && !r.taking && r.owed.isEmpty && r.room 2 then
    s.startTaking (160 + k) (s.nextBound (160 + k))
  else s

/-- R316: arms a marker at once. -/
def State.armMarker (s : State) (k : Nat) : State :=
  let m := s.marker k
  if m.armed then s
  else
    let at_ := s.tick
    let late := s.get .MRK_CFG_PATTERN k = 0 ∧ s.time.valid = true ∧ s.markerT0 k < at_
    let s := s.setMarker k { m with
      armed := true, armAt := at_, ending := false, last := false, next := if late then none else some (s.firstFiring k at_) }
    let s := if late then s.count .MRK_MISSED_COUNT k else s
    s.startLoop k

/-- R321: whether the next scheduled rising edge lies in the coarse period of the present instant. -/
def State.firesNow (s : State) (k : Nat) : Bool :=
  match (s.marker k).next with
  | none => false
  | some j => (match s.firingTime k j with
    | none => false
    | some x => s.time.valid && decide (s.tick / 2048 = x / 2048))

/-- R316, R321: ends the schedule; a pulse in progress completes, and one whose rising edge falls in the cycle of the disarm
is the last of the schedule. -/
def State.disarmMarker (s : State) (k : Nat) : State :=
  let m := s.marker k
  if m.armed then
    let last := s.firesNow k
    let s := s.setMarker k { m with armed := false, next := if last then m.next else none, last := last, ending := m.ball || last }
    if m.ball || last then s else s.endMarker k
  else s

/-- R320: the releases under NEXT at a scheduled firing of marker `k`, before the firing. -/
def State.releaseNext (s : State) (k : Nat) : State :=
  let m := s.marker k
  let s := if s.get .MRK_CFG_LATCH k = 2 ∧ m.lines = 0 then s.setMarker k { m with latch := false } else s
  (List.range 16).foldl (fun s i =>
    let o := s.trip i
    if s.get .TRIP_CFG_LATCH i = 2 ∧ s.get .TRIP_CFG_REL_MK i = k ∧ o.lines = 0 then
      s.setTrip i { o with latch := false }
    else s) s

/-- R314, R321: the marker rises, or the pulse is suppressed; within 100 ps of a trip either outcome of R321, by a free
value. -/
def State.pulse (s : State) (k bin : Nat) (at_ : Int) : State :=
  let m := s.marker k
  let width := s.get .MRK_WIDTH_STEPS k * 64
  let s := s.count .MRK_FIRED_COUNT k
  if s.markerTripped k then
    let (v, s) := s.free
    let race := match m.tripAt with
      | some x => decide (s.now - x ≤ 100 * 16384)
      | none => false
    if race && v % 2 == 1 then
      ((s.loopEdge k true bin).loopEdge k false ((bin + 1) % 2048)).count .MRK_TRUNCATED_COUNT k
    else s.count .MRK_SUPPRESSED_COUNT k
  else
    (s.setMarker k { m with ball := true, high := some (at_ + width) }).loopEdge k true bin

/-- R316: what a firing that falls due does, and the time of the marker event it delivers: skipped firings deliver
none. -/
def State.fire (s : State) (k bin : Nat) : Option Int × State :=
  let m := s.marker k
  match m.next with
  | none => (none, s)
  | some j =>
    match s.firingTime k j with
    | none => (none, s)
    | some at_ =>
      if (m.armed ∨ m.last = true) ∧ s.time.valid = true ∧ s.instOf at_ ≤ s.now then
        let s := s.setMarker k { m with next := if m.last then none else some (s.nextFiring k j), last := false }
        let (sent, s) := if at_ < m.armAt + 5242880 ∨ at_ < s.time.validAt ∨ s.time.halted = true then
            (none, s.count .MRK_MISSED_COUNT k)
          else (some at_, (s.releaseNext k).pulse k bin at_)
        (sent, if m.last && !(s.marker k).ball then s.endMarker k else s)
      else (none, s)

/-- R314: the falling edge, WIDTH steps after the rising edge. -/
def State.fall (s : State) (k bin : Nat) : State :=
  let m := s.marker k
  match m.high with
  | some e =>
    if s.instOf e ≤ s.now then
      let s := (s.setMarker k { m with ball := false, high := none }).loopEdge k false bin
      if m.ending then s.endMarker k else s
    else s
  | none => s

end Sys2Proof.Machine
end

