-- ==== Sys2Proof/Machine/Tasks.lean ====
section
/-!
DEFINITION. The queues and the costs of the governor (R89, R92-R94): what an arm queues, what a disarm withdraws, and
what is committed. Costs are counted in 0.1 mW.
-/

namespace Sys2Proof.Machine

/-- The island of a timing channel (R21). -/
def islandOf (n : Nat) : Nat := n / 18

/-- R348: the lanes assigned to a link: lanes of Borgor quads whose configuration has been written (log entry 20). -/
def State.linkLanes (s : State) (b : Nat) : List Nat :=
  (List.range 64).filter fun l =>
    (s.lane l).cfg && s.get .LNK_QUAD_CFG_RATE (l / 4) != 2 && s.get .LNK_LANE_CFG_LINK l == b

/-- R377: the assigned lanes that are not RETIRED. -/
def State.linkWorking (s : State) (b : Nat) : List Nat := (s.linkLanes b).filter fun l => (s.lane l).state != 8

/-- R94: the cost of a task by the cost table in force. -/
def State.costOf (s : State) : Subject → Nat
  | .base => s.inForce .PWR_COST_COST 0
  | .wake _ _ => s.inForce .PWR_COST_COST 1
  | .island _ => s.inForce .PWR_COST_COST 1
  | .chan _ => s.inForce .PWR_COST_COST 2
  | .wave _ => s.inForce .PWR_COST_COST 3
  | .ctx n => s.inForce .PWR_COST_COST (4 + s.get .MC_CFG_STAB n)
  | .acq _ => s.inForce .PWR_COST_COST 6
  | .link b => s.inForce .PWR_COST_COST 7 * (s.linkWorking b).length
  | .lane _ => s.inForce .PWR_COST_COST 7

/-- The queue of a class: 0 guard, 1 system, 2 survey. -/
def Gov.queue (g : Gov) (cls : Nat) : List Task := if cls = 0 then g.guardQ else if cls = 1 then g.sysQ else g.survQ

def Gov.setQueue (g : Gov) (cls : Nat) (q : List Task) : Gov :=
  if cls = 0 then { g with guardQ := q } else if cls = 1 then { g with sysQ := q } else { g with survQ := q }

/-- Whether a task of a subject is queued. -/
def State.queued (s : State) (x : Subject) : Bool :=
  (s.gov.guardQ ++ s.gov.sysQ ++ s.gov.survQ).any fun t => decide (t.subj = x)

/-- Queues a task of a class at its write. -/
def State.submit (s : State) (cls : Nat) (x : Subject) : State :=
  { s with gov := s.gov.setQueue cls (s.gov.queue cls ++ [{ subj := x, at_ := s.now }]) }

/-- R43: withdraws the tasks of a subject. -/
def State.withdraw (s : State) (x : Subject) : State :=
  let keep := fun q : List Task => q.filter fun t => decide (t.subj ≠ x)
  { s with gov := { s.gov with guardQ := keep s.gov.guardQ, sysQ := keep s.gov.sysQ, survQ := keep s.gov.survQ } }

/-- R43, R90: a disarm withdraws the tasks of a subject. A tick of the same AOCLK cycle still examines them. -/
def State.retract (s : State) (x : Subject) : State :=
  let of (cls : Nat) : List (Nat × Task) := ((s.gov.queue cls).filter fun t => decide (t.subj = x)).map fun t => (cls, t)
  let gone := (s.gov.gone.filter fun y => aoCycle y.1 == aoCycle s.now) ++ ((of 0 ++ of 1 ++ of 2).map fun y => (s.now, y))
  ({ s with gov := { s.gov with gone := gone } } : State).withdraw x

/-- R89: whether a host arm, or the enabling of a monitor, needs a wake of an island: it is in SLEEP or OFF and no wake
of it is under way. -/
def State.needsWake (s : State) (k : Nat) : Bool :=
  decide (2 ≤ (s.island k).state) && (s.island k).wakeAt.isNone

/-- R89: queues the wake that a channel needs, in a class, unless one of that class is pending. -/
def State.queueWake (s : State) (k cls : Nat) : State :=
  if s.needsWake k && !s.queued (.wake k cls) then s.submit cls (.wake k cls) else s

/-- R93: the guard costs committed and pending. -/
def State.guardCosts (s : State) : Nat :=
  ((s.gov.held.filter (·.guard)).map (·.cost)).sum + (s.gov.guardQ.map fun t => s.costOf t.subj).sum

/-- R93: whether a further guard cost would go beyond the slice. -/
def State.overSlice (s : State) (cost : Nat) : Bool :=
  decide (s.get .PWR_GUARD_SLICE_MW * 10 < s.guardCosts + cost)

/-- The cost of the guard wake that a channel's island needs. -/
def State.wakeCost (s : State) (k : Nat) : Nat :=
  if s.needsWake k && !s.queued (.wake k 0) then s.costOf (.wake k 0) else 0

/-- R94: the cost of a subject is released at the first tick after it stops. -/
def State.releaseCost (s : State) (x : Subject) : State := { s with gov := { s.gov with ended := { subj := x, at_ := s.now } :: s.gov.ended } }

/-- R88: a row of R88 has held for an island until now. -/
def State.touchIsland (s : State) (k : Nat) : State := s.setIsland k { s.island k with unused := s.now }

/-- Commits the cost of an admitted subject. -/
def State.commitCost (s : State) (x : Subject) (cost : Nat) (guard : Bool) : State :=
  { s with gov := { s.gov with
    held := { subj := x, cost := cost, guard := guard } :: (s.gov.held.filter fun c => decide (c.subj ≠ x))
    ended := s.gov.ended.filter fun y => decide (y.subj ≠ x) } }

end Sys2Proof.Machine
end

