-- ==== Sys2Proof/Machine/Engines.lean ====
section
/-!
DEFINITION. Measurement contexts and engines (chapter 8): gates, updates, the values of a gate, results, publication,
stability accumulators and moves.
-/

namespace Sys2Proof.Machine

/-! ## Configuration -/

/-- The configuration of a context (R221, R223, R224). -/
structure McCfg where
  typ : Nat
  gmode : Nat
  stab : Bool
  ring : Bool
  ea : Nat
  eb : Nat
  ge : Nat
  wpol : Bool
  near : Bool
  gn : Nat
  sa : Nat
  sb : Nat
  sg : Nat
  da : Nat
  db : Nat
  deriving DecidableEq, Repr

def State.mcf (s : State) (n : Nat) : McCfg :=
  { typ := s.get .MC_CFG_TYPE n, gmode := s.get .MC_CFG_GMODE n, stab := s.flag .MC_CFG_STAB n,
    ring := s.flag .MC_CFG_RING n, ea := s.get .MC_CFG_EDGE_A n, eb := s.get .MC_CFG_EDGE_B n,
    ge := s.get .MC_CFG_GATE_EDGE n, wpol := s.flag .MC_CFG_WIDTH_POL n, near := s.flag .MC_CFG_INT_MODE n,
    gn := s.get .MC_CFG_GATE_N n, sa := s.get .MC_SRC_SRC_A n, sb := s.get .MC_SRC_SRC_B n,
    sg := s.get .MC_SRC_SRC_G n, da := s.get .MC_SRC_DIV_A n, db := s.get .MC_SRC_DIV_B n }

/-- INTERVAL and PHASE use a second source (R223). -/
def McCfg.two (f : McCfg) : Bool := f.typ == 4 || f.typ == 5

/-- The roles (A = 1, B = 2, G = 4) that a source plays. -/
def McCfg.roles (f : McCfg) (k : Nat) : Nat :=
  b2n (f.sa == k) + 2 * b2n (f.two && f.sb == k) + 4 * b2n (f.gmode == 1 && f.sg == k)

/-- The sources a context uses. -/
def McCfg.sources (f : McCfg) : List Nat :=
  [f.sa] ++ (if f.two then [f.sb] else []) ++ (if f.gmode = 1 then [f.sg] else [])

/-- R225: the gate length of a FRAME context. -/
def State.gateLen (s : State) (n : Nat) : Nat := (s.mcf n).gn * s.frameTicks

/-- R225: whether a gate length divides 1 s or is a whole number of seconds from 2 to 16. -/
def goodGate (g : Nat) : Bool :=
  decide (0 < g) && (decide (tSec % g = 0) || (decide (g % tSec = 0) && decide (2 ≤ g / tSec) && decide (g / tSec ≤ 16)))

/-- The first multiple of `g` after a time. -/
def nextMultiple (t : Int) (g : Nat) : Int := (t / g + 1) * g

/-- R219, R247: the engine that serves a context. -/
def State.engineOf (s : State) (n : Nat) : Nat := (s.ctx n).engine.getD (n % 24)

/-- R227: the SLIDING context, armed or pending, that holds a slot. -/
def State.reservedBy (s : State) (n : Nat) : Bool :=
  let h := n / 4 * 4
  n != h && ((s.ctx h).armed || (s.ctx h).pend) && s.get .MC_CFG_GMODE h == 2

/-- R221: the armed or pending contexts that name a source. -/
def State.feeds (s : State) (k : Nat) : Nat :=
  (s.ctxs.filter fun x => (x.2.armed || x.2.pend) && (s.mcf x.1).roles k != 0).length

/-- The free stability slots (MC_STAB_FREE). -/
def State.stabFree (s : State) : Nat := 1024 - (s.stabs.filter fun x => x.2.owner.isSome).length

/-- R220, R92: a context is guard only when every source it names is guard. -/
def State.ctxGuard (s : State) (n : Nat) : Bool := (s.mcf n).sources.all fun k => s.srcGuard k

/-- R221, R223-R227, R239: whether the configuration refuses an arm. -/
def State.contextBad (s : State) (n : Nat) : Bool :=
  let f := s.mcf n
  decide (7 ≤ f.typ) || decide (f.gmode = 3) || f.sources.any (fun k => decide (0xC2 ≤ k)) ||
    (match f.typ with
     | 0 | 1 => !(f.ea == 1 || f.ea == 2)
     | 2 | 3 => f.ea != 0
     | 4 => f.ea == 3 || f.eb == 3
     | 5 => !((f.ea == 1 || f.ea == 2) && (f.eb == 1 || f.eb == 2))
     | _ => f.ea == 3) ||
    ((f.da != 0 || f.db != 0) && !(f.typ == 0 || f.typ == 5)) ||
    (f.gmode == 0 && !goodGate (s.gateLen n)) ||
    (f.gmode == 1 && (f.gn == 0 || !(f.ge == 1 || f.ge == 2))) ||
    (f.gmode == 2 && (decide (f.gn < 2) || decide (16 < f.gn) || f.typ == 5 || n % 4 != 0 ||
      [1, 2, 3].any fun i => (s.ctx (n + i)).armed || (s.ctx (n + i)).pend)) ||
    (f.stab && (!(f.typ == 4 || f.typ == 5) || f.gmode != 0 || s.stabFree == 0)) ||
    f.sources.any fun k => decide (8 ≤ s.feeds k)

/-! ## Gates -/

/-- Adds what gates over an interval take over. -/
def Ctx.note (c : Ctx) (x : Note) : Ctx := { c with notes := c.notes ++ [x] }

/-- Opens a gate at a time; `live` says whether a source is taking edges. -/
def Ctx.openGate (c : Ctx) (t : Int) (closes : Option Int) (code : Nat) (live : Bool) : Ctx :=
  let c := { c with gate := some { opened := t, closes := closes, code := code }, waits := false }
  if live then c.note { from_ := t, til := t, took := true } else c

/-- Closes the open gate at a time. A gate shorter than `nominal`, or closed before its scheduled close, is SHORT; one
that would be empty is not a gate (log entry 21). With `keep` above 0 the closed frame stays part of the next gates of a
sliding context (R227). -/
def Ctx.shutGate (c : Ctx) (t : Int) (code : Nat) (nominal : Int) (keep : Nat) : Ctx :=
  match c.gate with
  | none => c
  | some g =>
    if t ≤ g.opened then { c with gate := none }
    else
      let opened := c.frames.headD g.opened
      let early := match g.closes with
        | some x => decide (t < x)
        | none => false
      let short := early || decide (t - opened < nominal)
      let done := { g with
        opened := opened, shut := t, code := max (max g.code code) (if short then cShort else 0)
        moved := c.move.isSome && !c.moving }
      let frames := c.frames ++ [g.opened]
      { c with
        gate := none, closed := c.closed ++ [done], moving := c.moving || c.move.isSome
        frames := frames.drop (frames.length - (keep - 1)) }

/-- The nominal length of the gates of a context: 0 in EDGE mode. -/
def State.nominal (s : State) (n : Nat) : Int :=
  let f := s.mcf n
  if f.gmode = 1 then 0 else s.gateLen n

/-- How many frames a sliding gate covers. -/
def McCfg.keep (f : McCfg) : Nat := if f.gmode = 2 then f.gn else 0

/-- R41, R230: whether the subsystem of a source has failed: its converter link, or the IS8 timebase. -/
def State.sourceFailed (s : State) (k : Nat) : Bool :=
  if k < 144 then false
  else if k < 160 then (s.wave (s.get .WCH_SOURCE_CHAIN (k - 144))).outage
  else s.time.halted

/-- Whether a source of a context is taking edges. -/
def State.ctxLive (s : State) (n : Nat) : Bool :=
  (s.mcf n).sources.any fun k => (s.src k).taking && !s.sourceFailed k

/-- Opens a gate of a context at a time, with its scheduled close (R225-R227). -/
def State.openAt (s : State) (n : Nat) (t : Int) (code : Nat := 0) : State :=
  let f := s.mcf n
  let closes : Option Int := match f.gmode with
    | 0 => some (nextMultiple t (s.gateLen n))
    | 1 => none
    | _ => some (nextMultiple t s.frameTicks)
  s.setCtx n ((s.ctx n).openGate t closes code (s.ctxLive n))

/-- Closes the open gate of a context at a time with a code from an event. -/
def State.shutAt (s : State) (n : Nat) (t : Int) (code : Nat := 0) : State :=
  s.setCtx n ((s.ctx n).shutGate t code (s.nominal n) (s.mcf n).keep)

/-- R228: the closed gates of a sliding context after an anchor at a time: a gate that contains it ends there, and with
`renew` the frames before it count as empty. -/
def cutSliding (t : Int) (code : Nat) (renew hit : Bool) : List Gate → List Gate
  | [] => []
  | g :: r =>
    if t ≤ g.opened then (if renew then [g] else []) ++ cutSliding t code renew hit r
    else if g.shut ≤ t then g :: cutSliding t code renew hit r
    else
      (if hit then [] else [{ g with shut := t, code := max g.code code }]) ++
        (if renew then [{ g with opened := t, code := max g.code cShort, moved := false }] else []) ++
        cutSliding t code renew true r

/-- R228: the openings of the earlier frames of a sliding gate that opened at `o`, the time before `t` counting as empty. -/
def cutFrames (t o : Int) (frames : List Int) : List Int :=
  let after := frames.filter fun x => decide (t ≤ x)
  if (frames.any fun x => decide (x < t)) && decide (t < after.headD o) then t :: after else after

/-- R228: an anchor of a source at a time: the gate that contains it ends there with `code`; with `renew` a gate opens
there. Closed gates that are not published yet are judged by their times; a sliding context starts over. -/
def State.cutGates (s : State) (n : Nat) (t : Int) (code : Nat) (renew : Bool) : State :=
  let f := s.mcf n
  let c := s.ctx n
  let closed := if f.gmode = 2 then cutSliding t code renew false c.closed else c.closed.flatMap fun g =>
    if g.opened < t ∧ t < g.shut then
      { g with shut := t, code := max g.code code } ::
        (if renew then [{ g with opened := t, code := cShort, moved := false }] else [])
    else if !renew && decide (t ≤ g.opened) then []
    else [g]
  let s := s.setCtx n { c with closed := closed }
  let late := match c.gate with
    | some g => decide (t ≤ g.opened)
    | none => false
  if renew then
    if late then s.setCtx n { s.ctx n with frames := cutFrames t ((c.gate.map (·.opened)).getD t) c.frames }
    else if f.gmode = 1 && !(c.gate.isSome || c.waits) then s
    else
      let s := s.shutAt n t code
      let s := s.setCtx n { s.ctx n with frames := [], waits := false }
      if f.gmode = 1 then (if (s.src f.sg).taking then s.openAt n t cShort else s) else s.openAt n t
  else
    let s := s.shutAt n t code
    s.setCtx n { s.ctx n with frames := [], waits := true }

/-- R224-R227: a frame boundary closes and opens the gates of a FRAME or SLIDING context. -/
def State.frameGate (s : State) (n : Nat) (t : Int) : State :=
  let f := s.mcf n
  let c := s.ctx n
  if !c.armed || f.gmode == 1 then s
  else
    let step : Nat := if f.gmode = 0 then s.gateLen n else s.frameTicks
    match c.gate with
    | some g =>
      match g.closes with
      | some x => if x ≤ t then ((s.shutAt n x).openAt n x) else s
      | none => s
    | none => if c.waits = false ∧ c.admitAt ≤ s.instOf t ∧ t % step = 0 then s.openAt n t else s

/-- R226: a selected edge of SRC_G: the first gate opens at the first one after the admission. -/
def State.gateEdge (s : State) (n : Nat) (t : Int) : State :=
  let f := s.mcf n
  let c := s.ctx n
  match c.gate with
  | none => if c.waits || decide (t ≤ s.ticksAt c.admitAt) then s else s.openAt n t
  | some g =>
    if f.gn ≤ g.edges + 1 then (s.shutAt n t).openAt n t
    else s.setCtx n { c with gate := some { g with edges := g.edges + 1 } }

/-! ## Updates -/

/-- R222, R233, R237, R238: an edge as A or B: its run, and its index, which PHASE takes after the prescaler. -/
def Ctx.takeEdge (c : Ctx) (b : Bool) (e : CEdge) (div : Nat) : Ctx :=
  let raw := if b then c.rawB else c.rawA
  let fresh := match raw with
    | some (r, i) => decide (r ≠ e.run) || decide (e.idx ≤ i)
    | none => false
  if b then
    let run := c.runB + b2n fresh
    { c with bs := c.bs ++ [{ e with idx := e.idx / 2 ^ div, run := run }], rawB := some (e.run, e.idx), runB := run }
  else
    let run := c.runA + b2n fresh
    { c with as_ := c.as_ ++ [{ e with idx := e.idx / 2 ^ div, run := run }], rawA := some (e.run, e.idx), runA := run }

/-- R229: a break of A or B at a time. -/
def Ctx.breakAt (c : Ctx) (roles : Nat) (t : Int) : Ctx :=
  { c with
    brkA := if bit roles 0 then c.brkA ++ [t] else c.brkA
    brkB := if bit roles 1 then c.brkB ++ [t] else c.brkB }

/-- R231: the flags of a governing anchor by its QUAL and that of the anchor of the source before it. -/
def qualFlags (before : Option Nat) (qual : Nat) : Nat :=
  (if bit qual 3 then fHoldover else 0) |||
    (match before with
     | some q => if q ≠ qual then fQual else 0
     | none => 0)

/-- An update reaches the state of its context (R222, R228, R229, R231, R235). -/
def State.applyUpd (s : State) (n : Nat) (u : Upd) : State :=
  let f := s.mcf n
  let c := s.ctx n
  if !c.armed then s
  else match u with
  | .edge roles e est =>
    if est then s.setCtx n (c.note { from_ := e.time, til := e.time, flags := fEst })
    else
      let s := if bit roles 2 then s.gateEdge n e.time else s
      let c := s.ctx n
      let c := if bit roles 0 then c.takeEdge false e (if f.typ = 5 then f.da else 0) else c
      s.setCtx n (if bit roles 1 then c.takeEdge true e f.db else c)
  | .mark roles t rise fall =>
    let lost := if bit roles 0 then
        (if selects f.ea true then rise else 0) + (if selects f.ea false then fall else 0)
      else 0
    s.setCtx n { c.note { from_ := t, til := t, lost := lost } with
      ovfs := (roles, t) :: c.ovfs.filter fun x => x.1 != roles }
  | .settle _ t => s.setCtx n (c.note { from_ := t, til := t, flags := fSettle })
  | .anchor roles reason t fl pre =>
    let c := c.note { from_ := t, til := t, flags := fl, took := reason != rDisarm }
    let c := match c.ovfs.find? fun x => x.1 == roles with
      | some x => { (c.note { from_ := x.2, til := t, flags := fLost }).breakAt roles t with
                    ovfs := c.ovfs.filter fun x => x.1 != roles }
      | none => c
    let ab := bit roles 0 || bit roles 1
    if reason = rDisarm then
      let s := s.setCtx n (c.breakAt roles t)
      -- R216: the gate that a preempted window fed is discarded
      let code := if pre then cDiscarded else cShort
      if ab then s.cutGates n t code false else s.shutAt n t code
    else if reason = rArm then
      let s := s.setCtx n (c.breakAt roles t)
      if ab then s.cutGates n t cShort true else s
    else if reason = rRejoin then
      let s := s.setCtx n c
      if ab then s.cutGates n t cShort true else s
    else if reason = rRestart then
      let s := s.setCtx n c
      if ab then s.cutGates n t cDiscarded true else s
    else s.setCtx n c

/-- R246: the fabric offers an update to the engine of a context: it waits in the queue, or is dropped at a full one. -/
def State.offerUpd (s : State) (n : Nat) (u : Upd) : State :=
  let c := s.ctx n
  let e := if c.moving then c.move.getD (s.engineOf n) else s.engineOf n
  let q := s.engine e
  if q.queue.length < 8192 then s.setEngine e { q with queue := q.queue ++ [(n, u)] }
  else
    let t := match u with
      | .edge _ x _ => x.time
      | .anchor _ _ t _ _ => t
      | .mark _ t _ _ => t
      | .settle _ t => t
    let s := s.setCtx n (c.note { from_ := t, til := t, flags := fMissed, missed := 1 })
    ((s.count .MC_ENG_DROPS_COUNT e).count .MC_DROPS_COUNT).raise .MC_EVENT_DROP

/-- R247: the old engine applies what its queue holds for a context. -/
def State.drainCtx (s : State) (n : Nat) : State :=
  let e := s.engineOf n
  let q := s.engine e
  let mine := q.queue.filter fun x => x.1 == n
  let s := s.setEngine e { q with queue := q.queue.filter (fun x => x.1 != n), applied := q.applied + mine.length }
  mine.foldl (fun s x => s.applyUpd n x.2) s

/-! ## The values of a gate -/

/-- A value: its starting edge, the difference, the high time of a cycle, and the flags of the edges used. -/
structure Val where
  start : Int
  v     : Int
  w     : Int := 0
  fl    : Nat := 0
  deriving DecidableEq, Repr

/-- What becomes of a starting edge: a value, an orphan (R229), or an edge that still waits for its partner, with the
value that stands if none comes. -/
inductive Pairing where
  | value (v : Val)
  | orphan (start : Int)
  | waits (start : Int) (now : Option Val)
  deriving DecidableEq, Repr

def Pairing.start : Pairing → Int
  | .value v => v.start
  | .orphan t => t
  | .waits t _ => t

/-- Whether a break lies between two edges, or after one. -/
def crosses (brk : List Int) (a b : Int) : Bool := brk.any fun t => decide (a < t) && decide (t ≤ b)
def brokenAfter (brk : List Int) (a : Int) : Bool := brk.any fun t => decide (a < t)

/-- What becomes of a starting edge that has no partner yet. -/
def unpaired (brk : List Int) (a : Int) : Pairing := if brokenAfter brk a then .orphan a else .waits a none

/-- R234: PERIOD, and WIDTH when only edges of one polarity start a value. -/
def chainPairs (brk : List Int) (starts : CEdge → Bool) : List CEdge → List Pairing
  | [] => []
  | [e] => if starts e then [unpaired brk e.time] else []
  | e :: f :: r =>
    let rest := chainPairs brk starts (f :: r)
    if starts e then
      (if crosses brk e.time f.time then .orphan e.time
       else .value { start := e.time, v := f.time - e.time, fl := e.fl ||| f.fl }) :: rest
    else rest

/-- R234: the cycles of DUTY. -/
def dutyPairs (brk : List Int) : List CEdge → List Pairing
  | [] => []
  | e :: r =>
    let rest := dutyPairs brk r
    if !e.pol then rest
    else match r with
      | [] => unpaired brk e.time :: rest
      | f :: r' =>
        if f.pol then .orphan e.time :: rest
        else match r'.find? (·.pol) with
          | none => unpaired brk e.time :: rest
          | some g =>
            (if crosses brk e.time g.time then .orphan e.time
             else .value { start := e.time, v := g.time - e.time, w := f.time - e.time,
                           fl := e.fl ||| f.fl ||| g.fl }) :: rest

/-- R234: INTERVAL, START_STOP: an A edge followed by another before any B edge is an orphan. -/
def stopPairs (brk : List Int) (bs : List CEdge) : List CEdge → List Pairing
  | [] => []
  | a :: r =>
    (match bs.find? fun b => decide (a.time ≤ b.time) with
     | none => if r.isEmpty then unpaired brk a.time else .orphan a.time
     | some b =>
       if r.any (fun x => decide (x.time < b.time)) || crosses brk a.time b.time then .orphan a.time
       else .value { start := a.time, v := b.time - a.time, fl := a.fl ||| b.fl }) :: stopPairs brk bs r

/-- R234: INTERVAL, NEAREST. -/
def nearPairs (brk : List Int) (bs : List CEdge) : List CEdge → List Pairing
  | [] => []
  | a :: r =>
    let mk := fun b : CEdge => ({ start := a.time, v := b.time - a.time, fl := a.fl ||| b.fl } : Val)
    let prev := (bs.filter fun b => decide (b.time ≤ a.time) && !crosses brk b.time a.time).getLast?
    let next := bs.find? fun b => decide (a.time < b.time)
    (match prev, next with
     | p, some b =>
       if crosses brk a.time b.time then (match p with
         | some x => .value (mk x)
         | none => .orphan a.time)
       else (match p with
         | some x => if a.time - x.time ≤ b.time - a.time then .value (mk x) else .value (mk b)
         | none => .value (mk b))
     | some x, none => if brokenAfter brk a.time then .value (mk x) else .waits a.time (some (mk x))
     | none, none => unpaired brk a.time) :: nearPairs brk bs r

/-- The values that the listed edges of a context give (R229, R234). -/
def Ctx.pairs (c : Ctx) (f : McCfg) : List Pairing :=
  match f.typ with
  | 1 => chainPairs c.brkA (fun _ => true) c.as_
  | 2 => chainPairs c.brkA (fun e => e.pol == !f.wpol) c.as_
  | 3 => dutyPairs c.brkA c.as_
  | 4 => if f.near then nearPairs (c.brkA ++ c.brkB) c.bs c.as_ else stopPairs (c.brkA ++ c.brkB) c.bs c.as_
  | _ => []

/-! ## Phase -/

/-- One phase formed (R237): the A edge, the phase before its integer part is placed, and the run of B. -/
structure Phase where
  a    : CEdge
  raw  : Frac
  runB : Nat
  fl   : Nat
  deriving DecidableEq, Repr

/-- R237: the phase of an A edge once the B edge after it has arrived. -/
def phaseOf (brk : List Int) (bs : List CEdge) (a : CEdge) : Option Phase :=
  match (bs.filter fun b => decide (b.time ≤ a.time)).getLast?, bs.find? (fun b => decide (a.time < b.time)) with
  | some r, some r' =>
    if r.run = r'.run ∧ r'.idx = r.idx + 1 ∧ crosses brk r.time r'.time = false then
      some { a := a, raw := Frac.add (Frac.ofInt ((r.idx : Int) - a.idx)) ⟨a.time - r.time, (r'.time - r.time).toNat⟩,
             runB := r.run, fl := a.fl ||| r.fl ||| r'.fl }
    else none
  | _, _ => none

/-- A phase with its integer part: the time, the phase, and the flags. -/
structure Point where
  time : Int
  phi  : Frac
  fl   : Nat
  deriving DecidableEq, Repr

/-- R237, R238: places the integer part of one phase. -/
def placePhase (u : Option Unwrap) (sl : Option Slope) (p : Phase) : Unwrap × Nat :=
  let mk := fun off : Int =>
    let phi := p.raw.add (Frac.ofInt off)
    ({ runA := p.a.run, runB := p.runB, off := off, time := p.a.time, num := phi.num, den := phi.den } : Unwrap)
  match u with
  | none => (mk (-p.raw.floor), 0)
  | some v =>
    if v.runA = p.a.run ∧ v.runB = p.runB then (mk v.off, 0)
    else
      let gap := p.a.time - v.time
      let restart := (mk (-(p.raw.add ⟨1, 2⟩).floor), fRewound)
      match sl with
      | none => restart
      | some k =>
        if gap * k.tden ≤ 65536 * k.tnum then
          let pred := Frac.add ⟨v.num, v.den⟩ ⟨k.num * gap, k.den⟩
          (mk (pred.sub p.raw).round, fBridged)
        else restart

/-- The points that a list of phases gives, and the unwrap after them. -/
def placeAll (sl : Option Slope) : Option Unwrap → List Phase → List Point × Option Unwrap
  | u, [] => ([], u)
  | u, p :: ps =>
    let (v, fl) := placePhase u sl p
    let (pts, w) := placeAll sl (some v) ps
    ({ time := v.time, phi := ⟨v.num, v.den⟩, fl := fl ||| p.fl } :: pts, w)

/-- R237: the phase at a time, between the points that bracket it. -/
def phaseAt (pts : List Point) (t : Int) : Option Frac :=
  match (pts.filter fun p => decide (p.time ≤ t)).getLast?, pts.find? (fun p => decide (t ≤ p.time)) with
  | some l, some r =>
    if l.time = r.time then some l.phi
    else some (l.phi.add ((r.phi.sub l.phi).mul ⟨t - l.time, (r.time - l.time).toNat⟩))
  | _, _ => none

/-- R237: the mean B period over a gate, over the periods that begin in it: their length and their number. -/
def meanB (brk : List Int) (lo hi : Int) : List CEdge → Int × Nat
  | [] => (0, 0)
  | [_] => (0, 0)
  | x :: y :: r =>
    let (l, n) := meanB brk lo hi (y :: r)
    if lo ≤ x.time ∧ x.time < hi ∧ x.run = y.run ∧ crosses brk x.time y.time = false then
      (l + (y.time - x.time), n + (y.idx - x.idx))
    else (l, n)

/-! ## Results -/

/-- The result of a gate: the four fields (none: the manual states no value there), the count, whether there is enough
data (R232), the flags of the edges used, the stability sample, and for PHASE the phase at close with its slope. -/
structure Result where
  vals   : List (Option (Nat × Bool))
  n      : Nat
  enough : Bool
  fl     : Nat
  sample : Option Int := none
  close  : Option Frac := none
  slope  : Option Slope := none
  deriving DecidableEq, Repr

/-- One T-unit is 2^-20 tick (R236). -/
def tUnit : Nat := 2 ^ 20

/-- R234: mean, standard deviation, minimum and maximum of the values, in T-units. -/
def statResult (vs : List Val) : Result :=
  let n := vs.length
  let sum := (vs.map (·.v)).sum
  let sq := (vs.map fun x => x.v * x.v).sum
  let dev : Int := if n < 2 then 0 else Frac.root ⟨n * sq - sum * sum, n * (n - 1)⟩ tUnit
  let lo := vs.foldl (fun m x => min m x.v) ((vs.head?.map (·.v)).getD 0)
  let hi := vs.foldl (fun m x => max m x.v) ((vs.head?.map (·.v)).getD 0)
  { vals := [some (Frac.fieldS ⟨sum, n⟩ tUnit), some (holdS dev), some (holdS (lo * tUnit)), some (holdS (hi * tUnit))]
    n := n, enough := decide (1 ≤ n), fl := orAll (vs.map (·.fl)), sample := some (quotI sum n) }

/-- R234: the duty cycle. A cycle of no length has no ratio and is left out. -/
def dutyResult (vs : List Val) : Result :=
  let vs := vs.filter fun x => decide (0 < x.v)
  let n := vs.length
  let ratios := vs.map fun x => (⟨x.w, x.v.toNat⟩ : Frac)
  let sum := Frac.sum ratios
  let sq := Frac.sum (ratios.map fun r => r.mul r)
  let top := ((sq.mul (Frac.ofInt n)).sub (sum.mul sum))
  let dev : Int := if n < 2 then 0 else Frac.root (top.mul ⟨1, n * (n - 1)⟩) (2 ^ 32)
  let lo := ratios.foldl (fun m x => if x.le m then x else m) (ratios.headD ⟨0, 1⟩)
  let hi := ratios.foldl (fun m x => if m.le x then x else m) (ratios.headD ⟨0, 1⟩)
  let w := (vs.map (·.w)).sum
  let p := (vs.map (·.v)).sum
  { vals := [some (Frac.fieldU ⟨w, p.toNat⟩ (2 ^ 32)), some (holdU dev), some (lo.fieldU (2 ^ 32)),
             some (hi.fieldU (2 ^ 32))]
    n := n, enough := decide (1 ≤ n), fl := orAll (vs.map (·.fl)) }

/-- The sums of one run of R233, each multiplied by the number of its edges: S_κu, S_κκ and S_uu, and the run's first
sums for the intercept. -/
structure RunSums where
  n   : Nat
  ku  : Int
  kk  : Int
  uu  : Int
  su  : Int
  sk  : Int
  deriving DecidableEq, Repr

def runSums (es : List CEdge) : RunSums :=
  let t0 := (es.head?.map (·.time)).getD 0
  let k0 : Int := ((es.head?.map (·.idx)).getD 0 : Nat)
  let us := es.map fun e => e.time - t0
  let ks := es.map fun e => (e.idx : Int) - k0
  let n := es.length
  let su := us.sum
  let sk := ks.sum
  { n := n, su := su, sk := sk
    ku := n * (List.zipWith (· * ·) ks us).sum - sk * su
    kk := n * (ks.map fun k => k * k).sum - sk * sk
    uu := n * (us.map fun u => u * u).sum - su * su }

/-- The runs of a list of edges, in order. -/
def splitRuns : List CEdge → List (List CEdge)
  | [] => []
  | e :: r =>
    match splitRuns r with
    | (x :: g) :: gs => if x.run = e.run then (e :: x :: g) :: gs else [e] :: (x :: g) :: gs
    | gs => [e] :: gs

/-- R233: frequency and period by regression, one slope and an intercept for each run. -/
def freqResult (es : List CEdge) : Result :=
  let runs := (splitRuns es).map runSums
  let n := es.length
  let j := runs.length
  let ku := Frac.sum (runs.map fun r => ⟨r.ku, r.n⟩)
  let kk := Frac.sum (runs.map fun r => ⟨r.kk, r.n⟩)
  let uu := Frac.sum (runs.map fun r => ⟨r.uu, r.n⟩)
  match ku.div kk with
  | none => { vals := [none, none, none, none], n := n, enough := false, fl := orAll (es.map (·.fl)) }
  | some b =>
    let first := runs.headD { n := 1, ku := 0, kk := 0, uu := 0, su := 0, sk := 0 }
    let a := ((Frac.ofInt first.su).sub (b.mul (Frac.ofInt first.sk))).mul ⟨1, first.n⟩
    let ssr := uu.sub (b.mul ku)
    let r : Int := if n ≤ j + 1 then 0 else Frac.root (ssr.mul ⟨1, n - j - 1⟩) tUnit
    let hz := (Frac.ofInt tSec).div b
    { vals := [hz.map fun x => x.fieldU (2 ^ 32), some (b.fieldS tUnit), some (holdS r), some (a.fieldS tUnit)]
      n := n, enough := decide (2 ≤ n), fl := orAll (es.map (·.fl)) }

/-- R235: the counts of TOTAL. -/
def totalResult (es : List CEdge) (before lost : Nat) : Result :=
  { vals := [some (holdU es.length), some (holdU (before + es.length + lost : Nat)), some (holdU lost), some (0, false)]
    n := es.length, enough := true, fl := orAll (es.map (·.fl)) }

/-- R237, R232: the phase at the close of a gate; it needs a reference period that begins in the gate, with an A edge in it.
A phase that no A edges bracket, and a mean period without a B period in the
gate, are values the manual does not state. -/
def phaseResult (c : Ctx) (lo hi : Int) (pts : List Point) : Result :=
  let mine := pts.filter fun p => decide (lo ≤ p.time) && decide (p.time < hi)
  let n := mine.length
  let (len, cnt) := meanB c.brkB lo hi c.bs
  let tref : Option Frac := if cnt = 0 then none else some ⟨len, cnt⟩
  let enough := c.as_.any fun a => decide (lo ≤ a.time) && decide (a.time < hi) && (phaseOf c.brkB c.bs a).isSome &&
    match (c.bs.filter fun b => decide (b.time ≤ a.time)).getLast? with
    | some b => decide (lo ≤ b.time)
    | none => false
  let close := phaseAt pts hi
  let open_ := match c.phiOpen with
    | some (t, num, den) => if t = lo then some ⟨num, den⟩ else phaseAt pts lo
    | none => phaseAt pts lo
  let x := match close, tref with
    | some p, some t => some (p.mul t)
    | _, _ => none
  let dphi := match close, open_ with
    | some p, some q => some ((p.sub q).mul ⟨1, (hi - lo).toNat⟩)
    | _, _ => none
  let y := match dphi, tref with
    | some d, some t => some (d.mul t)
    | _, _ => none
  { vals := [close.map fun p => p.fieldS (2 ^ 32), x.map fun p => p.fieldS tUnit, tref.map fun p => p.fieldS tUnit,
             y.map fun p => p.fieldS (2 ^ 60)]
    n := n, enough := enough, fl := orAll (mine.map (·.fl)), sample := x.map fun p => quotI p.num p.den
    close := close
    slope := match dphi, tref with
      | some d, some t => some { num := d.num, den := d.den, tnum := t.num.toNat, tden := t.den }
      | _, _ => none }

/-- The points of a context: the last phase before its listed edges, and those formed since (R237, R238). -/
def Ctx.points (c : Ctx) : List Point :=
  let formed := c.as_.filterMap (phaseOf c.brkB c.bs)
  let before : List Point := match c.phase with
    | some u => [{ time := u.time, phi := ⟨u.num, u.den⟩, fl := 0 }]
    | none => []
  before ++ (placeAll c.slope c.phase formed).1

/-- What a gate takes over from the notes that overlap it. -/
def Ctx.notesIn (c : Ctx) (g : Gate) : List Note :=
  c.notes.filter fun x => decide (x.from_ < g.shut) && decide (g.opened ≤ x.til)

/-- The listed edges of A in a gate. -/
def Ctx.edgesIn (c : Ctx) (g : Gate) : List CEdge :=
  c.as_.filter fun e => decide (g.opened ≤ e.time) && decide (e.time < g.shut)

/-- The values that begin in a gate. -/
def Ctx.pairsIn (c : Ctx) (f : McCfg) (g : Gate) : List Pairing :=
  (c.pairs f).filter fun p => decide (g.opened ≤ p.start) && decide (p.start < g.shut)

/-- R242: whether a closed gate still waits for an edge it needs. -/
def Ctx.gateWaits (c : Ctx) (f : McCfg) (g : Gate) : Bool :=
  if f.typ = 5 then !(c.points.any fun p => decide (g.shut ≤ p.time))
  else (c.pairsIn f g).any fun p => match p with
    | .waits _ _ => true
    | _ => false

/-- R235: what has been counted since arm before a gate. -/
def Ctx.before (c : Ctx) (g : Gate) : Nat :=
  c.total + (c.as_.filter fun e : CEdge => decide (e.time < g.opened)).length +
    ((c.notes.filter fun x : Note => decide (x.from_ < g.opened)).map (·.lost)).sum

/-- The result of the oldest closed gate of a context. -/
def Ctx.resultOf (c : Ctx) (f : McCfg) (g : Gate) (lost : Nat) : Result :=
  let ps := c.pairsIn f g
  let vs := ps.filterMap fun p => match p with
    | .value v => some v
    | .waits _ v => v
    | .orphan _ => none
  let orphan := if ps.any (fun p => match p with
    | .orphan _ => true
    | _ => false) then fOrphan else 0
  let r := match f.typ with
    | 0 => freqResult (c.edgesIn g)
    | 3 => dutyResult vs
    | 5 => phaseResult c g.opened g.shut c.points
    | 6 => totalResult (c.edgesIn g) (c.before g) lost
    | _ => statResult vs
  { r with fl := r.fl ||| orphan }

/-! ## Stability -/

/-- The value pushed `n` pushes ago. -/
def back (ring : List Int) (n : Nat) : Int := ring.getD (n - 1) 0

/-- R240, R241: one octave takes a sample: the terms with full rings, held out when they would not fit or the counts are
full; the second result says that something was held. -/
def Octave.take (o : Octave) (k i : Nat) (x s : Int) : Octave × Bool :=
  let m := 2 ^ k
  let f := min m 4
  let d := m / f
  if i % d ≠ 0 then (o, false)
  else
    let wrap := fun w : Nat => fun z : Int => toSigned w (ofSigned w z)
    let da := x - 2 * back o.xr f + back o.xr (2 * f)
    let dm := s - 3 * back o.sr f + 3 * back o.sr (2 * f) - back o.sr (3 * f)
    let hasA := decide (2 * f ≤ o.xr.length)
    let hasM := decide (3 * f ≤ o.sr.length)
    let fitA := decide (da.natAbs < 2 ^ 47) && decide (o.na < 0xFFFFFFFF)
    let fitM := decide (dm.natAbs < 2 ^ 63) && decide (o.nm < 0xFFFFFFFF)
    let addA := hasA && fitA
    let addM := hasM && fitM
    ({ xr := (x :: o.xr).take 8, sr := (s :: o.sr).take 12
       sa := if addA then o.sa + (wrap 48 da).natAbs ^ 2 else o.sa, na := o.na + b2n addA
       sm := if addM then o.sm + (wrap 64 dm).natAbs ^ 2 else o.sm, nm := o.nm + b2n addM },
     (hasA && !fitA) || (hasM && !fitM))

/-- A sample enters every octave (R240), the sum before the first sample of a run being S_0; the second result says that
a sum was held. -/
def Stab.sample (a : Stab) (x : Int) (time flags : Nat) : Stab × Bool :=
  let sum := a.sum + x
  let i := a.i + 1
  let os := if a.octaves.length = 24 then a.octaves else List.replicate 24 {}
  let os := if a.i = 0 then os.map fun o => { o with sr := [a.sum] } else os
  let res := (List.range 24).map fun k => (os.getD k {}).take k i x sum
  let held := res.any (·.2)
  let fl := a.flags ||| flags ||| (if held then fSaturated else 0)
  ({ a with octaves := res.map (·.1), sum := sum, i := i, samples := a.samples + 1, last := time, flags := fl }, held)

/-- R239: a missing sample clears the rings and keeps the sums. -/
def Stab.gap (a : Stab) : Stab :=
  { a with octaves := a.octaves.map fun o => { o with xr := [], sr := [] }, sum := 0, i := 0 }

/-- R241: STAB_CLEAR zeroes the accumulator. -/
def Stab.clear (a : Stab) : Stab := { owner := a.owner, tau := a.tau }

/-! ## Publication -/

/-- Where a result has no stated value, a free value stands. -/
def State.settle (s : State) : List (Option (Nat × Bool)) → List (Nat × Bool) × State
  | [] => ([], s)
  | some v :: r =>
    let (l, s) := s.settle r
    (v :: l, s)
  | none :: r =>
    let (v, s) := s.free
    let (l, s) := s.settle r
    ((v % 2 ^ 64, false) :: l, s)

/-- R244: writes a block of eight words into the result ring. -/
def State.ringBlock (s : State) (words : List Nat) : State :=
  let wr := s.get .MC_RING_WR_INDEX
  let rd := s.get .MC_RING_RD_INDEX
  if (wr + 1) % 4096 = rd then (s.count .MC_RING_LOST_COUNT).raise .MC_EVENT_RING_FULL
  else
    let s := (s.writeWords (Config.ringBase + 64 * wr) words).put .MC_RING_WR_INDEX 0 ((wr + 1) % 4096)
    if (wr + 1 + 4096 - rd) % 4096 = 2048 then s.raise .MC_EVENT_RING_HALF else s

/-- Forgets what no later gate can need. -/
def Ctx.trim (c : Ctx) (keep : Int) : Ctx :=
  let old := c.as_.filter fun e => decide (e.time < keep)
  let formed := old.filterMap (phaseOf c.brkB c.bs)
  let as_ := c.as_.filter fun e => decide (keep ≤ e.time)
  let oldB := (c.bs.filter fun e => decide (e.time < keep)).getLast?.toList
  let bs := oldB ++ c.bs.filter fun e => decide (keep ≤ e.time)
  let since := (oldB.map (·.time)).foldl min keep
  { c with
    as_ := as_, bs := bs
    total := c.total + old.length + ((c.notes.filter fun x : Note => decide (x.til < keep)).map (·.lost)).sum
    phase := (placeAll c.slope c.phase formed).2
    brkA := c.brkA.filter fun t => decide (since < t), brkB := c.brkB.filter fun t => decide (since < t)
    notes := c.notes.filter fun x => decide (keep ≤ x.til) }

/-- R231, R235: whether a gate overlaps an episode of a source whose mark and anchor have not reached the engine: one in
progress, or one whose words wait in the buffers. -/
def Source.losing (r : Source) (g : Gate) : Bool :=
  (r.ovf.isSome && decide (r.gov < g.shut)) ||
    ((r.old ++ r.buf).any fun e => e.item.isOverflow && decide (e.time < g.shut) &&
      match (r.old ++ r.buf).find? fun x => x.item.isAnchor && decide (e.time ≤ x.time) with
      | some x => decide (g.opened ≤ x.time)
      | none => true)

/-- R242-R244, R239: publishes the oldest closed gate of a context. -/
def State.publishGate (s : State) (n : Nat) : State :=
  let f := s.mcf n
  let c := s.ctx n
  match c.closed with
  | [] => s
  | g :: rest =>
    let ns := c.notesIn g
    let lost := ((ns.filter fun x => decide (g.opened ≤ x.from_)).map (·.lost)).sum
    let missed := (ns.map (·.missed)).sum
    let r := c.resultOf f g lost
    let edges := !(c.edgesIn g).isEmpty
    let live := ns.any (·.took) || edges
    let fl := orAll (ns.map (·.flags)) ||| r.fl ||| (if g.moved then fMoved else 0) |||
      (if f.sources.any fun k => (s.src k).losing g then fLost else 0)
    let code := resultCode g.code (!r.enough) (!live) fl
    let blank := !r.enough || decide (code = cDiscarded) || decide (code = cNoData)
    let (vals, s) := s.settle (if blank then [some (0, false), some (0, false), some (0, false), some (0, false)] else r.vals)
    let fl := fl ||| (if vals.any (·.2) then fSaturated else 0)
    let (s, fl) := match c.slot with
      | none => (s, fl)
      | some j =>
        let a := s.stab j
        if code = cValid ∨ code = cPartial then
          let (x, s) := match r.sample with
            | some x => (x, s)
            | none =>
              let (v, s) := s.free
              (toSigned 48 v, s)
          let (a, held) := a.sample x (time64 g.shut) fl
          (s.setStab j a, fl ||| (if held then fSaturated else 0))
        else (s.setStab j a.gap, fl)
    let seq := c.seq + 1
    let words := vals.map (·.1)
    let s := (List.range 4).foldl (fun s j => s.put .MC_RESULT_VALUE (4 * n + j) (words.getD j 0)) s
    let s := s.put .MC_GATE_END_TIME n (time64 g.shut)
    let s := ((s.put .MC_VALID_CODE n code).put .MC_VALID_FLAGS n fl).put .MC_VALID_GATE_SEQ n (seq % 4096)
    let s := s.put .MC_COUNT_N n (min r.n 0xFFFFFFFF)
    let s := if f.ring then
        s.ringBlock ([n + f.typ * 2 ^ 16 + code * 2 ^ 20 + fl * 2 ^ 24 + seq % 65536 * 2 ^ 40 + 2 ^ 56,
          time64 g.opened, time64 g.shut, min r.n (2 ^ 40 - 1) + min missed (2 ^ 24 - 1) * 2 ^ 40] ++ words)
      else s
    let c := { c with
      closed := rest, seq := seq
      slope := if code = cValid ∧ f.typ = 5 then r.slope else c.slope
      phiOpen := r.close.map fun (p : Frac) => (g.shut, p.num, p.den) }
    let keep := match rest with
      | h :: _ => h.opened
      | [] => match c.gate with
        | some h => c.frames.headD h.opened
        | none => c.frames.headD g.shut
    s.setCtx n (c.trim keep)

/-- Publishes every closed gate of a context. -/
def State.publishAll (s : State) (n : Nat) : State := times (fun s => s.publishGate n) (s.ctx n).closed.length s

/-! ## Arm, disarm, moves -/

/-- R247, R444: whether an engine takes contexts: it is neither retired nor being retired, or is being returned. -/
def State.engWorks (s : State) (e : Nat) : Bool :=
  s.life.engBusy == some (e, false) || (!bit (s.get .LIFE_ENG_RETIRED_BITS) e && s.life.engBusy != some (e, true))

/-- The working engines, in ascending order. -/
def State.workEngines (s : State) : List Nat := (List.range numEngines).filter s.engWorks

/-- The engine of a context that is admitted: its home, or a working engine that the manual does not name while its home is
out of service (a free value, log entry 42). -/
def State.engineFor (s : State) (n : Nat) : Option Nat × State :=
  if s.engWorks (n % 24) then (none, s)
  else
    let (v, s) := s.free
    (some (s.workEngines.getD (v % max 1 s.workEngines.length) (n % 24)), s)

/-- The free stability slot that an admission takes: the lowest; none when contexts admitted since the arm have taken them
all (log entry 22). -/
def State.freeStab (s : State) : Option Nat := (List.range 1024).find? fun j => (s.stab j).owner.isNone

/-- A START_CONTEXT task is admitted (R220, R225, R227, R230, R239). -/
def State.admitContext (s : State) (n : Nat) : State :=
  let (eng, s) := s.engineFor n
  let c : Ctx := { armed := true, admitAt := s.now, engine := eng }
  let f := s.mcf n
  let (c, s) := match (if f.stab then s.freeStab else none) with
    | some j => ({ c with slot := some j }, s.setStab j { owner := some n, tau := s.gateLen n })
    | none => (c, s)
  let s := (s.setCtx n c).put .MC_VALID_CODE n cNoGate
  let s := s.put .MC_VALID_GATE_SEQ n 0
  let step := if f.gmode = 0 then s.gateLen n else s.frameTicks
  if f.gmode ≠ 1 ∧ s.time.valid = true ∧ s.tick % step = 0 ∧ s.now % qTick = 0 then s.openAt n s.tick else s

/-- R248: the scheduled close of the open gate of a context, if it falls in the present fabric cycle or before. -/
def State.closeNow (s : State) (n : Nat) : Option Int := match (s.ctx n).gate with
  | some g => (match g.closes with
    | some x => if fabCycle (s.instOf x) ≤ fabCycle s.now then some x else none
    | none => none)
  | none => none

/-- R220, R248: an armed context ends: its open gate closes SHORT at this instant, unless it closes in this cycle anyway, and
everything closed is published. -/
def State.endContext (s : State) (n : Nat) : State :=
  let s := s.drainCtx n
  let s := match s.closeNow n with
    | some x => s.shutAt n x
    | none => s.shutAt n s.tick cShort
  let s := s.publishAll n
  let c := s.ctx n
  let s := match c.slot with
    | some j => s.setStab j {}
    | none => s
  (s.setCtx n {}).releaseCost (.ctx n)

/-- R43, R220: the disarm of a context. -/
def State.disarmCtx (s : State) (n : Nat) : State :=
  let c := s.ctx n
  if c.pend then (s.setCtx n { c with pend := false }).retract (.ctx n)
  else if c.armed then s.endContext n
  else s

/-- R220, R221: the checks of an arm of a context, as bus errors. -/
def State.armContextError (s : State) (n : Nat) : Option Nat :=
  let guard := s.ctxGuard n
  if (s.ctx n).armed || (s.ctx n).pend then none
  else lowestCode [(s.contextBad n, eValue), (s.dev == .hold, eState),
    (guard && s.overSlice (s.costOf (.ctx n)), eBudget), (s.reservedBy n, eHeld)]

/-- Queues the task of an arm (R220). -/
def State.armCtx (s : State) (n : Nat) : State :=
  let c := s.ctx n
  if c.armed || c.pend then s
  else (s.setCtx n { c with pend := true }).submit (if s.ctxGuard n then 0 else 2) (.ctx n)

/-- R248: RESTART: the gate closes SHORT and a new one opens there. In the cycle of a gate close it has no effect. -/
def State.restartCtx (s : State) (n : Nat) : State :=
  let f := s.mcf n
  let c := s.ctx n
  match c.gate with
  | some g =>
    if c.armed ∧ fabCycle (s.instOf g.opened) < fabCycle s.now ∧ s.closeNow n = none then
      let t := s.tick
      let s := s.shutAt n t cShort
      let s := s.setCtx n { s.ctx n with frames := [] }
      s.openAt n t (if f.gmode = 1 then cShort else 0)
    else s
  | none => s

/-- R241: STAB_CLEAR. -/
def State.clearStab (s : State) (n : Nat) : State :=
  match (s.ctx n).slot with
  | some j => s.setStab j (s.stab j).clear
  | none => s

/-- R225: a new FRAME_LEN takes effect at a second boundary. -/
def State.newFrameLen (s : State) (n : Nat) (t : Int) : State :=
  let c := s.ctx n
  if !c.armed || (s.mcf n).gmode != 0 then s
  else
    let early := match c.gate with
      | some g => (match g.closes with
        | some x => decide (t < x)
        | none => false)
      | none => false
    let s := s.setCtx n (c.shutGate t (if early then cShort else 0) 0 0)
    if goodGate (s.gateLen n) then (if c.waits then s else s.openAt n t)
    else ((s.endContext n).put .MC_CTL_ARM n 0).raise .MC_EVENT_FRAME_INVALID

/-- The armed contexts. -/
def State.armedContexts (s : State) : List Nat := (s.ctxs.filter fun x => x.2.armed).map (·.1)

/-- R224, R250: what a frame boundary does to contexts and engines. -/
def State.frameContexts (s : State) (t : Int) : State :=
  let s := s.armedContexts.foldl (fun s n => s.frameGate n t) s
  let cap := max 1 (512 * s.inForce .TB_FRAME_LEN)
  (List.range 24).foldl (fun s e =>
    let q := s.engine e
    s.setEngine e { q with load := min 0xFFFF (quot (q.applied * 65536) cap), applied := 0 }) s

/-! ## The commands of the engines -/

/-- R246: engine `e` applies the update at the front of its queue. An update of a context that is on its way to the
engine waits (R247). -/
def execEngineUpdate (t e : Nat) (s : State) : Host.Outcome State Fault Refusal :=
  if e < numEngines then
    let s := s.at t
    let q := s.engine e
    match q.queue with
    | [] => .next s
    | (n, u) :: rest =>
      if !s.fabricRuns || ((s.ctx n).moving && s.engineOf n != e) then .next s
      else .next ((s.setEngine e { q with queue := rest, applied := q.applied + 1 }).applyUpd n u)
  else .fault .noSuchUnit

/-- R226: an EDGE gate still open 16 s after it opened closes at that instant with code SHORT. -/
def execGateTimeout (t n : Nat) (s : State) : Host.Outcome State Fault Refusal :=
  if n < numContexts then
    let s := s.at t
    match (s.ctx n).gate with
    | some g =>
      if s.get .MC_CFG_GMODE n = 1 ∧ s.instOf (g.opened + 16 * tSec) ≤ s.now then
        .next (s.shutAt n (g.opened + 16 * tSec) cShort)
      else .next s
    | none => .next s
  else .fault .noSuchUnit

/-- R242: the oldest closed gate is published once its last needed edge has arrived or the next gate has closed. -/
def execPublish (t n : Nat) (s : State) : Host.Outcome State Fault Refusal :=
  if n < numContexts then
    let s := s.at t
    let c := s.ctx n
    match c.closed with
    | [] => .next s
    | g :: rest =>
      if s.time.halted || (rest.isEmpty && c.gateWaits (s.mcf n) g) then .next s else .next (s.publishGate n)
  else .fault .noSuchUnit

/-- R247: the old engine drains its updates for the context, and its state passes to the new engine. -/
def execContextMove (t n : Nat) (s : State) : Host.Outcome State Fault Refusal :=
  if n < numContexts then
    let s := s.at t
    let c := s.ctx n
    match c.move with
    | some e =>
      if !s.time.halted && (c.moving || !c.armed) then
        let s := s.drainCtx n
        .next (s.setCtx n { s.ctx n with
          engine := if e = n % 24 then none else some e, move := none, moving := false })
      else .next s
    | none => .next s
  else .fault .noSuchUnit

end Sys2Proof.Machine
end

