-- ==== Sys2Proof/Machine/AddrMap.lean ====
section
/-!
DEFINITION. The fabric address map (R36, R37, R323, R443) as the units use it.
-/

namespace Sys2Proof.Machine

/-- What lies at a fabric address (R323). -/
inductive Target where
  | hbm | pool | ring | list | sram | port | none
  deriving DecidableEq, Repr

/-- The first HBM address above those in use: each pseudo-channel that is retired, or being retired, takes 512 MiB away
(R443). -/
def State.hbmTop (s : State) : Nat :=
  (64 - popBits (s.get .LIFE_PCH_RETIRED_BITS) 64 - (match s.life.pchBusy with
    | some (_, true) => 1
    | _ => 0)) * 2 ^ 29
where
  popBits (m n : Nat) : Nat := ((List.range n).filter fun i => bit m i).length

def poolBase : Nat := 0x100000000000
def listBase : Nat := 0x100005E00000
def listTop : Nat := 0x100006000000
def portBase : Nat := 0x200000000000

/-- The target at an address, and the end of its range. -/
def State.targetOf (s : State) (a : Nat) : Target × Nat :=
  if a < s.hbmTop then (.hbm, s.hbmTop)
  else if poolBase ≤ a ∧ a < poolBase + 0x4000000 then (.pool, poolBase + 0x4000000)
  else if listBase ≤ a ∧ a < listTop then (.list, listTop)
  else if portBase ≤ a ∧ a < portBase + 0x10000000000 then (.port, portBase + 0x10000000000)
  else if Config.ringBase ≤ a ∧ a < Config.ringBase + 0x40000 then (.ring, Config.ringBase + 0x40000)
  else if poolBase ≤ a ∧ a < listTop then (.sram, listTop)
  else (.none, a)

/-- A stream port address: its link and its stream (R324). -/
def portOf (a : Nat) : Nat × Nat := (bits a 36 4, bits a 30 6)

/-- Reads a 64-bit word of memory. -/
def State.readWord (s : State) (a : Nat) : Nat := s.readLe a 8

/-- Reads 64-bit words one after another. -/
def State.readWords (s : State) (a : Nat) : Nat → List Nat
  | 0 => []
  | n + 1 => s.readWord a :: s.readWords (a + 8) n

/-- Reads bytes one after another. -/
def State.readBytes (s : State) (a : Nat) : Nat → List (BitVec 8)
  | 0 => []
  | n + 1 => s.readByte a :: s.readBytes (a + 1) n

end Sys2Proof.Machine
end

