-- ==== Sys2Proof/Machine/SluiceCfg.lean ====
section
/-!
DEFINITION. What the rest of the block needs of Sluice: what a channel's addresses and configuration allow (R323, R328,
R342), its events (R335), the binding of a channel to an acquisition unit, and the completion of a held channel.
-/

namespace Sys2Proof.Machine

/-- A fault of an address as R339 numbers its causes; 0 is none. -/
def causeRange : Nat := 1
def causeAccess : Nat := 2
def causeAlign : Nat := 3
def causeDesc : Nat := 4
def causeEcc : Nat := 5
def causePort : Nat := 6

/-- R323, R324: what is wrong with an address that Sluice reads (`rd`) or writes; 0 when nothing is. -/
def State.sluFault (s : State) (a : Nat) (rd : Bool) : Nat :=
  match (s.targetOf a).1 with
  | .none => causeRange
  | .sram => causeAccess
  | .pool | .ring => if !rd then causeAccess else if a % 64 = 0 then 0 else causeAlign
  | .hbm | .list => if a % 64 = 0 then 0 else causeAlign
  | .port => if a % 2 ^ 30 = 0 then 0 else causePort

/-- Whether a stretch of memory runs past the end of its range. -/
def State.sluOver (s : State) (a len : Nat) : Bool :=
  match s.targetOf a with
  | (.port, _) => false
  | (_, top) => decide (top < a + len)

/-- Whether an address is a stream port. -/
def State.isStream (s : State) (a : Nat) : Bool := decide ((s.targetOf a).1 = .port)

/-- R345: whether the ST fields of a channel count as stopped. -/
def State.sluStopped (s : State) (c : Nat) : Bool :=
  let x := s.sl c
  (x.state == 0 || x.state == 4 || x.state == 5) && x.held.isNone

/-- R328: whether the configuration refuses GO. -/
def State.goBad (s : State) (c : Nat) : Bool :=
  let src := s.get .SLU_SRC_ADDR c
  let dst := s.get .SLU_DST_ADDR c
  let n := s.get .SLU_COUNT_BYTES c
  let free := s.get .SLU_CFG_PACE c = 0
  if s.get .SLU_CFG_MODE c = 0 then
    decide (n = 0) || decide (n % 64 ≠ 0) || s.sluFault src true != 0 || s.sluFault dst false != 0 ||
      s.sluOver src n || s.sluOver dst n || (decide free && (s.isStream src || s.isStream dst)) ||
      (s.isStream src && s.isStream dst)
  else
    let l := s.inForce .SLU_LIST_ADDR c
    let gather := s.get .SLU_CFG_LIST_DIR c = 0
    let a := if gather then dst else src
    decide (l % 16 ≠ 0) || decide (l < listBase) || decide (listTop ≤ l) ||
      s.sluFault a (decide (¬gather)) != 0 || (decide free && s.isStream a)

/-- R342: whether the configuration of a channel refuses an arm that names it. -/
def State.heldBad (s : State) (c : Nat) : Bool :=
  let dst := s.get .SLU_DST_ADDR c
  let n := s.get .SLU_COUNT_BYTES c
  let free := s.get .SLU_CFG_PACE c = 0
  if s.get .SLU_CFG_MODE c = 0 then
    if s.isStream dst then s.sluFault dst false != 0 || decide free
    else decide (n = 0) || decide (n % 64 ≠ 0) || s.sluFault dst false != 0 || s.sluOver dst n
  else
    let l := s.inForce .SLU_LIST_ADDR c
    s.get .SLU_CFG_LIST_DIR c == 0 || decide (l % 16 ≠ 0) || decide (l < listBase) || decide (listTop ≤ l)

/-- R335: sets an event of a channel, which counts in SLU_DESC. -/
def State.sluEvent (s : State) (f : Fld) (c : Nat) : State := (s.raise f c).count .SLU_DESC_EVENTS c

/-- A start clears SLU_DONE, and the transfer begins at the first word of its list or of its registers (R328, R344). -/
def State.startSlu (s : State) (c : Nat) : State :=
  let x := s.sl c
  (s.setSl c { x with state := 1, goCount := s.get .SLU_COUNT_BYTES c, half := false, desc := none, going := false,
                      ended := false, list := s.inForce .SLU_LIST_ADDR c, room := 0, recv := [], saved := [] }).put .SLU_DONE_BYTES c 0

/-- R342: a unit takes a channel at the acceptance of its arm. -/
def State.holdSlu (s : State) (c unit : Nat) : State := s.setSl c { s.sl c with held := some unit, inbox := [] }

/-- R342: a channel is released; it completes then (log entry 26). -/
def State.freeSlu (s : State) (c : Nat) (done : Bool) : State :=
  let x := s.sl c
  let ends := done && x.state == 1
  let s := s.setSl c { x with held := none, inbox := [], state := if ends then 4 else x.state }
  if ends then s.sluEvent .SLU_EVENT_DONE c else s

end Sys2Proof.Machine
end

