-- ==== Sys2Proof/Machine/Verdict.lean ====
section
/-!
DEFINITION. Verdict rules (R304-R310): what edges, breaks, assertions and mask instances make them decide, and the
verdict queues of the links.
-/

namespace Sys2Proof.Machine

/-! The outcomes of R307. -/

def vEvent : Nat := 0
def vPresent : Nat := 1
def vAbsent : Nat := 2
def vInRange : Nat := 3
def vOutRange : Nat := 4
def vPass : Nat := 5
def vFail : Nat := 6
def vLost : Nat := 7

/-- R307: the verdict word. -/
def verdictWord (rule code seq outcome detail : Nat) (time : Int) : Nat :=
  rule * 2 ^ 56 + code * 2 ^ 48 + seq % 256 * 2 ^ 40 + outcome * 2 ^ 36 + detail * 2 ^ 32 + wordOf time 0 / 2 ^ 16 % 2 ^ 32

/-- R308: a verdict enters a queue of verdicts, oldest first, each with the fabric cycle of its decision: those of one cycle
stand in ascending rule order. -/
def enterVerdict (cycle w : Nat) : List (Nat × Nat) → List (Nat × Nat)
  | [] => [(cycle, w)]
  | x :: xs => if x.1 = cycle ∧ w / 2 ^ 56 < x.2 / 2 ^ 56 then (cycle, w) :: x :: xs else x :: enterVerdict cycle w xs

/-- A verdict is dropped: it is counted for its rule (R308). -/
def State.dropVerdict (s : State) (w : Nat) : State := (s.count .VD_DROPS_COUNT (w / 2 ^ 56)).raise .VD_EVENT_DROP

/-- R305, R308: rule `v` decides a verdict: it is sent or not by SEND, queued on its link, or dropped. In a full queue the
verdicts of lower rules of the same cycle go before (R310). -/
def State.decide_ (s : State) (v outcome detail : Nat) (time : Int) : State :=
  let r := s.rule v
  let word := verdictWord v (s.get .VD_CFG_CODE v) r.seq outcome detail time
  let s := (s.setRule v { r with seq := (r.seq + 1) % 256 }).put .VD_STATUS_SEQ v r.seq
  let adverse := outcome = vAbsent ∨ outcome = vOutRange ∨ outcome = vFail ∨ outcome = vLost
  if s.get .VD_CFG_SEND v = 1 ∧ ¬adverse then s
  else
    let b := s.get .VD_CFG_LINK v
    let l := s.link b
    if l.admitted then
      let q := enterVerdict (fabCycle s.now) word l.verdicts
      let s := s.setLink b { l with verdicts := q.take 32 }
      (q.drop 32).foldl (fun s x => s.dropVerdict x.2) s
    else s.dropVerdict word

/-- The rules in use of a type. -/
def State.rulesOf (s : State) (typ : Nat) : List Nat :=
  (List.range 256).filter fun v => s.flag .VD_CFG_ENABLE v && s.get .VD_CFG_TYPE v == typ

/-- The window of a PRESENCE rule, or the range of an INTERVAL rule. -/
def State.ruleLo (s : State) (v : Nat) : Int := s.signed .VD_LO_TICKS v
def State.ruleHi (s : State) (v : Nat) : Int := s.signed .VD_HI_TICKS v

/-- DETAIL of an edge (R307). -/
def edgeDetail (fe cal late : Bool) : Nat := b2n fe + 2 * b2n cal + 4 * b2n late

/-- R306: keeps a target edge ahead of its reference. -/
def Rule.keepEdge (r : Rule) (e : KeptEdge) : Rule :=
  { r with kept := (r.kept ++ [e]).drop (r.kept.length + 1 - 16) }

/-- R263: the last coarse boundary at which the fabric has reported a source's buffer empty. -/
def State.emptyBound (s : State) (k : Nat) : Int :=
  let r := s.src k
  if r.old.isEmpty && r.buf.isEmpty then floorCoarse (s.recTick k) else r.emptyAt

/-- R299: whether a span end has passed for a source: through the edge tap 30 ns after it with the tap empty, otherwise
once a later word has been delivered and the buffer has been empty at a later coarse boundary. -/
def State.spanPassed (s : State) (k : Nat) (x : Int) : Bool :=
  if s.tapped k then decide (s.instOf x + 30 * qNs ≤ s.now) && (s.src k).tap.isEmpty
  else decide (x < (s.src k).fabLast) && decide (x < s.emptyBound k)

/-- R297, R305: whether a source was in an overflow episode, or began or stopped taking edges, in a part of a span. -/
def State.metBreak (s : State) (k : Nat) (lo hi : Int) : Bool :=
  let r := s.src k
  (decide (lo < r.start) && decide (r.start ≤ hi)) || (!r.taking && decide (lo ≤ r.gov) && decide (r.gov ≤ hi)) ||
    (match r.ovf with
     | some x => decide (x.start ≤ hi)
     | none => false) || r.gaps.any fun g => decide (g.1 ≤ hi) && decide (lo ≤ g.2)

/-- R305: R + HI of the open window of a PRESENCE rule has passed with no edge: ABSENT, or LOST when the window met a
break. -/
def State.endPresence (s : State) (v : Nat) : State :=
  let r := s.rule v
  match r.window with
  | none => s
  | some w =>
    let x := w + s.ruleHi v
    let k := s.get .VD_SRC_SRC v
    if !s.time.halted && s.flag .VD_CFG_ENABLE v && s.get .VD_CFG_TYPE v == 2 && s.spanPassed k x then
      (s.setRule v { r with window := none, lost := false }).decide_ v
        (if r.lost ∨ s.metBreak k (w + s.ruleLo v) x = true ∨ s.metBreak (s.get .VD_SRC_SRC_B v) w x = true then vLost
         else vAbsent) 0 x
    else s

/-- R306: the target edges kept for 4 µs. -/
def State.keptEdges (s : State) (v : Nat) : List KeptEdge :=
  (s.rule v).kept.filter fun e => decide (s.now < e.came + 4 * qUs)

/-- R305: an edge for a PRESENCE rule. A reference that comes once R + HI of the open window has passed opens the next window
(R310). -/
def State.presenceEdge (s : State) (v k : Nat) (t : Int) (pol : Bool) (detail : Nat) : State :=
  let s := if s.get .VD_SRC_SRC_B v = k ∧ selects (s.get .VD_CFG_EDGE_B v) pol = true then
      let s := s.endPresence v
      let r := s.rule v
      match r.window with
      | some _ => s.count .VD_DROPS_COUNT v
      | none =>
        match (s.keptEdges v).find? fun e => decide (t + s.ruleLo v ≤ e.time) && decide (e.time ≤ t + s.ruleHi v) with
        | some e =>
          (s.setRule v { r with kept := r.kept.filter fun x => decide (e.time < x.time) }).decide_ v vPresent e.detail e.time
        | none => s.setRule v { r with window := some t, lost := false }
    else s
  let r := s.rule v
  if s.get .VD_SRC_SRC v = k ∧ selects (s.get .VD_CFG_EDGE v) pol = true then
    match r.window with
    | some w =>
      if w + s.ruleLo v ≤ t ∧ t ≤ w + s.ruleHi v then
        (s.setRule v { r with window := none, lost := false }).decide_ v vPresent detail t
      else s.setRule v (r.keepEdge { time := t, came := s.now, detail := detail })
    | none => s.setRule v (r.keepEdge { time := t, came := s.now, detail := detail })
  else s

/-- R305: whether an interval lies in the range of a rule. -/
def State.rangeOutcome (s : State) (v : Nat) (d : Int) : Nat :=
  if s.ruleLo v ≤ d ∧ d ≤ s.ruleHi v then vInRange else vOutRange

/-- R305, R259: an edge for an INTERVAL rule. A pair that has met a break gives LOST and nothing else. -/
def State.intervalEdge (s : State) (v k : Nat) (t : Int) (pol : Bool) (detail : Nat) : State :=
  let r := s.rule v
  let s := if s.get .VD_SRC_SRC v = k ∧ selects (s.get .VD_CFG_EDGE v) pol = true then
      let s := match r.window with
        | some a => if r.lost then s.decide_ v vLost 0 (a + s.ruleHi v) else s
        | none => s
      let r := s.rule v
      match (s.keptEdges v).find? fun e => decide (t ≤ e.time) with
      | some e =>
        (s.setRule v { r with
          window := none, lost := false, kept := r.kept.filter fun x => decide (e.time < x.time) }).decide_ v
          (s.rangeOutcome v (e.time - t)) e.detail e.time
      | none => s.setRule v { r with window := some t, lost := false }
    else s
  let r := s.rule v
  if s.get .VD_SRC_SRC_B v = k ∧ selects (s.get .VD_CFG_EDGE_B v) pol = true then
    match r.window with
    | some a =>
      if r.lost then s
      else if a ≤ t then (s.setRule v { r with window := none }).decide_ v (s.rangeOutcome v (t - a)) detail t
      else s.setRule v (r.keepEdge { time := t, came := s.now, detail := detail })
    | none => s.setRule v (r.keepEdge { time := t, came := s.now, detail := detail })
  else s

/-- R305: an edge reaches the verdict rules. EST edges are used by no rule. -/
def State.rulesEdge (s : State) (k : Nat) (t : Int) (pol est fe cal late : Bool) : State :=
  if est then s
  else
    let d := edgeDetail fe cal late
    ((List.range 256).filter fun v => s.flag .VD_CFG_ENABLE v).foldl (fun s v =>
      match s.get .VD_CFG_TYPE v with
      | 1 => if s.get .VD_SRC_SRC v = k ∧ selects (s.get .VD_CFG_EDGE v) pol = true then s.decide_ v vEvent d t else s
      | 2 => s.presenceEdge v k t pol d
      | 3 => s.intervalEdge v k t pol d
      | _ => s) s

/-- R305: a break of a source (an overflow mark, an ARM or a DISARM anchor, or the break bit of a tapped edge) at a time
meets the windows and pairs that began before it. -/
def State.rulesBreak (s : State) (k : Nat) (t : Int) : State :=
  (s.rulesOf 2 ++ s.rulesOf 3).foldl (fun s v =>
    let r := s.rule v
    if s.get .VD_SRC_SRC v = k ∨ s.get .VD_SRC_SRC_B v = k then
      match r.window with
      | some w => if w < t then s.setRule v { r with lost := true, kept := [] } else s
      | none => s.setRule v { r with kept := r.kept.filter fun e => decide (t ≤ e.time) }
    else s) s

/-- R305: an assertion of a window monitor reaches the TRIP rules. -/
def State.rulesTrip (s : State) (n : Nat) (t : Int) : State :=
  (s.rulesOf 5).foldl (fun s v => if s.get .VD_SRC_SRC v = n then s.decide_ v vEvent 0 t else s) s

/-- R305: a decided instance of a mask unit reaches the MASK rules. -/
def State.rulesMask (s : State) (unit : Nat) (pass : Bool) (primary : Nat) (ref : Int) : State :=
  (s.rulesOf 4).foldl (fun s v =>
    if s.get .VD_SRC_UNIT v = unit then
      s.decide_ v (if pass then vPass else vFail) (if pass then 0 else primary) ref
    else s) s


/-- R305: whether a rule's configuration is outside what R305 gives. -/
def State.ruleBad (s : State) (v : Nat) : Bool :=
  let lo := s.ruleLo v
  let hi := s.ruleHi v
  match s.get .VD_CFG_TYPE v with
  | 0 | 4 => false
  | 1 => decide (0xC2 ≤ s.get .VD_SRC_SRC v)
  | 2 => decide (lo < 0) || decide (hi < lo) || decide (0xC2 ≤ s.get .VD_SRC_SRC v) || decide (0xC2 ≤ s.get .VD_SRC_SRC_B v)
  | 3 => decide (hi < lo) || decide (0xC2 ≤ s.get .VD_SRC_SRC v) || decide (0xC2 ≤ s.get .VD_SRC_SRC_B v)
  | 5 => decide (144 ≤ s.get .VD_SRC_SRC v)
  | _ => true

/-- R305: a rule is enabled or disabled: it starts with nothing, and keeps no window across a disable. -/
def State.enableRule (s : State) (v : Nat) (on : Bool) : State :=
  if on && !s.flag .VD_CFG_ENABLE v then (s.setRule v {}).put .VD_CFG_ENABLE v 1
  else if !on && s.flag .VD_CFG_ENABLE v then
    let r := s.rule v
    (s.setRule v { r with window := none, lost := false, kept := [] }).put .VD_CFG_ENABLE v 0
  else s

/-- R305, R259: no B edge has come by t_A + HI for an INTERVAL rule: OUT_RANGE, or LOST when the pair met a break. -/
def State.endInterval (s : State) (v : Nat) : State :=
  let r := s.rule v
  match r.window with
  | none => s
  | some a =>
    let x := a + s.ruleHi v
    if !s.time.halted && s.flag .VD_CFG_ENABLE v && s.get .VD_CFG_TYPE v == 3 && decide (s.instOf x ≤ s.now) then
      (s.setRule v { r with window := none, lost := false }).decide_ v
        (if r.lost ∨ s.metBreak (s.get .VD_SRC_SRC v) a x = true ∨ s.metBreak (s.get .VD_SRC_SRC_B v) a x = true then vLost
         else vOutRange) 0 x
    else s

/-- R305: PRESENCE_WINDOW_END. -/
def execPresenceWindowEnd (t v : Nat) (s : State) : Host.Outcome State Fault Refusal :=
  if v < numRules then .next ((s.at t).endPresence v) else .fault .noSuchUnit

/-- R306: a target edge kept ahead of its reference is discarded after 4 µs. -/
def execTargetEdgeExpiry (t v : Nat) (s : State) : Host.Outcome State Fault Refusal :=
  if v < numRules then
    let s := s.at t
    let r := s.rule v
    .next (s.setRule v { r with kept := s.keptEdges v })
  else .fault .noSuchUnit

end Sys2Proof.Machine
end

