-- ==== Sys2Proof/Machine/Crystal.lean ====
section
/-!
DEFINITION. Crystallisers (R283-R293): granules, histograms, persistence maps, freeze, clear, release and staging merges.
-/

namespace Sys2Proof.Machine

/-! ## Granules -/

/-- The granules that a kind and a number of histograms take (R283). -/
def granulesFor (kind nhist : Nat) : Nat := match kind with
  | 1 => nhist
  | 2 => 32
  | _ => 0

/-- The fabric address of a granule (R283). -/
def granuleAddr (g : Nat) : Nat := poolBase + g * 0x40000

/-- The granules in use by every unit. -/
def State.granulesUsed (s : State) : List Nat :=
  (List.range 16).flatMap fun n => (s.cry n).granules ++ (s.cry n).staging

/-- R214: whether a chain is borrowed by a channel that is not its owner. -/
def State.borrowed (s : State) (m : Nat) : Bool :=
  (List.range 16).any fun n => n != m && s.get .WCH_SOURCE_CHAIN n == m

/-- Whether a source is a survey waveform channel whose chain is borrowed (R216). -/
def State.sharedSrc (s : State) (k : Nat) : Bool :=
  decide (144 ≤ k) && decide (k < 160) && !s.srcGuard k && s.borrowed (k - 144)

/-- The instance of a histogram in the register maps. -/
def histKey (n h : Nat) : Nat := n * 8 + h

/-- Whether a histogram uses the B source (R284). -/
def State.histTwo (s : State) (i : Nat) : Bool := decide (2 ≤ s.get .CRY_H_CFG_KIND i)

/-- Whether a histogram uses a source. -/
def State.histUses (s : State) (i k : Nat) : Bool :=
  s.get .CRY_H_CFG_SRC_A i == k || (s.histTwo i && s.get .CRY_H_CFG_SRC_B i == k)

/-- R216: whether histogram `h` of a unit is staged. -/
def State.histStaged (s : State) (n h : Nat) : Bool :=
  let i := histKey n h
  s.sharedSrc (s.get .CRY_H_CFG_SRC_A i) || (s.histTwo i && s.sharedSrc (s.get .CRY_H_CFG_SRC_B i))

/-- R216: whether a unit's crystalliser holds staging granules. -/
def State.cryStaged (s : State) (n : Nat) : Bool :=
  match s.get .CRY_CFG_KIND n with
  | 1 => (List.range (s.get .CRY_CFG_NHIST n)).any fun h => s.histStaged n h
  | 2 => s.sharedSrc (144 + s.get .CRY_MAP_CFG_SRC n)
  | _ => false

/-- The first run of free granules of a length, below 256. -/
def freeRun (used : List Nat) (len : Nat) : Option Nat :=
  (List.range (257 - len)).find? fun g => (List.range len).all fun i => !used.contains (g + i)

/-- The lowest free granules. -/
def freeGranules (used : List Nat) (len : Nat) : List Nat :=
  ((List.range 256).filter fun g => !used.contains g).take len

/-- R38, R283: the granules of a new allocation, contiguous for a map; none when they do not fit. Which free granules are
taken the manual does not say: the lowest (log entry 22). -/
def allocate (kind : Nat) (used : List Nat) (len : Nat) : Option (List Nat) :=
  if len = 0 then some []
  else if kind = 2 then (freeRun used len).map fun g => (List.range len).map (g + ·)
  else
    let gs := freeGranules used len
    if gs.length = len then some gs else none

/-- R283, R216: the granules and staging granules that an arm of a unit would hold; none when they do not fit. -/
def State.cryPlan (s : State) (n : Nat) : Option (List Nat × List Nat) :=
  let c := s.cry n
  let kind := s.get .CRY_CFG_KIND n
  let nhist := s.get .CRY_CFG_NHIST n
  let len := granulesFor kind nhist
  let keep := decide (c.kind = kind) && (kind != 1 || decide (c.nhist = nhist)) && c.granules != []
  let others := (List.range 16).flatMap fun m => if m = n then [] else (s.cry m).granules ++ (s.cry m).staging
  let main := if keep then some c.granules else allocate kind others len
  match main with
  | none => none
  | some gs =>
    if s.cryStaged n then (allocate kind (others ++ gs) len).map fun st => (gs, st)
    else some (gs, [])

/-- Zeroes a granule. -/
def State.zeroGranule (s : State) (g : Nat) : State :=
  let lo := granuleAddr g
  { s with mem := s.mem.filter fun c => decide (c.1 < lo) || decide (lo + 0x40000 ≤ c.1) }

/-- R283: whether the configuration of a crystalliser refuses an arm (R45, R284, R285, R288, R289). -/
def State.cryBad (s : State) (n : Nat) (guard : Bool) : Bool :=
  let kind := s.get .CRY_CFG_KIND n
  decide (kind = 3) || (guard && kind != 0) ||
    (kind == 1 && (decide (s.get .CRY_CFG_NHIST n = 0) || decide (8 < s.get .CRY_CFG_NHIST n) ||
      (List.range (min 8 (s.get .CRY_CFG_NHIST n))).any fun h =>
        let i := histKey n h
        let hk := s.get .CRY_H_CFG_KIND i
        let ea := s.get .CRY_H_CFG_EDGE_A i
        let eb := s.get .CRY_H_CFG_EDGE_B i
        decide (4 ≤ hk) || decide (0xC2 ≤ s.get .CRY_H_CFG_SRC_A i) ||
          (decide (2 ≤ hk) && decide (0xC2 ≤ s.get .CRY_H_CFG_SRC_B i)) ||
          (match hk with
           | 0 => !(ea == 1 || ea == 2)
           | 1 => ea != 0
           | 2 => ea == 3 || eb == 3
           | _ => !((ea == 1 || ea == 2) && eb == ea) || decide (16 < s.get .CRY_H_CFG_SHIFT i)))) ||
    (kind == 2 && (decide (s.get .CRY_MAP_CFG_COLW n = 0) || decide (4096 < s.get .CRY_MAP_CFG_COLW n) ||
      decide (s.signed .CRY_MAP_OFFSET_COARSE n < -10240) || decide (4 < s.get .CRY_MAP_ROW_RSHIFT n)))

/-- R283: the arm of a unit allocates, or keeps what it holds. A new allocation starts at zero (log entry 23). -/
def State.armCry (s : State) (n : Nat) : State :=
  let c := s.cry n
  match s.cryPlan n with
  | none => s
  | some (gs, st) =>
    let kept := decide (c.granules = gs) && gs != []
    let s := if kept then s else gs.foldl State.zeroGranule s
    let s := st.foldl State.zeroGranule s
    let s := (List.range 8).foldl (fun s h =>
      (s.put .CRY_H_STATUS_GRANULE (histKey n h) (gs.getD h 0))) s
    let s := if s.get .CRY_CFG_KIND n = 2 then s.put .CRY_MAP_STATUS_GRANULE n (gs.headD 0) else s
    let s := s.put .CRY_STATUS_HELD n (b2n (gs != []))
    s.setCry n { c with kind := s.get .CRY_CFG_KIND n, nhist := s.get .CRY_CFG_NHIST n, granules := gs, staging := st,
                        hists := [], queue := 0, starts := [], sweep := none, swept := none }

/-! ## Histograms -/

/-- Adds one to a saturating counter of `w` bytes in memory; the second result says that it was full already. -/
def State.addCell (s : State) (a w : Nat) : State × Bool :=
  let v := s.readLe a w
  if v = 2 ^ (8 * w) - 1 then (s, true) else (s.writeLe a w (v + 1), false)

/-- R285: the bin of a value: none below, or above with the flag. -/
def binOf (phase : Bool) (v origin : Int) (shift : Nat) : Option Nat × Bool :=
  if phase then (some (((v - origin) % 65536).toNat / 2 ^ shift), false)
  else
    let b := (v - origin) / 2 ^ shift
    if b < 0 then (none, false) else if 65535 < b then (none, true) else (some b.toNat, false)

/-- R287: the values in the input queue of a crystalliser: 4 leave it in each fabric cycle. -/
def Cry.queueNow (c : Cry) (now : Nat) : Nat := c.queue - 4 * (fabCycle now - c.queueAt)

/-- R285, R287, R292: a value of a histogram is binned. -/
def State.binValue (s : State) (n h : Nat) (v : Int) : State :=
  let i := histKey n h
  let c := s.cry n
  if s.histStaged n h && c.mergeEnd.isSome then s.count .CRY_DROPS_COUNT n
  else
    let s := s.count .CRY_H_TOTAL_COUNT i
    match binOf (s.get .CRY_H_CFG_KIND i == 3) v (s.signed .CRY_H_ORIGIN_VALUE i) (s.get .CRY_H_CFG_SHIFT i) with
    | (none, false) => s.count .CRY_H_UNDER_COUNT i
    | (none, true) => s.count .CRY_H_OVER_COUNT i
    | (some b, _) =>
      let g := if s.histStaged n h then c.staging.getD h 0 else c.granules.getD h 0
      let (s, full) := s.addCell (granuleAddr g + 4 * b) 4
      if full then (s.put .CRY_H_STATUS_SAT i 1).raise .CRY_EVENT_SAT n else s

/-- R286, R287, R291: a value of a histogram, with what its edges carry. -/
def State.histValue (s : State) (n h : Nat) (v : Int) (fe cv : Bool) : State :=
  let c := s.cry n
  let out := (s.flag .CRY_CFG_EXCL_FE n && fe) || (s.flag .CRY_CFG_EXCL_CONV n && cv) || c.frozen ||
    c.clearEnd.isSome
  let q := c.queueNow s.now
  if out then s.count .CRY_EXCLUDED_COUNT n
  else if 1024 ≤ q then (s.count .CRY_DROPS_COUNT n).raise .CRY_EVENT_DROP n
  else (s.setCry n { c with queue := q + 1, queueAt := fabCycle s.now }).binValue n h v

def State.hist (s : State) (n h : Nat) : HistState := SMap.get (fun _ => {}) (s.cry n).hists h
def State.setHist (s : State) (n h : Nat) (v : HistState) : State :=
  let c := s.cry n
  s.setCry n { c with hists := SMap.set (fun _ => {}) c.hists h v }

/-- R286: whether a value that starts at a time is in scope: any in CONTINUOUS; in POST from T up to the close. -/
def inScope (post : Bool) (trig : Option Int) (last : Option (Int × Int)) (start : Int) : Bool :=
  if !post then true
  else (match trig with
    | some t => decide (t ≤ start)
    | none => false) ||
    (match last with
     | some (a, b) => decide (a ≤ start) && decide (start < b)
     | none => false)

/-- R284, R237: the first B edge after a time, and the phase of an A edge between the B edges around it: its start, its value
and its flags. -/
def nextEdge (bs : List HEdge) (t : Int) : Option HEdge := bs.find? fun b => decide (t < b.time)
def phaseValue (bs : List HEdge) (a : HEdge) : Option (Int × Int × Bool × Bool) :=
  match (bs.filter fun b => decide (b.time ≤ a.time)).getLast?, nextEdge bs a.time with
  | some r, some e =>
    some (a.time, 65536 * (a.time - r.time) / (e.time - r.time), a.fe || r.fe || e.fe, a.cv || r.cv || e.cv)
  | _, _ => none

/-- R284: one edge for one histogram: the new state of its pairing and the values it completes, each with its start. -/
def histStep (kind : Nat) (wpol isA isB : Bool) (h : HistState) (pol : Bool) (e : HEdge) :
    HistState × List (Int × Int × Bool × Bool) :=
  let val := fun (a b : HEdge) => (a.time, b.time - a.time, a.fe || b.fe, a.cv || b.cv)
  match kind with
  | 0 =>
    if isA then ({ h with a := some e }, match h.a with
      | some a => [val a e]
      | none => [])
    else (h, [])
  | 1 =>
    if isA then
      ({ h with a := if pol == !wpol then some e else none }, match h.a with
        | some a => [val a e]
        | none => [])
    else (h, [])
  | 2 =>
    let (h, vs) := if isA then
        (match h.bs.find? fun b => decide (e.time ≤ b.time) with
         | some b => ({ h with a := none, bs := h.bs.filter fun x => decide (b.time < x.time) }, [val e b])
         | none => ({ h with a := some e, bs := [] }, []))
      else (h, [])
    if isB then
      (match h.a with
       | some a =>
         if a.time ≤ e.time then ({ h with a := none }, vs ++ [val a e]) else (h, vs)
       | none => ({ h with bs := (h.bs ++ [e]).drop (h.bs.length + 1 - 16) }, vs))
    else (h, vs)
  | _ =>
    let h := { h with
      wait := if isA then h.wait ++ [e] else h.wait
      bs := if isB then (h.bs ++ [e]).drop (h.bs.length + 1 - 16) else h.bs }
    ({ h with wait := h.wait.filter fun a => (nextEdge h.bs a.time).isNone }, h.wait.filterMap (phaseValue h.bs))

/-- R284, R286: an edge reaches the histograms of a unit. -/
def State.cryEdge (s : State) (n k : Nat) (t : Int) (pol est fe cv : Bool) (trig : Option Int)
    (last : Option (Int × Int)) : State :=
  if est || (s.cry n).kind != 1 then s
  else
    (List.range (s.cry n).nhist).foldl (fun s h =>
      let i := histKey n h
      if !s.histUses i k then s
      else
        let isA := s.get .CRY_H_CFG_SRC_A i == k && selects (s.get .CRY_H_CFG_EDGE_A i) pol
        let isB := s.histTwo i && s.get .CRY_H_CFG_SRC_B i == k && selects (s.get .CRY_H_CFG_EDGE_B i) pol
        let (st, vs) := histStep (s.get .CRY_H_CFG_KIND i) (s.flag .CRY_H_CFG_WIDTH_POL i) isA isB (s.hist n h) pol
          { time := t, fe := fe, cv := cv }
        vs.foldl (fun s v =>
          if inScope (s.flag .CRY_CFG_SCOPE n) trig last v.1 then s.histValue n h v.2.1 v.2.2.1 v.2.2.2 else s)
          (s.setHist n h st)) s

/-- R284, R229: a break of a source: no value is formed across it. -/
def State.cryBreak (s : State) (n k : Nat) : State :=
  if (s.cry n).kind != 1 then s
  else (List.range (s.cry n).nhist).foldl (fun s h =>
    if s.histUses (histKey n h) k then s.setHist n h {} else s) s

/-! ## Persistence maps -/

/-- R289: the row of a sample in 1/8 code, and whether it was clamped. -/
def rowOf (x origin : Int) (rshift : Nat) : Nat × Bool :=
  let r := (x - origin) / 2 ^ rshift
  if r < 0 then (0, true) else if 4095 < r then (4095, true) else (r.toNat, false)

/-- R288, R289: one sample in a column of a unit's map. -/
def State.mapSample (s : State) (n col : Nat) (x : Int) : State :=
  let c := s.cry n
  let staged := s.cryStaged n
  if staged && c.mergeEnd.isSome then s.count .CRY_DROPS_COUNT n
  else
    let (row, clip) := rowOf x (s.signed .CRY_MAP_ROW_ORIGIN n) (s.get .CRY_MAP_ROW_RSHIFT n)
    let s := if clip then s.count .CRY_MAP_CLIP_COUNT n else s
    let g := (if staged then c.staging else c.granules).headD 0
    let (s, full) := s.addCell (granuleAddr g + (col * 4096 + row) * 2) 2
    if full then (s.put .CRY_MAP_STATUS_SAT n 1).raise .CRY_EVENT_SAT n else s

/-- R288: a sweep has covered its columns. -/
def State.endSweep (s : State) (n : Nat) : State :=
  let c := s.cry n
  match c.sweep with
  | none => s
  | some (_, k) =>
    if 1024 * max 1 (s.get .CRY_MAP_CFG_COLW n) ≤ k then
      let s := s.setCry n { c with sweep := none, frozen := c.frozen || c.freezes, freezes := false }
      s.count .CRY_MAP_SWEEPS_COUNT n
    else s

/-- R288, R291: the references that fall due up to a time: the first starts a sweep if none is in progress; the others, and
those of a frozen map, are skipped. -/
def State.dueSweeps (s : State) (n : Nat) (t : Int) : State :=
  let s := if s.cry n |>.starts.any fun x => decide (x ≤ t) then s.endSweep n else s
  let c := s.cry n
  let due := c.starts.filter fun x => decide (x ≤ t)
  let s := s.setCry n { c with starts := c.starts.filter fun x => decide (t < x) }
  match due with
  | [] => s
  | x :: xs =>
    if c.frozen || c.freezes || c.sweep.isSome then s.count .CRY_MAP_SKIPPED_COUNT n due.length
    else (s.setCry n { s.cry n with sweep := some (x, 0) }).count .CRY_MAP_SKIPPED_COUNT n xs.length

/-- R288, R291: a channel sample reaches the map of a unit: it takes its place in time whether it is accumulated or not. -/
def State.sweepSample (s : State) (n : Nat) (t : Int) (x : Int) (usable : Bool) : State :=
  let s := s.dueSweeps n t
  let c := s.cry n
  match c.sweep with
  | none => s
  | some (start, k) =>
    let colw := max 1 (s.get .CRY_MAP_CFG_COLW n)
    if t < start ∨ 1024 * colw ≤ k then s
    else
      let s := s.setCry n { c with sweep := some (start, k + 1), swept := some t }
      if !usable then s
      else if c.clearEnd.isSome then s.count .CRY_EXCLUDED_COUNT n
      else s.mapSample n (k / colw) x

/-- R288, R291: a sweep reference of a unit. `hist` is the channel's history, oldest first: the time of each sample, its
value, and whether it may be accumulated. A sweep whose first sample lies in it takes its samples from there; one that was in
progress then has skipped the reference. -/
def State.sweepRef (s : State) (n : Nat) (at_ : Int) (hist : List (Int × Int × Bool)) : State :=
  let c := s.cry n
  let start := at_ + s.signed .CRY_MAP_OFFSET_COARSE n * 2048
  let gone := match hist with
    | x :: _ => decide (start < x.1)
    | [] => false
  let busy := match c.swept with
    | some x => decide (start ≤ x)
    | none => false
  if c.kind ≠ 2 then s
  else if c.frozen || c.freezes || gone || busy then s.count .CRY_MAP_SKIPPED_COUNT n
  else
    let s := s.setCry n { c with starts := c.starts ++ [start] }
    (hist.filter fun x => decide (start ≤ x.1)).foldl (fun s x => s.sweepSample n x.1 x.2.1 x.2.2) s

/-! ## Freeze, clear, release, merge -/

/-- R291, R293: FREEZE. -/
def State.freezeCry (s : State) (n : Nat) (on : Bool) : State :=
  let c := s.cry n
  let s := s.put .CRY_CTL_FREEZE n (b2n on)
  if !on then s.setCry n { c with frozen := false, freezes := false }
  else if c.frozen || c.freezes then s
  else if c.clearEnd.isSome || (c.kind == 2 && c.sweep.isSome) then s.setCry n { c with freezes := true }
  else s.setCry n { c with frozen := true }

/-- The time of a clear or a merge: 3.2 µs for each granule (R291, R292). -/
def granuleTime (c : Cry) : Nat := c.granules.length * 3200 * qNs

/-- R291, R293: CLEAR: it runs at once, or after a merge in progress. -/
def State.clearCry (s : State) (n : Nat) : State :=
  let c := s.cry n
  match c.mergeEnd with
  | some _ => s.setCry n { c with clearReq := true }
  | none => s.setCry n { c with clearEnd := some (s.now + granuleTime c), clearReq := false, sweep := none }

/-- R291: the clear completes: every bin, cell and counter is zero. -/
def State.endClear (s : State) (n : Nat) : State :=
  let c := s.cry n
  match c.clearEnd with
  | none => s
  | some x =>
    if s.now < x then s
    else
      let s := c.granules.foldl State.zeroGranule s
      let s := (List.range 8).foldl (fun s h =>
        let i := histKey n h
        (((s.put .CRY_H_UNDER_COUNT i 0).put .CRY_H_OVER_COUNT i 0).put .CRY_H_TOTAL_COUNT i 0).put .CRY_H_STATUS_SAT i 0) s
      let s := ((s.put .CRY_MAP_SWEEPS_COUNT n 0).put .CRY_MAP_SKIPPED_COUNT n 0).put .CRY_MAP_CLIP_COUNT n 0
      let s := s.put .CRY_MAP_STATUS_SAT n 0
      s.setCry n { s.cry n with clearEnd := none, frozen := c.frozen || c.freezes, freezes := false }

/-- R291: RELEASE returns the granules to the pool. -/
def State.releaseCry (s : State) (n : Nat) : State :=
  (s.setCry n { s.cry n with kind := 0, nhist := 0, granules := [], staging := [] }).put .CRY_STATUS_HELD n 0

/-- Whether a crystalliser is fed by a source under staging. -/
def State.stagedBy (s : State) (n k : Nat) : Bool :=
  let c := s.cry n
  c.staging != [] && s.sharedSrc k &&
    (match c.kind with
     | 1 => (List.range c.nhist).any fun h => s.histUses (histKey n h) k
     | 2 => 144 + s.get .CRY_MAP_CFG_SRC n == k
     | _ => false)

/-- R216: a window of a staged source closed without preemption: the merge begins. -/
def State.startMerge (s : State) (n : Nat) : State :=
  let c := s.cry n
  if c.mergeEnd.isSome then s else s.setCry n { c with mergeEnd := some (s.now + granuleTime c) }

/-- R216: a preemption clears the staging granules; during a merge it discards nothing that the merge adds. -/
def State.dropStaging (s : State) (n : Nat) : State :=
  let c := s.cry n
  if c.mergeEnd.isSome then s else c.staging.foldl State.zeroGranule s

/-- Adds the cells of a granule, `w` bytes each, to another, and zeroes it; counts cells that saturate. -/
def State.mergeCells (s : State) (src dst w : Nat) : State × Bool :=
  let lo := granuleAddr src
  let cells := ((s.mem.filter fun c => decide (lo ≤ c.1) && decide (c.1 < lo + 0x40000)).map fun c => (c.1 - lo) / w).eraseDups
  let r := cells.foldl (fun (r : State × Bool) i =>
    let v := r.1.readLe (lo + i * w) w + r.1.readLe (granuleAddr dst + i * w) w
    let top := 2 ^ (8 * w) - 1
    (r.1.writeLe (granuleAddr dst + i * w) w (min v top), r.2 || decide (top < v))) (s, false)
  (r.1.zeroGranule src, r.2)

/-- R292: a staging merge completes; a clear that waited for it starts (R293). -/
def State.endMerge (s : State) (n : Nat) : State :=
  let c := s.cry n
  match c.mergeEnd with
  | none => s
  | some x =>
    if s.now < x then s
    else
      let w := if c.kind = 2 then 2 else 4
      let s := (List.zip c.staging c.granules).foldl (fun s p =>
        let (s, sat) := s.mergeCells p.1 p.2 w
        if sat then
          let s := s.raise .CRY_EVENT_SAT n
          if c.kind = 2 then s.put .CRY_MAP_STATUS_SAT n 1
          else s.put .CRY_H_STATUS_SAT (histKey n (c.granules.idxOf p.2)) 1
        else s) s
      let s := s.setCry n { s.cry n with mergeEnd := none }
      if c.clearReq then s.clearCry n else s

/-- R291: CLEAR_DONE. -/
def execClearDone (t n : Nat) (s : State) : Host.Outcome State Fault Refusal :=
  if n < numUnits then .next ((s.at t).endClear n) else .fault .noSuchUnit

/-- R292: STAGING_MERGE. -/
def execStagingMerge (t n : Nat) (s : State) : Host.Outcome State Fault Refusal :=
  if n < numUnits then .next ((s.at t).endMerge n) else .fault .noSuchUnit

/-- R288: SWEEP_COMPLETE. -/
def execSweepComplete (t n : Nat) (s : State) : Host.Outcome State Fault Refusal :=
  if n < numUnits then .next ((s.at t).endSweep n) else .fault .noSuchUnit

end Sys2Proof.Machine
end

