-- ==== Sys2Proof/Machine/Waves.lean ====
section
/-!
DEFINITION. Waveform channels (chapter 7): the chains that process converter samples, the crossing detector, windows,
preemption, settles. What an extended multiblock carries is taken sample by sample, in stream order.
-/

namespace Sys2Proof.Machine

/-! ## Chains -/

/-- The chain of a waveform channel (R214). -/
def State.chainOf (s : State) (n : Nat) : Nat := s.get .WCH_SOURCE_CHAIN n

/-- The channels on a chain. -/
def State.users (s : State) (m : Nat) : List Nat := (List.range 16).filter fun n => s.chainOf n == m

/-- R194, R191: whether the slots that a chain uses are ALIGNED. -/
def State.slotsAligned (s : State) (m : Nat) : Bool :=
  let even := (s.slot (2 * m)).state == 3
  let odd := (s.slot (2 * m + 1)).state == 3
  match s.get .WCH_SOURCE_PAIR m with
  | 1 => even
  | 2 => odd
  | _ => even && odd

/-- R194: whether a slot is one that its chain uses. -/
def State.slotUsed (s : State) (slot : Nat) : Bool :=
  match s.get .WCH_SOURCE_PAIR (slot / 2) with
  | 1 => slot % 2 == 0
  | 2 => slot % 2 == 1
  | _ => true

/-- R214: whether a chain runs: from the first start instant of a channel on it until each is disarmed and the stream has
left its windows. -/
def State.chainRuns (s : State) (m : Nat) : Bool :=
  (s.users m).any fun n => (s.wave n).startAt.isSome || (s.wave n).wins != []

/-- Whether samples reach the detector of a chain. -/
def State.flowing (s : State) (m : Nat) : Bool := s.chainRuns m && s.slotsAligned m

/-- Whether a channel has a window open at present. -/
def Wave.isOpen (w : Wave) : Bool := w.wins.any fun x => !x.shut

/-- R215: the channel whose stages the chain applies: the guard channel while its window is open, otherwise the survey
channel when it is armed, otherwise the other one. -/
def State.chainUser (s : State) (m : Nat) : Nat :=
  let us := s.users m
  let guards := us.filter fun n => s.flag .WCH_SOURCE_CLASS n
  match guards.find? fun n => (s.wave n).isOpen with
  | some g => g
  | none =>
    match us.find? fun n => !s.flag .WCH_SOURCE_CLASS n && (s.wave n).armed with
    | some n => n
    | none => (guards.find? fun n => (s.wave n).armed).getD m

/-- The stages in force for a channel (R201). -/
def State.waveSet (s : State) (n : Nat) (at_ : Int) : WaveSet :=
  { at_ := at_, chan := n, gain := s.inForce .WCH_GAIN_G n, order := s.inForce .WCH_FILT_ORDER n,
    fc := s.inForce .WCH_FILT_FC n, notch := s.inForce .WCH_NOTCH_ENABLE n == 1, f := s.inForce .WCH_NOTCH_F n,
    level := toSigned 16 (s.inForce .WCH_XTHRESH_LEVEL n), hyst := s.inForce .WCH_XTHRESH_HYST n }

/-- The stages that the chain is to apply last. -/
def Wave.lastSet (c : Wave) : WaveSet := c.sets.getLast?.getD c.set

/-- R201, R168: the invalid samples and the CHANGE of a change of stages: the longest, and the lowest code among
equals. -/
def WaveSet.settleOf (a b : WaveSet) : Nat × Nat :=
  let parts := [(0, if a.gain = b.gain then 0 else 8), (1, if a.order = b.order ∧ a.fc = b.fc then 0 else 32 * b.order + 64),
    (2, if a.notch = b.notch ∧ a.f = b.f then 0 else 512)]
  parts.foldl (fun r p => if r.2 < p.2 then p else r) (0, 0)

/-- The chain takes over the stages of a channel from an instant on, with the settle that the change makes. -/
def State.switchSet (s : State) (m n : Nat) (at_ : Int) : State :=
  let c := s.wave m
  let b := s.waveSet n at_
  let r := WaveSet.settleOf c.lastSet b
  s.setWave m { c with sets := c.sets ++ [{ b with change := r.1, len := r.2 }] }

/-- Switches the chain to the channel that R215 gives, when that is another than the one before. -/
def State.reuser (s : State) (m : Nat) (at_ : Int) : State :=
  let n := s.chainUser m
  if (s.wave m).lastSet.chan = n ∨ s.chainRuns m = false then s else s.switchSet m n at_

/-- The spacing of the samples of a chain, in q. -/
def State.spacing (s : State) (m : Nat) : Nat := if s.get .WCH_SOURCE_PAIR m = 0 then 250 * 16384 else 500 * 16384

/-- R198, R199: the group delay of the stages, in samples. -/
def WaveSet.delay (a : WaveSet) : Nat := 16 * a.order + (if a.notch then 255 else 0)

/-- R470: a sample's instant as a tick of a channel's recorded scale. -/
def State.inputTick (s : State) (n : Nat) (at_ : Int) : Int := (at_ + 1562) / 3125 - s.delayOf (144 + n)

/-! ## Windows -/

/-- R213, R167: the stream reaches the opening of a window: the ARM anchor, or the RESTART and the REQUESTED_START
anchor, and the detector is reset low. -/
def State.beginWindow (s : State) (n : Nat) (w : Window) : State :=
  let k := 144 + n
  let s := s.startTaking k w.opened (if w.restart then rRestart else rArm)
  let s := if w.restart then s.putAnchor k rRequested w.requested else s
  let c := s.wave n
  s.setWave n { c with level := false, known := false, fresh := true,
                       wins := match c.wins with
                         | [] => []
                         | x :: ws => { x with opened := w.opened, begun := true } :: ws }

/-- The time before which no further crossing of a waveform source can be formed. -/
def State.setSure (s : State) (k : Nat) (t : Int) : State := s.setSrc k { s.src k with sure := t }

/-- R213: the stream reaches the close of a window: the DISARM anchor. -/
def State.finishWindow (s : State) (n : Nat) (w : Window) (c : Int) : State :=
  let s := if w.begun then (s.setSure (144 + n) c).stopTaking (144 + n) c else s
  let s := if w.how = 0 then s.count .WCH_WIN_COUNT_DONE n else s
  let v := s.wave n
  s.setWave n { v with wins := v.wins.drop 1,
                       preAt := if w.how = 1 ∧ w.begun then v.preAt ++ [c] else v.preAt }

/-- Whether the close of a window has fallen due and been reached at a recorded tick. -/
def Window.above (w : Window) (rec : Int) : Bool := w.shut && (match w.closes with
  | some x => decide (x ≤ rec)
  | none => false)

/-- Whether a time lies before the close of a window. -/
def Window.before (w : Window) (t : Int) : Bool := match w.closes with
  | some x => decide (t < x)
  | none => true

/-- One opening or close of a window that the stream has reached at a recorded tick. A window that closes at or before its
opening writes nothing; without room for its anchors (R471) it starts at a later coarse boundary. -/
def State.windowEvent (s : State) (n : Nat) (rec : Int) : State :=
  let c := s.wave n
  let r := s.src (144 + n)
  match c.wins with
  | [] => s
  | w :: ws =>
    let close := w.closes.getD w.opened
    if !w.begun then
      if w.above rec && decide (close ≤ w.opened) then s.finishWindow n w close
      else if rec < w.opened then s
      else if r.owed.isEmpty && r.room (if w.restart then 4 else 2) then s.beginWindow n w
      else s.setWave n { c with wins := { w with opened := ceilCoarse (max (rec + 1) w.opened) } :: ws }
    else if w.above rec then s.finishWindow n w close
    else s

/-- What the stream of a channel has reached, up to a recorded tick; a close that WINDOW_CLOSE has not reported yet is not
passed. -/
def State.advance (s : State) (n : Nat) (rec : Int) : State :=
  let s := times (fun s => s.windowEvent n rec) (2 * (s.wave n).wins.length + 1) s
  let lim := match (s.wave n).wins with
    | w :: _ => if w.begun then w.closes.getD rec else rec
    | [] => rec
  (s.setSure (144 + n) (min rec lim - 1)).flush (144 + n)

/-- R193: without data nothing is written: a window that has opened and closed meanwhile leaves no trace in the stream, and
one that had begun before waits for the data. -/
def State.idleWindows (s : State) (n : Nat) : State :=
  let c := s.wave n
  let passed := fun (w : Window) => !w.begun && w.above (s.recTick (144 + n))
  (c.wins.filter fun w => passed w && w.how == 0).foldl (fun s _ => s.count .WCH_WIN_COUNT_DONE n)
    (s.setWave n { c with wins := c.wins.filter fun w => !passed w })

/-- What a window command leaves to the stream: with samples flowing, what the stream has reached. -/
def State.followWindows (s : State) (n : Nat) : State :=
  if s.flowing (s.chainOf n) then s.advance n ((s.src (144 + n)).sure + 1) else s.idleWindows n

/-- R213: a disarm without data ends the windows at once. -/
def State.endWindows (s : State) (n : Nat) : State :=
  if s.flowing (s.chainOf n) then s
  else times (fun s => match (s.wave n).wins with
    | [] => s
    | w :: _ => s.finishWindow n w (w.closes.getD w.opened)) (s.wave n).wins.length s

/-- R214, R196: a chain whose channels are all disarmed and whose windows the stream has left stops. -/
def State.stopChain (s : State) (m : Nat) : State :=
  if s.chainRuns m then s
  else
    let c := s.wave m
    s.setWave m { c with sets := [], invalid := 0, settling := false, conv := 0, convOn := false, outage := false,
                         badIn := [], held := false, last := (0, 0), raw := [], codes := [], full := [], midFull := [],
                         pre := [], mid := [], x := [] }

/-! ## Crossings -/

/-- R201, R206-R208: a crossing at a recorded tick: found, then suppressed on invalid samples, or recorded in the window
under way. -/
def State.crossing (s : State) (n : Nat) (t : Int) (pol est : Bool) (mark : Nat) (ovr : Bool) : State :=
  let s := s.count .WCH_CROSSINGS_COUNT n
  let c := s.wave n
  let inside := match c.wins with
    | [] => false
    | w :: _ => w.begun && decide (w.opened ≤ t) && w.before t
  if bit mark 0 then
    let s := if inside then
        (s.setSrc (144 + n) ((s.src (144 + n)).noteGap t t)).setWave n { c with wins := match c.wins with
          | w :: ws => { w with hidden := w.hidden + 1 } :: ws
          | [] => [] }
      else s
    s.count .WCH_SUPPRESSED_COUNT n
  else if inside then s.formEdge (144 + n) t pol { cal := 3, ths := bit mark 1, est := est, ovr := ovr }
  else s

/-- R205: whether a sample, in 1/16 code, makes a crossing: its polarity and EST. -/
def Wave.crosses (c : Wave) (i up lo : Int) : Option (Bool × Bool) :=
  if !c.level && decide (up < i) then some (true, !c.known)
  else if c.level && decide (i < lo) then some (false, false)
  else none

/-- The detector after a sample (R205, R206): a first fall below the lower level is silent. -/
def Wave.detected (c : Wave) (i up lo : Int) : Wave :=
  match c.crosses i up lo with
  | some (pol, _) => { c with level := pol, known := true }
  | none => if !c.known && decide (i < lo) then { c with known := true } else c

/-- R207: a 16-tap sum over `x[i-8 .. i+7]` (newest first in `l`) at a place between two samples, in 2^-34, linear between
phases. -/
def tapSum (tap : Nat → Nat → Int) (l : List Int) (u : Frac) : Frac :=
  let w : Frac := ⟨u.num * 1024, u.den⟩
  let p := w.floor.toNat
  let at_ := fun p => ((List.range 16).map fun j => l.getD (15 - j) 0 * tap p j).sum
  let f := w.sub (.ofInt p)
  (Frac.ofInt (at_ p)).add (f.mul (.ofInt (at_ (p + 1) - at_ p)))

/-- Keeps a place within 0 .. 1 (R207). -/
def Frac.unit (u : Frac) : Frac := if u.num < 0 then ⟨0, 1⟩ else if (u.den : Int) < u.num then ⟨1, 1⟩ else u

/-- R207: the place of a crossing between `x[i-1]` and `x[i]`, a fraction of their spacing: samples in 1/8 code, newest
first, and the level in 1/16 code. Where a divisor is 0 the manual gives no value (log entry 72). -/
def placeOf (l : List Int) (v : Int) : Frac :=
  let flat : Frac := ⟨(Config.flatPlace l v % 1025 : Nat), 1024⟩
  let start := (Frac.div (.ofInt (v - 2 * l.getD 8 0)) (.ofInt (2 * l.getD 7 0 - 2 * l.getD 8 0))).getD flat
  times (fun u =>
    let y := tapSum Config.interpTap l u
    -- y in 1/8 code and 2^-24; the level as well
    match Frac.div (y.sub ⟨v * 2 ^ 23, 1⟩) (tapSum Config.slopeTap l u) with
    | some d => (u.sub d).unit
    | none => flat) 3 start.unit

/-- R207: the recorded tick of a crossing, to the nearest tick. -/
def State.placeTick (s : State) (n : Nat) (l : List Samp) (v : Int) : Int :=
  let a := (l.getD 8 {}).at_
  let u := placeOf (l.map (·.x)) v
  (Frac.mk (a * u.den + u.num * ((l.getD 7 {}).at_ - a)) (3125 * u.den)).round - s.delayOf (144 + n)

/-- R193: a sample that is not used: data is lost from it on. -/
def State.loseSample (s : State) (n : Nat) : State :=
  let r := s.src (144 + n)
  if !r.taking then s
  else match r.ovf with
    | some e =>
      if e.active.contains 3 then s.setSrc (144 + n) { r with due := r.due.filter fun d => d.word != .ends 3 }
      else s.beginCause (144 + n) 3 true
    | none => s.beginCause (144 + n) 3 true

/-- R193: the first good sample after a loss of data: the mark and its anchor fall due at the next coarse boundary. -/
def State.goodSample (s : State) (n : Nat) (rec : Int) (after : Bool) : State :=
  let s := if after then s.loseSample n else s
  let r := s.src (144 + n)
  if r.due.any fun d => d.word == .ends 3 then s else s.endCause (144 + n) 3 (ceilCoarse rec)

/-- R202: the first valid sample of a settle: the SETTLE marker and the SETTLE_END anchor fall due at the next coarse
boundary, in a window that opened before it and closes after it. -/
def State.settled (s : State) (m n : Nat) (rec : Int) : State :=
  let c := s.wave n
  let k := 144 + n
  match c.wins with
  | w :: ws =>
    if w.begun && decide (w.opened < rec) && w.before rec then
      let s := s.setWave n { c with wins := { w with hidden := 0 } :: ws }
      (s.pushDue k (ceilCoarse rec) (.marker (.settle k 0 (s.wave m).change w.hidden))).pushDue k (ceilCoarse rec)
        (.anchor rSettleEnd)
    else s
  | [] => s

/-- Whether a window opens after a time and at or before a recorded tick: its opening resets the detector. -/
def Wave.opensIn (c : Wave) (t rec : Int) : Bool :=
  c.wins.any fun w => !w.begun && decide (w.opened ≤ t) && decide (w.opened ≤ rec)

/-- R205-R207: the detector of a channel looks at the sample eight back from the newest, which the interpolation of R207
needs (`x[i+7]` is the newest). -/
def State.detect (s : State) (m n : Nat) : State :=
  let l := (s.wave m).x.take 16
  let p := l.getD 7 {}
  let rec_ := s.inputTick n p.at_
  if p.chan ≠ n then s.advance n rec_
  else if bit p.mark 2 then (s.advance n rec_).loseSample n
  else
    let i := 2 * p.x
    let up := 2 * p.level + (p.hyst : Int)
    let lo := 2 * p.level - (p.hyst : Int)
    let ovr := l.any fun y => bit y.mark 3
    let c := s.wave n
    -- a crossing between this sample and the one before it, unless a window opens between them
    let s := if c.fresh then s
      else
        let s := match c.crosses i up lo with
          | some (pol, est) =>
            let t := s.placeTick n l (if pol then up else lo)
            if c.opensIn t rec_ then s else (s.advance n t).crossing n t pol est p.mark ovr
          | none => s
        s.setWave n ((s.wave n).detected i up lo)
    let s := s.advance n rec_
    let late := match (s.wave n).wins with
      | w :: _ => decide (w.opened < rec_)
      | [] => false
    let s := s.goodSample n rec_ (bit p.mark 7 && late)
    let s := if bit p.mark 6 then s.settled m n rec_ else s
    let c := s.wave n
    -- the first sample of a window (R206)
    if c.fresh then
      let opened := match c.wins with
        | w :: _ => w.opened
        | [] => rec_
      let s := s.setWave n { (c.detected i up lo) with fresh := false }
      if up < i then s.crossing n opened true true p.mark ovr else s
    else s

/-! ## Samples -/

/-- R203: a settle begins or extends the invalid interval. -/
def Wave.settleFor (c : Wave) (change len : Nat) : Wave :=
  if len = 0 then c
  else
    let fresh := c.invalid = 0
    { c with settling := true, conv := 0, convOn := false, invalid := max c.invalid len
             change := if fresh then change
               else if c.changeLen < len then change
               else if c.changeLen = len then min c.change change
               else c.change
             changeLen := if fresh then len else max c.changeLen len }

/-- The changes of stages that the stream has reached at a converter instant, in q: a sample's own instant is that less the
group delay of the new stages (R200, R201, log entry 73). -/
def Wave.applySets (sp : Nat) : Nat → Wave → Int → Wave
  | 0, c, _ => c
  | fuel + 1, c, tq =>
    match c.sets with
    | [] => c
    | a :: rest =>
      if a.at_ * 3125 ≤ tq - (a.delay * sp : Nat) then
        Wave.applySets sp fuel ({ c with set := a, sets := rest }.settleFor a.change a.len) tq
      else c

/-- R197: a processed sample saturates at -4,096 and +4,095.875 codes. -/
def saturate (v : Int) : Int := max (-32768) (min 32767 v)

/-- R198: the low-pass filter of 32n + 1 taps on the recent samples, newest first: a windowed sinc about the middle tap. -/
def lowPass (order fc : Nat) (l : List Int) : Int :=
  quotI (((List.range (32 * order + 1)).map fun (k : Nat) =>
    let d := ((k : Int) - (16 * order : Nat)).natAbs
    Config.taper order d * Config.sinc fc d * l.getD k 0).sum) (2 ^ 24)

/-- R199: the notch of 511 taps, even about its middle tap. -/
def notch (f : Nat) (l : List Int) : Int :=
  quotI (((List.range 511).map fun (k : Nat) => Config.notchTap f ((k : Int) - 255).natAbs * l.getD k 0).sum) (2 ^ 24)

/-- R197-R199, R208: the stages after the interleave correction, on a sample in 1/128 code whose converter code may be at
full scale; the results are the processed sample and whether its mark of R208 is set. Each stage saturates (log entry 74). -/
def Wave.process (c : Wave) (v : Int) (full : Bool) : Wave × Int × Bool :=
  let g := quotI (v * c.set.gain) 65536
  let pre := (saturate g :: c.pre).take 256
  let f := if c.set.order = 0 then saturate g else lowPass c.set.order c.set.fc pre
  let mid := (saturate f :: c.mid).take 512
  let x := if c.set.notch then notch c.set.f mid else saturate f
  let fulls := ((full || saturate g != g) :: c.full).take 512
  let mids := ((saturate f != f) :: c.midFull).take 256
  ({ c with pre := pre, mid := mid, full := fulls, midFull := mids }, saturate x,
    fulls.getD c.set.delay false || mids.getD (if c.set.notch then 255 else 0) false || saturate x != x)

/-- The samples a channel's map may use: with a window open there (R288). -/
def State.usableAt (s : State) (n : Nat) (t : Int) : Bool :=
  (s.wave n).wins.any fun w => decide (w.opened ≤ t) && w.before t

/-- R201-R208: one sample of a chain, in 1/128 code, at a converter instant in q; `full` says that its code is at full
scale, and `bad` that it is not used: such a sample repeats the last one and the histories of the stages stand (log
entry 75). -/
def State.chainSample (s : State) (m : Nat) (tq : Int) (v : Int) (full bad : Bool) : State :=
  let sp := s.spacing m
  let c := Wave.applySets sp (s.wave m).sets.length (s.wave m) tq
  let after := c.outage && !bad
  let c := if after then { c with outage := false }.settleFor 3 2048 else c
  -- the first valid sample after a settle
  let first := c.settling && decide (c.invalid = 0) && !bad
  let paired := s.get .WCH_SOURCE_PAIR m = 0
  let c := if first then { c with settling := false, conv := if paired then 65536 else 0, convOn := decide paired } else c
  let (c, x, sat) := if bad then (c, (c.x.headD {}).x, false) else c.process v full
  let invalid := decide (0 < c.invalid)
  let conv := !invalid && decide (0 < c.conv)
  let at_ := tq - (c.set.delay * sp : Nat)
  let us := s.users m
  let ok := fun n => s.usableAt n (s.inputTick n at_) && !invalid && !bad
  let mark := b2n invalid + 2 * b2n conv + 4 * b2n bad + 8 * b2n sat + 16 * b2n (us.any fun n => n == m && ok n) +
    32 * b2n (us.any fun n => n != m && ok n) + 64 * b2n first + 128 * b2n after
  let c := { c with invalid := c.invalid - 1, conv := if invalid then c.conv else c.conv - 1,
                    x := ({ x := x, at_ := at_, mark := mark, chan := c.set.chan, level := c.set.level,
                            hyst := c.set.hyst } :: c.x).take 16384 }
  let s := s.setWave m c
  let s := us.foldl (fun s n =>
    (List.range 16).foldl (fun s u =>
      if (s.cry u).kind = 2 ∧ s.get .CRY_MAP_CFG_SRC u = n then
        s.sweepSample u (s.inputTick n at_) x (ok n && !(conv && s.flag .CRY_CFG_EXCL_CONV u))
      else s) s) s
  if c.x.length < 9 then s else us.foldl (fun s n => s.detect m n) s

/-- R288: the history of a channel, oldest first, for a crystalliser's sweep. -/
def State.waveHist (s : State) (u n : Nat) : List (Int × Int × Bool) :=
  let m := s.chainOf n
  let mine := if n = m then 4 else 5
  ((s.wave m).x.map fun p =>
    (s.inputTick n p.at_, p.x, bit p.mark mine && !(bit p.mark 1 && s.flag .CRY_CFG_EXCL_CONV u))).reverse

/-! ## Interleave correction -/

/-- Holds an estimate within its range; the second result says that it has reached a limit. -/
def clampEst (lim v : Int) : Int × Bool := (max (-lim) (min lim v), decide (v ≤ -lim) || decide (lim ≤ v))

/-- R195: whether the estimates may move: an rms of at least 20 codes, half the power between 10 MHz and 1.9 GHz. -/
def inputRich (codes : List Int) : Bool :=
  let power := (codes.map fun v => (v * v).toNat).sum
  decide (400 * codes.length ≤ power) && decide (power ≤ 2 * Config.bandPower codes)

/-- R195: one pair of converter codes: the two corrected samples in 1/128 code, and the estimates after it; `hold` keeps
the estimates. They are held in the units of their registers (log entry 76). -/
def State.correctPair (s : State) (m : Nat) (a b : Int) (hold : Bool) : (Int × Int) × State :=
  let c := s.wave m
  let (d, g, sk) := c.corr
  let a1 := 128 * a + d
  let b1 := quotI ((128 * b - d) * (1000000 + g)) 1000000
  let raw := (b1 :: c.raw).take 32
  let b2 := quotI (((List.range 32).map fun j => Config.delayTap sk j * raw.getD j 0).sum) (2 ^ 24)
  let codes := (b :: a :: c.codes).take Config.richSpan
  let c := { c with raw := raw, codes := codes }
  if hold then ((a1, b2), s.setWave m c)
  else if !inputRich codes then ((a1, b2), s.setWave m { c with held := true, last := (a1, b2) })
  else
    let (d', l1) := clampEst 4096 (d + Config.stepD (64 * (b - a) - d))
    let (g', l2) := clampEst 30000 (g + Config.stepG (a1 * a1 - b2 * b2) (a1 * a1 + b2 * b2 + 16384).toNat)
    let (s', l3) := clampEst 20480 (sk + Config.stepS (c.last.2 * (a1 - c.last.1)).sign)
    let s := s.setWave m { c with corr := (d', g', s'), held := false, last := (a1, b2) }
    let news := [(l1, d, d'), (l2, g, g'), (l3, sk, s')]
    ((a1, b2), if news.any fun x => x.1 && x.2.1 != x.2.2 then
      (s.users m).foldl (fun s n => if (s.wave n).armed then s.raise .WCH_EVENT_CORR_LIMIT n else s) s
    else s)

/-- R193: whether sample `j` of a slot's extended multiblock lies wholly or partly in a multiblock: 170 2/3 samples
each. -/
def inMultiblock (mb j : Nat) : Bool := decide (512 * mb < 3 * (j + 1)) && decide (3 * j < 512 * (mb + 1))

/-- R192: the LEMC edge, in q, that frames the extended multiblock released last: each is released RBD blocks after its
edge. -/
def State.lemcEdge (s : State) (m : Nat) : Int :=
  let q : Int := s.time.origin * 3125 + s.now
  let emb : Int := 256 * qNs
  (q * 96 - s.get .WCH_JESD_RBD m * emb) / (96 * emb) * emb

/-- R191-R208: a chain takes the samples of an extended multiblock. -/
def State.releaseEmb (s : State) (m : Nat) (a b : List Int) : State :=
  let tl := s.lemcEdge m
  let bad := (s.wave m).badIn
  let s := s.setWave m { s.wave m with badIn := [] }
  let isBad := fun (x j : Nat) => bad.any fun y => y.1 == x && inMultiblock y.2 j
  let fs := fun (v : Int) => v == -2048 || v == 2047
  let one := fun (s : State) (x : Nat) (l : List Int) =>
    let start := tl - s.signed .WCH_CV_LAT_TICKS (2 * m + x) * 3125
    (List.range l.length).foldl (fun s j =>
      let v := l.getD j 0
      s.chainSample m (start + (j * s.spacing m : Nat)) (128 * v) (fs v) (isBad x j)) s
  let s := match s.get .WCH_SOURCE_PAIR m with
    | 1 => one s 0 a
    | 2 => one s 1 b
    | _ =>
      let start := tl - s.signed .WCH_CV_LAT_TICKS (2 * m) * 3125
      (List.range (min a.length b.length)).foldl (fun s j =>
        let va := a.getD j 0
        let vb := b.getD j 0
        let (v, s) := s.correctPair m va vb (isBad 0 j || isBad 1 j)
        let s := s.chainSample m (start + (2 * j * s.spacing m : Nat)) v.1 (fs va) (isBad 0 j)
        s.chainSample m (start + ((2 * j + 1) * s.spacing m : Nat)) v.2 (fs vb) (isBad 1 j)) s
  s.stopChain m

/-! ## Openings and closes -/

/-- R215, R216: a guard window opens at `tg`: the survey window on its chain is preempted. With input delays that differ, `tg`
and the guard's close stand unchanged on the recorded scale of the survey channel (DESIGN CHOICE, log entry 89). -/
def State.preempt (s : State) (g : Nat) (tg : Int) : State :=
  let m := s.chainOf g
  (s.users m).foldl (fun s n =>
    let c := s.wave n
    if n = g ∨ s.flag .WCH_SOURCE_CLASS n = true then s
    else match c.wins.find? fun w => !w.shut with
      | none => s
      | some w =>
        let s := s.setWave n { c with
          wins := c.wins.map fun x => if x.shut then x else { x with shut := true, closes := some tg, how := 1 }
          waiting := some { w with closes := none } }
        (s.count .WCH_PREEMPT_COUNT n).raise .WCH_EVENT_PREEMPTED n) s

/-- The close of a window that opens at a time (R211). -/
def State.closeOf (s : State) (n : Nat) (o : Int) : Option Int :=
  if s.get .WCH_WIN_CFG_MODE n = 0 then none else some (o + s.get .WCH_WIN_LEN_COARSE n * 2048)

/-- A window opens at a time. -/
def State.pushWindow (s : State) (n : Nat) (o requested : Int) (restart : Bool) : State :=
  let c := s.wave n
  s.setWave n { c with
    wins := c.wins ++ [{ opened := o, requested := requested, closes := s.closeOf n o, restart := restart }] }

/-- R215: the guard window on a chain has closed at `tc`: the survey window restarts. -/
def State.guardClosed (s : State) (g : Nat) (tc : Int) : State :=
  let m := s.chainOf g
  let s := (s.users m).foldl (fun s n =>
    let c := s.wave n
    match c.waiting with
    | some w =>
      if n = g ∨ c.armed = false then s
      else (s.setWave n { c with waiting := none }).pushWindow n tc w.requested true
    | none => s) s
  s.reuser m (tc + s.delayOf (144 + g))

/-- R212: an opening is skipped. -/
def State.missWindow (s : State) (n : Nat) : State := (s.count .WCH_WIN_MISSED_COUNT n).raise .WCH_EVENT_MISSED n

/-- R211-R215: an opening of a channel falls due. -/
def State.openWindow (s : State) (n : Nat) (o : Int) : State :=
  let c := s.wave n
  let m := s.chainOf n
  let isOpen := c.wins.any fun w => !w.shut && w.before o
  if isOpen || c.waiting.isSome then s.missWindow n
  else if s.flag .WCH_SOURCE_CLASS n then
    (((s.preempt n o).pushWindow n o o false).reuser m (o + s.delayOf (144 + n))).followWindows n
  else
    let busy := (s.users m).any fun g => s.flag .WCH_SOURCE_CLASS g && (s.wave g).isOpen
    if busy then
      let s := s.setWave n { c with waiting := some { opened := o, requested := o, closes := none } }
      (s.count .WCH_PREEMPT_COUNT n).raise .WCH_EVENT_PREEMPTED n
    else ((s.pushWindow n o o false).reuser m (o + s.delayOf (144 + n))).followWindows n

/-- R211: the time of opening `j` of a TIMER channel. -/
def State.timerOpening (s : State) (n j : Nat) : Option Int :=
  let v := s.get .WCH_WIN_START_TIME n
  let period := s.get .WCH_WIN_PERIOD_COARSE n
  if period = 0 ∧ 0 < j then none
  else some ((ticksOf (bits v 32 32) (bits v 8 24) (bits v 0 8 * 2048) + j * period * 2048 : Nat) : Int)

/-- The opening of a channel that is next to fall due. -/
def State.nextOpening (s : State) (n : Nat) : Option Int :=
  match s.get .WCH_WIN_CFG_MODE n with
  | 1 => s.timerOpening n (s.wave n).nextJ
  | 2 => (s.wave n).due.head?
  | _ => none

/-- R211: WINDOW_OPEN: the next opening of a channel, if it has fallen due. -/
def State.windowDue (s : State) (n : Nat) : State :=
  let c := s.wave n
  match s.nextOpening n with
  | none => s
  | some o =>
    if c.armed ∧ c.startAt.isSome ∧ o ≤ s.recTick (144 + n) then
      (s.setWave n { c with nextJ := c.nextJ + 1, due := c.due.drop 1 }).openWindow n o
    else s

/-- R213: the window of a channel whose length has passed closes. -/
def State.shutWindow (s : State) (n : Nat) : State :=
  let c := s.wave n
  match c.wins.find? fun w => !w.shut with
  | none => s.followWindows n
  | some w =>
    match w.closes with
    | none => s.followWindows n
    | some x =>
      if x ≤ s.recTick (144 + n) then
        let s := s.setWave n { c with wins := c.wins.map fun y => if y.shut then y else { y with shut := true } }
        let s := if s.flag .WCH_SOURCE_CLASS n then s.guardClosed n x else s
        (s.followWindows n).stopChain (s.chainOf n)
      else s.followWindows n

/-- R211: a marker event reaches the MARKER channels. -/
def State.waveMarker (s : State) (k : Nat) (at_ : Int) : State :=
  (List.range 16).foldl (fun s n =>
    let c := s.wave n
    if c.armed ∧ c.startAt.isSome ∧ s.get .WCH_WIN_CFG_MODE n = 2 ∧ s.get .WCH_WIN_CFG_MK n = k then
      s.setWave n { c with due := c.due ++ [ceilCoarse at_ + s.get .WCH_WIN_DELAY_COARSE n * 2048] }
    else s) s

/-! ## Arm, start, disarm, commit -/

/-- R211: whether the configuration refuses an arm. -/
def State.waveBad (s : State) (n : Nat) : Bool :=
  let len := s.get .WCH_WIN_LEN_COARSE n
  let period := s.get .WCH_WIN_PERIOD_COARSE n
  (s.get .WCH_WIN_CFG_MODE n != 0 && decide (len = 0)) || (decide (period ≠ 0) && decide (period ≤ len))

/-- The checks of an arm of a waveform channel, as bus errors (R41, R93, R211). -/
def State.armWaveError (s : State) (n : Nat) : Option Nat :=
  if (s.wave n).armed || (s.wave n).pend then none
  else lowestCode [(s.waveBad n, eValue), (s.dev == .hold, eState),
    (s.flag .WCH_SOURCE_CLASS n && s.overSlice (s.costOf (.wave n)), eBudget)]

/-- R218: queues START_WAVEFORM. -/
def State.armWave (s : State) (n : Nat) : State :=
  let c := s.wave n
  if c.armed || c.pend then s
  else (s.setWave n { c with pend := true }).submit (if s.flag .WCH_SOURCE_CLASS n then 0 else 2) (.wave n)

/-- START_WAVEFORM is admitted. -/
def State.admitWave (s : State) (n : Nat) : State :=
  let c := s.wave n
  s.setWave n { c with pend := false, armed := true, admitAt := s.now, startAt := none, nextJ := 0, due := [],
                       waiting := none }

/-- R206, R211, R212: the start instant of a channel. -/
def State.startIngest (s : State) (n : Nat) : State :=
  let c := s.wave n
  let m := s.chainOf n
  if !c.armed || c.startAt.isSome || !s.time.valid || s.startsHeld || !s.slotsAligned m then s
  else
    let runs := s.chainRuns m
    let start := ceilCoarse (s.recTick (144 + n))
    let s := (s.setWave n { c with startAt := some s.now }).setSure (144 + n) (start - 2048)
    let s := if runs then s.reuser m s.tick
      else
        let d := s.wave m
        let set := { s.waveSet (s.chainUser m) s.tick with change := 3, len := 2048 }
        s.setWave m { d with sets := [set], set := { set with len := 0 }, corr := d.kept.getD (0, 0, 0) }
    match s.get .WCH_WIN_CFG_MODE n with
    | 0 => s.openWindow n start
    | 1 =>
      let period := s.get .WCH_WIN_PERIOD_COARSE n * 2048
      let first := ((s.timerOpening n 0).getD 0)
      if period = 0 then
        if first < start then (s.setWave n { s.wave n with nextJ := 1 }).missWindow n else s
      else s.setWave n { s.wave n with nextJ := ((start - first).toNat + (period - 1)) / period }
    | _ => s

/-- R196: at a disarm the chain stores its estimates, once converged. -/
def State.keepCorr (s : State) (m : Nat) : State :=
  let c := s.wave m
  if s.chainRuns m && decide (c.invalid = 0) && decide (c.conv = 0) && !c.settling then
    s.setWave m { c with kept := some c.corr }
  else s

/-- R43, R213: the disarm of a waveform channel. -/
def State.disarmWave (s : State) (n : Nat) : State :=
  let c := s.wave n
  if c.pend then (s.setWave n { c with pend := false }).retract (.wave n)
  else if !c.armed then s
  else
    let m := s.chainOf n
    let now := s.recTick (144 + n)
    -- a window that closes in this cycle closes at its own instant
    let due := c.wins.any fun w => !w.shut && !w.before now
    let s := if due then (s.shutWindow n).raise .WCH_EVENT_ABORT_LATE n else s
    let s := s.keepCorr m
    let c := s.wave n
    let x := ceilCoarse now
    let open_ := c.isOpen
    let s := s.setWave n { c with
      armed := false, startAt := none, due := [], waiting := none
      wins := c.wins.map fun w => if w.shut then w else { w with shut := true, closes := some x, how := 2 } }
    let s := if open_ && s.flag .WCH_SOURCE_CLASS n then s.guardClosed n x else s.reuser m s.tick
    (((s.followWindows n).endWindows n).stopChain m).releaseCost (.wave n)

/-- The SH fields of a waveform channel (R201). -/
def waveShadows : List Fld :=
  [.WCH_GAIN_G, .WCH_FILT_ORDER, .WCH_FILT_FC, .WCH_NOTCH_F, .WCH_NOTCH_ENABLE, .WCH_XTHRESH_LEVEL, .WCH_XTHRESH_HYST]

/-- R201: a committed shadow is applied at an instant. -/
def State.applyWave (s : State) (n inst : Nat) : State :=
  let s := (s.applyAll waveShadows n).bump .WCH_COMMIT_APPLIED_SEQ n
  let s := s.setWave n { s.wave n with commit := none }
  let m := s.chainOf n
  if s.chainRuns m && (s.wave m).lastSet.chan == n then s.switchSet m n (s.ticksAt inst) else s

/-- R201, R132: what a frame boundary does to the waveform channels; a COMMIT of its own cycle waits for the next. -/
def State.frameWaves (s : State) (inst : Nat) : State :=
  (List.range 16).foldl (fun s n =>
    match (s.wave n).commit with
    | some x => if x < inst then s.applyWave n inst else s
    | none => s) s

/-- R132: before time valid, a committed shadow is applied 1 µs after its COMMIT. -/
def State.earlyWave (s : State) (n : Nat) : State :=
  match (s.wave n).commit with
  | some x => if !s.time.valid && decide (x + qUs ≤ s.now) then s.applyWave n (x + qUs) else s
  | none => s

/-- R193: a CRC-12 mismatch on a slot: the multiblock is not used. Which of the three of the extended multiblock it is
the command does not say (log entry 30). -/
def State.crcError (s : State) (slot : Nat) : State :=
  let m := slot / 2
  if (s.slot slot).state = 3 ∧ s.chainRuns m = true ∧ s.slotUsed slot = true then
    let (v, s) := s.free
    let s := s.setWave m { s.wave m with badIn := (slot % 2, v % 3) :: (s.wave m).badIn }
    (s.users m).foldl (fun s n =>
      if (s.wave n).armed then (s.count .WCH_CRC_ERR_COUNT n).raise .WCH_EVENT_CRC n else s) s
  else s

/-- R193: an ingest fault of a slot, but for the change of device state: data stops on its chain. -/
def State.loseIngest (s : State) (slot : Nat) : State :=
  let m := slot / 2
  let s := s.setSlot slot { s.slot slot with state := 0, margins := [], bad := [], failed := true }
  (s.users m).foldl (fun s n =>
    if (s.wave n).armed then
      let s := s.raise .WCH_EVENT_INGEST_FAULT n
      let s := s.setWave m { s.wave m with outage := s.chainRuns m }
      if (s.src (144 + n)).taking then s.loseSample n else s
    else s) s

/-- R191: the margin of a slot at a release joins those of the last second: no earlier one that is not less counts further. -/
def State.noteMargin (s : State) (slot octets : Nat) : State :=
  if (s.slot slot).state = 3 then
    let c := s.slot slot
    s.setSlot slot { c with margins :=
      (c.margins.filter fun x => decide (s.now ≤ x.1 + qSec) && decide (x.2 < octets)) ++ [(s.now, octets)] }
  else s

/-- R191: the least margin of a slot over the last second, saturating at 255. -/
def State.leastMargin (s : State) (slot : Nat) : Nat :=
  match (s.slot slot).margins.find? fun x => decide (s.now ≤ x.1 + qSec) with
  | some x => min x.2 255
  | none => 0

/-- R191: a slot in EMB is aligned at a SYSREF pulse after time valid. -/
def State.alignSlots (s : State) : State :=
  if !s.time.valid then s
  else (List.range 32).foldl (fun s x =>
    if (s.slot x).state = 2 then s.setSlot x { s.slot x with state := 3, margins := [], failed := false }
    else s) s

/-! ## Commands -/

/-- R206: INGEST_START. -/
def execIngestStart (t n : Nat) (s : State) : Host.Outcome State Fault Refusal :=
  if n < numWaves then .next ((s.at t).startIngest n) else .fault .noSuchUnit

/-- R202: WAVEFORM_SETTLE_END: the settle of a window is written once the stream has reached its boundary. -/
def execWaveformSettleEnd (t n : Nat) (s : State) : Host.Outcome State Fault Refusal :=
  if n < numWaves then .next ((s.at t).followWindows n) else .fault .noSuchUnit

/-- R204: CONV_END: the interval is over once its samples have passed. -/
def execConvEnd (t n : Nat) (s : State) : Host.Outcome State Fault Refusal :=
  if n < numWaves then
    let s := s.at t
    let m := s.chainOf n
    let c := s.wave m
    .next (if c.conv = 0 then s.setWave m { c with convOn := false } else s)
  else .fault .noSuchUnit

/-- R211: WINDOW_OPEN. -/
def execWindowOpen (t n : Nat) (s : State) : Host.Outcome State Fault Refusal :=
  if n < numWaves then .next ((s.at t).windowDue n) else .fault .noSuchUnit

/-- R213: WINDOW_CLOSE. -/
def execWindowClose (t n : Nat) (s : State) : Host.Outcome State Fault Refusal :=
  if n < numWaves then .next ((s.at t).shutWindow n) else .fault .noSuchUnit

end Sys2Proof.Machine
end

