-- ==== Sys2Proof/Machine/Capture.lean ====
section
/-!
DEFINITION. Acquisition units and pans (chapter 9): the fill of a pan, trigger conditions, the extent of a capture, its
header and closing items, stream-through, arm and disarm. An item is given its place in the pan as it is delivered; the
write queues count what still waits for a grant (log entry 24).
-/

namespace Sys2Proof.Machine

/-! ## The configuration of a unit -/

/-- The instances of a unit's source entries and trigger conditions in the register maps. -/
def srcKey (n i : Nat) : Nat := n * 32 + i
def trgKey (n c : Nat) : Nat := n * 8 + c

/-- R251: the enabled sources of a unit, in the order of their entries. -/
def State.aqSrcs (s : State) (n : Nat) : List Nat :=
  ((List.range 32).filter fun i => s.flag .AQ_SRC_ENABLE (srcKey n i)).map fun i => s.get .AQ_SRC_SRC (srcKey n i)

/-- R251: whether the unit writes a pan. -/
def State.aqStores (s : State) (n : Nat) : Bool := s.flag .AQ_CFG_STORE n

/-- R267: whether the unit streams through. -/
def State.aqStream (s : State) (n : Nat) : Bool := s.aqStores n && s.flag .AQ_STREAM_ENABLE n

/-- R252: whether a unit is guard by its configuration. -/
def State.aqGuard (s : State) (n : Nat) : Bool := (s.aqSrcs n).any fun k => s.srcGuard k

/-- The pans of a unit's set. -/
def State.panSet (s : State) (n : Nat) : List Nat :=
  (List.range (s.get .AQ_PANS_COUNT n)).map (s.get .AQ_PANS_FIRST n + ·)

/-- R253: the words and the fabric address of a pan. -/
def State.panWords (s : State) (p : Nat) : Nat := s.get .PAN_LEN_LEN p * 8192
def State.panAddr (s : State) (p : Nat) : Nat := s.get .PAN_BASE_BASE p * 65536

/-- Whether a unit is armed or pending. -/
def Acq.live (a : Acq) : Bool := a.armed || a.pend

/-- The storing units, other than `n`, that are armed or pending. -/
def State.otherUnits (s : State) (n : Nat) : List Nat :=
  (List.range 16).filter fun m => m != n && (s.acq m).live && s.aqStores m

/-- The next multiple of 8: the end of a 64 B unit, in words. -/
def ceil8 (n : Nat) : Nat := (n + 7) / 8 * 8

/-! ## Write queues and grants -/

/-- R34, R269: the grants of 64 B that the survey share and the reserve have passed at an instant: 348.16 GB/s are 17 in
3,125 ps, 163.84 GB/s are 8. -/
def surveyGrants (x : Nat) : Nat := x * 17 / 51200000
def guardGrants (x : Nat) : Nat := x * 8 / 51200000

/-- R269: whether a unit takes a grant of its share: eight words queued, or a closing item to finish. -/
def Acq.wants (a : Acq) (guard : Bool) : Bool :=
  a.guard == guard && (decide (8 ≤ a.queued) || (a.closing && decide (0 < a.queued)))

/-- R269: up to eight words of a write queue go to memory. -/
def Acq.grant (a : Acq) (k : Nat) : Acq :=
  { a with queued := a.queued - k, closing := a.closing && decide (k < a.queued) }

/-- R269: grants go round robin to the units of a share while it has words left; the first number bounds them. The answers
are the words left and the unit that is served next. -/
def State.grantRound (guard : Bool) : Nat → Nat → Nat → State → (Nat × Nat) × State
  | 0, words, turn, s => ((words, turn), s)
  | fuel + 1, words, turn, s =>
    match ((List.range 16).map fun i => (turn + i) % 16).find? fun n => (s.acq n).wants guard with
    | none => ((words, turn), s)
    | some n =>
      let k := min 8 (s.acq n).queued
      if words < k then ((words, turn), s)
      else State.grantRound guard fuel (words - k) ((n + 1) % 16) (s.setAcq n ((s.acq n).grant k))

/-- R269: the own words of guard units go before the rest of the survey share. -/
def State.grantOwn (words : Nat) (s : State) : Nat × State :=
  (List.range 16).foldl (fun (r : Nat × State) n =>
    let a := r.2.acq n
    let k := min r.1 a.own
    (r.1 - k, if k = 0 then r.2 else r.2.setAcq n { a with own := a.own - k })) (words, s)

/-- R269: what the two shares have written into memory by now. A grant that no unit needed is lost. -/
def State.drainQueues (s : State) : State :=
  let fuel := ((List.range 16).map fun n => ((s.acq n).queued + 7) / 8).sum
  let sh := s.share
  let (words, s) := s.grantOwn (8 * (surveyGrants s.now - sh.survey))
  let r := State.grantRound false fuel words sh.turn s
  let g := State.grantRound true fuel (8 * (guardGrants s.now - sh.reserve)) sh.turnG r.2
  { g.2 with share := { survey := surveyGrants s.now, reserve := guardGrants s.now, turn := r.1.2, turnG := g.1.2 } }

/-- The words that a write queue holds (R269). -/
def queueWords : Nat := 2048

/-- R270: whether a unit that stores a source at present has room for an item in its write queue; a guard unit is never held
back (R271). -/
def State.hasRoom (s : State) (n len : Nat) : Bool :=
  let a := s.acq n
  a.guard || !s.aqStores n || !(3 ≤ a.state && a.state ≤ 6) || decide (a.queued + len ≤ queueWords)

/-- R270: whether the fabric accepts a word of a source: every storing survey unit that stores it has room for the item, or a
guard unit stores it too. -/
def State.accepts (s : State) (k len : Nat) : Bool :=
  let us := (List.range 16).filter fun n => (s.acq n).armed && (s.aqSrcs n).contains k
  (us.all fun n => s.hasRoom n len) || us.any fun n => (s.acq n).guard && s.aqStores n

/-- Own words of a unit join what waits for a grant (R269). -/
def Acq.addOwn (a : Acq) (len : Nat) (closing : Bool) : Acq :=
  if a.guard then { a with own := a.own + len } else { a with queued := a.queued + len, closing := a.closing || closing }

/-! ## The sources of a capture -/

/-- What a unit knows of a source at present: the stream as the fabric has delivered it. -/
def State.srcNow (s : State) (k : Nat) : AqSrc :=
  let r := s.src k
  { base := r.fabTime, qual := r.fabQual, based := r.fabBased, expect := r.fabSeq }

/-- The state of a source of a unit. -/
def srcOf (m : SMap AqSrc) (k : Nat) : AqSrc := SMap.get (fun _ => {}) m k

/-- R266, R175: an item is carried into the per-source base, as a reader would. -/
def foldItem (m : SMap AqSrc) : Item → SMap AqSrc
  | .edge e =>
    let x := srcOf m e.src
    SMap.put m e.src { x with base := x.base + e.delta, expect := (e.seq + 1) % 256 }
  | .anchor src seq reason time =>
    if reason < 0x80 then
      let x := srcOf m src
      SMap.put m src { x with based := true, qual := time % 32, expect := seq
                              base := (ticksOf (time / 2 ^ 48) (time / 2 ^ 24 % 2 ^ 24) (time / 2 ^ 5 % 2 ^ 19) : Nat) }
    else m
  | _ => m

/-! ## Writing the pan -/

/-- Writes words of a capture from word `i` on, in the ring of the pan (R253). -/
def State.panWrite (s : State) (p i : Nat) : List Nat → State
  | [] => s
  | w :: ws =>
    let a := s.panAddr p + i % max 1 (s.panWords p) * 8
    ((s.writeLe a 8 w).cleanUnits a 8).panWrite p (i + 1) ws

/-- R266: the first word of a ring capture that is not overwritten when `stored` words have been written. -/
def ringLimit (stored words : Nat) : Nat := ceil8 stored - words

/-- R267: hands the completed 4 KiB blocks of a pan to its Sluice channel, and at the close the rest. -/
def State.handBlocks (s : State) (n upTo : Nat) (close : Bool) : State :=
  let a := s.acq n
  let c := s.get .AQ_STREAM_SL n
  let p := a.pan
  let at_ := fun (i : Nat) => s.panAddr p + i % max 1 (s.panWords p) * 8
  let left := upTo - a.handed
  let full := if close then (left - 1) / 512 else left / 512
  let blocks : List Handed := (List.range full).map fun i =>
    { addr := at_ (a.handed + i * 512), len := 4096, left := 4096, unit := n, pan := p, last := false }
  let rest : List Handed := if close ∧ 0 < left then
      [{ addr := at_ (a.handed + full * 512), len := (left - full * 512) * 8, left := (left - full * 512) * 8, unit := n, pan := p,
         last := true }]
    else []
  let s := s.setSl c { s.sl c with inbox := (s.sl c).inbox ++ blocks ++ rest }
  s.setAcq n { a with handed := if close then upTo else a.handed + full * 512 }

/-! ## The capture header -/

/-- What a capture header holds (R272). -/
structure Header where
  unit   : Nat
  kind   : Nat
  mode   : Nat
  pan    : Nat
  cause  : Nat
  met    : Nat
  capSeq : Nat
  time   : Nat
  stop   : Nat
  flags  : Nat
  first  : Nat
  post   : Nat
  extra  : Nat
  fill   : Nat
  pre    : Nat
  deriving DecidableEq, Repr

/-- R272: the six fixed words of a header with `nsrc` source entries. -/
def Header.fixed (h : Header) (nsrc : Nat) : List Nat :=
  [0xE4 * 2 ^ 56 + (6 + 2 * nsrc) * 2 ^ 48 + h.unit * 2 ^ 44 + h.kind * 2 ^ 42 + h.mode * 2 ^ 40 + h.pan * 2 ^ 32 +
      h.cause * 2 ^ 28 + h.met * 2 ^ 20 + h.capSeq % 2 ^ 20,
    h.time % 2 ^ 64,
    h.time / 2 ^ 64 % 2 ^ 16 * 2 ^ 48 + h.stop * 2 ^ 44 + h.flags * 2 ^ 32 + h.first % 2 ^ 32,
    h.extra % 2 ^ 24 * 2 ^ 40 + h.post % 2 ^ 40,
    h.fill % 2 ^ 64,
    nsrc * 2 ^ 40 + h.pre % 2 ^ 40]

/-- R274: the entry of a source. -/
def sourceEntry (k : Nat) (x : AqSrc) (seq : Nat) (ovf stopper noWords : Bool) (edges : Nat) : List Nat :=
  let base := if x.based then wordOf x.base x.qual else 0
  [k * 2 ^ 56 + seq * 2 ^ 48 + (b2n x.based + 2 * b2n ovf + 4 * b2n stopper + 8 * b2n noWords) * 2 ^ 40 +
      min edges 0xFFFFFF * 2 ^ 16 + base / 2 ^ 64 % 2 ^ 16,
    base % 2 ^ 64]

/-- R272: the OPEN header of a stream-through capture. -/
def State.openHeader (s : State) (n : Nat) : List Nat :=
  let a := s.acq n
  let ks := s.aqSrcs n
  let h : Header := { unit := n, kind := 1, mode := s.get .AQ_CFG_MODE n, pan := a.pan, cause := 15, met := 0, capSeq := a.capSeq, time := 0, stop := 0, flags := 2 ^ 5, first := 0, post := 0, extra := 0, fill := wordOf a.fillAt s.qual / 2 ^ 16, pre := 0 }
  h.fixed ks.length ++ ks.flatMap fun k =>
    let x := srcOf a.srcs k
    sourceEntry k x x.expect false false false 0

/-- R264, R272-R275: the closing items of a capture: their words from word `stored` on, the word of the CLOSE header, and
whether PRE_LOST is set. `mark` is the source of an OVERFLOW mark with CAUSE PAN. -/
def State.closingItems (s : State) (n stop : Nat) (mark : Option Nat) (late : Bool) : List Nat × Nat × Bool :=
  let a := s.acq n
  let ks := s.aqSrcs n
  let words := s.panWords a.pan
  let stream := s.aqStream n
  let final := a.kept.foldl (fun m x => foldItem m x.2) a.srcs
  let own : List Item := (match mark with
      | some k => [.overflow k (srcOf final k).expect 4 0]
      | none => []) ++ (match a.viol with
      | some v => if stop = 6 then [.violation v.2] else []
      | none => [])
  let ownWords := own.flatMap Item.words
  let hdr := a.stored + ownWords.length
  let stop_ := ceil8 (hdr + 6 + 2 * ks.length)
  let tw := match a.trig with
    | some t => if t.word < a.stored then t.word else hdr
    | none => hdr
  let want := if stream then a.head else tw - s.get .AQ_PRE_WORDS n
  let limit := if stream then 0 else stop_ - words
  let items := a.kept ++ (if ownWords = [] then [] else [(a.stored, .pad)]) ++ [(hdr, .pad)]
  let first := ((items.find? fun x => decide (max want limit ≤ x.1)).map (·.1)).getD hdr
  let base := (a.kept.filter fun x => decide (x.1 < first)).foldl (fun m x => foldItem m x.2) a.srcs
  let held := a.kept.filter fun x => decide (first ≤ x.1)
  let lost := !stream && decide (want < tw) && decide (want < limit)
  let short := !stream && decide (tw - a.head < s.get .AQ_PRE_WORDS n)
  let gap := (held.any fun x => x.2.isOverflow && decide (x.1 < tw)) ||
    a.drops.any fun x => decide (first ≤ x.1) && decide (x.1 < tw)
  let above := a.guard && held.any fun x => x.2.isOverflow && (x.2.src.map s.srcGuard).getD false
  let post := if a.trig.isSome then a.stored - tw else 0
  let h : Header := { unit := n, kind := 0, mode := s.get .AQ_CFG_MODE n, pan := a.pan, cause := (a.trig.map (·.cause)).getD 15, met := (a.trig.map (·.met)).getD 0, capSeq := a.capSeq, time := (a.trig.map fun t => wordOf t.time t.qual).getD 0, stop := stop, flags := b2n lost + 2 * b2n short + 4 * b2n gap + 8 * b2n above + 16 * b2n late + 32 * b2n stream + 64 * b2n ((a.trig.map (·.forced)).getD false), first := first % max 1 words, post := post, extra := if a.trig.isSome then post - s.get .AQ_POST_WORDS n else 0, fill := wordOf a.fillAt s.qual / 2 ^ 16, pre := tw - first }
  let entries := ks.flatMap fun k =>
    let mine := held.filter fun x => decide (x.2.src = some k)
    let edges := mine.filterMap fun x => match x.2 with
      | .edge e => some e
      | _ => none
    let x := if mine = [] then srcOf final k else srcOf base k
    let seq := match edges with
      | e :: _ => e.seq
      | [] => (srcOf final k).expect
    sourceEntry k x seq (mine.any fun y => y.2.isOverflow) (stop == 4 && mark == some k) (mine == []) edges.length
  let all := ownWords ++ h.fixed ks.length ++ entries
  (all ++ List.replicate (stop_ - (a.stored + all.length)) (0xE0 * 2 ^ 56), hdr, lost)

/-! ## Filling -/

/-- R256, R254: the pan that the next capture takes, if its set has one. -/
def State.nextPan (s : State) (n : Nat) : Option Nat :=
  let set := s.panSet n
  let a := s.acq n
  let start := if a.used then a.pan else s.get .AQ_PANS_FIRST n
  let turn := (set.filter fun p => decide (start ≤ p)) ++ set.filter fun p => decide (p < start)
  match turn.find? fun p => (s.pan p).state == 0 with
  | some p => some p
  | none =>
    if s.flag .AQ_CFG_RECYCLE n then
      (set.filter fun p => (s.pan p).state == 2).foldl (fun best p => match best with
        | some b => if (s.pan p).closed < (s.pan b).closed then some p else some b
        | none => some p) none
    else none

/-- R281: a unit in WAIT that lacks only a FREE pan. -/
def State.noPan (s : State) (n : Nat) : State :=
  if (s.acq n).state == 2 && s.hbm.trained && s.aqStores n && (s.nextPan n).isNone then s.raise .AQ_EVENT_NO_PAN n else s

/-- The unit waits for its next capture. -/
def State.waitFill (s : State) (n : Nat) : State := (s.setAcq n { s.acq n with state := 2 }).noPan n

/-- R256, R267, R272: fill start. -/
def State.fillNow (s : State) (n : Nat) : State :=
  let s := s.drainQueues
  let a := s.acq n
  let fresh : SMap AqSrc := (s.aqSrcs n).foldl (fun m k => SMap.put m k (s.srcNow k)) []
  let conds := if a.began then a.conds.map fun x => (x.1, { x.2 with count := 0 }) else []
  let a := { a with state := 3, fillAt := s.tick, stored := 0, head := 0, kept := [], srcs := fresh, trig := none,
                    conds := conds, handed := 0, drained := 0, viol := none, lastSrc := none, drops := [] }
  if !s.aqStores n then s.setAcq n { a with began := true }
  else
    match s.nextPan n with
    | none => s
    | some p =>
      let stream := s.aqStream n
      let s := (s.put .PAN_STATUS_OWNER p n).put .PAN_HDR_OFS p 0xFFFFFFFF
      let s := s.setPan p { s.pan p with state := if stream then 3 else 1 }
      let s := s.setAcq n { a with pan := p, used := true, began := true }
      if stream then
        let ws := s.openHeader n
        let c := s.get .AQ_STREAM_SL n
        let s := if a.began then s else s.startSlu c
        let s := s.panWrite p 0 ws
        s.setAcq n { (s.acq n).addOwn ws.length false with stored := ws.length, head := ws.length }
      else s

/-- R256: FILL_START takes place once every condition holds. A stream-through capture may begin to fill while Sluice is halted:
R268 stops those that run at the halt (DESIGN CHOICE, log entry 77). -/
def State.fillStart (s : State) (n : Nat) : State :=
  let a := s.acq n
  if a.armed && a.state == 2 && (a.began || !s.startsHeld) && s.hbm.trained && (!s.aqStores n || (s.nextPan n).isSome) then s.fillNow n else s

/-! ## Closing -/

/-- R276, R342: the unit leaves its arm; its Sluice channel is released once it has read the last block. -/
def State.leaveArm (s : State) (n : Nat) : State :=
  let s := s.setAcq n { s.acq n with state := 0, armed := false, began := false, holdEnd := none, conds := [] }
  let s := s.setMask n {}
  let s := (s.setCry n { s.cry n with starts := [], sweep := none, swept := none, hists := [] }).put .AQ_ARM_ARM n 0
  let c := s.get .AQ_STREAM_SL n
  let s := if (s.sl c).held = some n ∧ (s.sl c).inbox = [] then s.freeSlu c true else s
  s.releaseCost (.acq n)

/-- R263, R275-R277, R257: a capture closes with a STOP code: its closing items, its pan, its events, and what the unit
does next. -/
def State.closeAcq (s : State) (n stop : Nat) (mark : Option Nat) (late : Bool) : State :=
  let s := s.drainQueues
  let a := s.acq n
  let stores := s.aqStores n
  let s := if stores then
      let (ws, hdr, lost) := s.closingItems n stop mark late
      let s := s.panWrite a.pan a.stored ws
      let s := s.setAcq n { (s.acq n).addOwn ws.length true with stored := a.stored + ws.length }
      let s := if s.aqStream n then s.handBlocks n (a.stored + ws.length) true
        else s.setPan a.pan { state := 2, closed := s.now }
      let s := (s.put .PAN_HDR_OFS a.pan (hdr % max 1 (s.panWords a.pan))).put .PAN_STATUS_CAPSEQ a.pan a.capSeq
      if lost then s.raise .AQ_EVENT_PRE_LOST n else s
    else s
  let s := s.count .AQ_CAPTURES_COUNT n
  let s := if stop = 1 then s.raise .AQ_EVENT_CAPTURED n else (s.count .AQ_STOPS_COUNT n).raise .AQ_EVENT_STOPPED n
  let s := if late then s.raise .AQ_EVENT_ABORT_LATE n else s
  let b := s.acq n
  let s := s.setAcq n { b with
    capSeq := (b.capSeq + 1) % 2 ^ 20, kept := [], viol := none
    last := b.trig.map fun t => (t.time, s.tick)
    holdEnd := match b.trig with
      | some t => some (t.time + s.get .AQ_HOLDOFF_COARSE n * 2048)
      | none => b.holdEnd
    trig := none }
  if stop = 3 then s.leaveArm n
  else if s.get .AQ_CFG_MODE n = 0 then s.setAcq n { s.acq n with state := 7 }
  else s.waitFill n

/-- R263: whether catch-up to a time is complete: each source that is taking edges has delivered a word of that time or
later, or its buffer has been reported empty at a coarse boundary at or after it. -/
def State.caughtUp (s : State) (n : Nat) (t : Int) : Bool :=
  (s.aqSrcs n).all fun k =>
    !(s.src k).taking || (match (srcOf (s.acq n).srcs k).seen with
      | some x => decide (t ≤ x)
      | none => false) || decide (t ≤ s.emptyBound k)

/-- R263: whether the capture is complete. -/
def State.captureDone (s : State) (n : Nat) : Bool :=
  let a := s.acq n
  match a.trig with
  | none => false
  | some t =>
    a.state == 5 && (decide ((s.aqSrcs n) = []) || decide (s.get .AQ_POST_WORDS n ≤ a.stored - t.word)) && s.caughtUp n t.time

/-- R275: the source that the mark of a stop without a word of its own names. -/
def State.stopSource (s : State) (n : Nat) : Nat := (s.acq n).lastSrc.getD ((s.aqSrcs n).headD 0)

/-! ## Storing -/

/-- R263-R271: an item of a source of the unit is delivered. -/
def State.storeItem (s : State) (n k : Nat) (i : Item) (time : Int) : State :=
  let a := s.acq n
  if !(3 ≤ a.state && a.state ≤ 6) then s
  else
    let len := i.len
    let words := s.panWords a.pan
    let stream := s.aqStream n
    if !s.hasRoom n len then
      -- R270: dropped for this capture, as an OVERFLOW mark of the source
      if a.state = 5 then s.closeAcq n 4 (some k) false
      else s.setAcq n { a with drops := a.drops ++ [(a.stored, k)] }
    else if stream && decide (words < ceil8 (a.stored + len) - a.drained + 256) then s.closeAcq n 5 (some k) false
    else
      let s := if s.aqStores n then s.panWrite a.pan a.stored i.words else s
      let stored := a.stored + len
      let seen := fun (m : SMap AqSrc) => SMap.put m k { srcOf m k with seen := some time }
      let limit := if stream then 0 else ringLimit stored words
      let kept := if s.aqStores n then a.kept ++ [(a.stored, i)] else []
      let gone := kept.takeWhile fun x => decide (x.1 < limit)
      let s := s.setAcq n { a with
        stored := stored, kept := kept.drop gone.length, lastSrc := some k
        queued := if s.aqStores n then a.queued + len else a.queued
        srcs := seen (gone.foldl (fun m x => foldItem m x.2) a.srcs) }
      let s := if stream then s.handBlocks n stored false else s
      if i.isOverflow && a.state == 5 && !a.guard then s.closeAcq n 4 (some k) false else s

/-! ## Trigger conditions -/

/-- What can meet a condition: an edge that reaches the fabric, a break of a source, an assertion of a monitor, a trigger
command. -/
inductive TrgEvent where
  | edge (k : Nat) (t : Int) (pol est cv : Bool)
  | brk (k : Nat)
  | assert (n : Nat) (t : Int)
  | link (code : Nat) (t : Int)
  deriving DecidableEq, Repr

/-- R259: the INTERVAL pairs that an edge completes: the new state and the instant met. -/
def intervalStep (x : CondState) (isA isB : Bool) (t lo hi : Int) : CondState × Option Int :=
  let out := fun (d : Int) => decide (d < lo) || decide (hi < d)
  let (x, met) := if isA then
      match x.bs.find? fun b => decide (t ≤ b) with
      | some b => ({ x with a := none, bs := x.bs.filter fun y => decide (b < y) }, if out (b - t) then some b else none)
      | none => ({ x with a := some t, bs := [] }, none)
    else (x, none)
  if isB then
    match x.a with
    | some a =>
      if a ≤ t then ({ x with a := none }, if out (t - a) then some t else met)
      else ({ x with bs := (x.bs ++ [t]).drop (x.bs.length + 1 - 16) }, met)
    | none => ({ x with bs := (x.bs ++ [t]).drop (x.bs.length + 1 - 16) }, met)
  else (x, met)

/-- R259, R260: one event for one condition: its new state, and the instant at which it is met. -/
def State.condStep (s : State) (n c : Nat) (x : CondState) (ev : TrgEvent) : CondState × Option Int :=
  let i := trgKey n c
  let src := s.get .AQ_TRG_CTL_SRC i
  let lo := s.get .AQ_TRG_LO_VALUE i
  match s.get .AQ_TRG_CTL_TYPE i, ev with
  | 1, .edge k t pol est _ => (x, if !est && k == src && selects (s.get .AQ_TRG_CTL_EDGE i) pol then some t else none)
  | 2, .edge k t pol est _ =>
    let mask := (List.range 32).filter fun e => bit (s.get .AQ_TRG_MASK_BITS i) e
    let mine := mask.filter fun e => s.get .AQ_SRC_SRC (srcKey n e) == k
    if est || mine == [] || !selects (s.get .AQ_TRG_CTL_EDGE i) pol then (x, none)
    else
      let w : Int := lo * 2048
      let seen := (x.seen.filter fun y => decide (t - w - 16777216 ≤ y.2)) ++ mine.map fun e => (e, t)
      let met := mask.all fun e => seen.any fun y => y.1 == e && decide (t - w ≤ y.2) && decide (y.2 ≤ t)
      ({ x with seen := seen }, if met then some t else none)
  | 3, .edge k t pol est _ =>
    if est then (x, none)
    else intervalStep x (k == src && selects (s.get .AQ_TRG_CTL_EDGE i) pol)
      (k == s.get .AQ_TRG_CTL_SRC_B i && selects (s.get .AQ_TRG_CTL_EDGE_B i) pol) t lo (s.get .AQ_TRG_HI_VALUE i)
  | 3, .brk k => (if k = src ∨ k = s.get .AQ_TRG_CTL_SRC_B i then { x with a := none, bs := [] } else x, none)
  | 4, .edge k t pol est _ =>
    if !est && k == src && selects (s.get .AQ_TRG_CTL_EDGE i) pol then
      ({ x with count := x.count + 1 }, if x.count + 1 = lo then some t else none)
    else (x, none)
  | 5, .assert m t => (x, if m = src then some t else none)
  | 6, .edge k t pol est cv =>
    (x, if !est && k == src && selects (s.get .AQ_TRG_CTL_EDGE i) pol && !(bit lo 0 && cv) then some t else none)
  | 7, .link code t => (x, if code = lo % 256 then some t else none)
  | 8, .edge k t pol _ _ =>
    let active := if s.flag .TB_PPS_CFG_EDGE then !pol else pol
    let sec := (t + (tSec / 2 : Nat)) / (tSec : Nat)
    (x, if k = srcPps ∧ active = true ∧ lo ≠ 0 ∧ (sec % 4294967296).toNat % lo = 0 then some t else none)
  | _, _ => (x, none)

/-- R257: AQ_IGNORED advances once for each fabric cycle. -/
def State.ignored (s : State) (n : Nat) : State :=
  let a := s.acq n
  if a.ignAt = some (fabCycle s.now) then s
  else (s.setAcq n { a with ignAt := some (fabCycle s.now) }).count .AQ_IGNORED_COUNT n

/-- R261-R263: the unit decides a trigger. -/
def State.trigger (s : State) (n cause met : Nat) (t : Int) (forced : Bool) : State :=
  let a := s.acq n
  let (word, before) := match a.trig with
    | some x => (x.word, x.before)
    | none => (a.stored, s.get .AQ_LAST_T_TIME n)
  let s := s.setAcq n { a with
    state := 5, trig := some { cause := cause, met := met, time := t, qual := s.qual, word := word, at_ := s.now, forced := forced,
                               before := before } }
  s.put .AQ_LAST_T_TIME n (time64 t)

/-- R262: whether a trigger was decided in the present fabric cycle. -/
def State.sameCycle (s : State) (x : Trig) : Bool := fabCycle x.at_ == fabCycle s.now

/-- R257, R262: the conditions met by one event, with their instants. -/
def State.condsMet (s : State) (n : Nat) (mets : List (Nat × Int)) : State :=
  let a := s.acq n
  let due := mets.filter fun x => match a.holdEnd with
    | some h => decide (h ≤ x.2)
    | none => true
  let bits := fun (l : List (Nat × Int)) => (l.map fun x => 2 ^ x.1).sum
  match a.state, due, a.trig with
  | 4, (c, t) :: _, _ =>
    let s := s.trigger n c (bits due) t false
    if due.length = mets.length then s else s.ignored n
  | 5, (c, t) :: _, some x =>
    if s.sameCycle x then
      let forced := x.forced || x.cause == 8
      let met := x.met ||| bits due
      let s := if x.cause ≤ c then s.setAcq n { a with trig := some { x with met := met } } else s.trigger n c met t forced
      if due.length = mets.length then s else s.ignored n
    else s.ignored n
  | _, _, _ => if mets = [] then s else s.ignored n

/-- R257, R259, R288: an event reaches the conditions of a unit. -/
def State.aqEvent (s : State) (n : Nat) (ev : TrgEvent) : State :=
  let a := s.acq n
  if !(a.armed && a.began) then s
  else
    let r := (List.range 8).foldl (fun (r : State × List (Nat × Int)) c =>
      let a := r.1.acq n
      let (x, met) := r.1.condStep n c (SMap.get (fun _ => {}) a.conds c) ev
      (r.1.setAcq n { a with conds := SMap.set (fun _ => {}) a.conds c x },
        match met with
        | some t => r.2 ++ [(c, t)]
        | none => r.2)) (s, [])
    let s := r.1
    let s := if s.get .CRY_CFG_KIND n = 2 then
        r.2.foldl (fun s x => if x.1 = s.get .CRY_MAP_CFG_COND n then
          s.sweepRef n x.2 (s.waveHist n (s.get .CRY_MAP_CFG_SRC n)) else s) s
      else s
    s.condsMet n r.2

/-- An event reaches the conditions of every unit. -/
def State.aqEvents (s : State) (ev : TrgEvent) : State := (List.range 16).foldl (fun s n => s.aqEvent n ev) s

/-- R259: no B edge has come by t_A + HI for an INTERVAL condition. -/
def State.condTimeout (s : State) (n c : Nat) : State :=
  let a := s.acq n
  let x := SMap.get (fun _ => {}) a.conds c
  let i := trgKey n c
  match x.a with
  | none => s
  | some ta =>
    let t := ta + s.get .AQ_TRG_HI_VALUE i
    if !s.time.halted && a.armed && a.began && s.get .AQ_TRG_CTL_TYPE i == 3 && decide (s.instOf t ≤ s.now) then
      let s := s.setAcq n { a with conds := SMap.set (fun _ => {}) a.conds c { x with a := none, bs := [] } }
      let s := if s.get .CRY_CFG_KIND n = 2 ∧ s.get .CRY_MAP_CFG_COND n = c then
          s.sweepRef n t (s.waveHist n (s.get .CRY_MAP_CFG_SRC n)) else s
      s.condsMet n [(c, t)]
    else s

/-! ## Arm and disarm -/

/-- R259: whether a trigger condition refuses an arm. -/
def State.condBad (s : State) (n c : Nat) : Bool :=
  let i := trgKey n c
  let src := s.get .AQ_TRG_CTL_SRC i
  let srcB := s.get .AQ_TRG_CTL_SRC_B i
  let lo := s.get .AQ_TRG_LO_VALUE i
  let edge := s.get .AQ_TRG_CTL_EDGE i
  let plain := fun (k : Nat) => decide (k < 144) || (decide (160 ≤ k) && decide (k < 192)) || k == srcPps || k == srcSysref
  let wave := fun (k : Nat) => decide (144 ≤ k) && decide (k < 160)
  let any_ := fun (k : Nat) => plain k || wave k
  match s.get .AQ_TRG_CTL_TYPE i with
  | 0 => false
  | 1 => !plain src || edge == 3
  | 2 => decide (popCount (s.get .AQ_TRG_MASK_BITS i) < 2) || decide (lo = 0) || decide (65535 < lo) || edge == 3
  | 3 => !any_ src || !any_ srcB || edge == 3 || s.get .AQ_TRG_CTL_EDGE_B i == 3 || decide (s.get .AQ_TRG_HI_VALUE i < lo)
  | 4 => !any_ src || edge == 3 || decide (lo = 0)
  | 5 => decide (144 ≤ src)
  | 6 => !wave src || edge == 3
  | 7 => false
  | 8 => decide (lo = 0) || decide (255 < lo)
  | _ => true

/-- R294: whether the mask of a unit refuses an arm. -/
def State.maskBad (s : State) (n : Nat) : Bool :=
  let nent := s.get .MSK_CFG_NENT n
  s.flag .MSK_CFG_ENABLE n && (!s.aqGuard n || decide (nent = 0) || decide (64 < nent) ||
    (if s.flag .MSK_CFG_REF_KIND n then decide (32 ≤ s.get .MSK_CFG_REF_SRC n)
     else decide (0xC2 ≤ s.get .MSK_CFG_REF_SRC n) ||
       !(s.get .MSK_CFG_REF_EDGE n == 1 || s.get .MSK_CFG_REF_EDGE n == 2)) ||
    (List.range (min 64 nent)).any fun e =>
      let i := n * 64 + e
      let slot := s.get .MSK_ENT_CFG_SRC i
      let lo := s.signed .MSK_ENT_LO_TICKS i
      let hi := s.signed .MSK_ENT_HI_TICKS i
      let early : Int := s.get .MSK_ENT_SPAN_EARLY i * 64
      let late : Int := s.get .MSK_ENT_SPAN_LATE i * 64
      let ek := s.get .MSK_ENT_CFG_EDGE i
      !s.flag .AQ_SRC_ENABLE (srcKey n slot) || !(ek == 1 || ek == 2) ||
        (s.get .MSK_ENT_CFG_KIND i == 1 && decide (144 ≤ s.get .AQ_SRC_SRC (srcKey n slot))) || decide (hi < lo) ||
        (s.get .MSK_ENT_CFG_COUNT i == 0 && (early != 0 || late != 0)) ||
        decide (lo - early < -2147483648) || decide (2147483648 < hi + late))

/-- R253, R252, R265: whether a pan of the set refuses an arm. -/
def State.panBad (s : State) (n p : Nat) : Bool :=
  let base := s.get .PAN_BASE_BASE p
  let len := s.get .PAN_LEN_LEN p
  decide (len = 0) || decide (s.hbmTop < (base + len) * 65536) ||
    ((List.range 256).any fun q => q != p && decide (0 < s.get .PAN_LEN_LEN q) &&
      decide (base < s.get .PAN_BASE_BASE q + s.get .PAN_LEN_LEN q) && decide (s.get .PAN_BASE_BASE q < base + len)) ||
    (!s.aqStream n && decide (s.panWords p < s.get .AQ_POST_WORDS n + 4096 * (s.aqSrcs n).length + 512))

/-- R251-R253, R258, R259, R265, R267, R283, R294: whether the configuration of a unit refuses an arm. -/
def State.acqBad (s : State) (n : Nat) : Bool :=
  let ks := s.aqSrcs n
  let stores := s.aqStores n
  let chans := ks.filter fun k => decide (k < 160)
  let guard := s.aqGuard n
  let mode := s.get .AQ_CFG_MODE n
  mode == 3 || (mode == 2 && s.get .AQ_AUTO_TIMEOUT n == 0) || ks.eraseDups.length != ks.length ||
    (stores && decide (ks = [])) || (ks.any fun k => decide (0xC2 ≤ k)) ||
    (chans.any fun k => s.srcGuard k != guard) ||
    (guard && stores && ks.any fun k => decide (160 ≤ k) && decide (k < 192)) ||
    (!stores && s.flag .AQ_STREAM_ENABLE n) ||
    (stores && (decide (256 < s.get .AQ_PANS_FIRST n + s.get .AQ_PANS_COUNT n) || decide (s.get .AQ_PANS_COUNT n = 0) ||
      (s.panSet n).any fun p => s.panBad n p)) ||
    ((List.range 8).any fun c => s.condBad n c) || s.maskBad n || s.cryBad n guard || (s.cryPlan n).isNone ||
    (s.aqStream n && s.heldBad (s.get .AQ_STREAM_SL n))

/-- R252, R267: whether an arm meets a resource held by another unit. -/
def State.acqHeld (s : State) (n : Nat) : Bool :=
  let others := s.otherUnits n
  s.aqStores n && (((s.aqSrcs n).any fun k =>
      decide (k < 160) && decide ((if s.srcGuard k then 1 else 4) ≤ (others.filter fun m => (s.aqSrcs m).contains k).length)) ||
    ((s.panSet n).any fun p => others.any fun m => (s.panSet m).contains p)) ||
    (s.aqStream n && !s.sluStopped (s.get .AQ_STREAM_SL n))

/-- The checks of an arm of a unit, as bus errors (R41, R93, R252). In RECOVERY the image alone arms a survey unit. ARM = 1 at
a survey unit in DONE is no arm in the sense of R41: it starts a new capture under R258 in RECOVERY too (DESIGN CHOICE, log
entry 77). -/
def State.armAcqError (s : State) (n : Nat) (image : Bool := false) : Option Nat :=
  if (s.acq n).live then none
  else
    let guard := s.aqGuard n
    lowestCode [(s.acqBad n, eValue), (s.dev == .hold || (s.dev == .recovery && !guard && !image), eState),
      (guard && s.overSlice (s.costOf (.acq n)), eBudget), (s.acqHeld n, eHeld)]

/-- R256, R258, R283, R342: an arm is accepted, or starts a new capture from DONE. -/
def State.armAcq (s : State) (n : Nat) : State :=
  let a := s.acq n
  if a.armed then (if a.state = 7 then s.waitFill n else s)
  else if a.pend then s
  else
    let guard := s.aqGuard n
    let s := s.setAcq n { a with pend := true, guard := guard }
    let s := s.armCry n
    let s := if s.aqStream n then s.holdSlu (s.get .AQ_STREAM_SL n) n else s
    s.submit (if guard then 0 else 2) (.acq n)

/-- ARM_ACQUISITION is admitted. -/
def State.admitAcq (s : State) (n : Nat) : State :=
  let a := s.acq n
  (s.setAcq n { guard := a.guard, armed := true, pan := a.pan }).waitFill n

/-- R278: an abort wins against a trigger of its own cycle: a condition met there counts as ignored. -/
def State.undoTrigger (s : State) (n : Nat) : State :=
  let a := s.acq n
  match a.trig with
  | some x =>
    if s.sameCycle x then
      let s := (s.setAcq n { a with state := 4, trig := none }).put .AQ_LAST_T_TIME n x.before
      if x.met = 0 then s else s.ignored n
    else s
  | none => s

/-- R276, R278: ABORT. -/
def State.abortAcq (s : State) (n : Nat) : State :=
  let a := s.acq n
  if !(3 ≤ a.state && a.state ≤ 5) then s
  else if s.captureDone n then s.closeAcq n 1 none true
  else (s.undoTrigger n).closeAcq n 2 none false

/-- R43, R276, R278: the disarm of a unit. -/
def State.disarmAcq (s : State) (n : Nat) : State :=
  let a := s.acq n
  if a.pend then
    let s := (s.setAcq n { a with pend := false }).retract (.acq n)
    if s.aqStream n then s.freeSlu (s.get .AQ_STREAM_SL n) false else s
  else if !a.armed then s
  else if 3 ≤ a.state ∧ a.state ≤ 5 then
    if s.captureDone n then (s.closeAcq n 1 none true).leaveArm n else s.closeAcq n 3 none false
  else if a.state = 6 then (s.closeAcq n 6 none false).leaveArm n
  else s.leaveArm n

/-- R263, R301: the capture closes once it is complete, or once catch-up to a violation is. -/
def State.closeDue (s : State) (n : Nat) : State :=
  let a := s.acq n
  if s.time.halted then s
  else match a.state, a.viol with
  | 6, some v => if s.caughtUp n v.1 then s.closeAcq n 6 none false else s
  | 5, _ => if s.captureDone n then s.closeAcq n 1 none false else s
  | _, _ => s

/-- R257: the end of holdoff and of PRE_WAIT. -/
def State.readyDue (s : State) (n : Nat) : State :=
  let a := s.acq n
  let past := match a.holdEnd with
    | some h => decide (h ≤ s.tick)
    | none => true
  let filled := !s.flag .AQ_CFG_PRE_WAIT n || decide (s.aqSrcs n = []) ||
    decide (s.get .AQ_PRE_WORDS n ≤ a.stored - a.head)
  if a.state == 3 && past && filled then s.setAcq n { a with state := 4, readyAt := s.now } else s

/-- R258: the AUTO timeout. A condition or a FORCE of the same fabric cycle goes before it (R262). -/
def State.autoDue (s : State) (n : Nat) : State :=
  let a := s.acq n
  let x := s.get .AQ_AUTO_TIMEOUT n
  if !s.time.halted ∧ a.state = 4 ∧ s.get .AQ_CFG_MODE n = 2 ∧ a.readyAt + x * 100 * qNs ≤ s.now then
    s.trigger n 9 0 (s.ticksAt (a.readyAt + x * 100 * qNs)) false
  else s

/-- R258, R262: FORCE. -/
def State.forceAcq (s : State) (n : Nat) : State :=
  let a := s.acq n
  match a.state, a.trig with
  | 4, _ => s.trigger n 8 0 s.tick false
  | 5, some x =>
    if s.sameCycle x then
      if x.cause = 9 then s.trigger n 8 0 s.tick false
      else s.setAcq n { a with trig := some { x with forced := x.forced || decide (x.cause < 8) } }
    else s
  | _, _ => s

/-- R268: Sluice halts: every stream-through capture stops at once. -/
def State.haltStreams (s : State) : State :=
  (List.range 16).foldl (fun s n =>
    let a := s.acq n
    if s.aqStream n && (3 ≤ a.state && a.state ≤ 6) then
      if s.captureDone n then s.closeAcq n 1 none false else s.closeAcq n 5 (some (s.stopSource n)) false
    else s) s

/-- R254: the release of a pan: a bus error while it is being filled or drained. -/
def State.releaseError (s : State) (p : Nat) : Option Nat :=
  if (s.pan p).state = 1 ∨ (s.pan p).state = 3 then some eState else none

/-- R254: a HELD pan becomes FREE. -/
def State.releasePan (s : State) (p : Nat) : State :=
  if (s.pan p).state = 2 then s.setPan p { s.pan p with state := 0 } else s

/-! ## Commands -/

/-- R256: FILL_START. -/
def execFillStart (t n : Nat) (s : State) : Host.Outcome State Fault Refusal :=
  if n < numUnits then .next ((s.at t).fillStart n) else .fault .noSuchUnit

/-- R257: READY. -/
def execReady (t n : Nat) (s : State) : Host.Outcome State Fault Refusal :=
  if n < numUnits then .next ((s.at t).readyDue n) else .fault .noSuchUnit

/-- R258: AUTO_TIMEOUT. -/
def execAutoTimeout (t n : Nat) (s : State) : Host.Outcome State Fault Refusal :=
  if n < numUnits then .next ((s.at t).autoDue n) else .fault .noSuchUnit

/-- R259, R305: INTERVAL_TIMEOUT: condition `c` of unit `n`, or with `n` = 16 verdict rule `c`. -/
def execIntervalTimeout (t n c : Nat) (s : State) : Host.Outcome State Fault Refusal :=
  if n < numUnits ∧ c < 8 then .next ((s.at t).condTimeout n c)
  else if n = numUnits ∧ c < numRules then .next ((s.at t).endInterval c)
  else .fault .noSuchUnit

/-- R263, R301: CAPTURE_CLOSE. -/
def execCaptureClose (t n : Nat) (s : State) : Host.Outcome State Fault Refusal :=
  if n < numUnits then .next ((s.at t).closeDue n) else .fault .noSuchUnit

end Sys2Proof.Machine
end

