-- ==== Sys2Proof/Machine/MaskTest.lean ====
section
/-!
DEFINITION. Mask tests (R294-R303): instances, the outcomes of their entries, violations and the violation marker.
-/

namespace Sys2Proof.Machine

/-! The outcomes of R297. -/

def oPass : Nat := 0
def oEarly : Nat := 1
def oLate : Nat := 2
def oMissing : Nat := 3
def oExtra : Nat := 4
def oLost : Nat := 5
def oOverrun : Nat := 6

/-- An entry of a mask in the register maps. -/
def entKey (n e : Nat) : Nat := n * 64 + e

/-- R294: whether the mask unit of a unit runs. -/
def State.maskRuns (s : State) (n : Nat) : Bool := (s.acq n).armed && (s.acq n).guard && s.flag .MSK_CFG_ENABLE n

/-- The units whose mask unit runs. -/
def State.maskUnits (s : State) : List Nat := (List.range 16).filter fun n => s.maskRuns n

/-- The source of an entry, and whether it counts assertions. -/
def State.entSrc (s : State) (n e : Nat) : Nat := s.get .AQ_SRC_SRC (srcKey n (s.get .MSK_ENT_CFG_SRC (entKey n e)))
def State.entTrip (s : State) (n e : Nat) : Bool := s.flag .MSK_ENT_CFG_KIND (entKey n e)

/-- R296: the offsets from the reference at which the spans of an entry begin and end: early, window, end of the window,
late. -/
def State.entSpans (s : State) (n e : Nat) : Int × Int × Int × Int :=
  let i := entKey n e
  let lo := s.signed .MSK_ENT_LO_TICKS i
  let hi := s.signed .MSK_ENT_HI_TICKS i
  (lo - s.get .MSK_ENT_SPAN_EARLY i * 64, lo, hi, hi + s.get .MSK_ENT_SPAN_LATE i * 64)

/-- R297: an event at an offset from the reference falls in an entry. -/
def MaskEntry.take (x : MaskEntry) (spans : Int × Int × Int × Int) (count : Nat) (d : Int) : MaskEntry :=
  let (a, lo, hi, z) := spans
  let decide_ := fun (x : MaskEntry) (o : Nat) =>
    if x.outcome.isSome then x else { x with outcome := some o, event := some d }
  if a ≤ d ∧ d < lo then decide_ { x with early := x.early + 1 } oEarly
  else if lo ≤ d ∧ d ≤ hi then
    let x := { x with inside := x.inside + 1 }
    if count < x.inside then decide_ x oExtra else x
  else if hi < d ∧ d ≤ z then decide_ { x with late := x.late + 1 } oLate
  else x

/-- Whether an instance has an entry decided other than PASS, and whether every entry is PASS. -/
def Instance.bad (i : Instance) : Bool := i.entries.any fun x => x.outcome.isSome && x.outcome != some oPass
def Instance.good (i : Instance) : Bool := i.entries.all fun x => x.outcome == some oPass

/-! ## The violation marker -/

/-- R303: the word of a listed entry. -/
def entryWord (e : Nat) (x : MaskEntry) : Nat :=
  e * 2 ^ 58 + x.outcome.getD 0 * 2 ^ 54 + min x.inside 15 * 2 ^ 50 + min x.early 15 * 2 ^ 46 + min x.late 15 * 2 ^ 42 +
    b2n x.event.isSome * 2 ^ 41 + (match x.event with
      | some d => ofSigned 40 d
      | none => 0)

/-- The listed entries of an instance, in ascending order. -/
def Instance.listed (i : Instance) : List (Nat × MaskEntry) :=
  ((List.range i.entries.length).zip i.entries).filter fun x => x.2.outcome.isSome && x.2.outcome != some oPass

/-- R302: PRIMARY. An instance with no entries is the OVERRUN of R300. -/
def Instance.primary (i : Instance) : Nat :=
  match i.listed with
  | x :: _ => x.2.outcome.getD 0
  | [] => oOverrun

/-- R302: the violation marker of an instance, decided at `d`. -/
def State.violationMarker (s : State) (n : Nat) (i : Instance) (d : Int) (multi : Bool) : List Nat :=
  let list := i.listed
  let sched := s.flag .MSK_CFG_REF_KIND n
  let ref := s.get .MSK_CFG_REF_SRC n
  let r := wordOf i.ref s.qual
  [0xE5 * 2 ^ 56 + (3 + list.length) * 2 ^ 48 + n * 2 ^ 44 + i.primary * 2 ^ 40 + list.length * 2 ^ 32 + i.number % 2 ^ 20,
    r % 2 ^ 64,
    r / 2 ^ 64 * 2 ^ 48 + (if sched then 160 + ref % 32 else ref) * 2 ^ 40 +
      (b2n sched + 2 * b2n i.fe + 4 * b2n i.cal + 8 * b2n i.late + 16 * b2n multi) * 2 ^ 32 +
      wordOf d 0 / 2 ^ 16 % 2 ^ 32] ++ list.map fun x => entryWord x.1 x.2

/-! ## Deciding -/

/-- R298, R301: an instance violates: it is counted and reported, the capture in progress closes once catch-up to D is
complete, and the other instances are discarded. D is the coarse-period boundary at or before the present (log entry 27). -/
def State.violate (s : State) (n : Nat) (i : Instance) (multi : Bool) : State :=
  let d := floorCoarse s.tick
  let marker := s.violationMarker n i d multi
  let s := (s.count .MSK_FAIL_COUNT n).raise .MSK_EVENT_VIOLATION n
  let s := s.rulesMask n false i.primary i.ref
  let m := s.mask n
  let a := s.acq n
  if a.state = 7 then s.setMask n { m with instances := m.instances.filter fun x => x.number != i.number }
  else
    let others := m.instances.filter fun x => x.number != i.number
    let s := (s.count .MSK_DISCARDED_COUNT n others.length).setMask n { m with instances := [] }
    if 3 ≤ a.state ∧ a.state ≤ 5 then
      let s := s.setAcq n { a with state := 6, viol := some (d, marker), trig := if a.state = 5 then a.trig else none }
      if s.caughtUp n d then s.closeAcq n 6 none false else s
    else s

/-- R298, R301: what has been decided in a cycle: instances that pass, and the violation of the earliest that does not; in
DONE every one that does not is counted and reported. -/
def State.settleMask (s : State) (n : Nat) : State :=
  let m := s.mask n
  let passed := m.instances.filter fun i => i.good && !i.bad
  let s := passed.foldl (fun s i => (s.count .MSK_PASS_COUNT n).rulesMask n true 0 i.ref) s
  let left := m.instances.filter fun i => !i.good
  let s := s.setMask n { m with instances := left }
  let bad := left.filter fun i => i.bad
  if (s.acq n).state = 7 then bad.foldl (fun s i => s.violate n i false) s
  else match bad.foldl (fun best i => match best with
      | some b => if i.ref < b.ref then some i else some b
      | none => some i) (none : Option Instance) with
  | none => s
  | some i => s.violate n i (decide (1 < bad.length))

/-- R296: whether an entry counts an event. -/
def State.entCounts (s : State) (n e : Nat) (x : MaskEvent) : Bool :=
  s.entTrip n e == x.trip && s.entSrc n e == x.src && (x.trip || selects (s.get .MSK_ENT_CFG_EDGE (entKey n e)) x.pol)

/-- R296: an event falls in an instance whose spans hold it. -/
def State.countEvent (s : State) (n : Nat) (x : MaskEvent) (i : Instance) : Instance :=
  let d := x.time - i.ref
  let hit := (List.range i.entries.length).any fun e =>
    s.entCounts n e x && decide ((s.entSpans n e).1 ≤ d) && decide (d ≤ (s.entSpans n e).2.2.2)
  let es := ((List.range i.entries.length).zip i.entries).map fun y =>
    if s.entCounts n y.1 x then y.2.take (s.entSpans n y.1) (s.get .MSK_ENT_CFG_COUNT (entKey n y.1)) d else y.2
  if hit then { i with entries := es, fe := i.fe || x.fe, cal := i.cal || x.cal, late := i.late || x.late } else i

/-- The events that a mask keeps: those that the spans of a reference can still reach, references coming up to 4 µs after
their instant (log entry 61). -/
def State.keepEvents (s : State) (n : Nat) (l : List MaskEvent) : List MaskEvent :=
  let reach := (List.range (s.get .MSK_CFG_NENT n)).foldl (fun m e => min m (s.entSpans n e).1) 0
  l.filter fun x => decide (s.tick + reach - 20971520 ≤ x.time)

/-- R295, R296, R300: a reference opens an instance while the unit is in FILLING, READY or POST. Events that came before the
reference fall in it as well. -/
def State.maskRef (s : State) (n : Nat) (t : Int) : State :=
  let a := s.acq n
  let m := s.mask n
  if !(3 ≤ a.state && a.state ≤ 5) then s
  else
    let number := m.opened % 2 ^ 20
    let s := s.put .MSK_STATUS_INSTANCE n number
    if 16 ≤ m.instances.length then
      let s := (s.setMask n { m with opened := m.opened + 1 }).raise .MSK_EVENT_OVERRUN n
      s.violate n { ref := t, number := m.opened, entries := [] } false
    else
      let i : Instance := { ref := t, number := m.opened, entries := List.replicate (s.get .MSK_CFG_NENT n) {} }
      let i := m.events.foldl (fun i x => s.countEvent n x i) i
      (s.setMask n { m with opened := m.opened + 1, instances := m.instances ++ [i] }).settleMask n

/-- R296: an event that an entry counts falls in every open instance whose spans hold it, and is kept. -/
def State.maskEvent (s : State) (n : Nat) (x : MaskEvent) : State :=
  let m := s.mask n
  if (List.range (s.get .MSK_CFG_NENT n)).any fun e => s.entCounts n e x then
    (s.setMask n { m with
      instances := m.instances.map (s.countEvent n x), events := s.keepEvents n (m.events ++ [x]) }).settleMask n
  else s

/-- R295, R296: an edge reaches the mask units. An edge that carries EST is no reference. -/
def State.masksEdge (s : State) (k : Nat) (t : Int) (pol est fe cal late : Bool) : State :=
  s.maskUnits.foldl (fun s n =>
    let ref := !s.flag .MSK_CFG_REF_KIND n && s.get .MSK_CFG_REF_SRC n == k &&
      selects (s.get .MSK_CFG_REF_EDGE n) pol && !est
    let s := if ref then s.maskRef n t else s
    s.maskEvent n { trip := false, src := k, pol := pol, time := t, fe := fe, cal := cal, late := late }) s

/-- R295: a marker event reaches the mask units. -/
def State.masksMarker (s : State) (k : Nat) (t : Int) : State :=
  s.maskUnits.foldl (fun s n =>
    if s.flag .MSK_CFG_REF_KIND n = true ∧ s.get .MSK_CFG_REF_SRC n = k then s.maskRef n t else s) s

/-- R296: an assertion of a window monitor reaches the mask units. -/
def State.masksTrip (s : State) (ch : Nat) (t : Int) : State :=
  s.maskUnits.foldl (fun s n =>
    s.maskEvent n { trip := true, src := ch, pol := true, time := t, fe := false, cal := false, late := false }) s

/-- R297: whether an entry's source was lost in a part of its spans: not taking edges, in an overflow episode, crossings
suppressed, or, for a TRIP entry, its monitor not active. -/
def State.entLost (s : State) (n e : Nat) (lo hi : Int) : Bool :=
  let k := s.entSrc n e
  if s.entTrip n e then
    let w := (s.chan k).win
    !w.active || decide (lo < w.since)
  else decide (lo < (s.src k).start) || (!(s.src k).taking && decide ((s.src k).gov ≤ hi)) || s.metBreak k lo hi

/-- R299: whether the end of an entry's spans has passed. -/
def State.entPassed (s : State) (n e : Nat) (x : Int) : Bool :=
  if s.entTrip n e then decide (s.instOf x + 30 * qNs ≤ s.now) else s.spanPassed (s.entSrc n e) x

/-- R297: an entry whose span end has passed is decided LOST, MISSING or PASS. -/
def State.decideEntry (s : State) (n e : Nat) (ref : Int) (x : MaskEntry) : MaskEntry :=
  let sp := s.entSpans n e
  if x.outcome.isSome || !s.entPassed n e (ref + sp.2.2.2) then x
  else if s.entLost n e (ref + sp.1) (ref + sp.2.2.2) then { x with outcome := some oLost }
  else if x.inside < s.get .MSK_ENT_CFG_COUNT (entKey n e) then { x with outcome := some oMissing }
  else { x with outcome := some oPass }

/-- R297, R299: the entries of every open instance whose span ends have passed. -/
def State.maskPassed (s : State) (n : Nat) : State :=
  let m := s.mask n
  if !s.maskRuns n || s.time.halted then s
  else
    let step := fun (i : Instance) =>
      { i with entries := ((List.range i.entries.length).zip i.entries).map fun x => s.decideEntry n x.1 i.ref x.2 }
    (s.setMask n { m with instances := m.instances.map step }).settleMask n

/-- R299: MASK_SPAN_PASSED. -/
def execMaskSpanPassed (t n : Nat) (s : State) : Host.Outcome State Fault Refusal :=
  if n < numUnits then .next ((s.at t).maskPassed n) else .fault .noSuchUnit

end Sys2Proof.Machine
end

