-- ==== Sys2Proof/Machine/Fabric.lean ====
section
/-!
DEFINITION. The fabric (R19, R222, R304): a word leaves a source's buffer and reaches engines, acquisition units,
crystallisers, mask units and verdict rules; an edge leaves an edge tap.
-/

namespace Sys2Proof.Machine

/-- R222: shares lost edges between the polarities by alternation, starting opposite to the last edge: rising, falling. -/
def shareLost (last : Bool) (lost : Nat) : Nat × Nat :=
  if last then (lost / 2, (lost + 1) / 2) else ((lost + 1) / 2, lost / 2)

/-- The armed contexts that use a source. -/
def State.ctxsOf (s : State) (k : Nat) : List Nat := s.armedContexts.filter fun n => (s.mcf n).roles k != 0

/-- The armed units that list a source. -/
def State.unitsOf (s : State) (k : Nat) : List Nat :=
  (List.range 16).filter fun n => (s.acq n).armed && (s.aqSrcs n).contains k

/-- R222, R223: the roles of an edge in a context: selected, and by the prescaler a multiple of 2^DIV. -/
def McCfg.edgeRoles (f : McCfg) (k : Nat) (pol : Bool) (idx : Nat) : Nat :=
  let r := f.roles k
  b2n (bit r 0 && selects f.ea pol && idx % 2 ^ f.da == 0) + 2 * b2n (bit r 1 && selects f.eb pol && idx % 2 ^ f.db == 0) +
    4 * b2n (bit r 2 && selects f.ge pol)

/-- R231: what an edge brings to a gate that uses it. THS of a waveform record is CONV. -/
def edgeFlags (k : Nat) (e : EdgeRec) : Nat :=
  let wave := decide (144 ≤ k) && decide (k < 160)
  (if e.cal = 0 then 0 else fCal) ||| (if e.ovr || e.nbr || (e.ths && !wave) then fFe else 0) |||
    (if e.alt then fAlt else 0) ||| (if e.ths && wave then fConv else 0)

/-- An item of a source is stored by every unit that lists it. -/
def State.storeAll (s : State) (k : Nat) (i : Item) (time : Int) : State :=
  (s.unitsOf k).foldl (fun s n => s.storeItem n k i time) s

/-- R222, R246, R259, R284, R304: an edge reaches the fabric. -/
def State.fabricEdge (s : State) (k : Nat) (e : EdgeRec) (x : Entry) : State :=
  let r := s.src k
  let idx := if e.pol then r.fab.rise else r.fab.fall
  let wave := decide (144 ≤ k) && decide (k < 160)
  let cv := wave && e.ths
  let fe := e.ovr || e.nbr || (e.ths && !wave)
  let s := s.setSrc k { r with
    fab := r.fab.step e.pol, fabLast := x.time, fabTime := if x.stored then x.time else r.fabTime
    fabSeq := if x.stored then (e.seq + 1) % 256 else r.fabSeq }
  let s := if x.stored then s.storeAll k x.item x.time else s
  let ce : CEdge := { time := x.time, idx := idx, run := r.fab.run, pol := e.pol, fl := edgeFlags k e }
  let s := (s.ctxsOf k).foldl (fun s n =>
    let roles := (s.mcf n).edgeRoles k e.pol idx
    if roles = 0 then s else s.offerUpd n (.edge roles ce e.est)) s
  let s := s.aqEvents (.edge k x.time e.pol e.est cv)
  let s := (List.range 16).foldl (fun s n =>
    let a := s.acq n
    if a.armed && a.began then
      s.cryEdge n k x.time e.pol e.est fe cv (a.trig.map (·.time)) a.last
    else s) s
  if x.tapped then s
  else (s.masksEdge k x.time e.pol e.est fe (e.cal != 0) true).rulesEdge k x.time e.pol e.est fe (e.cal != 0) true

/-- R229, R260, R284, R305: a break of a source at a time. -/
def State.fabricBreak (s : State) (k : Nat) (t : Int) : State :=
  let s := s.aqEvents (.brk k)
  let s := (List.range 16).foldl (fun s n => s.cryBreak n k) s
  s.rulesBreak k t

/-- R222, R235: an overflow mark reaches the fabric. A LOST at the field's maximum, or CAUSE RAIL, leaves the index
unknown. -/
def State.fabricMark (s : State) (k cause lost : Nat) (x : Entry) : State :=
  let r := s.src k
  let unknown := lost = 0xFFFFFFFFF ∨ cause = 2
  let (rise, fall) := if unknown then (0, 0) else shareLost r.fab.last lost
  let s := s.setSrc k { r with
    fabLast := x.time
    fab := { r.fab with rise := r.fab.rise + rise, fall := r.fab.fall + fall, known := r.fab.known && decide ¬unknown } }
  let s := s.storeAll k x.item x.time
  let s := (s.ctxsOf k).foldl (fun s n => s.offerUpd n (.mark ((s.mcf n).roles k) x.time rise fall)) s
  s.fabricBreak k x.time

/-- R216: a DISARM anchor of a survey channel under staging: the merge, or after a preemption the staging is dropped. -/
def State.stagedClose (s : State) (k : Nat) (t : Int) : State :=
  if k < 144 ∨ 160 ≤ k then s
  else
    let w := s.wave (k - 144)
    let pre := w.preAt.contains t
    let s := s.setWave (k - 144) { w with preAt := w.preAt.filter fun y => decide (y ≠ t) }
    (List.range 16).foldl (fun s n =>
      if s.stagedBy n k then (if pre then s.dropStaging n else s.startMerge n) else s) s

/-- R171, R222, R228: an anchor reaches the fabric. After an unknown count the index restarts from an arbitrary base. After an
ARM anchor no edge has been delivered: the sharing of a LOST that follows starts with a rising edge (DESIGN CHOICE, log
entry 78). -/
def State.fabricAnchor (s : State) (k seq reason time : Nat) (x : Entry) : State :=
  let governs := reason < 0x80
  let r := s.src k
  let fl := qualFlags (if r.fabBased then some r.fabQual else none) (time % 32)
  let pre := reason == rDisarm && isWave k && (s.wave (k - 144)).preAt.contains x.time
  let (v, s) := if governs ∧ reason ≠ rArm ∧ r.fab.known = false then s.free else (0, s)
  let fab : EdgeIndex :=
    if reason = rArm then { run := r.fab.run + 1 }
    else if governs ∧ r.fab.known = false then { r.fab with rise := v, fall := v, run := r.fab.run + 1, known := true }
    else r.fab
  let s := s.setSrc k (if governs then
      { r with fab := fab, fabLast := x.time, fabTime := x.time, fabQual := time % 32, fabBased := true, fabSeq := seq }
    else { r with fabLast := max r.fabLast x.time })
  let s := s.storeAll k x.item x.time
  if !governs then s
  else
    let s := (s.ctxsOf k).foldl (fun s n => s.offerUpd n (.anchor ((s.mcf n).roles k) reason x.time fl pre)) s
    let s := if reason = rArm ∨ reason = rDisarm then s.fabricBreak k x.time else s
    if reason = rDisarm then s.stagedClose k x.time else s

/-- R155: the first word of a source leaves its buffers: that of an earlier back-end drains first. -/
def Source.drop (r : Source) : Source := match r.old with
  | [] => { r with buf := r.buf.drop 1 }
  | _ :: o => { r with old := o }

/-- R263: the boundaries at which the fabric has reported the buffer empty, when a word of time `t` leaves it at `now`: those
since the buffer became empty, up to the coming of this word. -/
def Source.noteEmpty (r : Source) (t now : Int) : Source :=
  { r with
    emptyAt := match r.emptied with
      | some x => if x ≤ floorCoarse t then max r.emptyAt (floorCoarse t) else r.emptyAt
      | none => r.emptyAt
    emptied := if r.old.length + r.buf.length ≤ 1 ∧ r.owed = [] then some now else none }

/-- R19, R156, R270: the first word of a source leaves its buffer, if the fabric accepts it, and the fabric routes it. -/
def State.deliver (s : State) (k : Nat) : State :=
  let r := s.src k
  match r.old ++ r.buf with
  | [] => s
  | x :: _ =>
    if x.stored && !s.accepts k x.item.len then s
    else
      let s := s.setSrc k (r.noteEmpty x.time (s.recTick k)).drop.payOwed
      match x.item with
      | .edge e => s.fabricEdge k e x
      | .overflow _ _ cause lost => s.fabricMark k cause lost x
      | .anchor _ seq reason time => s.fabricAnchor k seq reason time x
      | .settle .. =>
        let s := (s.setSrc k { s.src k with fabLast := x.time }).storeAll k x.item x.time
        (s.ctxsOf k).foldl (fun s n => s.offerUpd n (.settle ((s.mcf n).roles k) x.time)) s
      | _ => (s.setSrc k { s.src k with fabLast := x.time }).storeAll k x.item x.time

/-- R471: a loop-back that waited for room starts once it has it. -/
def State.retryLoop (s : State) (k : Nat) : State := if 160 ≤ k ∧ k < 192 then s.startLoop (k - 160) else s

/-- R19, R155: RECORD_TO_FABRIC. The fabric stands while its clock does (R32, R63). -/
def execRecordToFabric (t src : Nat) (s : State) : Host.Outcome State Fault Refusal :=
  if src < numSources then
    let s := s.at t
    .next (if s.fabricRuns then ((s.drainQueues.flush src).deliver src).retryLoop src else s)
  else .fault .noSuchUnit

/-- R304: TAP_EDGE: the edge at the front of a tap reaches the mask units and the verdict rules. -/
def execTapEdge (t src : Nat) (s : State) : Host.Outcome State Fault Refusal :=
  if src < numSources then
    let s := s.at t
    let r := s.src src
    match r.tap with
    | [] => .next s
    | e :: rest =>
      if !s.fabricRuns then .next s
      else
        let s := s.setSrc src { r with tap := rest }
        let s := if e.brk then s.rulesBreak src e.time else s
        .next ((s.masksEdge src e.time e.pol e.est e.fe (e.cal != 0) false).rulesEdge src e.time e.pol e.est e.fe
          (e.cal != 0) false)
  else .fault .noSuchUnit

end Sys2Proof.Machine
end

