-- ==== Sys2Proof/Machine/Ledger.lean ====
section
/-!
DEFINITION. Ledger entries that fall due (R429, R430): what other chapters make the ledger write.
-/

namespace Sys2Proof.Machine

/-! The kinds of R429 and the causes of an EVENT entry. -/

def kHourly : Nat := 1
def kService : Nat := 2
def kEvent : Nat := 3

def evThermal : Nat := 1
def evOver : Nat := 2
def evRail : Nat := 3
def evHotSwap : Nat := 4
def evAgeing : Nat := 5
def evScrub : Nat := 6
def evRow : Nat := 7
def evExhausted : Nat := 8
def evRefreshDone : Nat := 9
def evRefreshFailed : Nat := 10

/-- R427: the screening values of the fuses: 0 in a TA-144-C; the consumption, in 2^-24, is at most 0.4 %. -/
def fusedHours : Nat := if Config.grade % 2 = 1 then Config.screenHours else 0
def fusedConsumed : Nat := if Config.grade % 2 = 1 then Config.screenConsumed % 67109 else 0

/-- An entry falls due. -/
def State.ledger (s : State) (kind : Nat) (cause : Nat := 0) (detail : Nat := 0) : State :=
  { s with life := { s.life with jobs := s.life.jobs ++ [{ kind := kind, cause := cause, detail := detail }] } }

/-- R441: a retirement or return has completed. -/
def State.unitDone (s : State) : State := (s.raise .LIFE_EVENT_UNIT_DONE).ledger kService

/-- R433: a monitor passes its ageing limit. -/
def State.ageing (s : State) (detail : Nat) : State := (s.raise .LIFE_EVENT_AGEING).ledger kEvent evAgeing detail

end Sys2Proof.Machine
end

