-- ==== Sys2Proof/Machine/Spares.lean ====
section
/-!
DEFINITION. The spare back-ends (R22, R180-R183, R185): which channel a spare serves, retirement and return, and the two
change-overs, which take place at a frame boundary of the channel's recorded scale.
-/

namespace Sys2Proof.Machine

/-- The channel that the spare of a cluster serves or warms up for. -/
def State.spareUser (s : State) (c : Nat) : Option Nat :=
  ((List.range 12).map (12 * c + ·)).find? fun n => (s.chan n).sub != 0

/-- The channel whose registers show a back-end, if there is one. -/
def State.beChannel (s : State) (b : Nat) : Option Nat :=
  if b < 144 then some b else if 256 ≤ b then s.spareUser (b - 256) else none

/-- A back-end is powered and starts in STORED or DEFAULT with an empty round and no live tables (R162). -/
def State.startEnd (s : State) (b : Nat) : State :=
  s.setBe b { (s.be b).fallBack with
    live := none, powered := true, fault := none, hits := [], free := [0, 0, 0, 0], lastHit := List.replicate 4 s.now }

/-- A back-end is powered down. -/
def State.stopEnd (s : State) (b : Nat) : State := s.setBe b { s.be b with powered := false, hits := [] }

/-- R180: the errors of a write of RETIRE or RETURN. -/
def State.retireError (s : State) (n : Nat) (retire ret : Bool) : Option Nat :=
  let c := s.chan n
  let other := match s.spareUser (n / 12) with
    | some m => m != n
    | none => false
  lowestCode [(retire && ret, eValue), (retire && other, eHeld), (retire && c.sub != 0, eState),
    (ret && c.sub == 0, eState)]

/-- R182, R185: the spare is powered and warms up for a channel. -/
def State.retire (s : State) (n : Nat) (now : Bool) : State :=
  let s := s.setChan n { s.chan n with sub := 1, subAt := s.now, subNow := now, subDue := none, back := none }
  s.startEnd (spareKey (n / 12))

/-- R182, R183: a RETURN cancels a retirement that warms up, or powers the channel's own back-end. -/
def State.beBack (s : State) (n : Nat) : State :=
  let c := s.chan n
  if c.sub = 1 then (s.setChan n { c with sub := 0, subDue := none }).stopEnd (spareKey (n / 12))
  else if c.sub = 2 ∧ c.back = none then (s.setChan n { c with back := some s.now }).startEnd n
  else s

/-- R182: the frame boundary at which the switch of an armed channel is due: the first one after the spare is ready (10 µs
after RETIRE_NOW, log entry 69). -/
def State.switchTime (s : State) (n : Nat) : Option Int :=
  let c := s.chan n
  if c.sub = 1 ∧ c.armed = true ∧ s.time.valid = true ∧ (s.island (n / 18)).state ≤ 1 then
    (if c.subNow then some (c.subAt + 10 * qUs) else c.subDue).map fun x => s.frameAfter n x
  else none

/-- R183: the frame boundary at which the return of an armed channel's own back-end is due. -/
def State.rejoinTime (s : State) (n : Nat) : Option Int :=
  let c := s.chan n
  match c.back with
  | some x => if c.sub = 2 ∧ c.armed = true ∧ s.time.valid = true then some (s.frameFrom n (x + 10 * qUs)) else none
  | none => none

/-- R155, R182, R183: the words of a change of back-ends at a time, and the fault of a new back-end that has one. -/
def State.changeOver (s : State) (n b reason : Nat) (t : Int) (markers : List Item) : State :=
  if (s.src n).taking then
    let s := markers.foldl (fun s i => s.pushDue n t (.marker i)) s
    let s := s.pushDue n t (.anchor reason)
    if (s.be b).fault.isSome then (s.writeDue n t).beginCause n 2 false else s
  else s.setSrc n (s.src n).newBuffer

/-- R182, R185, R441: the spare takes over at a time; `count` is what the front-end's counter has counted since a fault. -/
def State.switchAt (s : State) (n count : Nat) (t : Int) : State :=
  let s := match (s.src n).ovf with
    | some e => if e.causes.contains 2 then s.readCounter n count else s
    | none => s
  let s := s.changeOver n (spareKey (n / 12)) rSwitch t []
  let s := (s.setChan n { s.chan n with sub := 2, subDue := none, chgAt := some t }).stopEnd n
  let s := { s with life := { s.life with subs := s.life.subs.set (n / 12) (n % 12) } }
  (s.raise .TCH_BE_EVENT_SWITCHED n).unitDone

/-- R183, R441: the channel's own back-end returns at a time. -/
def State.rejoinAt (s : State) (n : Nat) (t : Int) : State :=
  let returns := ((s.chan n).returns + 1) % 65536
  let s := s.changeOver n n rRejoin t [.rejoin n 0 0 0 returns]
  let s := s.setChan n { s.chan n with sub := 0, back := none, returns := returns, chgAt := some t }
  let s := s.stopEnd (spareKey (n / 12))
  let s := { s with life := { s.life with subs := s.life.subs.set (n / 12) 255 } }
  (s.raise .TCH_BE_EVENT_REJOINED n).unitDone

/-- R182: SWITCH: an armed channel's at its frame boundary, an unarmed one's 10 µs after the write. -/
def State.switchOver (s : State) (n count : Nat) : State :=
  let c := s.chan n
  match s.switchTime n with
  | some x => if x ≤ s.recTick n then s.switchAt n count x else s
  | none => if c.sub = 1 ∧ c.armed = false ∧ c.subAt + 10 * qUs ≤ s.now then s.switchAt n count (s.nextBound n) else s

/-- R183: REJOIN. -/
def State.rejoin (s : State) (n : Nat) : State :=
  let c := s.chan n
  match s.rejoinTime n, c.back with
  | some x, _ => if x ≤ s.recTick n then s.rejoinAt n x else s
  | none, some x =>
    if c.sub = 2 ∧ c.armed = false ∧ x + 10 * qUs ≤ s.now then s.rejoinAt n (s.nextBound n) else s
  | none, none => s

/-- R182, R183: an edge at or after the boundary of a change-over comes after it. -/
def State.changeBefore (s : State) (n : Nat) (t : Int) : State :=
  let outside := match (s.src n).ovf with
    | some e => e.outside
    | none => 0
  let s := match s.switchTime n with
    | some x => if x ≤ t then s.switchAt n outside x else s
    | none => s
  match s.rejoinTime n with
  | some x => if x ≤ t then s.rejoinAt n x else s
  | none => s

/-- R182, R183: the back-end that forms an edge of a channel at the present instant, and its timestamp: the one that was in
service before the last change-over while its timestamp lies before that. -/
def State.stampChan (s : State) (n bin : Nat) : Nat × Int :=
  let c := s.chan n
  let b := s.beOf n
  let t := s.stampBy n b bin
  match c.chgAt with
  | some x =>
    let p := if c.sub = 2 then n else spareKey (n / 12)
    let tp := s.stampBy n p bin
    if tp < x ∧ (s.be p).fault = none then (p, tp) else (b, if (s.src n).ovf.isSome then t else max t x)
  | none => (b, t)

end Sys2Proof.Machine
end

