-- ==== Sys2Proof/Machine/FrontEnd.lean ====
section
/-!
DEFINITION. Timing inputs (chapter 5): comparators, committed thresholds and limits, overdrives, window monitors; and the
arm, start, disarm and edges of a timing channel (R42, R130, R152, R187). Input voltages are in nV.
-/

namespace Sys2Proof.Machine

/-! ## Comparators -/

/-- R128, R129: the upper or the lower threshold in force, in 1/24 nV, clamped at ±1.5 V. -/
def State.threshold (s : State) (n : Nat) (upper : Bool) : Int :=
  let l := toSigned 12 (s.inForce .TCH_THRESH_LEVEL n) * 17578125
  let h : Int := s.inForce .TCH_THRESH_HYST n * 40000000
  max (-36000000000) (min 36000000000 (if upper then l + h else l - h))

/-- R126: the signal that the comparator, the monitor and the over-range detector of a channel see. -/
def State.signal (s : State) (n : Nat) (v : Input) : Int := if s.get .TCH_INPUT_MODE n = 0 then v.p - v.n else v.p

/-- Whether an input lies above the upper threshold, or below the lower one. -/
def State.aboveUpper (s : State) (n : Nat) (v : Input) : Bool := decide (s.threshold n true < 24 * s.signal n v)
def State.belowLower (s : State) (n : Nat) (v : Input) : Bool := decide (24 * s.signal n v < s.threshold n false)

/-- R138: own recovery and neighbour window of a class, in q. -/
def ownWindow (cls : Nat) : Nat := ([0, 2, 5, 10, 20].getD cls 0) * qNs
def nbrWindow (cls : Nat) : Nat := ([0, 5, 10, 18, 25].getD cls 0) * qNs

/-- R138: the neighbours of a channel: those beside it in its cluster. -/
def neighbours (n : Nat) : List Nat :=
  (if n % 12 = 0 then [] else [n - 1]) ++ (if n % 12 = 11 then [] else [n + 1])

/-- R139: whether a crossing at the ball at an instant carries OVR, and NBR. -/
def State.ovrIn (s : State) (n x : Nat) : Bool :=
  let c := s.chan n
  decide (c.ovrAt ≤ x) && (c.above || decide (x < c.ownEnd))
def State.nbrIn (s : State) (n x : Nat) : Bool :=
  (neighbours n).any fun m => decide ((s.chan m).ovrAt ≤ x) && ((s.chan m).above || decide (x < (s.chan m).nbrEnd))

/-- R133: whether the threshold settles at an instant. -/
def State.thsIn (s : State) (n x : Nat) : Bool := match (s.chan n).thsFrom with
  | some a => decide (a ≤ x) && decide (x < a + 60 * qNs)
  | none => false

/-- R143: whether the samples of a monitor at an instant are discarded. -/
def State.heldIn (s : State) (n x : Nat) : Bool := match (s.chan n).limAt with
  | some a => decide (a ≤ x) && decide (x < a + 60 * qNs)
  | none => false

/-- R470: the instant at the ball of the crossing of a timestamp. -/
def State.ballAt (s : State) (n : Nat) (t : Int) : Nat := s.instOf (t + s.delayOf n)

/-- R149, R153: whether the comparator of a channel runs: its source takes edges, its island is in ON, its die powered. -/
def State.compRuns (s : State) (n : Nat) : Bool :=
  (s.src n).taking && (s.island (islandOf n)).state == 0 && s.dieUp

/-- Whether the back-end in service forms the edges of a channel: its island's PLL is locked and it has no fault. -/
def State.beRuns (s : State) (n : Nat) : Bool :=
  !(s.island (islandOf n)).unlock && ((s.be (s.beOf n)).fault).isNone

/-- R133, R139, R161, R181: the flags of an edge that a back-end forms at a timestamp. -/
def State.flagsOf (s : State) (n b : Nat) (t : Int) (est : Bool) : EdgeFlags :=
  let x := s.ballAt n t
  { cal := s.calBy n b, nbr := s.nbrIn n x, ths := s.thsIn n x, est := est, ovr := s.ovrIn n x, alt := b != n }

/-- R130, R136, R152: the comparator output of a channel changes; `est` is STATE_KNOWN = 0 at a rising edge. An edge that
no back-end forms is left to the front-end's counter. -/
def State.compEdge (s : State) (n : Nat) (pol : Bool) (bin : Nat) : State :=
  let c := s.chan n
  let est := pol && !c.known
  let s := s.setChan n { c with level := pol, known := true, edgeAt := some s.now }
  let s := s.changeBefore n (s.stampBy n (s.beOf n) bin)
  if s.beRuns n then
    let (b, t) := s.stampChan n bin
    (s.takeBy b).formEdge n t pol (s.flagsOf n b t est)
  else s.outsideEdge n

/-- R134: a new threshold meets the present input of a channel. -/
def State.compareNew (s : State) (n : Nat) (v : Input) (bin : Nat) : State :=
  let c := s.chan n
  if !s.compRuns n then s
  else if c.level && s.belowLower n v then s.compEdge n false bin
  else if !c.level && s.aboveUpper n v then s.compEdge n true bin
  else if !c.level && !c.known && s.belowLower n v then s.setChan n { c with known := true }
  else s

/-! ## Committed thresholds and limits -/

/-- The SH fields of a front-end (R132). -/
def feShadows : List Fld := [.TCH_THRESH_LEVEL, .TCH_THRESH_HYST, .TCH_WIN_LIMIT_HIGH, .TCH_WIN_LIMIT_LOW]

/-- R173: the time of the SETTLE_END anchor of a change of threshold at an instant: 60 ns later on the recorded scale, at a
coarse-period boundary. -/
def State.settleTime (s : State) (n x : Nat) : Int :=
  ceilCoarse (s.time.origin + ((x + 60 * qNs + (qTick - 1)) / qTick : Nat) - s.delayOf n)

/-- R132-R134, R143, R173: a committed front-end shadow is applied at an instant. -/
def State.applyFe (s : State) (n at_ : Nat) (input : Option (Input × Nat)) : State :=
  let old := feShadows.map fun f => s.inForce f n
  let s := (s.applyAll feShadows n).bump .TCH_FE_COMMIT_APPLIED_SEQ n
  let s := s.setChan n { s.chan n with commit := none }
  let new := feShadows.map fun f => s.inForce f n
  let c := s.chan n
  let s := if old.take 2 = new.take 2 then s
    else
      let s := s.setChan n { c with thsFrom := some at_ }
      let s := if (s.src n).taking then s.pushDue n (s.settleTime n at_) (.anchor rSettleEnd) else s
      match input with
      | some (v, bin) => s.compareNew n v bin
      | none => s
  let c := s.chan n
  if old.drop 2 = new.drop 2 then s else s.setChan n { c with limAt := some at_ }

/-- R132: what a frame boundary at an instant does to the front-ends; a COMMIT of its own cycle waits for the next. -/
def State.frameFronts (s : State) (inst : Nat) (inputs : List (Nat × Input × Nat)) : State :=
  (List.range 144).foldl (fun s n =>
    match (s.chan n).commit with
    | some x => if x < inst then s.applyFe n inst ((inputs.find? fun y => y.1 == n).map (·.2)) else s
    | none => s) s

/-- R145, R146: FRAME latches are released at a frame boundary with the filter output deasserted. -/
def State.frameLatches (s : State) : State :=
  ((List.range 144).foldl (fun s n =>
    let c := s.chan n
    if s.get .TCH_WIN_CFG_LATCH n = 2 ∧ c.win.latch = true ∧ c.win.out = false then
      s.setChan n { c with win := { c.win with latch := false } }
    else s) s).settleTrips

/-! ## Window monitors -/

/-- R140: whether an input violates the limits of a monitor. -/
def State.violates (s : State) (n : Nat) (input : Input) : Bool :=
  let v := s.signal n input
  let hi := toSigned 10 (s.inForce .TCH_WIN_LIMIT_HIGH n) * 5859375
  let lo := toSigned 10 (s.inForce .TCH_WIN_LIMIT_LOW n) * 5859375
  let above := decide (hi < 2 * v)
  let below := decide (2 * v < lo)
  match s.get .TCH_WIN_CFG_SENSE n with
  | 0 => above || below
  | 1 => above
  | 2 => below
  | _ => !above && !below

/-- R145: an assertion at a time reaches the conditions, mask units and rules, while the fabric runs. -/
def State.deliverTrip (s : State) (n : Nat) (t : Int) : State :=
  if s.time.halted then s else ((s.aqEvents (.assert n t)).masksTrip n t).rulesTrip n t

/-- R141, R145: one sample of a monitor, taken `back` coarse periods before the present. -/
def State.winSample (s : State) (n : Nat) (v : Input) (back : Nat) : State :=
  let c := s.chan n
  let w := c.win
  if !w.active || s.heldIn n (s.now - back * qCoarse) then s
  else
    let len := s.get .TCH_WIN_CFG_N n
    let m := s.get .TCH_WIN_CFG_M n
    let hist := (s.violates n v :: w.hist).take len
    let count := (hist.filter id).length
    let out := if m ≤ count then true else if count ≤ len - m then false else w.out
    let latch := w.latch || (out && s.get .TCH_WIN_CFG_LATCH n != 0)
    let s := s.setChan n { c with win := { w with hist := hist, out := out, latch := latch } }
    let s := if out = w.out ∧ latch = w.latch then s else s.settleTrips
    if out && !w.out then
      let s := (s.raise .TCH_WIN_EVENT_TRIPPED n).count .TCH_WIN_COUNT_ASSERTS n
      s.deliverTrip n (floorCoarse (s.tick - (back * 2048 : Nat)) - s.delayOf n)
    else s

/-- R140: a run of samples of a monitor, one for each coarse period, the last of them at the present. -/
def State.winSamples (s : State) (n : Nat) : List Input → State
  | [] => s
  | v :: vs => (s.winSample n v vs.length).winSamples n vs

/-- R141, R142: a monitor becomes active with its history cleared. -/
def State.startWin (s : State) (n : Nat) : State :=
  let c := s.chan n
  (s.setChan n { c with win := { c.win with active := true, hist := [], out := false, wait := false, since := s.recTick n } }).settleTrips

/-- R142: a monitor stops; its filter output and latch clear. -/
def State.stopWin (s : State) (n : Nat) : State :=
  ((s.setChan n { s.chan n with win := {} }).touchIsland (islandOf n)).settleTrips

/-- The class of a channel's tasks. -/
def State.chanCls (s : State) (n : Nat) : Nat := if s.srcGuard n then 0 else 2

/-- R93: the write of ENABLE = 1 on a guard channel is refused when its wake does not fit the slice. -/
def State.winError (s : State) (n en : Nat) : Option Nat :=
  if en = 1 ∧ s.get .TCH_WIN_CTL_ENABLE n = 0 ∧ s.srcGuard n = true ∧ s.overSlice (s.wakeCost (islandOf n)) = true ∧
      s.needsWake (islandOf n) = true then some eBudget else none

/-- R89, R142: a write of ENABLE. -/
def State.enableWin (s : State) (n en : Nat) : State :=
  let was := s.flag .TCH_WIN_CTL_ENABLE n
  let s := s.put .TCH_WIN_CTL_ENABLE n en
  if en = 1 then
    if was then s
    else
      let k := islandOf n
      if (s.island k).state ≤ 1 ∧ (s.island k).unlock = false ∧ s.dieUp = true then s.startWin n
      else
        let c := s.chan n
        (s.setChan n { c with win := { c.win with wait := true } }).queueWake k (s.chanCls n)
  else if was then s.stopWin n
  else s

/-! ## Arm, start, disarm -/

/-- The checks of an arm of a channel, as bus errors (R41, R93). -/
def State.armChanError (s : State) (n : Nat) : Option Nat :=
  if (s.chan n).armed || (s.chan n).pend then none
  else lowestCode [(s.dev == .hold, eState),
    (s.srcGuard n && s.overSlice (s.costOf (.chan n) + s.wakeCost (islandOf n)), eBudget)]

/-- R187, R89: queues ARM_CHANNEL, after the wake it needs. -/
def State.armChan (s : State) (n : Nat) : State :=
  let c := s.chan n
  if c.armed || c.pend then s
  else
    let cls := s.chanCls n
    ((s.setChan n { c with pend := true }).queueWake (islandOf n) cls).submit cls (.chan n)

/-- R42: ARM_CHANNEL is admitted: an island in IDLE adds 2 µs, one that is waking its wake. -/
def State.admitChan (s : State) (n : Nat) : State :=
  let c := s.chan n
  s.setChan n { c with pend := false, armed := true, known := false, level := false,
                       startAt := some (s.now + if (s.island (islandOf n)).state = 1 then 2 * qUs else 0) }

/-- R42, R53, R130, R173, R471: the start instant of a channel. -/
def State.startChan (s : State) (n : Nat) (v : Input) (bin : Nat) : State :=
  let s := s.flush n
  let c := s.chan n
  let r := s.src n
  match c.startAt with
  | none => s
  | some x =>
    if c.armed && !r.taking && decide (x ≤ s.now) && s.time.valid && !s.startsHeld && (s.island (islandOf n)).state == 0 &&
        !(s.island (islandOf n)).unlock && s.dieUp && r.owed.isEmpty && r.room 2 then
      let t0 := ceilCoarse (s.recTick n)
      let s := (s.setChan n { c with startAt := none, level := false, known := false, edgeAt := none, chgAt := none }).startTaking n t0
      -- a change of threshold that still settles (R135, R173)
      let s := match c.thsFrom with
        | some a => if t0 < s.settleTime n a then s.pushDue n (s.settleTime n a) (.anchor rSettleEnd) else s
        | none => s
      -- a back-end that has faulted forms nothing (R185)
      let s := if ((s.be (s.beOf n)).fault).isSome then s.beginCause n 2 false else s
      if s.aboveUpper n v then
        let s := s.setChan n { s.chan n with level := true, known := true, edgeAt := some s.now }
        let b := s.beOf n
        let e := s.be b
        let t := t0 + e.fine b (s.calBy n b) (longestFree e.free) bin % 2048
        if s.beRuns n then (s.takeBy b).formEdge n t true (s.flagsOf n b t true) else s
      else if s.belowLower n v then s.setChan n { s.chan n with known := true }
      else s
    else s

/-- R43, R84: withdraws the wake that was queued for a channel, unless a monitor of it or another channel of the island and
class waits for it. -/
def State.withdrawWake (s : State) (n : Nat) : State :=
  let k := islandOf n
  let cls := s.chanCls n
  let needed := (List.range 18).any fun i =>
    let m := k * 18 + i
    m != n && s.chanCls m == cls && ((s.chan m).pend || (s.chan m).armed || (s.chan m).win.wait)
  if needed || (s.chan n).win.wait then s else s.retract (.wake k cls)

/-- R43, R171, R187: the disarm of a channel. -/
def State.disarmChan (s : State) (n : Nat) : State :=
  let c := s.chan n
  if c.pend then ((s.setChan n { c with pend := false }).retract (.chan n)).withdrawWake n
  else if !c.armed then s
  else
    let s := s.stopTaking n (s.nextBound n)
    let s := (s.setChan n { s.chan n with armed := false, startAt := none }).withdrawWake n
    (s.touchIsland (islandOf n)).releaseCost (.chan n)

/-! ## Commands -/

/-- R42: CHANNEL_START. -/
def execChannelStart (t n : Nat) (input : Input) (bin : Nat) (s : State) : Host.Outcome State Fault Refusal :=
  if n < numChannels then .next ((s.at t).startChan n input bin) else .fault .noSuchUnit

/-- R136: whether the runt filter can deliver an edge at the present instant: no edge less than 140 ps after another. -/
def State.spaced (s : State) (n : Nat) : Bool := match (s.chan n).edgeAt with
  | some x => decide (x + 140 * 16384 ≤ s.now)
  | none => true

/-- R152: EDGE. The edges that the front-end delivers alternate and lie at least 140 ps apart (R136); before the first
rising edge a fall below the lower threshold is silent (R130). -/
def execEdge (t n : Nat) (pol : Bool) (bin : Nat) (s : State) : Host.Outcome State Fault Refusal :=
  if n < numChannels then
    let s := (s.at t).flush n
    let c := s.chan n
    .next (
      if !s.compRuns n || !s.spaced n then s
      else if pol != c.level then s.compEdge n pol bin
      else if !pol && !c.known then s.setChan n { c with known := true }
      else s)
  else .fault .noSuchUnit

/-- R136: a pulse of a width, in q, that begins now: below 140 ps it is removed with both edges and counted; from 160 ps on
it is delivered as two edges; between the two either happens, by a free value. -/
def State.pulseIn (s : State) (n width bin endBin : Nat) : State :=
  let deliver (s : State) : State :=
    if s.spaced n then
      let pol := !(s.chan n).level
      let s := s.compEdge n pol bin
      ({ s with now := s.now + width } : State).compEdge n (!pol) endBin
    else s
  if width < 140 * 16384 then s.count .TCH_RUNT_COUNT n
  else if width < 160 * 16384 then
    let (v, s) := s.free
    if v % 2 = 1 then s.count .TCH_RUNT_COUNT n else deliver s
  else deliver s

/-- R136: RUNT_PULSE. -/
def execRuntPulse (t n width bin endBin : Nat) (s : State) : Host.Outcome State Fault Refusal :=
  if n < numChannels then
    let s := (s.at t).flush n
    .next (if s.compRuns n then s.pulseIn n width bin endBin else s)
  else .fault .noSuchUnit

/-- R132: COMMIT_APPLY_EARLY: 1 µs after a COMMIT before time valid; `n` from 144 on is a waveform channel (R201). A COMMIT
whose 1 µs has not passed when the time becomes valid is left to the first frame boundary (DESIGN CHOICE, log entry 70). -/
def execCommitApplyEarly (t n : Nat) (input : Input) (bin : Nat) (s : State) : Host.Outcome State Fault Refusal :=
  if n < numChannels then
    let s := s.at t
    .next (match (s.chan n).commit with
      | some x => if !s.time.valid && decide (x + qUs ≤ s.now) then s.applyFe n (x + qUs) (some (input, bin)) else s
      | none => s)
  else if n < numChannels + numWaves then .next ((s.at t).earlyWave (n - numChannels))
  else .fault .noSuchUnit

/-- R173: SETTLE_END: the anchor that falls due since the change is written, once no edge before it can follow. -/
def execSettleEnd (t n : Nat) (s : State) : Host.Outcome State Fault Refusal :=
  if n < numChannels then .next ((s.at t).flush n) else .fault .noSuchUnit

/-- R137: whether the detector trips at a peak of the compared signal: surely beyond 1.575 V, never within 1.525 V, by a
free value between the two. -/
def State.detects (s : State) (peak : Nat) : Bool × State :=
  if peak ≤ 1525000000 then (false, s)
  else if 1575000000 < peak then (true, s)
  else
    let (v, s) := s.free
    (v % 2 == 1, s)

/-- R138: the class of an overdrive by its peak; 2.0 V and 2.5 V count with the class above, 3.0 V with the class below
(DESIGN CHOICE, log entry 71). -/
def overClass (peak : Nat) : Nat :=
  if peak < 2000000000 then 1 else if peak < 2500000000 then 2 else if peak ≤ 3000000000 then 3 else 4

/-- R137, R139: an overdrive begins, or reaches a higher peak. -/
def State.overdrive (s : State) (n cls : Nat) : State :=
  let c := s.chan n
  let going := c.above || decide (s.now < c.ownEnd) || decide (s.now < c.nbrEnd)
  let s := if going then s else s.count .TCH_OVR_COUNT_EPISODES n
  s.setChan n { c with above := true, ovrAt := if going then c.ovrAt else s.now, cls := if going then max c.cls cls else cls }

/-- R137, R139: OVERDRIVE_START: an overdrive with the highest signal it reaches; a higher peak while it lasts raises its
class. -/
def execOverdriveStart (t n : Nat) (peak : Input) (s : State) : Host.Outcome State Fault Refusal :=
  if n < numChannels then
    let s := s.at t
    let v := (s.signal n peak).natAbs
    .next (
      if !s.dieUp then s
      else if (s.detects v).1 then (s.detects v).2.overdrive n (overClass v)
      else (s.detects v).2)
  else .fault .noSuchUnit

/-- R138: OVERDRIVE_END: the recovery and the neighbour window of the class begin. -/
def execOverdriveEnd (t n : Nat) (s : State) : Host.Outcome State Fault Refusal :=
  if n < numChannels then
    let s := s.at t
    let c := s.chan n
    .next (
      if c.above then
        s.setChan n { c with above := false, ownEnd := s.now + ownWindow c.cls, nbrEnd := s.now + nbrWindow c.cls }
      else s)
  else .fault .noSuchUnit

/-- R145: WINDOW_ASSERT: samples that bring the filter to M violating ones. -/
def execWindowAssert (t n : Nat) (samples : List Input) (s : State) : Host.Outcome State Fault Refusal :=
  if n < numChannels then .next ((s.at t).winSamples n samples) else .fault .noSuchUnit

/-- R141: WINDOW_DEASSERT: samples that bring the filter down to N − M violating ones. -/
def execWindowDeassert (t n : Nat) (samples : List Input) (s : State) : Host.Outcome State Fault Refusal :=
  if n < numChannels then .next ((s.at t).winSamples n samples) else .fault .noSuchUnit

/-- R143: WINDOW_HOLD_END: 60 ns after a change of the limits the hold is over. -/
def execWindowHoldEnd (t n : Nat) (s : State) : Host.Outcome State Fault Refusal :=
  if n < numChannels then
    let s := s.at t
    let c := s.chan n
    .next (match c.limAt with
      | some x => if x + 60 * qNs ≤ s.now then s.setChan n { c with limAt := none } else s
      | none => s)
  else .fault .noSuchUnit

end Sys2Proof.Machine
end

