-- ==== Sys2Proof/Machine/BackEnd.lean ====
section
/-!
DEFINITION. Back-ends (chapter 6): the ends of overflow episodes, the periodic anchors, live calibration, the spares
(R180-R183) and faults (R184, R185).
-/

namespace Sys2Proof.Machine

/-! ## Overflow ends and timed anchors -/

/-- R157, R209: whether a full buffer has drained enough for its cause to end. -/
def State.drainedEnough (s : State) (k : Nat) : Bool :=
  let r := s.src k
  (match r.ovf with
    | some e => e.active.contains fullCause
    | none => false) && decide (r.level ≤ 3072)

/-- R157: the boundary at which a full buffer has drained to 3,072 words. -/
def State.overflowEnds (s : State) (k : Nat) : State :=
  if s.drainedEnough k then s.endCause k fullCause (if isWave k then ceilCoarse (s.src k).sure else s.nextBound k) else s

/-! ## Calibration -/

/-- R159: whether the calibration hit source fires into a back-end. -/
def State.hitsFire (s : State) (b : Nat) : Bool :=
  if b < 144 then (s.island (islandOf b)).state == 0
  else if 256 ≤ b then (match s.spareUser (b - 256) with
    | some n => (s.island (islandOf n)).state == 0
    | none => false)
  else match s.dev with
    | .boot | .run | .test | .recovery => true
    | _ => false

/-- R159, R160: a hit is counted in its bin; a hit during another one does not fire (R154). -/
def State.calHit (s : State) (b bin : Nat) : State :=
  let e := s.be b
  if e.powered && e.fault.isNone && s.hitsFire b && e.lastHit.all fun x => decide (x + 420 * 16384 ≤ s.now) || decide (x = 0) then
    let i := longestFree e.free
    let key := i * 2048 + bin % 2048
    s.setBe b { e.take i s.now with
      hits := SMap.set (fun _ => 0) e.hits key (SMap.get (fun _ => 0) e.hits key + 1)
      lastHit := e.lastHit.set i s.now }
  else s

/-- Whether a property holds of every bin of every interpolator. -/
def allBins (p : Nat → Nat → Bool) : Bool := (List.range 4).all fun i => (List.range 2048).all fun c => p i c

/-- R160: whether the candidate tables of a round are accepted, with tables in use in calibration state `cal`. -/
def BackEnd.accepts (e : BackEnd) (cal : Nat) : Bool :=
  ((List.range 4).all fun i => decide (((List.range 2048).filter fun c => hitsOf e.hits i c == 0).length ≤ 16)) &&
  (allBins fun i c => decide (hitsOf e.hits i c ≤ 2048)) &&
  (match e.live with
    | some h => cal != 0 || allBins fun i c =>
        decide (((tablePos e.hits i c : Int) - tablePos h i c).natAbs ≤ 8 * 65536)
    | none => true)

/-- R163: the largest distance of a set of tables from the default, in 1/256 tick, saturating. -/
def driftOf (b : Nat) (h : SMap Nat) : Nat :=
  let far := (List.range 4).foldl (fun m i => (List.range 2048).foldl (fun m c =>
    max m ((tablePos h i c : Int) - Config.defaultTable b i c).natAbs) m) 0
  min (quot far 256) 65535

/-- R160-R163, R433: the end of a round. -/
def State.buildTables (s : State) (b : Nat) : State :=
  let e := s.be b
  if !((List.range 4).all fun i => decide (2 ^ 20 ≤ hitTotal e.hits i)) || !e.powered || e.fault.isSome then s
  else if e.accepts (s.calBy ((s.beChannel b).getD b) b) then
    let drift := driftOf b e.hits
    let aged := decide (1024 < drift)
    let s := s.setBe b { e with
      hits := [], live := some e.hits, stored := some e.hits, cal := 0, fails := 0, gen := e.gen + 1, drift := drift
      aged := e.aged || aged }
    let s := if 256 ≤ b then (match s.spareUser (b - 256) with
        | some n =>
          let c := s.chan n
          if c.sub = 1 ∧ c.subDue = none then s.setChan n { c with subDue := some s.now } else s
        | none => s)
      else s
    if aged && !e.aged then s.ageing ((s.beChannel b).getD b) else s
  else
    let e := { e with hits := [], fails := e.fails + 1 }
    if e.fails % 3 = 0 then
      let s := s.setBe b e.fallBack
      match s.beChannel b with
      | some n => s.raise .TCH_BE_EVENT_CAL_FAIL n
      | none => s
    else s.setBe b e

/-- R162: CAL_RESTART: the live tables are given up. -/
def State.calRestart (s : State) (n : Nat) : State :=
  let b := s.beOf n
  s.setBe b { (s.be b).fallBack with live := none }

/-- R162: BYPASS ends for a channel: the state that the tables of the back-end in service then support. -/
def State.endBypass (s : State) (n : Nat) : State := s.setBe (s.beOf n) (s.be (s.beOf n)).supported

/-! ## Substitution -/

/-- R182: the spare has no live table 4 s after the RETIRE. -/
def State.warmupOver (s : State) (n : Nat) : State :=
  let c := s.chan n
  if c.sub = 1 ∧ c.subNow = false ∧ c.subDue = none ∧ c.subAt + 4 * qSec ≤ s.now then
    (s.setChan n { c with subDue := some s.now }).raise .TCH_BE_EVENT_CAL_FAIL n
  else s

/-! ## Faults -/

/-- The timing channel that a back-end is in service for. -/
def State.serves (s : State) (b : Nat) : Option Nat :=
  match s.beChannel b with
  | some n => if s.beOf n = b then some n else none
  | none => none

/-- R184: whether a back-end has power: a spare has it only while it stands in or warms up. -/
def State.endPowered (s : State) (b : Nat) : Bool :=
  (s.be b).powered && (decide (b < 256) || (s.beChannel b).isSome)

/-- R184, R185: a back-end stops at once. What it served is an overflow episode from then on; with AUTO and a free spare the
fault of a channel's back-end acts as RETIRE with RETIRE_NOW. -/
def State.beFault (s : State) (b : Nat) : State :=
  let e := s.be b
  if e.fault.isSome || !s.endPowered b then s
  else
    let s := s.setBe b { e with fault := some s.now }
    match s.serves b with
    | some n =>
      let s := s.raise .TCH_BE_EVENT_FAULT n
      let s := if (s.src n).taking then s.beginCause n 2 false else s
      if s.flag .TCH_SPARE_CFG_AUTO n && (s.spareUser (n / 12)).isNone then s.retire n true else s
    | none => match s.beChannel b with
      | some n => s.raise .TCH_BE_EVENT_FAULT n
      | none => if (s.src b).taking then s.beginCause b 2 false else s

/-- R184: the instant since which hits fire into a back-end, if they fire at present: its island is in ON. -/
def State.hitsSince (s : State) (b : Nat) : Option Nat :=
  match s.beChannel b with
  | some n => if (s.island (islandOf n)).state = 0 then some (s.island (islandOf n)).onAt else none
  | none => if s.is8State = 0 then some s.power.bootAt else none

/-- R184: whether an interpolator of a back-end has had no hit for 10 ms while its island is in ON. -/
def State.noHits (s : State) (b : Nat) : Bool :=
  match s.hitsSince b with
  | some on => (s.be b).lastHit.any fun x => decide (max x on + 10 * qMs ≤ s.now)
  | none => false

/-! ## Commands -/

/-- R157: OVERFLOW_END. -/
def execOverflowEnd (t src : Nat) (s : State) : Host.Outcome State Fault Refusal :=
  if src < numSources then .next ((s.at t).overflowEnds src) else .fault .noSuchUnit

/-- R171, R175: PERIODIC_ANCHOR: it is written once no edge before it can be formed any more. -/
def execPeriodicAnchor (t src : Nat) (s : State) : Host.Outcome State Fault Refusal :=
  if src < numSources then .next ((s.at t).flush src) else .fault .noSuchUnit

/-- R171, R175: GAP_ANCHOR. -/
def execGapAnchor (t src : Nat) (s : State) : Host.Outcome State Fault Refusal :=
  if src < numSources then .next ((s.at t).flush src) else .fault .noSuchUnit

/-- R159: CALIBRATION_HIT. -/
def execCalibrationHit (t be bin : Nat) (s : State) : Host.Outcome State Fault Refusal :=
  if isBackEnd be then .next ((s.at t).calHit be bin) else .fault .noSuchUnit

/-- R160: CAL_TABLE_BUILD. -/
def execCalTableBuild (t be : Nat) (s : State) : Host.Outcome State Fault Refusal :=
  if isBackEnd be then .next ((s.at t).buildTables be) else .fault .noSuchUnit

/-- R182: SWITCH. -/
def execSwitch (t n count : Nat) (s : State) : Host.Outcome State Fault Refusal :=
  if n < numChannels then .next ((s.at t).switchOver n count) else .fault .noSuchUnit

/-- R182: SPARE_WARMUP_TIMEOUT. -/
def execSpareWarmupTimeout (t n : Nat) (s : State) : Host.Outcome State Fault Refusal :=
  if n < numChannels then .next ((s.at t).warmupOver n) else .fault .noSuchUnit

/-- R183: REJOIN. -/
def execRejoin (t n : Nat) (s : State) : Host.Outcome State Fault Refusal :=
  if n < numChannels then .next ((s.at t).rejoin n) else .fault .noSuchUnit

/-- R184: BACKEND_FAULT. -/
def execBackendFault (t be : Nat) (s : State) : Host.Outcome State Fault Refusal :=
  if isBackEnd be then .next ((s.at t).beFault be) else .fault .noSuchUnit

/-- R184: INTERPOLATOR_NO_HITS. -/
def execInterpolatorNoHits (t be : Nat) (s : State) : Host.Outcome State Fault Refusal :=
  if isBackEnd be then
    let s := s.at t
    .next (if s.noHits be then s.beFault be else s)
  else .fault .noSuchUnit

end Sys2Proof.Machine
end

