-- ==== Sys2Proof/Machine/Lifecycle.lean ====
section
/-!
DEFINITION. Device states (R28, R29): what each entry does to the block, and the restorations of R468.
-/

namespace Sys2Proof.Machine

/-- R162: the end of TEST ends BYPASS. -/
def State.endBypasses (s : State) : State :=
  (List.range 144).foldl (fun s n => if s.flag .TCH_BE_CFG_CAL_BYPASS n then s.endBypass n else s) s

/-- The device takes another state (R29); DEV_EVENT.STATE is set. -/
def State.setDev (s : State) (d : DevState) : State :=
  if s.dev = d then s
  else
    let s := if s.dev = .test then s.endBypasses else s
    { s with prev := s.dev, dev := d, devAt := s.now }.raise .DEV_EVENT_STATE

/-- R30: whether the present state was taken in the present AOCLK cycle by a host command for TEST or RUN. -/
def State.hostMoved (s : State) : Bool :=
  aoCycle s.devAt == aoCycle s.now && ((s.prev == .run && s.dev == .test) || (s.prev == .test && s.dev == .run))

/-- R29, R30: RUN or TEST gives way to RECOVERY; a host command for TEST or RUN of the same AOCLK cycle is not taken. -/
def State.toRecovery (s : State) : State :=
  if s.hostMoved then { s with dev := .recovery, devAt := s.now }
  else if s.dev = .run ∨ s.dev = .test then s.setDev .recovery
  else s

/-- Whether a key of the register maps belongs to AO, which keeps power in AUX and HOLD. -/
def aoKey (k : Nat) : Bool := (Fld.ofNat (k % 1024)).desc.reg.desc.blk.ao

/-- R414: the gate of a port closes. -/
def closeGate (_ : Nat) (x : Port) : Port := { x with gate := false }

/-- R414: a link port with its lanes off: the end of its admission closes its gate. -/
def loseLink (p : Nat) (x : Port) : Port :=
  if p < 16 then x else { x with gate := false, rd := none, wr := none }

/-- R86, R162: what is lost with the logic rails: every register and unit outside AO, the contents of HBM and SRAM, the
time base's count, the queues and the costs of the governor. -/
def State.loseLogic (s : State) : State :=
  { s with
    pkts := []
    regs := s.regs.filter fun x => aoKey x.1
    force := s.force.filter fun x => aoKey x.1
    ports := SMap.update (fun _ => {}) loseLink s.ports
    mem := []
    time := { timeSet := s.time.timeSet, leap := s.time.leap, leapSec := s.time.leapSec }
    gov := { costs := s.gov.costs, pin := s.gov.pin, bad := s.gov.bad, good := s.gov.good, valid := s.gov.valid, temps := s.gov.temps, cool := s.gov.cool, hourTj := s.gov.hourTj, hourP := s.gov.hourP, hourN := s.gov.hourN }
    islands := [], sources := [], ends := [], chans := [], waves := [], slots := [], ctxs := [], stabs := []
    engines := [], acqs := [], share := {}, pans := [], crys := [], masks := [], rules := [], markers := [], trips := []
    slus := [], slu := {}, lanes := [], quads := [], links := [], hbm := {}, bank := {}
    life := { s.life with engBusy := none, pchBusy := none, pass := [], patrolBad := [], bad := [], sluAt := none } }

/-- R468: an entry to BOOT, HOLD or AUX ends the restorations and sets their counts to 0. -/
def State.dropRestores (s : State) : State := { s with restore := [] }

/-- R414: the gates of all ports close. -/
def State.shutGates (s : State) : State := { s with ports := SMap.update (fun _ => {}) closeGate s.ports }

/-- BOOT_MARK_n (R125): the time from the entry to BOOT, in µs, at the first instant of a milestone. -/
def State.mark (s : State) (n : Nat) : State :=
  if s.get .BOOT_MARK_US n = 0 then s.put .BOOT_MARK_US n ((s.now - s.power.bootAt) / qUs) else s

/-- R353, R120: the lanes that are counted: enabled, not RETIRED, their conditions but for the 300 ms met. -/
def State.countedLane (s : State) (l : Nat) : Bool :=
  s.flag .LNK_LANE_CTL_ENABLE l && (s.lane l).state != 8 &&
    (s.get .LNK_QUAD_CFG_RATE (l / 4) == 2 || ((s.lane l).cfg && (s.link (s.get .LNK_LANE_CFG_LINK l)).up))

/-- Whether every counted lane is TRAINED or in SEEK. -/
def State.lanesSettled (s : State) : Bool :=
  (List.range 64).all fun l => !s.countedLane l || (s.lane l).state == 6 || (s.lane l).state == 7

/-- R120, R125: milestone 6 and SETTLED, which lasts until the next entry to BOOT. Milestone 6 is taken once BOOT has ended, and
with no lane counted it is taken then (DESIGN CHOICE, log entry 79). -/
def State.noteBoot (s : State) : State :=
  let s := if s.boot.complete && s.lanesSettled then s.mark 6 else s
  if s.boot.complete && s.time.valid && s.hbm.trained && s.lanesSettled then
    { s with boot := { s.boot with settled := true } }
  else s

/-- R467, R75, R80, R94, R125, R468: the entry to BOOT. The registers of the boot are cleared but for the last error. -/
def State.enterBoot (s : State) : State :=
  let s := s.loseLogic.dropRestores.setDev .boot
  let s := { s with
    power := { s.power with fet := !s.power.latched && s.power.fetOffAt.isNone && s.power.beat, fetAt := s.now, bus := false, t0 := s.now - 10 * qMs, bootAt := s.now, seq := [], enabled := [], good := [], pmb := List.replicate 10 {}, downAt := none, thermal := false, protect := false, reboot := false, feDown := false }
    boot := { phase := 1 }
    life := { s.life with spent := [] }
    gov := { s.gov with costs := false, held := [{ subj := .base, cost := 339000, guard := false }] } }
  let s := (List.range 8).foldl (fun s n => s.put .BOOT_MARK_US n 0) s
  let s := (List.range 10).foldl (fun s j => (s.put .PWR_RAIL_FAULT j 0).put .PWR_RAIL_PG j 0) s
  ([.BOOT_STATUS_VALID_A, .BOOT_STATUS_VALID_B, .BOOT_STATUS_SIGNED, .BOOT_STATUS_FALLBACK, .BOOT_STATUS_SKIPPED, .BOOT_STATUS_APPLIED,
    .BOOT_GEN_A_GEN, .BOOT_GEN_B_GEN, .BOOT_FLASH_MODE, .BOOT_FLASH_FOUR_BYTE, .BOOT_FLASH_DENSITY] : List Fld).foldl
    (fun s f => s.put f 0 0) s

/-- R86, R119: the entry to HOLD, with the ordered power-down. -/
def State.enterHold (s : State) : State :=
  let s := s.loseLogic.dropRestores.setDev .hold
  { s with power := { s.power with downAt := some s.now, seq := [], feDown := false }, boot := { s.boot with phase := 7 } }

/-- A boot ends in HOLD with an error code, its section and entry (R119, R121). -/
def State.failBoot (s : State) (code section_ entry : Nat) : State :=
  let s := ((s.put .BOOT_FAIL_CODE 0 code).put .BOOT_FAIL_SECTION 0 section_).put .BOOT_FAIL_ENTRY 0 entry
  { s with boot := { s.boot with error := code, section_ := section_ } }.enterHold

/-- R29, R57, R86, R414: the entry to AUX: `ordered` rails go down one after another, otherwise at once. -/
def State.enterAux (s : State) (ordered : Bool) : State :=
  let s := s.loseLogic.dropRestores.shutGates.setDev .aux
  let s := { s with
    power := { s.power with downAt := if ordered then some s.now else none, enabled := if ordered then s.power.enabled else [], good := if ordered then s.power.good else [], bus := ordered && s.power.bus, seq := [], feDown := false }
    boot := {}
    time := { leap := s.time.leap, leapSec := s.time.leapSec } }
  s.put .DEV_BUSERR_COUNT_COUNT 0 0

/-- R73: a protective entry to AUX; the third within one hour locks the device out. The instants are of the entries. -/
def State.protect (s : State) (ordered : Bool) (cause detail : Nat) : State :=
  let recent := s.now :: s.power.prot.filter fun x => decide (s.now < x + 3600 * qSec)
  let s := (s.enterAux ordered).ledger kEvent cause detail
  let s := s.count .LIFE_SHUTDOWNS_COUNT
  let s := { s with power := { s.power with protect := true, prot := recent } }
  if 3 ≤ recent.length then s.put .BOOT_STATUS_LOCKOUT 0 1 else s

/-! ## Restorations -/

/-- The keys of the subsystems: HBM and the lane quads have one count each, however they fail (R468). -/
def kIs8 : Nat := 0
def kSluice : Nat := 1
def kHbm : Nat := 2
def kLanes : Nat := 3
def kIngest : Nat := 4

/-- The subsystem that a command names, and whether its rails are restored. -/
def subsystemKey : Subsystem → Nat × Bool
  | .is8 => (kIs8, false)
  | .sluice => (kSluice, false)
  | .hbmTraining => (kHbm, false)
  | .hbmRails => (kHbm, true)
  | .laneQuads => (kLanes, false)
  | .laneRails => (kLanes, true)
  | .ingest => (kIngest, false)

/-- R29, R468: a restoration fails; in RECOVERY the third in a row moves the device to HOLD, otherwise the next begins at the
following tick, or at once for the IS8 PLL. -/
def State.failRestore (s : State) (k : Nat) : State :=
  let r := s.rest k
  let s := s.setRest k { r with fails := r.fails + 1, began := if k = kIs8 then some s.now else none, second := if k = kIs8 then some s.now else none, ended := none, declared := some (r.declared.getD s.now) }
  if 3 ≤ r.fails + 1 ∧ s.dev = .recovery then s.enterHold else s

/-- Whether a failure is declared and not restored. -/
def State.anyDeclared (s : State) : Bool := (List.range 5).any fun k => (s.rest k).declared.isSome

/-- Whether the device is in BOOT, RUN, TEST or RECOVERY. -/
def State.governs (s : State) : Bool := match s.dev with
  | .boot | .run | .test | .recovery => true
  | _ => false

/-- R29, R468: a failure of a subsystem is declared. The same failure within 1 s of a restoration fails that restoration;
in RUN or TEST the device enters RECOVERY. -/
def State.declare (s : State) (k : Nat) (rails : Bool) : State :=
  if !s.governs then s
  else
    let r := s.rest k
    let again := match r.ended with
      | some x => decide (s.now < x + qSec)
      | none => false
    let s := if r.declared.isSome then
        s.setRest k { r with rails := r.rails || rails, began := if rails && !r.rails then none else r.began, second := if rails && !r.rails then none else r.second }
      else s.setRest k { r with declared := some s.now, began := none, second := none, ended := none, rails := rails }
    let s := if again then s.failRestore k else s
    s.toRecovery

/-- R29: a subsystem has been restored; once none is left the device returns to the state it came from. -/
def State.endRestore (s : State) (k : Nat) : State :=
  let r := s.rest k
  let s := s.setRest k { fails := r.fails, ended := some s.now }
  if s.dev = .recovery ∧ s.anyDeclared = false then s.setDev s.prev else s

/-- R468: a restoration that has held for 1 s sets its count to 0. -/
def State.restoreHeld (s : State) (k : Nat) : State :=
  let r := s.rest k
  match r.ended with
  | some x => if x + qSec ≤ s.now ∧ r.declared = none then s.setRest k {} else s
  | none => s

/-- R29, R339: BOOT ends: the start state, and RECOVERY in the next cycle when a failure was declared in BOOT. -/
def State.enterRun (s : State) : State :=
  let s := s.setDev (if s.boot.start = 4 then .test else .run)
  let s := { s with boot := { s.boot with complete := true, phase := 5 } }
  let s := if s.anyDeclared then s.setDev .recovery else s
  s.noteBoot

end Sys2Proof.Machine
end

