-- ==== Sys2Proof/Machine/Lanes.lean ====
section
/-!
DEFINITION. Serial lanes (chapter 13): the queue and the places of training, the phases of an attempt, SEEK, equalisation,
retirement and return, P1 and P2.
-/

namespace Sys2Proof.Machine

/-! ## What a lane is -/

/-- R346: whether a lane belongs to a JESD quad, and its slot (R191). -/
def State.isJesd (s : State) (l : Nat) : Bool := s.get .LNK_QUAD_CFG_RATE (l / 4) == 2
def slotOf (l : Nat) : Nat := l - 32

/-- R351, R360: whether the chain that a JESD lane feeds has a channel armed, or armed or pending. -/
def State.feedsArmed (s : State) (l : Nat) (pending : Bool) : Bool :=
  s.isJesd l && (s.users (slotOf l / 2)).any fun n => (s.wave n).armed || (pending && (s.wave n).pend)

/-- R349: the presets of a lane. -/
def State.presets (s : State) (l : Nat) : List Int :=
  [(s.get .LNK_LANE_PRESET_CTLE l : Int), s.get .LNK_LANE_PRESET_PRE l, s.get .LNK_LANE_PRESET_MAIN l,
    s.get .LNK_LANE_PRESET_POST l] ++ List.replicate 12 0

/-- R349: whether codes lie in the ranges of the FFE, with their sum. -/
def ffeOk (pre main post : Nat) : Bool :=
  decide (pre ≤ 15) && decide (24 ≤ main) && decide (main ≤ 63) && decide (post ≤ 31) && pre + main + post == 63

/-- R349: the range of a stage by its place in the list of taps. -/
def tapLow (i : Nat) : Int := if i = 0 then 0 else if i = 4 then -63 else -31
def tapHigh (i : Nat) : Int := if i = 0 then 15 else if i = 4 then 63 else 31

/-- R363: whether a quad lets its lanes train: outside P2 and not in fault. -/
def State.quadTrains (s : State) (q : Nat) : Bool := (s.quad q).pwr == 0 && !(s.quad q).failed

/-! ## The queue -/

/-- The lanes in QUEUED, and the places in use (R353). -/
def State.laneQueue (s : State) : List Nat := (List.range 64).filter fun l => (s.lane l).state == 1
def State.places (s : State) : Nat := ((List.range 64).filter fun l => (s.lane l).place).length

/-- A place at the end of the queue. -/
def State.nextOrder (s : State) : Nat := (List.range 64).foldl (fun m l => max m (s.lane l).order) 0 + 1

/-- R353: a lane enters QUEUED, at the end of the queue or, at the start, at the place that the image has given it (R118). A quad that has not
run leaves P2 then (log entry 35). -/
def State.enqueue (s : State) (l : Nat) (keep : Bool) : State :=
  let x := s.lane l
  let order := if keep ∧ x.order ≠ 0 then x.order else s.nextOrder
  let s := s.setLane l { x with state := 1, place := false, order := order }
  let q := s.quad (l / 4)
  if q.pwr = 2 ∧ s.get .LNK_QUAD_CTL_PWR (l / 4) = 0 then s.setQuad (l / 4) { q with pwr := 0, pll := false } else s

/-- R353: whether a WAITING lane's conditions hold. -/
def State.laneReady (s : State) (l : Nat) : Bool :=
  decide (s.power.t0 + 300 * qMs ≤ s.now) && s.countedLane l &&
    !((s.quad (l / 4)).pwr != 0 && s.get .LNK_QUAD_CTL_PWR (l / 4) == 2) && (s.quad (l / 4)).pwr != 1

/-- R353, R118: the WAITING lanes whose conditions hold enter QUEUED: those of the start 300 ms into the boot in the order of the
image, later ones at the end. -/
def State.wakeLanes (s : State) : State :=
  let first := !s.boot.lanesOn
  let s := { s with boot := { s.boot with lanesOn := s.boot.lanesOn || decide (s.power.t0 + 300 * qMs ≤ s.now) } }
  (List.range 64).foldl (fun s l =>
    if (s.lane l).state = 9 ∧ s.laneReady l = true then (s.setLane l { s.lane l with taps := s.presets l }).enqueue l first else s) s

/-- R118: an entry of the image has enabled a lane: its place in the queue. -/
def State.noteEnable (s : State) (l : Nat) : State :=
  if s.dev = .boot ∧ s.flag .LNK_LANE_CTL_ENABLE l = true ∧
      (s.isJesd l = true ∨ s.flag .LNK_LINK_CTL_ENABLE (s.get .LNK_LANE_CFG_LINK l) = true) then
    s.setLane l { s.lane l with order := s.nextOrder }
  else s

/-! ## Leaving and returning -/

/-- R376: a lane that the partner's SERVICE names has lost its lock: the blocks striped to it are lost from now on. -/
def State.loseBlocks (s : State) (l : Nat) : State :=
  let x := s.lane l
  let b := s.get .LNK_LANE_CFG_LINK l
  if !s.isJesd l && x.cfg && bit (s.link b).rx (l % 4) && x.lostAt.isNone then
    (s.setLane l { x with lostAt := some s.now }).raise .LNK_LINK_EVENT_LOST b
  else s

/-- R356: a lane stops: its place is free, and it leaves service at the next ALIGN (R358). -/
def State.stopLane (s : State) (l : Nat) (lock : Bool) : State :=
  let s := if lock then s else s.loseBlocks l
  let x := s.lane l
  s.setLane l { x with place := false, deskew := false, miss := 0, leaving := x.service, lock := lock && x.lock,
                       order := 0, eyeTry := false }

/-- R193: a JESD lane that loses block lock: an ingest fault of its slot. -/
def State.ingestLost (s : State) (l : Nat) : State :=
  let x := s.slot (slotOf l)
  if !s.isJesd l || x.state == 0 then s
  else if x.state = 3 ∧ s.feedsArmed l false = true ∧ s.slotUsed (slotOf l) = true then (s.loseIngest (slotOf l)).declare kIngest false
  else s.setSlot (slotOf l) { x with state := 0 }

/-- R356, R357: a lane enters SEEK with its presets. -/
def State.toSeek (s : State) (l : Nat) : State :=
  let s := s.stopLane l false
  let x := s.lane l
  let s := s.setLane l { x with
    state := 7, taps := s.presets l, seekAt := s.now, entered := x.entered + 1
    backoff := if x.entered = 0 then x.backoff else min 7 (x.backoff + 1) }
  s.noteBoot

/-- R360, R441: a lane is powered down and RETIRED; its cost is released at the next tick. -/
def State.retireNow (s : State) (l : Nat) : State :=
  let s := s.stopLane l false
  let x := s.lane l
  let s := s.setLane l { x with state := 8, retire := false, returns := false, leaving := false, service := false, signal := false, p1 := false, muted := false }
  let s := (s.releaseCost (.lane l)).unitDone
  { s with life := { s.life with retLane := s.life.retLane ||| 2 ^ l } }.noteBoot

/-- R353, R365: ENABLE = 0 takes effect: UNUSED. -/
def State.unuse (s : State) (l : Nat) : State :=
  let s := s.stopLane l false
  (s.setLane l { s.lane l with state := 0, off := false, leaving := false, service := false, retire := false, signal := false,
                               p1 := false, muted := false, early := false, backoff := 0, entered := 0 }).noteBoot

/-- R354, R350, R361: an attempt succeeds. -/
def State.trainedLane (s : State) (l : Nat) : State :=
  let x := s.lane l
  let s := if x.eyeTry then s.count .LNK_LANE_RETRAINS_COUNT l else s
  let s := s.setLane l { x with state := 6, place := false, eyeTry := false, trained := x.taps, backoff := 0, entered := 0, frozen := false, order := 0, returns := false }
  let s := if x.returns then
      { s with life := { s.life with retLane := s.life.retLane &&& ((2 ^ 64 - 1) ^^^ 2 ^ l) } }.unitDone
    else s
  let s := if s.isJesd l ∧ (s.slot (slotOf l)).state = 0 then
      s.setSlot (slotOf l) { state := 1, failed := (s.slot (slotOf l)).failed } else s
  let s := s.noteBoot
  if x.retire then s.retireNow l else s

/-- R359: an eye retraining, or a RETRAIN of a TRAINED lane: it leaves service, and P1, and queues for an attempt from ADAPT. -/
def State.startRetrain (s : State) (l : Nat) : State :=
  let s := s.stopLane l true
  let s := if s.isJesd l then s.setSlot (slotOf l) { s.slot (slotOf l) with state := 0 } else s
  (s.setLane l { s.lane l with eyeTry := (s.lane l).lock, p1 := false }).enqueue l false

/-! ## Attempts -/

/-- R354: the limit of a phase, and of an attempt. -/
def phaseLimit (state : Nat) : Nat := ([0, 0, 10, 5, 40, 20].getD state 0) * qMs
def State.tryLimit (s : State) (l : Nat) : Nat := (if s.isJesd l then 55 else 75) * qMs

/-- Whether a phase, and the attempt, are within their limits. -/
def State.inTime (s : State) (l : Nat) : Bool :=
  let x := s.lane l
  decide (s.now ≤ x.phaseAt + phaseLimit x.state) && decide (s.now ≤ x.tryAt + s.tryLimit l)

/-- R118, R353, R359, R364: the head of the queue takes a free place, once it carries no link blocks, from 300 ms into the boot
on, but after a lane rail fault at once. -/
def State.takePlace (s : State) (l : Nat) : State :=
  let x := s.lane l
  let ready := fun m => s.quadTrains (m / 4) && !(s.lane m).service && ((s.lane m).early || decide (s.power.t0 + 300 * qMs ≤ s.now))
  let first := (s.laneQueue.filter ready).all fun m => x.order ≤ (s.lane m).order
  if x.state = 1 ∧ ready l = true ∧ first = true ∧ s.places < 8 then
    s.setLane l { x with state := if x.eyeTry then 4 else 2, place := true, order := 0, early := false, phaseAt := s.now, tryAt := s.now }
  else s

/-- The next phase of an attempt. -/
def State.nextPhase (s : State) (l state : Nat) : State := s.setLane l { s.lane l with state := state, phaseAt := s.now }

/-- R354: SIGNAL completes. -/
def State.signalDone (s : State) (l : Nat) : State :=
  if (s.lane l).state = 2 ∧ s.inTime l = true then
    let s := s.setQuad (l / 4) { s.quad (l / 4) with pll := true }
    (s.setLane l { s.lane l with signal := true }).nextPhase l 3
  else s

/-- R354, R355: LOCK completes after a number of invalid headers, a free value. The lane slips one bit after each of them, but
under MANUAL_SLIP in TEST the position is the host's. At most 1,953,125 blocks come within the 5 ms. -/
def State.lockDone (s : State) (l : Nat) : State :=
  if (s.lane l).state = 3 ∧ s.inTime l = true then
    let (v, s) := s.free
    let x := s.lane l
    let bad := v % 1953126
    let manual := s.flag .LNK_LANE_CTL_MANUAL_SLIP l && s.dev == .test
    let s := s.count .LNK_LANE_SHERR_COUNT l bad
    (s.setLane l { x with lock := true, slip := if manual then x.slip else (x.slip + bad) % 66 }).nextPhase l 4
  else s

/-- R392: a lane in its FFE phase sends a TRAIN block (log entry 44). -/
def State.sendTrain (s : State) (l : Nat) : State :=
  let x := s.lane l
  let tap := fun i => (x.taps.getD i 0).toNat
  s.sendBlock (s.get .LNK_LANE_CFG_LINK l) (trainWord (tap 1) (tap 2) (tap 3) x.reject)

/-- R354, R349: ADAPT completes with the CTLE and the DFE found. -/
def State.adaptDone (s : State) (l ctle : Nat) (dfe : List Int) : State :=
  if (s.lane l).state = 4 ∧ s.inTime l = true then
    let x := s.lane l
    let old := if x.taps = [] then s.presets l else x.taps
    let taps := ((min ctle 15 : Nat) : Int) :: (old.drop 1).take 3 ++
      (List.range 12).map fun i => max (tapLow (i + 4)) (min (tapHigh (i + 4)) (dfe.getD i 0))
    let s := s.setLane l { x with taps := taps, reject := false }
    if s.isJesd l then s.trainedLane l else (s.nextPhase l 5).sendTrain l
  else s

/-- R354, R392: FFE completes. -/
def State.ffeDone (s : State) (l : Nat) : State :=
  if (s.lane l).state = 5 ∧ s.inTime l = true then s.trainedLane l else s

/-- R356, R365: a limit passes. -/
def State.timeoutLane (s : State) (l : Nat) : State :=
  let x := s.lane l
  if 2 ≤ x.state ∧ x.state ≤ 5 ∧ (x.phaseAt + phaseLimit x.state ≤ s.now ∨ x.tryAt + s.tryLimit l ≤ s.now) then
    (s.toSeek l).raise .LNK_LANE_EVENT_TIMEOUT l
  else s

/-- Whether loss of signal or of lock is acted on (R362, R363, R393). -/
def State.listens (s : State) (l : Nat) : Bool :=
  let x := s.lane l
  !x.p1 && !x.muted && (s.quad (l / 4)).pwr == 0

/-- R356, R365: loss of signal energy. A queued lane that kept its lock has lost it, and begins its attempt at SIGNAL. -/
def State.losLane (s : State) (l : Nat) : State :=
  let x := s.lane l
  if 2 ≤ x.state ∧ x.state ≤ 6 ∧ s.listens l = true then
    if x.retire then s.retireNow l
    else
      let s := s.setLane l { x with signal := false }
      ((s.ingestLost l).toSeek l).raise .LNK_LANE_EVENT_LOS l
  else if x.state = 1 then s.setLane l { x with signal := false, lock := false, eyeTry := false }
  else s.setLane l { x with signal := false }

/-- R355, R356: block lock is lost with signal present. The invalid headers are 8 in a row or up to 32 in 1,024. -/
def State.unlockLane (s : State) (l : Nat) : State :=
  let x := s.lane l
  if x.lock && s.listens l then
    let (v, s) := s.free
    let s := s.count .LNK_LANE_SHERR_COUNT l (8 + v % 25)
    if x.state = 6 then
      let s := (s.ingestLost l).stopLane l false
      ((s.setLane l { s.lane l with taps := s.presets l }).enqueue l false).raise .LNK_LANE_EVENT_LOST_LOCK l
    else if x.state = 4 ∨ x.state = 5 then
      s.setLane l { x with state := 2, lock := false, eyeTry := false, phaseAt := s.now, tryAt := s.now }
    else s.setLane l { x with lock := false, eyeTry := false }
  else s

/-- R357: a lane in SEEK re-enters QUEUED. -/
def State.retrySeek (s : State) (l : Nat) (signal : Bool) : State :=
  let x := s.lane l
  if x.state = 7 ∧ (s.quad (l / 4)).pwr = 0 ∧
      (x.seekAt + 500 * 2 ^ x.backoff * qMs ≤ s.now ∨ (signal = true ∧ x.seekAt + 500 * qMs ≤ s.now)) then
    (s.setLane l { x with signal := x.signal || signal }).enqueue l false
  else s

/-! ## Host operations -/

/-- R353, R365: a write of ENABLE. -/
def State.enableLane (s : State) (l en : Nat) : State :=
  let was := s.get .LNK_LANE_CTL_ENABLE l
  let s := s.put .LNK_LANE_CTL_ENABLE l en
  let x := s.lane l
  if en = was ∨ x.state = 8 then s
  else if en = 1 then
    if x.state = 0 then ((s.setLane l { x with state := 9 }).noteEnable l).wakeLanes else s.setLane l { x with off := false }
  else if x.service then s.setLane l { x with off := true, leaving := true, place := false }
  else s.unuse l

/-- R357, R359: RETRAIN. R359 says that a lane in SEEK only takes BACKOFF 0, R357 that it re-enters QUEUED (log entry
36). -/
def State.retrainLane (s : State) (l : Nat) : State :=
  let x := s.lane l
  match x.state with
  | 1 => s.setLane l { x with backoff := 0 }
  | 2 | 3 | 4 | 5 => s.setLane l { x with state := 2, eyeTry := false, phaseAt := s.now, tryAt := s.now }
  | 6 => s.startRetrain l
  | 7 => if (s.quad (l / 4)).pwr = 0 then (s.setLane l { x with backoff := 0 }).enqueue l false
         else s.setLane l { x with backoff := 0 }
  | _ => s

/-- R355: SLIP in TEST with MANUAL_SLIP = 1 moves the sampling point by one bit. -/
def State.slipLane (s : State) (l : Nat) : State :=
  if s.flag .LNK_LANE_CTL_MANUAL_SLIP l then s.setLane l { s.lane l with slip := ((s.lane l).slip + 1) % 66 } else s

/-- R360: the errors of RETIRE and RETURN. -/
def State.laneCmdError (s : State) (l : Nat) (retire ret : Bool) : Option Nat :=
  let x := s.lane l
  let b := s.get .LNK_LANE_CFG_LINK l
  let alone := !s.isJesd l && x.service && (s.link b).admitted &&
    ((s.linkLanes b).filter fun m => (s.lane m).service).length == 1
  lowestCode [(retire && ret, eValue), (retire && x.state == 8, eState), (ret && x.state != 8, eState),
    (retire && alone, eState), (retire && s.feedsArmed l true, eState)]

/-- R360: RETIRE: at the next ALIGN boundary, or at once when the lane carries no link blocks. -/
def State.laneRetire (s : State) (l : Nat) : State :=
  let x := s.lane l
  if x.service then s.setLane l { x with retire := true, leaving := true, place := false } else s.retireNow l

/-- R361: RETURN: QUEUED with its presets; the cost is committed at the next tick. -/
def State.laneReturn (s : State) (l : Nat) : State :=
  let s := s.setLane l { cfg := (s.lane l).cfg, state := 0, taps := s.presets l, returns := true }
  let s := { s with gov := { s.gov with returns := if s.isJesd l then s.gov.returns else s.gov.returns ++ [l] } }
  if s.flag .LNK_LANE_CTL_ENABLE l then s.enqueue l false else s

/-- R362, R393: a write of P1_REQ: a lane in P1 leaves it, a lane in service leaves service. -/
def State.reqP1 (s : State) (l v : Nat) : State :=
  let s := s.put .LNK_LANE_CTL_P1_REQ l v
  let x := s.lane l
  if s.isJesd l then s
  else if v = 0 then s.setLane l { x with p1 := false }
  else if x.state = 6 then s.setLane l { x with leaving := x.service }
  else s

/-- R363: the errors of a write of PWR. -/
def State.pwrError (s : State) (q v : Nat) : Option Nat :=
  let bad := (List.range 4).any fun i =>
    let l := 4 * q + i
    let x := s.lane l
    !(x.state == 0 || x.state == 9 || x.state == 8 || x.state == 7 || (x.state == 6 && x.p1)) || s.feedsArmed l true
  lowestCode [(v == 1 || v == 3, eValue), (v == 2 && s.get .LNK_QUAD_CTL_PWR q != 2 && bad, eState)]

/-- R363: a write of PWR: entry to P2, or the beginning of the exit. -/
def State.writePwr (s : State) (q v : Nat) : State :=
  let was := s.get .LNK_QUAD_CTL_PWR q
  let s := s.put .LNK_QUAD_CTL_PWR q v
  if v = was then s
  else if v = 2 then
    let s := s.setQuad q { s.quad q with pwr := 2, pll := false }
    (List.range 4).foldl (fun s i => s.setLane (4 * q + i) { s.lane (4 * q + i) with lock := false }) s
  else if (s.quad q).pwr = 2 then
    let used := (List.range 4).any fun i => let st := (s.lane (4 * q + i)).state; st == 6 || st == 7
    if used then s.setQuad q { s.quad q with pwr := 1, exitAt := s.now } else s.wakeLanes
  else s

/-- R363: the exit from P2 completes: each lane is in the state it held before. -/
def State.exitDone (s : State) (q : Nat) : State :=
  let x := s.quad q
  if x.pwr = 1 ∧ s.now ≤ x.exitAt + 1200 * qUs then
    let s := s.setQuad q { x with pwr := 0, pll := true }
    ((List.range 4).foldl (fun s i =>
      let l := 4 * q + i
      if (s.lane l).state = 6 then s.setLane l { s.lane l with lock := true } else s) s).wakeLanes
  else s

/-- R363: a lane has no block lock 1.2 ms after the exit began: QUEUED with its held taps. -/
def State.exitLate (s : State) (l : Nat) : State :=
  let q := s.quad (l / 4)
  if q.exitAt ≠ 0 ∧ q.exitAt + 1200 * qUs ≤ s.now ∧ q.pwr ≤ 1 ∧ (s.lane l).state = 6 ∧ (s.lane l).lock = false then
    let s := s.setQuad (l / 4) { q with pwr := 0, pll := true }
    (((s.setLane l { s.lane l with p1 := false }).stopLane l false).enqueue l false).wakeLanes
  else s

/-! ## The eye and adaptation -/

/-- R351: a measurement of the eye of a trained lane in P0. -/
def State.measureEye (s : State) (l vm hm : Nat) : State :=
  let x := s.lane l
  if x.state = 6 ∧ x.p1 = false ∧ (s.quad (l / 4)).pwr = 0 then
    let s := (s.put .LNK_LANE_EYE_VMARGIN l vm).put .LNK_LANE_EYE_HMARGIN l hm
    let low := vm < s.get .LNK_QUAD_CFG_EYE_VMIN (l / 4) ∨ hm < s.get .LNK_QUAD_CFG_EYE_HMIN (l / 4)
    if low then
      if x.lows + 1 < 16 then s.setLane l { x with lows := x.lows + 1 }
      else
        let s := (s.setLane l { x with lows := 0 }).raise .LNK_LANE_EVENT_EYE_LOW l
        if s.feedsArmed l false then s else s.startRetrain l
    else s.setLane l { x with lows := 0 }
  else s

/-- R350: one update of the CTLE and the DFE taps: `steps` are the signs of the changes, CTLE first. -/
def State.adaptLane (s : State) (l : Nat) (steps : List Int) : State :=
  let x := s.lane l
  if x.state = 6 ∧ x.p1 = false ∧ (s.quad (l / 4)).pwr = 0 then
    (List.range 13).foldl (fun s j =>
      let i := if j = 0 then 0 else j + 3
      let y := s.lane l
      let step := (steps.getD j 0).sign
      let new := y.taps.getD i 0 + step
      if step = 0 then s
      else if 8 < (new - y.trained.getD i 0).natAbs ∨ new < tapLow i ∨ tapHigh i < new then
        (s.count .LNK_LANE_GUARD_COUNT l).raise .LNK_LANE_EVENT_GUARD l
      else s.setLane l { y with taps := y.taps.set i new }) (s.setLane l { x with frozen := false })
  else s

/-! ## Faults of quads -/

/-- R29, R364, R468: a quad fails: its lanes stop and wait in QUEUED with their presets for its restoration. A fault of a lane
rail takes the lanes in WAITING with it (R84, log entry 37). -/
def State.failQuad (s : State) (q : Nat) (rail : Bool := false) : State :=
  let s := s.setQuad q { s.quad q with pll := false, failed := true }
  (List.range 4).foldl (fun s i =>
    let l := 4 * q + i
    let st := (s.lane l).state
    if st = 0 ∨ st = 8 ∨ (st = 9 ∧ rail = false) then s
    else
      let s := (s.ingestLost l).stopLane l false
      (s.setLane l { s.lane l with taps := s.presets l, signal := false, p1 := false, early := rail }).enqueue l false) s

/-- The quads in fault run again. -/
def State.restoreQuads (s : State) : State :=
  (List.range 16).foldl (fun s q =>
    if (s.quad q).failed then s.setQuad q { s.quad q with failed := false, pll := true, pwr := 0 } else s) s

/-! ## Commands -/

/-- R118, R353: LANE_START_TIME. -/
def execLaneStartTime (t : Nat) (s : State) : Host.Outcome State Fault Refusal := .next (s.at t).wakeLanes

/-- R354: ATTEMPT. -/
def execAttempt (t l : Nat) (s : State) : Host.Outcome State Fault Refusal :=
  if l < numLanes then .next ((s.at t).takePlace l) else .fault .noSuchUnit

/-- R354: SIGNAL. -/
def execSignal (t l : Nat) (s : State) : Host.Outcome State Fault Refusal :=
  if l < numLanes then .next ((s.at t).signalDone l) else .fault .noSuchUnit

/-- R354: LOCK. -/
def execLock (t l : Nat) (s : State) : Host.Outcome State Fault Refusal :=
  if l < numLanes then .next ((s.at t).lockDone l) else .fault .noSuchUnit

/-- R354: ADAPT. -/
def execAdapt (t l ctle : Nat) (dfe : List Int) (s : State) : Host.Outcome State Fault Refusal :=
  if l < numLanes then .next ((s.at t).adaptDone l ctle dfe) else .fault .noSuchUnit

/-- R354: FFE. -/
def execFfe (t l : Nat) (s : State) : Host.Outcome State Fault Refusal :=
  if l < numLanes then .next ((s.at t).ffeDone l) else .fault .noSuchUnit

/-- R356: TRAINING_TIMEOUT. -/
def execTrainingTimeout (t l : Nat) (s : State) : Host.Outcome State Fault Refusal :=
  if l < numLanes then .next ((s.at t).timeoutLane l) else .fault .noSuchUnit

/-- R356: LOS. -/
def execLos (t l : Nat) (s : State) : Host.Outcome State Fault Refusal :=
  if l < numLanes then .next ((s.at t).losLane l) else .fault .noSuchUnit

/-- R355: LOST_LOCK. -/
def execLostLock (t l : Nat) (s : State) : Host.Outcome State Fault Refusal :=
  if l < numLanes then .next ((s.at t).unlockLane l) else .fault .noSuchUnit

/-- R357: SEEK_RETRY; `signal` says that signal energy is detected. -/
def execSeekRetry (t l : Nat) (signal : Bool) (s : State) : Host.Outcome State Fault Refusal :=
  if l < numLanes then .next ((s.at t).retrySeek l signal) else .fault .noSuchUnit

/-- R351: EYE_MEASUREMENT. -/
def execEyeMeasurement (t l vm hm : Nat) (s : State) : Host.Outcome State Fault Refusal :=
  if l < numLanes then .next ((s.at t).measureEye l vm hm) else .fault .noSuchUnit

/-- R350: ADAPTATION_UPDATE. -/
def execAdaptationUpdate (t l : Nat) (steps : List Int) (s : State) : Host.Outcome State Fault Refusal :=
  if l < numLanes then .next ((s.at t).adaptLane l steps) else .fault .noSuchUnit

/-- R350: ADAPTATION_FREEZE. On a JESD lane every block counts as a data block. -/
def execAdaptationFreeze (t l : Nat) (s : State) : Host.Outcome State Fault Refusal :=
  if l < numLanes then
    let s := s.at t
    .next (if (s.lane l).state = 6 ∧ s.isJesd l = false then s.setLane l { s.lane l with frozen := true } else s)
  else .fault .noSuchUnit

/-- R363: P2_EXIT_COMPLETE. -/
def execP2ExitComplete (t q : Nat) (s : State) : Host.Outcome State Fault Refusal :=
  if q < numQuads then .next ((s.at t).exitDone q) else .fault .noSuchUnit

/-- R363: P2_EXIT_TIMEOUT. -/
def execP2ExitTimeout (t l : Nat) (s : State) : Host.Outcome State Fault Refusal :=
  if l < numLanes then .next ((s.at t).exitLate l) else .fault .noSuchUnit

/-- R393: P1_SIGNAL_RETURN. -/
def execP1SignalReturn (t l : Nat) (s : State) : Host.Outcome State Fault Refusal :=
  if l < numLanes then
    let s := s.at t
    .next (s.setLane l { s.lane l with muted := false, signal := (s.lane l).signal || 2 < (s.lane l).state })
  else .fault .noSuchUnit

/-- R29: LANE_QUAD_FAULT. -/
def execLaneQuadFault (t q : Nat) (s : State) : Host.Outcome State Fault Refusal :=
  if q < numQuads then
    let s := s.at t
    .next (if (s.quad q).pwr = 2 then s else (s.failQuad q).declare kLanes false)
  else .fault .noSuchUnit

end Sys2Proof.Machine
end

