-- ==== Sys2Proof/Machine/Sluice.lean ====
section
/-!
DEFINITION. Sluice (chapter 12): the ends of a transfer, descriptors, bursts, credits and starts, stops, and the engine
halt. A burst moves one 64 B unit between memories or from a source port, and up to 4 KiB to a destination port.
-/

namespace Sys2Proof.Machine

/-! ## The ends of a channel -/

/-- R326: whether a channel runs from a list, and whether the list names source pieces. -/
def State.sluList (s : State) (c : Nat) : Bool := s.flag .SLU_CFG_MODE c
def State.sluGather (s : State) (c : Nat) : Bool := s.get .SLU_CFG_LIST_DIR c == 0

/-- The present source address: of the block handed over, of the piece of a gather list, or SRC. -/
def State.sluFrom (s : State) (c : Nat) : Option Nat :=
  let x := s.sl c
  if x.held.isSome then x.inbox.head?.map fun h => h.addr + (h.len - h.left)
  else if s.sluList c && s.sluGather c then x.desc.map (·.addr)
  else some (s.get .SLU_SRC_ADDR c)

/-- The present destination address: of the piece of a scatter list, or DST. -/
def State.sluTo (s : State) (c : Nat) : Option Nat :=
  let x := s.sl c
  if s.sluList c && !s.sluGather c then x.desc.map (·.addr) else some (s.get .SLU_DST_ADDR c)

/-- The bytes that the transfer or the descriptor in progress has left, as the destination sees it. A held channel with a
port in REGISTER mode has no end of its own (R342). -/
def State.sluLeft (s : State) (c : Nat) : Option Nat :=
  let x := s.sl c
  if s.sluList c then some ((x.desc.map (·.len)).getD 0)
  else if x.held.isSome && s.isStream (s.get .SLU_DST_ADDR c) then none
  else some (s.get .SLU_COUNT_BYTES c)

/-- Whether an address names HBM. -/
def State.isHbm (s : State) (a : Option Nat) : Bool := match a with
  | some a => decide (a < s.hbmTop)
  | none => false

/-- The stream that an end names, if it is a port. -/
def State.portAt (s : State) (a : Option Nat) : Option (Nat × Nat) := match a with
  | some a => if s.isStream a then some (portOf a) else none
  | none => none

/-- Whether Sluice moves bytes at all: IS8 is in ON and its clock runs, and the engine is not halted (R325, R339). -/
def State.sluRuns (s : State) : Bool := s.is8State == 0 && !s.time.halted && !s.slu.halted

/-- R325: a running channel waits for IS8, or for HBM. -/
def State.waitsMem (s : State) (c : Nat) : Bool :=
  (s.sl c).state == 1 &&
    (s.is8State != 0 || (!s.hbm.trained && (s.isHbm (s.sluFrom c) || s.isHbm (s.sluTo c))))

/-- R327: a descriptor with WAITACK waits while an event flag that its completion sets is set. -/
def State.waitsAck (s : State) (c : Nat) : Bool :=
  let x := s.sl c
  match x.desc with
  | some d => x.state == 1 && !x.going && d.waitAck &&
      ((d.irq && s.flag .SLU_EVENT_DESC c) || (d.half && s.flag .SLU_EVENT_HALF c))
  | none => false

/-- R332: a running channel waits for credit, or for data. -/
def State.waitsCredit (s : State) (c : Nat) : Bool :=
  let x := s.sl c
  x.state == 1 &&
    (((s.portAt (s.sluTo c)).isSome && s.get .SLU_CREDIT_AVAIL c == 0) ||
      ((s.portAt (s.sluFrom c)).isSome && x.recv.length < 8))

/-! ## Descriptors -/

/-- R327: the descriptor at an address. -/
def State.descAt (s : State) (a : Nat) : Desc :=
  let w := s.readWord a
  let v := s.readWord (a + 8)
  { addr := bits w 0 48, len := bits v 0 32, last := bit w 48, jump := bit w 49, irq := bit w 50, half := bit w 51,
    waitAck := bit w 52, link := bits v 32 32, self := a }

/-- R339: the fault of a descriptor fetched at an address, with the faulting address; the cause is 0 when there is none. -/
def State.descFault (s : State) (c a : Nat) : Nat × Nat :=
  if a % 16 ≠ 0 then (causeAlign, a)
  else if a < listBase ∨ listTop ≤ a then (causeAccess, a)
  else
    let d := s.descAt a
    if bits (s.readWord a) 53 11 ≠ 0 ∨ d.len = 0 ∨ d.len % 64 ≠ 0 then (causeDesc, a)
    else
      let gather := s.sluGather c
      let f := s.sluFault d.addr gather
      let other := s.portAt (if gather then s.sluTo c else s.sluFrom c)
      if f ≠ 0 then (f, d.addr)
      else if s.isStream d.addr && (s.get .SLU_CFG_PACE c == 0 || other.isSome) then (causePort, d.addr)
      else if s.sluOver d.addr d.len then (causeDesc, d.addr)
      else (0, a)

/-- The address of the descriptor after one. -/
def Desc.next (d : Desc) : Nat := if d.jump then poolBase + d.link * 16 else d.self + 16

/-! ## Commit, completion, halt -/

/-- R330: a committed list address is taken over. -/
def State.applyList (s : State) (c : Nat) : State :=
  let s := (s.apply .SLU_LIST_ADDR c).bump .SLU_COMMIT_APPLIED_SEQ c
  s.setSl c { s.sl c with commit := none, list := s.inForce .SLU_LIST_ADDR c }

/-- R330, R415: the list address committed in an earlier fabric cycle is taken over at a descriptor's completion. -/
def State.handOver (s : State) (c : Nat) : State :=
  match (s.sl c).commit with
  | some x => if fabCycle x < fabCycle s.now then s.applyList c else s
  | none => s

/-- A channel that is no longer active applies a commit that waits (R330). -/
def State.dropCommit (s : State) (c : Nat) : State :=
  if (s.sl c).commit.isSome then s.applyList c else s

/-- Whether the transfer, or the descriptor in progress, has written its last byte. -/
def State.sluDue (s : State) (c : Nat) : Bool :=
  let x := s.sl c
  (x.state == 1 || x.state == 2) && !x.ended &&
    (if s.sluList c then (match x.desc with
      | some d => x.going && d.len == 0
      | none => false)
    else s.get .SLU_COUNT_BYTES c == 0 && x.held.isNone)

/-- R335: the completion of a REGISTER transfer or of a descriptor: its events, and DONE or the next descriptor. A held
channel whose list has ended waits for its release (R342). -/
def State.completeSlu (s : State) (c : Nat) : State :=
  if !s.sluDue c then s
  else
    let x := s.sl c
    match s.sluList c, x.desc with
    | true, some d =>
      let s := if d.half then s.sluEvent .SLU_EVENT_HALF c else s
      let s := if d.irq then s.sluEvent .SLU_EVENT_DESC c else s
      let s := s.setSl c { x with desc := none, going := false, saved := [], list := d.next, ended := d.last }
      let s := s.handOver c
      if d.last && x.held.isNone then ((s.setSl c { s.sl c with state := 4 }).sluEvent .SLU_EVENT_DONE c).dropCommit c
      else s
    | _, _ =>
      let s := s.handOver c
      ((s.setSl c { s.sl c with state := 4, saved := [] }).sluEvent .SLU_EVENT_DONE c).dropCommit c

/-- Whether a channel's completion would make it DONE. -/
def State.sluEnds (s : State) (c : Nat) : Bool :=
  s.sluDue c && (match s.sluList c, (s.sl c).desc with
    | true, some d => d.last
    | _, _ => true)

/-- R339, R268, R343: the engine halts: channels that complete in the cycle complete, the others enter HALTED, and
stream-through captures stop. -/
def State.haltSluice (s : State) (cause addr : Nat) : State :=
  if s.slu.halted then s
  else
    let s := (List.range 32).foldl (fun s c =>
      let s := if s.sluEnds c then s.completeSlu c else s
      let x := s.sl c
      if 1 ≤ x.state ∧ x.state ≤ 3 then (s.setSl c { x with state := 5 }).dropCommit c else s) s
    let s := { s with slu := { s.slu with halted := true, haltAt := s.now } }
    let s := (s.put .SLU_HALT_ADDR_ADDR 0 addr).put .SLU_HALT_CAUSE_CODE 0 cause
    let s := ((s.raise .SLU_ENGINE_EVENT_HALT).count .SLU_HALTS_COUNT).haltStreams
    s.declare kSluice false

/-! ## Moving bytes -/

/-- R333: reads bytes of a source as they stood before the transfer. -/
def State.readSaved (s : State) (saved : List Host.Cell) (a : Nat) : Nat → List (BitVec 8)
  | 0 => []
  | n + 1 => (match saved.find? fun x => x.1 == a with
      | some x => x.2
      | none => s.readByte a) :: s.readSaved saved (a + 1) n

/-- The bytes of a destination unit that the transfer is still to read: they are kept as they stand. -/
def State.keepSource (s : State) (saved : List Host.Cell) (dst n src top : Nat) : List Host.Cell :=
  (List.range n).foldl (fun m i =>
    let a := dst + i
    if src ≤ a ∧ a < top ∧ (m.find? fun x => x.1 == a) = none then (a, s.readByte a) :: m else m) saved

/-- A 64-bit word as eight bytes of memory (R6). -/
def bytesOf (ws : List Nat) : List (BitVec 8) := (ws.map fun w => (wordBytes w).map (BitVec.ofNat 8)).flatten

/-- Bytes as little-endian 64-bit words. -/
def wordsOf : List (BitVec 8) → List Nat
  | b0 :: b1 :: b2 :: b3 :: b4 :: b5 :: b6 :: b7 :: bs =>
    (b0.toNat + 2 ^ 8 * b1.toNat + 2 ^ 16 * b2.toNat + 2 ^ 24 * b3.toNat + 2 ^ 32 * b4.toNat + 2 ^ 40 * b5.toNat +
      2 ^ 48 * b6.toNat + 2 ^ 56 * b7.toNat) :: wordsOf bs
  | _ => []

/-- R381: words leave on a stream; a STREAM block goes ahead when the stream changes. -/
def State.sendStream (s : State) (b stream : Nat) (ws : List Nat) : State :=
  let k := s.link b
  let s := if k.outSel = some stream then s else s.sendBlock b (streamWord stream)
  let k := s.link b
  s.setLink b { k with outSel := some stream, outData := k.outData ++ ws.map fun w => (stream, w) }

/-- R332, R382: the channel grants the partner one credit for each 4 KiB of destination space ready, at most 4
outstanding, none while a WAITACK holds it (log entry 33). -/
def State.grantCredits (s : State) (c : Nat) : State :=
  match s.portAt (s.sluFrom c) with
  | none => s
  | some (b, stream) =>
    times (fun s =>
      let x := s.sl c
      let k := s.link b
      let space := (s.sluLeft c).getD 0
      if x.state == 1 && k.admitted && !s.waitsAck c && decide (x.room + 8 * x.recv.length < space) &&
          decide (x.room + 8 * x.recv.length ≤ 3 * 4096) then
        let total := (SMap.get (fun _ => 0) k.given stream + 1) % 4096
        let s := s.setSl c { x with room := x.room + 4096 }
        let s := s.setLink b { k with
          given := SMap.set (fun _ => 0) k.given stream total,
          repeatAt := SMap.set (fun _ => 0) k.repeatAt stream s.now }
        s.sendBlock b (creditWord stream total)
      else s) 4 s

/-- R326, R335: `n` bytes of the transfer have been written: the registers advance, HALF is set half-way. -/
def State.advanceSlu (s : State) (c n : Nat) (fromPort toPort : Bool) : State :=
  let x := s.sl c
  let list := s.sluList c
  let gather := s.sluGather c
  let s := if fromPort || x.held.isSome || (list && gather) then s
    else s.put .SLU_SRC_ADDR c (s.get .SLU_SRC_ADDR c + n)
  let s := if toPort || (list && !gather) then s else s.put .SLU_DST_ADDR c (s.get .SLU_DST_ADDR c + n)
  let s := s.count .SLU_DONE_BYTES c n
  if list then
    match x.desc with
    | some d =>
      let port := if gather then fromPort else toPort
      s.setSl c { s.sl c with desc := some { d with addr := if port then d.addr else d.addr + n, len := d.len - n } }
    | none => s
  else if x.held.isSome && toPort then s
  else
    let s := s.put .SLU_COUNT_BYTES c (s.get .SLU_COUNT_BYTES c - n)
    if !x.half && decide (x.goCount / 128 * 64 ≤ s.get .SLU_DONE_BYTES c) then
      (s.setSl c { s.sl c with half := true }).sluEvent .SLU_EVENT_HALF c
    else s

/-- R342, R254, R267: a held channel has read bytes of the oldest block; a block read whole gives its room back, and the
last one frees the pan, and the channel once its unit is disarmed. -/
def State.drainBlock (s : State) (c n : Nat) : State :=
  let x := s.sl c
  match x.inbox with
  | [] => s
  | h :: hs =>
    if n < h.left then s.setSl c { x with inbox := { h with left := h.left - n } :: hs }
    else
      let a := s.acq h.unit
      let s := (s.setSl c { x with inbox := hs }).setAcq h.unit { a with drained := a.drained + h.len / 8 }
      if h.last then
        let s := if (s.pan h.pan).state = 3 then s.setPan h.pan { s.pan h.pan with state := 0 } else s
        if (s.acq h.unit).live then s else s.freeSlu c true
      else s

/-- A burst from a source port: 64 B of what has been received are written. -/
def State.moveFromPort (s : State) (c dst : Nat) : State :=
  let x := s.sl c
  let s := ((s.writeBytes dst (bytesOf (x.recv.take 8))).cleanUnits dst 64).setSl c { x with recv := x.recv.drop 8 }
  (s.advanceSlu c 64 true false).grantCredits c

/-- A burst of `n` bytes to a stream port, which takes one credit. -/
def State.moveToPort (s : State) (c src n b stream : Nat) : State :=
  let x := s.sl c
  let s := (s.sendStream b stream (wordsOf (s.readBytes src n))).put .SLU_CREDIT_AVAIL c (s.get .SLU_CREDIT_AVAIL c - 1)
  let s := s.advanceSlu c n false true
  if x.held.isSome then s.drainBlock c n else s

/-- A burst of `n` bytes from memory to memory; `left` bytes are left. -/
def State.moveInMemory (s : State) (c src dst n left : Nat) : State :=
  let x := s.sl c
  let bytes := s.readSaved x.saved src n
  let s := if x.held.isSome then s
    else s.setSl c { x with saved := s.keepSource x.saved dst n (src + n) (src + left) }
  let s := ((s.writeBytes dst bytes).cleanUnits dst n).advanceSlu c n false false
  if x.held.isSome then s.drainBlock c n else s

/-- R332-R334, R342: one burst of a channel whose ends are known. A read of a unit that its ECC marks bad halts the engine (R435). -/
def State.moveBytes (s : State) (c src dst : Nat) (ecc : Bool) : State :=
  let x := s.sl c
  let fromPort := (s.portAt (some src)).isSome
  let toPort := s.portAt (some dst)
  let unit := if toPort.isSome then 4096 else 64
  let left := s.sluLeft c
  let src1 := match x.held, x.inbox with
    | some _, h :: _ => h.left
    | _, _ => unit
  let n := min (min unit src1) (left.getD unit)
  if n = 0 then s
  else
    let fr := if fromPort then 0 else s.sluFault src true
    let fw := s.sluFault dst false
    if fr ≠ 0 then s.haltSluice fr src
    else if fw ≠ 0 then s.haltSluice fw dst
    else if (ecc || (s.badUnit src n).isSome) && !fromPort then s.haltSluice causeEcc ((s.badUnit src n).getD src)
    else if fromPort then s.moveFromPort c dst
    else match toPort with
      | some (b, stream) => s.moveToPort c src n b stream
      | none => s.moveInMemory c src dst n (left.getD 0)

/-- R329, R336: fetches the next descriptor of a list, when there is none in progress; a fault in it halts the engine. -/
def State.fetchDesc (s : State) (c : Nat) : State :=
  let x := s.sl c
  if s.sluList c && x.desc.isNone && !x.ended then
    let (f, a) := s.descFault c x.list
    if f ≠ 0 then s.haltSluice f a else s.setSl c { x with desc := some (s.descAt x.list), going := false }
  else s

/-- R334: the group of a channel in the order of grants: held by a guard unit, held by a survey unit, any other. -/
def State.sluGroup (s : State) (c : Nat) : Nat :=
  match (s.sl c).held with
  | some n => if s.aqGuard n then 0 else 1
  | none => 2

/-- R325, R332, R334: whether a running channel waits for memory, for credit or data, for an acknowledgement, or for its link. -/
def State.sluWaits (s : State) (c : Nat) : Bool :=
  let down := match s.portAt (s.sluTo c) with
    | some (b, _) => !(s.link b).admitted
    | none => false
  s.waitsAck c || s.waitsMem c || s.waitsCredit c || down

/-- Whether a channel asks for a grant: it runs, its ends and its next bytes are known, and it does not wait. -/
def State.sluReady (s : State) (c : Nat) : Bool :=
  (s.sl c).state == 1 && (s.sluFrom c).isSome && (s.sluTo c).isSome && s.sluLeft c != some 0 && !s.sluWaits c

/-- R334: whether the next grant goes to a channel: the first group with a request is served, round robin. -/
def State.sluTurn (s : State) (c : Nat) : Bool :=
  let g := s.sluGroup c
  let asks := fun d => d != c && s.sluReady d
  let last := s.slu.turn.getD g 31
  (List.range 32).all fun d => !asks d ||
    (g < s.sluGroup d || (g == s.sluGroup d && decide ((c + 31 - last) % 32 < (d + 31 - last) % 32)))

/-- R332, R334: SLUICE_BURST: a running channel with a grant moves its next bytes, unless it waits. -/
def State.sluBurst (s : State) (c : Nat) (ecc : Bool) : State :=
  if !(s.sluRuns && (s.sl c).state == 1) then s
  else
    let s := s.fetchDesc c
    if (s.sl c).state ≠ 1 ∨ s.waitsAck c = true then s
    else
      let s := s.grantCredits c
      if s.sluWaits c || !s.sluTurn c then s
      else match s.sluFrom c, s.sluTo c with
        | some src, some dst =>
          let x := s.sl c
          let s := if x.desc.isSome ∧ x.going = false then s.setSl c { x with going := true } else s
          ({ s with slu := { s.slu with turn := s.slu.turn.set (s.sluGroup c) c } }).moveBytes c src dst ecc
        | _, _ => s

/-! ## Starts and credits -/

/-- R343: whether a channel has been started in the present AOCLK cycle: a second start has no effect and is no error. -/
def State.startedNow (s : State) (c : Nat) : Bool :=
  match (s.sl c).startAt with
  | some x => (s.sl c).state == 1 && aoCycle x.1 == aoCycle s.now
  | none => false

/-- R328, R381: the errors of GO. -/
def State.goError (s : State) (c : Nat) : Option Nat :=
  let x := s.sl c
  let taken := match s.portAt (if s.sluList c && s.sluGather c then none else some (s.get .SLU_SRC_ADDR c)) with
    | some p => (List.range 32).any fun d =>
        d != c && (1 ≤ (s.sl d).state && (s.sl d).state ≤ 3) && s.portAt (s.sluFrom d) == some p
    | none => false
  if s.startedNow c then none
  else lowestCode [(x.held.isSome, eHeld), (x.state == 6, eHeld), (x.held.isNone && x.state != 0 && x.state != 4 && x.state != 6, eState),
    (s.goBad c, eValue), (taken, eState)]

/-- R328: a start, by GO or by a start request. -/
def State.beginSlu (s : State) (c : Nat) (request : Bool) : State :=
  let s := s.startSlu c
  (s.setSl c { s.sl c with startAt := some (s.now, request), stopAt := none }).grantCredits c

/-- R328, R343: GO. A start request of the same cycle counts as ignored. -/
def State.goSlu (s : State) (c : Nat) : State :=
  if s.startedNow c then (match (s.sl c).startAt with
    | some (x, true) => (s.setSl c { s.sl c with startAt := some (x, false) }).count .SLU_CREDIT_IGNORED c
    | _ => s)
  else s.beginSlu c false

/-- R331, R383: the channels that a start request on a stream can reach. -/
def State.remoteFor (s : State) (b stream : Nat) : Option Nat :=
  (List.range 32).find? fun c =>
    s.flag .SLU_CFG_REMOTE_START c && s.flag .SLU_CFG_PACE c &&
      (s.portAt (some (s.get .SLU_SRC_ADDR c)) == some (b, stream) ||
        s.portAt (some (s.get .SLU_DST_ADDR c)) == some (b, stream))

/-- R331: a start request that GO would refuse is ignored and counted (log entry 34). -/
def State.startRequest (s : State) (b stream : Nat) : State :=
  match s.remoteFor b stream with
  | none => s
  | some c => if s.startedNow c || (s.goError c).isSome then s.count .SLU_CREDIT_IGNORED c else s.beginSlu c true

/-- R343: whether a channel has been disabled in the AOCLK cycle of an instant. -/
def Slu.stoppedNow (x : Slu) (now : Nat) : Bool :=
  match x.stopAt with
  | some y => aoCycle y == aoCycle now
  | none => false

/-- R332, R343, R382: credits of the partner for a stream go to the lowest-numbered channel whose destination is that port
(log entry 34); those of the cycle of a DISABLE are discarded. -/
def State.takeCredits (s : State) (b stream n : Nat) : State :=
  let here := (List.range 32).filter fun c =>
    s.flag .SLU_CFG_PACE c && s.portAt (s.sluTo c) == some (b, stream)
  match (here.find? fun c => 1 ≤ (s.sl c).state && (s.sl c).state ≤ 3).orElse fun _ => here.head? with
  | none => s
  | some c => if (s.sl c).stoppedNow s.now then s.count .SLU_CREDIT_IGNORED c n else
    let x := s.sl c
    let s := s.setSl c { x with credits := (s.now, n + if aoCycle x.credits.1 = aoCycle s.now then x.credits.2 else 0) }
    let sum := s.get .SLU_CREDIT_AVAIL c + n
    let s := s.put .SLU_CREDIT_AVAIL c (min sum 4095)
    if 4095 < sum then (s.count .SLU_CREDIT_IGNORED c (sum - 4095)).raise .SLU_EVENT_CREDIT_OVER c else s

/-- R383: a word of a partner on a source port; the answer says whether it was taken. -/
def State.takeData (s : State) (b stream w : Nat) : Bool × State :=
  match (List.range 32).find? fun c =>
      (1 ≤ (s.sl c).state && (s.sl c).state ≤ 3) && s.portAt (s.sluFrom c) == some (b, stream) with
  | none => (false, s)
  | some c =>
    let x := s.sl c
    if x.room < 8 then (false, s) else (true, s.setSl c { x with room := x.room - 8, recv := x.recv ++ [w] })

/-! ## Stops -/

/-- R337, R343: DISABLE: a channel that completes in the cycle completes; the data read and not written is lost. -/
def State.disableSlu (s : State) (c : Nat) : State :=
  let x := s.sl c
  if x.state = 0 ∨ x.state = 4 ∨ x.state = 6 then s
  else if s.sluEnds c then (s.completeSlu c).raise .SLU_EVENT_ABORT_LATE c
  else
    let s := s.setSl c { x with state := 0, desc := none, going := false, room := 0, recv := [], saved := [], stopAt := some s.now }
    let late := min (s.get .SLU_CREDIT_AVAIL c) (if aoCycle x.credits.1 = aoCycle s.now then x.credits.2 else 0)
    ((s.put .SLU_CREDIT_AVAIL c 0).count .SLU_CREDIT_IGNORED c late).dropCommit c

/-- R338, R343: PAUSE. -/
def State.pauseSlu (s : State) (c : Nat) : State :=
  if s.sluEnds c then s.completeSlu c
  else if (s.sl c).state = 1 then s.setSl c { s.sl c with state := 2 }
  else s

/-- R338: RESUME. -/
def State.resumeSlu (s : State) (c : Nat) : State :=
  if (s.sl c).state = 3 then s.setSl c { s.sl c with state := 1 } else s

/-- R337, R338: the errors of DISABLE, PAUSE and RESUME. -/
def State.stopError (s : State) (c : Nat) (pause : Bool) : Option Nat :=
  lowestCode [((s.sl c).held.isSome, eHeld), (pause && s.dev == .run, eState)]

/-- R340, R341: the engine is reset: held channels resume at the first byte of the oldest block, the others are idle. -/
def State.resetSluice (s : State) : State :=
  let s := (List.range 32).foldl (fun s c =>
    let x := s.sl c
    if x.held.isSome then
      let inbox := match x.inbox with
        | h :: hs => { h with left := h.len } :: hs
        | [] => []
      s.setSl c { x with state := if x.state = 5 then 1 else x.state, inbox := inbox }
    else if x.state = 6 then s
    else s.setSl c { x with state := 0, desc := none, going := false, room := 0, recv := [], saved := [] }) s
  { s with slu := { s.slu with halted := false } }

/-! ## Commands -/

/-- R338: PAUSE_DRAINED. -/
def execPauseDrained (t c : Nat) (s : State) : Host.Outcome State Fault Refusal :=
  if c < numSluice then
    let s := s.at t
    .next (if (s.sl c).state = 2 then s.setSl c { s.sl c with state := 3 } else s)
  else .fault .noSuchUnit

/-- R332: SLUICE_BURST; `ecc` says that the read meets an uncorrectable error. -/
def execSluiceBurst (t c : Nat) (ecc : Bool) (s : State) : Host.Outcome State Fault Refusal :=
  if c < numSluice then .next ((s.at t).sluBurst c ecc) else .fault .noSuchUnit

/-- R335: DESCRIPTOR_COMPLETE. -/
def execDescriptorComplete (t c : Nat) (s : State) : Host.Outcome State Fault Refusal :=
  if c < numSluice then .next ((s.at t).completeSlu c) else .fault .noSuchUnit

/-- R339: ENGINE_HALT: a fault found during a transfer, by its cause and address. -/
def execEngineHalt (t cause addr : Nat) (s : State) : Host.Outcome State Fault Refusal :=
  let s := s.at t
  let busy := (List.range 32).any fun c => (s.sl c).state == 1 || (s.sl c).state == 2
  .next (if busy ∧ 1 ≤ cause ∧ cause ≤ 6 then s.haltSluice cause addr else s)

end Sys2Proof.Machine
end

