-- ==== Sys2Proof/Machine/TimeBase.lean ====
section
/-!
DEFINITION. The time base (chapter 2): the reference, PPS_IN and the alignment of the time word, the set of SEC and the leap
second, unlocks, seconds, frames and the reference outputs.
-/

namespace Sys2Proof.Machine

/-! ## Conditions -/

/-- R55: no timing channel, waveform channel or acquisition unit is armed and no marker is scheduled. -/
def State.quiet (s : State) : Bool :=
  !((List.range 144).any fun n => (s.chan n).armed) && !((List.range 16).any fun n => (s.wave n).armed) &&
    !((List.range 16).any fun n => (s.acq n).armed) && !((List.range 32).any fun k => s.markerScheduled k)

/-- The sources whose back-ends lie in IS8: the marker loop-backs, PPS_IN and SYSREF (R469). -/
def is8Sources : List Nat := (List.range 32).map (160 + ·) ++ [srcPps, srcSysref]

/-- R60: whether the announced second has passed in a second. -/
def State.leapPassed (s : State) (sec : Nat) : Bool :=
  decide (s.time.leapSec < sec) || (decide (s.time.leapSec = 0xFFFFFFFF) && decide (sec = 0))

/-! ## Steps of the origin -/

/-- R316: an armed marker keeps its pattern when the origin moves: what lay before the present is left out. -/
def State.rescaleMarker (s : State) (k : Nat) (delta : Int) (from_ : Int) : State :=
  let m := s.marker k
  if m.armed then
    match m.next with
    | some j =>
      if (s.firingTime k j).isNone then s.setMarker k { m with armAt := m.armAt + delta }
      else if s.get .MRK_CFG_PATTERN k = 0 ∧ s.markerT0 k < from_ then
        (s.setMarker k { m with armAt := m.armAt + delta, next := none }).count .MRK_MISSED_COUNT k
      else s.setMarker k { m with armAt := m.armAt + delta, next := some (s.firstFiring k from_) }
    | none => s.setMarker k { m with armAt := m.armAt + delta }
  else s

/-- The edges of a buffer at or after a time, oldest first. -/
def Source.edgesFrom (r : Source) (b : Int) : List (EdgeRec × Int) :=
  r.buf.filterMap fun e => match e.item with
    | .edge x => if b ≤ e.time then some (x, e.time) else none
    | _ => none

/-- R469: the source as it was before the edges at or after a time, which are neither recorded nor counted. -/
def Source.undo (r : Source) (b : Int) : Source :=
  match r.edgesFrom b with
  | [] => r
  | (x, t) :: xs =>
    let ups := (((x, t) :: xs).filter fun y => y.1.pol).length
    { r with
      buf := r.buf.filter fun e => match e.item with
        | .edge _ => decide (e.time < b)
        | _ => true
      seq := x.seq, gov := t - x.delta, lastAt := min r.lastAt (b - 1)
      idx := { r.idx with rise := r.idx.rise - ups, fall := r.idx.fall - (xs.length + 1 - ups), last := !x.pol }
      tap := r.tap.filter fun e => decide (e.time < b) }

/-- The source stops at a time that lies at or before the present; its words go into the buffer whatever room is left. -/
def State.stopAt (s : State) (k : Nat) (b : Int) : State :=
  let s := (s.stopTaking k b).writeDue k b
  let r := s.src k
  s.setSrc k { r with buf := r.buf ++ r.owed, owed := [] }

/-- R469: the DISARM anchor of a source at the last coarse-period boundary before the step; what it formed after that
boundary is not recorded. -/
def State.stepOut (s : State) (k : Nat) : State :=
  if (s.src k).taking then
    let b := ceilCoarse (s.recTick k) - 2048
    (s.setSrc k ((s.src k).undo b)).stopAt k b
  else s

/-- R469: the ARM anchor at the coarse-period boundary at or before the step, on the new scale. -/
def State.stepIn (s : State) (k : Nat) : State := s.startTaking k (floorCoarse (s.recTick k))

/-- R52, R55, R59: the origin moves; the sources in IS8 that are taking edges mark the step. -/
def State.moveOrigin (s : State) (origin : Int) (aligned : Bool) : State :=
  let live := is8Sources.filter fun k => (s.src k).taking
  let delta := origin - s.time.origin
  let s := live.foldl (fun s k => s.stepOut k) s
  let s := { s with time := { s.time with origin := origin, aligned := aligned } }
  let s := live.foldl (fun s k => s.stepIn k) s
  let s := (List.range 32).foldl (fun s k => s.rescaleMarker k delta s.tick) s
  { s with time := { s.time with
    second := if delta < 0 then min s.time.second ((s.tick - 1) / (tSec : Int)) else s.time.second
    frame := if delta < 0 then min s.time.frame (s.tick - 1) else s.time.frame
    sysref := s.tick - 1 } }

/-! ## The start of the time word -/

/-- R51, R59: the second at which the time word starts. -/
def State.startSec (s : State) : Nat :=
  match s.time.linkSec with
  | some v => v
  | none => if s.time.timeSet then s.get .TB_SEC_SET_SEC else 0

/-- R51-R53: the time word starts: the instant `x` reads `at_`. PPS_IN takes edges from `pps` on its recorded scale; the
SYSREF loop-back and the loop-backs of armed markers start taking edges too. -/
def State.startTime (s : State) (x : Nat) (at_ pps : Int) (aligned : Bool) : State :=
  let origin := at_ - (x / qTick : Nat)
  let delta := origin - s.time.origin
  let s := { s with time := { s.time with
    valid := true, origin := origin, validAt := at_, aligned := aligned, checks := aligned
    second := (at_ - 1) / (tSec : Int), frame := at_ - 1, sysref := at_ - 1
    ppsSec := if aligned then (at_ + (tSec / 2 : Nat)) / (tSec : Int) else -1, ppsMiss := -1, ppsGood := 0, ppsBad := 0 } }
  let s := s.startTaking srcPps pps
  let s := s.startTaking srcSysref (ceilCoarse s.tick)
  let s := (List.range 32).foldl (fun s k =>
    let s := s.rescaleMarker k delta ((s.marker k).armAt + delta)
    if (s.marker k).armed then s.startLoop k else s) s
  (s.mark 7).noteBoot

/-- R51: the time word starts without an alignment: an instant reads the starting SEC. -/
def State.startPlain (s : State) (x : Nat) : State :=
  let at_ : Int := ((s.startSec * tSec : Nat) : Int)
  let shown := at_ + ((s.now / qTick : Nat) - (x / qTick : Nat) : Int) - s.delayOf srcPps
  s.startTime x at_ (ceilCoarse shown) false

/-- R51: the start instant of the time base. -/
def State.beginTime (s : State) : State :=
  if s.time.lockAt.isSome || s.time.valid then s
  else
    let s := { s with time := { s.time with lockAt := some s.now } }
    if s.get .TB_PPS_CFG_MODE = 0 then s.startPlain s.now else s

/-- R51: with FREQ = INTERNAL the start instant is the end of BOOT. -/
def State.beginInternal (s : State) : State :=
  if s.get .TB_REF_CFG_FREQ = 3 ∧ s.boot.complete = true then s.beginTime else s

/-! ## The reference -/

/-- R46, R47: whether a frequency lies within ±100 ppm of another (Hz). -/
def within100 (hz nominal : Nat) : Bool := decide (((hz : Int) - nominal).natAbs * 10000 ≤ nominal)

/-- R46: the nominal frequency under which a setting of FREQ accepts a frequency. -/
def acceptedHz (freq hz : Nat) : Option Nat :=
  if (freq = 0 ∨ freq = 1) ∧ within100 hz 10000000 = true then some 10000000
  else if (freq = 0 ∨ freq = 2) ∧ within100 hz 100000000 = true then some 100000000
  else none

/-- R47: the conditions of a lock: REF_IN is within its limits, and the phase error has stayed within ±1 ns for 100 ms, all
since the conditioner began to acquire it. -/
def State.locksTo (s : State) (hz since : Nat) : Option Nat :=
  match s.time.acquire with
  | some a =>
    if !s.time.refLock && decide (a ≤ since) && decide (since + 100 * qMs ≤ s.now) then acceptedHz (s.get .TB_REF_CFG_FREQ) hz
    else none
  | none => none

/-- R47, R49, R51, R69: the conditioner locks; a relock keeps the phase of the time word and reports that of REF_IN, in ticks,
modulo one of its periods. -/
def State.lockRef (s : State) (hz since phase refOut : Nat) : State :=
  match s.locksTo hz since with
  | some nominal =>
    let again := s.time.holdover
    let s := { s with time := { s.time with refLock := true, holdover := false, refHz := nominal } }
    let ticks := quot (phase % (qSec / nominal)) qTick
    let s := if again then (s.put .TB_HOLD_PHASE_TICKS 0 ticks).put .TB_REF_OUT_PHASE_TICKS 0 (refOut % tPer) else s
    (s.mark 4).beginTime
  | none => s

/-- R48: the conditioner enters holdover: REF_IN misses four periods, or leaves ±100 ppm. -/
def State.holdRef (s : State) (hz missed : Nat) : State :=
  if s.time.refLock && (decide (4 ≤ missed) || !within100 hz s.time.refHz) then
    { s with time := { s.time with refLock := false, holdover := true } }
  else s

/-- R57: with FREQ = INTERNAL neither REF_LOCK nor HOLDOVER is set. -/
def State.freqWritten (s : State) : State :=
  if s.get .TB_REF_CFG_FREQ = 3 then
    { s with time := { s.time with refLock := false, holdover := false } }.beginInternal
  else s

/-! ## PPS_IN -/

/-- R54: a pulse within tolerance, or one that is out of tolerance or missing. -/
def State.ppsPulse (s : State) (good : Bool) : State :=
  let g := if good then s.time.ppsGood + 1 else 0
  let b := if good then 0 else s.time.ppsBad + 1
  { s with time := { s.time with
    ppsGood := min g 3, ppsBad := min b 3
    aligned := if 3 ≤ g then true else if 3 ≤ b then false else s.time.aligned } }

/-- R54: an active edge with a timestamp is checked against the nearest second boundary. An offset beyond the field has no
stated value there. -/
def State.checkPps (s : State) (t : Int) : State :=
  let n := (t + (tSec / 2 : Nat)) / (tSec : Int)
  let off := t - n * tSec
  if !s.time.checks || decide (5242880000 < off.natAbs) then s
  else if n ≤ s.time.ppsSec ∨ n ≤ s.time.ppsMiss then s.count .TB_PPS_EXTRA_COUNT
  else
    let s := { s with time := { s.time with ppsSec := n } }
    let s := if off.natAbs < 2 ^ 31 then s.put .TB_PPS_OFFSET_TICKS 0 (ofSigned 32 off)
      else
        let (v, s) := s.free
        s.put .TB_PPS_OFFSET_TICKS 0 v
    s.ppsPulse (decide (off.natAbs * 10 ≤ s.get .TB_PPS_CFG_TOL * tPer))

/-- R52: whether an active edge aligns the time word for the first time. -/
def State.alignsFirst (s : State) : Bool :=
  !s.time.valid && (match s.time.lockAt with
    | some x => s.get .TB_PPS_CFG_MODE == 2 ||
        (s.get .TB_PPS_CFG_MODE == 1 && decide (s.now ≤ x + s.get .TB_PPS_CFG_WAIT * qSec))
    | none => false)

/-- R54: an edge of PPS_IN is recorded at a timestamp. -/
def State.ppsForm (s : State) (t : Int) (pol : Bool) : State :=
  (s.takeBy srcPps).formEdge srcPps t pol { cal := s.calOf srcPps }

/-- R54: an edge of PPS_IN is time-stamped and recorded. -/
def State.ppsRecord (s : State) (pol : Bool) (bin : Nat) (check : Bool) : State :=
  if (s.src srcPps).taking then
    let t := s.stampBy srcPps srcPps bin
    let s := s.ppsForm t pol
    if check then s.checkPps t else s
  else s

/-- R52: the time word starts at an aligning edge, which reads PER = 0 and FRAC = 0 within ±1 tick, by a free value. The ARM
anchor stands at the coarse-period boundary at or before it (log entry 80). -/
def State.alignFirst (s : State) (pol : Bool) (refOut : Nat) : State :=
  let (v, s) := s.free
  let t : Int := ((s.startSec * tSec : Nat) : Int) + (v % 3 : Nat) - 1
  let s := s.startTime s.now ((s.startSec * tSec : Nat) + s.delayOf srcPps) (floorCoarse t) true
  (s.put .TB_REF_OUT_PHASE_TICKS 0 (refOut % tPer)).ppsForm t pol

/-- R55: the second of a realigning edge that comes while a realignment is pending, within its wait. -/
def State.realigns (s : State) : Option Int :=
  match s.time.realign with
  | some x =>
    if s.now ≤ x + s.get .TB_PPS_CFG_WAIT * qSec then some ((s.recTick srcPps + (tSec / 2 : Nat)) / (tSec : Int)) else none
  | none => none

/-- R55, R469: the realigning edge reads second `n` exactly. -/
def State.realignTo (s : State) (n : Int) (pol : Bool) (refOut : Nat) : State :=
  let s := { s with time := { s.time with realign := none, checks := true, ppsSec := n, ppsMiss := n - 1, ppsGood := 0, ppsBad := 0 } }
  let s := s.moveOrigin (n * tSec + s.delayOf srcPps - (s.now / qTick : Nat)) true
  (s.put .TB_REF_OUT_PHASE_TICKS 0 (refOut % tPer)).ppsForm (n * tSec) pol

/-- R52, R54, R55: an edge of PPS_IN. -/
def State.ppsEdge (s : State) (pol : Bool) (bin refOut : Nat) : State :=
  let active := pol != s.flag .TB_PPS_CFG_EDGE
  if s.time.halted then s
  else if active && s.alignsFirst then s.alignFirst pol refOut
  else match (if active then s.realigns else none) with
    | some n => s.realignTo n pol refOut
    | none => s.ppsRecord pol bin active

/-- R54: a pulse is missing 1 ms after its second boundary, on the scale of PPS_IN. -/
def State.ppsMissing (s : State) : State :=
  let n := (s.recTick srcPps - 5242880000) / (tSec : Int)
  if s.time.valid && s.time.checks && !s.time.halted && decide (s.time.ppsSec < n) && decide (s.time.ppsMiss < n) then
    { s with time := { s.time with ppsMiss := n } }.ppsPulse false
  else s

/-- R51: the end of the wait of ALIGN: that instant reads the starting SEC. With MODE rewritten to NONE while the wait is
pending the time word neither aligns nor falls back (DESIGN CHOICE, log entry 81). -/
def State.waitOver (s : State) : State :=
  match s.time.lockAt with
  | some x =>
    let limit := x + s.get .TB_PPS_CFG_WAIT * qSec
    if !s.time.valid && s.get .TB_PPS_CFG_MODE == 1 && decide (limit ≤ s.now) then s.startPlain limit else s
  | none => s

/-- R55: the end of the wait of a realignment. -/
def State.realignOver (s : State) : State :=
  match s.time.realign with
  | some x =>
    if x + s.get .TB_PPS_CFG_WAIT * qSec ≤ s.now then
      { s with time := { s.time with realign := none } }.raise .TB_STATUS_REALIGN_FAIL
    else s
  | none => s

/-! ## SEC and the leap second -/

/-- R59: a set of SEC that is accepted; `link` says that it comes from a link. -/
def State.acceptSec (s : State) (v : Nat) (link : Bool) : State :=
  if s.time.valid then
    { s with time := { s.time with setSec := some (v, (s.tick / (tSec : Int) + 1) * tSec) } }
  else { s with time := { s.time with timeSet := true, linkSec := if link then some v else none } }

/-- R60: the leap announcement that TB_LEAP holds is accepted. -/
def State.announce (s : State) (sec : Nat) : State :=
  let s := { s with time := { s.time with leap := true, leapSec := sec } }
  if s.time.valid && s.leapPassed (secOf s.tick) then { s with time := { s.time with leap := false } } else s

/-- R388: a link's announcement acts as one written to TB_LEAP. -/
def State.announceLink (s : State) (sec dir : Nat) : State :=
  ((s.put .TB_LEAP_SEC 0 sec).put .TB_LEAP_DIR 0 dir).announce sec

/-! ## Boundaries -/

/-- R59: a pending set of SEC applies at its boundary. -/
def State.applySec (s : State) : State :=
  match s.time.setSec with
  | some (v, b) =>
    if b ≤ s.tick then
      let s := { s with time := { s.time with setSec := none, timeSet := true } }
      let delta : Int := (v * tSec : Nat) - b
      if delta = 0 then s
      else
        let n := delta / (tSec : Int)
        let s := { s with time := { s.time with second := s.time.second + n, ppsSec := s.time.ppsSec + n, ppsMiss := s.time.ppsMiss + n, frame := s.time.frame + delta } }
        s.moveOrigin (s.time.origin + delta) s.time.aligned
    else s
  | none => s

/-- R65, R415: the committed frame length. -/
def State.applyFrameLen (s : State) : State :=
  let s := (s.apply .TB_FRAME_LEN 0).bump .TB_FRAME_COMMIT_APPLIED_SEQ
  { s with time := { s.time with frameCom := none } }

/-- R69: OFFSET rounded to a multiple of 64 ticks. -/
def State.ppsOffset (s : State) : Int := Frac.round ⟨s.signed .TB_PPS_OUT_OFFSET, 64⟩ * 64

/-- R53, R59, R60, R65, R69: what falls due at the second boundary reached last. -/
def State.secondDue (s : State) : State :=
  let s := if s.time.valid then s.applySec else s
  let n := s.tick / (tSec : Int)
  if s.time.valid && decide (s.time.second < n) then
    let at_ := n * tSec
    let inst := s.instOf at_
    let s := { s with time := { s.time with second := n } }
    let s := if s.time.leap && s.leapPassed (secOf at_) then { s with time := { s.time with leap := false } } else s
    let s := match s.time.frameCom with
      | some x => if x < inst then
          let s := s.applyFrameLen
          s.armedContexts.foldl (fun s c => s.newFrameLen c at_) s
        else s
      | none => s
    if s.time.halted then s
    else
      let off := s.ppsOffset
      let rise := s.instOf (if 0 ≤ off then at_ + off else at_ + tSec + off)
      let fall := rise + s.get .TB_PPS_OUT_WIDTH * 100 * qNs
      { s with time := { s.time with pulses := (rise, fall) :: s.time.pulses.take 1 } }
  else s

/-- R64: what falls due at the frame boundary reached last. -/
def State.frameDue (s : State) (inputs : List (Nat × Input × Nat)) : State :=
  let f : Int := s.frameTicks
  let b := s.tick / f * f
  if s.time.valid && decide (s.time.frame < b) then
    let inst := s.instOf b
    let s := { s with time := { s.time with frame := b } }
    (((s.frameFronts inst inputs).frameWaves inst).frameLatches).frameContexts b
  else s

/-- R69: the period of SYSREF and the delay of an output, in ticks. -/
def State.sysrefPeriod (s : State) : Int := ((s.get .TB_SYSREF_PERIOD * tPer : Nat) : Int)
def State.sysrefSkew (s : State) (n : Nat) : Int := ((s.get .TB_SYSREF_SKEW_STEPS n * 64 : Nat) : Int)

/-- R69: the pulse that is due at an output with a delay and has not been dealt with: the boundary of its period. -/
def State.sysrefNext (s : State) (skew : Int) : Option Int :=
  let b := (s.tick - skew) / s.sysrefPeriod * s.sysrefPeriod
  let mode := s.get .TB_SYSREF_MODE
  let on := mode == 1 || (mode == 2 && decide (0 < s.time.burst))
  if s.time.valid && decide (0 < s.sysrefPeriod) && on && decide (s.time.sysref < b) && decide (s.time.validAt ≤ b) then some b
  else none

/-- R154, R317: the back-end of SYSREF_OUT_0 forms an edge at a tick: it takes an interpolator at its instant. -/
def State.sysrefEdge (s : State) (t : Int) (pol : Bool) (bin : Nat) : State :=
  let e := s.be srcSysref
  let i := longestFree e.free
  let cal := s.calOf srcSysref
  (s.setBe srcSysref (e.take i (s.instOf t))).formEdge srcSysref (floorCoarse t + e.fine srcSysref cal i bin) pol { cal }

/-- R69, R191: the SYSREF pulse that has fallen due, `SKEW_0` after its boundary; the loop-back records both edges of
SYSREF_OUT_0. -/
def State.sysrefDue (s : State) (bin fallBin : Nat) : State :=
  let skew := s.sysrefSkew 0
  match s.sysrefNext skew with
  | some b =>
    let burst := if s.get .TB_SYSREF_MODE = 2 then s.time.burst - 1 else s.time.burst
    let s := { s with time := { s.time with sysref := b, burst := burst } }
    if s.time.halted then s
    else
      let s := { s with time := { s.time with sysPulse := some (s.instOf b) } }
      let s := if (s.src srcSysref).taking then
          (s.sysrefEdge (b + skew) true bin).sysrefEdge (b + skew + tPer) false fallBin
        else s
      s.alignSlots
  | none => s

/-- R69: the level of PPS_OUT at present. -/
def State.ppsOut (s : State) : Bool := s.time.pulses.any fun x => decide (x.1 ≤ s.now) && decide (s.now < x.2)

/-- R69: the level of SYSREF_OUT_n at present: 100 ns from its delayed rising edge, for the pulse of SYSREF_OUT_0 and for one
that has not come there yet. -/
def State.sysrefOut (s : State) (n : Nat) : Bool :=
  let high (x : Nat) : Bool :=
    let rise := x + s.get .TB_SYSREF_SKEW_STEPS n * 64 * qTick
    decide (rise ≤ s.now) && decide (s.now < rise + 100 * qNs)
  !s.time.halted && ((match s.time.sysPulse with
    | some x => high x
    | none => false) || (match s.sysrefNext (s.sysrefSkew n) with
    | some b => high (s.instOf b)
    | none => false))

/-! ## Unlocks -/

/-- R62, R63: sets a bit of TB_ISLAND_UNLOCK. -/
def State.flagUnlock (s : State) (k : Nat) : State :=
  (s.put .TB_ISLAND_UNLOCK_IS 0 (s.get .TB_ISLAND_UNLOCK_IS ||| 2 ^ k)).bump .TB_ISLAND_UNLOCK_SEQ

/-- The timing channels of an island (R21). -/
def islandChans (k : Nat) : List Nat := (List.range 18).map (k * 18 + ·)

/-- R62: an island loses lock. -/
def State.loseIsland (s : State) (k : Nat) : State :=
  let i := s.island k
  if i.state ≤ 1 ∧ i.unlock = false then
    let s := (s.setIsland k { i with unlock := true }).flagUnlock k
    let s := (islandChans k).foldl (fun s n =>
      let c := s.chan n
      let s := s.setChan n { c with win := { active := false, wait := s.flag .TCH_WIN_CTL_ENABLE n, since := c.win.since } }
      if (s.src n).taking then s.beginCause n 1 false else s) s
    s.settleTrips
  else s

/-- R62, R158: an island is locked again with its origin corrected; `counts` are the edges that the front-ends counted. -/
def State.islandBack (s : State) (k : Nat) (counts : List Nat) : State :=
  let i := s.island k
  if i.unlock then
    let s := s.setIsland k { i with unlock := false }
    let s := (islandChans k).foldl (fun s n =>
      let s := if (s.src n).taking then (s.readCounter n (counts.getD (n % 18) 0)).endCause n 1 (s.nextBound n) else s
      if s.flag .TCH_WIN_CTL_ENABLE n ∧ s.dieUp = true then s.startWin n else s) s
    s.settleTrips
  else s

/-- R63, R193: the ingest chains stop with IS8: what their channels take is lost from now on. -/
def State.haltWave (s : State) (n : Nat) : State :=
  let m := s.chainOf n
  let s := if s.chainRuns m then s.setWave m { s.wave m with outage := true } else s
  s.loseSample n

/-- R63: the IS8 timebase, which runs from BOOT on, loses lock: the fabric and the outputs stop, and the device enters
RECOVERY. -/
def State.loseIs8 (s : State) : State :=
  if !s.governs then s
  else
  let s := s.flagUnlock 8
  if s.time.halted then s
  else
    let s := { s with time := { s.time with halted := true, pulses := [], sysPulse := none } }
    let s := is8Sources.foldl (fun s k => if (s.src k).taking then s.beginCause k 1 true else s) s
    let s := (List.range 32).foldl (fun s k =>
      let m := s.marker k
      let s := s.setMarker k { m with ball := false, high := none }
      if m.ending then s.endMarker k else s) s
    let s := (List.range 16).foldl State.haltWave s
    s.declare kIs8 false

/-- R63, R468: the IS8 timebase is locked again with its origin corrected. -/
def State.is8Back (s : State) : State :=
  if s.time.halted then
    let s := { s with time := { s.time with halted := false } }
    let s := is8Sources.foldl (fun s k =>
      if (s.src k).taking then s.endCause k 1 (s.nextBound k) else s) s
    s.endRestore kIs8
  else s

/-! ## Commands -/

/-- R47: REF_LOCK: the frequency of REF_IN in Hz, the instant since which its phase error is within ±1 ns, its phase against
the 100 ns grid in q, and the position of REF_OUT in ticks. -/
def execRefLock (t hz since phase refOut : Nat) (s : State) : Host.Outcome State Fault Refusal :=
  .next ((s.at t).lockRef hz since phase refOut)

/-- R48: HOLDOVER: the frequency of REF_IN and the consecutive periods it has missed. -/
def execHoldover (t hz missed : Nat) (s : State) : Host.Outcome State Fault Refusal := .next ((s.at t).holdRef hz missed)

/-- R54: PPS_EDGE. -/
def execPpsEdge (t : Nat) (pol : Bool) (bin refOut : Nat) (s : State) : Host.Outcome State Fault Refusal :=
  .next ((s.at t).ppsEdge pol bin refOut)

/-- R54: PPS_MISSING. -/
def execPpsMissing (t : Nat) (s : State) : Host.Outcome State Fault Refusal := .next (s.at t).ppsMissing

/-- R51: ALIGN_WAIT_TIMEOUT. -/
def execAlignWaitTimeout (t : Nat) (s : State) : Host.Outcome State Fault Refusal := .next (s.at t).waitOver

/-- R55: REALIGN_TIMEOUT. -/
def execRealignTimeout (t : Nat) (s : State) : Host.Outcome State Fault Refusal := .next (s.at t).realignOver

/-- R65: SECOND_BOUNDARY. -/
def execSecondBoundary (t : Nat) (s : State) : Host.Outcome State Fault Refusal := .next (s.at t).secondDue

/-- R64: FRAME_BOUNDARY; the inputs present at channels whose thresholds change. -/
def execFrameBoundary (t : Nat) (inputs : List (Nat × Input × Nat)) (s : State) : Host.Outcome State Fault Refusal :=
  .next ((s.at t).frameDue inputs)

/-- R69: SYSREF_PULSE. -/
def execSysrefPulse (t bin fallBin : Nat) (s : State) : Host.Outcome State Fault Refusal :=
  .next ((s.at t).sysrefDue bin fallBin)

/-- R62: ISLAND_UNLOCK. -/
def execIslandUnlock (t k : Nat) (s : State) : Host.Outcome State Fault Refusal :=
  if k < numIslands then .next ((s.at t).loseIsland k) else .fault .noSuchUnit

/-- R62: ISLAND_RELOCK. -/
def execIslandRelock (t k : Nat) (counts : List Nat) (s : State) : Host.Outcome State Fault Refusal :=
  if k < numIslands then .next ((s.at t).islandBack k counts) else .fault .noSuchUnit

/-- R63: IS8_UNLOCK. -/
def execIs8Unlock (t : Nat) (s : State) : Host.Outcome State Fault Refusal := .next (s.at t).loseIs8

/-- R63: IS8_RELOCK. -/
def execIs8Relock (t : Nat) (s : State) : Host.Outcome State Fault Refusal := .next (s.at t).is8Back

end Sys2Proof.Machine
end

