-- ==== Sys2Proof/Machine/Power.lean ====
section
/-!
DEFINITION. Power entry and the logic rails (R72-R86), the islands (R87-R89) and the restorations of R468.
-/

namespace Sys2Proof.Machine

/-! ## The power-entry side -/

/-- R73: VIN is valid: it lies above the rising undervoltage lockout and below the overvoltage threshold. -/
def State.vinValid (s : State) : Bool := s.power.vin && !s.power.above && !s.power.under

/-- R29, R73: VIN has become valid while the device waits in OFF or AUX. -/
def State.noteValid (was s : State) : State :=
  if s.vinValid && !was.vinValid && (s.dev == .off || s.dev == .aux) then { s with power := { s.power with vinAt := s.now } }
  else s

/-- R86: an ordered power-down turns the FET off 22 ms after its beginning, drives BUS_EN low at 20 ms and disables rail
`j` at 2 (9 - j) ms. -/
def State.notYet (s : State) (ms : Nat) : Bool := match s.power.downAt with
  | some x => decide (s.now < x + ms * qMs)
  | none => true

/-- Whether the FET is on, BUS_EN is asserted and a rail is enabled (HVS_STATUS, PWR_RAIL). -/
def State.fetOn (s : State) : Bool := s.power.fet && s.notYet 22
def State.busOn (s : State) : Bool := s.power.bus && s.notYet 20
def State.railOn (s : State) (j : Nat) : Bool := s.power.enabled.contains j && s.notYet (2 * (9 - j))

/-- R86: an immediate power-down: the FET is off, BUS_EN low, and the rails collapse. -/
def State.cutPower (s : State) : State :=
  { s with power := { s.power with fet := false, bus := false, enabled := [], good := [], seq := [], downAt := none } }

/-- Whether the device is in BOOT, RUN, TEST, RECOVERY or HOLD. -/
def State.logicState (s : State) : Bool := match s.dev with
  | .boot | .run | .test | .recovery | .hold => true
  | _ => false

/-- R73, R76, R86: a protective entry to AUX with the immediate power-down. R429 gives an overvoltage and a hot-swap fault
no index: the DETAIL of their entries is a free value. -/
def State.protectNow (s : State) (cause : Nat) : State :=
  let s := s.cutPower
  if s.logicState then
    let (v, s) := s.free
    (s.protect false cause (v % 2 ^ 64)).cutPower
  else s

/-- R72: VIN rises above the undervoltage lockout. -/
def State.riseVin (s : State) : State :=
  if s.dev = .off ∧ s.power.vin = false then
    { s with power := { s.power with vin := true, vinAt := s.now }, life := { s.life with hoursAt := s.now, wholeAt := s.now } }
  else s

/-- R29: the auxiliary supply is up. -/
def State.toAux (s : State) : State :=
  if s.dev = .off ∧ s.power.vin = true ∧ s.power.vinAt + 8 * qMs ≤ s.now then { s with dev := .aux } else s

/-- R29, R73: AO release. -/
def State.release (s : State) : State :=
  if s.dev = .aux ∧ s.vinValid = true ∧ s.power.vinAt + 10 * qMs ≤ s.now ∧ s.power.thermal = false ∧
      s.power.protect = false ∧ s.flag .BOOT_STATUS_LOCKOUT = false ∧ s.power.reboot = false then s.enterBoot
  else s

/-- R72: VIN falls below the undervoltage lockout: everything stops. What the flash holds remains. -/
def State.fallVin (s : State) : State :=
  { State.reset with
    now := s.now, dev := .off, power := { vin := false }, seqNo := s.seqNo, pending := s.pending
    life := { half := s.life.half, slots := s.life.slots, image := s.life.image } }

/-- R72: the low-input warning is set or cleared. -/
def State.lowVin (s : State) (low : Bool) : State :=
  if s.dev = .off then s
  else
    let was := s.flag .HVS_STATUS_LOW
    let s := s.put .HVS_STATUS_LOW 0 (b2n low)
    if low && !was then s.raise .HVS_EVENT_LOW_SEEN else s

/-- R72, R73: an overvoltage. It can also come before AUX is entered. -/
def State.overVin (s : State) : State :=
  if s.power.above || !s.power.vin then s
  else
    let entered := s.logicState
    let s := ({ s with power := { s.power with above := true } }.raise .HVS_EVENT_OVER_SEEN).protectNow evOver
    if entered then { s with power := { s.power with protect := true } } else s

/-- R74: the FET turns off, to be turned on again 1 s later or to stay off. -/
def State.fetOff (s : State) : State :=
  let retry := s.flag .HVS_CFG_RETRY
  { s with power := { s.power with fet := false, fetOffAt := if retry then some s.now else none, latched := !retry } }

/-- R74, R76: a hot-swap trip. -/
def State.tripFet (s : State) : State :=
  if s.fetOn then (((s.count .HVS_TRIPS_COUNT).raise .HVS_EVENT_LIMIT_TRIP).fetOff).protectNow evHotSwap else s

/-- R74: the current limit in mA, and whether a current has stayed at it since an instant for FAULT_MS ms. -/
def State.limitMa (s : State) : Nat := s.get .HVS_CFG_ILIM * 50
def State.faultTimer (s : State) (since ma : Nat) : Bool :=
  decide (s.limitMa ≤ ma) && decide (since + s.get .HVS_CFG_FAULT_MS * qMs ≤ s.now)

/-- R80: the heartbeat has been absent for 10 ms. -/
def State.loseHeartbeat (s : State) : State :=
  if s.dev = .off then s
  else
    let on := s.fetOn
    let s := { s with power := { s.power with beat := false } }.raise .HVS_EVENT_HEARTBEAT_LOST
    if on then s.fetOff.protectNow evHotSwap else s

/-- R74, R75, R80: the die turns the FET on, with a valid VIN and the heartbeat present. -/
def State.fetStart (s : State) : State :=
  if s.vinValid && s.power.beat then
    { s with power := { s.power with fet := true, fetAt := s.now, fetOffAt := none, latched := false } }
  else s

/-- R74: the restart 1 s after a trip. -/
def State.retryFet (s : State) : State :=
  match s.power.fetOffAt with
  | some x => if x + qSec ≤ s.now then s.fetStart else s
  | none => s

/-- R74: FET_RESTART turns the FET on after a latch-off. -/
def State.restartFet (s : State) : State := if s.power.latched then s.fetStart else s

/-- R77: the energy of a telemetry frame, 100 µs long: mV × mA are µW, so that 10^7 of them over one frame are 1 mJ. -/
def State.addEnergy (s : State) (uw : Nat) : State :=
  let e := s.power.energy + uw
  ({ s with power := { s.power with energy := e % 10000000 } } : State).count .HVS_ENERGY_MJ 0 (e / 10000000)

/-- R77: the input power: the mean of the frames of the last 1 ms, in mW; before ten frames have come, of those that have
(DESIGN CHOICE, log entry 82). -/
def Power.meanMw (x : Power) : Nat := quot x.watts.sum (1000 * x.watts.length)

/-- R77: a telemetry frame: voltage, current, whether the current is at the limit, whether the heartbeat arrives. VIN below
76 V ends an overvoltage (R72), and VIN is valid above 34 V alone (R73). -/
def State.telemetry (s : State) (mv ma : Nat) (limiting beat : Bool) : State :=
  if !s.power.vin then s
  else
    let was := s
    let s := s.addEnergy (mv * ma)
    let s := { s with power := { s.power with
      watts := (mv * ma :: s.power.watts).take 10, frameAt := some s.now, beat := beat
      above := s.power.above && decide (76000 ≤ mv), under := decide (mv ≤ 34000) } }
    let s := State.noteValid was s
    if s.dev = .off then s
    else
      let s := ((s.put .HVS_VIN_MV 0 mv).put .HVS_IIN_MA 0 ma).put .HVS_PIN_MW 0 s.power.meanMw
      let s := s.put .HVS_PEAK_MW 0 (max (s.get .HVS_PEAK_MW) (s.get .HVS_PIN_MW))
      s.put .HVS_STATUS_LIMITING 0 (b2n limiting)

/-- R99: telemetry frames are arriving: the last one came within 200 µs (R77). -/
def State.linkOk (s : State) : Bool := match s.power.frameAt with
  | some x => decide (s.now ≤ x + 200 * qUs)
  | none => false

/-! ## Returns from AUX and HOLD -/

/-- R96: every junction sensor below a temperature. -/
def State.allBelow (s : State) (celsius : Int) : Bool := s.gov.temps.all fun x => decide (x < celsius * 8)

/-- R96, R86, R29: the comparator of a sensor acts, or no sensor is valid. -/
def State.thermalDown (s : State) (i : Nat) : State :=
  if s.logicState then
    let recent := s.now :: s.power.heat.filter fun x => decide (s.now < x + 3600 * qSec)
    let s := (s.cutPower.enterAux false).cutPower
    let s := (s.count .PWR_SHED_SHUTDOWNS).count .LIFE_SHUTDOWNS_COUNT
    let s := s.ledger kEvent evThermal i
    let s := { s with power := { s.power with thermal := true, heat := recent }, gov := { s.gov with cool := none } }
    if 3 ≤ recent.length then s.put .BOOT_STATUS_LOCKOUT 0 1 else s
  else s

/-- R29: after a thermal shutdown, every sensor has been below 100 °C for 10 s. -/
def State.cooled (s : State) : State :=
  match s.gov.cool with
  | some x =>
    if s.dev = .aux ∧ s.power.thermal = true ∧ s.power.protect = false ∧ x + 10 * qSec ≤ s.now ∧ s.vinValid = true ∧
        s.flag .BOOT_STATUS_LOCKOUT = false ∧
        (s.power.heat.filter fun y => decide (s.now < y + 3600 * qSec)).length < 3 then s.enterBoot
    else s
  | none => s

/-- R73: VIN is valid again and the cause has cleared: the instant counts as that at which VIN becomes valid. The cause of
a hot-swap fault has cleared once the FET can be turned on, that of a rail fault once the rails are down. -/
def State.causeGone (s : State) : State :=
  let down := match s.power.downAt with
    | some x => decide (x + 22 * qMs ≤ s.now)
    | none => true
  if s.dev = .aux ∧ s.power.protect = true ∧ s.vinValid = true ∧ s.flag .BOOT_STATUS_LOCKOUT = false ∧
      s.power.fetOffAt = none ∧ s.power.latched = false ∧ down = true then
    { s with power := { s.power with protect := false, vinAt := s.now } }
  else s

/-- R119: a REBOOT in AUX waits for a valid VIN and cool sensors. -/
def State.rebootDue (s : State) : State :=
  if s.dev = .aux ∧ s.power.reboot = true ∧ s.vinValid = true ∧ s.allBelow 100 = true then s.enterBoot else s

/-- R119: a REBOOT was written before in the present AOCLK cycle. -/
def State.rebooting (s : State) : Bool := match s.power.rebootAt with
  | some x => aoCycle x == aoCycle s.now
  | none => false

/-- R30: a state that outranks the host commands was entered in the present AOCLK cycle from a state. -/
def State.outranked (s : State) (d : DevState) : Bool :=
  aoCycle s.devAt == aoCycle s.now && s.prev == d && (s.dev == .aux || s.dev == .hold || s.dev == .recovery)

/-- R119: whether REBOOT is accepted. One that loses against an entry to AUX in its cycle is accepted and has no effect. -/
def State.rebootTaken (s : State) : Bool :=
  s.dev == .hold || (s.dev == .aux && s.flag .BOOT_STATUS_LOCKOUT) || s.rebooting || (s.dev == .aux && s.outranked .hold)

/-- R119: REBOOT. The instants of the last hour end with the lockout they led to. -/
def State.reboot (s : State) : State :=
  let was := s
  let s := { s with power := { s.power with rebootAt := some s.now } }
  if was.dev = .hold then s.enterBoot
  else if was.dev = .aux ∧ was.flag .BOOT_STATUS_LOCKOUT = true then
    let s := { s with power := { s.power with reboot := true, heat := [], prot := [] } }
    (s.put .BOOT_STATUS_LOCKOUT 0 0).rebootDue
  else s

/-! ## The rails -/

/-- R83: the nominal voltages, in mV, and the power-good window. -/
def railNominal (j : Nat) : Nat := [750, 850, 1800, 1100, 1800, 1200, 900, 1200, 1800, 2500].getD j 0
def inWindow (j mv : Nat) : Bool := decide (railNominal j * 96 ≤ mv * 100) && decide (mv * 100 ≤ railNominal j * 104)

/-- R74, R75: the instant at which the FET's output, rising since `fetAt` at the slope of SLEW (2^SLEW / 2 V/ms), reaches 95 %
of a VIN in mV. -/
def State.out95 (s : State) (mv : Nat) : Nat :=
  s.power.fetAt + (mv * 19 * qMs + (10000 * 2 ^ s.get .HVS_CFG_SLEW - 1)) / (10000 * 2 ^ s.get .HVS_CFG_SLEW)

/-- R75: the die asserts BUS_EN with VIN at `mv`. The rails follow at 10 ms intervals (R83), if no instants are set for them
yet (R116). -/
def State.assertBus (s : State) (mv : Nat) : State :=
  if s.dev = .boot ∧ s.power.fet = true ∧ s.power.bus = false ∧ s.power.t0 + 70 * qMs ≤ s.now ∧ s.out95 mv ≤ s.now then
    { s with power := { s.power with
      bus := true
      seq := if s.power.seq.isEmpty then (List.range 10).map fun j => (j, s.now + (j + 1) * 10 * qMs) else s.power.seq } }
  else s

/-- The regulator of a rail. -/
def State.regulator (s : State) (j : Nat) : Regulator := s.power.pmb.getD j {}
def State.setRegulator (s : State) (j : Nat) (r : Regulator) : State :=
  { s with power := { s.power with pmb := s.power.pmb.set j r } }

/-- R82, R83: the PMBus host programs a regulator from its RAILS entry (the fault limits are ±6 % of nominal, R110), clears its
faults and turns it on. -/
def State.programRail (s : State) (j : Nat) : State :=
  match s.boot.rails.find? fun e => e.rail == j with
  | some e => s.setRegulator j { addr := e.addr, page := e.page, pec := bit e.pflags 0, onOff := e.onoff, vout := e.vout,
                                 ov := e.ov, uv := e.uv, on := true }
  | none => s

/-- R82, R84: whether an attempt to read a regulator counts as answered: it acknowledges, and passes packet error checking
where the regulator is capable of it. -/
def State.answered (s : State) (j : Nat) (x : PmbReply) : Bool := x.ack && (!(s.regulator j).pec || x.pec)

/-- R84: what a rail's regulator answers to two consecutive attempts. -/
def State.pmbAnswer (s : State) (j : Nat) (x : PmbReply × PmbReply) : Option PmbReply :=
  if s.answered j x.1 then some x.1 else if s.answered j x.2 then some x.2 else none

/-- R82: what has been read of a regulator. -/
def State.notePmb (s : State) (j : Nat) (x : PmbReply) : State :=
  s.setRegulator j { s.regulator j with status := x.status, iout := x.ma }

/-- R83, R114: the next rail whose sequencing instant has come is enabled, once the RAILS section has passed; the first one applies
that section. -/
def State.enableRail (s : State) : State :=
  match s.power.seq.find? fun x => x.2 ≤ s.now with
  | none => s
  | some (j, _) =>
    if s.busOn = false ∨ (s.dev = .boot ∧ s.boot.rails = []) then s
    else
      let s := if s.dev = .boot ∧ s.power.enabled = [] then s.bump .BOOT_STATUS_APPLIED else s
      let s := { s with power := { s.power with
        seq := s.power.seq.filter fun x => x.1 != j
        enabled := if s.power.enabled.contains j then s.power.enabled else s.power.enabled ++ [j]
        good := s.power.good.filter fun x => x != j
        enabledAt := s.power.enabledAt.set j s.now } }.programRail j
      let s := (s.put .PWR_RAIL_FAULT j 0).put .PWR_RAIL_PG j 0
      { s with gov := { s.gov with railBad := s.gov.railBad.set j 0 } }.settleTrips

/-- Rails are disabled, to be enabled again in their order, 10 ms apart, from an instant. -/
def State.resequence (s : State) (js : List Nat) (start : Nat) : State :=
  let s := { s with power := { s.power with
    enabled := s.power.enabled.filter fun j => !js.contains j
    good := s.power.good.filter fun j => !js.contains j
    seq := (s.power.seq.filter fun x => !js.contains x.1) ++ js.mapIdx fun i j => (j, start + i * 10 * qMs) } }
  js.foldl (fun s j => (s.setRegulator j { s.regulator j with on := false }).put .PWR_RAIL_PG j 0) s

/-- R84: RAIL_RETRY re-sequences every faulted front-end and I/O rail, the first at once (log entry 41). -/
def State.retryRails (s : State) : State :=
  s.resequence (([4, 5, 8, 9] : List Nat).filter fun j => s.get .PWR_RAIL_FAULT j != 0) s.now

/-- R84: the cause that STATUS_WORD reports, 0 for none. The places of its bits are those of PMBus (log entry 40). -/
def statusCause (w : Nat) : Nat :=
  if bit w 5 then 2
  else if bit w 15 then 3
  else if bit w 14 || bit w 4 then 4
  else if bit w 2 then 6
  else if ([0, 1, 3, 8, 9, 12, 13] : List Nat).any fun i => bit w i then 7
  else 0

/-- The monitors of an island stop; those enabled wait for its return. -/
def State.stopMonitors (s : State) (k : Nat) : State :=
  (islandChans k).foldl (fun s n =>
    let c := s.chan n
    s.setChan n { c with win := { active := false, wait := s.flag .TCH_WIN_CTL_ENABLE n, since := c.win.since } }) s

/-- R159: the hits of the back-ends that may serve a channel are given up: its own, and the spare that it holds. -/
def State.dropHits (s : State) (n : Nat) : State :=
  let s := s.setBe n { s.be n with hits := [] }
  if (s.chan n).sub = 0 then s else s.setBe (spareKey (n / 12)) { s.be (spareKey (n / 12)) with hits := [] }

/-- R87, R94, R159: an island enters a lower state. -/
def State.lowerIsland (s : State) (k st : Nat) : State :=
  let s := s.setIsland k { s.island k with state := st, target := none, forced := false, unlock := (s.island k).unlock && st == 1 }
  if st < 2 then s
  else
    let s := { s with gov := { s.gov with held := s.gov.held.filter fun c => decide (c.subj ≠ Subject.island k) } }
    ((islandChans k).foldl State.dropHits (s.stopMonitors k)).settleTrips

/-- R84, R25, R137: a fault of a front-end rail: the front-end part of every island stops at once, with the over-range
detectors, the back-end part once its buffers have drained. -/
def State.feFault (s : State) : State :=
  if s.power.feDown then s
  else
    let s := { s with power := { s.power with feDown := true } }
    let s := (List.range 8).foldl (fun s k =>
      let s := (s.stopMonitors k).setIsland k { s.island k with target := some 3, forced := true }
      if 2 ≤ (s.island k).state then s.lowerIsland k 3 else s) s
    let s := (List.range 144).foldl (fun s n =>
      let s := s.setChan n { s.chan n with above := false, ownEnd := 0, nbrEnd := 0 }
      if (s.src n).taking then s.beginCause n 0 true else s) s
    s.settleTrips

/-- The HBM part of memory loses its contents (R86). -/
def State.clearHbm (s : State) : State := { s with mem := s.mem.filter fun x => decide (2 ^ 35 ≤ x.1) }

/-- R84: a rail is declared in fault. -/
def State.railFault (s : State) (j cause : Nat) : State :=
  let s := ((s.raise .PWR_EVENT_RAIL_FAULT).put .PWR_RAIL_FAULT j cause).put .PWR_RAIL_PG j 0
  let s := { s with power := { s.power with good := s.power.good.filter fun x => x != j } }
  if s.dev = .boot then (s.ledger kEvent evRail j).failBoot 8 s.boot.section_ s.boot.entry
  else if j ≤ 1 then s.protect true evRail j
  else
    let s := s.ledger kEvent evRail j
    if j ≤ 3 then { s with hbm := { s.hbm with trained := false } }.clearHbm.declare kHbm true
    else if j ≤ 5 then s.settleTrips
    else if j ≤ 7 then ((List.range 16).foldl (fun s q => s.failQuad q true) s).declare kLanes true
    else s.feFault

/-- Whether a rail can be declared in fault: it is enabled, and none is recorded. -/
def State.railWatched (s : State) (j : Nat) : Bool :=
  s.governs && s.railOn j && s.get .PWR_RAIL_FAULT j == 0

/-- R84: STATUS_WORD is read after PMB_ALERT_N. Without an answer the cause is 5. -/
def State.alertRail (s : State) (j : Nat) (x : PmbReply × PmbReply) : State :=
  match s.pmbAnswer j x with
  | some r =>
    let s := s.notePmb j r
    if s.railWatched j && statusCause r.status != 0 then s.railFault j (statusCause r.status) else s
  | none => if s.railWatched j then s.railFault j 5 else s

/-! ## Islands -/

/-- R88, the first two rows: a channel of the island is armed or a wake is under way; a monitor is enabled or a trip line
routed. -/
def State.islandArmed (s : State) (k : Nat) : Bool :=
  (s.island k).wakeAt.isSome || (islandChans k).any fun n => (s.chan n).armed
def State.islandWatched (s : State) (k : Nat) : Bool :=
  (islandChans k).any fun n => s.flag .TCH_WIN_CTL_ENABLE n || s.flag .TCH_WIN_CFG_ROUTE n

/-- R93: whether the cost of an island is charged to the guard slice. -/
def State.islandGuard (s : State) (k : Nat) : Bool :=
  (islandChans k).any fun n => s.srcGuard n && ((s.chan n).armed || s.flag .TCH_WIN_CTL_ENABLE n)

/-- R25: whether every channel buffer of an island is empty. -/
def State.islandEmpty (s : State) (k : Nat) : Bool :=
  (islandChans k).all fun n => (s.src n).old.isEmpty && (s.src n).buf.isEmpty && (s.src n).owed.isEmpty

/-- R84, R89: a channel that is armed or whose monitor waits has its island woken under the governor. -/
def State.rewake (s : State) (n : Nat) : State :=
  if (s.chan n).armed || (s.chan n).win.wait then s.queueWake (islandOf n) (s.chanCls n) else s

/-- R25, R88: an island leaves ON for its lower state. One that a rail fault forced to OFF wakes again if the rails are good by
now (R84). -/
def State.drainedIsland (s : State) (k : Nat) : State :=
  let i := s.island k
  match i.target with
  | some st =>
    if !s.islandEmpty k then s
    else if !i.forced && s.islandArmed k then s.setIsland k { i with target := none }
    else
      let s := s.lowerIsland k st
      if i.forced && !s.power.feDown then (islandChans k).foldl State.rewake s else s
  | none => s

/-- R87: the wake time of a state, in q; an island in OFF also reloads its tables, which ends when the command comes. -/
def wakeTime (st : Nat) : Nat := if st = 1 then 2 * qUs else if st = 2 then 250 * qUs else 2 * qMs

/-- R42, R162, R158, R182: the back-ends of a channel after a wake from SLEEP or OFF, and the end of a gap of its rail or of its
island's lock. A warm-up of its spare begins again. -/
def State.wakeChannel (s : State) (n : Nat) : State :=
  let b := s.beOf n
  let s := s.setBe b (s.be b).fallBack
  let s := s.dropHits n
  let c := s.chan n
  let s := if c.sub = 1 then (s.setChan n { c with subAt := s.now, subDue := none }).startEnd (spareKey (n / 12)) else s
  match (s.src n).ovf with
  | some e =>
    if e.active.contains 0 || e.active.contains 1 then
      let t := s.nextBound n
      ((s.setChan n { s.chan n with level := false, known := false }).endCause n 0 t).endCause n 1 t
    else s
  | none => s

/-- R61, R87, R89, R142: a wake completes: the island is in ON, or in IDLE where only the second and third rows of R88 hold,
and its monitors start. -/
def State.wokenIsland (s : State) (k : Nat) : State :=
  let i := s.island k
  match i.wakeAt with
  | some x =>
    if x + wakeTime i.state ≤ s.now ∧ s.power.feDown = false ∧ s.dieUp = true then
      let armed := (islandChans k).any fun n => (s.chan n).armed
      let idle := !armed && s.get .PWR_ISLAND_FLOOR k != 0 && (s.islandWatched k || s.get .PWR_ISLAND_FLOOR k == 1)
      let s := s.setIsland k { i with state := if idle then 1 else 0, wakeAt := none, target := none, unused := s.now, onAt := s.now }
      let s := if 2 ≤ i.state then (islandChans k).foldl (fun s n => s.wakeChannel n) s else s
      ((islandChans k).foldl (fun s n =>
        if s.flag .TCH_WIN_CTL_ENABLE n ∧ (s.chan n).win.active = false then s.startWin n else s) s).settleTrips
    else s
  | none => s

/-- R89: a write of FLOOR: raised to ON or IDLE above the present state, it queues a wake of the system class. -/
def State.setFloor (s : State) (k v : Nat) : State :=
  let was := s.get .PWR_ISLAND_FLOOR k
  let s := s.put .PWR_ISLAND_FLOOR k v
  let s := if was ≤ 1 then s.touchIsland k else s
  if v ≤ 1 ∧ v < was ∧ v < (s.island k).state ∧ (s.island k).wakeAt = none ∧ s.queued (.wake k 1) = false then
    s.submit 1 (.wake k 1)
  else s

/-- R84: both front-end rails are good again: the trip lines follow the monitors, and the islands with armed channels or monitors
wake under the governor. -/
def State.feBack (s : State) : State :=
  let s := { s with power := { s.power with feDown := false } }
  let s := (List.range 8).foldl (fun s k =>
    let i := s.island k
    if i.wakeAt.isSome then s.setIsland k { i with wakeAt := some s.now } else s) s
  ((List.range 144).foldl State.rewake s).settleTrips

/-! ## Restorations -/

/-- R468: a restoration begins in RECOVERY, at a tick after its failure was declared. A failure declared in BOOT waits for it
(DEDUCED, log entry 83). -/
def State.beginRestore (s : State) (k : Nat) : State :=
  let r := s.rest k
  let due := match r.declared with
    | some x => decide (x < s.now) && r.began.isNone && s.dev == .recovery
    | none => false
  if !due then s
  else
    let s := s.setRest k { r with began := some s.now, second := if r.rails then none else some s.now }
    if k = kHbm then
      if r.rails then s.resequence [2, 3] (s.now + 10 * qMs)
      else { s with hbm := { s.hbm with training := some s.now, trained := false } }
    else if k = kLanes then
      if r.rails then s.resequence [6, 7] (s.now + 10 * qMs) else s
    else if k = kIngest then
      (List.range 32).foldl (fun s x =>
        if (s.slot x).failed ∧ (s.lane (32 + x)).state = 6 then s.startRetrain (32 + x) else s) s
    else s

/-- The rails that a subsystem restores. -/
def restoreRails (k : Nat) : List Nat := if k = kHbm then [2, 3] else if k = kLanes then [6, 7] else []

/-- R468: once the rails are good, HBM is retrained, and the quad PLLs are restarted. -/
def State.railsRestored (s : State) (k : Nat) : State :=
  let r := s.rest k
  let good := (restoreRails k).all fun j => s.railOn j && s.get .PWR_RAIL_PG j == 1
  if r.began.isSome && r.rails && r.second.isNone && good then
    let s := s.setRest k { r with second := some s.now }
    if k = kHbm then { s with hbm := { s.hbm with training := some s.now, trained := false } } else s
  else s

/-- R468: the limit of a restoration, from the start of its last stage, in q. -/
def restoreLimit (k : Nat) : Nat :=
  if k = kIs8 then 10 * qMs else if k = kHbm then 250 * qMs else if k = kLanes then 200 * qUs else 2 * qSec

/-- R468: whether the limit of a restoration has passed: a rail is not good 8 ms after its enable, or the last stage has
not ended. A restoration of Sluice has no limit of its own. -/
def State.restoreLate (s : State) (k : Nat) : Bool :=
  let r := s.rest k
  let late := (restoreRails k).any fun j =>
    s.railOn j && s.get .PWR_RAIL_PG j == 0 && decide (s.power.enabledAt.getD j 0 + 8 * qMs ≤ s.now)
  r.declared.isSome && r.began.isSome && k != kSluice && (match r.second with
    | some x => decide (x + restoreLimit k ≤ s.now)
    | none => r.rails && late)

/-- R468: a restoration whose limit has passed fails. -/
def State.restoreOver (s : State) (k : Nat) : State :=
  if s.restoreLate k then
    let s := if k = kHbm then { s with hbm := { s.hbm with training := none } } else s
    s.failRestore k
  else s

/-! ## Commands -/

/-- R72: UVLO_RISE. -/
def execUvloRise (t : Nat) (s : State) : Host.Outcome State Fault Refusal := .next (s.at t).riseVin

/-- R29: AUX_ENTRY. -/
def execAuxEntry (t : Nat) (s : State) : Host.Outcome State Fault Refusal := .next (s.at t).toAux

/-- R29: AO_RELEASE. -/
def execAoRelease (t : Nat) (s : State) : Host.Outcome State Fault Refusal := .next (s.at t).release

/-- R72: UVLO_FALL. -/
def execUvloFall (t : Nat) (s : State) : Host.Outcome State Fault Refusal := .next (s.at t).fallVin

/-- R72: LOW_INPUT. -/
def execLowInput (t : Nat) (low : Bool) (s : State) : Host.Outcome State Fault Refusal := .next ((s.at t).lowVin low)

/-- R72: OVERVOLTAGE. -/
def execOvervoltage (t : Nat) (s : State) : Host.Outcome State Fault Refusal := .next (s.at t).overVin

/-- R74: HOT_SWAP_TRIP: the current, in mA, that has flowed since an instant. -/
def execHotSwapTrip (t since ma : Nat) (s : State) : Host.Outcome State Fault Refusal :=
  let s := s.at t
  .next (if s.faultTimer since ma then s.tripFet else s)

/-- R449: FAST_TRIP: a current of three times the limit trips at once; it counts and restarts as a trip of the fault timer. -/
def execFastTrip (t ma : Nat) (s : State) : Host.Outcome State Fault Refusal :=
  let s := s.at t
  .next (if 3 * s.limitMa ≤ ma then s.tripFet else s)

/-- R74: FET_RETRY. -/
def execFetRetry (t : Nat) (s : State) : Host.Outcome State Fault Refusal := .next (s.at t).retryFet

/-- R80: HEARTBEAT_LOST. -/
def execHeartbeatLost (t : Nat) (s : State) : Host.Outcome State Fault Refusal := .next (s.at t).loseHeartbeat

/-- R77: TELEMETRY_FRAME. -/
def execTelemetryFrame (t mv ma : Nat) (limiting beat : Bool) (s : State) : Host.Outcome State Fault Refusal :=
  .next (((s.at t).telemetry mv ma limiting beat).rebootDue)

/-- R75: BUS_EN. -/
def execBusEn (t mv : Nat) (s : State) : Host.Outcome State Fault Refusal := .next ((s.at t).assertBus mv)

/-- R83: RAIL_ENABLE. -/
def execRailEnable (t : Nat) (s : State) : Host.Outcome State Fault Refusal := .next (s.at t).enableRail

/-- R84: PMBUS_ALERT. -/
def execPmbusAlert (t j : Nat) (first second : PmbReply) (s : State) : Host.Outcome State Fault Refusal :=
  if j < numRails then .next ((s.at t).alertRail j (first, second)) else .fault .noSuchUnit

/-- R96: THERMAL_SHUTDOWN; the comparator acts only in a valid sensor (R95). -/
def execThermalShutdown (t i : Nat) (s : State) : Host.Outcome State Fault Refusal :=
  if i < numSensors then
    let s := s.at t
    .next (if s.gov.valid.getD i false then s.thermalDown i else s)
  else .fault .noSuchUnit

/-- R29: THERMAL_COOLDOWN. -/
def execThermalCooldown (t : Nat) (s : State) : Host.Outcome State Fault Refusal := .next (s.at t).cooled

/-- R73: PROTECTIVE_RESTART. -/
def execProtectiveRestart (t : Nat) (s : State) : Host.Outcome State Fault Refusal := .next (s.at t).causeGone

/-- R61: WAKE_ISLAND. -/
def execWakeIsland (t k : Nat) (s : State) : Host.Outcome State Fault Refusal :=
  if k < numIslands then .next ((s.at t).wokenIsland k) else .fault .noSuchUnit

/-- R25: ISLAND_DRAINED. -/
def execIslandDrained (t k : Nat) (s : State) : Host.Outcome State Fault Refusal :=
  if k < numIslands then .next ((s.at t).drainedIsland k) else .fault .noSuchUnit

/-- R468: RESTORATION_TIMEOUT. -/
def execRestorationTimeout (t : Nat) (sub : Subsystem) (s : State) : Host.Outcome State Fault Refusal :=
  .next ((s.at t).restoreOver (subsystemKey sub).1)

/-- R468: RESTORATION_HELD. -/
def execRestorationHeld (t : Nat) (sub : Subsystem) (s : State) : Host.Outcome State Fault Refusal :=
  .next ((s.at t).restoreHeld (subsystemKey sub).1)

end Sys2Proof.Machine
end

