-- ==== Sys2Proof/Machine/RegView.lean ====
section
/-!
DEFINITION. What a register shows (R405, R406): the status fields that the block computes from what it is doing, the
held view, and the device interrupt (R421).
-/

namespace Sys2Proof.Machine

/-! ## Device state and interrupts -/

/-- R28: the code of a device state. -/
def DevState.code : DevState → Nat
  | .off => 0
  | .aux => 1
  | .boot => 2
  | .run => 3
  | .test => 4
  | .recovery => 5
  | .hold => 6

/-- R120: BOOT_PHASE.PHASE. -/
def State.bootPhase (s : State) : Nat := if s.boot.settled ∧ s.boot.phase = 5 then 6 else s.boot.phase

/-- R421: whether an event flag of the listed register maps belongs to a block and is set. -/
def State.anyEvent (s : State) (b : Blk) : Bool :=
  s.regs.any fun x =>
    let d := (Fld.ofNat (x.1 % 1024)).desc
    decide (d.acc = .EV) && decide (d.reg.desc.blk = b) && x.2 != 0

/-- R421: the events of Sluice that interrupt. -/
def State.sluInterrupt (s : State) : Bool :=
  ((List.range 32).any fun c =>
    (s.flag .SLU_CFG_INT_HALF c && s.flag .SLU_EVENT_HALF c) ||
      (s.flag .SLU_CFG_INT_DONE c && (s.flag .SLU_EVENT_DESC c || s.flag .SLU_EVENT_DONE c))) ||
    s.flag .SLU_ENGINE_EVENT_HALT

/-- R421: the blocks in the order of their bits. -/
def irqBlocks : List Blk := [.PWR, .HVS, .BOOT, .TB, .LIFE, .TCH, .WCH, .MC, .AQ, .CRY, .VD, .MRK, .SLU, .LNK, .DEV]

/-- R421: DEV_IRQ_STATUS. -/
def State.irqStatus (s : State) : Nat :=
  (irqBlocks.mapIdx fun i b =>
    if (if b = .SLU then s.sluInterrupt else s.anyEvent b) then 2 ^ i else 0).sum

/-- R421: whether IRQ_N is driven low. -/
def State.irq (s : State) : Bool := s.irqStatus &&& s.get .DEV_IRQ_ENABLE_BLOCKS != 0

/-! ## Computed fields -/

/-- Whether the spare of a channel's cluster serves, or warms up for, another channel (R186). -/
def State.spareBusy (s : State) (n : Nat) : Bool := match s.spareUser (n / 12) with
  | some m => m != n
  | none => false

/-- The fields of a front-end's status registers (R150). -/
def State.viewFe (s : State) (n : Nat) : Fld → Nat
  | .TCH_FE_STATUS_STATE_KNOWN => b2n (s.chan n).known
  | .TCH_FE_STATUS_LEVEL => b2n (s.chan n).level
  | .TCH_FE_STATUS_OVR_NOW => b2n (s.ovrIn n s.now)
  | .TCH_FE_STATUS_NBR_NOW => b2n (s.nbrIn n s.now)
  | .TCH_FE_STATUS_THS_NOW => b2n (s.thsIn n s.now)
  | .TCH_FE_STATUS_OVR_CLASS => (s.chan n).cls
  | .TCH_WIN_STATUS_ACTIVE => b2n (s.chan n).win.active
  | .TCH_WIN_STATUS_FILTER => b2n (s.chan n).win.out
  | .TCH_WIN_STATUS_LATCHED => b2n (s.chan n).win.latch
  | .TCH_WIN_STATUS_HELD => b2n ((s.chan n).win.active && s.heldIn n s.now)
  | .TCH_WIN_STATUS_COUNT => (((s.chan n).win.hist.take (s.get .TCH_WIN_CFG_N n)).filter id).length
  | f => s.get f n

/-- The fields of a back-end's status registers (R186): those of the back-end in service. -/
def State.viewTch (s : State) (n : Nat) : Fld → Nat
  | .TCH_BE_STATUS_PENDING => b2n (s.chan n).pend
  | .TCH_BE_STATUS_ARMED => b2n (s.chan n).armed
  | .TCH_BE_STATUS_TAKING => b2n (s.src n).taking
  | .TCH_BE_STATUS_CAL => s.calOf n
  | .TCH_BE_STATUS_OVERFLOW => b2n (s.src n).ovf.isSome
  | .TCH_BE_STATUS_SUB => (s.chan n).sub
  | .TCH_BE_STATUS_SPARE_BUSY => b2n (s.spareBusy n)
  | .TCH_BE_STATUS_LEVEL => min (s.src n).level 4096
  | .TCH_CAL_STATUS_STATE => s.calOf n
  | .TCH_CAL_STATUS_FAILS => min (s.be (s.beOf n)).fails 3
  | .TCH_CAL_STATUS_GEN => (s.be (s.beOf n)).gen
  | .TCH_CAL_DRIFT_MAX => (s.be (s.beOf n)).drift
  | .TCH_CAL_HITS_COUNT => ((List.range 4).map (hitTotal (s.be (s.beOf n)).hits)).sum
  | f => s.viewFe n f

/-- The fields of a waveform channel's status registers (R217). The samples are those of its chain, while the chain serves
the channel. -/
def State.viewWave (s : State) (n : Nat) (f : Fld) : Nat :=
  let c := s.wave (s.chainOf n)
  let mine := s.chainUser (s.chainOf n) == n
  match f with
  | .WCH_STATUS_PENDING => b2n (s.wave n).pend
  | .WCH_STATUS_ARMED => b2n (s.wave n).armed
  | .WCH_STATUS_WINDOW => b2n (s.wave n).isOpen
  | .WCH_STATUS_INVALID => b2n (mine && c.invalid != 0)
  | .WCH_STATUS_CONV => b2n (mine && c.convOn)
  | .WCH_STATUS_OVERFLOW => b2n (s.src (144 + n)).ovf.isSome
  | .WCH_STATUS_PREEMPTED => b2n (s.wave n).waiting.isSome
  | .WCH_STATUS_CORR_HELD => b2n c.held
  | .WCH_STATUS_LEVEL => min (s.src (144 + n)).level 4096
  | .WCH_CORR_OFS_DIFF => ofSigned 16 c.corr.1
  | .WCH_CORR_GAIN_RATIO => ofSigned 16 c.corr.2.1
  | .WCH_CORR_SKEW_FS => ofSigned 16 c.corr.2.2
  | .WCH_SLOT_STATUS_STATE => (s.slot n).state
  | .WCH_SLOT_STATUS_MARGIN => s.leastMargin n
  | f => s.get f n

/-- The fields of the status registers of contexts and engines (R249, R250). -/
def State.viewMc (s : State) (n : Nat) : Fld → Nat
  | .MC_STATUS_PENDING => b2n (s.ctx n).pend
  | .MC_STATUS_ARMED => b2n (s.ctx n).armed
  | .MC_STATUS_OPEN => b2n (s.ctx n).gate.isSome
  | .MC_STATUS_RESERVED => b2n (s.reservedBy n)
  | .MC_STATUS_WAITING => b2n ((s.ctx n).armed && !s.ctxLive n)
  | .MC_STATUS_ENGINE => s.engineOf (if s.reservedBy n then n / 4 * 4 else n)
  | .MC_STATUS_STAB_SLOT => (s.ctx n).slot.getD 0
  | .MC_STATUS_STAB_HELD => b2n (s.ctx n).slot.isSome
  | .MC_RING_BASE_ADDR => Config.ringBase
  | .MC_STAB_FREE_SLOTS => s.stabFree
  | .MC_ENG_STATUS_LOAD => (s.engine n).load
  | .MC_ENG_STATUS_CONTEXTS => (s.armedContexts.filter fun c => s.engineOf c == n).length
  | .MC_ENG_STATUS_RETIRED => b2n (bit (s.get .LIFE_ENG_RETIRED_BITS) n)
  | f => s.get f n

/-- The fields of the status registers of acquisition units, pans, crystallisers, masks and rules (R280, R282, R311,
R313). -/
def State.viewAq (s : State) (n : Nat) : Fld → Nat
  | .AQ_STATUS_STATE => (s.acq n).state
  | .AQ_STATUS_PENDING => b2n (s.acq n).pend
  | .AQ_STATUS_ARMED => b2n (s.acq n).armed
  | .AQ_STATUS_CLASS => b2n (s.aqGuard n)
  | .AQ_STATUS_STREAMING => b2n ((s.acq n).live && s.aqStream n)
  | .AQ_STATUS_PAN => (s.acq n).pan
  | .AQ_STATUS_FREE_PANS => ((s.panSet n).filter fun p => (s.pan p).state == 0).length
  | .PAN_STATUS_STATE => (s.pan n).state
  | .CRY_STATUS_FROZEN => b2n (s.cry n).frozen
  | .CRY_STATUS_CLEARING => b2n (s.cry n).clearEnd.isSome
  | .CRY_STATUS_MERGING => b2n (s.cry n).mergeEnd.isSome
  | .CRY_MAP_STATUS_SWEEPING => b2n (s.cry n).sweep.isSome
  | .MSK_STATUS_OPEN => (s.mask n).instances.length
  | .VD_STATUS_OPEN => b2n (s.get .VD_CFG_TYPE n == 1 && (s.rule n).window.isSome)
  | f => s.get f n

/-- The fields of the status registers of markers, trip outputs and Sluice (R322, R344). -/
def State.viewOut (s : State) (n : Nat) : Fld → Nat
  | .MRK_STATUS_ARMED => b2n (s.marker n).armed
  | .MRK_STATUS_TRIPPED => b2n (s.markerTripped n)
  | .MRK_STATUS_LATCHED => b2n (s.marker n).latch
  | .TRIP_STATUS_TRIPPED => b2n (s.tripOut n)
  | .TRIP_STATUS_LATCHED => b2n (s.trip n).latch
  | .TRIP_LINES_STATE => s.tripLines
  | .SLU_STATUS_STATE => (s.sl n).state
  | .SLU_STATUS_HELD => b2n (s.sl n).held.isSome
  | .SLU_STATUS_UNIT => (s.sl n).held.getD 0
  | .SLU_STATUS_WAIT_CREDIT => b2n (s.waitsCredit n)
  | .SLU_STATUS_WAIT_ACK => b2n (s.waitsAck n)
  | .SLU_STATUS_WAIT_MEM => b2n (s.waitsMem n)
  | .SLU_COMMIT_COMMIT => b2n (s.sl n).commit.isSome
  | .SLU_ENGINE_STATUS_HALTED => b2n s.slu.halted
  | .SLU_ENGINE_STATUS_RUNNING => ((List.range 32).filter fun c => (s.sl c).state == 1 || (s.sl c).state == 2).length
  | .SLU_ENGINE_STATUS_FAILS => min (s.rest kSluice).fails 3
  | f => s.get f n

/-- R350: a DFE register: four taps of a lane. -/
def State.dfeWord (s : State) (i : Nat) : Nat :=
  ((List.range 4).map fun k => ofSigned 8 ((s.lane (i / 3)).taps.getD (4 + 4 * (i % 3) + k) 0) * 256 ^ k).sum

/-- R123, R398: the register packets that have no answer yet. -/
def State.pktsPending (s : State) : List (Nat × Nat) := s.pkts.filter fun x => decide (s.now < x.2)

/-- The fields of the status registers of quads, lanes and links (R366, R396). -/
def State.viewLnk (s : State) (n : Nat) : Fld → Nat
  | .LNK_QUAD_STATUS_PWR => (s.quad n).pwr
  | .LNK_QUAD_STATUS_PLL_LOCK => b2n (s.quad n).pll
  | .LNK_QUAD_STATUS_TRAINED => ((List.range 4).map fun i => b2n ((s.lane (4 * n + i)).state == 6) * 2 ^ i).sum
  | .LNK_LANE_STATUS_STATE => (s.lane n).state
  | .LNK_LANE_STATUS_P1_NOW => b2n (s.lane n).p1
  | .LNK_LANE_STATUS_SIGNAL => b2n (s.lane n).signal
  | .LNK_LANE_STATUS_BLOCK_LOCK => b2n (s.lane n).lock
  | .LNK_LANE_STATUS_FROZEN => b2n (s.lane n).frozen
  | .LNK_LANE_STATUS_IN_SERVICE => b2n (s.lane n).service
  | .LNK_LANE_STATUS_BACKOFF => (s.lane n).backoff
  | .LNK_LANE_STATUS_SLIP => (s.lane n).slip
  | .LNK_LANE_TAPS_CTLE => ofSigned 4 ((s.lane n).taps.getD 0 0)
  | .LNK_LANE_TAPS_PRE => ofSigned 4 ((s.lane n).taps.getD 1 0)
  | .LNK_LANE_TAPS_MAIN => ofSigned 6 ((s.lane n).taps.getD 2 0)
  | .LNK_LANE_TAPS_POST => ofSigned 5 ((s.lane n).taps.getD 3 0)
  | .LNK_LANE_DFE_TAPS => s.dfeWord n
  | .LNK_LINK_STATUS_PENDING => b2n (s.link n).pend
  | .LNK_LINK_STATUS_ADMITTED => b2n (s.link n).admitted
  | .LNK_LINK_STATUS_TX_SERVICE => (s.link n).tx
  | .LNK_LINK_STATUS_RX_SERVICE => (s.link n).rx
  | .LNK_LINK_STATUS_OFFER => (s.link n).offer
  | .LNK_LINK_STATUS_PARTNER_OFFER => (s.link n).partner
  | .LNK_LINK_STATUS_VQUEUE => (s.link n).verdicts.length
  | .LNK_LINK_STATUS_PKT_PENDING => (s.pktsPending.filter fun x => x.1 == n).length
  | .LNK_TRAIN_PLACES => s.places
  | .LNK_TRAIN_QUEUED => s.laneQueue.length
  | f => s.get f n

/-- The fields of the status registers of AO (R98, R99, R125, R422-R424), as the given port reads them. -/
def State.viewAo (s : State) (p n : Nat) : Fld → Nat
  | .PWR_STATUS_IS8_STATE => s.is8State
  | .PWR_QUEUE_GUARD => s.gov.guardQ.length
  | .PWR_QUEUE_SYSTEM => s.gov.sysQ.length
  | .PWR_BACKLOG_SURVEY => s.gov.survQ.length
  | .PWR_ISLAND_STATE => (s.island n).state
  | .PWR_RAIL_ENABLED => b2n (s.railOn n)
  | .HVS_STATUS_VIN_OK => b2n s.vinValid
  | .HVS_STATUS_OVER => b2n s.power.above
  | .HVS_STATUS_FET_ON => b2n s.fetOn
  | .HVS_STATUS_BUS_ON => b2n s.busOn
  | .HVS_STATUS_LINK_OK => b2n s.linkOk
  | .BOOT_PHASE_STATE => s.dev.code
  | .BOOT_PHASE_SLOT => s.boot.slot
  | .BOOT_PHASE_PHASE => s.bootPhase
  | .BOOT_PHASE_SECTION => s.boot.section_
  | .BOOT_PHASE_ERROR => s.boot.error
  | .BOOT_PHASE_PROGRESS => s.boot.progress
  | .BOOT_STATUS_FUSED => b2n ((List.range 8).any fun i => Config.keyHash i % 2 ^ 32 != 0)
  | .BOOT_KEYHASH_WORD => Config.keyHash n
  | .DEV_ID_GRADE => Config.grade
  | .DEV_VENDOR_JTAG_MFR => Config.jtagMfr
  | .DEV_STATE_STATE => s.dev.code
  | .DEV_STATE_PREV => s.prev.code
  | .DEV_TIDEGATE_OPEN => b2n (s.port p).gate
  | .DEV_IRQ_STATUS_BLOCKS => s.irqStatus
  | .DEV_HARVEST_BUSY => b2n s.bank.busy
  | .TB_STATUS_QUAL => s.qual
  | .TB_STATUS_TIME_VALID => b2n s.time.valid
  | .TB_STATUS_REALIGN_PENDING => b2n s.time.realign.isSome
  | .TB_STATUS_SET_PENDING => b2n s.time.setSec.isSome
  | .TB_NOW_TIME => if s.time.valid then time64 s.tick else 0
  | .TB_FRAME_COMMIT_COMMIT => b2n s.time.frameCom.isSome
  | .LIFE_SCREEN_HOURS_COUNT => fusedHours
  | f => s.get f n

/-- The present value of a field of an instance, as a port reads it; commands read 0 (R13). -/
def State.view (s : State) (p : Nat) (f : Fld) (i : Nat) : Nat :=
  (match f with
    | .TCH_FE_COMMIT_COMMIT => b2n (s.chan i).commit.isSome
    | .WCH_COMMIT_COMMIT => b2n (s.wave i).commit.isSome
    | _ => match f.desc.reg.desc.blk with
      | .TCH => s.viewTch i f
      | .WCH => s.viewWave i f
      | .MC => s.viewMc i f
      | .AQ | .PAN | .CRY | .VD => s.viewAq i f
      | .MRK | .SLU => s.viewOut i f
      | .LNK => s.viewLnk i f
      | .DEV | .PWR | .HVS | .BOOT | .TB | .LIFE => s.viewAo p i f) % 2 ^ f.desc.w

/-- R406: the held view of a field. -/
def State.heldField (s : State) (p : Nat) (f : Fld) (i : Nat) : Nat := match f.desc.acc with
  | .CT => SMap.get regDefault s.bank.regs (f.key i)
  | .SH => s.inForce f i
  | _ => s.view p f i

/-- The whole register of an instance. -/
def State.readReg (s : State) (p : Nat) (held : Bool) (r : Reg) (i : Nat) : Nat :=
  (r.fields.map fun f => (if held then s.heldField p f i else s.view p f i) * 2 ^ f.desc.lo).sum

end Sys2Proof.Machine
end

