-- ==== Sys2Proof/Machine/Life.lean ====
section
/-!
DEFINITION. Service life (chapter 16): life consumed, the ledger, patrol scrubbing, the flash refresh, and the retirement
and return of engines, pseudo-channels and Sluice channels.
-/

namespace Sys2Proof.Machine

/-! ## Life consumed -/

/-- The terms of the exponential series at `x / 2^128`, summed: `n` further terms after the term `t`, which is number
`k`. -/
def expSeries (x : Int) : Nat → Nat → Int → Int
  | 0, _, _ => 0
  | n + 1, k, t => t + expSeries x n (k + 1) (t * x / 2 ^ 128 / (k + 1 : Nat))

/-- exp of `num / den`, in 2^-128. -/
def expFix (num : Int) (den : Nat) : Int := expSeries (num * 2 ^ 128 / den) 120 0 (2 ^ 128)

/-- AF_T of R426 in 2^-128, for a mean temperature of `num / den` in units of 1/8 °C. -/
def afTemp (num : Int) (den : Nat) : Nat :=
  -- Tj = num / (8 den) + 273.15 K = k / (160 den)
  let k := 20 * num + 43704 * (den : Int)
  -- 8,123.5 (1 / 358.15 - 160 den / k)
  (expFix (81235 * (20 * k - 160 * (den : Int) * 7163)) (71630 * k).toNat).toNat

/-- R426: the life consumed in an hour, in 2^-40, from the sums of `n` ticks of tmax (1/8 °C) and pmeas (0.1 mW). -/
def consumedHour (sumT : Int) (sumP n : Nat) : Nat :=
  -- P / 0.6 of 95 W, squared
  let full := 570000 * n
  let (pn, pd) := if sumP ≤ full then (1, 1) else (sumP * sumP, full * full)
  quot (2 ^ 40 * afTemp sumT n * pn) (350400 * 2 ^ 128 * pd)

/-- R426, R429: LIFE_CONSUMED and LIFE_AVG show the totals. -/
def State.showLife (s : State) : State :=
  let x := s.life
  let s := s.put .LIFE_CONSUMED_FRACTION 0 (min (x.consumed / 2 ^ 16) 0xFFFFFFFF)
  if x.lifeHours = 0 then s
  else
    (s.put .LIFE_AVG_TJ 0 (ofSigned 12 (quotI x.sumTj (x.lifeHours * 65536)))).put .LIFE_AVG_POWER 0
      (min (quot x.sumP (x.lifeHours * 65536)) 1023)

/-- R426, R433: a whole hour completes; it consumes life if the logic rails have been up. `rings` are the frequencies and
drifts of the ring oscillators. -/
def State.lifeHour (s : State) (rings : List (Nat × Int)) : State :=
  if s.dev = .off ∨ s.now < s.life.wholeAt + 3600 * qSec then s
  else
    let s := (s.count .LIFE_HOURS_COUNT)
    let s := { s with life := { s.life with wholeAt := s.life.wholeAt + 3600 * qSec } }
    let g := s.gov
    let s := if g.hourN = 0 then s
      else
        { s with life := { s.life with
            consumed := min (s.life.consumed + consumedHour g.hourTj g.hourP g.hourN) (2 ^ 64 - 1)
            lifeHours := s.life.lifeHours + 1
            sumTj := s.life.sumTj + quotI (g.hourTj * 65536) g.hourN
            sumP := s.life.sumP + quot (g.hourP * 65536) (950 * g.hourN) } }
    let s := { s with gov := { s.gov with hourTj := 0, hourP := 0, hourN := 0 } }
    let s := s.showLife
    (List.range 9).foldl (fun s k =>
      let on := if k = 8 then s.is8State == 0 else (s.island k).state == 0
      match rings[k]? with
      | some (freq, drift) =>
        if on then
          let s := (s.put .LIFE_RO_FREQ k freq).put .LIFE_RO_DRIFT k (ofSigned 16 drift)
          if drift < -3000 ∧ (s.island k).aged = false then (s.setIsland k { s.island k with aged := true }).ageing k else s
        else s
      | none => s) s

/-! ## The ledger -/

/-- A little-endian number of `n` bytes. -/
def leBytes (n v : Nat) : List Nat := (List.range n).map fun i => v / 256 ^ i % 256

/-- R429: the body of an entry. -/
def State.ledgerBody (s : State) (j : LedgerJob) : List Nat :=
  if j.kind = kHourly then
    leBytes 4 (s.get .LIFE_HOURS_COUNT) ++ leBytes 4 fusedHours ++ leBytes 8 s.life.consumed ++
      leBytes 4 (s.get .LIFE_AVG_TJ + s.get .LIFE_AVG_POWER * 2 ^ 16) ++ leBytes 4 (s.get .LIFE_SHUTDOWNS_COUNT) ++
      leBytes 4 (s.get .LIFE_ROWS_REPAIRED_COUNT) ++ leBytes 4 (s.get .LIFE_REFRESH_LAST_SEC) ++
      leBytes 4 (s.get .LIFE_REFRESH_NEXT_SEC) ++ leBytes 8 0
  else if j.kind = kService then
    leBytes 4 (s.get .LIFE_ENG_RETIRED_BITS) ++ leBytes 8 (s.get .LIFE_PCH_RETIRED_BITS) ++
      leBytes 4 (s.get .LIFE_SLU_RETIRED_BITS) ++ leBytes 8 s.life.retLane ++ s.life.subs ++ leBytes 8 0
  else leBytes 4 j.cause ++ leBytes 8 j.detail ++ leBytes 32 0

/-- R429: the 64 bytes of an entry. -/
def State.ledgerEntry (s : State) (j : LedgerJob) : List Nat :=
  let bs := [j.kind, 1, 0, 0] ++ leBytes 4 (s.get .LIFE_ENTRIES_COUNT + 1) ++
    leBytes 8 (if s.time.valid then time64 s.tick else 0) ++ s.ledgerBody j
  bs ++ leBytes 4 (crc32c bs)

/-- R428: what a half begins with: an HOURLY and a SERVICE entry. -/
def newLedgerJobs : List LedgerJob := [{ kind := kHourly }, { kind := kService }]

/-- R428: the ledger moves to the other half: it is erased, and an HOURLY and a SERVICE entry come first. -/
def State.changeHalf (s : State) : State :=
  let h := 1 - s.life.half
  { s with life := { s.life with
    half := h, slots := 0, tries := 0, image := s.life.image.filter fun x => x.1 != h
    jobs := newLedgerJobs ++ s.life.jobs } }

/-- R430: an entry of a kind falls due after 63 others, unless one waits. -/
def State.after63 (s : State) (kind n : Nat) : State :=
  if n < 63 ∨ (s.life.jobs.any fun j => j.kind == kind) = true then s else s.ledger kind

/-- R430: the flash bus reads the image until the ledger has been read. -/
def State.ledgerFree (s : State) : Bool := s.dev != .off && !(s.dev == .boot && decide (s.boot.phase ≤ 2))

/-- R428-R431: the entry that is due first is written into the next slot and read back. -/
def State.writeLedger (s : State) (good : Bool) : State :=
  if !s.ledgerFree || s.life.jobs.isEmpty then s
  else
    let s := if 8192 ≤ s.life.slots then s.changeHalf else s
    match s.life.jobs with
    | [] => s
    | j :: rest =>
      let x := s.life
      if good then
        let s := { s with life := { x with
          jobs := rest, tries := 0, slots := x.slots + 1
          image := x.image ++ [(x.half, x.slots, (s.ledgerEntry j).map (BitVec.ofNat 8))]
          sinceHour := if j.kind = kHourly then 0 else x.sinceHour + 1
          sinceServ := if j.kind = kService then 0 else x.sinceServ + 1 } }
        let s := s.count .LIFE_ENTRIES_COUNT
        (s.after63 kHourly s.life.sinceHour).after63 kService s.life.sinceServ
      else
        let last := decide (3 ≤ x.tries + 1)
        { s with life := { x with
          jobs := if last then rest else x.jobs, tries := if last then 0 else x.tries + 1
          slots := x.slots + 1 } }.raise .LIFE_EVENT_LEDGER_FAIL

/-- R430: the time of an HOURLY entry. -/
def State.hourlyDue (s : State) : State :=
  if s.dev = .off ∨ s.now < s.life.hoursAt + 3600 * qSec then s
  else { s with life := { s.life with hoursAt := s.life.hoursAt + 3600 * qSec } }.ledger kHourly

/-- R427, R432: a new ledger is begun in H0 from the fuses, with an empty retired set. -/
def State.newLedger (s : State) : State :=
  let s := { s with life := { s.life with
    half := 0, slots := 0, tries := 0, image := s.life.image.filter fun x => x.1 != 0
    sinceHour := 0, sinceServ := 0, consumed := fusedConsumed * 2 ^ 16, lifeHours := 0, sumTj := 0, sumP := 0
    jobs := newLedgerJobs ++ s.life.jobs } }
  let s := ((s.put .LIFE_HOURS_COUNT 0 fusedHours).put .LIFE_SHUTDOWNS_COUNT 0 0).put .LIFE_ROWS_REPAIRED_COUNT 0 0
  let s := ((s.put .LIFE_REFRESH_LAST_SEC 0 0).put .LIFE_REFRESH_NEXT_SEC 0 126230400).put .LIFE_ENTRIES_COUNT 0 0
  ((s.put .LIFE_AVG_TJ 0 0).put .LIFE_AVG_POWER 0 0).showLife

/-- R432: the LIFE registers from the entries found. How many hours consumed life the ledger does not say: a free value. -/
def State.loadTotals (s : State) (h : Totals) (r : LedgerRead) : State :=
  let (v, s) := s.free
  let s := { s with life := { s.life with
    consumed := h.consumed % 2 ^ 64, lifeHours := v, sumTj := toSigned 12 h.avgTj * 65536 * (v : Int)
    sumP := h.avgPower * 65536 * v } }
  let s := ((s.put .LIFE_HOURS_COUNT 0 h.hours).put .LIFE_SHUTDOWNS_COUNT 0 (h.shutdowns + r.evShut)).put
    .LIFE_ROWS_REPAIRED_COUNT 0 (h.rows + r.evRows)
  let s := ((s.put .LIFE_REFRESH_LAST_SEC 0 h.refreshLast).put .LIFE_REFRESH_NEXT_SEC 0 h.refreshNext).put
    .LIFE_ENTRIES_COUNT 0 r.entry
  ((s.put .LIFE_AVG_TJ 0 h.avgTj).put .LIFE_AVG_POWER 0 h.avgPower).showLife

/-- R444: the retired set is applied. -/
def State.applyRetired (s : State) (x : ServiceSet) : State :=
  let s := ((s.put .LIFE_ENG_RETIRED_BITS 0 x.eng).put .LIFE_PCH_RETIRED_BITS 0 x.pch).put .LIFE_SLU_RETIRED_BITS 0 x.slu
  let subs := (List.range 12).map fun c => x.backends.getD c 255 % 256
  let s := { s with life := { s.life with retLane := x.lane % 2 ^ 64, subs := subs } }
  let s := (List.range 32).foldl (fun s c => if bit x.slu c then s.setSl c { s.sl c with state := 6 } else s) s
  let s := (List.range 64).foldl (fun s l => if bit x.lane l then s.setLane l { s.lane l with state := 8 } else s) s
  (List.range 12).foldl (fun s c =>
    let i := subs.getD c 255
    if i < 12 then
      let n := c * 12 + i
      ((s.setChan n { s.chan n with sub := 2 }).startEnd (spareKey c)).stopEnd n
    else s) s

/-- R432: the ledger read at the entry to BOOT. Events that are not written yet count as well. -/
def State.loadLedger (s : State) (r : LedgerRead) : State :=
  let waiting := s.life.jobs.filter fun j => j.kind == kEvent
  let s := match r.hourly, r.service with
    | some h, some x =>
      ((((s.loadTotals h r).applyRetired x).put .LIFE_STATUS_LEDGER_OK 0 1).put .LIFE_STATUS_LEDGER_NEW 0 0)
    | _, _ =>
      let s := s.newLedger.applyRetired { eng := 0, pch := 0, slu := 0, lane := 0, backends := [] }
      if r.blank then (s.put .LIFE_STATUS_LEDGER_OK 0 1).put .LIFE_STATUS_LEDGER_NEW 0 1
      else ((s.put .LIFE_STATUS_LEDGER_OK 0 0).put .LIFE_STATUS_LEDGER_NEW 0 0).raise .LIFE_EVENT_LEDGER_FAIL
  let s := times (fun s => s.count .LIFE_SHUTDOWNS_COUNT) (waiting.filter fun j => decide (j.cause ≤ 4)).length s
  times (fun s => s.count .LIFE_ROWS_REPAIRED_COUNT) (waiting.filter fun j => j.cause == evRow).length s

/-! ## Patrol scrubbing -/

/-- R443: the pseudo-channel and the row of a 4 KiB granule below the memory top. -/
def State.placeOf (s : State) (g : Nat) : Nat × Nat :=
  let retired (p : Nat) : Bool := bit (s.get .LIFE_PCH_RETIRED_BITS) p
  let work := (List.range 64).filter fun p => !retired p
  let n := work.length
  let p := g % 64
  let q := g / 64
  if retired p then
    (work.getD (q % n) 0, n * 2048 + ((List.range p).filter retired).length * 2048 + q / n)
  else (p, q)

/-- The row that holds an address, numbered over all pseudo-channels. -/
def State.rowOf (s : State) (addr : Nat) : Nat := (s.placeOf (addr / 4096)).1 * 131072 + (s.placeOf (addr / 4096)).2

/-- R437: whether the patrol reads an address: below the top, and its pseudo-channel is not being migrated. -/
def State.patrolled (s : State) (addr : Nat) : Bool :=
  decide (addr < s.hbmTop) && (match s.life.pchBusy with
    | some (p, _) => (s.placeOf (addr / 4096)).1 != p
    | none => true)

/-- R436: a row is repaired, or no spare row is left in its bank. -/
def State.repairRow (s : State) (addr : Nat) (spareRow : Bool) : State :=
  let row := s.rowOf addr
  if spareRow then
    let s := { s with life := { s.life with
      soft := row :: s.life.soft, pass := s.life.pass.filter (· != row), patrolBad := s.life.patrolBad.filter (· != row) } }
    (s.count .LIFE_ROWS_REPAIRED_COUNT).ledger kEvent evRow addr
  else if s.life.spent.contains row then s
  else
    let s := { s with life := { s.life with spent := row :: s.life.spent } }
    (s.raise .LIFE_EVENT_AGEING).ledger kEvent evExhausted addr

/-- R435-R437: the patrol reads a unit: 0 without an error, 1 a corrected error, 2 an uncorrectable one. -/
def State.patrol (s : State) (addr result : Nat) (spareRow lastUnit : Bool) : State :=
  if !s.hbm.trained then s
  else
    let row := s.rowOf addr
    let s := if !s.patrolled addr then s
      else match result with
        | 0 => s
        | 1 =>
          let s := s.count .LIFE_SCRUB_CE_COUNT
          if s.life.patrolBad.contains row then s.repairRow addr spareRow
          else if s.life.pass.contains row then s
          else { s with life := { s.life with pass := row :: s.life.pass } }
        | _ =>
          let s := ((s.count .LIFE_SCRUB_UE_COUNT).raise .LIFE_EVENT_SCRUB_UE).ledger kEvent evScrub addr
          let u := addr / 64 * 64
          let s := { s with life := { s.life with bad := u :: s.life.bad.filter (· != u) } }
          s.repairRow addr spareRow
    if lastUnit then
      { s with life := { s.life with patrolBad := s.life.pass ++ s.life.patrolBad, pass := [] } }.count
        .LIFE_SCRUB_PASSES_COUNT
    else s

/-! ## The flash refresh -/

/-- R438: whether a refresh can run. -/
def State.refreshRuns (s : State) : Bool := (s.dev == .run || s.dev == .test) && s.time.valid

/-- The refresh begins with the slot that is not running. -/
def State.startRefresh (s : State) : State :=
  { s with life := { s.life with refStage := 1, refFails := 0, refWant := false } }.put .LIFE_STATUS_REFRESHING 0 1

/-- R438: the refresh falls due. -/
def State.refreshFalls (s : State) : State :=
  if s.time.valid ∧ s.life.refDueAt = none ∧ s.get .LIFE_REFRESH_NEXT_SEC ≤ secOf s.tick ∧ s.life.refStage = 0 then
    { s with life := { s.life with refDueAt := some s.now } }.put .LIFE_STATUS_REFRESH_DUE 0 1
  else s

/-- R438: a write of REFRESH starts the refresh, once the time is valid. -/
def State.askRefresh (s : State) : State :=
  if s.life.refStage ≠ 0 then s
  else if s.refreshRuns then s.startRefresh
  else { s with life := { s.life with refWant := true } }

/-- R438: the refresh starts 24 hours after it fell due, or as soon as one that was asked for can run. -/
def State.autoRefresh (s : State) : State :=
  let due := match s.life.refDueAt with
    | some x => decide (x + 86400 * qSec ≤ s.now)
    | none => false
  if s.life.refStage = 0 ∧ s.refreshRuns = true ∧ (due || s.life.refWant) = true then s.startRefresh else s

/-- The refresh is over. The flash address reached is a free value: the size of a sector is the flash's. -/
def State.endRefresh (s : State) (done : Bool) : State :=
  let (v, s) := s.free
  let now := secOf s.tick
  let s := { s with life := { s.life with refStage := 0, refFails := 0, refDueAt := none } }
  let s := (s.put .LIFE_STATUS_REFRESHING 0 0).put .LIFE_STATUS_REFRESH_DUE 0 0
  if done then
    let s := (s.put .LIFE_REFRESH_LAST_SEC 0 now).put .LIFE_REFRESH_NEXT_SEC 0 (now + 126230400)
    (s.raise .LIFE_EVENT_REFRESH_DONE).ledger kEvent evRefreshDone (v % 2 ^ 64)
  else
    ((s.put .LIFE_REFRESH_NEXT_SEC 0 (now + 2592000)).raise .LIFE_EVENT_REFRESH_FAIL).ledger kEvent evRefreshFailed (v % 2 ^ 64)

/-- The next slot of the refresh; after both, the ledger changes its half (R439). -/
def State.nextRefreshSlot (s : State) : State :=
  if s.life.refStage = 1 then { s with life := { s.life with refStage := 2, refFails := 0 } }
  else s.changeHalf.endRefresh true

/-- R439, R440: one sector. A slot that fails its check (`slotOk` false) is left untouched; with `good` false as well, the
flash's sectors are larger than the buffer and no refresh is made. -/
def State.refreshSector (s : State) (good lastOfSlot slotOk : Bool) : State :=
  if s.life.refStage = 0 ∨ s.refreshRuns = false then s
  else if !slotOk then (if good then s.nextRefreshSlot else s.endRefresh false)
  else if good then
    let s := { s with life := { s.life with refFails := 0 } }
    if lastOfSlot then s.nextRefreshSlot else s
  else if 3 ≤ s.life.refFails + 1 then s.endRefresh false
  else { s with life := { s.life with refFails := s.life.refFails + 1 } }

/-! ## Retiring and returning units -/

/-- Whether one of `n` descriptors of a list, from an address on, reaches beyond a memory top. -/
def State.listReaches (s : State) (top : Nat) : Nat → Nat → Bool
  | 0, _ => false
  | n + 1, a =>
    let d := s.descAt a
    (decide (d.addr < s.hbmTop) && decide (top < d.addr + d.len)) || (!d.last && s.listReaches top n d.next)

/-- R443: whether a pan, or the addresses of a running or paused Sluice channel, would reach a memory top. -/
def State.reaches (s : State) (top : Nat) : Bool :=
  let past := fun (a : Nat) (len : Nat) => decide (a < s.hbmTop) && decide (top < a + len)
  (List.range 256).any (fun p => s.get .PAN_LEN_LEN p != 0 && past (s.panAddr p) (s.get .PAN_LEN_LEN p * 65536)) ||
    (List.range 32).any fun c =>
      (s.sl c).state != 0 && (s.sl c).state != 4 && (s.sl c).state != 5 && (s.sl c).state != 6 &&
        (past (s.get .SLU_SRC_ADDR c) (s.get .SLU_COUNT_BYTES c) || past (s.get .SLU_DST_ADDR c) (s.get .SLU_COUNT_BYTES c) ||
          (match (s.sl c).desc with
            | some d => past d.addr d.len
            | none => false) ||
          (s.sluList c && s.listReaches top 131072 (s.sl c).list))

/-- R441, R443: the errors of a write of LIFE_UNIT_CMD; of two of one kind in one AOCLK cycle the second is refused (R445). -/
def State.unitError (s : State) (kind index : Nat) (retire ret : Bool) : Option Nat :=
  let range := [numEngines, 64, numSluice].getD kind 0
  let retired := bit (if kind = 0 then s.get .LIFE_ENG_RETIRED_BITS else if kind = 1 then s.get .LIFE_PCH_RETIRED_BITS
    else s.get .LIFE_SLU_RETIRED_BITS) index
  let asked := retire || ret
  let busy := (kind == 0 && s.life.engBusy.isSome) || (kind == 1 && s.life.pchBusy.isSome)
  let late := kind == 2 && (s.life.sluAt.map aoCycle) == some (aoCycle s.now)
  let x := s.sl index
  if asked && late then some eInProgress
  else lowestCode [
    (decide (3 ≤ kind) || decide (range ≤ index) || (retire && ret) || (retire && retired) || (ret && !retired) ||
      (retire && kind == 0 && decide (s.workEngines.length ≤ 1)) ||
      (retire && kind == 1 && s.reaches (s.hbmTop - 2 ^ 29)), eValue),
    (!(s.dev == .run || s.dev == .test || s.dev == .recovery) ||
      (retire && kind == 2 && x.state != 0 && x.state != 4), eState),
    (asked && busy, eInProgress),
    (retire && kind == 2 && x.held.isSome, eHeld)]

/-- R247, R442: the contexts of a list move to engines in turn; those without an open gate, or that wait, at once. -/
def State.moveContexts (s : State) (ns : List (Nat × Nat)) : State :=
  ns.foldl (fun s x =>
    let c := s.ctx x.1
    s.setCtx x.1 { c with move := some x.2, moving := c.gate.isNone || !s.ctxLive x.1 }) s

/-- R443: what lies above the memory top is not kept. -/
def State.dropAbove (s : State) : State :=
  let top := s.hbmTop
  let s := { s with mem := s.mem.filter fun x => decide (x.1 < top) || decide (2 ^ 35 ≤ x.1) }
  { s with life := { s.life with bad := s.life.bad.filter fun u => decide (u < top) } }

/-- R247, R441: the retirement of a unit begins; that of a Sluice channel completes at once. -/
def State.retireUnit (s : State) (kind index : Nat) : State :=
  if kind = 0 then
    let ns := s.armedContexts.filter fun n => s.engineOf n == index
    let s := { s with life := { s.life with engBusy := some (index, true) } }
    let es := s.workEngines
    s.moveContexts (ns.mapIdx fun i n => (n, es.getD (i % max 1 es.length) index))
  else if kind = 1 then
    { s with life := { s.life with pchBusy := some (index, true) } }.dropAbove
  else
    let s := { s with life := { s.life with sluAt := some s.now } }
    ((s.setSl index { s.sl index with state := 6 }).put .LIFE_SLU_RETIRED_BITS 0
      (s.get .LIFE_SLU_RETIRED_BITS ||| 2 ^ index)).unitDone

/-- The registers of a Sluice channel take their reset values. -/
def State.clearSluRegs (s : State) (c : Nat) : State :=
  let gone := fun (k : Nat) =>
    let r := (Fld.ofNat (k % 1024)).desc.reg
    decide (r.desc.blk = .SLU) && decide (r.desc.n1 = 32) && k / 1024 == c
  { s with regs := s.regs.filter fun x => !gone x.1, force := s.force.filter fun x => !gone x.1 }

/-- R247, R441: the return of a unit begins; that of a Sluice channel completes at once. -/
def State.returnUnit (s : State) (kind index : Nat) : State :=
  if kind = 0 then
    let s := { s with life := { s.life with engBusy := some (index, false) } }
    s.moveContexts ((s.armedContexts.filter fun n => n % 24 == index && s.engineOf n != index).map fun n => (n, index))
  else if kind = 1 then { s with life := { s.life with pchBusy := some (index, false) } }
  else
    let s := { s with life := { s.life with sluAt := some s.now } }
    (((s.clearSluRegs index).setSl index {}).put .LIFE_SLU_RETIRED_BITS 0
      (s.get .LIFE_SLU_RETIRED_BITS &&& ((2 ^ 32 - 1) ^^^ 2 ^ index))).unitDone

/-- R443: the migration of a pseudo-channel ends. -/
def State.migrated (s : State) : State :=
  match s.life.pchBusy with
  | some (p, retire) =>
    let now := s.get .LIFE_PCH_RETIRED_BITS
    ({ s with life := { s.life with pchBusy := none } }.put .LIFE_PCH_RETIRED_BITS 0
      (if retire then now ||| 2 ^ p else now &&& ((2 ^ 64 - 1) ^^^ 2 ^ p))).unitDone
  | none => s

/-- R442: the last context of an engine has moved. -/
def State.engineMoved (s : State) : State :=
  match s.life.engBusy with
  | some (e, retire) =>
    if s.ctxs.any fun x => x.2.move.isSome then s
    else
      let now := s.get .LIFE_ENG_RETIRED_BITS
      ({ s with life := { s.life with engBusy := none } }.put .LIFE_ENG_RETIRED_BITS 0
        (if retire then now ||| 2 ^ e else now &&& ((2 ^ 24 - 1) ^^^ 2 ^ e))).unitDone
  | none => s

/-! ## Commands -/

/-- R426: LIFE_HOUR. -/
def execLifeHour (t : Nat) (rings : List (Nat × Int)) (s : State) : Host.Outcome State Fault Refusal :=
  .next ((s.at t).lifeHour rings)

/-- R430: HOURLY. -/
def execHourly (t : Nat) (s : State) : Host.Outcome State Fault Refusal := .next (s.at t).hourlyDue

/-- R431: LEDGER_WRITE; `good` says whether the slot reads back as written. -/
def execLedgerWrite (t : Nat) (good : Bool) (s : State) : Host.Outcome State Fault Refusal :=
  .next ((s.at t).writeLedger good)

/-- R435: PATROL_READ. -/
def execPatrolRead (t addr result : Nat) (spareRow lastUnit : Bool) (s : State) : Host.Outcome State Fault Refusal :=
  .next ((s.at t).patrol addr result spareRow lastUnit)

/-- R438: REFRESH_DUE. -/
def execRefreshDue (t : Nat) (s : State) : Host.Outcome State Fault Refusal := .next (s.at t).refreshFalls

/-- R438: REFRESH_AUTO_START. -/
def execRefreshAutoStart (t : Nat) (s : State) : Host.Outcome State Fault Refusal := .next (s.at t).autoRefresh

/-- R439: REFRESH_SECTOR. -/
def execRefreshSector (t : Nat) (good lastOfSlot slotOk : Bool) (s : State) : Host.Outcome State Fault Refusal :=
  .next ((s.at t).refreshSector good lastOfSlot slotOk)

/-- R443: MIGRATION_DONE. -/
def execMigrationDone (t : Nat) (s : State) : Host.Outcome State Fault Refusal := .next (s.at t).migrated

/-- R442: ENGINE_MOVE_DONE. -/
def execEngineMoveDone (t : Nat) (s : State) : Host.Outcome State Fault Refusal := .next (s.at t).engineMoved

/-- R117: HBM_TRAINING_START: the first training follows the last rail good; BOOT can end before it. -/
def execHbmTrainingStart (t : Nat) (s : State) : Host.Outcome State Fault Refusal :=
  let s := s.at t
  if s.logicState = true ∧ s.dev ≠ .hold ∧ (s.rest kHbm).declared = none ∧ s.hbm.training = none ∧ s.hbm.trained = false ∧
      ((List.range 10).all fun j => s.railOn j && s.get .PWR_RAIL_PG j == 1) = true then
    .next { s with hbm := { s.hbm with training := some s.now } }
  else .next s

/-- R29: HBM_RETRAINING_FAIL. -/
def execHbmRetrainingFail (t : Nat) (s : State) : Host.Outcome State Fault Refusal :=
  let s := s.at t
  if s.hbm.training.isSome then
    let s := { s with hbm := { training := none, trained := false } }
    .next (if (s.rest kHbm).declared.isSome ∧ (s.rest kHbm).began.isSome then s.failRestore kHbm else s.declare kHbm false)
  else .next s

end Sys2Proof.Machine
end

