-- ==== Sys2Proof/Machine/RegStop.lean ====
section
/-!
DEFINITION. How a register write is judged (R407, R412): the fields that a write stores, whether the owner of an ST field
is stopped, the tide gate, and the checks that each register's chapter gives. An error is the lowest code that applies.
-/

namespace Sys2Proof.Machine

/-! ## What a write stores -/

/-- KY fields that hold a value (R99, R396). Every other KY field is a command. -/
def Fld.keyedValue (f : Fld) : Bool :=
  decide (f.desc.acc = .KY) && (decide (f.desc.reg = .HVS_CFG) || decide (f.desc.reg = .LNK_LINK_CFG))

/-- The commands: GO fields and self-clearing KY fields. -/
def Fld.command (f : Fld) : Bool :=
  decide (f.desc.acc = .GO) || (decide (f.desc.acc = .KY) && !f.keyedValue)

/-- Whether a write stores a field: RO fields ignore it (R407), event flags follow R410, commands do not stay (R13), and
KEY reads 0 (R422). -/
def Fld.stores (f : Fld) : Bool := match f.desc.acc with
  | .RW | .SH | .ST | .CT => decide (f ≠ .DEV_TIDEGATE_KEY)
  | .KY => f.keyedValue
  | .RO | .EV | .GO => false

/-- The fields whose write is stored by the effect that it has. -/
def Fld.own (f : Fld) : Bool := match f with
  | .TCH_WIN_CTL_ENABLE | .LNK_LANE_CTL_ENABLE | .LNK_LANE_CTL_P1_REQ | .LNK_QUAD_CTL_PWR | .PWR_ISLAND_FLOOR
  | .CRY_CTL_FREEZE | .VD_CFG_ENABLE => true
  | _ => false

/-- The part of a written word that belongs to a field. -/
def Fld.part (f : Fld) (v : Nat) : Nat := bits v f.desc.lo f.desc.w

/-- Stores the written fields of a register that `p` selects. -/
def State.store (s : State) (r : Reg) (i v : Nat) (p : Fld → Bool) : State :=
  (r.fields.filter fun f => f.stores && p f).foldl (fun s f => s.put f i (f.part v)) s

/-- Whether a write sets a command. -/
def wants (f : Fld) (v : Nat) : Bool := f.part v == 1

/-! ## Stopped owners -/

/-- The unit that an instance of a register belongs to. -/
def Reg.unit (r : Reg) (i : Nat) : Nat := i / r.desc.n2

/-- R187: a timing channel is stopped. -/
def State.chanStopped (s : State) (n : Nat) : Bool := !(s.chan n).pend && !(s.chan n).armed

/-- R218: a waveform channel is stopped. -/
def State.waveStopped (s : State) (n : Nat) : Bool := !(s.wave n).pend && !(s.wave n).armed

/-- R281, R311: an acquisition unit, with its crystalliser and its mask unit, is stopped. -/
def State.acqStopped (s : State) (n : Nat) : Bool := !(s.acq n).pend && !(s.acq n).armed

/-- R367: a lane is stopped. -/
def State.laneStopped (s : State) (l : Nat) : Bool :=
  (s.get .LNK_LANE_CTL_ENABLE l == 0 && (s.lane l).state == 0) || (s.lane l).state == 8

/-- R142: a window monitor is stopped. -/
def State.winStopped (s : State) (n : Nat) : Bool := !s.flag .TCH_WIN_CTL_ENABLE n && !(s.chan n).win.active

/-- R98: no guard subject is armed and no guard task is pending. -/
def State.noGuard (s : State) : Bool :=
  s.gov.guardQ.isEmpty && !((List.range 144).any fun n => (s.chan n).armed && s.srcGuard n) &&
    !((List.range 16).any fun n => ((s.wave n).armed && s.srcGuard (144 + n)) || ((s.acq n).armed && s.aqGuard n)) &&
    !(s.armedContexts.any fun n => s.ctxGuard n)

/-- Whether the owner of the ST fields of a register is stopped (R55, R97, R142, R150, R187, R218, R249, R281, R282, R311,
R313, R322, R344, R367, R396, R423). -/
def State.stopped (s : State) (r : Reg) (i : Nat) : Bool := match r.desc.blk with
  | .PWR => s.noGuard
  | .TB => if r = .TB_SYSREF ∨ r = .TB_SYSREF_SKEW then (List.range 16).all s.waveStopped else s.quiet
  | .TCH =>
    if r = .TCH_INPUT then s.chanStopped i && s.winStopped i
    else if r = .TCH_WIN_CFG then s.winStopped i
    else s.chanStopped i
  | .WCH => s.waveStopped (r.unit i)
  | .MC => !(s.ctx i).pend && !(s.ctx i).armed
  | .AQ | .CRY => s.acqStopped (r.unit i)
  | .PAN => (List.range 16).all fun n => s.acqStopped n || !s.aqStores n || !(s.panSet n).contains i
  | .VD => !s.flag .VD_CFG_ENABLE i
  | .MRK => !(s.marker i).armed
  | .SLU => s.sluStopped i
  | .LNK =>
    if r = .LNK_QUAD_CFG then (List.range 4).all fun x => s.laneStopped (4 * i + x)
    else if r = .LNK_LINK_CTL then (s.linkLanes i).all s.laneStopped
    else s.laneStopped i
  | .DEV | .HVS | .BOOT | .LIFE => true

/-- R407: whether a write changes an ST field while its owner is not stopped. A change of PAIR concerns every channel of the
chain. -/
def State.structural (s : State) (r : Reg) (i v : Nat) : Bool :=
  let changed := r.fields.any fun f => decide (f.desc.acc = .ST) && s.get f i != f.part v
  (changed && !s.stopped r i) ||
    (decide (r = .WCH_SOURCE) && s.get .WCH_SOURCE_PAIR i != Fld.part .WCH_SOURCE_PAIR v &&
      (s.users i).any fun n => !s.waveStopped n)

/-- R407: whether a write needs the tide gate. -/
def State.keyed (s : State) (r : Reg) (i v : Nat) : Bool :=
  r.fields.any fun f => decide (f.desc.acc = .KY) &&
    (if f.keyedValue then s.get f i != f.part v else wants f v)

/-! ## The checks of each register -/

/-- R45: how many channels are guard. -/
def State.guardChannels (s : State) : Nat := ((List.range 160).filter fun k => s.srcGuard k).length

/-- R45, R252: whether a change of class breaks the rules of a live unit: its configuration, or what it shares. -/
def State.classBad (s s1 : State) : Bool :=
  (List.range 16).any fun n => (s.acq n).live && !s.acqBad n && s1.acqBad n
def State.classHeld (s s1 : State) : Bool :=
  (List.range 16).any fun n => (s.acq n).live && !s.acqHeld n && s1.acqHeld n

/-- R214: whether a chain breaks the rules of shared chains. -/
def State.chainBad (s : State) (m : Nat) : Bool :=
  let us := s.users m
  let guards := us.filter fun n => s.flag .WCH_SOURCE_CLASS n
  decide (2 < us.length) || (us.length == 2 && guards.length != 1) ||
    (us.length == 2 && guards.any fun n => !(s.get .WCH_WIN_CFG_MODE n == 1 || s.get .WCH_WIN_CFG_MODE n == 2)) ||
    us.any fun n => n != m && (s.chainOf m != m || s.get .WCH_SOURCE_PAIR n != s.get .WCH_SOURCE_PAIR m ||
      s.get .WCH_JESD_PSET n != s.get .WCH_JESD_PSET m)

/-- R214: whether any chain breaks them. -/
def State.chainsBad (s : State) : Bool := (List.range 16).any fun m => s.chainBad m

/-- R348: whether a lane's link would have lanes in two quads, or more than four. -/
def State.assignBad (s : State) (l : Nat) : Bool :=
  !s.isJesd l &&
    let b := s.get .LNK_LANE_CFG_LINK l
    let ls := (s.linkLanes b).filter fun m => m != l
    (ls.any fun m => m / 4 != l / 4) || decide (3 < ls.length)

/-- R64: a permitted FRAME_LEN. -/
def goodFrame (n : Nat) : Bool := decide (100 ≤ n) && decide (n ≤ 10000000) && 10000000 % n == 0

/-- R69, R189: a permitted SYSREF period. -/
def goodSysref (n : Nat) : Bool := n % 64 == 0 && decide (0 < n) && 10000000 % n == 0

/-- R97: whether the limit, the efficiency and the slice do not fit. -/
def State.budgetBad (s : State) : Bool :=
  decide (s.get .PWR_LIMIT_INPUT_MW * s.get .PWR_CFG_EFF / 1024 * 10 < s.costOf .base + s.get .PWR_GUARD_SLICE_MW * 10)

/-- R250: whether an index lies ahead of MC_RING_WR in ring order. -/
def State.ringAhead (s : State) (new : Nat) : Bool :=
  let rd := s.get .MC_RING_RD_INDEX
  decide ((s.get .MC_RING_WR_INDEX + 4096 - rd) % 4096 < (new + 4096 - rd) % 4096)

/-- Values that a register never takes, and configurations that R38, R45 and the chapters refuse: bus error VALUE. `s1` is
the state as the write would leave it. -/
def State.valueBad (s s1 : State) (r : Reg) (i v : Nat) : Bool :=
  let g := fun f => s1.get f i
  match r with
  | .HVS_CFG => decide (g .HVS_CFG_ILIM < 10) || decide (100 < g .HVS_CFG_ILIM) || decide (4 < g .HVS_CFG_SLEW) ||
      g .HVS_CFG_FAULT_MS == 0
  | .BOOT_CFG => g .BOOT_CFG_FORCE == 3
  | .TB_REF_CFG => g .TB_REF_CFG_BW == 3
  | .TB_PPS_CFG => g .TB_PPS_CFG_MODE == 3 || g .TB_PPS_CFG_WAIT == 0 || g .TB_PPS_CFG_TOL == 0
  | .TB_FRAME => !goodFrame (g .TB_FRAME_LEN)
  | .TB_PPS_OUT => g .TB_PPS_OUT_WIDTH == 0 || decide (10000000 ≤ g .TB_PPS_OUT_WIDTH)
  | .TB_SYSREF => !goodSysref (g .TB_SYSREF_PERIOD) || g .TB_SYSREF_MODE == 3 || g .TB_SYSREF_COUNT == 0
  | .TCH_WIN_CFG =>
    let n := g .TCH_WIN_CFG_N
    n % 2 == 0 || decide (g .TCH_WIN_CFG_M < (n + 1) / 2) || decide (n < g .TCH_WIN_CFG_M) || g .TCH_WIN_CFG_LATCH == 3
  | .TCH_BE_CFG => g .TCH_BE_CFG_EDGES == 3 ||
      (s.get .TCH_BE_CFG_CLASS i != g .TCH_BE_CFG_CLASS && (decide (16 < s1.guardChannels) || s.classBad s1))
  | .WCH_SOURCE => g .WCH_SOURCE_PAIR == 3 || g .WCH_SOURCE_EDGES == 3 || (!s.chainsBad && s1.chainsBad) ||
      (s.get .WCH_SOURCE_CLASS i != g .WCH_SOURCE_CLASS && (decide (16 < s1.guardChannels) || s.classBad s1))
  | .WCH_JESD => g .WCH_JESD_PSET == 3 || decide (95 < g .WCH_JESD_RBD) || (!s.chainsBad && s1.chainsBad)
  | .WCH_WIN_CFG => g .WCH_WIN_CFG_MODE == 3 || (!s.chainsBad && s1.chainsBad)
  | .WCH_FILT => g .WCH_FILT_FC == 0
  | .WCH_NOTCH => decide (32768 < g .WCH_NOTCH_F)
  | .MC_RING_RD => s.ringAhead (g .MC_RING_RD_INDEX)
  | .AQ_POST => g .AQ_POST_WORDS == 0
  | .PAN_LEN => decide (524288 < s.get .PAN_BASE_BASE i + g .PAN_LEN_LEN)
  | .VD_CFG => !s.flag .VD_CFG_ENABLE i && s1.flag .VD_CFG_ENABLE i && s1.ruleBad i
  | .MRK_CFG => g .MRK_CFG_LATCH == 3
  | .MRK_CTL => !(s.marker i).armed && g .MRK_CTL_ARM == 1 && s.markerBad i
  | .TRIP_CFG => g .TRIP_CFG_LATCH == 3
  | .LNK_QUAD_CFG => g .LNK_QUAD_CFG_RATE == 3 || (g .LNK_QUAD_CFG_RATE == 2 &&
      (decide (i < 8) || g .LNK_QUAD_CFG_SSC_TX == 1 || g .LNK_QUAD_CFG_SSC_RX == 1)) ||
      (List.range 4).any fun x => (s1.lane (4 * i + x)).cfg && s.isJesd (4 * i + x) && s1.assignBad (4 * i + x)
  | .LNK_LANE_CFG => s1.assignBad i
  | .LNK_LANE_PRESET => !ffeOk (g .LNK_LANE_PRESET_PRE) (g .LNK_LANE_PRESET_MAIN) (g .LNK_LANE_PRESET_POST)
  | .LNK_LINK_CFG => g .LNK_LINK_CFG_REG == 3
  | .LNK_LINK_CTL =>
    let n := (s.linkLanes i).length
    g .LNK_LINK_CTL_ENABLE == 1 && !(n == 1 || n == 2 || n == 4)
  | .DEV_CMD => wants .DEV_CMD_ENTER_TEST v && wants .DEV_CMD_LEAVE_TEST v
  | _ => false

/-- Commands and configurations that the present state does not admit: bus error STATE. A command for TEST or RUN that loses
against an event of its AOCLK cycle is accepted without effect (R30). -/
def State.stateBad (s s1 : State) (r : Reg) (i v : Nat) : Bool := match r with
  | .DEV_CMD => (wants .DEV_CMD_ENTER_TEST v && s.dev != .run && !s.outranked .run) ||
      (wants .DEV_CMD_LEAVE_TEST v && s.dev != .test && !s.outranked .test) ||
      (wants .DEV_CMD_HARVEST v && s.dev == .boot)
  | .BOOT_CMD => wants .BOOT_CMD_REBOOT v && !s.rebootTaken
  | .TB_CMD => (wants .TB_CMD_REALIGN v && !(s.quiet && s.time.valid)) || (wants .TB_CMD_SET_SEC v && !s.quiet)
  | .TCH_BE_CFG => s1.flag .TCH_BE_CFG_CAL_BYPASS i && s.dev != .test
  | .CRY_CMD => wants .CRY_CMD_RELEASE v && !s.acqStopped i
  | .SLU_ENGINE_CTL => wants .SLU_ENGINE_CTL_RESUME v && !s.slu.halted
  | .LNK_LANE_CTL => s1.flag .LNK_LANE_CTL_MANUAL_SLIP i && s.dev != .test
  | .LNK_LANE_CMD => wants .LNK_LANE_CMD_SLIP v && s.dev != .test
  | .LIFE_CMD => wants .LIFE_CMD_REFRESH v && !(s.dev == .run || s.dev == .test)
  | _ => false

/-- The errors that the chapters give with codes of their own, for a write by a port. -/
def State.unitErrors (s s1 : State) (p : Nat) (r : Reg) (i v : Nat) : List (Option Nat) := match r with
  | .TCH_WIN_CTL => [s.winError i (s1.get .TCH_WIN_CTL_ENABLE i)]
  | .TCH_ARM => [if wants .TCH_ARM_ARM v then s.armChanError i else none]
  | .TCH_BE_CFG => [if s.get .TCH_BE_CFG_CLASS i != s1.get .TCH_BE_CFG_CLASS i && s.classHeld s1 then some eHeld else none]
  | .WCH_SOURCE => [if s.get .WCH_SOURCE_CLASS i != s1.get .WCH_SOURCE_CLASS i && s.classHeld s1 then some eHeld else none]
  | .TCH_BE_CMD => [s.retireError i (wants .TCH_BE_CMD_RETIRE v) (wants .TCH_BE_CMD_RETURN v)]
  | .WCH_ARM => [if wants .WCH_ARM_ARM v then s.armWaveError i else none]
  | .MC_CTL => [if wants .MC_CTL_ARM v then s.armContextError i else none]
  | .AQ_ARM => [if wants .AQ_ARM_ARM v then s.armAcqError i (p == 2) else none]
  | .PAN_STATUS => [if wants .PAN_STATUS_RELEASE v then s.releaseError i else none]
  | .SLU_CTL => [if wants .SLU_CTL_GO v then s.goError i else none,
      if wants .SLU_CTL_DISABLE v then s.stopError i false else none,
      if wants .SLU_CTL_PAUSE v || wants .SLU_CTL_RESUME v then s.stopError i true else none]
  | .LNK_QUAD_CTL => [s.pwrError i (s1.get .LNK_QUAD_CTL_PWR i)]
  | .LNK_LANE_CMD => [s.laneCmdError i (wants .LNK_LANE_CMD_RETIRE v) (wants .LNK_LANE_CMD_RETURN v)]
  | .LIFE_UNIT_CMD => [s.unitError (s1.get .LIFE_UNIT_CMD_KIND) (s1.get .LIFE_UNIT_CMD_INDEX)
      (wants .LIFE_UNIT_CMD_RETIRE v) (wants .LIFE_UNIT_CMD_RETURN v)]
  | .LIFE_CMD => [if wants .LIFE_CMD_REFRESH v && s.flag .LIFE_STATUS_REFRESHING then some eInProgress else none]
  | .DEV_CMD => [if wants .DEV_CMD_HARVEST v && s.bank.busy then some eInProgress else none]
  | .PWR_CFG | .PWR_LIMIT | .PWR_GUARD => [if s1.budgetBad then some eBudget else none]
  | _ => []

/-- R412: the error of a write of a whole register, if it has one. The image port needs no gate in BOOT (R113). -/
def State.writeError (s : State) (p : Nat) (r : Reg) (i v : Nat) : Option Nat :=
  let s1 := s.store r i v fun _ => true
  let gated := (s.port p).gate || (p == 2 && s.dev == .boot)
  lowestCode ([(s.structural r i v, eStructural), (s.keyed r i v && !gated, eKeyed), (s.valueBad s1 r i v, eValue),
    (s.stateBad s1 r i v, eState)] ++ (s.unitErrors s1 p r i v).map fun e => (e.isSome, e.getD 0))

end Sys2Proof.Machine
end

