-- ==== Sys2Proof/Machine/RegWrite.lean ====
section
/-!
DEFINITION. What an accepted register write does: the fields it stores, the event flags it writes back (R410, R472), and the
effect that each register's chapter gives it.
-/

namespace Sys2Proof.Machine

/-! ## Write-back of events -/

/-- R410: the flags of an event register that a write with the present SEQ clears. -/
def State.writeBack (s : State) (r : Reg) (i v : Nat) : State :=
  match (r.fields.filter fun f => decide (f.desc.acc = .EV)) with
  | [] => s
  | f :: fs =>
    if v / 2 ^ 24 % 256 = s.get f.seqOf i then
      (f :: fs).foldl (fun s g => s.put g i (s.get g i - (s.get g i &&& g.part v))) s
    else s

/-- R472, R146, R320: whether a write releases a latch: a matching SEQ with TRIPPED written as 1. -/
def State.releases (s : State) (f : Fld) (i v : Nat) : Bool :=
  v / 2 ^ 24 % 256 == s.get f.seqOf i && wants f v

/-- R145, R146: a SEQ latch of a monitor is released, unless the filter output is asserted. -/
def State.releaseWin (s : State) (n : Nat) : State :=
  let c := s.chan n
  if c.win.out || s.get .TCH_WIN_CFG_LATCH n != 1 then s else (s.setChan n { c with win := { c.win with latch := false } }).settleTrips

/-- R320: the latch of an output is released. -/
def State.releaseMarker (s : State) (k : Nat) : State := (s.setMarker k { s.marker k with latch := false }).settleTrips
def State.releaseTrip (s : State) (i : Nat) : State := (s.setTrip i { s.trip i with latch := false }).settleTrips

/-! ## Commits -/

/-- R132, R113: TCH_FE_COMMIT. -/
def State.commitFe (s : State) (n : Nat) : State :=
  let c := s.chan n
  if s.dev = .boot ∧ s.chanStopped n = true ∧ s.winStopped n = true then s.applyFe n s.now none
  else if c.commit.isSome then s
  else s.setChan n { c with commit := some s.now }

/-- R201, R113: WCH_COMMIT. -/
def State.commitWave (s : State) (n : Nat) : State :=
  let c := s.wave n
  if s.dev = .boot ∧ s.waveStopped n = true then s.applyWave n s.now
  else if c.commit.isSome then s
  else s.setWave n { c with commit := some s.now }

/-- R330: SLU_COMMIT: at once on a channel that is not active. -/
def State.commitList (s : State) (c : Nat) : State :=
  let x := s.sl c
  if x.state = 0 ∨ 3 < x.state then s.applyList c
  else if x.commit.isSome then s
  else s.setSl c { x with commit := some s.now }

/-- R65, R113: TB_FRAME_COMMIT. -/
def State.commitFrame (s : State) : State :=
  if s.dev = .boot ∧ s.time.valid = false then s.applyFrameLen
  else if s.time.frameCom.isSome then s
  else { s with time := { s.time with frameCom := some s.now } }

/-! ## Commands of single registers -/

/-- R417: a Harvest begins: H is the first 100 ns boundary at least 1 µs later; before time valid it is 1 µs later, and the
tag is 0. -/
def State.startHarvest (s : State) : State :=
  let x := s.now + qUs
  let tick : Int := s.time.origin + (((x + qTick - 1) / qTick : Nat) : Int)
  let h := (tick + tPer - 1) / (tPer : Int) * tPer
  let (due, tag) := if s.time.valid then (s.instOf h, time64 h) else (x, 0)
  { s with bank := { s.bank with busy := true, due := some due, time := tag } }

/-- R337, R344: DISABLE_ALL. -/
def State.disableAll (s : State) : State :=
  (List.range 32).foldl (fun s c => if (s.sl c).held.isSome then s else s.disableSlu c) s

/-- R340: RESUME of the engine: it is reset, and the device returns to the state it came from. -/
def State.resumeEngine (s : State) : State :=
  let s := s.resetSluice
  if (s.rest kSluice).declared.isSome then s.endRestore kSluice else s

/-- R377, R120: a write of ENABLE of a link. -/
def State.enableLink (s : State) (b en : Nat) (was : Nat) : State :=
  let x := s.link b
  if en = was then s
  else if en = 1 then
    ((s.linkLanes b).foldl State.noteEnable (s.setLink b { x with pend := true })).submit 1 (.link b)
  else if x.pend then (s.setLink b { x with pend := false }).retract (.link b)
  else
    let s := s.setLink b { x with up := false }
    ((s.linkLanes b).foldl (fun s l => s.releaseCost (.lane l)) s).noteBoot

/-- R348, R353: a write of LNK_LANE_CFG assigns the lane. -/
def State.assignLane (s : State) (l : Nat) : State := (s.setLane l { s.lane l with cfg := true }).wakeLanes

/-- R69: a burst of SYSREF begins at the next boundary of its period. -/
def State.burstSysref (s : State) : State :=
  if s.get .TB_SYSREF_MODE = 2 then
    { s with time := { s.time with burst := s.get .TB_SYSREF_COUNT, sysref := max s.time.sysref s.tick } }
  else s

/-! ## The effect of each register -/

/-- R67, R416: PPS_IN, which takes edges without an arm of its own, stops before its delay changes and starts again with an ARM
anchor on the new recorded scale. -/
def State.stopPps (s : State) (v : Nat) : State :=
  if (s.src srcPps).taking && Fld.part .TB_PPS_DELAY_TICKS v != s.get .TB_PPS_DELAY_TICKS then s.stopAt srcPps (s.nextBound srcPps) else s
def State.startPps (s was : State) : State :=
  if (was.src srcPps).taking && was.get .TB_PPS_DELAY_TICKS != s.get .TB_PPS_DELAY_TICKS then s.startTaking srcPps (ceilCoarse (s.recTick srcPps)) else s

/-- What a write of a register of DEV, PWR, HVS, BOOT, TB or LIFE does, `was` being the state before it, besides storing its fields. -/
def State.effectAo (s was : State) (p : Nat) (r : Reg) (i v : Nat) : State := match r with
  | .DEV_TIDEGATE => s.setPort p { s.port p with gate := Fld.part .DEV_TIDEGATE_KEY v == 0x5A17 }
  | .DEV_CMD =>
    let s := if wants .DEV_CMD_HARVEST v then s.startHarvest else s
    if wants .DEV_CMD_ENTER_TEST v ∧ s.dev = .run then s.setDev .test
    else if wants .DEV_CMD_LEAVE_TEST v ∧ s.dev = .test then s.setDev .run
    else s
  | .PWR_ISLAND => s.setFloor i (Fld.part .PWR_ISLAND_FLOOR v)
  | .PWR_CMD => if wants .PWR_CMD_RAIL_RETRY v then s.retryRails else s
  | .HVS_CMD =>
    let s := if wants .HVS_CMD_PEAK_CLEAR v then s.put .HVS_PEAK_MW 0 0 else s
    if wants .HVS_CMD_FET_RESTART v then s.restartFet else s
  | .BOOT_CMD => if wants .BOOT_CMD_REBOOT v then s.reboot else s
  | .TB_REF_CFG => s.freqWritten
  | .TB_PPS_DELAY => s.startPps was
  | .TB_CMD =>
    let s := if wants .TB_CMD_REALIGN v then { s with time := { s.time with realign := some s.now } } else s
    let s := if wants .TB_CMD_SET_SEC v then s.acceptSec (s.get .TB_SEC_SET_SEC) false else s
    if wants .TB_CMD_SYSREF_BURST v then s.burstSysref else s
  | .TB_LEAP => s.announce (s.get .TB_LEAP_SEC)
  | .TB_FRAME_COMMIT => if wants .TB_FRAME_COMMIT_COMMIT v then s.commitFrame else s
  | .TB_SYSREF => { s with time := { s.time with sysref := max s.time.sysref s.tick } }
  | .LIFE_UNIT_CMD =>
    let kind := s.get .LIFE_UNIT_CMD_KIND
    let index := s.get .LIFE_UNIT_CMD_INDEX
    if wants .LIFE_UNIT_CMD_RETIRE v then s.retireUnit kind index
    else if wants .LIFE_UNIT_CMD_RETURN v then s.returnUnit kind index
    else s
  | .LIFE_CMD =>
    let s := if wants .LIFE_CMD_REFRESH v then s.askRefresh else s
    if wants .LIFE_CMD_LEDGER_SYNC v then s.ledger kHourly else s
  | _ => s

/-- What a write of a register of a timing or waveform channel does. -/
def State.effectChan (s was : State) (r : Reg) (i v : Nat) : State := match r with
  | .TCH_FE_COMMIT => if wants .TCH_FE_COMMIT_COMMIT v then s.commitFe i else s
  | .TCH_WIN_CFG => s.settleTrips
  | .TCH_BE_CFG => if was.flag .TCH_BE_CFG_CAL_BYPASS i && !s.flag .TCH_BE_CFG_CAL_BYPASS i then s.endBypass i else s
  | .TCH_WIN_CTL => s.enableWin i (Fld.part .TCH_WIN_CTL_ENABLE v)
  | .TCH_ARM => if wants .TCH_ARM_ARM v then s.armChan i else s.disarmChan i
  | .TCH_BE_CMD =>
    let s := if wants .TCH_BE_CMD_RETIRE v then s.retire i (wants .TCH_BE_CMD_RETIRE_NOW v)
      else if wants .TCH_BE_CMD_RETURN v then s.beBack i
      else s
    if wants .TCH_BE_CMD_CAL_RESTART v then s.calRestart i else s
  | .WCH_ARM => if wants .WCH_ARM_ARM v then s.armWave i else s.disarmWave i
  | .WCH_COMMIT => if wants .WCH_COMMIT_COMMIT v then s.commitWave i else s
  | _ => s

/-- What a write of a register of a context, a capture unit, a pan, a crystalliser, a rule, a marker or a trip output does. -/
def State.effectUnit (s : State) (r : Reg) (i v : Nat) : State := match r with
  | .MC_CTL =>
    let s := if wants .MC_CTL_ARM v then s.armCtx i else s.disarmCtx i
    let s := if wants .MC_CTL_RESTART v then s.restartCtx i else s
    if wants .MC_CTL_STAB_CLEAR v then s.clearStab i else s
  | .AQ_ARM => if wants .AQ_ARM_ARM v then s.armAcq i else s.disarmAcq i
  | .AQ_CMD =>
    if wants .AQ_CMD_ABORT v then s.abortAcq i
    else if wants .AQ_CMD_FORCE v then s.forceAcq i
    else s
  | .PAN_STATUS => if wants .PAN_STATUS_RELEASE v then s.releasePan i else s
  | .CRY_CTL => s.freezeCry i (wants .CRY_CTL_FREEZE v)
  | .CRY_CMD =>
    let s := if wants .CRY_CMD_CLEAR v then s.clearCry i else s
    if wants .CRY_CMD_RELEASE v then s.releaseCry i else s
  | .VD_CFG => s.enableRule i (wants .VD_CFG_ENABLE v)
  | .MRK_CTL => if wants .MRK_CTL_ARM v then s.armMarker i else s.disarmMarker i
  | .MRK_CFG | .MRK_TRIPSEL | .TRIP_CFG | .TRIP_SEL => s.settleTrips
  | _ => s

/-- What a write of a register of Sluice does. -/
def State.effectSlu (s : State) (r : Reg) (i v : Nat) : State := match r with
  | .SLU_CTL =>
    let s := if wants .SLU_CTL_GO v then s.goSlu i else s
    if wants .SLU_CTL_DISABLE v then s.disableSlu i
    else if wants .SLU_CTL_PAUSE v then s.pauseSlu i
    else if wants .SLU_CTL_RESUME v then s.resumeSlu i
    else s
  | .SLU_COMMIT => if wants .SLU_COMMIT_COMMIT v then s.commitList i else s
  | .SLU_ENGINE_CTL =>
    let s := if wants .SLU_ENGINE_CTL_DISABLE_ALL v then s.disableAll else s
    if wants .SLU_ENGINE_CTL_RESUME v then s.resumeEngine else s
  | _ => s

/-- What a write of a register of the lanes and links does; `was` is the state before it. -/
def State.effectLnk (s was : State) (r : Reg) (i v : Nat) : State := match r with
  | .LNK_QUAD_CTL => s.writePwr i (Fld.part .LNK_QUAD_CTL_PWR v)
  | .LNK_QUAD_CFG => s.wakeLanes
  | .LNK_LANE_CFG => s.assignLane i
  | .LNK_LANE_CTL =>
    let s := s.enableLane i (Fld.part .LNK_LANE_CTL_ENABLE v)
    let q := Fld.part .LNK_LANE_CTL_P1_REQ v
    if q = s.get .LNK_LANE_CTL_P1_REQ i then s else s.reqP1 i q
  | .LNK_LANE_CMD =>
    let s := if wants .LNK_LANE_CMD_RETRAIN v then s.retrainLane i else s
    let s := if wants .LNK_LANE_CMD_SLIP v then s.slipLane i else s
    if wants .LNK_LANE_CMD_RETIRE v then s.laneRetire i
    else if wants .LNK_LANE_CMD_RETURN v then s.laneReturn i
    else s
  | .LNK_LINK_CTL => s.enableLink i (Fld.part .LNK_LINK_CTL_ENABLE v) (was.get .LNK_LINK_CTL_ENABLE i)
  | _ => s

/-- What a write of an event register releases besides its flags. -/
def State.effectEvent (s was : State) (r : Reg) (i v : Nat) : State := match r with
  | .TCH_WIN_EVENT => if was.releases .TCH_WIN_EVENT_TRIPPED i v then s.releaseWin i else s
  | .MRK_EVENT => if was.releases .MRK_EVENT_TRIPPED i v then s.releaseMarker i else s
  | .TRIP_EVENT => if was.releases .TRIP_EVENT_TRIPPED i v then s.releaseTrip i else s
  | _ => s

/-- An accepted write of a whole register by a port. -/
def State.writeReg (s : State) (p : Nat) (r : Reg) (i v : Nat) : State :=
  let was := s
  let s := if r = .TB_PPS_DELAY then s.stopPps v else s
  let s := (s.writeBack r i v).store r i v fun f => !f.own
  let s := s.effectEvent was r i v
  match r.desc.blk with
  | .DEV | .PWR | .HVS | .BOOT | .TB | .LIFE => s.effectAo was p r i v
  | .TCH | .WCH => s.effectChan was r i v
  | .MC | .AQ | .CRY | .PAN | .VD | .MRK => s.effectUnit r i v
  | .SLU => s.effectSlu r i v
  | .LNK => s.effectLnk was r i v

end Sys2Proof.Machine
end

