-- ==== Sys2Proof/Machine/Windows.lean ====
section
/-!
DEFINITION. Where a register address leads (R405): the registers of the tables, the Harvest holding bank (R245), and the
windows of the crystallisers (R290); and what the bank and the windows show.
-/

namespace Sys2Proof.Machine

/-- What a mapped address names: a word of a register instance, a word of the holding bank, or a byte offset in the window of
a crystalliser. -/
inductive Place where
  | reg (r : Reg) (i : Nat) (high : Bool)
  | bank (a : Nat)
  | window (n off : Nat)
  deriving DecidableEq, Repr

/-- The instance and the word of a register that lie at an address. -/
def Reg.at_ (r : Reg) (a : Nat) : Option (Nat × Bool) :=
  let d := r.desc
  if a < d.base then none
  else
    let off := a - d.base
    let u := if d.st = 0 then 0 else off / d.st
    let rest := off - u * d.st
    let e := if d.ast = 0 then 0 else rest / d.ast
    let last := rest - e * d.ast
    if d.n1 ≤ u then none
    else if e < d.n2 ∧ last = 0 then some (u * d.n2 + e, false)
    else if e < d.n2 ∧ d.pair = true ∧ last = 4 then some (u * d.n2 + e, true)
    else none

/-- The address of the first word of a register instance. -/
def Reg.addr (r : Reg) (i : Nat) : Nat := r.desc.base + i / r.desc.n2 * r.desc.st + i % r.desc.n2 * r.desc.ast

/-- The first hit of a search. -/
def findReg (a : Nat) : List Reg → Option Place
  | [] => none
  | r :: rs => match r.at_ a with
    | some (i, high) => some (.reg r i high)
    | none => findReg a rs

/-- R405: the block whose address range holds an address, for the ranges of which there is one block. -/
def blkAt (a : Nat) : List Blk :=
  if a < 0x10000 then [.DEV]
  else if a < 0x20000 then [.PWR]
  else if a < 0x30000 then [.HVS]
  else if a < 0x40000 then [.BOOT]
  else if a < 0x50000 then [.TB]
  else if a < 0x60000 then [.LIFE]
  else if a < 0x1000000 then []
  else if a < 0x2000000 then [.TCH]
  else if a < 0x3000000 then [.WCH]
  else if a < 0x4000000 then [.MC]
  else if a < 0x4800000 then [.AQ, .CRY]
  else if a < 0x4900000 then [.PAN]
  else if a < 0x5000000 then [.VD]
  else if a < 0x6000000 then [.SLU]
  else if a < 0x7000000 then [.LNK]
  else if a < 0x8000000 then [.MRK]
  else []

/-- R405, R290: what the word at an address names; a part of a window without a granule is not mapped. -/
def State.placeAt (s : State) (a : Nat) : Option Place :=
  if 0x8000000 ≤ a then
    let n := (a - 0x8000000) / 0x800000
    let off := (a - 0x8000000) % 0x800000
    if n < 16 ∧ off / 0x40000 < (s.cry n).granules.length then some (.window n off) else none
  else if 0x3080000 ≤ a ∧ a < 0x3200000 then some (.bank a)
  else findReg a ((blkAt a).map Blk.regs).flatten

/-! ## The holding bank -/

/-- Whether a field belongs to the register image of a context. -/
def Fld.ofContext (f : Fld) : Bool := decide (f.desc.reg.desc.blk = .MC) && decide (f.desc.reg.desc.n1 = 8192)

/-- What the bank keeps of the present values: the CT fields, and the images of the contexts. The status of a context stands
as its difference from that of an idle one, whose engine is its home (R247). -/
def State.harvestRegs (s : State) : SMap Nat :=
  let kept := s.regs.filter fun x =>
    let f := Fld.ofNat (x.1 % 1024)
    decide (f.desc.acc = .CT) || f.ofContext
  let ns := (s.ctxs.map fun x => [x.1, x.1 + 1, x.1 + 2, x.1 + 3]).flatten.eraseDups
  ns.foldl (fun m n =>
    (Reg.MC_STATUS.fields).foldl (fun m f =>
      let v := s.view 0 f n
      let v := if f = .MC_STATUS_ENGINE then (v + 24 - n % 24) % 24 else v
      SMap.set regDefault m (f.key n) v) m) kept

/-- A field of the image of a context in the bank. -/
def Bank.field (b : Bank) (f : Fld) (n : Nat) : Nat :=
  let v := SMap.get regDefault b.regs (f.key n)
  if f.command then 0
  else if f = .MC_STATUS_ENGINE then (v + n % 24) % 24
  else v

/-- R245: the eight-byte word of a stability page, by its number. -/
def Stab.pageWord (a : Stab) (w : Nat) : Nat :=
  if a.owner.isNone then 0
  else if w = 0 then a.tau
  else if w = 1 then a.samples
  else if w = 2 then a.last
  else if w = 3 then a.owner.getD 0 + a.flags % 65536 * 65536
  else if w < 8 ∨ 8 + 4 * 24 ≤ w then 0
  else
    let k := (w - 8) / 4
    let o := a.octaves.getD k {}
    let m := 2 ^ k
    let tau := m * a.tau
    match (w - 8) % 4 with
    | 0 => binary64 o.sa (2 * tau ^ 2 * o.na)
    | 1 => binary64 o.sm (2 * m ^ 2 * tau ^ 2 * o.nm)
    | 2 => binary64 o.sm (6 * m ^ 2 * o.nm * tSec ^ 2)
    | _ => o.na + o.nm * 2 ^ 32

/-- R245: a 32-bit word of the bank. -/
def Bank.word (b : Bank) (a : Nat) : Nat :=
  if a < 0x3100000 then
    match findReg (a - 0x80000) Blk.MC.regs with
    | some (.reg r n high) =>
      let v := (r.fields.map fun f => b.field f n * 2 ^ f.desc.lo).sum
      if high then v / 2 ^ 32 % 2 ^ 32 else v % 2 ^ 32
    | _ => 0
  else
    let j := (a - 0x3100000) / 0x400
    let off := (a - 0x3100000) % 0x400
    let v := (SMap.get (fun _ => {}) b.stabs j).pageWord (off / 8)
    if off % 8 = 4 then v / 2 ^ 32 % 2 ^ 32 else v % 2 ^ 32

/-- R417: while the bank is being filled, each part reads either from the new Harvest or from the one before, by a free
value. -/
def State.bankState (s : State) : State :=
  if s.bank.busy ∧ s.bank.due = none then
    let (v, s) := s.free
    if v % 2 = 1 then { s with bank := { s.bank with regs := s.bank.next, stabs := s.bank.nextStabs } } else s
  else s

/-- The counter of free values advances with a read of a bank that is being filled. -/
def State.afterBank (s : State) : State := if s.bank.busy ∧ s.bank.due = none then s.free.2 else s

/-- R290: a 32-bit word of the window of a crystalliser. -/
def State.windowWord (s : State) (n off : Nat) : Nat :=
  s.readLe (granuleAddr ((s.cry n).granules.getD (off / 0x40000) 0) + off % 0x40000) 4

end Sys2Proof.Machine
end

