-- ==== Sys2Proof/Machine/Access.lean ====
section
/-!
DEFINITION. The register crossing (R397-R420): one read or write of a port, with its bus errors, pair latches and tide gate;
and the ports that feed it from a pin: the SPI management port (R399-R403) and JTAG (R404). A command is one accepted access,
so that accesses of several ports in one cycle come one after another (R420).
-/

namespace Sys2Proof.Machine

/-! ## Bus errors -/

/-- R413: records a bus error. -/
def State.busError (s : State) (p : Nat) (wr : Bool) (a code : Nat) : State :=
  let s := s.raise .DEV_EVENT_BUS_ERROR
  let s := ((s.put .DEV_BUSERR_CODE 0 code).put .DEV_BUSERR_PORT 0 p).put .DEV_BUSERR_WRITE 0 (b2n wr)
  (s.put .DEV_BUSERR_ADDR_ADDR 0 a).count .DEV_BUSERR_COUNT_COUNT

/-- The outcome of an access: the data read, the error code, and whether it was served (R403). -/
structure Reply where
  data   : Nat := 0
  err    : Nat := 0
  served : Bool := true
  deriving DecidableEq, Repr

/-! ## Which accesses are served -/

/-- The block of a place. -/
def Place.blk : Place → Blk
  | .reg r _ _ => r.desc.blk
  | .bank _ => .MC
  | .window _ _ => .CRY

/-- R403, R122: whether a port's access is served in AUX and BOOT. -/
def State.servedAt (s : State) (p a : Nat) (wr : Bool) : Bool :=
  if (s.dev == .aux || s.dev == .boot) && p != 2 then
    let reg := a % 2 ^ 28 / 4 * 4
    if 2 ^ 31 ≤ a then false
    else if wr then
      reg == Reg.addr .BOOT_CFG 0 || reg == Reg.addr .DEV_TIDEGATE 0 || reg == Reg.addr .BOOT_CMD 0
    else decide (reg < 0x10000) || (decide (0x30000 ≤ reg) && decide (reg < 0x40000))
  else true

/-- R122: whether HOLD serves a place. -/
def State.holdServes (s : State) (x : Place) : Bool := s.dev != .hold || x.blk.ao

/-- R14, R407, R414: whether a register may be reached through an alias. -/
def Reg.aliasable (r : Reg) : Bool :=
  (r.fields.all fun f => decide (f.desc.acc = .RW) || decide (f.desc.acc = .SH) || decide (f.desc.acc = .RO)) &&
    decide (r ≠ .DEV_TIDEGATE)

def Place.aliasable : Place → Bool
  | .reg r _ _ => r.aliasable
  | .bank _ | .window _ _ => true

/-- R407: whether every field of a place is RO. -/
def Place.readOnly : Place → Bool
  | .reg r _ _ => r.fields.all fun f => decide (f.desc.acc = .RO)
  | .bank _ | .window _ _ => true

/-- R408: whether a place is the low word of a pair. -/
def Place.lowWord : Place → Bool
  | .reg r _ high => r.desc.pair && !high
  | .bank _ | .window _ _ => false

/-! ## Reads -/

/-- A 32-bit word as a read returns it, and the high word that the read latches. -/
def State.readPlace (s : State) (p : Nat) (held : Bool) (key : Nat) (x : Place) : Nat × Option (Nat × Nat) :=
  match x with
  | .reg r i high =>
    let v := (if held then s.bankState else s).readReg p held r i
    if high then
      (match (s.port p).rd with
        | some (k, w) => if k = key then w else v / 2 ^ 32 % 2 ^ 32
        | none => v / 2 ^ 32 % 2 ^ 32, none)
    else (v % 2 ^ 32, if r.desc.pair then some (key + 4, v / 2 ^ 32 % 2 ^ 32) else none)
  | .bank a => (s.bankState.bank.word a, none)
  | .window n off => (s.windowWord n off, none)

/-- R408, R412: the error of a read of `w` bytes. -/
def State.readError (s : State) (a w : Nat) : Option Nat :=
  let reg := a % 2 ^ 28
  let al := bits a 28 2
  let held := bit a 30
  match (if 2 ^ 31 ≤ a then none else s.placeAt (reg / 4 * 4)) with
  | none => some eUnmapped
  | some x => lowestCode [(a % w != 0, eAlign), (al != 0 && (held || !x.aliasable), eAlias),
      (!s.holdServes x, eState), (w != 4 && x.lowWord, eSide)]

/-- R409: a port's latches fall at its next access; a held low word that is dropped is a bus error PAIR, and as a write it
closes the tide gate (R414, log entry 62). -/
def State.dropPair (s : State) (p : Nat) : State :=
  match (s.port p).wr with
  | some (a, _) =>
    ((s.setPort p { s.port p with rd := none, wr := none, gate := false }).busError p true a ePair).raise .DEV_EVENT_PAIR_DROP
  | none => s.setPort p { s.port p with rd := none }

/-- R406, R408, R409: one read of `w` bytes by a port. -/
def State.readAccess (s : State) (p a w : Nat) : Reply × State :=
  let s0 := s
  let s := s.dropPair p
  if !s.servedAt p a false then ({ data := s.readReg p false .BOOT_PHASE 0, served := false }, s)
  else match s.readError a w with
    | some e => ({ err := e }, s.busError p false a e)
    | none =>
      let reg := a % 2 ^ 28 / 4 * 4
      let key := reg + (if bit a 30 then 2 ^ 30 else 0)
      match s.placeAt reg with
      | none => ({ err := eUnmapped }, s)
      | some x =>
        let s1 := s.setPort p { s.port p with rd := (s0.port p).rd }
        let (v, latch) := s1.readPlace p (bit a 30) key x
        let s := s.setPort p { s.port p with rd := latch }
        let s := if bit a 30 || x.blk == .MC then s.afterBank else s
        ({ data := v / 2 ^ (8 * (a % 4)) % 2 ^ (8 * w) }, s)

/-! ## Writes -/

/-- R14: the word that a write through an alias leaves. -/
def aliased (al old v : Nat) : Nat :=
  if al = 1 then old ||| v else if al = 2 then old - (old &&& v) else if al = 3 then old ^^^ v else v

/-- R407, R408, R409, R412: the error of a write that does not depend on its value. `pair` says that it completes a pair. -/
def State.addrError (s : State) (a : Nat) (pair : Bool) : Option Nat :=
  let reg := a % 2 ^ 28
  let al := bits a 28 2
  let held := bit a 30
  match (if 2 ^ 31 ≤ a then none else s.placeAt (reg / 4 * 4)) with
  | none => some eUnmapped
  | some x =>
    let high := match x with
      | .reg _ _ h => h
      | .bank _ | .window _ _ => false
    lowestCode [(a % 4 != 0, eAlign), (al != 0 && (held || !x.aliasable), eAlias), (held || x.readOnly, eReadOnly),
      (!s.holdServes x, eState), (high && !pair, ePair)]

/-- R93, R98: a guard arm, or a monitor's enable, that is refused. -/
def State.noteRefusal (s : State) (r : Reg) (e : Nat) : State :=
  if e = eBudget ∧ (r = .TCH_ARM ∨ r = .WCH_ARM ∨ r = .MC_CTL ∨ r = .AQ_ARM ∨ r = .TCH_WIN_CTL) then
    s.raise .PWR_EVENT_GUARD_REFUSED
  else s

/-- The tide gate of a port closes (R414). -/
def State.closeGate (s : State) (p : Nat) : State := s.setPort p { s.port p with gate := false }

/-- R420: the fields that a write of a word to a register writes or commands. -/
def Reg.written (r : Reg) (i v : Nat) : List Nat :=
  (r.fields.filter fun f => f.stores || (f.command && wants f v)).map fun f => f.key i

/-- R420: whether a port that `q` selects has written or commanded a field in the present management cycle. -/
def State.wroteNow (s : State) (q : Nat → Bool) (f : Fld) (i : Nat) : Bool :=
  s.ports.any fun x => q x.1 && portCycle x.2.wroteAt == portCycle s.now && x.2.wrote.contains (f.key i)

/-- R418, R420: the word as it counts beside the writes of other ports in its cycle: a field that a lower-numbered port has
written stays as it is, and a command that another port has given is not given again. -/
def State.settledWord (s : State) (p : Nat) (r : Reg) (i v : Nat) : Nat :=
  let gated := (s.port p).gate || (p == 2 && s.dev == .boot)
  r.fields.foldl (fun v f =>
    let with_ (x : Nat) : Nat := v - f.part v * 2 ^ f.desc.lo + x * 2 ^ f.desc.lo
    if f.stores && s.wroteNow (fun q => decide (q < p)) f i then with_ (s.get f i)
    else if f.command && (decide (f.desc.acc = .GO) || gated) && s.wroteNow (fun q => q != p) f i then with_ 0
    else v) v

/-- R414, R420: a write is accepted: the gate closes, and the port keeps what it has written in this cycle. -/
def State.noteWrite (s : State) (p : Nat) (r : Reg) (i v : Nat) : State :=
  let x := s.port p
  s.setPort p { x with
    gate := false, wroteAt := s.now
    wrote := r.written i v ++ if portCycle x.wroteAt = portCycle s.now then x.wrote else [] }

/-- R407, R414, R420: a write of a whole register: judged, then carried out; the gate closes whatever the outcome. -/
def State.writeWhole (s : State) (p a : Nat) (r : Reg) (i v : Nat) : Reply × State :=
  let w := s.settledWord p r i v
  match s.writeError p r i w with
  | some e => ({ err := e }, ((s.closeGate p).busError p true a e).noteRefusal r e)
  | none => ({}, (s.noteWrite p r i v).writeReg p r i w)

/-- R409, R414: one 32-bit write by a port. -/
def State.writeAccess (s : State) (p a v : Nat) : Reply × State :=
  let reg := a % 2 ^ 28 / 4 * 4
  let word := s.placeAt reg
  let low := (s.port p).wr
  let completes := match low, word with
    | some (b, _), some (.reg _ _ true) => b % 2 ^ 28 / 4 * 4 + 4 == reg && a % 4 == 0
    | _, _ => false
  let s := if completes then s.setPort p { s.port p with rd := none, wr := none } else s.dropPair p
  if !s.servedAt p a true then ({ served := false }, s.closeGate p)
  else match s.addrError a completes with
    | some e => ({ err := e }, (s.closeGate p).busError p true a e)
    | none => match word with
      | some (.reg r i high) =>
        if r.desc.pair && !high then ({}, s.setPort p { s.port p with wr := some (a, v % 2 ^ 32) })
        else
          let old := (r.fields.map fun f => (if f.stores then s.get f i else 0) * 2 ^ f.desc.lo).sum
          let al := bits a 28 2
          if high then
            let (b, w) := low.getD (0, 0)
            let lo := aliased (bits b 28 2) (old % 2 ^ 32) w
            let hi := aliased al (old / 2 ^ 32 % 2 ^ 32) (v % 2 ^ 32)
            s.writeWhole p a r i (lo % 2 ^ 32 + hi % 2 ^ 32 * 2 ^ 32)
          else s.writeWhole p a r i (aliased al old (v % 2 ^ 32) % 2 ^ 32)
      | _ => ({ err := eUnmapped }, s)

/-! ## The SPI management port -/

/-- R401: the trailer of a transaction. -/
def State.trailer (s : State) (p : Nat) (data : List Nat) (err done : Nat) (unserved : Bool) : State :=
  let status := if err ≠ 0 then 2 else if unserved then 5 else 0
  s.setPort p { s.port p with resp := {
    data := data, status := status, err := err, done := done, flags := b2n (s.port p).gate + 2 * b2n s.irq } }

/-- R400, R403: `n` reads of `w` bytes from an address on: the data, the error, the served accesses carried out, and whether
any was not served. The slots from the failing access onward read 0. -/
def State.readRun (s : State) (p w : Nat) : Nat → Nat → List Nat × Nat × Nat × Bool × State
  | _, 0 => ([], 0, 0, false, s)
  | a, n + 1 =>
    let (x, s) := s.readAccess p (a % 2 ^ 32) w
    if x.err ≠ 0 then (List.replicate (n + 1) 0, x.err, 0, false, s)
    else
      let (ds, e, done, un, s) := s.readRun p w (a + w) n
      (x.data :: ds, e, done + b2n x.served, un || !x.served, s)

/-- R400, R403: 32-bit writes from an address on. -/
def State.writeRun (s : State) (p : Nat) : Nat → List Nat → Nat × Nat × Bool × State
  | _, [] => (0, 0, false, s)
  | a, v :: vs =>
    let (x, s) := s.writeAccess p (a % 2 ^ 32) v
    if x.err ≠ 0 then (x.err, 0, false, s)
    else
      let (e, done, un, s) := s.writeRun p (a + 4) vs
      (e, done + b2n x.served, un || !x.served, s)

/-- R400: COUNT out of range: nothing is carried out, and the trailer reports WIDTH. -/
def State.badCount (s : State) (p : Nat) (wr : Bool) (a : Nat) : State :=
  (s.busError p wr a eWidth).trailer p [] eWidth 0 false

/-- R400: a read transaction. -/
def State.spiRead (s : State) (w count a : Nat) : State :=
  if s.dev = .off then s
  else if (if w = 4 then count = 0 ∨ 64 < count else count ≠ 1) then s.badCount 0 false a
  else
    let (ds, e, done, un, s) := s.readRun 0 w a count
    s.trailer 0 ds e done un

/-- R400: a write transaction. -/
def State.spiWrite (s : State) (count a : Nat) (data : List Nat) : State :=
  if s.dev = .off then s
  else if count = 0 ∨ 64 < count then s.badCount 0 true a
  else
    let (e, done, un, s) := s.writeRun 0 a ((List.range count).map fun k => data.getD k 0)
    s.trailer 0 [] e done un

/-- Drops the latches of a port (R402). -/
def State.clearLatch (s : State) (p : Nat) : State := s.setPort p { s.port p with rd := none, wr := none }

/-- The big-endian words of whole groups of four bytes (R399). -/
def bigWords : List Byte → List Nat
  | a :: b :: c :: d :: rest => (((a.toNat * 256 + b.toNat) * 256 + c.toNat) * 256 + d.toNat) :: bigWords rest
  | _ => []

/-- R402: MG_CS_N rises before the trailer: `bytes` are those that followed ADDR. The writes with their four bytes complete
and the reads whose data has been shifted out are carried out. -/
def State.cutShort (s : State) (op count a : Nat) (bytes : List Byte) : State :=
  if s.dev = .off then s
  else
    let w := if op = 1 then 1 else if op = 2 then 2 else 4
    let fits := if op = 1 ∨ op = 2 then count = 1 else 1 ≤ count ∧ count ≤ 64
    let s := if fits then
        (if op = 4 then (s.writeRun 0 a ((bigWords bytes).take count)).2.2.2
        else if 1 ≤ op ∧ op ≤ 3 then (s.readRun 0 w a (min count ((bytes.length - 4) / w))).2.2.2.2
        else s)
      else s
    s.clearLatch 0

/-! ## JTAG -/

/-- R404: JTAG is served from AO release on, 10 ms after VIN became valid. -/
def State.jtagServed (s : State) : Bool :=
  s.dev != .off && (s.dev != .aux || decide (s.power.vinAt + 10 * qMs ≤ s.now))

/-- R404: Update-DR of REGACC: the access held in the register is carried out, unless the one before has not completed; it
completes within 500 ns, at a free instant. -/
def State.regAcc (s : State) (dr : Nat) : State :=
  let s := { s with jtag := { s.jtag with instr := 4, drive := false } }
  let busy := match s.jtag.doneAt with
    | some x => decide (s.now < x)
    | none => false
  if !s.jtagServed || busy then s
  else
    let data := bits dr 0 32
    let a := bits dr 32 32
    let op := bits dr 64 2
    let (x, s) := if op = 1 then s.writeAccess 1 a data
      else s.readAccess 1 a (if op = 2 then 2 else if op = 3 then 1 else 4)
    let status := if x.err ≠ 0 then 2 else if x.served then 0 else 5
    let (v, s) := s.free
    { s with jtag := { s.jtag with
      op := op, doneAt := some (s.now + v % (500 * qNs + 1)), data := x.data, status := status, err := x.err } }

/-- R404: Capture-DR of REGACC. -/
def State.captureReg (s : State) : State :=
  let j := s.jtag
  let busy := match j.doneAt with
    | some x => decide (s.now < x)
    | none => false
  { s with jtag := { j with dr := if busy then 2 ^ 40 else j.data + j.err * 2 ^ 32 + j.status * 2 ^ 40 } }

/-! ## Commands -/

/-- R400: READ8. -/
def execRead8 (t count addr : Nat) (s : State) : Host.Outcome State Fault Refusal := .next ((s.at t).spiRead 1 count addr)

/-- R400: READ16. -/
def execRead16 (t count addr : Nat) (s : State) : Host.Outcome State Fault Refusal := .next ((s.at t).spiRead 2 count addr)

/-- R400: READ32. -/
def execRead32 (t count addr : Nat) (s : State) : Host.Outcome State Fault Refusal := .next ((s.at t).spiRead 4 count addr)

/-- R400: WRITE32. -/
def execWrite32 (t count addr : Nat) (data : List Nat) (s : State) : Host.Outcome State Fault Refusal :=
  .next ((s.at t).spiWrite count addr data)

/-- R400: PHASE: bytes 1-4 carry BOOT_PHASE; it is no access of the crossing. -/
def execPhase (t : Nat) (s : State) : Host.Outcome State Fault Refusal :=
  let s := s.at t
  .next (if s.dev = .off then s
    else s.setPort 0 { s.port 0 with resp := { data := [s.readReg 0 false .BOOT_PHASE 0] } })

/-- R402: SPI_CUT_SHORT. -/
def execSpiCutShort (t op count addr : Nat) (bytes : List Byte) (s : State) : Host.Outcome State Fault Refusal :=
  .next ((s.at t).cutShort op count addr bytes)

/-- R404: REGACC. -/
def execRegacc (t dr : Nat) (s : State) : Host.Outcome State Fault Refusal := .next ((s.at t).regAcc dr)

/-- R404: CAPTURE_DR. -/
def execCaptureDr (t : Nat) (s : State) : Host.Outcome State Fault Refusal :=
  let s := s.at t
  .next (if s.jtagServed then s.captureReg else s)

/-- R404: the code of the device: 1, the manufacturer, the part and the version. -/
def idCode : Nat := 1 + (Config.jtagMfr % 2 ^ 11) * 2 + 0x0144 * 2 ^ 12 + 0xC * 2 ^ 28

/-- R404: IDCODE. -/
def execIdcode (t : Nat) (s : State) : Host.Outcome State Fault Refusal :=
  let s := s.at t
  .next (if s.jtagServed then
      { s with jtag := { s.jtag with instr := 1, drive := false, dr := idCode } }
    else s)

/-- R404: BYPASS: a register of one bit, loaded with 0. -/
def execBypass (t : Nat) (s : State) : Host.Outcome State Fault Refusal :=
  let s := s.at t
  .next (if s.jtagServed then { s with jtag := { s.jtag with instr := 0, drive := false, dr := 0 } } else s)

/-- R404: SAMPLE/PRELOAD: the balls are sampled, and the boundary scan register is loaded. -/
def execSamplePreload (t balls load : Nat) (s : State) : Host.Outcome State Fault Refusal :=
  let s := s.at t
  .next (if s.jtagServed then { s with jtag := { s.jtag with instr := 2, drive := false, dr := balls, bscan := load } } else s)

/-- R404: EXTEST: the balls are driven from the boundary scan register. -/
def execExtest (t balls : Nat) (s : State) : Host.Outcome State Fault Refusal :=
  let s := s.at t
  .next (if s.jtagServed then { s with jtag := { s.jtag with instr := 3, drive := true, dr := balls } } else s)

end Sys2Proof.Machine
end

