-- ==== Sys2Proof/Machine/Digest.lean ====
section
/-!
DEFINITION. The checks of the image beside CRC-32C: SHA-256 (R104, R108) and PureEd25519 with SHA-512 (R108), as FIPS 180-4
and RFC 8032 define them (PRESUMED, log entry 84). Bytes are naturals below 256.
-/

namespace Sys2Proof.Machine

/-! ## SHA-256 and SHA-512 -/

/-- The largest number whose power `e` is at most `n`, by its bits below `2^b`. -/
def rootOf (e n : Nat) : Nat → Nat → Nat
  | 0, r => r
  | b + 1, r => rootOf e n b (if (r + 2 ^ b) ^ e ≤ n then r + 2 ^ b else r)

/-- The first 80 primes. -/
def shaPrimes : List Nat := (List.range 410).filter fun n => decide (2 ≤ n) && (List.range n).all fun d => decide (d < 2) || n % d != 0

/-- One of the two hashes: the bits of a word, the rounds, and the rotations of its four functions (in the last two the third is a
shift). -/
structure Sha where
  w      : Nat
  rounds : Nat
  big0   : Nat × Nat × Nat
  big1   : Nat × Nat × Nat
  small0 : Nat × Nat × Nat
  small1 : Nat × Nat × Nat
  deriving DecidableEq, Repr

def sha256Def : Sha := ⟨32, 64, (2, 13, 22), (6, 11, 25), (7, 18, 3), (17, 19, 10)⟩
def sha512Def : Sha := ⟨64, 80, (28, 34, 39), (14, 18, 41), (1, 8, 7), (19, 61, 6)⟩

/-- The first words of the fractional parts of the cube roots and of the square roots of the primes. -/
def Sha.roundWords (h : Sha) : List Nat :=
  (shaPrimes.take h.rounds).map fun p => rootOf 3 (p * 2 ^ (3 * h.w)) (h.w + 4) 0 % 2 ^ h.w
def Sha.start (h : Sha) : List Nat := (shaPrimes.take 8).map fun p => rootOf 2 (p * 2 ^ (2 * h.w)) (h.w + 5) 0 % 2 ^ h.w

def Sha.rotr (h : Sha) (v n : Nat) : Nat := v / 2 ^ n + v % 2 ^ n * 2 ^ (h.w - n)
def Sha.big (h : Sha) (r : Nat × Nat × Nat) (v : Nat) : Nat := h.rotr v r.1 ^^^ h.rotr v r.2.1 ^^^ h.rotr v r.2.2
def Sha.small (h : Sha) (r : Nat × Nat × Nat) (v : Nat) : Nat := h.rotr v r.1 ^^^ h.rotr v r.2.1 ^^^ (v / 2 ^ r.2.2)

/-- The message schedule, newest word first. -/
def Sha.schedule (h : Sha) : Nat → List Nat → List Nat
  | 0, ws => ws
  | n + 1, ws =>
    let x := h.small h.small1 (ws.getD 1 0) + ws.getD 6 0 + h.small h.small0 (ws.getD 14 0) + ws.getD 15 0
    h.schedule n (x % 2 ^ h.w :: ws)

/-- One round, with its constant and its word of the schedule. -/
def Sha.round (h : Sha) (s : List Nat) (kw : Nat × Nat) : List Nat :=
  match s with
  | [a, b, c, d, e, f, g, z] =>
    let ch := (e &&& f) ^^^ ((2 ^ h.w - 1 - e) &&& g)
    let maj := (a &&& b) ^^^ (a &&& c) ^^^ (b &&& c)
    let t := z + h.big h.big1 e + ch + kw.1 + kw.2
    [(t + h.big h.big0 a + maj) % 2 ^ h.w, a, b, c, (d + t) % 2 ^ h.w, e, f, g]
  | _ => s

/-- One block of sixteen words. -/
def Sha.block (h : Sha) (ks : List Nat) (s ws : List Nat) : List Nat :=
  let out := (ks.zip (h.schedule (h.rounds - 16) ws.reverse).reverse).foldl h.round s
  (s.zip out).map fun x => (x.1 + x.2) % 2 ^ h.w

/-- Groups of `n` elements; the first number bounds them. -/
def groups (n : Nat) : Nat → List Nat → List (List Nat)
  | 0, _ => []
  | k + 1, l => if l = [] then [] else l.take n :: groups n k (l.drop n)

/-- The big-endian number of some bytes, the bytes of a number, and the little-endian number. -/
def fromBe (l : List Nat) : Nat := l.foldl (fun v b => 256 * v + b) 0
def toBe (n v : Nat) : List Nat := (List.range n).map fun j => v / 256 ^ (n - 1 - j) % 256
def fromLe (l : List Nat) : Nat := fromBe l.reverse

/-- The hash of a message. -/
def Sha.hash (h : Sha) (msg : List Nat) : List Nat :=
  let size := 2 * h.w
  let len := h.w / 4
  let zeros := (2 * size - (msg.length + 1 + len) % size) % size
  let padded := msg ++ 0x80 :: (List.replicate zeros 0 ++ toBe len (8 * msg.length))
  let blocks := groups size padded.length padded
  let ks := h.roundWords
  let out := blocks.foldl (fun s b => h.block ks s ((groups (h.w / 8) 16 b).map fromBe)) h.start
  (out.map (toBe (h.w / 8))).flatten

def sha256 (msg : List Nat) : List Nat := sha256Def.hash msg
def sha512 (msg : List Nat) : List Nat := sha512Def.hash msg

/-! ## PureEd25519 -/

/-- The field, the order of the base point, and powers in the field. -/
def edP : Nat := 2 ^ 255 - 19
def edL : Nat := 2 ^ 252 + 27742317777372353535851937790883648493

def edPow (b : Nat) : Nat → Nat → Nat
  | 0, _ => 1
  | n + 1, e => let r := edPow b n (e / 2); (if e % 2 = 1 then r * r % edP * b else r * r) % edP

def edInv (v : Nat) : Nat := edPow v 256 (edP - 2)
def edSub (a b : Nat) : Nat := (a + edP - b % edP) % edP
def edD : Nat := edSub 0 (121665 * edInv 121666 % edP)

/-- A point in extended coordinates. -/
structure EdPoint where
  x : Nat
  y : Nat
  z : Nat
  t : Nat
  deriving DecidableEq, Repr

def edZero : EdPoint := ⟨0, 1, 1, 0⟩

def EdPoint.add (p q : EdPoint) : EdPoint :=
  let a := edSub p.y p.x * edSub q.y q.x % edP
  let b := (p.y + p.x) * (q.y + q.x) % edP
  let c := 2 * p.t * q.t % edP * edD % edP
  let d := 2 * p.z * q.z % edP
  let e := edSub b a
  let f := edSub d c
  let g := (d + c) % edP
  let h := (b + a) % edP
  ⟨e * f % edP, g * h % edP, f * g % edP, e * h % edP⟩

def EdPoint.same (p q : EdPoint) : Bool :=
  decide (p.x * q.z % edP = q.x * p.z % edP) && decide (p.y * q.z % edP = q.y * p.z % edP)

/-- A multiple of a point, by `n` bits of the scalar. -/
def EdPoint.times (p : EdPoint) : Nat → Nat → EdPoint
  | 0, _ => edZero
  | n + 1, k =>
    let r := p.times n (k / 2)
    let r := r.add r
    if k % 2 = 1 then r.add p else r

/-- The point of a number: the ordinate, and in bit 255 the parity of the abscissa. -/
def edDecode (v : Nat) : Option EdPoint :=
  let y := v % 2 ^ 255
  let sign := v / 2 ^ 255 % 2
  let u := edSub (y * y % edP) 1
  let w := (edD * (y * y % edP) + 1) % edP
  let r := u * edPow w 256 3 % edP * edPow (u * edPow w 256 7 % edP) 256 ((edP - 5) / 8) % edP
  let root : Option Nat :=
    if w * (r * r % edP) % edP = u then some r
    else if w * (r * r % edP) % edP = edSub 0 u then some (r * edPow 2 256 ((edP - 1) / 4) % edP)
    else none
  match root with
  | some x =>
    if edP ≤ y ∨ (x = 0 ∧ sign = 1) then none
    else
      let x := if x % 2 = sign then x else edP - x
      some ⟨x, y, 1, x * y % edP⟩
  | none => none

/-- The base point: its ordinate is 4/5, its abscissa even. -/
def edBase : EdPoint := (edDecode (4 * edInv 5 % edP)).getD edZero

/-- Whether a signature of 64 bytes over a message verifies under a public key of 32 bytes. -/
def edVerify (key sig msg : List Nat) : Bool :=
  match edDecode (fromLe key), edDecode (fromLe (sig.take 32)) with
  | some a, some r =>
    let s := fromLe (sig.drop 32)
    let k := fromLe (sha512 (sig.take 32 ++ key ++ msg)) % edL
    decide (s < edL) && ((edBase.times 256 s).times 4 8).same ((r.add (a.times 256 k)).times 4 8)
  | _, _ => false

end Sys2Proof.Machine
end

