-- ==== Sys2Proof/Machine/Boot.lean ====
section
/-!
DEFINITION. The boot from the configuration image (R100-R117): the flash, the choice of a slot, the two passes with their
entries, and how sections and boots fail; and what restorations apply again from the image (R29, R340, R468).
-/

namespace Sys2Proof.Machine

/-! ## Codes of R121 and types of R109 -/

def bNoFlash : Nat := 1
def bNoSlot : Nat := 2
def bUnsigned : Nat := 3
def bKeyMismatch : Nat := 4
def bBadSignature : Nat := 5
def bSectionCrc : Nat := 6
def bSectionDigest : Nat := 7
def bEntryFailed : Nat := 9
def bBadSection : Nat := 10
def bFlashUnstable : Nat := 11
def bFlashTimeout : Nat := 12

def tyLanes : Nat := 4
def tyWaves : Nat := 6
def tyAcqs : Nat := 8
def tyTrips : Nat := 10
def tyLists : Nat := 11
def tyWrites : Nat := 12

/-! ## Flash and headers -/

/-- R101: the read mode: the first of Q144, Q114 and S111 that SFDP advertises; bit `m - 1` of `modes` stands for mode `m`. -/
def flashMode (modes : Nat) : Nat := if bit modes 2 then 3 else if bit modes 1 then 2 else if bit modes 0 then 1 else 0

/-- R101: the SFDP tables have been read; `density` is the binary logarithm of the size in bytes. -/
def State.readSfdp (s : State) (found : Bool) (density modes : Nat) (fourByte : Bool) : State :=
  if s.dev ≠ .boot ∨ s.boot.phase ≠ 1 then s
  else if !found then s.failBoot bNoFlash 0 0
  else
    let s := ((s.put .BOOT_FLASH_MODE 0 (flashMode modes)).put .BOOT_FLASH_FOUR_BYTE 0 (b2n fourByte)).put
      .BOOT_FLASH_DENSITY 0 density
    if density < 25 then s.failBoot bNoFlash 0 0 else { s with boot := { s.boot with phase := 2 } }

/-! ## The layout of the flash -/

/-- R102: the slots and the life ledger. -/
def slotBase (slot : Nat) : Nat := slot * 0x800000
def slotSize : Nat := 0x800000
def ledgerBase : Nat := 0x1000000

/-- Bytes of what the flash holds, and the little-endian number they make (R103). -/
def bytesAt (b : List Byte) (off n : Nat) : List Nat := ((b.drop off).take n).map (·.toNat)
def numAt (b : List Byte) (off n : Nat) : Nat := fromLe (bytesAt b off n)

/-- Whether bytes that the layout gives as 0 are 0. -/
def zeroAt (b : List Byte) (off n : Nat) : Bool := (bytesAt b off n).all (· == 0)

/-- R104: one entry of the section table. -/
def sectionAt (h : List Byte) (i : Nat) : SectionHdr :=
  let o := 0x40 + 48 * i
  { typ := numAt h o 1, mandatory := bit (numAt h (o + 1) 1) 0, offset := numAt h (o + 4) 4, length := numAt h (o + 8) 4
    crc := numAt h (o + 12) 4, digest := (h.drop (o + 16)).take 32 }

/-- R103: the fields of a header. -/
def hdrCount (h : List Byte) : Nat := numAt h 0x14 2
def hdrSections (h : List Byte) : List SectionHdr := (List.range (hdrCount h)).map (sectionAt h)
def hdrStart (h : List Byte) : Nat := numAt h 9 1
def hdrGeneration (h : List Byte) : Nat := numAt h 0xC 4
def hdrLength (h : List Byte) : Nat := numAt h 0x10 4
def hdrSigned (h : List Byte) : Bool := bit (numAt h 0xA 2) 0

/-- R103, R104: the bytes of a header that are 0, and the ranges of its lengths (DEDUCED, log entry 85). -/
def headerForm (h : List Byte) : Bool :=
  decide (numAt h 0xA 2 < 2) && zeroAt h 0x16 2 && zeroAt h 0x20 32 && zeroAt h (0x40 + 48 * hdrCount h) (48 * (64 - hdrCount h)) &&
    zeroAt h 0xC40 704 && zeroAt h 0xF60 156 && decide (0x1000 ≤ hdrLength h) && decide (hdrLength h ≤ slotSize) &&
    decide (3 ≤ hdrCount h) && decide (hdrCount h ≤ 64) &&
    (List.range (hdrCount h)).all fun i => decide (numAt h (0x41 + 48 * i) 1 < 2) && zeroAt h (0x42 + 48 * i) 2

/-! ## Choosing a slot -/

/-- R108: whether an owner key hash is programmed, and its bytes: byte 4n of the digest is the lowest of word n. -/
def fused : Bool := (List.range 8).any fun i => Config.keyHash i % 2 ^ 32 != 0
def fusedHash : List Nat := ((List.range 8).map fun i => (toBe 4 (Config.keyHash i % 2 ^ 32)).reverse).flatten

/-- R104, R106: the sections of a table lie inside the image and stand in order of rising offset without overlap, from an offset
on. -/
def sectionsFit (len : Nat) : Nat → List SectionHdr → Bool
  | _, [] => true
  | low, x :: xs =>
    decide (low ≤ x.offset) && decide (x.offset + x.length ≤ len) && x.offset % 256 == 0 && x.length % 16 == 0 &&
      decide (16 ≤ x.length) && sectionsFit len (x.offset + x.length) xs

/-- R109: whether the types 0x04 to 0x0B rise, each at most once, and no type of an AO section stands among the sections
after entry 2. -/
def typesRise : Nat → List SectionHdr → Bool
  | _, [] => true
  | last, x :: xs =>
    if 1 ≤ x.typ ∧ x.typ ≤ 3 then false
    else if 4 ≤ x.typ ∧ x.typ ≤ 11 then decide (last < x.typ) && typesRise x.typ xs
    else typesRise last xs

/-- R109: the order rule. The first three sections are mandatory. -/
def orderOk (l : List SectionHdr) : Bool :=
  (l.map (·.typ)).take 3 == [1, 2, 3] && ((l.take 3).all (·.mandatory)) && typesRise 3 (l.drop 3) &&
    decide (((l.take 3).map (·.length)).sum ≤ 65536)

/-- R105, R106: a header but for its signature. -/
def headerOk (h : List Byte) : Bool :=
  h.length == 4096 && numAt h 0 4 == 0x49584C46 && numAt h 4 2 == 1 && numAt h 6 2 == 0x0144 && decide (numAt h 8 1 ≤ 0xC0) &&
    (hdrStart h == 3 || hdrStart h == 4) && numAt h 0xFFC 4 == crc32c (bytesAt h 0 0xFFC) && headerForm h &&
    sectionsFit (hdrLength h) 0x1000 (hdrSections h) && orderOk (hdrSections h)

/-- R108, R121: the code of a failed signature check. -/
def signFault (h : List Byte) : Option Nat :=
  let key := bytesAt h 0xF00 32
  if !fused then none
  else if !hdrSigned h then some bUnsigned
  else if sha256 key ≠ fusedHash then some bKeyMismatch
  else if !edVerify key (bytesAt h 0xF20 64) (bytesAt h 0 0xF00) then some bBadSignature
  else none

/-- R106: whether a header is valid. -/
def headerValid (h : List Byte) : Bool := headerOk h && (signFault h).isNone

/-- R107, R121: the code when no header is valid: that of the last failed signature check, or NO_SLOT. -/
def noSlotCode (a b : List Byte) : Nat :=
  let code := fun h : List Byte => if headerOk h then signFault h else none
  (code b).getD ((code a).getD bNoSlot)

/-- A header is taken: its section table and start state, and SIGNED. -/
def State.takeSlot (s : State) (slot : Nat) (h : List Byte) : State :=
  { s with boot := { s.boot with
    slot := slot, secs := hdrSections h, start := hdrStart h, index := 0, section_ := 0, progress := 0 } }.put
      .BOOT_STATUS_SIGNED 0 (b2n fused)

/-- R107: the slot that is chosen. -/
def slotChoice (force : Nat) (a b : List Byte) : Option (Nat × List Byte) :=
  if force = 1 then (if headerValid a then some (0, a) else none)
  else if force = 2 then (if headerValid b then some (1, b) else none)
  else if headerValid a && (!headerValid b || decide (hdrGeneration b ≤ hdrGeneration a)) then some (0, a)
  else if headerValid b then some (1, b)
  else none

/-- R106, R107, R432: both headers have been read, and the ledger; a slot is chosen. -/
def State.selectSlot (s : State) (a b : List Byte) (ledger : LedgerRead) : State :=
  if s.dev ≠ .boot ∨ s.boot.phase ≠ 2 then s
  else
    let force := s.get .BOOT_CFG_FORCE
    let s := s.loadLedger ledger
    let s := { s with boot := { s.boot with hdrA := a, hdrB := b, readAt := ledgerBase } }
    let s := (s.put .BOOT_STATUS_VALID_A 0 (b2n (headerValid a))).put .BOOT_STATUS_VALID_B 0 (b2n (headerValid b))
    let s := (s.put .BOOT_GEN_A_GEN 0 (if headerValid a then hdrGeneration a else 0)).put .BOOT_GEN_B_GEN 0
      (if headerValid b then hdrGeneration b else 0)
    match slotChoice force a b with
    | some (slot, h) => { (s.takeSlot slot h).mark 0 with boot := { (s.takeSlot slot h).boot with phase := 3 } }
    | none => s.failBoot (if force = 0 then noSlotCode a b else bNoSlot) 0 0

/-! ## Entries -/

/-- R109: the blocks that a section of a type may address; REG_WRITES may address any. The mask registers, which lie among
those of the crystallisers, count with the verdicts (log entry 50). -/
def sectionAllows (typ a : Nat) : Bool :=
  let r := a % 2 ^ 28
  let bs := blkAt r
  let mask := bs.contains .CRY && decide (0x800 ≤ r % 0x10000)
  match typ with
  | 2 => bs.contains .TB
  | 3 => bs.contains .PWR
  | 4 => bs.contains .LNK
  | 5 => bs.contains .TCH
  | 6 => bs.contains .WCH
  | 7 => bs.contains .MC
  | 8 => bs.contains .AQ || (bs.contains .CRY && !mask)
  | 9 => bs.contains .VD || mask
  | 10 => bs.contains .MRK
  | 12 => true
  | _ => false

/-- R111: a WRITE by the image port; the error is 0 for none. -/
def State.entryWrite (s : State) (addr value : Nat) : Nat × State :=
  let (x, s) := s.writeAccess 2 addr value
  (x.err, s)

/-- R111: a MODIFY by the image port. -/
def State.entryModify (s : State) (addr value mask : Nat) : Nat × State :=
  let (x, s) := s.readAccess 2 addr 4
  if x.err ≠ 0 then (x.err, s) else s.entryWrite addr ((x.data - (x.data &&& mask)) ||| (value &&& mask))

/-- R111: one read of a POLL by the image port: whether it matches. -/
def State.entryPoll (s : State) (addr value mask : Nat) : Nat × Bool × State :=
  let (x, s) := s.readAccess 2 addr 4
  (x.err, x.data &&& mask == value, s)

/-- R111: the register entry of a body at a number. -/
def entryAt (b : List Byte) (i : Nat) : RegEntry :=
  { addr := numAt b (16 * i) 4, value := numAt b (16 * i + 4) 4, mask := numAt b (16 * i + 8) 4, op := numAt b (16 * i + 12) 1
    timeout := numAt b (16 * i + 14) 2, zero := zeroAt b (16 * i + 13) 1 }
def entriesOf (b : List Byte) : List RegEntry := (List.range (b.length / 16)).map (entryAt b)

/-- R109, R111: whether an entry fails a section of a type by itself: an OP of 4 to 255, a field outside its range, or an
address outside the section's blocks (log entry 51). -/
def badEntry (typ : Nat) (e : RegEntry) : Bool :=
  decide (3 < e.op) || !e.zero || decide (2 ^ 30 ≤ e.addr) || ((e.op == 0 || e.op == 3) && e.mask != 0) ||
    (decide (2 ≤ e.op) == (e.timeout == 0)) || (e.op != 3 && !sectionAllows typ e.addr)

/-- R29, R340: an entry applied whole at one instant, for a restoration; the answer says whether it fails. A POLL that does
not match at once fails, and a DELAY passes at once (DESIGN CHOICE, log entry 51). -/
def State.applyEntry (s : State) (e : RegEntry) : Bool × State :=
  match e.op with
  | 0 => let (x, s) := s.entryWrite e.addr e.value; (x != 0, s)
  | 1 => let (x, s) := s.entryModify e.addr e.value e.mask; (x != 0, s)
  | 2 => let (x, m, s) := s.entryPoll e.addr e.value e.mask; (x != 0 || !m, s)
  | _ => (false, s)

/-- R111, R114: the entries of a section kept in AO, from one with a number on, until a DELAY or a POLL makes them wait. The
answers are the number of an entry that fails, and what is left. -/
def State.applyAo (s : State) (typ : Nat) (poll : Option Nat) : Nat → List RegEntry → Option Nat × AoRun × State
  | i, [] => (none, { left := [], entry := i }, s)
  | i, e :: es =>
    let rest : AoRun := { left := es, entry := i + 1 }
    if badEntry typ e then (some i, rest, s)
    else if e.op = 3 then (none, { rest with wait := s.now + e.timeout * qUs }, s)
    else if e.op = 2 then
      let start := poll.getD s.now
      let (err, hit, s) := s.entryPoll e.addr e.value e.mask
      if err ≠ 0 ∨ start + e.timeout * qUs < s.now then (some i, rest, s)
      else if hit then s.applyAo typ none (i + 1) es
      else (none, { left := e :: es, entry := i, poll := some start }, s)
    else
      let (bad, s) := s.applyEntry e
      if bad then (some i, rest, s) else s.applyAo typ none (i + 1) es

/-! ## Pass 1 -/

/-- R104, R107, R108: the code of a section whose body fails its CRC or its digest. -/
def sectionFault (x : SectionHdr) (body : List Byte) : Option Nat :=
  let bs := body.map (·.toNat)
  if body.length ≠ x.length ∨ crc32c bs ≠ x.crc then some bSectionCrc
  else if fused ∧ sha256 bs ≠ x.digest.map (·.toNat) then some bSectionDigest
  else none

/-- R110: one entry of a RAILS body. -/
def railAt (b : List Byte) (i : Nat) : RailsEntry :=
  let o := 16 * i
  { rail := numAt b o 1, addr := numAt b (o + 1) 1, page := numAt b (o + 2) 1, pflags := numAt b (o + 3) 1, vout := numAt b (o + 4) 2
    ov := numAt b (o + 6) 2, uv := numAt b (o + 8) 2, onoff := numAt b (o + 10) 1, vexp := 256 - numAt b (o + 11) 1
    zero := zeroAt b (o + 12) 4 }

/-- R110: whether an entry fails the body: its voltage, VOUT_CMD × 2^VEXP, is off by more than 3 %, a limit by more than one
code, a field lies outside its range, or another entry has its address and page. -/
def railBad (l : List RailsEntry) (e : RailsEntry) : Bool :=
  let mv := e.vout * 2 ^ (16 - e.vexp) * 1000
  let nom := railNominal e.rail * 2 ^ 16
  let far (limit pct : Nat) : Bool :=
    let d : Int := (limit * 100 : Nat) - (e.vout * pct : Nat)
    decide (100 < d.natAbs)
  decide (mv * 100 < nom * 97) || decide (nom * 103 < mv * 100) || far e.ov 106 || far e.uv 94 || decide (e.addr < 8) ||
    decide (0x77 < e.addr) || decide (1 < e.pflags) || e.vexp == 0 || decide (16 < e.vexp) || !e.zero ||
    decide (1 < (l.filter fun x => x.addr == e.addr && x.page == e.page).length)

/-- R110: the first entry of a RAILS body that fails it. The ten entries stand in the order of R83. -/
def badRails (body : List Byte) : Option Nat :=
  let l := (List.range 10).map (railAt body)
  if body.length ≠ 160 then some 0 else (List.range 10).find? fun i => (railAt body i).rail != i || railBad l (railAt body i)

/-- Whether every rail is enabled and was in its window at the last tick. -/
def State.allRailsGood (s : State) : Bool := (List.range 10).all fun j => s.railOn j && s.get .PWR_RAIL_PG j == 1

/-- R47: the conditioner acquires REF_IN from the later of CLOCKS_TIME applied and the last rail good. -/
def State.tryAcquire (s : State) : State :=
  if s.boot.clocksOn && s.allRailsGood then { s with time := { s.time with acquire := some (s.time.acquire.getD s.now) } } else s

/-- R111, R114, R117: CLOCKS_TIME is applied as far as its entries go at present; once it is done it is in force. -/
def State.pumpClocks (s : State) : State :=
  match s.boot.clocks with
  | some r =>
    if s.now < r.wait then s
    else match s.applyAo 2 r.poll r.entry r.left with
      | (some i, _, s) => s.failBoot bEntryFailed 1 i
      | (none, r, s) =>
        if r.left = [] ∧ r.wait ≤ s.now then
          ({ s with boot := { s.boot with clocks := none, clocksOn := true } }.bump .BOOT_STATUS_APPLIED).tryAcquire
        else { s with boot := { s.boot with clocks := some r } }
  | none => s

/-- R94, R114: COST_TABLE is applied at a governor tick; a DELAY or a POLL of it goes on at the following ticks. -/
def State.applyCosts (s : State) : State :=
  match (if s.dev = .boot then s.boot.cost else none) with
  | some r =>
    if s.now < r.wait then s
    else match s.applyAo 3 r.poll r.entry r.left with
      | (some i, _, s) => s.failBoot bEntryFailed 2 i
      | (none, r, s) =>
        if r.left = [] ∧ r.wait ≤ s.now then
          { s with boot := { s.boot with cost := none }, gov := { s.gov with costs := true } }.bump .BOOT_STATUS_APPLIED
        else { s with boot := { s.boot with cost := some r } }
  | none => s

/-- R114: what AO keeps of a section that has passed. -/
def State.keepAo (s : State) (x : SectionHdr) (body : List Byte) : State :=
  if x.typ = 1 then
    match badRails body with
    | some i => s.failBoot bBadSection 0 i
    | none => { s with boot := { s.boot with rails := (List.range 10).map (railAt body) } }
  else if x.typ = 2 then { s with boot := { s.boot with clocks := some { left := entriesOf body } } }.pumpClocks
  else if x.typ = 3 then { s with boot := { s.boot with cost := some { left := entriesOf body } } }
  else s

/-- R120: the bytes of sections, and the per cent of the current pass. -/
def sizeOf (l : List SectionHdr) : Nat := (l.map (·.length)).sum
def percent (done total : Nat) : Nat := min (quot (100 * done) total) 100

/-- R116: after a power-down for the other slot, the rails are sequenced again: the first 10 ms after the verification, or after the
end of the power-down if that is later; the FET and BUS_EN come back at once (log entry 52). -/
def State.repower (s : State) : State :=
  match s.power.downAt with
  | some x =>
    let start := max s.now (x + 22 * qMs)
    { s with power := { s.power with
      downAt := none, enabled := [], fet := true, fetAt := s.now, bus := true
      seq := (List.range 10).map fun j => (j, start + (j + 1) * 10 * qMs) } }
  | none => s

/-- R114: the verification goes on behind a section that has passed; after the last one pass 1 has ended. -/
def State.nextVerified (s : State) : State :=
  if s.dev ≠ .boot then s
  else
    let k := s.boot.index + 1
    let s := { s with boot := { s.boot with index := k, progress := percent (sizeOf (s.boot.secs.take k)) (sizeOf s.boot.secs) } }
    if k < s.boot.secs.length then s
    else ({ s with boot := { s.boot with pass1 := true, progress := 100 } }.mark 1).repower

/-- Whether a field is a setting that a host writes. -/
def Fld.setting (f : Fld) : Bool := decide (f.desc.acc = .RW) || decide (f.desc.acc = .ST) || decide (f.desc.acc = .SH)

/-- R116: the settings of the first slot's CLOCKS_TIME and COST_TABLE are discarded: TB and PWR are as they were at reset. -/
def State.discardAo (s : State) : State :=
  let keep (k : Nat) : Bool :=
    let f := Fld.ofNat (k % 1024)
    !(f.setting && (decide (f.desc.reg.desc.blk = .TB) || decide (f.desc.reg.desc.blk = .PWR)))
  let s := { s with
    regs := s.regs.filter fun x => keep x.1
    force := s.force.filter fun x => keep x.1
    boot := { s.boot with rails := [], clocks := none, clocksOn := false, cost := none, second := true }
    time := { s.time with acquire := none }
    gov := { s.gov with costs := false } }
  s.commitCost .base (s.costOf .base) false

/-- R107, R116: the other slot takes the place of one whose section failed: its code stays in BOOT_FAIL, and rails that are
up go down in order. -/
def State.fallBackSlot (s : State) (slot : Nat) (h : List Byte) : State :=
  let s := (((s.takeSlot slot h).put .BOOT_STATUS_FALLBACK 0 1).raise .BOOT_EVENT_FALLBACK_USED).put .BOOT_STATUS_APPLIED 0 0
  let s := s.discardAo
  { s with power := { s.power with
    seq := if s.power.enabled.isEmpty then s.power.seq else []
    downAt := if s.power.enabled.isEmpty then s.power.downAt else some s.now } }

/-- R107: a section fails its verification: the other slot is verified if it has not been, is valid and none is forced;
otherwise the boot fails with this code. -/
def State.slotFails (s : State) (code i : Nat) : State :=
  let s := ((s.put .BOOT_FAIL_CODE 0 code).put .BOOT_FAIL_SECTION 0 i).put .BOOT_FAIL_ENTRY 0 0
  let other := if s.boot.slot = 0 then s.boot.hdrB else s.boot.hdrA
  if s.boot.second = true ∨ s.get .BOOT_CFG_FORCE ≠ 0 ∨ headerValid other = false then s.failBoot code i 0
  else s.fallBackSlot (1 - s.boot.slot) other

/-- R114: pass 1 reads the next section of the slot. -/
def State.passOne (s : State) (body : List Byte) : State :=
  if s.dev ≠ .boot ∨ s.boot.phase ≠ 3 ∨ s.boot.pass1 = true then s
  else match s.boot.secs[s.boot.index]? with
    | some x =>
      let k := s.boot.index
      let s := { s with boot := { s.boot with readAt := slotBase s.boot.slot + x.offset, section_ := k } }.pumpClocks
      if s.dev ≠ .boot then s
      else match sectionFault x body with
        | some code => s.slotFails code k
        | none => (s.keepAo x body).nextVerified
    | none => s

/-! ## Pass 2 -/

/-- R29: the last section has been applied: BOOT ends. -/
def State.endBoot (s : State) : State := (((s.mark 3).enterRun).beginInternal).settleTrips

/-- R120: the per cent of pass 2, from the sections applied and the place reached in the present one. -/
def State.showProgress (s : State) : State :=
  let done := sizeOf ((s.boot.secs.take s.boot.index).drop 3) + s.boot.place
  { s with boot := { s.boot with progress := percent done (sizeOf (s.boot.secs.drop 3)) } }

/-- The section in progress is over; after the last one BOOT ends. -/
def State.nextSection (s : State) : State :=
  let k := s.boot.index + 1
  let s := { s with boot := { s.boot with index := k, body := [], place := 0, entry := 0, polling := none } }.showProgress
  if k < s.boot.secs.length then s else s.endBoot

/-- R109, R115: pass 2 reads the next section, once more if it fails; a section of a reserved type is skipped. -/
def State.readSection (s : State) (body again : List Byte) : State :=
  match s.boot.secs[s.boot.index]? with
  | none => s.endBoot
  | some x =>
    let k := s.boot.index
    let bad := (sectionFault x body).isSome
    let used := if bad then again else body
    let s := { s with boot := { s.boot with readAt := slotBase s.boot.slot + x.offset, section_ := k, body := used } }
    let s := if bad then s.raise .BOOT_EVENT_PASS2_RETRY else s
    if bad && (sectionFault x again).isSome then s.failBoot bFlashUnstable k 0
    else if x.typ = 0 ∨ tyWrites < x.typ then (if x.mandatory then s.failBoot bBadSection k 0 else s.nextSection)
    else s

/-- R114: pass 2 begins once pass 1 has ended and the last rail is good; it reads a section whenever the one before is over. -/
def State.passTwo (s : State) (body again : List Byte) : State :=
  let s := s.pumpClocks
  if s.dev ≠ .boot then s
  else if s.boot.phase = 3 ∧ s.boot.pass1 = true ∧ s.allRailsGood = true then
    { s with boot := { s.boot with phase := 4, progress := 0, index := 3, body := [], place := 0, entry := 0 } }.readSection body again
  else if s.boot.phase = 4 ∧ s.boot.body = [] then s.readSection body again
  else s

/-- The section of pass 2 whose next entry is due: no DELAY runs. -/
def State.dueSection (s : State) : Option SectionHdr :=
  if s.dev = .boot ∧ s.boot.phase = 4 ∧ s.boot.body ≠ [] ∧ s.boot.wait ≤ s.now then s.boot.secs[s.boot.index]? else none

/-- The register entry that is due, with the type of its section. -/
def State.dueEntry (s : State) : Option (Nat × RegEntry) := match s.dueSection with
  | some x => if x.typ = tyLists then none else some (x.typ, entryAt s.boot.body s.boot.entry)
  | none => none

/-- R113: the section in progress fails at its entry. -/
def State.failSection (s : State) : State :=
  let k := s.boot.index
  let mandatory := match s.boot.secs[k]? with
    | some x => x.mandatory
    | none => false
  if mandatory then s.failBoot bEntryFailed k s.boot.entry
  else
    let s := (s.count .BOOT_STATUS_SKIPPED).raise .BOOT_EVENT_SECTION_SKIPPED
    let s := ((s.put .BOOT_FAIL_CODE 0 bEntryFailed).put .BOOT_FAIL_SECTION 0 k).put .BOOT_FAIL_ENTRY 0 s.boot.entry
    s.nextSection

/-- The item in progress, of a length, is done; after the last one the section is applied. -/
def State.nextEntry (s : State) (typ len : Nat) : State :=
  let s := { s with boot := { s.boot with entry := s.boot.entry + 1, place := s.boot.place + len, polling := none } }
  if s.boot.place < s.boot.body.length then s.showProgress
  else
    let s := s.bump .BOOT_STATUS_APPLIED
    (if typ = tyTrips then { s with boot := { s.boot with trips := true } }.settleTrips else s).nextSection

/-- R29: an item that has been applied is kept for restorations. -/
def State.keepItem (s : State) (typ : Nat) (x : ImageItem) : State :=
  { s with boot := { s.boot with image := s.boot.image ++ [(s.boot.index, typ, x)] } }

/-- R109, R113: the entry that is due is applied, if it has this OP; `run` carries it out and says whether it fails. -/
def State.takeEntry (s : State) (op : Nat) (run : State → RegEntry → Bool × State) : State :=
  match s.dueEntry with
  | none => s
  | some (typ, e) =>
    if badEntry typ e then s.failSection
    else if e.op ≠ op then s
    else
      let (bad, s) := run s e
      -- the entry may itself have ended the boot
      if s.dev ≠ .boot then s
      else if bad then s.failSection
      else (s.keepItem typ (.reg e)).nextEntry typ 16

/-- R111: a POLL reads its register: it goes on, ends with a match, or fails with a bus error or after its TIMEOUT. -/
def State.pollEntry (s : State) : State :=
  match s.dueEntry with
  | none => s
  | some (typ, e) =>
    if badEntry typ e then s.failSection
    else if e.op ≠ 2 then s
    else
      let start := s.boot.polling.getD s.now
      let (err, hit, s) := s.entryPoll e.addr e.value e.mask
      if err ≠ 0 ∨ start + e.timeout * qUs < s.now then s.failSection
      else if hit then (s.keepItem typ (.reg e)).nextEntry typ 16
      else { s with boot := { s.boot with polling := some start } }

/-- R111: whether the TIMEOUT of the POLL in progress has passed. -/
def State.pollLate (s : State) : Bool := match s.dueEntry, s.boot.polling with
  | some (_, e), some x => decide (x + e.timeout * qUs ≤ s.now)
  | _, _ => false

/-- R111: a DELAY: the next entry waits. -/
def State.delayEntry (s : State) : State :=
  s.takeEntry 3 fun s e => (false, { s with boot := { s.boot with wait := s.now + e.timeout * qUs } })

/-- R112: the head of the list block that is due: its address, its length, and whether it is well formed. -/
def State.listHead (s : State) : Nat × Nat × Bool :=
  let b := s.boot.body
  let o := s.boot.place
  let a := numAt b o 8
  let n := numAt b (o + 8) 4
  (a, n, decide (o + 16 + n ≤ b.length) && zeroAt b (o + 12) 4 && n % 16 == 0 && decide (poolBase ≤ a) && decide (a + n ≤ listTop))

/-- R112: a list block. -/
def State.listEntry (s : State) : State :=
  match s.dueSection with
  | none => s
  | some x =>
    if x.typ ≠ tyLists then s
    else
      let (a, n, good) := s.listHead
      let data := (s.boot.body.drop (s.boot.place + 16)).take n
      if !good then s.failSection
      else ((s.writeBytes a data).keepItem x.typ (.list a data)).nextEntry x.typ (16 + n)

/-! ## Restorations from the image -/

/-- Whether an address lies in the SLU block. -/
def inSlu (a : Nat) : Bool := (blkAt (a % 2 ^ 28)).contains .SLU

/-- R29, R340, R468: whether the restoration of a subsystem applies an item of a section again: for Sluice its list blocks and what
addresses its block, for HBM the acquisitions, for the lane quads LANES_LINKS, for the ingest WAVEFORM (log entry 86). -/
def restores (k typ : Nat) (x : ImageItem) : Bool :=
  if k = kSluice then (match x with
    | .list _ _ => true
    | .reg e => inSlu e.addr)
  else (k == kHbm && typ == tyAcqs) || (k == kLanes && typ == tyLanes) || (k == kIngest && typ == tyWaves)

/-- R113, R340: items are applied again in image order; an entry that fails ends its section. -/
def State.applyItems (s : State) : List Nat → List (Nat × Nat × ImageItem) → State
  | _, [] => s
  | bad, (k, _, x) :: xs =>
    if bad.contains k then s.applyItems bad xs
    else match x with
      | .list a d => (s.writeBytes a d).applyItems bad xs
      | .reg e =>
        let (fails, s) := s.applyEntry e
        s.applyItems (if fails then k :: bad else bad) xs

/-- R29: the image sections of a subsystem are applied again. -/
def State.reapply (s : State) (k : Nat) : State := s.applyItems [] (s.boot.image.filter fun x => restores k x.2.1 x.2.2)

/-- R29: a declared failure of a subsystem has been restored, with its image sections. -/
def State.finishRestore (s : State) (k : Nat) : State :=
  if (s.rest k).declared.isSome then (if s.dev = .recovery then s.reapply k else s).endRestore k else s

/-- R468: a restoration completes, once what it restores is working. -/
def State.restored (s : State) (k : Nat) : State :=
  let r := s.rest k
  if r.declared.isNone || r.second.isNone then s
  else if k = kIs8 then (if s.time.halted then s else s.endRestore k)
  else if k = kSluice then (if s.slu.halted then s else s.endRestore k)
  else if k = kHbm then (if s.hbm.trained then s.finishRestore k else s)
  else if k = kLanes then s.restoreQuads.finishRestore k
  else if (List.range 32).any fun x => (s.slot x).failed then s
  else s.finishRestore k

/-- R124, R436: training completes, with the hard repairs that were waiting. -/
def State.hbmTrained (s : State) : State :=
  if s.hbm.training.isSome then
    let s := { s with hbm := { training := none, trained := true }, life := { s.life with soft := [] } }
    (((List.range 16).foldl (fun s n => s.noPan n) s).mark 5 |>.finishRestore kHbm).noteBoot
  else s

/-- R340: 1 ms after a halt the engine is reset, and its sections of the running image are applied again. -/
def State.autoRestore (s : State) : State :=
  if s.slu.halted = true ∧ s.flag .SLU_ENGINE_CFG_AUTO_RESTORE = true ∧ s.slu.haltAt + qMs ≤ s.now then
    let s := s.resetSluice
    let s := (List.range 32).foldl (fun s c =>
      if (s.sl c).held.isSome then s else (s.clearSluRegs c).setSl c { state := if (s.sl c).state = 6 then 6 else 0 }) s
    let s := s.reapply kSluice
    if (s.rest kSluice).declared.isSome then s.endRestore kSluice else s
  else s

/-! ## Commands -/

/-- R101: SFDP_READ. -/
def execSfdpRead (t : Nat) (found : Bool) (density modes : Nat) (fourByte : Bool) (s : State) :
    Host.Outcome State Fault Refusal := .next ((s.at t).readSfdp found density modes fourByte)

/-- R107: SLOT_SELECT: the 4 KiB of each header, and what the ledger read finds. -/
def execSlotSelect (t : Nat) (a b : List Byte) (ledger : LedgerRead) (s : State) : Host.Outcome State Fault Refusal :=
  .next ((s.at t).selectSlot a b ledger)

/-- R114: PASS_1 reads the body of the next section. -/
def execPass1 (t : Nat) (body : List Byte) (s : State) : Host.Outcome State Fault Refusal := .next ((s.at t).passOne body)

/-- R114: PASS_2 reads the body of the next section, a second time if the first read fails. -/
def execPass2 (t : Nat) (body again : List Byte) (s : State) : Host.Outcome State Fault Refusal :=
  .next ((s.at t).passTwo body again)

/-- R121: FLASH_TIMEOUT. -/
def execFlashTimeout (t : Nat) (s : State) : Host.Outcome State Fault Refusal :=
  let s := s.at t
  .next (if s.dev = .boot then s.failBoot bFlashTimeout s.boot.section_ s.boot.entry else s)

/-- R111: WRITE. -/
def execWrite (t : Nat) (s : State) : Host.Outcome State Fault Refusal := .next ((s.at t).takeEntry 0 State.applyEntry)

/-- R111: MODIFY. -/
def execModify (t : Nat) (s : State) : Host.Outcome State Fault Refusal := .next ((s.at t).takeEntry 1 State.applyEntry)

/-- R111: POLL: one read of the register. -/
def execPoll (t : Nat) (s : State) : Host.Outcome State Fault Refusal := .next ((s.at t).pumpClocks.pollEntry)

/-- R111: POLL_TIMEOUT. -/
def execPollTimeout (t : Nat) (s : State) : Host.Outcome State Fault Refusal :=
  let s := (s.at t).pumpClocks
  .next (if s.pollLate then s.failSection else s)

/-- R111: DELAY: the next entry waits. -/
def execDelay (t : Nat) (s : State) : Host.Outcome State Fault Refusal := .next ((s.at t).pumpClocks.delayEntry)

/-- R112: LIST_BLOCK. -/
def execListBlock (t : Nat) (s : State) : Host.Outcome State Fault Refusal := .next (s.at t).listEntry

/-- R124, R436: HBM_TRAINED. -/
def execHbmTrained (t : Nat) (s : State) : Host.Outcome State Fault Refusal := .next (s.at t).hbmTrained

/-- R468: RESTORATION_DONE. -/
def execRestorationDone (t : Nat) (sub : Subsystem) (s : State) : Host.Outcome State Fault Refusal :=
  .next ((s.at t).restored (subsystemKey sub).1)

/-- R340: AUTO_RESTORE. -/
def execAutoRestore (t : Nat) (s : State) : Host.Outcome State Fault Refusal := .next (s.at t).autoRestore

end Sys2Proof.Machine
end

