-- ==== Sys2Proof/Machine/HostCmd.lean ====
section
/-!
DEFINITION. The commands that are a register write of a port: each writes the field that its row names through the crossing,
the other fields of that register as they stand. A keyed command needs the port's tide gate, opened by TIDE_GATE before it
(R414). What the port reports stands in its `resp`.
-/

namespace Sys2Proof.Machine

/-- A field's part of a register word. -/
def Fld.place (f : Fld) (v : Nat) : Nat := v % 2 ^ f.desc.w * 2 ^ f.desc.lo

/-- The word that writes the given fields of a register and leaves every other field as it stands. -/
def State.wordWith (s : State) (r : Reg) (i : Nat) (fs : List (Fld × Nat)) : Nat :=
  (r.fields.map fun f => match fs.find? fun x => decide (x.1 = f) with
    | some x => f.place x.2
    | none => if f.stores then f.place (s.get f i) else 0).sum

/-- Writes words through the crossing, with the port's report of the transaction (R401). -/
def State.portWrites (s : State) (p a : Nat) (ws : List Nat) : State :=
  if s.dev = .off then s
  else
    let (e, done, un, s) := s.writeRun p a ws
    s.trailer p [] e done un

/-- One word. -/
def State.portWrite (s : State) (p a v : Nat) : State := s.portWrites p a [v]

/-- Writes fields of a register of a unit: a pair as its two words (R409). -/
def State.hostWrite (s : State) (p : Nat) (r : Reg) (i : Nat) (fs : List (Fld × Nat)) : State :=
  let v := s.wordWith r i fs
  s.portWrites p (r.addr i) (if r.desc.pair then [v % 2 ^ 32, v / 2 ^ 32 % 2 ^ 32] else [v])

/-- R74: FET_RESTART. -/
def execFetRestart (t p : Nat) (s : State) : Host.Outcome State Fault Refusal :=
  if isPort p = true then .next ((s.at t).hostWrite p .HVS_CMD 0 [(.HVS_CMD_FET_RESTART, 1)]) else .fault .noSuchUnit

/-- R99: PEAK_CLEAR. -/
def execPeakClear (t p : Nat) (s : State) : Host.Outcome State Fault Refusal :=
  if isPort p = true then .next ((s.at t).hostWrite p .HVS_CMD 0 [(.HVS_CMD_PEAK_CLEAR, 1)]) else .fault .noSuchUnit

/-- R84: RAIL_RETRY. -/
def execRailRetry (t p : Nat) (s : State) : Host.Outcome State Fault Refusal :=
  if isPort p = true then .next ((s.at t).hostWrite p .PWR_CMD 0 [(.PWR_CMD_RAIL_RETRY, 1)]) else .fault .noSuchUnit

/-- R119: REBOOT. -/
def execReboot (t p : Nat) (s : State) : Host.Outcome State Fault Refusal :=
  if isPort p = true then .next ((s.at t).hostWrite p .BOOT_CMD 0 [(.BOOT_CMD_REBOOT, 1)]) else .fault .noSuchUnit

/-- R89: ISLAND_FLOOR. -/
def execIslandFloor (t p k v : Nat) (s : State) : Host.Outcome State Fault Refusal :=
  if k < numIslands ∧ isPort p = true then
    .next ((s.at t).hostWrite p .PWR_ISLAND k [(.PWR_ISLAND_FLOOR, v)])
  else .fault .noSuchUnit

/-- R55: REALIGN. -/
def execRealign (t p : Nat) (s : State) : Host.Outcome State Fault Refusal :=
  if isPort p = true then .next ((s.at t).hostWrite p .TB_CMD 0 [(.TB_CMD_REALIGN, 1)]) else .fault .noSuchUnit

/-- R59: SET_SEC. -/
def execSetSec (t p : Nat) (s : State) : Host.Outcome State Fault Refusal :=
  if isPort p = true then .next ((s.at t).hostWrite p .TB_CMD 0 [(.TB_CMD_SET_SEC, 1)]) else .fault .noSuchUnit

/-- R60, R423: LEAP_ANNOUNCE. -/
def execLeapAnnounce (t p sec dir : Nat) (s : State) : Host.Outcome State Fault Refusal :=
  if isPort p = true then
    .next ((s.at t).hostWrite p .TB_LEAP 0 [(.TB_LEAP_SEC, sec), (.TB_LEAP_DIR, dir)])
  else .fault .noSuchUnit

/-- R69: SYSREF_BURST. -/
def execSysrefBurst (t p : Nat) (s : State) : Host.Outcome State Fault Refusal :=
  if isPort p = true then .next ((s.at t).hostWrite p .TB_CMD 0 [(.TB_CMD_SYSREF_BURST, 1)]) else .fault .noSuchUnit

/-- R65: FRAME_COMMIT. -/
def execFrameCommit (t p : Nat) (s : State) : Host.Outcome State Fault Refusal :=
  if isPort p = true then
    .next ((s.at t).hostWrite p .TB_FRAME_COMMIT 0 [(.TB_FRAME_COMMIT_COMMIT, 1)])
  else .fault .noSuchUnit

/-- R187: ARM_CHANNEL. -/
def execArmChannel (t p n : Nat) (s : State) : Host.Outcome State Fault Refusal :=
  if n < numChannels ∧ isPort p = true then
    .next ((s.at t).hostWrite p .TCH_ARM n [(.TCH_ARM_ARM, 1)])
  else .fault .noSuchUnit

/-- R187: DISARM_CHANNEL. -/
def execDisarmChannel (t p n : Nat) (s : State) : Host.Outcome State Fault Refusal :=
  if n < numChannels ∧ isPort p = true then
    .next ((s.at t).hostWrite p .TCH_ARM n [(.TCH_ARM_ARM, 0)])
  else .fault .noSuchUnit

/-- R162: CAL_RESTART. -/
def execCalRestart (t p n : Nat) (s : State) : Host.Outcome State Fault Refusal :=
  if n < numChannels ∧ isPort p = true then
    .next ((s.at t).hostWrite p .TCH_BE_CMD n [(.TCH_BE_CMD_CAL_RESTART, 1)])
  else .fault .noSuchUnit

/-- R132: FE_COMMIT. -/
def execFeCommit (t p n : Nat) (s : State) : Host.Outcome State Fault Refusal :=
  if n < numChannels ∧ isPort p = true then
    .next ((s.at t).hostWrite p .TCH_FE_COMMIT n [(.TCH_FE_COMMIT_COMMIT, 1)])
  else .fault .noSuchUnit

/-- R142: WINDOW_ENABLE. -/
def execWindowEnable (t p n en : Nat) (s : State) : Host.Outcome State Fault Refusal :=
  if n < numChannels ∧ isPort p = true then
    .next ((s.at t).hostWrite p .TCH_WIN_CTL n [(.TCH_WIN_CTL_ENABLE, en)])
  else .fault .noSuchUnit

/-- R182: BE_RETIRE. -/
def execBeRetire (t p n : Nat) (s : State) : Host.Outcome State Fault Refusal :=
  if n < numChannels ∧ isPort p = true then
    .next ((s.at t).hostWrite p .TCH_BE_CMD n [(.TCH_BE_CMD_RETIRE, 1)])
  else .fault .noSuchUnit

/-- R182: RETIRE_NOW. -/
def execRetireNow (t p n : Nat) (s : State) : Host.Outcome State Fault Refusal :=
  if n < numChannels ∧ isPort p = true then
    .next ((s.at t).hostWrite p .TCH_BE_CMD n [(.TCH_BE_CMD_RETIRE, 1), (.TCH_BE_CMD_RETIRE_NOW, 1)])
  else .fault .noSuchUnit

/-- R183: BE_RETURN. -/
def execBeReturn (t p n : Nat) (s : State) : Host.Outcome State Fault Refusal :=
  if n < numChannels ∧ isPort p = true then
    .next ((s.at t).hostWrite p .TCH_BE_CMD n [(.TCH_BE_CMD_RETURN, 1)])
  else .fault .noSuchUnit

/-- R218: START_WAVEFORM. -/
def execStartWaveform (t p n : Nat) (s : State) : Host.Outcome State Fault Refusal :=
  if n < numWaves ∧ isPort p = true then .next ((s.at t).hostWrite p .WCH_ARM n [(.WCH_ARM_ARM, 1)]) else .fault .noSuchUnit

/-- R213: DISARM_WAVEFORM. -/
def execDisarmWaveform (t p n : Nat) (s : State) : Host.Outcome State Fault Refusal :=
  if n < numWaves ∧ isPort p = true then .next ((s.at t).hostWrite p .WCH_ARM n [(.WCH_ARM_ARM, 0)]) else .fault .noSuchUnit

/-- R201: WAVEFORM_COMMIT. -/
def execWaveformCommit (t p n : Nat) (s : State) : Host.Outcome State Fault Refusal :=
  if n < numWaves ∧ isPort p = true then
    .next ((s.at t).hostWrite p .WCH_COMMIT n [(.WCH_COMMIT_COMMIT, 1)])
  else .fault .noSuchUnit

/-- R220: START_CONTEXT. -/
def execStartContext (t p n : Nat) (s : State) : Host.Outcome State Fault Refusal :=
  if n < numContexts ∧ isPort p = true then .next ((s.at t).hostWrite p .MC_CTL n [(.MC_CTL_ARM, 1)]) else .fault .noSuchUnit

/-- R220: DISARM_CONTEXT. -/
def execDisarmContext (t p n : Nat) (s : State) : Host.Outcome State Fault Refusal :=
  if n < numContexts ∧ isPort p = true then .next ((s.at t).hostWrite p .MC_CTL n [(.MC_CTL_ARM, 0)]) else .fault .noSuchUnit

/-- R248: CONTEXT_RESTART. -/
def execContextRestart (t p n : Nat) (s : State) : Host.Outcome State Fault Refusal :=
  if n < numContexts ∧ isPort p = true then
    .next ((s.at t).hostWrite p .MC_CTL n [(.MC_CTL_RESTART, 1)])
  else .fault .noSuchUnit

/-- R241: STAB_CLEAR. -/
def execStabClear (t p n : Nat) (s : State) : Host.Outcome State Fault Refusal :=
  if n < numContexts ∧ isPort p = true then
    .next ((s.at t).hostWrite p .MC_CTL n [(.MC_CTL_STAB_CLEAR, 1)])
  else .fault .noSuchUnit

/-- R256: ARM_ACQUISITION. -/
def execArmAcquisition (t p n : Nat) (s : State) : Host.Outcome State Fault Refusal :=
  if n < numUnits ∧ isPort p = true then .next ((s.at t).hostWrite p .AQ_ARM n [(.AQ_ARM_ARM, 1)]) else .fault .noSuchUnit

/-- R276: DISARM_ACQUISITION. -/
def execDisarmAcquisition (t p n : Nat) (s : State) : Host.Outcome State Fault Refusal :=
  if n < numUnits ∧ isPort p = true then .next ((s.at t).hostWrite p .AQ_ARM n [(.AQ_ARM_ARM, 0)]) else .fault .noSuchUnit

/-- R258: FORCE. -/
def execForce (t p n : Nat) (s : State) : Host.Outcome State Fault Refusal :=
  if n < numUnits ∧ isPort p = true then .next ((s.at t).hostWrite p .AQ_CMD n [(.AQ_CMD_FORCE, 1)]) else .fault .noSuchUnit

/-- R276: ABORT. -/
def execAbort (t p n : Nat) (s : State) : Host.Outcome State Fault Refusal :=
  if n < numUnits ∧ isPort p = true then .next ((s.at t).hostWrite p .AQ_CMD n [(.AQ_CMD_ABORT, 1)]) else .fault .noSuchUnit

/-- R254: PAN_RELEASE. -/
def execPanRelease (t p pan : Nat) (s : State) : Host.Outcome State Fault Refusal :=
  if pan < numPans ∧ isPort p = true then
    .next ((s.at t).hostWrite p .PAN_STATUS pan [(.PAN_STATUS_RELEASE, 1)])
  else .fault .noSuchUnit

/-- R291: FREEZE. -/
def execFreeze (t p n v : Nat) (s : State) : Host.Outcome State Fault Refusal :=
  if n < numUnits ∧ isPort p = true then
    .next ((s.at t).hostWrite p .CRY_CTL n [(.CRY_CTL_FREEZE, v)])
  else .fault .noSuchUnit

/-- R291: CLEAR. -/
def execClear (t p n : Nat) (s : State) : Host.Outcome State Fault Refusal :=
  if n < numUnits ∧ isPort p = true then
    .next ((s.at t).hostWrite p .CRY_CMD n [(.CRY_CMD_CLEAR, 1)])
  else .fault .noSuchUnit

/-- R291: RELEASE. -/
def execRelease (t p n : Nat) (s : State) : Host.Outcome State Fault Refusal :=
  if n < numUnits ∧ isPort p = true then
    .next ((s.at t).hostWrite p .CRY_CMD n [(.CRY_CMD_RELEASE, 1)])
  else .fault .noSuchUnit

/-- R305: RULE_ENABLE. -/
def execRuleEnable (t p v en : Nat) (s : State) : Host.Outcome State Fault Refusal :=
  if v < numRules ∧ isPort p = true then
    .next ((s.at t).hostWrite p .VD_CFG v [(.VD_CFG_ENABLE, en)])
  else .fault .noSuchUnit

/-- R316: MARKER_ARM. -/
def execMarkerArm (t p k : Nat) (s : State) : Host.Outcome State Fault Refusal :=
  if k < numMarkers ∧ isPort p = true then
    .next ((s.at t).hostWrite p .MRK_CTL k [(.MRK_CTL_ARM, 1)])
  else .fault .noSuchUnit

/-- R316: MARKER_DISARM. -/
def execMarkerDisarm (t p k : Nat) (s : State) : Host.Outcome State Fault Refusal :=
  if k < numMarkers ∧ isPort p = true then
    .next ((s.at t).hostWrite p .MRK_CTL k [(.MRK_CTL_ARM, 0)])
  else .fault .noSuchUnit

/-- R322: TRIP_CFG. -/
def execTripCfg (t p i v : Nat) (s : State) : Host.Outcome State Fault Refusal :=
  if i < numTrips ∧ isPort p = true then
    .next ((s.at t).hostWrite p .TRIP_CFG i [(.TRIP_CFG_LATCH, bits v 0 2), (.TRIP_CFG_FORCE, bits v 2 1), (.TRIP_CFG_REL_MK, bits v 8 5)])
  else .fault .noSuchUnit

/-- R328: GO. -/
def execGo (t p c : Nat) (s : State) : Host.Outcome State Fault Refusal :=
  if c < numSluice ∧ isPort p = true then .next ((s.at t).hostWrite p .SLU_CTL c [(.SLU_CTL_GO, 1)]) else .fault .noSuchUnit

/-- R337: DISABLE. -/
def execDisable (t p c : Nat) (s : State) : Host.Outcome State Fault Refusal :=
  if c < numSluice ∧ isPort p = true then
    .next ((s.at t).hostWrite p .SLU_CTL c [(.SLU_CTL_DISABLE, 1)])
  else .fault .noSuchUnit

/-- R338: PAUSE. -/
def execPause (t p c : Nat) (s : State) : Host.Outcome State Fault Refusal :=
  if c < numSluice ∧ isPort p = true then
    .next ((s.at t).hostWrite p .SLU_CTL c [(.SLU_CTL_PAUSE, 1)])
  else .fault .noSuchUnit

/-- R338: RESUME. -/
def execResume (t p c : Nat) (s : State) : Host.Outcome State Fault Refusal :=
  if c < numSluice ∧ isPort p = true then
    .next ((s.at t).hostWrite p .SLU_CTL c [(.SLU_CTL_RESUME, 1)])
  else .fault .noSuchUnit

/-- R330: LIST_COMMIT. -/
def execListCommit (t p c : Nat) (s : State) : Host.Outcome State Fault Refusal :=
  if c < numSluice ∧ isPort p = true then
    .next ((s.at t).hostWrite p .SLU_COMMIT c [(.SLU_COMMIT_COMMIT, 1)])
  else .fault .noSuchUnit

/-- R340: ENGINE_RESUME. -/
def execEngineResume (t p : Nat) (s : State) : Host.Outcome State Fault Refusal :=
  if isPort p = true then
    .next ((s.at t).hostWrite p .SLU_ENGINE_CTL 0 [(.SLU_ENGINE_CTL_RESUME, 1)])
  else .fault .noSuchUnit

/-- R345: DISABLE_ALL. -/
def execDisableAll (t p : Nat) (s : State) : Host.Outcome State Fault Refusal :=
  if isPort p = true then
    .next ((s.at t).hostWrite p .SLU_ENGINE_CTL 0 [(.SLU_ENGINE_CTL_DISABLE_ALL, 1)])
  else .fault .noSuchUnit

/-- R353: LANE_ENABLE. -/
def execLaneEnable (t p l en : Nat) (s : State) : Host.Outcome State Fault Refusal :=
  if l < numLanes ∧ isPort p = true then
    .next ((s.at t).hostWrite p .LNK_LANE_CTL l [(.LNK_LANE_CTL_ENABLE, en)])
  else .fault .noSuchUnit

/-- R359: RETRAIN. -/
def execRetrain (t p l : Nat) (s : State) : Host.Outcome State Fault Refusal :=
  if l < numLanes ∧ isPort p = true then
    .next ((s.at t).hostWrite p .LNK_LANE_CMD l [(.LNK_LANE_CMD_RETRAIN, 1)])
  else .fault .noSuchUnit

/-- R355: SLIP. -/
def execSlip (t p l : Nat) (s : State) : Host.Outcome State Fault Refusal :=
  if l < numLanes ∧ isPort p = true then
    .next ((s.at t).hostWrite p .LNK_LANE_CMD l [(.LNK_LANE_CMD_SLIP, 1)])
  else .fault .noSuchUnit

/-- R360: LANE_RETIRE. -/
def execLaneRetire (t p l : Nat) (s : State) : Host.Outcome State Fault Refusal :=
  if l < numLanes ∧ isPort p = true then
    .next ((s.at t).hostWrite p .LNK_LANE_CMD l [(.LNK_LANE_CMD_RETIRE, 1)])
  else .fault .noSuchUnit

/-- R361: LANE_RETURN. -/
def execLaneReturn (t p l : Nat) (s : State) : Host.Outcome State Fault Refusal :=
  if l < numLanes ∧ isPort p = true then
    .next ((s.at t).hostWrite p .LNK_LANE_CMD l [(.LNK_LANE_CMD_RETURN, 1)])
  else .fault .noSuchUnit

/-- R393: P1_REQ. -/
def execP1Req (t p l v : Nat) (s : State) : Host.Outcome State Fault Refusal :=
  if l < numLanes ∧ isPort p = true then
    .next ((s.at t).hostWrite p .LNK_LANE_CTL l [(.LNK_LANE_CTL_P1_REQ, v)])
  else .fault .noSuchUnit

/-- R363: P2. -/
def execP2 (t p q : Nat) (s : State) : Host.Outcome State Fault Refusal :=
  if q < numQuads ∧ isPort p = true then
    .next ((s.at t).hostWrite p .LNK_QUAD_CTL q [(.LNK_QUAD_CTL_PWR, 2)])
  else .fault .noSuchUnit

/-- R363: P2_EXIT. -/
def execP2Exit (t p q : Nat) (s : State) : Host.Outcome State Fault Refusal :=
  if q < numQuads ∧ isPort p = true then
    .next ((s.at t).hostWrite p .LNK_QUAD_CTL q [(.LNK_QUAD_CTL_PWR, 0)])
  else .fault .noSuchUnit

/-- R377: LINK_UP. -/
def execLinkUp (t p b en : Nat) (s : State) : Host.Outcome State Fault Refusal :=
  if b < numLinks ∧ isPort p = true then
    .next ((s.at t).hostWrite p .LNK_LINK_CTL b [(.LNK_LINK_CTL_ENABLE, en)])
  else .fault .noSuchUnit

/-- R407: REGISTER_WRITE. -/
def execRegisterWrite (t p addr data : Nat) (s : State) : Host.Outcome State Fault Refusal :=
  if isPort p = true then .next ((s.at t).portWrite p addr data) else .fault .noSuchUnit

/-- R410: EVENT_WRITE_BACK. -/
def execEventWriteBack (t p addr data : Nat) (s : State) : Host.Outcome State Fault Refusal :=
  if isPort p = true then .next ((s.at t).portWrite p addr data) else .fault .noSuchUnit

/-- R414: TIDE_GATE. -/
def execTideGate (t p key : Nat) (s : State) : Host.Outcome State Fault Refusal :=
  if isPort p = true then .next ((s.at t).hostWrite p .DEV_TIDEGATE 0 [(.DEV_TIDEGATE_KEY, key)]) else .fault .noSuchUnit

/-- R417: HARVEST. -/
def execHarvest (t p : Nat) (s : State) : Host.Outcome State Fault Refusal :=
  if isPort p = true then .next ((s.at t).hostWrite p .DEV_CMD 0 [(.DEV_CMD_HARVEST, 1)]) else .fault .noSuchUnit

/-- R422: ENTER_TEST. -/
def execEnterTest (t p : Nat) (s : State) : Host.Outcome State Fault Refusal :=
  if isPort p = true then .next ((s.at t).hostWrite p .DEV_CMD 0 [(.DEV_CMD_ENTER_TEST, 1)]) else .fault .noSuchUnit

/-- R422: LEAVE_TEST. -/
def execLeaveTest (t p : Nat) (s : State) : Host.Outcome State Fault Refusal :=
  if isPort p = true then .next ((s.at t).hostWrite p .DEV_CMD 0 [(.DEV_CMD_LEAVE_TEST, 1)]) else .fault .noSuchUnit

/-- R430: LEDGER_SYNC. -/
def execLedgerSync (t p : Nat) (s : State) : Host.Outcome State Fault Refusal :=
  if isPort p = true then .next ((s.at t).hostWrite p .LIFE_CMD 0 [(.LIFE_CMD_LEDGER_SYNC, 1)]) else .fault .noSuchUnit

/-- R438: REFRESH. -/
def execRefresh (t p : Nat) (s : State) : Host.Outcome State Fault Refusal :=
  if isPort p = true then .next ((s.at t).hostWrite p .LIFE_CMD 0 [(.LIFE_CMD_REFRESH, 1)]) else .fault .noSuchUnit

/-- R441: UNIT_RETIRE. -/
def execUnitRetire (t p kind index : Nat) (s : State) : Host.Outcome State Fault Refusal :=
  if isPort p = true then
    .next ((s.at t).hostWrite p .LIFE_UNIT_CMD 0
      [(.LIFE_UNIT_CMD_KIND, kind), (.LIFE_UNIT_CMD_INDEX, index), (.LIFE_UNIT_CMD_RETIRE, 1)])
  else .fault .noSuchUnit

/-- R441: UNIT_RETURN. -/
def execUnitReturn (t p kind index : Nat) (s : State) : Host.Outcome State Fault Refusal :=
  if isPort p = true then
    .next ((s.at t).hostWrite p .LIFE_UNIT_CMD 0
      [(.LIFE_UNIT_CMD_KIND, kind), (.LIFE_UNIT_CMD_INDEX, index), (.LIFE_UNIT_CMD_RETURN, 1)])
  else .fault .noSuchUnit

/-- R318, R320: TRIP_SELECT: MRK_TRIPSEL, or TRIP_SEL of a trip output. -/
def execTripSelect (t p : Nat) (trip : Bool) (i lines : Nat) (s : State) : Host.Outcome State Fault Refusal :=
  if trip then
    if i < numTrips ∧ isPort p = true then .next ((s.at t).hostWrite p .TRIP_SEL i [(.TRIP_SEL_LINES, lines)])
    else .fault .noSuchUnit
  else if i < numMarkers ∧ isPort p = true then
    .next ((s.at t).hostWrite p .MRK_TRIPSEL i [(.MRK_TRIPSEL_LINES, lines)])
  else .fault .noSuchUnit

end Sys2Proof.Machine
end

