-- ==== Sys2Proof/Machine/Events.lean ====
section
/-!
DEFINITION. Events that reach several units: the faults of the converter links (R191, R193), the firings of the markers
(R211, R295, R314), and the instants of a Harvest (R245, R417).
-/

namespace Sys2Proof.Machine

/-! ## Converter links -/

/-- R193: an ingest fault of a slot that feeds an armed channel. -/
def State.ingestFault (s : State) (slot : Nat) : State := (s.loseIngest slot).declare kIngest false

/-- Whether an armed channel uses a slot (R193): its chain, with the slot selected by PAIR. -/
def State.slotFeeds (s : State) (slot : Nat) : Bool :=
  s.slotUsed slot && (s.users (slot / 2)).any fun n => (s.wave n).armed

/-- R193: a CRC-12 mismatch; the sixteenth within 1 ms is an ingest fault. -/
def State.crcMismatch (s : State) (slot : Nat) : State :=
  if (s.slot slot).state = 3 ∧ s.slotFeeds slot = true then
    let s := s.crcError slot
    let bad := s.now :: ((s.slot slot).bad.filter fun x => decide (s.now < x + qMs)).take 15
    let s := s.setSlot slot { s.slot slot with bad := bad }
    if 16 ≤ bad.length then s.ingestFault slot else s
  else s

/-- R193: lock or margin of a slot is lost. Where no armed channel is fed, the slot falls back to BLOCK (log entry 43). -/
def State.slotLost (s : State) (slot : Nat) : State :=
  let x := s.slot slot
  if x.state < 2 then s
  else if x.state = 3 ∧ s.slotFeeds slot = true then s.ingestFault slot
  else s.setSlot slot { x with state := 1, bad := [] }

/-- R191, R193: the margin of a slot at a release; one of 0 is an ingest fault. -/
def State.checkMargin (s : State) (slot octets : Nat) : State :=
  let s := s.noteMargin slot octets
  if octets = 0 ∧ (s.slot slot).state = 3 ∧ s.slotFeeds slot = true then s.ingestFault slot else s

/-! ## Harvest -/

/-- R245, R417: the instant H: the parts are copied as they stand. -/
def State.harvestAt (s : State) : State :=
  match s.bank.due with
  | some x =>
    if x ≤ s.now then
      { s with bank := { s.bank with due := none, next := s.harvestRegs, nextStabs := s.stabs, qual := s.qual } }
    else s
  | none => s

/-- R417: the bank is complete. -/
def State.harvestEnd (s : State) : State :=
  if s.bank.busy ∧ s.bank.due = none then
    let b := s.bank
    let s := { s with bank := { b with regs := b.next, stabs := b.nextStabs, next := [], nextStabs := [], busy := false } }
    let s := (s.put .DEV_HARVEST_TIME_TIME 0 b.time).put .DEV_HARVEST_QUAL 0 b.qual
    (s.bump .DEV_HARVEST_HSEQ).raise .DEV_EVENT_HARVEST_DONE
  else s

/-! ## Commands -/

/-- R193: JESD_CRC_ERROR. -/
def execJesdCrcError (t slot : Nat) (s : State) : Host.Outcome State Fault Refusal :=
  if slot < numSlots then .next ((s.at t).crcMismatch slot) else .fault .noSuchUnit

/-- R193: INGEST_FAULT. -/
def execIngestFault (t slot : Nat) (s : State) : Host.Outcome State Fault Refusal :=
  if slot < numSlots then .next ((s.at t).slotLost slot) else .fault .noSuchUnit

/-- R191: EMB_LOCK. -/
def execEmbLock (t slot : Nat) (s : State) : Host.Outcome State Fault Refusal :=
  if slot < numSlots then
    let s := s.at t
    .next (if (s.slot slot).state = 1 then s.setSlot slot { s.slot slot with state := 2 } else s)
  else .fault .noSuchUnit

/-- R191: EMB_RELEASE: the samples that the two slots of a chain release, and their margins in octets. -/
def execEmbRelease (t m : Nat) (a b : List Int) (ma mb : Nat) (s : State) : Host.Outcome State Fault Refusal :=
  if m < numWaves then
    let s := ((s.at t).checkMargin (2 * m) ma).checkMargin (2 * m + 1) mb
    .next (if s.flowing m && !s.time.halted then s.releaseEmb m a b else s)
  else .fault .noSuchUnit

/-- R211, R295, R314: FIRING. -/
def execFiring (t k bin : Nat) (s : State) : Host.Outcome State Fault Refusal :=
  if k < numMarkers then
    .next (match (s.at t).fire k bin with
      | (some x, s) => (s.waveMarker k x).masksMarker k x
      | (none, s) => s)
  else .fault .noSuchUnit

/-- R314: PULSE_END. -/
def execPulseEnd (t k bin : Nat) (s : State) : Host.Outcome State Fault Refusal :=
  if k < numMarkers then .next ((s.at t).fall k bin) else .fault .noSuchUnit

/-- R417: HARVEST_INSTANT. -/
def execHarvestInstant (t : Nat) (s : State) : Host.Outcome State Fault Refusal := .next (s.at t).harvestAt

/-- R417: HARVEST_DONE. -/
def execHarvestDone (t : Nat) (s : State) : Host.Outcome State Fault Refusal := .next (s.at t).harvestEnd

end Sys2Proof.Machine
end

