-- ==== Sys2Proof/Machine/Governor.lean ====
section
/-!
DEFINITION. The 1 ms tick of the governor (R88, R90-R96): sensors, heat, budget and load, admissions, the targets of the
islands, restorations, and the rails (R83, R84). Power is counted in 1/163,840 mW, so that nothing is rounded before the
registers.
-/

namespace Sys2Proof.Machine

/-! ## Sensors -/

/-- R95: the die of a sensor. -/
def dieOf (i : Nat) : Nat := if i < 12 then 0 else if i < 20 then 1 + (i - 12) / 2 else if i < 22 then i - 15 else 7

/-- The highest of the valid readings that `p` selects. -/
def hottest (valid : List Bool) (temps : List Int) (p : Nat → Bool) : Option Int :=
  ((List.range 24).filter fun i => valid.getD i false && p i).foldl (fun m i =>
    let x := temps.getD i 0
    some (match m with
      | some y => max x y
      | none => x)) none

/-- R95: a reading, or what replaces it: temperatures are in 1/8 °C. -/
def replaced (valid : List Bool) (temps : List Int) (i : Nat) : Int :=
  if valid.getD i false then temps.getD i 0
  else match hottest valid temps fun j => dieOf j == dieOf i with
    | some x => x
    | none => match hottest valid temps fun _ => true with
      | some x => x + 80
      | none => temps.getD i 0

/-- R95: the readings of a tick: three consecutive readings outside or inside the range change a sensor's validity. -/
def State.readSensors (s : State) (temps : List Int) : State :=
  let g := s.gov
  let inside := fun i => decide (-320 ≤ temps.getD i 0) && decide (temps.getD i 0 ≤ 1200)
  let bad := (List.range 24).map fun i => if inside i then 0 else min 3 (g.bad.getD i 0 + 1)
  let good := (List.range 24).map fun i => if inside i then min 3 (g.good.getD i 0 + 1) else 0
  let valid := (List.range 24).map fun i =>
    if g.valid.getD i true then decide (bad.getD i 0 < 3) else decide (3 ≤ good.getD i 0)
  let lost := (List.range 24).any fun i => g.valid.getD i true && !valid.getD i true
  let shown := (List.range 24).map fun i => replaced valid temps i
  let s := { s with gov := { g with bad := bad, good := good, valid := valid, temps := shown } }
  let s := (List.range 24).foldl (fun s i =>
    (s.put .PWR_TEMP_TEMP i (ofSigned 12 (shown.getD i 0))).put .PWR_TEMP_VALID i (b2n (valid.getD i false))) s
  if lost then s.raise .PWR_EVENT_SENSOR_LOST else s

/-- R96: tmax, and the first sensor that shows it. -/
def State.tmax (s : State) : Int × Nat :=
  (List.range 24).foldl (fun m i => if m.1 < s.gov.temps.getD i 0 then (s.gov.temps.getD i 0, i) else m)
    (s.gov.temps.getD 0 0, 0)

/-- R29: since when every sensor has been below 100 °C. -/
def State.noteCool (s : State) : State :=
  let cool := if s.allBelow 100 then some (s.gov.cool.getD s.now) else none
  { s with gov := { s.gov with cool := cool } }

/-! ## Heat -/

/-- R96: shed subjects are disarmed and counted. -/
def State.shedChans (s : State) (ns : List Nat) : State :=
  ns.foldl (fun s n => ((s.disarmChan n).put .TCH_ARM_ARM n 0).count .PWR_SHED_COUNT) s
def State.shedWaves (s : State) (ns : List Nat) : State :=
  ns.foldl (fun s n => ((s.disarmWave n).put .WCH_ARM_ARM n 0).count .PWR_SHED_COUNT) s
def State.shedContexts (s : State) (ns : List Nat) : State :=
  ns.foldl (fun s n => ((s.disarmCtx n).put .MC_CTL_ARM n 0).count .PWR_SHED_COUNT) s
def State.shedAcqs (s : State) (ns : List Nat) : State :=
  ns.foldl (fun s n => ((s.disarmAcq n).put .AQ_ARM_ARM n 0).count .PWR_SHED_COUNT) s

/-- R96: the survey subjects of each step. -/
def State.surveyAcqs (s : State) (maps : Bool) : List Nat :=
  (List.range 16).filter fun n => (s.acq n).armed && !s.aqGuard n && (s.get .CRY_CFG_KIND n == 2) == maps
def State.surveyWaves (s : State) : List Nat :=
  (List.range 16).filter fun n => (s.wave n).armed && !s.flag .WCH_SOURCE_CLASS n
def State.surveyContexts (s : State) (stab : Bool) : List Nat :=
  s.armedContexts.filter fun n => !s.ctxGuard n && (!stab || s.flag .MC_CFG_STAB n)
def State.surveyChans (s : State) (k : Nat) : List Nat :=
  (islandChans k).filter fun n => (s.chan n).armed && !s.srcGuard n

/-- R96: the next step that is not empty. -/
def State.shedStep (s : State) : State :=
  let done (n : Nat) (s : State) : State := s.put .PWR_STATUS_STEP 0 n
  let maps := s.surveyAcqs true
  let acqs := s.surveyAcqs false
  let stabs := s.surveyContexts true
  let ctxs := s.surveyContexts false
  if !maps.isEmpty then done 1 (s.shedAcqs maps)
  else if !acqs.isEmpty then done 2 (s.shedAcqs acqs)
  else if !s.surveyWaves.isEmpty then done 3 (s.shedWaves s.surveyWaves)
  else if !stabs.isEmpty then done 4 (s.shedContexts stabs)
  else match (List.range 8).reverse.find? fun k => !(s.surveyChans k).isEmpty with
    | some k => done 5 (s.shedChans (s.surveyChans k))
    | none => if ctxs.isEmpty then s else done 6 (s.shedContexts ctxs)

/-- R96: deferral. -/
def State.defer (s : State) (t : Int) : State :=
  if 760 ≤ t then (if s.flag .PWR_STATUS_DEFER then s else (s.put .PWR_STATUS_DEFER 0 1).raise .PWR_EVENT_DEFER_START)
  else if t ≤ 744 then s.put .PWR_STATUS_DEFER 0 0
  else s

/-- R96: shedding. -/
def State.shed (s : State) (t : Int) : State :=
  let cold := (List.range 24).all fun i => !s.gov.valid.getD i true || decide (s.gov.temps.getD i 0 < 840)
  if s.flag .PWR_STATUS_SHEDDING then
    if cold then s.put .PWR_STATUS_SHEDDING 0 0 else s.shedStep
  else if 880 ≤ t then ((s.put .PWR_STATUS_SHEDDING 0 1).raise .PWR_EVENT_SHED_START).shedStep
  else s

/-- R95, R96: the sensor whose reading shuts the device down at a tick: a valid one at 120 °C. When none is valid, the index
in the ledger is a free value. -/
def State.overheated (s : State) : Option Nat × State :=
  if s.gov.valid.any id then ((List.range 24).find? fun i => s.gov.valid.getD i false && decide (960 ≤ s.gov.temps.getD i 0), s)
  else
    let (v, s) := s.free
    (some (v % 24), s)

/-! ## Budget and load -/

/-- R91: pmeas: the mean of the last 16 readings of the input power, as it falls on the logic side. Before 16 ticks have come
the missing readings count as 0 mW (DESIGN CHOICE, log entry 87). -/
def State.pmeas (s : State) : Nat := 10 * s.gov.pin.sum * s.inForce .PWR_CFG_EFF

/-- R91: what is committed of a charge. -/
def State.committed (s : State) (guard : Bool) : Nat :=
  (((s.gov.held.filter fun c => c.guard == guard).map (·.cost)).sum) * 16384

/-- R91: the budget. -/
def State.budget (s : State) (t : Int) : Int :=
  let bpow : Nat := s.inForce .PWR_LIMIT_INPUT_MW * s.inForce .PWR_CFG_EFF / 1024 * 163840
  let heat : Int := (s.inForce .PWR_THERM_GAIN : Int) * (8 * (s.inForce .PWR_THERM_TARGET : Int) - t) * 20480
  min (bpow : Int) (max 0 (s.pmeas + heat))

/-- R91: the load. -/
def State.load (s : State) : Int :=
  let slice : Int := s.get .PWR_GUARD_SLICE_MW * 163840
  max (s.committed false + slice) (s.pmeas + slice - s.committed true)

/-- A power in whole mW, held in a field of 20 bits. -/
def milliwatts (x : Int) : Nat := min (quot x.toNat 163840) (2 ^ 20 - 1)

/-- R93: the charge of each island's cost follows its channels. -/
def State.rechargeIslands (s : State) : State :=
  let held := s.gov.held.map fun c => match c.subj with
    | .island k => { c with guard := s.islandGuard k }
    | _ => c
  { s with gov := { s.gov with held := held } }

/-- R90: whether an instant lies before the AOCLK cycle of the present tick. -/
def State.beforeTick (s : State) (x : Nat) : Bool := decide (aoCycle x < aoCycle s.now)

/-- R94: costs whose subjects have stopped before the tick's cycle are released (R90), and those of lanes that returned are
committed (R361). -/
def State.settleCosts (s : State) : State :=
  let g := s.gov
  let s := { s with gov := { g with
    held := g.held.filter fun c => !g.ended.any fun x => decide (x.subj = c.subj) && s.beforeTick x.at_
    ended := g.ended.filter fun x => !s.beforeTick x.at_, returns := [] } }
  g.returns.foldl (fun s l =>
    if (s.link (s.get .LNK_LANE_CFG_LINK l)).up then s.commitCost (.lane l) (s.costOf (.lane l)) false else s) s

/-! ## Admissions -/

/-- R89, R93: the wake of an island is admitted: its other wakes are withdrawn. -/
def State.admitWake (s : State) (k : Nat) (guard : Bool) (cost : Nat) : State :=
  let s := ((s.withdraw (.wake k 0)).withdraw (.wake k 1)).withdraw (.wake k 2)
  let i := s.island k
  if i.state = 0 ∨ i.wakeAt.isSome then s
  else
    let s := s.setIsland k { i with wakeAt := some s.now, target := none }
    if 2 ≤ i.state then s.commitCost (.island k) cost guard else s

/-- R377: LINK_UP is admitted: the costs of its lanes are held, and the lanes may start. -/
def State.admitUp (s : State) (b : Nat) : State :=
  let s := s.setLink b { s.link b with pend := false, up := true }
  ((s.linkWorking b).foldl (fun s l => s.commitCost (.lane l) (s.costOf (.lane l)) false) s).wakeLanes

/-- R91, R94: a task is admitted and holds its cost. -/
def State.admitTask (s : State) (x : Subject) (guard : Bool) : State :=
  let cost := s.costOf x
  match x with
  | .wake k _ => s.admitWake k guard cost
  | .chan n =>
    let k := islandOf n
    -- R61: the PLL of an island in SLEEP or OFF starts with the admission of the arm
    let s := if 2 ≤ (s.island k).state ∧ (s.island k).wakeAt = none then s.admitWake k guard (s.costOf (.island k)) else s
    (s.admitChan n).commitCost x cost guard
  | .wave n => (s.admitWave n).commitCost x cost guard
  | .ctx n => (s.admitContext n).commitCost x cost guard
  | .acq n => (s.admitAcq n).commitCost x cost guard
  | .link b => s.admitUp b
  | .base | .island _ | .lane _ => s

/-- R94: what an admission adds: a wake of an island that already holds its cost adds nothing. -/
def State.addedCost (s : State) (x : Subject) : Nat := match x with
  | .wake k _ => if (s.island k).state < 2 ∨ (s.island k).wakeAt.isSome then 0 else s.costOf x
  | _ => s.costOf x

/-- R90, R91: the oldest task of a class that this tick examines. -/
def State.oldest (s : State) (cls : Nat) : Option Task :=
  match s.gov.queue cls with
  | t :: _ => if s.beforeTick t.at_ then some t else none
  | [] => none

/-- R91: the guard queue: every task, up to `n`; the answer is how many may still be admitted. -/
def State.admitGuards (s : State) : Nat → Nat × State
  | 0 => (0, s)
  | n + 1 => match s.oldest 0 with
    | none => (n + 1, s)
    | some t => ((s.withdraw t.subj).admitTask t.subj true).admitGuards n

/-- R91: the system or survey queue: until a task does not fit in `free`. The answer is the rest of both. -/
def State.admitQueue (s : State) (cls : Nat) : Nat → Int → Nat × Int × State
  | 0, free => (0, free, s)
  | n + 1, free => match s.oldest cls with
    | none => (n + 1, free, s)
    | some t =>
      let cost : Int := s.addedCost t.subj * 16384
      if free < cost then (n + 1, free, s)
      else ((s.withdraw t.subj).admitTask t.subj false).admitQueue cls n (free - cost)

/-- R43, R90: a subject is pending again for a tick in the cycle of its disarm. -/
def State.markPending (s : State) : Subject → State
  | .chan n => s.setChan n { s.chan n with pend := true }
  | .wave n => s.setWave n { s.wave n with pend := true }
  | .ctx n => s.setCtx n { s.ctx n with pend := true }
  | .acq n => s.setAcq n { s.acq n with pend := true }
  | .link b => s.setLink b { s.link b with pend := true }
  | .base | .wake _ _ | .island _ | .lane _ => s

/-- R90: the tasks that a disarm has withdrawn in the cycle of the tick are examined by it. -/
def State.revive (s : State) (gone : List (Nat × Nat × Task)) : State :=
  gone.foldl (fun s x =>
    let cls := x.2.1
    let t := x.2.2
    let q := s.gov.queue cls
    let q := (q.filter fun y => decide (y.at_ ≤ t.at_)) ++ t :: q.filter fun y => decide (t.at_ < y.at_)
    ({ s with gov := s.gov.setQueue cls q } : State).markPending t.subj) s

/-- R43, R90: the disarms of the tick's cycle take effect after its admissions. -/
def State.disarmLate (s : State) (gone : List (Nat × Nat × Task)) : State :=
  let s := gone.foldl (fun s x => match x.2.2.subj with
    | .chan n => s.disarmChan n
    | .wave n => s.disarmWave n
    | .ctx n => s.disarmCtx n
    | .acq n => s.disarmAcq n
    | .link b => s.enableLink b 0 1
    | .base | .wake _ _ | .island _ | .lane _ => s) s
  { s with gov := { s.gov with gone := [] } }

/-- R91: budget, load and admissions. -/
def State.admitTasks (s : State) (t : Int) : State :=
  let s := s.rechargeIslands
  let b := s.budget t
  let load := s.load
  let s := (s.put .PWR_BUDGET_MW 0 (milliwatts b)).put .PWR_LOAD_MW 0 (milliwatts load)
  if s.gov.costs = false then s
  else
    let gone := s.gov.gone.filter fun x => !s.beforeTick x.1
    let s := s.revive gone
    let (n, s) := s.admitGuards 1024
    let (n, free, s) := s.admitQueue 1 n (b - load)
    let s := if s.flag .PWR_STATUS_DEFER then s else (s.admitQueue 2 n free).2.2
    s.disarmLate gone

/-! ## Islands -/

/-- R87, R88: an island is raised towards the target of a tick: its wake begins. While a wake task for the island is queued the
raise waits for its admission (DESIGN CHOICE, log entry 88). -/
def State.raiseIsland (s : State) (k : Nat) : State :=
  let i := s.island k
  if i.wakeAt.isSome || ([0, 1, 2] : List Nat).any fun cls => s.queued (.wake k cls) then s
  else
    let s := s.setIsland k { i with wakeAt := some s.now, target := none }
    if 2 ≤ i.state then s.commitCost (.island k) (s.costOf (.island k)) (s.islandGuard k) else s

/-- R88: an island that is to be in a state, ON or IDLE: it is raised, or leaves ON once it has drained. -/
def State.aimIsland (s : State) (k st : Nat) : State :=
  let s := s.touchIsland k
  let i := s.island k
  if st < i.state then s.raiseIsland k else s.setIsland k { i with target := if i.state < st then some st else none }

/-- R88: the target of an island at a tick. -/
def State.targetIsland (s : State) (k : Nat) : State :=
  let i := s.island k
  let floor := s.get .PWR_ISLAND_FLOOR k
  let set (t : Option Nat) (s : State) : State := s.setIsland k { s.island k with target := t }
  if s.power.feDown then s
  else if s.islandArmed k then s.aimIsland k 0
  else if s.islandWatched k then s.aimIsland k 1
  else if floor ≤ 1 then s.aimIsland k floor
  else if (s.flag .PWR_STATUS_SHEDDING ∨ i.unused + s.get .PWR_ISLAND_HOLD_MS k * qMs ≤ s.now) ∧ i.state < floor then
    (if i.state = 0 then set (some floor) s else s.lowerIsland k floor)
  else set none s

/-! ## Rails -/

/-- R83, R84: the PMBus host reads a rail: its voltage and STATUS_WORD, or none where the regulator does not answer. A rail is in
fault after two ticks outside its window; the window is expected 8 ms after its enable. A rail in its window that is not in
fault is good. -/
def State.readRail (s : State) (j : Nat) (x : PmbReply × PmbReply) : State :=
  let r := s.pmbAnswer j x
  let s := match r with
    | some y => (s.notePmb j y).put .PWR_RAIL_VOUT_MV j y.mv
    | none => s
  let inside := match r with
    | some y => inWindow j y.mv
    | none => false
  let s := s.put .PWR_RAIL_PG j (b2n (s.railOn j && inside))
  let good := s.railOn j && inside && s.get .PWR_RAIL_FAULT j == 0 && !s.power.good.contains j
  let s := { s with power := { s.power with good := if good then j :: s.power.good else s.power.good } }
  let due := s.railWatched j && decide (s.power.enabledAt.getD j 0 + 8 * qMs ≤ s.now)
  let n := if due && !inside then s.gov.railBad.getD j 0 + 1 else 0
  let s := { s with gov := { s.gov with railBad := s.gov.railBad.set j (min n 2) } }
  if n < 2 then s
  else s.railFault j (match r with
    | some y => if statusCause y.status = 0 then 1 else statusCause y.status
    | none => 5)

/-- R82-R84, R468: every rail is read; then what waits for rails goes on. -/
def State.readRails (s : State) (rails : List (PmbReply × PmbReply)) : State :=
  let was := s.dieUp
  let silent : PmbReply := { ack := false, pec := false, mv := 0, status := 0, ma := 0 }
  let s := (List.range 10).foldl (fun s j => s.readRail j (rails.getD j (silent, silent))) s
  let s := if s.dev = .boot ∧ s.allRailsGood = true then (s.mark 2).tryAcquire else s
  let s := if s.power.feDown && s.dieUp then s.feBack else if s.dieUp == was then s else s.settleTrips
  (s.railsRestored kHbm).railsRestored kLanes

/-! ## The tick -/

/-- R90, R415: the SH registers of the PWR block apply at the tick. -/
def State.applyPwr (s : State) : State :=
  let s := s.applyAll [.PWR_CFG_EFF, .PWR_LIMIT_INPUT_MW, .PWR_THERM_TARGET, .PWR_THERM_GAIN] 0
  (List.range 8).foldl (fun s i => s.apply .PWR_COST_COST i) s

/-- R426: what the tick adds to the means of the hour. -/
def State.noteHour (s : State) (t : Int) : State :=
  { s with gov := { s.gov with
    hourTj := s.gov.hourTj + t, hourP := s.gov.hourP + quot s.pmeas 16384, hourN := s.gov.hourN + 1 } }

/-- R91, R96: what every tick does about heat, and its admissions. -/
def State.heatTick (s : State) : State :=
  let t := s.tmax.1
  ((s.defer t).shed t).admitTasks t

/-- The rest of the tick in BOOT, RUN, TEST and RECOVERY. -/
def State.logicTick (s : State) (rails : List (PmbReply × PmbReply)) : State :=
  let s := s.noteHour s.tmax.1
  let s := (List.range 8).foldl State.targetIsland s
  let s := (List.range 5).foldl State.beginRestore s
  s.readRails rails

/-- R94, R114: the cost table reaches the tick at which it is in force: BASE is committed again. -/
def State.applyTable (s : State) : State :=
  let was := s.gov.costs
  let s := s.applyCosts.applyPwr
  if s.gov.costs && !was then s.commitCost .base (s.costOf .base) false else s

/-- R91: a tick is counted and takes the input power as it stands. -/
def State.noteTick (s : State) : State :=
  let s := s.bump .PWR_TICK_COUNT
  { s with gov := { s.gov with pin := (s.get .HVS_PIN_MW :: s.gov.pin).take 16 } }

/-- R91, R95: the tick up to the sensors: the tick count, the input power, the sections kept in AO and the shadows, the costs of
subjects that have stopped, and the readings. -/
def State.senseTick (s : State) (temps : List Int) : State :=
  let s := s.noteTick
  let s := (if s.dev = .boot then s.pumpClocks else s).applyTable.settleCosts
  let s := s.readSensors temps
  (s.put .PWR_STATUS_HOTTEST 0 (ofSigned 16 s.tmax.1)).put .PWR_STATUS_HOTTEST_ID 0 s.tmax.2

/-- R91: the tick of the governor. -/
def State.governorTick (s : State) (temps : List Int) (rails : List (PmbReply × PmbReply)) : State :=
  if s.dev = .off then s
  else
    let s := s.senseTick temps
    match (if s.logicState then s.overheated else (none, s)) with
    | (some i, s) => (s.thermalDown i).noteCool
    | (none, s) =>
      let s := s.heatTick
      let s := if s.governs then s.logicTick rails else s
      s.noteCool.rebootDue

/-- R91: GOVERNOR_TICK: the readings of the 24 sensors, in 1/8 °C, and what each rail's
regulator answers to two attempts. -/
def execGovernorTick (t : Nat) (temps : List Int) (rails : List (PmbReply × PmbReply)) (s : State) :
    Host.Outcome State Fault Refusal := .next ((s.at t).governorTick temps rails)

end Sys2Proof.Machine
end

