-- ==== Sys2Proof/Machine/Links.lean ====
section
/-!
DEFINITION. The Borgor links (chapter 14): ALIGN slots, deskew, lane service and admission (R371-R378), the blocks that a
partner sends (R379-R393), register packets (R384-R387), and the verdicts sent (R391). A command is one block, one packet or
one slot; the striping of blocks over lanes is not followed, so that the parity of a lane's blocks is a free value (log entry
44).
-/

namespace Sys2Proof.Machine

/-! ## Lanes of a link -/

/-- The lane of a link with a quad index (R368). -/
def State.linkLane (s : State) (b i : Nat) : Option Nat := (s.linkLanes b).find? fun l => l % 4 == i

/-- The mask of the lanes of a link that satisfy a condition, by quad index. -/
def State.laneMask (s : State) (b : Nat) (f : Lane → Bool) : Nat :=
  (((s.linkLanes b).filter fun l => f (s.lane l)).map fun l => 2 ^ (l % 4)).sum

/-- Whether the blocks of a link arrive on a lane that the partner's SERVICE names (R375). -/
def State.linkHears (s : State) (b : Nat) : Bool :=
  (s.linkLanes b).any fun l => bit (s.link b).rx (l % 4) && (s.lane l).state == 6 && (s.lane l).lock

/-- R371: 16,384 blocks, R374: 32 blocks, and R369: one block, in q, at the rate of a link's quad. -/
def State.blockTime (s : State) (b : Nat) : Nat :=
  let q := ((s.linkLanes b).headD 0) / 4
  if s.get .LNK_QUAD_CFG_RATE q = 1 then 6400 * 16384 else 2560 * 16384
def State.slotTime (s : State) (b : Nat) : Nat := 16384 * s.blockTime b
def State.skewTime (s : State) (b : Nat) : Nat := 32 * s.blockTime b

/-! ## Admission -/

/-- R378: the link is admitted: totals and selections start again, and the channels that draw on it grant credits. -/
def State.admitLink (s : State) (b : Nat) : State :=
  let s := s.setLink b { s.link b with admitted := true, given := [], taken := [], repeatAt := [], stream := none, outSel := none }
  let s := s.raise .LNK_LINK_EVENT_ADMIT b
  (List.range 32).foldl (fun s c =>
    match s.portAt (s.sluFrom c) with
    | some (d, _) => if d = b then s.grantCredits c else s
    | none => s) s

/-- R308, R378, R380, R414: admission ends: queued verdicts are dropped, the selections lapse and the port's gate closes. -/
def State.endLink (s : State) (b : Nat) : State :=
  let k := s.link b
  let s := k.verdicts.foldl (fun s v => s.dropVerdict v.2) s
  let s := s.setLink b { s.link b with admitted := false, verdicts := [], stream := none, outSel := none }
  (s.closeGate (16 + b)).raise .LNK_LINK_EVENT_UNADMIT b

/-- R378: the REASON of NOT_READY. -/
def State.notReadyReason (s : State) (b : Nat) : Nat :=
  if s.dev = .boot then 0
  else if (s.linkWorking b).any fun l => (s.lane l).state != 6 then 1
  else 2

/-- R378: a NOT_READY block of a link. -/
def State.notReadyBlock (s : State) (b : Nat) : Nat :=
  notReadyWord (s.notReadyReason b) (s.readReg 0 false .BOOT_PHASE 0)

/-! ## ALIGN slots -/

/-- R393: a lane out of service with P1 requested sends a P1 block and enters P1. -/
def State.enterP1 (s : State) (b l : Nat) : State :=
  let x := s.lane l
  if x.state = 6 ∧ x.service = false ∧ x.p1 = false ∧ s.get .LNK_LANE_CTL_P1_REQ l = 1 then
    (s.setLane l { x with p1 := true }).sendBlock b (ctrlWord subP1 0 (l % 4))
  else s

/-- R375: the SERVICE bit of a lane in the ALIGN that is formed. -/
def State.nextService (s : State) (l : Nat) : Bool :=
  let x := s.lane l
  if x.service then !x.leaving
  else x.state == 6 && !x.p1 && (s.quad (l / 4)).pwr == 0 && !x.retire && !x.off && s.get .LNK_LANE_CTL_P1_REQ l == 0 &&
    x.offered

/-- R358, R360, R375: a lane takes its SERVICE bit; what waited for it to leave is done. -/
def State.takeService (s : State) (l : Nat) : State :=
  let x := s.lane l
  let on := s.nextService l
  let s := s.setLane l { x with service := on, leaving := x.leaving && !x.service, offered := false }
  if x.service && !on then
    if x.retire then s.retireNow l else if x.off then s.unuse l else s
  else s

/-- R374: the partner's ALIGN is missing on a deskewed lane: two slots in a row lose the deskew. -/
def State.missAlign (s : State) (b l : Nat) : State :=
  let x := s.lane l
  if !x.deskew then s
  else if x.miss < 2 then s.setLane l { x with miss := x.miss + 1 }
  else (s.setLane l { x with deskew := false, miss := 0 }).raise .LNK_LINK_EVENT_DESKEW_FAIL b

/-- R371, R372: every trained lane sends ALIGN. The parity of the payloads is not followed (log entry 44). -/
def State.sendAligns (s : State) (b : Nat) : State :=
  ((s.linkLanes b).filter fun l => (s.lane l).state == 6 && !(s.lane l).p1).foldl (fun s l =>
    let k := s.link b
    let (v, s) := s.free
    s.sendBlock b (alignWord (l % 4) k.tx k.offer b k.aseq k.admitted (v % 256))) s

/-- R371-R378: an ALIGN slot of a link. Before one of its lanes is trained there is none. -/
def State.alignSlot (s : State) (b : Nat) : State :=
  let ls := s.linkLanes b
  let was := (s.link b).tx
  if (ls.any fun l => (s.lane l).state == 6 || (s.lane l).service) = false then
    let s := if (s.link b).admitted then s.endLink b else s
    s.setLink b { s.link b with aseq := 0, rxAseq := none, tx := 0, offer := 0 }
  else
    let s := ls.foldl (fun s l => s.enterP1 b l) s
    let s := ls.foldl (fun s l => s.missAlign b l) s
    let s := ls.foldl State.takeService s
    let s := s.setLink b { s.link b with tx := s.laneMask b (·.service), offer := s.laneMask b (·.deskew) }
    let work := s.linkWorking b
    let ready := !work.isEmpty && work.all fun l => (s.lane l).state == 6 && (s.lane l).deskew
    let k := s.link b
    let s := if !k.admitted && k.up && ready then s.admitLink b
      else if k.admitted && k.tx == 0 && was != 0 then s.endLink b
      else s
    let s := s.sendAligns b
    let s := s.setLink b { s.link b with aseq := ((s.link b).aseq + 1) % 256 }
    if !(s.link b).admitted && (s.link b).tx != 0 then s.sendBlock b (s.notReadyBlock b) else s

/-- R374: whether a partner's ALIGN with an ASEQ fits the link's other deskewed lanes: its slot, and the window of 32 blocks;
with the number of slots since theirs. -/
def State.alignFits (s : State) (b l aseq : Nat) : Option Nat :=
  let k := s.link b
  let others := (s.linkLanes b).any fun m => m != l && (s.lane m).deskew
  match k.rxAseq with
  | none => some 0
  | some a =>
    if !others then some 0
    else
      let p := s.slotTime b
      let d := (s.now - k.rxAt + p / 2) / p
      let due := k.rxAt + d * p
      if aseq = (a + d) % 256 ∧ s.now ≤ due + s.skewTime b ∧ due ≤ s.now + s.skewTime b then some d else none

/-- R376: the slots lost on a lane since its lock was lost, counted when the partner opens an interval without it, or when it
is back. -/
def State.countLost (s : State) (b l : Nat) : State :=
  let x := s.lane l
  match x.lostAt with
  | none => s
  | some t0 =>
    if bit (s.link b).rx (l % 4) && !(x.state == 6 && x.lock) then s
    else
      let (v, s) := s.free
      (s.setLane l { x with lostAt := none }).count .LNK_LINK_LOST_BLOCKS_COUNT b ((s.now - t0) / s.blockTime b + v % 2)

/-- R374, R375: the fields of a valid ALIGN on a lane that it deskews. -/
def State.takeAlign (s : State) (b l payload d : Nat) : State :=
  let aseq := bits payload 24 8
  let s := s.setLane l { s.lane l with deskew := true, miss := 0 }
  let k := s.link b
  let alone := !((s.linkLanes b).any fun m => m != l && (s.lane m).deskew)
  let s := s.setLink b { k with
    rxAseq := some aseq, rxAt := if alone || d != 0 || k.rxAseq.isNone then s.now else k.rxAt,
    rx := bits payload 12 4, partner := bits payload 16 4 }
  (s.linkLanes b).foldl (fun s m =>
    let y := s.lane m
    let s := if bit payload (16 + m % 4) then s.setLane m { y with offered := true }
      else s.setLane m { y with offered := false, leaving := y.leaving || y.service }
    s.countLost b m) s

/-- R373, R374: an ALIGN of the partner on a lane. Whether its BIP agrees is a free value (log entry 44). -/
def State.recvAlign (s : State) (l payload : Nat) : State :=
  let x := s.lane l
  let b := s.get .LNK_LANE_CFG_LINK l
  if s.isJesd l || !x.cfg || x.state != 6 || !x.lock || payload % 256 != 0x33 then s
  else if !checkOk payload then s.count .LNK_LINK_CHK_ERR_COUNT b
  else
    let (v, s) := s.free
    let s := if v % 2 = 1 then s.count .LNK_LINK_BIP_ERR_COUNT b else s
    match s.alignFits b l (bits payload 24 8) with
    | some d => s.takeAlign b l payload d
    | none => (s.setLane l { s.lane l with deskew := false, miss := 0 }).raise .LNK_LINK_EVENT_DESKEW_FAIL b

/-! ## Register packets -/

/-- R384, R385: words of a packet with the CRC word. -/
def withCrc (ws : List Nat) : List Nat := ws ++ [crcWords ws]

/-- Two values to a word, the first in [31:0] (R384, R385). -/
def pairWords : List Nat → List Nat
  | [] => []
  | [a] => [a % 2 ^ 32]
  | a :: b :: rest => (a % 2 ^ 32 + b % 2 ^ 32 * 2 ^ 32) :: pairWords rest

/-- The registers of data words (R384). -/
def unpairWords (ws : List Nat) : List Nat := (ws.map fun w => [w % 2 ^ 32, w / 2 ^ 32 % 2 ^ 32]).flatten

/-- R379, R385: sends a packet: PKT, then its words. -/
def State.sendPacket (s : State) (b : Nat) (ws : List Nat) : State :=
  ws.foldl (fun s w => s.sendBlock b w) (s.sendBlock b (ctrlWord subPkt 0 ws.length))

/-- The responses of R385. -/
def respOk : Nat := 0
def respBusy : Nat := 1
def respNak : Nat := 2
def respLocked : Nat := 3

/-- R385: word 0 of a response. -/
def respWord (op tag done resp err : Nat) : Nat :=
  op + tag * 2 ^ 8 + done * 2 ^ 16 + resp * 2 ^ 24 + err * 2 ^ 32

/-- R384: whether a packet is malformed: too short, its CRC, its OP, its COUNT, or a LEN that does not match them. -/
def packetBad (ws : List Nat) : Bool :=
  let w := ws.headD 0
  let op := bits w 0 8
  let count := bits w 16 8
  let len := if op = 0 then 2 else 2 + (count + 1) / 2
  decide (ws.length < 2) || decide (1 < op) || count == 0 || decide (64 < count) || ws.length != len ||
    ws.getLast?.getD 0 != crcWords ws.dropLast

/-- R123, R468: whether an address belongs to a subsystem under restoration (log entry 45). -/
def State.restoring (s : State) (a : Nat) : Bool :=
  let blks := blkAt (a % 2 ^ 28)
  let at_ (k : Nat) (bs : List Blk) := (s.rest k).declared.isSome && blks.any fun b => bs.contains b
  s.dev == .recovery && (at_ kIs8 [.MC, .AQ, .CRY, .PAN, .VD, .MRK] || at_ kSluice [.SLU] || at_ kLanes [.LNK] ||
    at_ kIngest [.WCH])

/-- R122: whether an address lies in DEV or BOOT. -/
def inDevBoot (a : Nat) : Bool :=
  let r := a % 2 ^ 28
  decide (a < 2 ^ 31) && (decide (r < 0x10000) || (decide (0x30000 ≤ r) && decide (r < 0x40000)))

/-- R408: whether a read of a word has a side effect. -/
def State.sideEffect (s : State) (a : Nat) : Bool := match s.placeAt (a % 2 ^ 28 / 4 * 4) with
  | some x => x.lowWord
  | none => false

/-- R386: a response, kept unless it is BUSY (R387), with the counts of R396. -/
def State.respond (s : State) (b tag crc : Nat) (ws : List Nat) (resp err : Nat) : State :=
  let s := s.count .LNK_LINK_PKTS_COUNT b
  let s := if resp = respBusy then s.count .LNK_LINK_BUSY_COUNT b else s
  let s := if err = ePacket then s.count .LNK_LINK_PKT_ERR_COUNT b else s
  let k := s.link b
  let s := if resp = respBusy then s
    else s.setLink b { k with kept := ({ tag := tag, crc := crc, words := ws } :: k.kept).take 16 }
  s.sendPacket b ws

/-- R123, R386, R398: a packet that is carried out waits for its answer: within 500 ns for each access and 10 µs in all, behind the
link's earlier ones, by a free value. -/
def State.awaitAnswer (s : State) (b count : Nat) : State :=
  let (v, s) := s.free
  let last := (s.pktsPending.filter fun x => x.1 == b).foldl (fun m x => max m x.2) s.now
  let x := max last (s.now + v % (min (count * 500 * qNs) (10 * qUs) + 1))
  { s with pkts := s.pktsPending ++ [(b, x)] }

/-- R386: the accesses of a packet, and the response. -/
def State.runPacket (s : State) (b op tag count addr crc : Nat) (data : List Nat) : State :=
  let p := 16 + b
  let s := s.awaitAnswer b count
  let (vals, err, done, s) := if op = 0 then
      (let (ds, e, d, _, s) := s.readRun p 4 addr count
       (ds, e, d, s))
    else
      (let (e, d, _, s) := s.writeRun p addr data
       ([], e, d, s))
  let resp := if err = 0 then respOk else respNak
  let ws := withCrc (respWord op tag done resp err :: pairWords (vals.take done))
  let s := s.setPort p { s.port p with resp := {
    data := vals.take done, status := resp, err := err, done := done, flags := b2n (s.port p).gate + 2 * b2n s.irq } }
  s.respond b tag crc ws resp err

/-- R384-R387: a request packet whose words have arrived. -/
def State.takePacket (s : State) (b : Nat) (ws : List Nat) : State :=
  let w := ws.headD 0
  let op := bits w 0 8
  let tag := bits w 8 8
  let count := bits w 16 8
  let addr := bits w 32 32
  let crc := ws.getLast?.getD 0 % 2 ^ 32
  let short (resp err : Nat) : State := s.respond b tag crc (withCrc [respWord op tag 0 resp err]) resp err
  let as_ := (List.range count).map fun k => addr + 4 * k
  let reg := s.get .LNK_LINK_CFG_REG b
  let open_ := (s.link b).admitted && s.dev != .boot
  if reg = 0 then short respLocked 0
  else match (s.link b).kept.find? fun k => k.tag == tag && k.crc == crc with
  | some k => (s.count .LNK_LINK_PKTS_COUNT b).sendPacket b k.words
  | none =>
    if packetBad ws then short respNak ePacket
    else if reg = 1 ∧ (op = 1 ∨ as_.any s.sideEffect = true) then short respLocked 0
    else if !open_ && !(op == 0 && as_.all inDevBoot) then short respBusy 0
    else if 64 ≤ s.pktsPending.length ∨ as_.any s.restoring = true then short respBusy 0
    else s.runPacket b op tag count addr crc ((unpairWords (ws.drop 1).dropLast).take count)

/-! ## Blocks -/

/-- R380: a block other than DATA, VERDICT and ALIGN ends a packet in progress. -/
def State.breakPacket (s : State) (b : Nat) : State :=
  let k := s.link b
  match k.packet with
  | some _ => (s.setLink b { k with packet := none }).count .LNK_LINK_PKT_ERR_COUNT b
  | none => s

/-- R388: an ACK, sent and kept under its TAG unless it is BUSY. -/
def State.sendAck (s : State) (b sub tag resp err : Nat) : State :=
  let w := ackWord tag resp err sub
  let k := s.link b
  let s := if resp = respBusy then s
    else s.setLink b { k with kept := ({ tag := tag, crc := 2 ^ 32 + sub, words := [w] } :: k.kept).take 16 }
  s.sendBlock b w

/-- R395: whether a lower link has set the time in the present AOCLK cycle. -/
def State.setByLower (s : State) (b : Nat) : Bool :=
  match s.time.setBy with
  | some (x, c) => aoCycle x == aoCycle s.now && decide (c < b)
  | none => false

/-- R388, R395: the answer to TIME_SET and LEAP. -/
def State.timeCommand (s : State) (b sub payload : Nat) : State :=
  let tag := bits payload 16 8
  let sec := bits payload 24 32
  match (s.link b).kept.find? fun k => k.tag == tag && k.crc == 2 ^ 32 + sub with
  | some k => s.sendBlock b (k.words.headD 0)
  | none =>
    if s.get .LNK_LINK_CFG_TIME b = 0 then s.sendAck b sub tag respLocked 0
    else if (s.link b).admitted = false then s.sendAck b sub tag respBusy 0
    else if sub = subLeap then (s.announceLink sec (bits payload 12 1)).sendAck b sub tag respOk 0
    else if s.setByLower b then s.sendAck b sub tag respBusy 0
    else if s.quiet then
      let s := s.acceptSec sec true
      ({ s with time := { s.time with setBy := some (s.now, b) } }).sendAck b sub tag respOk 0
    else s.sendAck b sub tag respNak eState

/-- R389, R395: TRIGGER. A code meets the conditions of one boundary once, whatever links it comes on. -/
def State.linkTrigger (s : State) (b payload : Nat) : State :=
  let code := bits payload 16 8
  if s.get .LNK_LINK_CFG_TRIG b = 0 then s
  else if bits payload 24 8 ≠ code ^^^ 0xFF then s.count .LNK_LINK_CHK_ERR_COUNT b
  else if (s.link b).admitted = false then s
  else
    let s := s.count .LNK_LINK_TRIGGERS_COUNT b
    let at_ := ceilCoarse s.tick
    let codes := if s.time.linkTrig.1 = at_ then s.time.linkTrig.2 else []
    if s.time.halted ∨ codes.contains code = true then s
    else ({ s with time := { s.time with linkTrig := (at_, code :: codes) } }).aqEvents (.link code at_)

/-- R382: CREDIT: the increase of TOTAL. -/
def State.recvCredit (s : State) (b payload : Nat) : State :=
  let k := s.link b
  let stream := bits payload 16 6
  let total := bits payload 22 12
  if !k.admitted then s
  else
    let n := (total + 4096 - SMap.get (fun _ => 0) k.taken stream) % 4096
    (s.setLink b { k with taken := SMap.set (fun _ => 0) k.taken stream total }).takeCredits b stream n

/-- R379, R373: a CTRL block of the link with a good CHECK. The lane-local SUBs come with their lane. -/
def State.recvCtrl (s : State) (b payload : Nat) : State :=
  let sub := bits payload 8 4
  let k := s.link b
  if sub = subStream then (if k.admitted then s.setLink b { k with stream := some (bits payload 16 6) } else s)
  else if sub = subCredit then s.recvCredit b payload
  else if sub = subStart then (if k.admitted then s.startRequest b (bits payload 16 6) else s)
  else if sub = subPkt then
    (if bits payload 16 8 = 0 then s else s.setLink b { k with packet := some (bits payload 16 8, []) })
  else if sub = subTimeSet ∨ sub = subLeap then s.timeCommand b sub payload
  else if sub = subTrigger then s.linkTrigger b payload
  else if sub = subTrain ∨ sub = subP1 then s
  else s.count .LNK_LINK_UNKNOWN_COUNT b

/-- R370, R373, R379, R380: a control block that arrives on a link. -/
def State.recvBlock (s : State) (b payload : Nat) : State :=
  let typ := payload % 256
  if !s.linkHears b || typ == 0x33 then s
  else if typ = 0x55 then s.count .LNK_LINK_UNKNOWN_COUNT b
  else
    let s := s.breakPacket b
    if typ = 0 then s
    else if typ = 0x4B ∨ typ = 0x78 then
      (if !checkOk payload then s.count .LNK_LINK_CHK_ERR_COUNT b
       else if typ = 0x78 then s.recvCtrl b payload
       else s)
    else s.count .LNK_LINK_UNKNOWN_COUNT b

/-- R350: a DATA block resumes the adaptation of the lanes that carry the link. -/
def State.thawLanes (s : State) (b : Nat) : State :=
  (s.linkLanes b).foldl (fun s l =>
    if bit (s.link b).rx (l % 4) && (s.lane l).frozen then s.setLane l { s.lane l with frozen := false } else s) s

/-- R380, R383: a DATA block. -/
def State.recvData (s : State) (b w : Nat) : State :=
  if !s.linkHears b then s
  else
    let s := s.thawLanes b
    let k := s.link b
    match k.packet with
    | some (len, ws) =>
      let ws := ws ++ [w]
      if len ≤ ws.length then (s.setLink b { k with packet := none }).takePacket b ws
      else s.setLink b { k with packet := some (len, ws) }
    | none =>
      if !k.admitted then s
      else match k.stream with
        | none => s.raise .LNK_LINK_EVENT_PROTOCOL b
        | some stream =>
          let (ok, s) := s.takeData b stream w
          if ok then s else (s.count .LNK_LINK_LOST_BLOCKS_COUNT b).raise .LNK_LINK_EVENT_PROTOCOL b

/-- A whole packet that arrives on a link: PKT and its words (R379, R380). -/
def State.recvPacket (s : State) (b : Nat) (ws : List Nat) : State :=
  if s.linkHears b then ((s.breakPacket b).thawLanes b).takePacket b ws else s

/-- R382: the latest CREDIT of a stream is sent again. -/
def State.repeatCredit (s : State) (b stream : Nat) : State :=
  let k := s.link b
  let waits := (List.range 32).any fun c => s.portAt (s.sluFrom c) == some (b, stream) && decide (0 < (s.sl c).room)
  if k.admitted && waits && decide (SMap.get (fun _ => 0) k.repeatAt stream + 100 * qUs ≤ s.now) then
    (s.setLink b { k with repeatAt := SMap.set (fun _ => 0) k.repeatAt stream s.now }).sendBlock b
      (creditWord stream (SMap.get (fun _ => 0) k.given stream))
  else s

/-- R391: the verdict at the head of a link's queue is sent. -/
def State.sendVerdict (s : State) (b : Nat) : State :=
  let k := s.link b
  match k.verdicts with
  | [] => s
  | (_, w) :: rest =>
    if k.admitted && k.tx != 0 then
      let s := (s.setLink b { k with verdicts := rest }).sendBlock b (verdictBlock w)
      (s.count .LNK_LINK_VERDICTS_COUNT b).count .VD_SENT_COUNT (w / 2 ^ 56)
    else s

/-! ## Lane-local blocks -/

/-- R392: a TRAIN block on a lane in its FFE phase; the lane's next TRAIN block reports what came of the request. -/
def State.recvTrain (s : State) (l payload : Nat) : State :=
  let x := s.lane l
  let b := s.get .LNK_LANE_CFG_LINK l
  if s.isJesd l || x.state != 5 || payload % 256 != 0x78 || bits payload 8 4 != subTrain then s
  else if !checkOk payload then s.count .LNK_LINK_CHK_ERR_COUNT b
  else
    let pre := bits payload 16 4
    let main := bits payload 20 6
    let post := bits payload 26 5
    let s := if !bit payload 31 then s
      else if ffeOk pre main post then
        s.setLane l { x with taps := ((x.taps.set 1 pre).set 2 main).set 3 post, reject := false }
      else s.setLane l { x with reject := true }
    let s := s.sendTrain l
    if bit payload 48 then s.ffeDone l else s

/-- R393: a P1 block of the partner on a lane. -/
def State.recvP1 (s : State) (l payload : Nat) : State :=
  let x := s.lane l
  let b := s.get .LNK_LANE_CFG_LINK l
  if s.isJesd l || x.state != 6 || payload % 256 != 0x78 || bits payload 8 4 != subP1 then s
  else if !checkOk payload then s.count .LNK_LINK_CHK_ERR_COUNT b
  else s.setLane l { x with muted := true }

/-! ## Commands -/

/-- R391: VERDICT. -/
def execVerdict (t link : Nat) (s : State) : Host.Outcome State Fault Refusal :=
  if link < numLinks then .next ((s.at t).sendVerdict link) else .fault .noSuchUnit

/-- R371: ALIGN_SLOT. -/
def execAlignSlot (t b : Nat) (s : State) : Host.Outcome State Fault Refusal :=
  if b < numLinks then .next ((s.at t).alignSlot b) else .fault .noSuchUnit

/-- R374: ALIGN. -/
def execAlign (t lane payload : Nat) (s : State) : Host.Outcome State Fault Refusal :=
  if lane < numLanes then .next ((s.at t).recvAlign lane payload) else .fault .noSuchUnit

/-- R380: DATA. -/
def execData (t b word : Nat) (s : State) : Host.Outcome State Fault Refusal :=
  if b < numLinks then .next ((s.at t).recvData b (word % 2 ^ 64)) else .fault .noSuchUnit

/-- R380: STREAM. -/
def execStream (t b payload : Nat) (s : State) : Host.Outcome State Fault Refusal :=
  if b < numLinks then .next ((s.at t).recvBlock b payload) else .fault .noSuchUnit

/-- R382: CREDIT. -/
def execCredit (t b payload : Nat) (s : State) : Host.Outcome State Fault Refusal :=
  if b < numLinks then .next ((s.at t).recvBlock b payload) else .fault .noSuchUnit

/-- R382: CREDIT_REPEAT. -/
def execCreditRepeat (t b stream : Nat) (s : State) : Host.Outcome State Fault Refusal :=
  if b < numLinks then .next ((s.at t).repeatCredit b stream) else .fault .noSuchUnit

/-- R383: START. -/
def execStart (t b payload : Nat) (s : State) : Host.Outcome State Fault Refusal :=
  if b < numLinks then .next ((s.at t).recvBlock b payload) else .fault .noSuchUnit

/-- R388: TIME_SET. -/
def execTimeSet (t b payload : Nat) (s : State) : Host.Outcome State Fault Refusal :=
  if b < numLinks then .next ((s.at t).recvBlock b payload) else .fault .noSuchUnit

/-- R388: LEAP. -/
def execLeap (t b payload : Nat) (s : State) : Host.Outcome State Fault Refusal :=
  if b < numLinks then .next ((s.at t).recvBlock b payload) else .fault .noSuchUnit

/-- R389: LINK_TRIGGER. -/
def execLinkTrigger (t b payload : Nat) (s : State) : Host.Outcome State Fault Refusal :=
  if b < numLinks then .next ((s.at t).recvBlock b payload) else .fault .noSuchUnit

/-- R392: TRAIN. -/
def execTrain (t lane payload : Nat) (s : State) : Host.Outcome State Fault Refusal :=
  if lane < numLanes then .next ((s.at t).recvTrain lane payload) else .fault .noSuchUnit

/-- R393: P1. -/
def execP1 (t lane payload : Nat) (s : State) : Host.Outcome State Fault Refusal :=
  if lane < numLanes then .next ((s.at t).recvP1 lane payload) else .fault .noSuchUnit

/-- R370: UNKNOWN_BLOCK. -/
def execUnknownBlock (t b payload : Nat) (s : State) : Host.Outcome State Fault Refusal :=
  if b < numLinks then .next ((s.at t).recvBlock b payload) else .fault .noSuchUnit

/-- R384: READ: a whole request packet. -/
def execRead (t b : Nat) (words : List Nat) (s : State) : Host.Outcome State Fault Refusal :=
  if b < numLinks then .next ((s.at t).recvPacket b words) else .fault .noSuchUnit

/-- R384: WRITE_PACKET: a whole request packet. -/
def execWritePacket (t b : Nat) (words : List Nat) (s : State) : Host.Outcome State Fault Refusal :=
  if b < numLinks then .next ((s.at t).recvPacket b words) else .fault .noSuchUnit

end Sys2Proof.Machine
end

