-- ==== Sys2Proof/Machine/Dispatch.lean ====
section
/-! DEFINITION. The meaning of a command: one arm for each row of the table, each a direct call of that row's meaning. -/

namespace Sys2Proof.Machine

/-- What a command does to everything but the queue of commands. -/
def exec (i : Instr) (s : State) : Host.Outcome State Fault Refusal :=
  match i with
  | .uvloRise t => Sys2Proof.Machine.execUvloRise t s
  | .auxEntry t => Sys2Proof.Machine.execAuxEntry t s
  | .aoRelease t => Sys2Proof.Machine.execAoRelease t s
  | .uvloFall t => Sys2Proof.Machine.execUvloFall t s
  | .lowInput t low => Sys2Proof.Machine.execLowInput t low s
  | .overvoltage t => Sys2Proof.Machine.execOvervoltage t s
  | .hotSwapTrip t since ma => Sys2Proof.Machine.execHotSwapTrip t since ma s
  | .fastTrip t ma => Sys2Proof.Machine.execFastTrip t ma s
  | .fetRetry t => Sys2Proof.Machine.execFetRetry t s
  | .fetRestart t p => Sys2Proof.Machine.execFetRestart t p s
  | .peakClear t p => Sys2Proof.Machine.execPeakClear t p s
  | .heartbeatLost t => Sys2Proof.Machine.execHeartbeatLost t s
  | .telemetryFrame t mv ma limiting beat => Sys2Proof.Machine.execTelemetryFrame t mv ma limiting beat s
  | .busEn t mv => Sys2Proof.Machine.execBusEn t mv s
  | .railEnable t => Sys2Proof.Machine.execRailEnable t s
  | .pmbusAlert t j first second => Sys2Proof.Machine.execPmbusAlert t j first second s
  | .railRetry t p => Sys2Proof.Machine.execRailRetry t p s
  | .thermalShutdown t j => Sys2Proof.Machine.execThermalShutdown t j s
  | .thermalCooldown t => Sys2Proof.Machine.execThermalCooldown t s
  | .protectiveRestart t => Sys2Proof.Machine.execProtectiveRestart t s
  | .reboot t p => Sys2Proof.Machine.execReboot t p s
  | .governorTick t temps rails => Sys2Proof.Machine.execGovernorTick t temps rails s
  | .islandFloor t p k v => Sys2Proof.Machine.execIslandFloor t p k v s
  | .wakeIsland t k => Sys2Proof.Machine.execWakeIsland t k s
  | .islandDrained t k => Sys2Proof.Machine.execIslandDrained t k s
  | .islandUnlock t k => Sys2Proof.Machine.execIslandUnlock t k s
  | .islandRelock t k counts => Sys2Proof.Machine.execIslandRelock t k counts s
  | .is8Unlock t => Sys2Proof.Machine.execIs8Unlock t s
  | .is8Relock t => Sys2Proof.Machine.execIs8Relock t s
  | .restorationDone t sub => Sys2Proof.Machine.execRestorationDone t sub s
  | .restorationTimeout t sub => Sys2Proof.Machine.execRestorationTimeout t sub s
  | .restorationHeld t sub => Sys2Proof.Machine.execRestorationHeld t sub s
  | .sfdpRead t found density modes fourByte => Sys2Proof.Machine.execSfdpRead t found density modes fourByte s
  | .slotSelect t a b ledger => Sys2Proof.Machine.execSlotSelect t a b ledger s
  | .pass1 t body => Sys2Proof.Machine.execPass1 t body s
  | .pass2 t body again => Sys2Proof.Machine.execPass2 t body again s
  | .flashTimeout t => Sys2Proof.Machine.execFlashTimeout t s
  | .write t => Sys2Proof.Machine.execWrite t s
  | .modify t => Sys2Proof.Machine.execModify t s
  | .poll t => Sys2Proof.Machine.execPoll t s
  | .pollTimeout t => Sys2Proof.Machine.execPollTimeout t s
  | .delay t => Sys2Proof.Machine.execDelay t s
  | .listBlock t => Sys2Proof.Machine.execListBlock t s
  | .refLock t hz since phase refOut => Sys2Proof.Machine.execRefLock t hz since phase refOut s
  | .holdover t hz missed => Sys2Proof.Machine.execHoldover t hz missed s
  | .ppsEdge t pol bin refOut => Sys2Proof.Machine.execPpsEdge t pol bin refOut s
  | .ppsMissing t => Sys2Proof.Machine.execPpsMissing t s
  | .alignWaitTimeout t => Sys2Proof.Machine.execAlignWaitTimeout t s
  | .realign t p => Sys2Proof.Machine.execRealign t p s
  | .realignTimeout t => Sys2Proof.Machine.execRealignTimeout t s
  | .setSec t p => Sys2Proof.Machine.execSetSec t p s
  | .leapAnnounce t p sec dir => Sys2Proof.Machine.execLeapAnnounce t p sec dir s
  | .sysrefBurst t p => Sys2Proof.Machine.execSysrefBurst t p s
  | .secondBoundary t => Sys2Proof.Machine.execSecondBoundary t s
  | .frameBoundary t inputs => Sys2Proof.Machine.execFrameBoundary t inputs s
  | .frameCommit t p => Sys2Proof.Machine.execFrameCommit t p s
  | .sysrefPulse t bin fallBin => Sys2Proof.Machine.execSysrefPulse t bin fallBin s
  | .periodicAnchor t src => Sys2Proof.Machine.execPeriodicAnchor t src s
  | .gapAnchor t src => Sys2Proof.Machine.execGapAnchor t src s
  | .armChannel t p n => Sys2Proof.Machine.execArmChannel t p n s
  | .disarmChannel t p n => Sys2Proof.Machine.execDisarmChannel t p n s
  | .channelStart t n input bin => Sys2Proof.Machine.execChannelStart t n input bin s
  | .edge t n pol bin => Sys2Proof.Machine.execEdge t n pol bin s
  | .runtPulse t n width bin endBin => Sys2Proof.Machine.execRuntPulse t n width bin endBin s
  | .overflowEnd t src => Sys2Proof.Machine.execOverflowEnd t src s
  | .recordToFabric t src => Sys2Proof.Machine.execRecordToFabric t src s
  | .calibrationHit t be bin => Sys2Proof.Machine.execCalibrationHit t be bin s
  | .calTableBuild t be => Sys2Proof.Machine.execCalTableBuild t be s
  | .calRestart t p n => Sys2Proof.Machine.execCalRestart t p n s
  | .feCommit t p n => Sys2Proof.Machine.execFeCommit t p n s
  | .commitApplyEarly t n input bin => Sys2Proof.Machine.execCommitApplyEarly t n input bin s
  | .settleEnd t n => Sys2Proof.Machine.execSettleEnd t n s
  | .overdriveStart t n peak => Sys2Proof.Machine.execOverdriveStart t n peak s
  | .overdriveEnd t n => Sys2Proof.Machine.execOverdriveEnd t n s
  | .windowEnable t p n en => Sys2Proof.Machine.execWindowEnable t p n en s
  | .windowAssert t n samples => Sys2Proof.Machine.execWindowAssert t n samples s
  | .windowDeassert t n samples => Sys2Proof.Machine.execWindowDeassert t n samples s
  | .windowHoldEnd t n => Sys2Proof.Machine.execWindowHoldEnd t n s
  | .beRetire t p n => Sys2Proof.Machine.execBeRetire t p n s
  | .retireNow t p n => Sys2Proof.Machine.execRetireNow t p n s
  | .beReturn t p n => Sys2Proof.Machine.execBeReturn t p n s
  | .switch t n count => Sys2Proof.Machine.execSwitch t n count s
  | .spareWarmupTimeout t n => Sys2Proof.Machine.execSpareWarmupTimeout t n s
  | .rejoin t n => Sys2Proof.Machine.execRejoin t n s
  | .backendFault t be => Sys2Proof.Machine.execBackendFault t be s
  | .interpolatorNoHits t be => Sys2Proof.Machine.execInterpolatorNoHits t be s
  | .startWaveform t p n => Sys2Proof.Machine.execStartWaveform t p n s
  | .disarmWaveform t p n => Sys2Proof.Machine.execDisarmWaveform t p n s
  | .ingestStart t n => Sys2Proof.Machine.execIngestStart t n s
  | .embRelease t m a b ma mb => Sys2Proof.Machine.execEmbRelease t m a b ma mb s
  | .jesdCrcError t slot => Sys2Proof.Machine.execJesdCrcError t slot s
  | .ingestFault t slot => Sys2Proof.Machine.execIngestFault t slot s
  | .waveformCommit t p n => Sys2Proof.Machine.execWaveformCommit t p n s
  | .waveformSettleEnd t n => Sys2Proof.Machine.execWaveformSettleEnd t n s
  | .convEnd t n => Sys2Proof.Machine.execConvEnd t n s
  | .windowOpen t n => Sys2Proof.Machine.execWindowOpen t n s
  | .windowClose t n => Sys2Proof.Machine.execWindowClose t n s
  | .startContext t p n => Sys2Proof.Machine.execStartContext t p n s
  | .disarmContext t p n => Sys2Proof.Machine.execDisarmContext t p n s
  | .contextRestart t p n => Sys2Proof.Machine.execContextRestart t p n s
  | .stabClear t p n => Sys2Proof.Machine.execStabClear t p n s
  | .engineUpdate t e => Sys2Proof.Machine.execEngineUpdate t e s
  | .gateTimeout t n => Sys2Proof.Machine.execGateTimeout t n s
  | .publish t n => Sys2Proof.Machine.execPublish t n s
  | .contextMove t n => Sys2Proof.Machine.execContextMove t n s
  | .armAcquisition t p n => Sys2Proof.Machine.execArmAcquisition t p n s
  | .disarmAcquisition t p n => Sys2Proof.Machine.execDisarmAcquisition t p n s
  | .fillStart t n => Sys2Proof.Machine.execFillStart t n s
  | .ready t n => Sys2Proof.Machine.execReady t n s
  | .autoTimeout t n => Sys2Proof.Machine.execAutoTimeout t n s
  | .intervalTimeout t n c => Sys2Proof.Machine.execIntervalTimeout t n c s
  | .force t p n => Sys2Proof.Machine.execForce t p n s
  | .abort t p n => Sys2Proof.Machine.execAbort t p n s
  | .captureClose t n => Sys2Proof.Machine.execCaptureClose t n s
  | .panRelease t p pan => Sys2Proof.Machine.execPanRelease t p pan s
  | .freeze t p n v => Sys2Proof.Machine.execFreeze t p n v s
  | .clear t p n => Sys2Proof.Machine.execClear t p n s
  | .clearDone t n => Sys2Proof.Machine.execClearDone t n s
  | .release t p n => Sys2Proof.Machine.execRelease t p n s
  | .stagingMerge t n => Sys2Proof.Machine.execStagingMerge t n s
  | .sweepComplete t n => Sys2Proof.Machine.execSweepComplete t n s
  | .tapEdge t src => Sys2Proof.Machine.execTapEdge t src s
  | .maskSpanPassed t n => Sys2Proof.Machine.execMaskSpanPassed t n s
  | .ruleEnable t p v en => Sys2Proof.Machine.execRuleEnable t p v en s
  | .presenceWindowEnd t v => Sys2Proof.Machine.execPresenceWindowEnd t v s
  | .targetEdgeExpiry t v => Sys2Proof.Machine.execTargetEdgeExpiry t v s
  | .verdict t link => Sys2Proof.Machine.execVerdict t link s
  | .markerArm t p k => Sys2Proof.Machine.execMarkerArm t p k s
  | .markerDisarm t p k => Sys2Proof.Machine.execMarkerDisarm t p k s
  | .firing t k bin => Sys2Proof.Machine.execFiring t k bin s
  | .pulseEnd t k bin => Sys2Proof.Machine.execPulseEnd t k bin s
  | .tripSelect t p trip j lines => Sys2Proof.Machine.execTripSelect t p trip j lines s
  | .tripCfg t p j v => Sys2Proof.Machine.execTripCfg t p j v s
  | .go t p c => Sys2Proof.Machine.execGo t p c s
  | .disable t p c => Sys2Proof.Machine.execDisable t p c s
  | .pause t p c => Sys2Proof.Machine.execPause t p c s
  | .pauseDrained t c => Sys2Proof.Machine.execPauseDrained t c s
  | .resume t p c => Sys2Proof.Machine.execResume t p c s
  | .listCommit t p c => Sys2Proof.Machine.execListCommit t p c s
  | .sluiceBurst t c ecc => Sys2Proof.Machine.execSluiceBurst t c ecc s
  | .descriptorComplete t c => Sys2Proof.Machine.execDescriptorComplete t c s
  | .engineHalt t cause addr => Sys2Proof.Machine.execEngineHalt t cause addr s
  | .autoRestore t => Sys2Proof.Machine.execAutoRestore t s
  | .engineResume t p => Sys2Proof.Machine.execEngineResume t p s
  | .disableAll t p => Sys2Proof.Machine.execDisableAll t p s
  | .laneEnable t p l en => Sys2Proof.Machine.execLaneEnable t p l en s
  | .laneStartTime t => Sys2Proof.Machine.execLaneStartTime t s
  | .attempt t l => Sys2Proof.Machine.execAttempt t l s
  | .signal t l => Sys2Proof.Machine.execSignal t l s
  | .lock t l => Sys2Proof.Machine.execLock t l s
  | .adapt t l ctle dfe => Sys2Proof.Machine.execAdapt t l ctle dfe s
  | .ffe t l => Sys2Proof.Machine.execFfe t l s
  | .trainingTimeout t l => Sys2Proof.Machine.execTrainingTimeout t l s
  | .los t l => Sys2Proof.Machine.execLos t l s
  | .lostLock t l => Sys2Proof.Machine.execLostLock t l s
  | .seekRetry t l signal => Sys2Proof.Machine.execSeekRetry t l signal s
  | .retrain t p l => Sys2Proof.Machine.execRetrain t p l s
  | .eyeMeasurement t l vm hm => Sys2Proof.Machine.execEyeMeasurement t l vm hm s
  | .adaptationUpdate t l steps => Sys2Proof.Machine.execAdaptationUpdate t l steps s
  | .adaptationFreeze t l => Sys2Proof.Machine.execAdaptationFreeze t l s
  | .slip t p l => Sys2Proof.Machine.execSlip t p l s
  | .laneRetire t p l => Sys2Proof.Machine.execLaneRetire t p l s
  | .laneReturn t p l => Sys2Proof.Machine.execLaneReturn t p l s
  | .p1Req t p l v => Sys2Proof.Machine.execP1Req t p l v s
  | .p2 t p q => Sys2Proof.Machine.execP2 t p q s
  | .p2Exit t p q => Sys2Proof.Machine.execP2Exit t p q s
  | .p2ExitTimeout t l => Sys2Proof.Machine.execP2ExitTimeout t l s
  | .linkUp t p b en => Sys2Proof.Machine.execLinkUp t p b en s
  | .alignSlot t b => Sys2Proof.Machine.execAlignSlot t b s
  | .align t lane payload => Sys2Proof.Machine.execAlign t lane payload s
  | .data t b word => Sys2Proof.Machine.execData t b word s
  | .stream t b payload => Sys2Proof.Machine.execStream t b payload s
  | .credit t b payload => Sys2Proof.Machine.execCredit t b payload s
  | .creditRepeat t b stream => Sys2Proof.Machine.execCreditRepeat t b stream s
  | .start t b payload => Sys2Proof.Machine.execStart t b payload s
  | .timeSet t b payload => Sys2Proof.Machine.execTimeSet t b payload s
  | .leap t b payload => Sys2Proof.Machine.execLeap t b payload s
  | .linkTrigger t b payload => Sys2Proof.Machine.execLinkTrigger t b payload s
  | .train t lane payload => Sys2Proof.Machine.execTrain t lane payload s
  | .p1 t lane payload => Sys2Proof.Machine.execP1 t lane payload s
  | .unknownBlock t b payload => Sys2Proof.Machine.execUnknownBlock t b payload s
  | .read t b words => Sys2Proof.Machine.execRead t b words s
  | .writePacket t b words => Sys2Proof.Machine.execWritePacket t b words s
  | .read8 t count addr => Sys2Proof.Machine.execRead8 t count addr s
  | .read16 t count addr => Sys2Proof.Machine.execRead16 t count addr s
  | .read32 t count addr => Sys2Proof.Machine.execRead32 t count addr s
  | .write32 t count addr data => Sys2Proof.Machine.execWrite32 t count addr data s
  | .phase t => Sys2Proof.Machine.execPhase t s
  | .spiCutShort t op count addr bytes => Sys2Proof.Machine.execSpiCutShort t op count addr bytes s
  | .regacc t dr => Sys2Proof.Machine.execRegacc t dr s
  | .captureDr t => Sys2Proof.Machine.execCaptureDr t s
  | .idcode t => Sys2Proof.Machine.execIdcode t s
  | .bypass t => Sys2Proof.Machine.execBypass t s
  | .samplePreload t balls load => Sys2Proof.Machine.execSamplePreload t balls load s
  | .extest t balls => Sys2Proof.Machine.execExtest t balls s
  | .registerWrite t p addr data => Sys2Proof.Machine.execRegisterWrite t p addr data s
  | .eventWriteBack t p addr data => Sys2Proof.Machine.execEventWriteBack t p addr data s
  | .tideGate t p key => Sys2Proof.Machine.execTideGate t p key s
  | .harvest t p => Sys2Proof.Machine.execHarvest t p s
  | .harvestInstant t => Sys2Proof.Machine.execHarvestInstant t s
  | .harvestDone t => Sys2Proof.Machine.execHarvestDone t s
  | .enterTest t p => Sys2Proof.Machine.execEnterTest t p s
  | .leaveTest t p => Sys2Proof.Machine.execLeaveTest t p s
  | .hbmTrained t => Sys2Proof.Machine.execHbmTrained t s
  | .lifeHour t rings => Sys2Proof.Machine.execLifeHour t rings s
  | .hourly t => Sys2Proof.Machine.execHourly t s
  | .ledgerSync t p => Sys2Proof.Machine.execLedgerSync t p s
  | .ledgerWrite t good => Sys2Proof.Machine.execLedgerWrite t good s
  | .patrolRead t addr result spareRow lastUnit => Sys2Proof.Machine.execPatrolRead t addr result spareRow lastUnit s
  | .refreshDue t => Sys2Proof.Machine.execRefreshDue t s
  | .refresh t p => Sys2Proof.Machine.execRefresh t p s
  | .refreshAutoStart t => Sys2Proof.Machine.execRefreshAutoStart t s
  | .refreshSector t good lastOfSlot slotOk => Sys2Proof.Machine.execRefreshSector t good lastOfSlot slotOk s
  | .unitRetire t p kind index => Sys2Proof.Machine.execUnitRetire t p kind index s
  | .unitReturn t p kind index => Sys2Proof.Machine.execUnitReturn t p kind index s
  | .migrationDone t => Sys2Proof.Machine.execMigrationDone t s
  | .engineMoveDone t => Sys2Proof.Machine.execEngineMoveDone t s
  | .embLock t slot => Sys2Proof.Machine.execEmbLock t slot s
  | .laneQuadFault t q => Sys2Proof.Machine.execLaneQuadFault t q s
  | .hbmTrainingStart t => Sys2Proof.Machine.execHbmTrainingStart t s
  | .hbmRetrainingFail t => Sys2Proof.Machine.execHbmRetrainingFail t s
  | .p2ExitComplete t q => Sys2Proof.Machine.execP2ExitComplete t q s
  | .p1SignalReturn t l => Sys2Proof.Machine.execP1SignalReturn t l s

end Sys2Proof.Machine
end

