-- ==== Sys2Proof/Safety.lean ====
section
/-!
DEFINITION. What counts as a sound state and as a safe outcome, in the terms the statements use.
-/

namespace Sys2Proof

open Machine

/-- A register field of the maps holds a value of its width. -/
def fieldFits (x : Nat × Nat) : Bool := decide (x.2 < 2 ^ (Fld.ofNat (x.1 % 1024)).desc.w)

/-- A register map is in canonical form, and every field in it holds a value of its width. -/
def regsFit (m : SMap Nat) : Bool := SMap.wf regDefault m && m.all fieldFits

/-- Every group of units of one kind is in canonical form: no unit that is at rest is listed, and none is listed twice. -/
def groupsFit (s : State) : Bool :=
  SMap.wf (fun _ => {}) s.ports && SMap.wf (fun _ => {}) s.islands && SMap.wf (fun _ => {}) s.restore &&
  SMap.wf (fun _ => {}) s.sources && SMap.wf (fun _ => {}) s.ends && SMap.wf (fun _ => {}) s.chans &&
  SMap.wf (fun _ => {}) s.waves && SMap.wf (fun _ => {}) s.slots && SMap.wf (fun _ => {}) s.ctxs &&
  SMap.wf (fun _ => {}) s.stabs && SMap.wf (fun _ => {}) s.engines && SMap.wf (fun _ => {}) s.acqs &&
  SMap.wf (fun _ => {}) s.pans && SMap.wf (fun _ => {}) s.crys && SMap.wf (fun _ => {}) s.masks &&
  SMap.wf (fun _ => {}) s.rules && SMap.wf (fun _ => {}) s.markers && SMap.wf (fun _ => {}) s.trips &&
  SMap.wf (fun _ => {}) s.slus && SMap.wf (fun _ => {}) s.lanes && SMap.wf (fun _ => {}) s.quads &&
  SMap.wf (fun _ => {}) s.links

/-- A sound state: the register fields in their maps and in force, the memory and the groups of units are in canonical form,
so that equal contents are equal data, and no register field exceeds its width. -/
structure Sound (s : State) : Prop where
  regs   : regsFit s.regs = true
  force  : regsFit s.force = true
  mem    : memWf s.mem = true
  groups : groupsFit s = true

/-! ## Accepted register writes -/

/-- A port's read latch falls (R408). -/
def readFalls (s : State) (p : Nat) : State := s.setPort p { s.port p with rd := none }

/-- A 32-bit write of a whole register by a port that is carried out: the device is powered and serves the access in its
present state (R122, R403), no low word of a pair is held (R409), no other port's write of the same cycle stands against it (R420),
and no error code of R412 applies. -/
def takesWrite (s : State) (p : Nat) (r : Reg) (i v : Nat) : Prop :=
  s.dev ≠ .off ∧ s.servedAt p (r.addr i) true = true ∧ s.holdServes (.reg r i false) = true ∧ (s.port p).wr = none ∧
    (readFalls s p).settledWord p r i v = v ∧ (readFalls s p).writeError p r i v = none

/-- The state in which an accepted write has its effect: the port's read latch has fallen, its tide gate is closed, and it keeps
what it has written in this cycle (R408, R414, R420). -/
def accepted (s : State) (p : Nat) (r : Reg) (i v : Nat) : State := (readFalls s p).noteWrite p r i v

/-- The same write, with the state in which it has its effect. -/
def takesWriteIn (s : State) (p : Nat) (r : Reg) (i v : Nat) (a : State) : Prop := takesWrite s p r i v ∧ a = accepted s p r i v

/-- What the port reports of one access carried out (R401). -/
def reported (s : State) (p : Nat) : State := s.trailer p [] 0 1 false

/-- The same of the two words of a pair, low word first (R409). -/
def takesPair (s : State) (p : Nat) (r : Reg) (i v : Nat) : Prop :=
  takesWrite s p r i v ∧ s.servedAt p (r.addr i + 4) true = true
def takesPairIn (s : State) (p : Nat) (r : Reg) (i v : Nat) (a : State) : Prop := takesPair s p r i v ∧ a = accepted s p r i v

/-- What the port reports of the two accesses carried out (R401). -/
def reportedPair (s : State) (p : Nat) : State := s.trailer p [] 0 2 false

/-- An outcome that is a next state. -/
def goesOn : Host.Outcome State Fault Refusal → Prop
  | .next _ => True
  | .fault _ => False
  | .refused _ => False

/-- A read of `w` bytes of a register that is no pair, by a port, that is carried out: the device is powered and serves the access
in its present state (R122, R403), no low word of a pair is held (R409), and no error code of R412 applies. -/
def takesRead (s : State) (p a w : Nat) (r : Reg) (i : Nat) : Prop :=
  s.dev ≠ .off ∧ s.placeAt (a / 4 * 4) = some (.reg r i false) ∧ r.desc.pair = false ∧ a < 2 ^ 28 ∧ a % w = 0 ∧
    s.servedAt p a false = true ∧ s.holdServes (.reg r i false) = true ∧ (s.port p).wr = none

/-- A word of a register that is no pair, at an address without an alias, outside the windows. -/
structure Machine.Command (r : Reg) (i : Nat) : Prop where
  small : r.addr i < 2 ^ 28
  word  : r.addr i % 4 = 0
  place : ∀ s : State, s.placeAt (r.addr i) = some (.reg r i false)
  one   : r.desc.pair = false
  rw    : (r.fields.all fun f => decide (f.desc.acc = .RO)) = false

/-- A register that is a pair, at addresses without an alias, outside the windows. -/
structure Machine.PairCommand (r : Reg) (i : Nat) : Prop where
  small : r.addr i + 4 < 2 ^ 28
  word  : r.addr i % 4 = 0
  low   : ∀ s : State, s.placeAt (r.addr i) = some (.reg r i false)
  high  : ∀ s : State, s.placeAt (r.addr i + 4) = some (.reg r i true)
  pair  : r.desc.pair = true
  rw    : (r.fields.all fun f => decide (f.desc.acc = .RO)) = false

/-! ## Frames -/

/-- A command that may write memory: every write of a port, and what moves data, takes a granule of SRAM, or leaves a device state in
which memory is kept. Every other command leaves every byte as it stands. -/
def mayWriteMemory : Instr → Bool
  | .aoRelease .. | .uvloFall .. | .overvoltage .. | .hotSwapTrip .. | .fastTrip .. | .fetRestart .. | .peakClear ..
  | .heartbeatLost .. | .pmbusAlert .. | .railRetry .. | .thermalShutdown .. | .thermalCooldown .. | .reboot ..
  | .governorTick .. | .islandFloor .. | .is8Unlock .. | .restorationTimeout .. | .sfdpRead .. | .slotSelect ..
  | .pass1 .. | .pass2 .. | .flashTimeout .. | .write .. | .modify .. | .poll .. | .pollTimeout .. | .delay ..
  | .listBlock .. | .realign .. | .setSec .. | .leapAnnounce .. | .sysrefBurst .. | .secondBoundary ..
  | .frameCommit .. | .armChannel .. | .disarmChannel .. | .recordToFabric .. | .calRestart .. | .feCommit ..
  | .windowEnable .. | .windowAssert .. | .windowDeassert .. | .beRetire .. | .retireNow .. | .beReturn ..
  | .startWaveform .. | .disarmWaveform .. | .embRelease .. | .jesdCrcError .. | .ingestFault .. | .waveformCommit ..
  | .startContext .. | .disarmContext .. | .contextRestart .. | .stabClear .. | .publish .. | .armAcquisition ..
  | .disarmAcquisition .. | .fillStart .. | .intervalTimeout .. | .force .. | .abort .. | .captureClose ..
  | .panRelease .. | .freeze .. | .clear .. | .clearDone .. | .release .. | .stagingMerge .. | .tapEdge ..
  | .maskSpanPassed .. | .ruleEnable .. | .markerArm .. | .markerDisarm .. | .firing .. | .tripSelect ..
  | .tripCfg .. | .go .. | .disable .. | .pause .. | .resume .. | .listCommit .. | .sluiceBurst .. | .engineHalt ..
  | .autoRestore .. | .engineResume .. | .disableAll .. | .laneEnable .. | .los .. | .lostLock .. | .retrain ..
  | .slip .. | .laneRetire .. | .laneReturn .. | .p1Req .. | .p2 .. | .p2Exit .. | .linkUp .. | .data .. | .stream ..
  | .credit .. | .start .. | .timeSet .. | .leap .. | .linkTrigger .. | .unknownBlock .. | .read .. | .writePacket ..
  | .write32 .. | .spiCutShort .. | .regacc .. | .registerWrite .. | .eventWriteBack .. | .tideGate .. | .harvest ..
  | .enterTest .. | .leaveTest .. | .ledgerSync .. | .refresh .. | .unitRetire .. | .unitReturn ..
  | .laneQuadFault .. | .hbmRetrainingFail ..
  | .telemetryFrame .. | .hbmTrained .. | .restorationDone .. => true
  | _ => false

/-- A command that may change the device state (R29): every write of a port, and the events of power, restoration and faults. Every
other command leaves the device state as it stands. -/
def mayChangeDevice : Instr → Bool
  | .auxEntry .. | .aoRelease .. | .uvloFall .. | .overvoltage .. | .hotSwapTrip .. | .fastTrip .. | .fetRestart ..
  | .peakClear .. | .heartbeatLost .. | .pmbusAlert .. | .railRetry .. | .thermalShutdown .. | .thermalCooldown ..
  | .reboot .. | .governorTick .. | .islandFloor .. | .is8Unlock .. | .is8Relock .. | .restorationDone ..
  | .restorationTimeout .. | .sfdpRead .. | .slotSelect .. | .pass1 .. | .pass2 .. | .flashTimeout .. | .write ..
  | .modify .. | .poll .. | .pollTimeout .. | .delay .. | .listBlock .. | .realign .. | .setSec .. | .leapAnnounce ..
  | .sysrefBurst .. | .frameCommit .. | .armChannel .. | .disarmChannel .. | .calRestart .. | .feCommit ..
  | .windowEnable .. | .beRetire .. | .retireNow .. | .beReturn .. | .startWaveform .. | .disarmWaveform ..
  | .jesdCrcError .. | .ingestFault .. | .waveformCommit .. | .startContext .. | .disarmContext ..
  | .contextRestart .. | .stabClear .. | .armAcquisition .. | .disarmAcquisition .. | .force .. | .abort ..
  | .panRelease .. | .freeze .. | .clear .. | .release .. | .ruleEnable .. | .markerArm .. | .markerDisarm ..
  | .tripSelect .. | .tripCfg .. | .go .. | .disable .. | .pause .. | .resume .. | .listCommit .. | .sluiceBurst ..
  | .engineHalt .. | .autoRestore .. | .engineResume .. | .disableAll .. | .laneEnable .. | .los .. | .lostLock ..
  | .retrain .. | .slip .. | .laneRetire .. | .laneReturn .. | .p1Req .. | .p2 .. | .p2Exit .. | .linkUp ..
  | .data .. | .read .. | .writePacket .. | .write32 .. | .spiCutShort .. | .regacc .. | .registerWrite ..
  | .eventWriteBack .. | .tideGate .. | .harvest .. | .enterTest .. | .leaveTest .. | .hbmTrained .. | .ledgerSync ..
  | .refresh .. | .unitRetire .. | .unitReturn .. | .laneQuadFault .. | .hbmRetrainingFail .. | .telemetryFrame ..
  | .embRelease .. => true
  | _ => false

/-! ## Entries of device states -/

/-- The device has gone down to AUX at once (R29, R86): the logic and its memory are lost, the FET is off, BUS_EN is low and
no rail is enabled. -/
structure WentDown (x : State) : Prop where
  dev     : x.dev = .aux
  fet     : x.power.fet = false
  bus     : x.power.bus = false
  enabled : x.power.enabled = []
  mem     : x.mem = []
  chans   : x.chans = []
  time    : x.time.valid = false

/-- BOOT has been entered at the present of `u` (R29, R467): the boot is at its beginning, no rail is enabled, nothing keeps
the device in AUX any more, and the governor holds the base cost alone. -/
structure BeganBoot (u x : State) : Prop where
  dev     : x.dev = .boot
  bus     : x.power.bus = false
  enabled : x.power.enabled = []
  bootAt  : x.power.bootAt = u.now
  causes  : x.power.thermal = false ∧ x.power.protect = false ∧ x.power.reboot = false
  boot    : x.boot = { phase := 1 }
  held    : x.gov.held = [{ subj := .base, cost := 339000, guard := false }]
  time    : x.time.valid = false
  chans   : x.chans = []
  mem     : x.mem = []

end Sys2Proof
end

