-- ==== Sys2Proof/Certificates/Slice0/Obligations.lean ====
section
/-!
DEFINITION. The statements for the provers: the step and its soundness; for every family of commands, what each command does
where its condition holds; and rules of the whole block. Each docstring names the rules of the spec that it follows.
-/

open Sys2Proof Sys2Proof.Machine

/-- A step with a command at the front of the queue is that command's meaning on the state with the rest of the queue. -/
def Obligations.StepRunsFrontCommand : Prop :=
  ∀ (s : State) (c : Instr) (rest : List Instr),
    step { s with pending := c :: rest } = exec c { s with pending := rest }

/-- On an empty queue the block idles: the step answers the same state (the model's choice, log entry 7). -/
def Obligations.StepIdlesOnEmptyQueue : Prop :=
  ∀ s : State, s.pending = [] → step s = .next s

/-- Soundness is kept by every step: from every sound state, whatever command is at the front of the queue, the next state is
sound: the register fields in their maps and in force, the memory and every group of units stay in canonical form, and no
register field exceeds its width. -/
def Obligations.StepKeepsSound : Prop :=
  ∀ s t : State, Sound s → step s = .next t → Sound t

/-- The state after reset is sound, its queue is empty, and the device is in AUX (R29). -/
def Obligations.ResetSound : Prop :=
  Sound State.reset ∧ State.reset.pending = [] ∧ State.reset.dev = .aux

/-- A command whose units and port exist answers a next state, which keeps the queue's rest and never moves the present back;
one that names a unit outside the ranges of R27 stops as the fault that there is no such unit. -/
def Obligations.CommandsAnswer : Prop :=
  ∀ (c : Instr) (s : State),
    (c.wf = true → ∃ t, exec c s = .next t ∧ t.pending = s.pending ∧ s.now ≤ t.now) ∧
    (c.wf = false → exec c s = .fault .noSuchUnit)

/-- R101, R103, R104, R106, R107, R110, R114, R115, R121: the boot from the flash: the SFDP tables, the choice of a slot, the
verification of its sections one after another, with the other slot after a failure, the start of the second pass, and what ends
a boot in HOLD. -/
def Obligations.BootPassesTakeEffect : Prop :=
  ∀ (s : State) (t : Nat), Sound s → s.dev = .boot →
    let u := s.at t
    (∀ density modes four, s.boot.phase = 1 → 25 ≤ density → density < 32 →
      ∃ x, exec (.sfdpRead t true density modes four) s = .next x ∧ x.dev = .boot ∧ x.boot.phase = 2 ∧
        x.get .BOOT_FLASH_MODE = flashMode modes ∧ x.get .BOOT_FLASH_DENSITY = density) ∧
    (∀ density modes four, s.boot.phase = 1 →
      ∃ x, exec (.sfdpRead t false density modes four) s = .next x ∧ x.dev = .hold ∧ x.boot.error = 1) ∧
    (∀ a b ledger, s.boot.phase = 2 →
      (∀ slot h, slotChoice (s.get .BOOT_CFG_FORCE) a b = some (slot, h) →
        ∃ x, exec (.slotSelect t a b ledger) s = .next x ∧ x.boot.phase = 3 ∧ x.boot.slot = slot ∧ x.boot.secs = hdrSections h ∧
          x.boot.start = hdrStart h ∧ x.boot.index = 0) ∧
      (slotChoice (s.get .BOOT_CFG_FORCE) a b = none →
        ∃ x, exec (.slotSelect t a b ledger) s = .next x ∧ x.dev = .hold ∧
          x.boot.error = if s.get .BOOT_CFG_FORCE = 0 then noSlotCode a b else 2)) ∧
    (∀ body h, s.boot.phase = 3 → s.boot.pass1 = false → s.boot.clocks = none → s.boot.secs[s.boot.index]? = some h →
      let v : State := { u with boot := { u.boot with readAt := slotBase u.boot.slot + h.offset, section_ := u.boot.index } }
      let other := if s.boot.slot = 0 then s.boot.hdrB else s.boot.hdrA
      (sectionFault h body = none →
        exec (.pass1 t body) s = .next (v.keepAo h body).nextVerified ∧
        (h.typ = 1 → badRails body ≠ none → ∃ x, exec (.pass1 t body) s = .next x ∧ x.dev = .hold ∧ x.boot.error = 10) ∧
        (h.typ = 1 → badRails body = none → s.boot.index + 1 < s.boot.secs.length →
          ∃ x, exec (.pass1 t body) s = .next x ∧ x.dev = .boot ∧ x.boot.rails = (List.range 10).map (railAt body) ∧
            x.boot.index = s.boot.index + 1) ∧
        (4 ≤ h.typ → s.boot.index + 1 = s.boot.secs.length → s.power.downAt = none →
          ∃ x, exec (.pass1 t body) s = .next x ∧ x.dev = .boot ∧ x.boot.pass1 = true ∧ x.boot.progress = 100)) ∧
      (∀ code, sectionFault h body = some code →
        (s.boot.second = true ∨ s.get .BOOT_CFG_FORCE ≠ 0 ∨ headerValid other = false →
          ∃ x, exec (.pass1 t body) s = .next x ∧ x.dev = .hold ∧ x.boot.error = code) ∧
        (s.boot.second = false → s.get .BOOT_CFG_FORCE = 0 → headerValid other = true →
          ∃ x, exec (.pass1 t body) s = .next x ∧ x.dev = .boot ∧ x.boot.second = true ∧ x.boot.slot = 1 - s.boot.slot ∧
            x.boot.secs = hdrSections other ∧ x.boot.index = 0))) ∧
    (∀ body again h, s.boot.phase = 3 → s.boot.pass1 = true → s.boot.clocks = none →
      (∀ j, j < 10 → u.railOn j = true ∧ s.get .PWR_RAIL_PG j = 1) → s.boot.secs[3]? = some h →
      (sectionFault h body = none → 1 ≤ h.typ → h.typ ≤ 12 →
        ∃ x, exec (.pass2 t body again) s = .next x ∧ x.dev = .boot ∧ x.boot.phase = 4 ∧ x.boot.index = 3 ∧ x.boot.section_ = 3 ∧
          x.boot.body = body ∧ x.boot.place = 0 ∧ x.boot.entry = 0) ∧
      (sectionFault h body ≠ none → sectionFault h again = none → 1 ≤ h.typ → h.typ ≤ 12 →
        ∃ x, exec (.pass2 t body again) s = .next x ∧ x.dev = .boot ∧ x.boot.phase = 4 ∧ x.boot.body = again) ∧
      (sectionFault h body ≠ none → sectionFault h again ≠ none →
        ∃ x, exec (.pass2 t body again) s = .next x ∧ x.dev = .hold ∧ x.boot.error = 11)) ∧
    (∃ x, exec (.flashTimeout t) s = .next x ∧ x.dev = .hold ∧ x.boot.error = 12)

/-- R109, R111-R113: the entries of the image in pass 2: an access that is carried out goes on to the next entry and is kept for
restorations, one that ends in a bus error fails its section, as does an entry of a wrong form or outside the section's blocks; a
POLL that does not match goes on until its time-out, a DELAY makes the next entry wait, and a list block is written where its head
says. -/
def Obligations.ImageEntriesTakeEffect : Prop :=
  (∀ (s : State) (t typ : Nat) (e : RegEntry), (s.at t).dueEntry = some (typ, e) → s.boot.clocks = none →
    let u := s.at t
    let applied := fun x : State => (x.keepItem typ (.reg e)).nextEntry typ 16
    (badEntry typ e = false → e.op = 0 →
      (∀ x : State, u.writeAccess 2 e.addr e.value = ({}, x) → x.dev = .boot → exec (.write t) s = .next (applied x)) ∧
      (∀ r (x : State), u.writeAccess 2 e.addr e.value = (r, x) → r.err ≠ 0 → x.dev = .boot →
        exec (.write t) s = .next x.failSection)) ∧
    (badEntry typ e = false → e.op = 1 → ∀ r (x y : State), u.readAccess 2 e.addr 4 = (r, x) → r.err = 0 →
      x.writeAccess 2 e.addr ((r.data - (r.data &&& e.mask)) ||| (e.value &&& e.mask)) = ({}, y) → y.dev = .boot →
      exec (.modify t) s = .next (applied y)) ∧
    (badEntry typ e = false → e.op = 2 → ∀ r (x : State), u.readAccess 2 e.addr 4 = (r, x) →
      let start := s.boot.polling.getD u.now
      (r.err = 0 → x.now ≤ start + e.timeout * qUs → r.data &&& e.mask = e.value → exec (.poll t) s = .next (applied x)) ∧
      (r.err = 0 → x.now ≤ start + e.timeout * qUs → r.data &&& e.mask ≠ e.value →
        exec (.poll t) s = .next { x with boot := { x.boot with polling := some start } }) ∧
      (r.err ≠ 0 ∨ start + e.timeout * qUs < x.now → exec (.poll t) s = .next x.failSection)) ∧
    (badEntry typ e = false → e.op = 3 →
      exec (.delay t) s = .next (applied { u with boot := { s.boot with wait := u.now + e.timeout * qUs } })) ∧
    (badEntry typ e = true →
      exec (.write t) s = .next u.failSection ∧ exec (.modify t) s = .next u.failSection ∧
        exec (.poll t) s = .next u.failSection ∧ exec (.delay t) s = .next u.failSection) ∧
    (∀ x, s.boot.polling = some x → x + e.timeout * qUs ≤ u.now → exec (.pollTimeout t) s = .next u.failSection) ∧
    (∀ h, s.boot.secs[s.boot.index]? = some h → h.mandatory = true → u.failSection.dev = .hold ∧ u.failSection.boot.error = 9)) ∧
  (∀ (s : State) (t : Nat) (h : SectionHdr) (a n : Nat) (good : Bool), (s.at t).dueSection = some h → h.typ = 11 →
    (s.at t).listHead = (a, n, good) →
    let u := s.at t
    let data := (s.boot.body.drop (s.boot.place + 16)).take n
    (good = true →
      exec (.listBlock t) s = .next (((u.writeBytes a data).keepItem 11 (.list a data)).nextEntry 11 (16 + n)) ∧
        poolBase ≤ a ∧ a + n ≤ listTop ∧ n % 16 = 0) ∧
    (good = false → exec (.listBlock t) s = .next u.failSection))

/-- R29, R72: VIN rising above the undervoltage lockout; AUX 8 ms later; VIN falling below it, which stops everything but what
the flash holds; and the low-input warning. -/
def Obligations.PowerEntryTakesEffect : Prop :=
  ∀ (s : State) (t : Nat),
    (s.dev = .off → s.power.vin = false →
      ∃ x, exec (.uvloRise t) s = .next x ∧ x.power = { s.power with vin := true, vinAt := max s.now t } ∧ x.dev = .off ∧
        x.regs = s.regs ∧ x.mem = s.mem) ∧
    (s.dev = .off → s.power.vin = true → s.power.vinAt + 8 * qMs ≤ max s.now t →
      exec (.auxEntry t) s = .next { s.at t with dev := .aux }) ∧
    (∃ x, exec (.uvloFall t) s = .next x ∧ x.dev = .off ∧ x.power = { vin := false } ∧ x.regs = [] ∧ x.force = [] ∧ x.mem = [] ∧
      x.ports = [] ∧ x.chans = [] ∧ x.links = [] ∧ x.now = max s.now t ∧ x.pending = s.pending ∧
      x.life = { half := s.life.half, slots := s.life.slots, image := s.life.image }) ∧
    (s.dev ≠ .off → exec (.lowInput t false) s = .next ((s.at t).put .HVS_STATUS_LOW 0 0)) ∧
    (s.dev ≠ .off → s.get .HVS_STATUS_LOW = 0 →
      exec (.lowInput t true) s = .next (((s.at t).put .HVS_STATUS_LOW 0 1).raise .HVS_EVENT_LOW_SEEN)) ∧
    (s.dev ≠ .off → s.get .HVS_STATUS_LOW = 1 → exec (.lowInput t true) s = .next ((s.at t).put .HVS_STATUS_LOW 0 1))

/-- R29, R73, R74, R76, R80, R86, R96: what takes the device from its logic states to AUX at once: in each case the logic and
its memory are lost, the FET is off, BUS_EN is low and no rail is enabled. -/
def Obligations.ProtectiveEntriesTakeEffect : Prop :=
  ∀ (s : State) (t i : Nat), s.logicState = true → i < 24 →
    (s.power.vin = true → s.power.above = false →
      ∃ x, exec (.overvoltage t) s = .next x ∧ WentDown x ∧ x.power.above = true ∧ x.power.protect = true) ∧
    (∀ since ma, (s.at t).fetOn = true → s.get .HVS_CFG_ILIM * 50 ≤ ma → since + s.get .HVS_CFG_FAULT_MS * qMs ≤ max s.now t →
      ∃ x, exec (.hotSwapTrip t since ma) s = .next x ∧ WentDown x ∧ x.power.protect = true) ∧
    (∀ ma, (s.at t).fetOn = true → 3 * (s.get .HVS_CFG_ILIM * 50) ≤ ma →
      ∃ x, exec (.fastTrip t ma) s = .next x ∧ WentDown x ∧ x.power.protect = true) ∧
    ((s.at t).fetOn = true → ∃ x, exec (.heartbeatLost t) s = .next x ∧ WentDown x ∧ x.power.protect = true) ∧
    (s.gov.valid.getD i false = true →
      ∃ x, exec (.thermalShutdown t i) s = .next x ∧ WentDown x ∧ x.power.thermal = true ∧
        x.life.jobs = s.life.jobs ++ [{ kind := kEvent, cause := evThermal, detail := i }])

/-- R29, R73, R74, R96: what brings the device back: AO release, the cooldown after a thermal shutdown and the end of the cause
of a protective entry, and the restart of the FET 1 s after a trip. -/
def Obligations.ReturnsTakeEffect : Prop :=
  ∀ (s : State) (t : Nat),
    (s.dev = .aux → s.vinValid = true → s.power.vinAt + 10 * qMs ≤ max s.now t → s.power.thermal = false →
      s.power.protect = false → s.get .BOOT_STATUS_LOCKOUT = 0 → s.power.reboot = false →
      ∃ x, exec (.aoRelease t) s = .next x ∧ BeganBoot (s.at t) x) ∧
    (∀ c, s.gov.cool = some c → c + 10 * qSec ≤ max s.now t → s.dev = .aux → s.power.thermal = true → s.power.protect = false →
      s.vinValid = true → s.get .BOOT_STATUS_LOCKOUT = 0 → s.power.heat.length < 3 →
      ∃ x, exec (.thermalCooldown t) s = .next x ∧ BeganBoot (s.at t) x) ∧
    (s.dev = .aux → s.power.protect = true → s.vinValid = true → s.get .BOOT_STATUS_LOCKOUT = 0 → s.power.fetOffAt = none →
      s.power.latched = false → s.power.downAt = none →
      exec (.protectiveRestart t) s =
        .next { s.at t with power := { s.power with protect := false, vinAt := max s.now t } }) ∧
    (∀ c, s.power.fetOffAt = some c → c + qSec ≤ max s.now t → s.vinValid = true → s.power.beat = true →
      exec (.fetRetry t) s = .next { s.at t with power :=
        { s.power with fet := true, fetAt := max s.now t, fetOffAt := none, latched := false } })

/-- R74, R84, R89, R99, R119: the power commands of a host, each a register write that is carried out: FET_RESTART turns the FET
on after a latch-off, PEAK_CLEAR sets the peak to 0, RAIL_RETRY re-sequences the faulted front-end and I/O rails, REBOOT leaves
HOLD and the lockout, and a write of FLOOR sets the floor of an island. -/
def Obligations.PowerHostCommandsTakeEffect : Prop :=
  ∀ (s u a : State) (t p k v : Nat), u = s.at t → isPort p = true →
    (takesWriteIn u p .HVS_CMD 0 2 a →
      exec (.fetRestart t p) s = .next (reported (if s.power.latched && s.vinValid && s.power.beat then
        { a with power := { s.power with fet := true, fetAt := max s.now t, fetOffAt := none, latched := false } } else a) p)) ∧
    (takesWriteIn u p .HVS_CMD 0 1 a → exec (.peakClear t p) s = .next (reported (a.put .HVS_PEAK_MW 0 0) p)) ∧
    (takesWriteIn u p .PWR_CMD 0 1 a → exec (.railRetry t p) s = .next (reported (a.resequence
      (([4, 5, 8, 9] : List Nat).filter fun j => s.get .PWR_RAIL_FAULT j != 0) (max s.now t)) p)) ∧
    (takesWriteIn u p .BOOT_CMD 0 1 a → s.dev = .hold → ∃ x, exec (.reboot t p) s = .next (reported x p) ∧ BeganBoot u x) ∧
    (takesWriteIn u p .BOOT_CMD 0 1 a → s.dev = .aux → s.get .BOOT_STATUS_LOCKOUT = 1 → s.vinValid = true →
      s.allBelow 100 = true →
      ∃ x, exec (.reboot t p) s = .next (reported x p) ∧ BeganBoot u x) ∧
    (k < 8 → v < 4 → takesWriteIn u p .PWR_ISLAND k (v + s.get .PWR_ISLAND_HOLD_MS k % 65536 * 256) a →
      exec (.islandFloor t p k v) s =
        .next (reported ((a.put .PWR_ISLAND_HOLD_MS k (s.get .PWR_ISLAND_HOLD_MS k)).setFloor k v) p))

/-- R75, R77, R83, R84: a telemetry frame, BUS_EN, the enable of the next rail, and what an alert of a rail's regulator leads to. -/
def Obligations.RailsAndTelemetryTakeEffect : Prop :=
  ∀ (s : State) (t : Nat), Sound s →
    (∀ mv ma limiting beat, s.power.vin = true → s.dev ≠ .off → s.power.reboot = false →
      let frames := (mv * ma :: s.power.watts).take 10
      let mean := quot frames.sum (1000 * frames.length) % 2 ^ 20
      ∃ x, exec (.telemetryFrame t mv ma limiting beat) s = .next x ∧ x.get .HVS_VIN_MV = mv % 2 ^ 17 ∧
        x.get .HVS_IIN_MA = ma % 2 ^ 13 ∧ x.get .HVS_PIN_MW = mean ∧ x.get .HVS_PEAK_MW = max (s.get .HVS_PEAK_MW) mean ∧
        x.get .HVS_ENERGY_MJ = min (s.get .HVS_ENERGY_MJ + (s.power.energy + mv * ma) / 10000000) (2 ^ 64 - 1) ∧
        x.power.energy = (s.power.energy + mv * ma) % 10000000 ∧ x.get .HVS_STATUS_LIMITING = b2n limiting ∧
        x.power.beat = beat ∧ x.linkOk = true ∧ (mv < 76000 → x.power.above = false)) ∧
    (∀ mv, s.dev = .boot → s.power.fet = true → s.power.bus = false → s.power.t0 + 70 * qMs ≤ max s.now t →
      s.out95 mv ≤ max s.now t →
      exec (.busEn t mv) s = .next { s.at t with power := { s.power with
        bus := true
        seq := if s.power.seq.isEmpty then (List.range 10).map fun j => (j, max s.now t + (j + 1) * 10 * qMs)
          else s.power.seq } }) ∧
    (∀ j d, s.power.seq.find? (fun x => decide (x.2 ≤ max s.now t)) = some (j, d) → (s.at t).busOn = true →
      (s.dev = .boot → s.boot.rails ≠ []) →
      ∃ x : State, exec (.railEnable t) s = .next x.settleTrips ∧ x.power.seq = s.power.seq.filter (fun y => y.1 != j) ∧ j ∈ x.power.enabled ∧
        x.get .PWR_RAIL_FAULT j = 0 ∧ x.get .PWR_RAIL_PG j = 0) ∧
    (∀ j first second, j < 10 → (s.at t).railWatched j = true →
      ((s.at t).pmbAnswer j (first, second) = none →
        exec (.pmbusAlert t j first second) s = .next ((s.at t).railFault j 5)) ∧
      (∀ r, (s.at t).pmbAnswer j (first, second) = some r →
        (statusCause r.status ≠ 0 →
          exec (.pmbusAlert t j first second) s = .next (((s.at t).notePmb j r).railFault j (statusCause r.status))) ∧
        (statusCause r.status = 0 → exec (.pmbusAlert t j first second) s = .next ((s.at t).notePmb j r))) ∧
      (s.dev = .boot → ((s.at t).railFault j 5).dev = .hold) ∧
      (s.dev ≠ .boot → j ≤ 1 → ((s.at t).railFault j 5).dev = .aux ∧ ((s.at t).railFault j 5).power.downAt = some (max s.now t) ∧
        ((s.at t).railFault j 5).power.protect = true))

/-- R91, R95, R96: the tick of the governor: in AUX it takes the readings, shows what replaces those of lost sensors, and goes on
to the heat and the admissions; in the governed states a valid sensor at 120 °C shuts the device down, and without one the tick
goes on to the islands, the restorations and the rails. While a section kept in AO is still being applied in BOOT the tick also
applies it (`senseTick`). -/
def Obligations.GovernorTickTakesEffect : Prop :=
  ∀ (s : State) (t : Nat) (temps : List Int) (rails : List (PmbReply × PmbReply)),
    let u := (s.at t).senseTick temps
    (s.dev = .off → exec (.governorTick t temps rails) s = .next (s.at t)) ∧
    (s.dev = .aux →
      exec (.governorTick t temps rails) s = .next u.heatTick.noteCool.rebootDue ∧ u.dev = .aux ∧
        u.gov.temps = (List.range 24).map (replaced u.gov.valid temps) ∧
        (∀ i, i < 24 → s.gov.valid.getD i false = true → -320 ≤ temps.getD i 0 → temps.getD i 0 ≤ 1200 →
          u.gov.valid.getD i false = true ∧ u.gov.temps.getD i 0 = temps.getD i 0)) ∧
    (∀ i, i < 24 → s.governs = true → (s.dev = .boot → s.boot.clocks = none ∧ s.boot.cost = none) →
      s.gov.valid.getD i false = true → 960 ≤ temps.getD i 0 → temps.getD i 0 ≤ 1200 →
      ∃ x, exec (.governorTick t temps rails) s = .next x ∧ WentDown x ∧ x.power.thermal = true) ∧
    (∀ w, s.governs = true → (s.dev = .boot → s.boot.clocks = none ∧ s.boot.cost = none) → u.overheated = (none, w) →
      exec (.governorTick t temps rails) s = .next (w.heatTick.logicTick rails).noteCool.rebootDue)

/-- R25, R61, R62, R87: a wake that completes puts the island in ON, or in IDLE where only the second and third rows of R88
hold; an island whose buffers are empty enters the lower state it is to take; an unlock and a relock of a running island are
flagged, suspend its channels and resume them. -/
def Obligations.IslandEventsTakeEffect : Prop :=
  ∀ (s : State) (t k : Nat), k < 8 →
    let u := s.at t
    let i := s.island k
    (∀ x, i.wakeAt = some x → x + wakeTime i.state ≤ max s.now t → i.state ≤ 1 → s.power.feDown = false → s.dieUp = true →
      let idle := !((islandChans k).any fun n => (s.chan n).armed) && s.get .PWR_ISLAND_FLOOR k != 0 &&
        (s.islandWatched k || s.get .PWR_ISLAND_FLOOR k == 1)
      exec (.wakeIsland t k) s = .next ((islandChans k).foldl (fun s n =>
          if s.flag .TCH_WIN_CTL_ENABLE n ∧ (s.chan n).win.active = false then s.startWin n else s)
        (u.setIsland k { i with
          state := if idle then 1 else 0, wakeAt := none, target := none, unused := max s.now t, onAt := max s.now t })).settleTrips) ∧
    (∀ st, i.target = some st → s.islandEmpty k = true →
      (i.forced = false → s.islandArmed k = false → exec (.islandDrained t k) s = .next (u.lowerIsland k st)) ∧
      (i.forced = false → s.islandArmed k = true →
        exec (.islandDrained t k) s = .next (u.setIsland k { i with target := none })) ∧
      (i.forced = true → (u.lowerIsland k st).power.feDown = true →
        exec (.islandDrained t k) s = .next (u.lowerIsland k st)) ∧
      (i.forced = true → (u.lowerIsland k st).power.feDown = false →
        exec (.islandDrained t k) s = .next ((islandChans k).foldl State.rewake (u.lowerIsland k st)))) ∧
    (i.target = some 1 → s.islandEmpty k = true → s.islandArmed k = false → i.forced = false →
      exec (.islandDrained t k) s = .next (u.setIsland k { i with state := 1, target := none })) ∧
    (i.state ≤ 1 → i.unlock = false →
      exec (.islandUnlock t k) s = .next ((islandChans k).foldl (fun s n =>
          let s := s.setChan n { s.chan n with
            win := { active := false, wait := s.flag .TCH_WIN_CTL_ENABLE n, since := (s.chan n).win.since } }
          if (s.src n).taking then s.beginCause n 1 false else s)
        ((u.setIsland k { i with unlock := true }).flagUnlock k)).settleTrips) ∧
    (∀ counts, i.unlock = true →
      exec (.islandRelock t k counts) s = .next ((islandChans k).foldl (fun s n =>
          let s := if (s.src n).taking then
            (s.readCounter n (counts.getD (n % 18) 0)).endCause n 1 (s.nextBound n) else s
          if s.flag .TCH_WIN_CTL_ENABLE n ∧ s.dieUp = true then s.startWin n else s)
        (u.setIsland k { i with unlock := false })).settleTrips)

/-- R29, R63, R468: an unlock of the IS8 timebase stops the fabric and its outputs and takes a running device to RECOVERY; a relock
ends the gap. A restoration that is over applies the image sections of its subsystem again and ends; one whose limit passes
fails, the third failure in a row takes the device to HOLD, and one that has held for 1 s clears its count. Each command
completes in every state: where it is not due it changes nothing but the present. -/
def Obligations.RestorationEventsTakeEffect : Prop :=
  ∀ (s : State) (t : Nat) (sub : Subsystem), Sound s →
    let u := s.at t
    let k := (subsystemKey sub).1
    let r := s.rest k
    let gap : State := { u.flagUnlock 8 with time := { (u.flagUnlock 8).time with halted := true, pulses := [], sysPulse := none } }
    let stopped := (List.range 16).foldl State.haltWave ((List.range 32).foldl (fun (s : State) m =>
        let s' := s.setMarker m { s.marker m with ball := false, high := none }
        if (s.marker m).ending then s'.endMarker m else s')
      (is8Sources.foldl (fun s k => if (s.src k).taking then s.beginCause k 1 true else s) gap))
    let working := match sub with
      | .is8 => !s.time.halted
      | .sluice => !s.slu.halted
      | .hbmTraining | .hbmRails => s.hbm.trained
      | .laneQuads | .laneRails => true
      | .ingest => !(List.range 32).any fun x => (s.slot x).failed
    let again := fun x : State => if s.dev = .recovery then x.reapply k else x
    (s.governs = true → s.time.halted = false → exec (.is8Unlock t) s = .next (stopped.declare kIs8 false)) ∧
    (s.dev = .run ∨ s.dev = .test → s.time.halted = false → ∃ x, exec (.is8Unlock t) s = .next x ∧ x.dev = .recovery) ∧
    (s.governs = true → s.time.halted = true → exec (.is8Unlock t) s = .next (u.flagUnlock 8)) ∧
    (s.governs = false → exec (.is8Unlock t) s = .next u) ∧
    (s.time.halted = true → exec (.is8Relock t) s = .next ((is8Sources.foldl (fun (s : State) k =>
        if (s.src k).taking then s.endCause k 1 (s.nextBound k) else s)
        { u with time := { s.time with halted := false } }).endRestore kIs8)) ∧
    (s.time.halted = false → exec (.is8Relock t) s = .next u) ∧
    (r.declared.isSome = true → r.second.isSome = true → working = true →
      (sub = .is8 ∨ sub = .sluice → exec (.restorationDone t sub) s = .next (u.endRestore k)) ∧
      (k = kHbm ∨ k = kIngest → exec (.restorationDone t sub) s = .next ((again u).endRestore k)) ∧
      (k = kLanes → exec (.restorationDone t sub) s = .next ((again u.restoreQuads).endRestore k))) ∧
    (r.declared = none ∨ r.second = none ∨ working = false → exec (.restorationDone t sub) s = .next u) ∧
    (s.dev = .recovery → s.prev ≠ .recovery → (∀ j, j < 5 → j ≠ k → (s.rest j).declared = none) →
      (u.endRestore k).dev = s.prev) ∧
    (u.restoreLate k = true → ∃ x, exec (.restorationTimeout t sub) s = .next x ∧
      (r.fails < 2 ∨ s.dev ≠ .recovery → x.dev = s.dev ∧ (x.rest k).fails = r.fails + 1 ∧ (x.rest k).declared.isSome = true) ∧
      (2 ≤ r.fails → s.dev = .recovery → x.dev = .hold ∧ x.restore = [])) ∧
    (u.restoreLate k = false → exec (.restorationTimeout t sub) s = .next u) ∧
    (∀ x, r.ended = some x → x + qSec ≤ max s.now t → r.declared = none →
      exec (.restorationHeld t sub) s = .next (u.setRest k {})) ∧
    ((∀ x, r.ended = some x → x + qSec ≤ max s.now t → r.declared ≠ none) → exec (.restorationHeld t sub) s = .next u)

/-- R47, R48, R51, R52, R54, R55, R69: the reference locks and fails, edges of PPS_IN align, realign and check the time word, and
the waits of both alignments end. -/
def Obligations.TimeBaseEventsTakeEffect : Prop :=
  ∀ (s u : State) (t : Nat), u = s.at t →
    (∀ hz since phase refOut nominal a y, y = { u with time := { u.time with refLock := true, holdover := false, refHz := nominal } } →
      u.time.acquire = some a → u.time.refLock = false → a ≤ since → since + 100 * qMs ≤ u.now →
      acceptedHz (u.get .TB_REF_CFG_FREQ) hz = some nominal →
      (u.time.holdover = false → exec (.refLock t hz since phase refOut) s = .next (y.mark 4).beginTime) ∧
      (u.time.holdover = true → u.time.valid = true →
        exec (.refLock t hz since phase refOut) s =
          .next (((y.put .TB_HOLD_PHASE_TICKS 0 (quot (phase % (qSec / nominal)) qTick)).put .TB_REF_OUT_PHASE_TICKS 0 (refOut % tPer)).mark 4))) ∧
    (∀ hz missed, u.time.refLock = true → 4 ≤ missed ∨ within100 hz u.time.refHz = false →
      exec (.holdover t hz missed) s = .next { u with time := { u.time with refLock := false, holdover := true } }) ∧
    (∀ pol bin refOut, u.time.halted = false →
      ((pol != u.flag .TB_PPS_CFG_EDGE) = true → u.alignsFirst = true →
        exec (.ppsEdge t pol bin refOut) s = .next (u.alignFirst pol refOut)) ∧
      (∀ n, (pol != u.flag .TB_PPS_CFG_EDGE) = true → u.alignsFirst = false → u.realigns = some n →
        exec (.ppsEdge t pol bin refOut) s = .next (u.realignTo n pol refOut)) ∧
      ((pol != u.flag .TB_PPS_CFG_EDGE) = true → u.alignsFirst = false → u.realigns = none →
        exec (.ppsEdge t pol bin refOut) s = .next (u.ppsRecord pol bin true)) ∧
      ((pol != u.flag .TB_PPS_CFG_EDGE) = false → exec (.ppsEdge t pol bin refOut) s = .next (u.ppsRecord pol bin false))) ∧
    (∀ n, n = (u.recTick srcPps - 5242880000) / (tSec : Int) → u.time.valid = true → u.time.checks = true → u.time.halted = false →
      u.time.ppsSec < n → u.time.ppsMiss < n →
      exec (.ppsMissing t) s = .next { u with time := { u.time with
        ppsMiss := n, ppsGood := 0, ppsBad := min (u.time.ppsBad + 1) 3,
        aligned := if 3 ≤ u.time.ppsBad + 1 then false else u.time.aligned } }) ∧
    (∀ x, u.time.lockAt = some x → u.time.valid = false → u.get .TB_PPS_CFG_MODE = 1 →
      x + u.get .TB_PPS_CFG_WAIT * qSec ≤ u.now →
      exec (.alignWaitTimeout t) s = .next (u.startPlain (x + u.get .TB_PPS_CFG_WAIT * qSec))) ∧
    (∀ x, u.time.realign = some x → x + u.get .TB_PPS_CFG_WAIT * qSec ≤ u.now →
      exec (.realignTimeout t) s =
        .next (State.raise { u with time := { u.time with realign := none } } .TB_STATUS_REALIGN_FAIL))

/-- R55, R59, R60, R65, R69, R423: the commands of a host to the time base, each a register write that is carried out: REALIGN waits
for the next edge of PPS_IN, SET_SEC takes SEC at the next second boundary (or, before time valid, for the start of the time
word), a leap second is announced, a burst of SYSREF begins, and a frame length is committed. -/
def Obligations.TimeBaseHostCommandsTakeEffect : Prop :=
  ∀ (s u a : State) (t p : Nat), u = s.at t → isPort p = true →
    (takesWriteIn u p .TB_CMD 0 1 a →
      exec (.realign t p) s = .next (reported { a with time := { a.time with realign := some a.now } } p)) ∧
    (takesWriteIn u p .TB_CMD 0 2 a → a.time.valid = true →
      exec (.setSec t p) s = .next (reported { a with time := { a.time with
        setSec := some (a.get .TB_SEC_SET_SEC, (a.tick / (tSec : Int) + 1) * tSec) } } p)) ∧
    (takesWriteIn u p .TB_CMD 0 2 a → a.time.valid = false →
      exec (.setSec t p) s = .next (reported { a with time := { a.time with timeSet := true, linkSec := none } } p)) ∧
    (∀ sec dir y, Sound s → sec < 2 ^ 32 → dir < 2 → takesPairIn u p .TB_LEAP 0 (sec + dir * 2 ^ 32) a →
      y = (a.put .TB_LEAP_SEC 0 sec).put .TB_LEAP_DIR 0 dir →
      (a.time.valid = true → secOf a.tick ≤ sec ∧ ¬ (sec = 2 ^ 32 - 1 ∧ secOf a.tick = 0)) →
      exec (.leapAnnounce t p sec dir) s =
        .next (reportedPair { y with time := { y.time with leap := true, leapSec := sec } } p)) ∧
    (takesWriteIn u p .TB_CMD 0 4 a → a.get .TB_SYSREF_MODE = 2 →
      exec (.sysrefBurst t p) s = .next (reported { a with time := { a.time with
        burst := a.get .TB_SYSREF_COUNT, sysref := max a.time.sysref a.tick } } p)) ∧
    (takesWriteIn u p .TB_FRAME_COMMIT 0 1 a → ¬ (a.dev = .boot ∧ a.time.valid = false) → a.time.frameCom = none →
      exec (.frameCommit t p) s = .next (reported { a with time := { a.time with frameCom := some a.now } } p)) ∧
    (takesWriteIn u p .TB_FRAME_COMMIT 0 1 a → a.dev = .boot → a.time.valid = false →
      exec (.frameCommit t p) s = .next (reported a.applyFrameLen p))

/-- R53, R60, R64, R65, R69, R191: boundaries of the time word. At a second the announced leap second passes, the committed frame
length is applied, and a pulse of PPS_OUT follows; at a frame the channels, waveforms, captures and contexts do what falls due
there; at a boundary of the SYSREF period a pulse begins, and the loop-back records it. -/
def Obligations.BoundariesTakeEffect : Prop :=
  ∀ (s u : State) (t : Nat), u = s.at t →
    (∀ n y z r, n = u.tick / (tSec : Int) → u.time.valid = true → u.time.setSec = none → u.time.halted = false →
      u.time.second < n →
      y = { u with time := { u.time with
        second := n, leap := u.time.leap && !u.leapPassed (secOf (n * tSec)) } } →
      (u.time.frameCom = none ∧ z = y ∨
        (∃ x, u.time.frameCom = some x ∧ u.instOf (n * tSec) ≤ x) ∧ z = y ∨
        (∃ x, u.time.frameCom = some x ∧ x < u.instOf (n * tSec)) ∧ u.armedContexts = [] ∧ z = y.applyFrameLen) →
      r = z.instOf (n * tSec + (if 0 ≤ z.ppsOffset then z.ppsOffset else tSec + z.ppsOffset)) →
      exec (.secondBoundary t) s = .next { z with time := { z.time with
        pulses := (r, r + z.get .TB_PPS_OUT_WIDTH * 100 * qNs) :: z.time.pulses.take 1 } }) ∧
    (∀ inputs b, b = u.tick / (u.frameTicks : Int) * u.frameTicks → u.time.valid = true → u.time.frame < b →
      exec (.frameBoundary t inputs) s = .next
        (((({ u with time := { u.time with frame := b } }.frameFronts (u.instOf b) inputs).frameWaves (u.instOf b)).frameLatches).frameContexts b)) ∧
    (∀ b bin fallBin y, u.sysrefNext (u.sysrefSkew 0) = some b → u.time.halted = false →
      y = { u with time := { u.time with
        sysref := b, burst := if u.get .TB_SYSREF_MODE = 2 then u.time.burst - 1 else u.time.burst,
        sysPulse := some (u.instOf b) } } →
      exec (.sysrefPulse t bin fallBin) s = .next (State.alignSlots (if (u.src srcSysref).taking = true then
        (y.sysrefEdge (b + u.sysrefSkew 0) true bin).sysrefEdge (b + u.sysrefSkew 0 + tPer) false fallBin else y))) ∧
    (∀ per skew b, per = (u.get .TB_SYSREF_PERIOD : Int) * tPer → b = (u.tick - skew) / per * per →
      u.time.valid = true → 0 < per → u.time.sysref < b → u.time.validAt ≤ b →
      u.get .TB_SYSREF_MODE = 1 ∨ u.get .TB_SYSREF_MODE = 2 ∧ 0 < u.time.burst →
      u.sysrefNext skew = some b)

/-- R157, R171, R174, R175: the anchors of a source that is taking edges and the end of an episode of a full buffer. The PERIODIC
or GAP anchor whose time comes first is written once no edge before it can be formed: it governs; without room it begins an
episode, and during one none is due. A full buffer that has drained ends its cause at the next coarse-period boundary: with no
cause left the mark and the OVERFLOW_END anchor are written there. -/
def Obligations.AnchorEventsTakeEffect : Prop :=
  ∀ (s u : State) (t k : Nat) (r : Source) (p sure : Int), Sound s → u = s.at t → k < numSources → r = u.src k →
    p = min (lastPeriodic r.gov + tSec) (r.gov + 2 ^ 39) → sure = u.sureTick k → r.due = [] →
    ((r.taking = false ∨ r.ovf ≠ none ∨ sure < p) →
      exec (.periodicAnchor t k) s = .next u ∧ exec (.gapAnchor t k) s = .next u) ∧
    (r.taking = true → r.ovf = none → p ≤ sure → sure < lastPeriodic p + tSec → sure < p + 2 ^ 39 →
      (r.room 2 = true → ∀ y, y = u.setSrc k (({ r with
          buf := r.buf ++ [u.anchorEntry k (if p = r.gov + 2 ^ 39 then 3 else 2) p] } : Source).governed p) →
        exec (.periodicAnchor t k) s = .next y ∧ exec (.gapAnchor t k) s = .next y) ∧
      (r.room 2 = false → exec (.periodicAnchor t k) s = .next (u.beginCause k fullCause false) ∧
        exec (.gapAnchor t k) s = .next (u.beginCause k fullCause false))) ∧
    (∀ e b, r.taking = true → r.ovf = some e → e.active.contains fullCause = true → r.level ≤ 3072 →
      b = (if 144 ≤ k ∧ k < 160 then ceilCoarse r.sure else ceilCoarse (max (u.recTick k) (r.lastAt + 1))) →
      (sure < b → exec (.overflowEnd t k) s = .next (u.setSrc k { r with due := [{ at_ := b, word := .ends fullCause }] })) ∧
      (b = sure → e.active.filter (· ≠ fullCause) ≠ [] → exec (.overflowEnd t k) s =
        .next (u.setSrc k { r with ovf := some { e with active := e.active.filter (· ≠ fullCause) } })) ∧
      (b = sure → e.active.filter (· ≠ fullCause) = [] → exec (.overflowEnd t k) s =
        .next (((u.noteLost k e).setSrc k { r.noteGap e.start b with
          ovf := none, tapBrk := true, buf := r.buf ++ [u.markEntry k e r.gov] }).putAnchor k 4 b)))

/-- R19, R32, R63, R156, R222, R270, R304: the first word of a source's buffers reaches the fabric, if the fabric accepts it: an
edge, an overflow mark, an anchor, the end of a settling or another control word, each with its effect there; the edge at the
front of a tap reaches the mask units and the verdict rules. While the fabric stands, neither moves. -/
def Obligations.FabricEventsTakeEffect : Prop :=
  ∀ (s u v : State) (t k : Nat) (r : Source), u = s.at t → k < numSources → v = u.drainQueues.flush k → r = v.src k →
    (u.fabricRuns = false →
      exec (.recordToFabric t k) s = .next u ∧ exec (.tapEdge t k) s = .next u) ∧
    (u.fabricRuns = true → r.old ++ r.buf = [] → exec (.recordToFabric t k) s = .next (v.retryLoop k)) ∧
    (∀ x rest, u.fabricRuns = true → r.old ++ r.buf = x :: rest → x.stored = true → v.accepts k x.item.len = false →
      exec (.recordToFabric t k) s = .next (v.retryLoop k)) ∧
    (∀ x rest y, u.fabricRuns = true → r.old ++ r.buf = x :: rest → (x.stored = false ∨ v.accepts k x.item.len = true) →
      y = v.setSrc k (r.noteEmpty x.time (v.recTick k)).drop.payOwed →
      (∀ e, x.item = .edge e → exec (.recordToFabric t k) s = .next ((y.fabricEdge k e x).retryLoop k)) ∧
      (∀ a b cause lost, x.item = .overflow a b cause lost →
        exec (.recordToFabric t k) s = .next ((y.fabricMark k cause lost x).retryLoop k)) ∧
      (∀ a seq reason time, x.item = .anchor a seq reason time →
        exec (.recordToFabric t k) s = .next ((y.fabricAnchor k seq reason time x).retryLoop k)) ∧
      (∀ a b c n z, x.item = .settle a b c n →
        z = (y.setSrc k { y.src k with fabLast := x.time }).storeAll k x.item x.time →
        exec (.recordToFabric t k) s = .next (((z.ctxsOf k).foldl
          (fun w m => w.offerUpd m (.settle ((w.mcf m).roles k) x.time)) z).retryLoop k)) ∧
      (∀ a b c d n, x.item = .rejoin a b c d n → exec (.recordToFabric t k) s =
        .next (((y.setSrc k { y.src k with fabLast := x.time }).storeAll k x.item x.time).retryLoop k))) ∧
    (∀ e rest w, u.fabricRuns = true → (u.src k).tap = e :: rest → w = u.setSrc k { u.src k with tap := rest } →
      exec (.tapEdge t k) s = .next
        (((if e.brk then w.rulesBreak k e.time else w).masksEdge k e.time e.pol e.est e.fe (e.cal != 0) false).rulesEdge
          k e.time e.pol e.est e.fe (e.cal != 0) false))

/-- R42, R53, R62, R130, R136, R152, R173, R182, R183, R185: the start instant of an armed channel, with the first level of its
comparator and the settling of its threshold that goes on; the edges of its comparator, time-stamped and formed by the back-end in
service, or left to the front-end's counter; and pulses, removed and counted below 140 ps and delivered from 160 ps. Between the two
widths a free value decides (log entry 3). What is due at the source before the event is written first. -/
def Obligations.ChannelEventsTakeEffect : Prop :=
  ∀ (s v y z : State) (t n : Nat) (c : Chan), v = (s.at t).flush n → n < numChannels → c = v.chan n →
    (∀ inp bin x t0, c.startAt = some x → c.armed = true → (v.src n).taking = false → x ≤ v.now → v.time.valid = true →
      v.startsHeld = false → (v.island (islandOf n)).state = 0 → (v.island (islandOf n)).unlock = false → v.dieUp = true →
      (v.src n).owed = [] → (v.src n).room 2 = true → t0 = ceilCoarse (v.recTick n) →
      y = (v.setChan n { c with startAt := none, level := false, known := false, edgeAt := none, chgAt := none }).startTaking n t0 →
      (c.thsFrom = none ∧ z = y ∨ (∃ a, c.thsFrom = some a ∧ y.settleTime n a ≤ t0 ∧ z = y) ∨
        (∃ a, c.thsFrom = some a ∧ t0 < y.settleTime n a ∧ z = y.pushDue n (y.settleTime n a) (.anchor 6))) →
      ((z.be (z.beOf n)).fault = none → z.aboveUpper n inp = false → z.belowLower n inp = false →
        exec (.channelStart t n inp bin) s = .next z) ∧
      ((z.be (z.beOf n)).fault = none → z.aboveUpper n inp = false → z.belowLower n inp = true →
        exec (.channelStart t n inp bin) s = .next (z.setChan n { z.chan n with known := true })) ∧
      (∀ w b e p, (z.be (z.beOf n)).fault = none → z.aboveUpper n inp = true →
        w = z.setChan n { z.chan n with level := true, known := true, edgeAt := some z.now } → b = w.beOf n → e = w.be b →
        p = t0 + e.fine b (w.calBy n b) (longestFree e.free) bin % 2048 → w.beRuns n = true →
        exec (.channelStart t n inp bin) s = .next ((w.takeBy b).formEdge n p true (w.flagsOf n b p true))) ∧
      ((z.be (z.beOf n)).fault ≠ none → (z.beginCause n 2 false).aboveUpper n inp = false →
        (z.beginCause n 2 false).belowLower n inp = false →
        exec (.channelStart t n inp bin) s = .next (z.beginCause n 2 false))) ∧
    (∀ pol bin, v.compRuns n = true → v.spaced n = true → pol ≠ c.level →
      y = v.setChan n { c with level := pol, known := true, edgeAt := some v.now } →
      z = y.changeBefore n (y.stampBy n (y.beOf n) bin) →
      (∀ b p, z.beRuns n = true → z.stampChan n bin = (b, p) →
        exec (.edge t n pol bin) s = .next ((z.takeBy b).formEdge n p pol (z.flagsOf n b p (pol && !c.known)))) ∧
      (z.beRuns n = false → exec (.edge t n pol bin) s = .next (z.outsideEdge n))) ∧
    (∀ bin, v.compRuns n = true → v.spaced n = true → c.level = false → c.known = false →
      exec (.edge t n false bin) s = .next (v.setChan n { c with known := true })) ∧
    (∀ pol bin, v.compRuns n = false ∨ v.spaced n = false → exec (.edge t n pol bin) s = .next v) ∧
    (∀ width bin endBin, v.compRuns n = true →
      (width < 140 * 16384 → exec (.runtPulse t n width bin endBin) s = .next (v.count .TCH_RUNT_COUNT n)) ∧
      (160 * 16384 ≤ width → v.spaced n = true → y = v.compEdge n (!c.level) bin →
        exec (.runtPulse t n width bin endBin) s =
          .next (({ y with now := y.now + width } : State).compEdge n c.level endBin)) ∧
      (140 * 16384 ≤ width → width < 160 * 16384 → v.spaced n = true → y = v.free.2 → z = y.compEdge n (!(y.chan n).level) bin →
        exec (.runtPulse t n width bin endBin) s = .next (y.count .TCH_RUNT_COUNT n) ∨
        exec (.runtPulse t n width bin endBin) s =
          .next (({ z with now := z.now + width } : State).compEdge n (y.chan n).level endBin)))

/-- R154, R159, R160, R161, R162, R163, R433: a calibration hit is counted in its bin and takes the interpolator; at the end of a round
accepted tables go live and are stored, and a round that is rejected is counted, every third one with CAL_FAIL. -/
def Obligations.CalibrationEventsTakeEffect : Prop :=
  ∀ (s u : State) (t b cal : Nat) (e : BackEnd), u = s.at t → isBackEnd b = true → e = u.be b →
    cal = u.calBy ((u.beChannel b).getD b) b → e.powered = true → e.fault = none →
    (∀ bin i key, u.hitsFire b = true → (∀ x ∈ e.lastHit, x + 420 * 16384 ≤ u.now ∨ x = 0) → i = longestFree e.free →
      key = i * 2048 + bin % 2048 →
      exec (.calibrationHit t b bin) s = .next (u.setBe b { e.take i u.now with
        hits := SMap.set (fun _ => 0) e.hits key (SMap.get (fun _ => 0) e.hits key + 1), lastHit := e.lastHit.set i u.now })) ∧
    ((∀ i < 4, 2 ^ 20 ≤ hitTotal e.hits i) →
      (∀ y z : State, e.accepts cal = true →
        y = u.setBe b { e with
          hits := [], live := some e.hits, stored := some e.hits, cal := 0, fails := 0, gen := e.gen + 1,
          drift := driftOf b e.hits, aged := e.aged || decide (1024 < driftOf b e.hits) } →
        (b < 256 ∧ z = y ∨ 256 ≤ b ∧ y.spareUser (b - 256) = none ∧ z = y ∨
          (∃ m, 256 ≤ b ∧ y.spareUser (b - 256) = some m ∧
            z = if (y.chan m).sub = 1 ∧ (y.chan m).subDue = none then
              y.setChan m { y.chan m with subDue := some y.now } else y)) →
        (driftOf b e.hits ≤ 1024 ∨ e.aged = true → exec (.calTableBuild t b) s = .next z) ∧
        (1024 < driftOf b e.hits → e.aged = false →
          exec (.calTableBuild t b) s = .next (z.ageing ((z.beChannel b).getD b)))) ∧
      (e.accepts cal = false → (e.fails + 1) % 3 ≠ 0 →
        exec (.calTableBuild t b) s = .next (u.setBe b { e with hits := [], fails := e.fails + 1 })) ∧
      (∀ n y, e.accepts cal = false → (e.fails + 1) % 3 = 0 →
        y = u.setBe b ({ e with hits := [], fails := e.fails + 1 } : BackEnd).fallBack → y.beChannel b = some n →
        exec (.calTableBuild t b) s = .next (y.raise .TCH_BE_EVENT_CAL_FAIL n)))

/-- R126, R132, R137, R138, R139, R140, R141, R143, R145, R171, R173, R201: a commit applied before time valid; the SETTLE_END
anchor of a threshold, written once no edge before it can be formed; overdrives by their peak and their windows; the samples of a
window monitor with its assertion and deassertion; and the end of its hold. Whether the detector trips between 1.525 V and 1.575 V
is a free value (log entry 3), and the class of a peak at a boundary between two classes is the model's choice (log entry 71). -/
def Obligations.FrontEndEventsTakeEffect : Prop :=
  ∀ (s u : State) (t n : Nat) (c : Chan), Sound s → u = s.at t → n < numChannels → c = u.chan n →
    (∀ input bin x, u.time.valid = false →
      (c.commit = some x → x + qUs ≤ u.now →
        exec (.commitApplyEarly t n input bin) s = .next (u.applyFe n (x + qUs) (some (input, bin)))) ∧
      (∀ m, m < numWaves → (u.wave m).commit = some x → x + qUs ≤ u.now →
        exec (.commitApplyEarly t (144 + m) input bin) s = .next (u.applyWave m (x + qUs)))) ∧
    (∀ x r sure, r = u.src n → sure = u.sureTick n → r.taking = true → r.ovf = none →
      r.due = [{ at_ := x, word := .anchor 6 }] → x < lastPeriodic r.gov + tSec → x < r.gov + 2 ^ 39 →
      (sure < x → exec (.settleEnd t n) s = .next u) ∧
      (x ≤ sure → sure < lastPeriodic x + tSec → sure < x + 2 ^ 39 → r.room 2 = true →
        exec (.settleEnd t n) s = .next ((u.setSrc n { r with due := [] }).putAnchor n 6 x))) ∧
    (∀ peak v, u.dieUp = true → v = (u.signal n peak).natAbs →
      (v ≤ 1525000000 → exec (.overdriveStart t n peak) s = .next u) ∧
      (1525000000 < v → v ≤ 1575000000 → exec (.overdriveStart t n peak) s = .next u.free.2 ∨
        exec (.overdriveStart t n peak) s = .next (u.free.2.overdrive n (overClass v))) ∧
      (1575000000 < v → c.above = false → c.ownEnd ≤ u.now → c.nbrEnd ≤ u.now → exec (.overdriveStart t n peak) s =
        .next ((u.count .TCH_OVR_COUNT_EPISODES n).setChan n { c with above := true, ovrAt := u.now, cls := overClass v })) ∧
      (1575000000 < v → c.above = true ∨ u.now < c.ownEnd ∨ u.now < c.nbrEnd → exec (.overdriveStart t n peak) s =
        .next (u.setChan n { c with above := true, cls := max c.cls (overClass v) }))) ∧
    (c.above = true → exec (.overdriveEnd t n) s = .next (u.setChan n { c with
      above := false, ownEnd := u.now + ownWindow c.cls, nbrEnd := u.now + nbrWindow c.cls })) ∧
    (∀ x, c.limAt = some x → x + 60 * qNs ≤ u.now →
      exec (.windowHoldEnd t n) s = .next (u.setChan n { c with limAt := none })) ∧
    (∀ v len hist, c.win.active = true → u.heldIn n u.now = false → len = u.get .TCH_WIN_CFG_N n →
      hist = (u.violates n v :: c.win.hist).take len →
      (∀ y z, c.win.out = false → u.get .TCH_WIN_CFG_M n ≤ (hist.filter id).length →
        y = u.setChan n { c with win := { c.win with
          hist := hist, out := true, latch := c.win.latch || u.get .TCH_WIN_CFG_LATCH n != 0 } } →
        z = (y.settleTrips.raise .TCH_WIN_EVENT_TRIPPED n).count .TCH_WIN_COUNT_ASSERTS n →
        exec (.windowAssert t n [v]) s =
          .next (z.deliverTrip n (floorCoarse (z.tick - ((0 * 2048 : Nat) : Int)) - z.delayOf n))) ∧
      (c.win.out = true → (hist.filter id).length < u.get .TCH_WIN_CFG_M n →
        (hist.filter id).length ≤ len - u.get .TCH_WIN_CFG_M n →
        exec (.windowDeassert t n [v]) s =
          .next (u.setChan n { c with win := { c.win with hist := hist, out := false } }).settleTrips)) ∧
    (∀ v v' vs y, y = u.winSample n v (vs.length + 1) →
      exec (.windowAssert t n (v :: v' :: vs)) s = .next (y.winSamples n (v' :: vs)) ∧
      exec (.windowDeassert t n (v :: v' :: vs)) s = .next (y.winSamples n (v' :: vs)))

/-- R155, R182, R183, R184, R185, R441: the spare of a cluster takes over a channel at its frame boundary, warms up too long, and
gives the channel back; a back-end of any kind that faults, or whose interpolator has no hits, stops, and the fault of a channel's
back-end with AUTO and a free spare retires it at once. -/
def Obligations.SubstitutionEventsTakeEffect : Prop :=
  ∀ (s u : State) (t : Nat), u = s.at t →
    (∀ n c count x w z y, n < numChannels → c = u.chan n →
      (u.switchTime n = some x ∧ x ≤ u.recTick n ∨
        u.switchTime n = none ∧ c.sub = 1 ∧ c.armed = false ∧ c.subAt + 10 * qUs ≤ u.now ∧ x = u.nextBound n) →
      ((u.src n).ovf = none ∧ w = u ∨
        (∃ e, (u.src n).ovf = some e ∧ w = if e.causes.contains 2 then u.readCounter n count else u)) →
      z = w.changeOver n (spareKey (n / 12)) 8 x [] →
      y = (z.setChan n { z.chan n with sub := 2, subDue := none, chgAt := some x }).stopEnd n →
      exec (.switch t n count) s = .next (State.unitDone (State.raise { y with life := { y.life with
        subs := y.life.subs.set (n / 12) (n % 12) } } .TCH_BE_EVENT_SWITCHED n))) ∧
    (∀ n c count x, n < numChannels → c = u.chan n →
      (u.switchTime n = some x ∧ u.recTick n < x ∨ u.switchTime n = none ∧ c.sub ≠ 1) → exec (.switch t n count) s = .next u) ∧
    (∀ n c, n < numChannels → c = u.chan n → c.sub = 1 → c.subNow = false → c.subDue = none → c.subAt + 4 * qSec ≤ u.now →
      exec (.spareWarmupTimeout t n) s =
        .next ((u.setChan n { c with subDue := some u.now }).raise .TCH_BE_EVENT_CAL_FAIL n)) ∧
    (∀ n c x ret z y, n < numChannels → c = u.chan n →
      (u.rejoinTime n = some x ∧ x ≤ u.recTick n ∨
        (∃ b, u.rejoinTime n = none ∧ c.back = some b ∧ c.sub = 2 ∧ c.armed = false ∧ b + 10 * qUs ≤ u.now ∧ x = u.nextBound n)) →
      ret = (c.returns + 1) % 65536 → z = u.changeOver n n 5 x [.rejoin n 0 0 0 ret] →
      y = (z.setChan n { z.chan n with sub := 0, back := none, returns := ret, chgAt := some x }).stopEnd (spareKey (n / 12)) →
      exec (.rejoin t n) s = .next (State.unitDone (State.raise { y with life := { y.life with
        subs := y.life.subs.set (n / 12) 255 } } .TCH_BE_EVENT_REJOINED n))) ∧
    (∀ b y, isBackEnd b = true → (u.be b).fault = none → u.endPowered b = true →
      y = u.setBe b { u.be b with fault := some u.now } →
      (∀ n z w, y.serves b = some n → z = y.raise .TCH_BE_EVENT_FAULT n →
        w = (if (z.src n).taking then z.beginCause n 2 false else z) →
        (w.flag .TCH_SPARE_CFG_AUTO n = true → w.spareUser (n / 12) = none →
          exec (.backendFault t b) s = .next (w.retire n true)) ∧
        (w.flag .TCH_SPARE_CFG_AUTO n = false ∨ w.spareUser (n / 12) ≠ none → exec (.backendFault t b) s = .next w)) ∧
      (∀ n, y.serves b = none → y.beChannel b = some n → exec (.backendFault t b) s = .next (y.raise .TCH_BE_EVENT_FAULT n)) ∧
      (y.serves b = none → y.beChannel b = none →
        ((y.src b).taking = true → exec (.backendFault t b) s = .next (y.beginCause b 2 false)) ∧
        ((y.src b).taking = false → exec (.backendFault t b) s = .next y))) ∧
    (∀ b, isBackEnd b = true → ((u.be b).fault ≠ none ∨ u.endPowered b = false) → exec (.backendFault t b) s = .next u) ∧
    (∀ b, isBackEnd b = true →
      (u.noHits b = true → exec (.interpolatorNoHits t b) s = .next (u.beFault b) ∧
        exec (.backendFault t b) s = .next (u.beFault b)) ∧
      (u.noHits b = false → exec (.interpolatorNoHits t b) s = .next u))

/-- R43, R89, R132, R142, R162, R171, R182, R183, R187: the commands of a host to a timing channel, each a register write that is carried
out: arming queues the start with the wake it needs, disarming withdraws it or stops the channel, a calibration restarts, a
commit waits for its boundary, a monitor is enabled or stopped, and the channel's back-end is retired or returned. -/
def Obligations.ChannelHostCommandsTakeEffect : Prop :=
  ∀ (s u a y : State) (t p n : Nat) (c : Chan), u = s.at t → isPort p = true → n < numChannels → c = a.chan n →
    (∀ b, takesWriteIn u p .TCH_ARM n 1 a → b = a.put .TCH_ARM_ARM n 1 →
      (c.armed = false → c.pend = false → exec (.armChannel t p n) s = .next (reported
        (((b.setChan n { c with pend := true }).queueWake (islandOf n) (b.chanCls n)).submit (b.chanCls n) (.chan n)) p)) ∧
      (c.armed = true ∨ c.pend = true → exec (.armChannel t p n) s = .next (reported b p))) ∧
    (∀ b, takesWriteIn u p .TCH_ARM n 0 a → b = a.put .TCH_ARM_ARM n 0 →
      (c.pend = true → exec (.disarmChannel t p n) s = .next (reported
        (((b.setChan n { c with pend := false }).retract (.chan n)).withdrawWake n) p)) ∧
      (c.pend = false → c.armed = true → y = b.stopTaking n (b.nextBound n) →
        exec (.disarmChannel t p n) s = .next (reported (State.releaseCost
          (((y.setChan n { y.chan n with armed := false, startAt := none }).withdrawWake n).touchIsland (islandOf n)) (.chan n)) p)) ∧
      (c.pend = false → c.armed = false → exec (.disarmChannel t p n) s = .next (reported b p))) ∧
    (takesWriteIn u p .TCH_BE_CMD n 8 a →
      exec (.calRestart t p n) s = .next (reported (a.setBe (a.beOf n) { (a.be (a.beOf n)).fallBack with live := none }) p)) ∧
    (takesWriteIn u p .TCH_FE_COMMIT n 1 a →
      (a.dev = .boot → a.chanStopped n = true → a.winStopped n = true →
        exec (.feCommit t p n) s = .next (reported (a.applyFe n a.now none) p)) ∧
      (¬ (a.dev = .boot ∧ a.chanStopped n = true ∧ a.winStopped n = true) → c.commit = none →
        exec (.feCommit t p n) s = .next (reported (a.setChan n { c with commit := some a.now }) p))) ∧
    (takesWriteIn u p .TCH_WIN_CTL n 1 a → a.flag .TCH_WIN_CTL_ENABLE n = false → y = a.put .TCH_WIN_CTL_ENABLE n 1 →
      ((y.island (islandOf n)).state ≤ 1 → (y.island (islandOf n)).unlock = false → y.dieUp = true →
        exec (.windowEnable t p n 1) s = .next (reported (y.startWin n) p)) ∧
      (¬ ((y.island (islandOf n)).state ≤ 1 ∧ (y.island (islandOf n)).unlock = false ∧ y.dieUp = true) →
        exec (.windowEnable t p n 1) s = .next (reported (State.queueWake
          (y.setChan n { y.chan n with win := { (y.chan n).win with wait := true } }) (islandOf n) (y.chanCls n)) p))) ∧
    (takesWriteIn u p .TCH_WIN_CTL n 0 a → y = a.put .TCH_WIN_CTL_ENABLE n 0 →
      (a.flag .TCH_WIN_CTL_ENABLE n = true → exec (.windowEnable t p n 0) s = .next (reported (y.stopWin n) p)) ∧
      (a.flag .TCH_WIN_CTL_ENABLE n = false → exec (.windowEnable t p n 0) s = .next (reported y p))) ∧
    (takesWriteIn u p .TCH_BE_CMD n 1 a → exec (.beRetire t p n) s = .next (reported (State.startEnd
      (a.setChan n { c with sub := 1, subAt := a.now, subNow := false, subDue := none, back := none }) (spareKey (n / 12))) p)) ∧
    (takesWriteIn u p .TCH_BE_CMD n 5 a → exec (.retireNow t p n) s = .next (reported (State.startEnd
      (a.setChan n { c with sub := 1, subAt := a.now, subNow := true, subDue := none, back := none }) (spareKey (n / 12))) p)) ∧
    (takesWriteIn u p .TCH_BE_CMD n 2 a →
      (c.sub = 1 → exec (.beReturn t p n) s = .next (reported (State.stopEnd
        (a.setChan n { c with sub := 0, subDue := none }) (spareKey (n / 12))) p)) ∧
      (c.sub = 2 → c.back = none → exec (.beReturn t p n) s = .next (reported (State.startEnd
        (a.setChan n { c with back := some a.now }) n) p)))

/-- R43, R201, R213, R215, R218: the commands of a host to a waveform channel, each a register write that is carried out: arming queues
the start, disarming withdraws it or stops the channel with its window, and a commit waits for its boundary. -/
def Obligations.WaveformHostCommandsTakeEffect : Prop :=
  ∀ (s u a y : State) (t p n : Nat) (c : Wave), u = s.at t → isPort p = true → n < numWaves → c = a.wave n →
    (∀ b, takesWriteIn u p .WCH_ARM n 1 a → b = a.put .WCH_ARM_ARM n 1 →
      (c.armed = false → c.pend = false → exec (.startWaveform t p n) s = .next (reported (State.submit
        (b.setWave n { c with pend := true }) (if b.flag .WCH_SOURCE_CLASS n then 0 else 2) (.wave n)) p)) ∧
      (c.armed = true ∨ c.pend = true → exec (.startWaveform t p n) s = .next (reported b p))) ∧
    (∀ b, takesWriteIn u p .WCH_ARM n 0 a → b = a.put .WCH_ARM_ARM n 0 →
      (c.pend = true → exec (.disarmWaveform t p n) s = .next (reported
        ((b.setWave n { c with pend := false }).retract (.wave n)) p)) ∧
      (c.pend = false → c.armed = false → exec (.disarmWaveform t p n) s = .next (reported b p)) ∧
      (∀ m x z w, c.pend = false → c.armed = true → m = b.chainOf n → x = ceilCoarse (b.recTick (144 + n)) →
        z = (if c.wins.any (fun v => !v.shut && !v.before (b.recTick (144 + n))) then
          (b.shutWindow n).raise .WCH_EVENT_ABORT_LATE n else b) →
        w = z.keepCorr m →
        y = w.setWave n { w.wave n with
          armed := false, startAt := none, due := [], waiting := none
          wins := (w.wave n).wins.map fun v => if v.shut then v else { v with shut := true, closes := some x, how := 2 } } →
        exec (.disarmWaveform t p n) s = .next (reported
          (((((if (w.wave n).isOpen && y.flag .WCH_SOURCE_CLASS n then y.guardClosed n x else y.reuser m y.tick).followWindows
            n).endWindows n).stopChain m).releaseCost (.wave n)) p))) ∧
    (takesWriteIn u p .WCH_COMMIT n 1 a →
      (a.dev = .boot → a.waveStopped n = true → exec (.waveformCommit t p n) s = .next (reported (a.applyWave n a.now) p)) ∧
      (¬ (a.dev = .boot ∧ a.waveStopped n = true) → c.commit = none →
        exec (.waveformCommit t p n) s = .next (reported (a.setWave n { c with commit := some a.now }) p)))

/-- R191, R192, R193, R206, R211, R212, R214: data of the converter links and the start of a waveform channel: an extended multiblock runs
through the chain, a multiblock in error is dropped and the sixteenth within 1 ms is an ingest fault, a slot that loses lock or
margin stops its data, a locked slot waits for SYSREF, and an armed channel starts. -/
def Obligations.IngestEventsTakeEffect : Prop :=
  ∀ (s u : State) (t : Nat), u = s.at t →
    (∀ n m c y z start, n < numWaves → c = u.wave n → m = u.chainOf n → c.armed = true → c.startAt = none → u.time.valid = true →
      u.startsHeld = false → u.slotsAligned m = true → start = ceilCoarse (u.recTick (144 + n)) →
      y = (u.setWave n { c with startAt := some u.now }).setSure (144 + n) (start - 2048) →
      z = (if u.chainRuns m then y.reuser m y.tick
        else y.setWave m { y.wave m with
          sets := [{ y.waveSet (y.chainUser m) y.tick with change := 3, len := 2048 }]
          set := { y.waveSet (y.chainUser m) y.tick with change := 3, len := 0 }
          corr := (y.wave m).kept.getD (0, 0, 0) }) →
      (z.get .WCH_WIN_CFG_MODE n = 0 → exec (.ingestStart t n) s = .next (z.openWindow n start)) ∧
      (z.get .WCH_WIN_CFG_MODE n = 1 → z.get .WCH_WIN_PERIOD_COARSE n = 0 →
        ((z.timerOpening n 0).getD 0 < start → exec (.ingestStart t n) s =
          .next ((z.setWave n { z.wave n with nextJ := 1 }).missWindow n)) ∧
        (start ≤ (z.timerOpening n 0).getD 0 → exec (.ingestStart t n) s = .next z)) ∧
      (∀ per, z.get .WCH_WIN_CFG_MODE n = 1 → per = z.get .WCH_WIN_PERIOD_COARSE n * 2048 → 0 < per →
        exec (.ingestStart t n) s = .next (z.setWave n { z.wave n with
          nextJ := ((start - (z.timerOpening n 0).getD 0).toNat + (per - 1)) / per })) ∧
      (2 ≤ z.get .WCH_WIN_CFG_MODE n → exec (.ingestStart t n) s = .next z)) ∧
    (∀ m a b ma mb v y bad, m < numWaves → v = (u.checkMargin (2 * m) ma).checkMargin (2 * m + 1) mb → bad = (v.wave m).badIn →
      y = v.setWave m { v.wave m with badIn := [] } →
      (v.flowing m = false ∨ v.time.halted = true → exec (.embRelease t m a b ma mb) s = .next v) ∧
      (v.flowing m = true → v.time.halted = false →
        (∀ x l, (y.get .WCH_SOURCE_PAIR m = 1 ∧ x = 0 ∧ l = a ∨ y.get .WCH_SOURCE_PAIR m = 2 ∧ x = 1 ∧ l = b) →
          exec (.embRelease t m a b ma mb) s = .next (((List.range l.length).foldl (fun v' j =>
            v'.chainSample m (v.lemcEdge m - y.signed .WCH_CV_LAT_TICKS (2 * m + x) * 3125 + (j * v'.spacing m : Nat))
              (128 * l.getD j 0) (l.getD j 0 == -2048 || l.getD j 0 == 2047)
              (bad.any fun q => q.1 == x && inMultiblock q.2 j)) y).stopChain m)) ∧
        (y.get .WCH_SOURCE_PAIR m = 0 → a = [] ∨ b = [] → exec (.embRelease t m a b ma mb) s = .next (y.stopChain m)) ∧
        (∀ va vb bd w x0 x1, y.get .WCH_SOURCE_PAIR m = 0 → a = [va] → b = [vb] →
          bd = ((bad.any fun q => q.1 == 0 && inMultiblock q.2 0), (bad.any fun q => q.1 == 1 && inMultiblock q.2 0)) →
          w = (y.correctPair m va vb (bd.1 || bd.2)) →
          x0 = v.lemcEdge m - y.signed .WCH_CV_LAT_TICKS (2 * m) * 3125 →
          x1 = w.2.chainSample m (x0 + (2 * 0 * w.2.spacing m : Nat)) w.1.1 (va == -2048 || va == 2047) bd.1 →
          exec (.embRelease t m a b ma mb) s = .next ((x1.chainSample m (x0 + ((2 * 0 + 1) * x1.spacing m : Nat)) w.1.2
            (vb == -2048 || vb == 2047) bd.2).stopChain m)))) ∧
    (∀ slot octets, (u.slot slot).state = 3 →
      u.noteMargin slot octets = u.setSlot slot { u.slot slot with margins :=
        ((u.slot slot).margins.filter fun x => decide (u.now ≤ x.1 + qSec) && decide (x.2 < octets)) ++ [(u.now, octets)] } ∧
      (0 < octets → u.checkMargin slot octets = u.noteMargin slot octets)) ∧
    (∀ slot y bad, slot < numSlots → (u.slot slot).state = 3 → u.slotFeeds slot = true → y = u.crcError slot →
      bad = y.now :: ((y.slot slot).bad.filter fun x => decide (y.now < x + qMs)).take 15 →
      (bad.length < 16 → exec (.jesdCrcError t slot) s = .next (y.setSlot slot { y.slot slot with bad := bad })) ∧
      (bad.length = 16 → exec (.jesdCrcError t slot) s =
        .next (((y.setSlot slot { y.slot slot with bad := bad }).loseIngest slot).declare kIngest false))) ∧
    (∀ slot, slot < numSlots →
      ((u.slot slot).state = 3 → u.slotFeeds slot = true →
        exec (.ingestFault t slot) s = .next ((u.loseIngest slot).declare kIngest false)) ∧
      (2 ≤ (u.slot slot).state → ¬ ((u.slot slot).state = 3 ∧ u.slotFeeds slot = true) →
        exec (.ingestFault t slot) s = .next (u.setSlot slot { u.slot slot with state := 1, bad := [] })) ∧
      ((u.slot slot).state = 1 →
        exec (.embLock t slot) s = .next (u.setSlot slot { u.slot slot with state := 2 })))

/-- R193, R202, R204, R211, R212, R213, R215: the windows of a waveform channel: an opening that falls due opens a window, misses it or
waits for a guard window, a window closes at its length, a settle is written where the stream has reached its boundary, and the
convergence interval ends. -/
def Obligations.WaveformWindowEventsTakeEffect : Prop :=
  ∀ (s u : State) (t n m : Nat) (c : Wave), u = s.at t → n < numWaves → c = u.wave n → m = u.chainOf n →
    (∀ o y, u.nextOpening n = some o → c.armed = true → c.startAt ≠ none → o ≤ u.recTick (144 + n) →
      y = u.setWave n { c with nextJ := c.nextJ + 1, due := c.due.drop 1 } →
      ((y.wave n).waiting ≠ none ∨ (∃ w ∈ (y.wave n).wins, w.shut = false ∧ w.before o = true) →
        exec (.windowOpen t n) s = .next ((y.count .WCH_WIN_MISSED_COUNT n).raise .WCH_EVENT_MISSED n)) ∧
      ((y.wave n).waiting = none → (∀ w ∈ (y.wave n).wins, w.shut = true ∨ w.before o = false) →
        (y.flag .WCH_SOURCE_CLASS n = true → exec (.windowOpen t n) s =
          .next ((((y.preempt n o).pushWindow n o o false).reuser (y.chainOf n) (o + y.delayOf (144 + n))).followWindows n)) ∧
        (y.flag .WCH_SOURCE_CLASS n = false →
          ((y.users (y.chainOf n)).any (fun g => y.flag .WCH_SOURCE_CLASS g && (y.wave g).isOpen) = true →
            exec (.windowOpen t n) s = .next (((y.setWave n { y.wave n with
              waiting := some { opened := o, requested := o, closes := none } }).count .WCH_PREEMPT_COUNT n).raise
                .WCH_EVENT_PREEMPTED n)) ∧
          ((y.users (y.chainOf n)).any (fun g => y.flag .WCH_SOURCE_CLASS g && (y.wave g).isOpen) = false →
            exec (.windowOpen t n) s = .next (((y.pushWindow n o o false).reuser (y.chainOf n)
              (o + y.delayOf (144 + n))).followWindows n))))) ∧
    (∀ w x y z, c.wins.find? (fun v => !v.shut) = some w → w.closes = some x → x ≤ u.recTick (144 + n) →
      y = u.setWave n { c with wins := c.wins.map fun v => if v.shut then v else { v with shut := true } } →
      z = (if y.flag .WCH_SOURCE_CLASS n then y.guardClosed n x else y) →
      exec (.windowClose t n) s = .next ((z.followWindows n).stopChain (z.chainOf n))) ∧
    (∀ w ws sure, u.flowing m = true → c.wins = w :: ws → w.begun = true → sure = (u.src (144 + n)).sure →
      (w.shut = false ∨ w.before (sure + 1) = true) →
      exec (.waveformSettleEnd t n) s =
        .next ((u.setSure (144 + n) (min (sure + 1) (w.closes.getD (sure + 1)) - 1)).flush (144 + n))) ∧
    (u.flowing m = false → exec (.waveformSettleEnd t n) s = .next (u.idleWindows n)) ∧
    ((u.wave m).conv = 0 → exec (.convEnd t n) s = .next (u.setWave m { u.wave m with convOn := false }))

/-- R43, R220, R226, R241, R242, R246, R247, R248: measurement contexts. The commands of a host, each a register write that is carried out,
queue the arm, end the context, restart its gate and clear its accumulator; an engine applies the update at the front of its
queue, an open EDGE gate closes after 16 s, a closed gate that needs no more edges is published, and a context moves. -/
def Obligations.ContextCommandsTakeEffect : Prop :=
  ∀ (s u a : State) (t p n : Nat) (c : Ctx), u = s.at t → n < numContexts → c = u.ctx n →
    (∀ b, isPort p = true → takesWriteIn u p .MC_CTL n 1 a → b = a.put .MC_CTL_ARM n 1 →
      (c.armed = false → c.pend = false → exec (.startContext t p n) s = .next (reported (State.submit
        (b.setCtx n { c with pend := true }) (if b.ctxGuard n then 0 else 2) (.ctx n)) p)) ∧
      (c.armed = true ∨ c.pend = true → exec (.startContext t p n) s = .next (reported b p))) ∧
    (∀ b, isPort p = true → takesWriteIn u p .MC_CTL n 0 a → b = a.put .MC_CTL_ARM n 0 →
      (c.pend = true → exec (.disarmContext t p n) s = .next (reported ((b.setCtx n { c with pend := false }).retract (.ctx n)) p)) ∧
      (c.pend = false → c.armed = true → exec (.disarmContext t p n) s = .next (reported (b.endContext n) p)) ∧
      (c.pend = false → c.armed = false → exec (.disarmContext t p n) s = .next (reported b p))) ∧
    (∀ b y g, isPort p = true → u.get .MC_CTL_ARM n = 1 → takesWriteIn u p .MC_CTL n 3 a → b = a.put .MC_CTL_ARM n 1 →
      c.armed = true → c.gate = some g → fabCycle (b.instOf g.opened) < fabCycle b.now → b.closeNow n = none → y = b.shutAt n b.tick cShort →
      exec (.contextRestart t p n) s = .next (reported ((y.setCtx n { y.ctx n with frames := [] }).openAt n b.tick
        (if (b.mcf n).gmode = 1 then cShort else 0)) p)) ∧
    (∀ b g, isPort p = true → u.get .MC_CTL_ARM n = 1 → takesWriteIn u p .MC_CTL n 3 a → b = a.put .MC_CTL_ARM n 1 →
      c.armed = true → c.gate = some g → b.closeNow n ≠ none → exec (.contextRestart t p n) s = .next (reported b p)) ∧
    (∀ b j, isPort p = true → u.get .MC_CTL_ARM n = 1 → takesWriteIn u p .MC_CTL n 5 a → b = a.put .MC_CTL_ARM n 1 →
      c.armed = true → c.slot = some j → exec (.stabClear t p n) s = .next (reported (b.setStab j (b.stab j).clear) p)) ∧
    (∀ b, isPort p = true → u.get .MC_CTL_ARM n = 0 → b = a.put .MC_CTL_ARM n 0 → c = {} →
      (takesWriteIn u p .MC_CTL n 2 a → exec (.contextRestart t p n) s = .next (reported b p)) ∧
      (takesWriteIn u p .MC_CTL n 4 a → exec (.stabClear t p n) s = .next (reported b p))) ∧
    (∀ e m x rest, e < numEngines → u.fabricRuns = true → (u.engine e).queue = (m, x) :: rest →
      ¬ ((u.ctx m).moving = true ∧ u.engineOf m ≠ e) → exec (.engineUpdate t e) s =
        .next ((u.setEngine e { u.engine e with queue := rest, applied := (u.engine e).applied + 1 }).applyUpd m x)) ∧
    (∀ g, c.gate = some g → u.get .MC_CFG_GMODE n = 1 → u.instOf (g.opened + 16 * tSec) ≤ u.now →
      exec (.gateTimeout t n) s = .next (u.shutAt n (g.opened + 16 * tSec) cShort)) ∧
    (∀ g rest, u.time.halted = false → c.closed = g :: rest → rest ≠ [] ∨ c.gateWaits (u.mcf n) g = false →
      exec (.publish t n) s = .next (u.publishGate n)) ∧
    (∀ e y, u.time.halted = false → c.move = some e → c.moving = true ∨ c.armed = false → y = u.drainCtx n →
      exec (.contextMove t n) s = .next (y.setCtx n { y.ctx n with
        engine := if e = n % 24 then none else some e, move := none, moving := false }))

/-- R43, R254, R256, R258, R262, R276, R278: the commands of a host to a capture unit, each a register write that is carried out: arming
queues the capture or takes the next one, disarming withdraws or ends it, FORCE decides a trigger, ABORT closes the capture, and
a held pan becomes free. -/
def Obligations.CaptureHostCommandsTakeEffect : Prop :=
  ∀ (s u a : State) (t p n : Nat) (c : Acq), u = s.at t → isPort p = true → n < numUnits → c = u.acq n →
    (∀ b y, takesWriteIn u p .AQ_ARM n 1 a → b = a.put .AQ_ARM_ARM n 1 →
      (c.armed = false → c.pend = false →
        y = (b.setAcq n { c with pend := true, guard := b.aqGuard n }).armCry n →
        exec (.armAcquisition t p n) s = .next (reported ((if y.aqStream n then y.holdSlu (y.get .AQ_STREAM_SL n) n else y).submit
          (if b.aqGuard n then 0 else 2) (.acq n)) p)) ∧
      (c.armed = true → c.state = 7 → exec (.armAcquisition t p n) s = .next (reported (b.waitFill n) p)) ∧
      (c.armed = true ∧ c.state ≠ 7 ∨ c.armed = false ∧ c.pend = true →
        exec (.armAcquisition t p n) s = .next (reported b p))) ∧
    (∀ b y, takesWriteIn u p .AQ_ARM n 0 a → b = a.put .AQ_ARM_ARM n 0 →
      (c.pend = true → y = (b.setAcq n { c with pend := false }).retract (.acq n) →
        exec (.disarmAcquisition t p n) s =
          .next (reported (if y.aqStream n then y.freeSlu (y.get .AQ_STREAM_SL n) false else y) p)) ∧
      (c.pend = false → c.armed = true → 3 ≤ c.state → c.state ≤ 5 →
        (b.captureDone n = true →
          exec (.disarmAcquisition t p n) s = .next (reported ((b.closeAcq n 1 none true).leaveArm n) p)) ∧
        (b.captureDone n = false → exec (.disarmAcquisition t p n) s = .next (reported (b.closeAcq n 3 none false) p))) ∧
      (c.pend = false → c.armed = true → c.state = 6 →
        exec (.disarmAcquisition t p n) s = .next (reported ((b.closeAcq n 6 none false).leaveArm n) p)) ∧
      (c.pend = false → c.armed = true → c.state < 3 ∨ 6 < c.state →
        exec (.disarmAcquisition t p n) s = .next (reported (b.leaveArm n) p)) ∧
      (c.pend = false → c.armed = false → exec (.disarmAcquisition t p n) s = .next (reported b p))) ∧
    (takesWriteIn u p .AQ_CMD n 1 a →
      (c.state = 4 → c.trig = none → exec (.force t p n) s = .next (reported ((a.setAcq n { c with
        state := 5, trig := some {
          cause := 8, met := 0, time := a.tick, qual := a.qual, word := c.stored, at_ := a.now, forced := false
          before := a.get .AQ_LAST_T_TIME n } }).put .AQ_LAST_T_TIME n (time64 a.tick)) p)) ∧
      (c.state ≠ 4 → c.state ≠ 5 → exec (.force t p n) s = .next (reported a p))) ∧
    (takesWriteIn u p .AQ_CMD n 2 a →
      (3 ≤ c.state → c.state ≤ 5 →
        (a.captureDone n = true → exec (.abort t p n) s = .next (reported (a.closeAcq n 1 none true) p)) ∧
        (a.captureDone n = false → (∀ x, c.trig = some x → a.sameCycle x = false) →
          exec (.abort t p n) s = .next (reported (a.closeAcq n 2 none false) p)) ∧
        (∀ x y, a.captureDone n = false → c.trig = some x → a.sameCycle x = true →
          y = (a.setAcq n { c with state := 4, trig := none }).put .AQ_LAST_T_TIME n x.before →
          exec (.abort t p n) s =
            .next (reported ((if x.met = 0 then y else y.ignored n).closeAcq n 2 none false) p))) ∧
      (c.state < 3 ∨ 5 < c.state → exec (.abort t p n) s = .next (reported a p))) ∧
    (∀ k, k < numPans → takesWriteIn u p .PAN_STATUS k 256 a → (u.pan k).state = 2 →
      exec (.panRelease t p k) s = .next (reported (a.setPan k { u.pan k with state := 0 }) p))

/-- R63, R256, R257, R258, R259, R262, R263, R301, R305: the events of a capture unit: its fill starts, it becomes ready, the AUTO timeout
decides, an INTERVAL condition or rule finds no second edge, and a capture that is complete closes. While the
fabric stands nothing is decided. -/
def Obligations.CaptureEventsTakeEffect : Prop :=
  ∀ (s u : State) (t n : Nat) (c : Acq), u = s.at t → n < numUnits → c = u.acq n →
    (c.armed = true → c.state = 2 → c.began = true ∨ u.startsHeld = false → u.hbm.trained = true →
      u.aqStores n = false ∨ u.nextPan n ≠ none → exec (.fillStart t n) s = .next (u.fillNow n)) ∧
    (c.state = 3 → (∀ h, c.holdEnd = some h → h ≤ u.tick) →
      u.flag .AQ_CFG_PRE_WAIT n = false ∨ u.aqSrcs n = [] ∨ u.get .AQ_PRE_WORDS n ≤ c.stored - c.head →
      exec (.ready t n) s = .next (u.setAcq n { c with state := 4, readyAt := u.now })) ∧
    (∀ x, x = c.readyAt + u.get .AQ_AUTO_TIMEOUT n * 100 * qNs → u.time.halted = false → c.state = 4 → c.trig = none → u.get .AQ_CFG_MODE n = 2 →
      x ≤ u.now → exec (.autoTimeout t n) s = .next ((u.setAcq n { c with
        state := 5, trig := some {
          cause := 9, met := 0, time := u.ticksAt x, qual := u.qual, word := c.stored, at_ := u.now, forced := false
          before := u.get .AQ_LAST_T_TIME n } }).put .AQ_LAST_T_TIME n (time64 (u.ticksAt x)))) ∧
    (∀ k ta x y z, k < 8 → (SMap.get (fun _ => {}) c.conds k).a = some ta → x = ta + u.get .AQ_TRG_HI_VALUE (trgKey n k) →
      u.time.halted = false → c.armed = true → c.began = true → u.get .AQ_TRG_CTL_TYPE (trgKey n k) = 3 → u.instOf x ≤ u.now →
      y = u.setAcq n { c with conds := SMap.set (fun _ => {}) c.conds k { SMap.get (fun _ => {}) c.conds k with a := none, bs := [] } } →
      z = (if y.get .CRY_CFG_KIND n = 2 ∧ y.get .CRY_MAP_CFG_COND n = k then
        y.sweepRef n x (y.waveHist n (y.get .CRY_MAP_CFG_SRC n)) else y) →
      exec (.intervalTimeout t n k) s = .next (z.condsMet n [(k, x)])) ∧
    (∀ v w x, v < numRules → (u.rule v).window = some w → x = w + u.ruleHi v → u.time.halted = false →
      u.flag .VD_CFG_ENABLE v = true →
      u.get .VD_CFG_TYPE v = 3 → u.instOf x ≤ u.now → exec (.intervalTimeout t numUnits v) s =
        .next ((u.setRule v { u.rule v with window := none, lost := false }).decide_ v
          (if (u.rule v).lost = true ∨ u.metBreak (u.get .VD_SRC_SRC v) w x = true ∨ u.metBreak (u.get .VD_SRC_SRC_B v) w x = true then vLost
           else vOutRange) 0 x)) ∧
    (∀ v, u.time.halted = false → c.state = 6 → c.viol = some v → u.caughtUp n v.1 = true →
      exec (.captureClose t n) s = .next (u.closeAcq n 6 none false)) ∧
    (u.time.halted = false → c.state = 5 → u.captureDone n = true →
      exec (.captureClose t n) s = .next (u.closeAcq n 1 none false)) ∧
    (u.time.halted = true → exec (.autoTimeout t n) s = .next u ∧ exec (.captureClose t n) s = .next u ∧
      (∀ k, k < 8 → exec (.intervalTimeout t n k) s = .next u) ∧
      (∀ v, v < numRules → exec (.intervalTimeout t numUnits v) s = .next u))

/-- R216, R288, R291, R292, R293: crystallisers: FREEZE, CLEAR and RELEASE, each a register write that is carried out; a clear that completes
zeroes the granules and the counters, a staging merge adds its cells, and a sweep that has covered its columns is counted. -/
def Obligations.CrystalliserCommandsTakeEffect : Prop :=
  ∀ (s u a : State) (t p n : Nat) (c : Cry), u = s.at t → n < numUnits → c = u.cry n →
    (∀ b, isPort p = true → takesWriteIn u p .CRY_CTL n 1 a → b = a.put .CRY_CTL_FREEZE n 1 →
      (c.frozen = false → c.freezes = false → c.clearEnd = none → c.kind ≠ 2 ∨ c.sweep = none →
        exec (.freeze t p n 1) s = .next (reported (b.setCry n { c with frozen := true }) p)) ∧
      (c.frozen = false → c.freezes = false → c.clearEnd ≠ none ∨ c.kind = 2 ∧ c.sweep ≠ none →
        exec (.freeze t p n 1) s = .next (reported (b.setCry n { c with freezes := true }) p)) ∧
      (c.frozen = true ∨ c.freezes = true → exec (.freeze t p n 1) s = .next (reported b p))) ∧
    (isPort p = true → takesWriteIn u p .CRY_CTL n 0 a → exec (.freeze t p n 0) s =
      .next (reported ((a.put .CRY_CTL_FREEZE n 0).setCry n { c with frozen := false, freezes := false }) p)) ∧
    (isPort p = true → takesWriteIn u p .CRY_CMD n 1 a →
      (c.mergeEnd = none → exec (.clear t p n) s = .next (reported (a.setCry n { c with
        clearEnd := some (a.now + c.granules.length * 3200 * qNs), clearReq := false, sweep := none }) p)) ∧
      (c.mergeEnd ≠ none → exec (.clear t p n) s = .next (reported (a.setCry n { c with clearReq := true }) p))) ∧
    (isPort p = true → takesWriteIn u p .CRY_CMD n 2 a → exec (.release t p n) s = .next (reported
      ((a.setCry n { c with kind := 0, nhist := 0, granules := [], staging := [] }).put .CRY_STATUS_HELD n 0) p)) ∧
    (∀ x y z, c.clearEnd = some x → x ≤ u.now → y = c.granules.foldl State.zeroGranule u →
      z = ((((List.range 8).foldl (fun v h =>
        (((v.put .CRY_H_UNDER_COUNT (histKey n h) 0).put .CRY_H_OVER_COUNT (histKey n h) 0).put
          .CRY_H_TOTAL_COUNT (histKey n h) 0).put .CRY_H_STATUS_SAT (histKey n h) 0) y).put .CRY_MAP_SWEEPS_COUNT n 0).put
            .CRY_MAP_SKIPPED_COUNT n 0).put .CRY_MAP_CLIP_COUNT n 0 →
      exec (.clearDone t n) s = .next ((z.put .CRY_MAP_STATUS_SAT n 0).setCry n { (z.put .CRY_MAP_STATUS_SAT n 0).cry n with
        clearEnd := none, frozen := c.frozen || c.freezes, freezes := false })) ∧
    (∀ x, c.mergeEnd = some x → x ≤ u.now →
      (c.staging = [] ∨ c.granules = [] → c.clearReq = false →
        exec (.stagingMerge t n) s = .next (u.setCry n { c with mergeEnd := none })) ∧
      (∀ g d w y, c.staging = [g] → c.granules = [d] → w = (if c.kind = 2 then 2 else 4) → (u.mergeCells g d w).2 = false →
        y = (u.mergeCells g d w).1.setCry n { (u.mergeCells g d w).1.cry n with mergeEnd := none } →
        exec (.stagingMerge t n) s = .next (if c.clearReq then y.clearCry n else y))) ∧
    (∀ x k, c.sweep = some (x, k) → 1024 * max 1 (u.get .CRY_MAP_CFG_COLW n) ≤ k → exec (.sweepComplete t n) s =
      .next ((u.setCry n { c with sweep := none, frozen := c.frozen || c.freezes, freezes := false }).count
        .CRY_MAP_SWEEPS_COUNT n))

/-- R297, R299, R305, R306, R308, R391: mask units and verdict rules: the entries whose span ends have passed are decided, a rule is enabled
or disabled by a register write that is carried out, a presence window ends without an edge, a kept target edge expires, and
the verdict at the head of a link's queue is sent. -/
def Obligations.VerdictCommandsTakeEffect : Prop :=
  ∀ (s u a : State) (t p v : Nat) (r : Rule), u = s.at t → v < numRules → r = u.rule v →
    (∀ n y, n < numUnits → u.time.halted = false → u.maskRuns n = true → y = u.setMask n { u.mask n with instances := (u.mask n).instances.map fun i =>
        { i with entries := ((List.range i.entries.length).zip i.entries).map fun x => u.decideEntry n x.1 i.ref x.2 } } →
      exec (.maskSpanPassed t n) s = .next (y.settleMask n)) ∧
    (∀ w y en, isPort p = true → w = u.wordWith .VD_CFG v [(.VD_CFG_ENABLE, en)] % 2 ^ 32 → takesWriteIn u p .VD_CFG v w a →
      y = a.store .VD_CFG v w (fun f => !f.own) →
      (bit w 31 = true → y.flag .VD_CFG_ENABLE v = false →
        exec (.ruleEnable t p v en) s = .next (reported ((y.setRule v {}).put .VD_CFG_ENABLE v 1) p)) ∧
      (bit w 31 = false → y.flag .VD_CFG_ENABLE v = true → exec (.ruleEnable t p v en) s = .next (reported
        ((y.setRule v { r with window := none, lost := false, kept := [] }).put .VD_CFG_ENABLE v 0) p)) ∧
      (bit w 31 = y.flag .VD_CFG_ENABLE v → exec (.ruleEnable t p v en) s = .next (reported y p))) ∧
    (∀ w x, r.window = some w → x = w + u.ruleHi v → u.time.halted = false →
      u.flag .VD_CFG_ENABLE v = true → u.get .VD_CFG_TYPE v = 2 →
      u.spanPassed (u.get .VD_SRC_SRC v) x = true → exec (.presenceWindowEnd t v) s =
        .next ((u.setRule v { r with window := none, lost := false }).decide_ v
          (if r.lost ∨ u.metBreak (u.get .VD_SRC_SRC v) (w + u.ruleLo v) x = true ∨ u.metBreak (u.get .VD_SRC_SRC_B v) w x = true then vLost
           else vAbsent) 0 x)) ∧
    (exec (.targetEdgeExpiry t v) s =
      .next (u.setRule v { r with kept := r.kept.filter fun e => decide (u.now < e.came + 4 * qUs) })) ∧
    (∀ b m w rest, b < numLinks → (u.link b).verdicts = (m, w) :: rest → (u.link b).admitted = true → (u.link b).tx ≠ 0 →
      exec (.verdict t b) s = .next ((((u.setLink b { u.link b with verdicts := rest }).sendBlock b (verdictBlock w)).count
        .LNK_LINK_VERDICTS_COUNT b).count .VD_SENT_COUNT (w / 2 ^ 56)))

/-- R316, R318, R320, R322: the host commands of the marker outputs and the trip outputs, each a register write that is carried out: an arm
takes effect at once and finds the first firing of its pattern (one PULSE whose time has passed is missed); a disarm ends the
schedule, and a pulse in progress completes, as does one whose rising edge falls in the cycle of the disarm; and every output follows the trip lines with the selection and the configuration
that are written. -/
def Obligations.MarkerHostCommandsTakeEffect : Prop :=
  ∀ (s u a : State) (t p k i : Nat) (m : Marker), u = s.at t → isPort p = true → k < numMarkers → i < numTrips →
    m = a.marker k →
    (∀ b, takesWriteIn u p .MRK_CTL k 1 a → b = a.put .MRK_CTL_ARM k 1 →
      (m.armed = true → exec (.markerArm t p k) s = .next (reported b p)) ∧
      (∀ y, m.armed = false → b.get .MRK_CFG_PATTERN k = 0 → b.time.valid = true → b.markerT0 k < b.tick →
        y = (b.setMarker k { m with armed := true, armAt := b.tick, ending := false, last := false, next := none }).count .MRK_MISSED_COUNT k →
        exec (.markerArm t p k) s = .next (reported (y.startLoop k) p)) ∧
      (∀ y, m.armed = false → b.get .MRK_CFG_PATTERN k ≠ 0 ∨ b.time.valid = false ∨ b.tick ≤ b.markerT0 k →
        y = b.setMarker k { m with armed := true, armAt := b.tick, ending := false, last := false, next := some (b.firstFiring k b.tick) } →
        exec (.markerArm t p k) s = .next (reported (y.startLoop k) p))) ∧
    (∀ b, takesWriteIn u p .MRK_CTL k 0 a → b = a.put .MRK_CTL_ARM k 0 →
      (m.armed = false → exec (.markerDisarm t p k) s = .next (reported b p)) ∧
      (∀ v, m.armed = true → v = b.firesNow k → (m.ball || v) = true → exec (.markerDisarm t p k) s =
        .next (reported (b.setMarker k { m with
          armed := false, next := if v then m.next else none, last := v, ending := true }) p)) ∧
      (∀ y, m.armed = true → b.firesNow k = false → m.ball = false →
        y = b.setMarker k { m with armed := false, next := none, last := false, ending := false } →
        exec (.markerDisarm t p k) s = .next (reported (y.endMarker k) p))) ∧
    (∀ w, Sound s → w < 2 ^ 64 → takesPairIn u p .MRK_TRIPSEL k w a → exec (.tripSelect t p false k w) s =
      .next (reportedPair (a.put .MRK_TRIPSEL_LINES k w).settleTrips p)) ∧
    (∀ w, Sound s → w < 2 ^ 64 → takesPairIn u p .TRIP_SEL i w a → exec (.tripSelect t p true i w) s =
      .next (reportedPair (a.put .TRIP_SEL_LINES i w).settleTrips p)) ∧
    (∀ latch force mk, latch < 4 → force < 2 → mk < 32 → takesWriteIn u p .TRIP_CFG i (latch + force * 4 + mk * 256) a →
      exec (.tripCfg t p i (latch + force * 4 + mk * 256)) s = .next (reported (((a.put .TRIP_CFG_LATCH i latch).put
        .TRIP_CFG_FORCE i force).put .TRIP_CFG_REL_MK i mk).settleTrips p))

/-- R314, R316, R320, R321: a firing that is due releases the NEXT latches of its marker and raises the output, unless the marker is
tripped, and the last one of a schedule that a disarm has ended closes its loop-back; one due within 320 ns of the arm, before the time was valid or while the time is halted is missed; and a pulse falls
WIDTH steps after it rose, ending the loop-back of a marker that has been disarmed. -/
def Obligations.MarkerEventsTakeEffect : Prop :=
  ∀ (s u : State) (t k bin : Nat) (m : Marker), u = s.at t → k < numMarkers → m = u.marker k →
    (∀ j (x : Int) y, m.next = some j → u.firingTime k j = some x → m.armed = true ∨ m.last = true → u.time.valid = true →
      u.instOf x ≤ u.now → y = u.setMarker k { m with next := if m.last then none else some (u.nextFiring k j), last := false } →
      (∀ z, x < m.armAt + 5242880 ∨ x < u.time.validAt ∨ u.time.halted = true → z = y.count .MRK_MISSED_COUNT k →
        exec (.firing t k bin) s = .next (if m.last && !(z.marker k).ball then z.endMarker k else z)) ∧
      (m.armAt + 5242880 ≤ x → u.time.validAt ≤ x → u.time.halted = false →
        (∀ z r, (y.releaseNext k).markerTripped k = false →
          z = (((y.releaseNext k).count .MRK_FIRED_COUNT k).setMarker k { (y.releaseNext k).marker k with
            ball := true, high := some (x + ((y.releaseNext k).get .MRK_WIDTH_STEPS k * 64 : Nat)) }).loopEdge k true bin →
          r = (if m.last && !(z.marker k).ball then z.endMarker k else z) →
          exec (.firing t k bin) s = .next ((r.waveMarker k x).masksMarker k x)) ∧
        (∀ z r, (y.releaseNext k).markerTripped k = true → ((y.releaseNext k).marker k).tripAt = none →
          z = ((y.releaseNext k).count .MRK_FIRED_COUNT k).free.2.count .MRK_SUPPRESSED_COUNT k →
          r = (if m.last && !(z.marker k).ball then z.endMarker k else z) →
          exec (.firing t k bin) s = .next ((r.waveMarker k x).masksMarker k x)))) ∧
    (∀ x y, m.high = some x → u.instOf x ≤ u.now → y = (u.setMarker k { m with ball := false, high := none }).loopEdge k false bin →
      exec (.pulseEnd t k bin) s = .next (if m.ending then y.endMarker k else y))

/-- R328, R330, R337, R338, R340, R345: the host commands of Sluice, each a register write that is carried out: GO begins a transfer at
the first word of its list or of its registers, unless the channel has been started in the same cycle; DISABLE makes the channel idle and drops its credits, those of its cycle counted as ignored, unless it is not active
or completes in the cycle; PAUSE drains a running channel and RESUME runs a paused one; LIST_COMMIT takes the list
address over at once on a channel that is not active; and the engine is reset, or disabled channel by channel. -/
def Obligations.SluiceHostCommandsTakeEffect : Prop :=
  ∀ (s u a : State) (t p c : Nat) (x : Slu), u = s.at t → isPort p = true → c < numSluice → x = a.sl c →
    (∀ y z, takesWriteIn u p .SLU_CTL c 1 a → a.startedNow c = false → y = (a.setSl c { x with
        state := 1, goCount := a.get .SLU_COUNT_BYTES c, half := false, desc := none, going := false, ended := false
        list := a.inForce .SLU_LIST_ADDR c, room := 0, recv := [], saved := [] }).put .SLU_DONE_BYTES c 0 →
      z = y.setSl c { y.sl c with startAt := some (y.now, false), stopAt := none } →
      exec (.go t p c) s = .next (reported (z.grantCredits c) p)) ∧
    (∀ o, takesWriteIn u p .SLU_CTL c 1 a → a.startedNow c = true → x.startAt = some (o, true) →
      exec (.go t p c) s = .next (reported ((a.setSl c { x with startAt := some (o, false) }).count .SLU_CREDIT_IGNORED c) p)) ∧
    (∀ o, takesWriteIn u p .SLU_CTL c 1 a → a.startedNow c = true → x.startAt = some (o, false) →
      exec (.go t p c) s = .next (reported a p)) ∧
    (takesWriteIn u p .SLU_CTL c 2 a → x.state = 0 ∨ x.state = 4 ∨ x.state = 6 →
      exec (.disable t p c) s = .next (reported a p)) ∧
    (takesWriteIn u p .SLU_CTL c 2 a → x.state ≠ 0 → x.state ≠ 4 → x.state ≠ 6 → a.sluEnds c = true →
      exec (.disable t p c) s = .next (reported ((a.completeSlu c).raise .SLU_EVENT_ABORT_LATE c) p)) ∧
    (∀ y late, takesWriteIn u p .SLU_CTL c 2 a → x.state ≠ 0 → x.state ≠ 4 → x.state ≠ 6 → a.sluEnds c = false →
      y = a.setSl c { x with state := 0, desc := none, going := false, room := 0, recv := [], saved := [], stopAt := some a.now } →
      late = min (y.get .SLU_CREDIT_AVAIL c) (if aoCycle x.credits.1 = aoCycle y.now then x.credits.2 else 0) →
      exec (.disable t p c) s =
        .next (reported (((y.put .SLU_CREDIT_AVAIL c 0).count .SLU_CREDIT_IGNORED c late).dropCommit c) p)) ∧
    (takesWriteIn u p .SLU_CTL c 4 a →
      (a.sluEnds c = true → exec (.pause t p c) s = .next (reported (a.completeSlu c) p)) ∧
      (a.sluEnds c = false → x.state = 1 →
        exec (.pause t p c) s = .next (reported (a.setSl c { x with state := 2 }) p)) ∧
      (a.sluEnds c = false → x.state ≠ 1 → exec (.pause t p c) s = .next (reported a p))) ∧
    (takesWriteIn u p .SLU_CTL c 8 a →
      (x.state = 3 → exec (.resume t p c) s = .next (reported (a.setSl c { x with state := 1 }) p)) ∧
      (x.state ≠ 3 → exec (.resume t p c) s = .next (reported a p))) ∧
    (takesWriteIn u p .SLU_COMMIT c 1 a →
      (x.state = 0 ∨ 3 < x.state → exec (.listCommit t p c) s = .next (reported (a.applyList c) p)) ∧
      (1 ≤ x.state → x.state ≤ 3 → x.commit = none →
        exec (.listCommit t p c) s = .next (reported (a.setSl c { x with commit := some a.now }) p)) ∧
      (1 ≤ x.state → x.state ≤ 3 → x.commit ≠ none → exec (.listCommit t p c) s = .next (reported a p))) ∧
    (takesWriteIn u p .SLU_ENGINE_CTL 0 2 a → (a.resetSluice.rest kSluice).declared = none →
      exec (.engineResume t p) s = .next (reported a.resetSluice p)) ∧
    (∀ z, takesWriteIn u p .SLU_ENGINE_CTL 0 2 a → (a.resetSluice.rest kSluice).declared = some z →
      exec (.engineResume t p) s = .next (reported (a.resetSluice.endRestore kSluice) p)) ∧
    (takesWriteIn u p .SLU_ENGINE_CTL 0 1 a → exec (.disableAll t p) s = .next (reported ((List.range 32).foldl
      (fun s c => if (s.sl c).held.isSome then s else s.disableSlu c) a) p))

/-- R332, R334, R335, R338, R339, R340: the events of Sluice: a channel that is to pause is paused once its burst is done; a running
channel whose ends are known, that does not wait and whose turn it is moves its next bytes; the last byte of a REGISTER transfer makes the
channel DONE, and that of a descriptor sets the events it asks for; a fault halts the engine while a channel is active; and
AUTO_RESTORE resets a halted engine after 1 ms. -/
def Obligations.SluiceEventsTakeEffect : Prop :=
  ∀ (s u : State) (t c : Nat) (x : Slu), u = s.at t → c < numSluice → x = u.sl c →
    (x.state = 2 → exec (.pauseDrained t c) s = .next (u.setSl c { x with state := 3 })) ∧
    (∀ y src dst ecc, u.sluRuns = true → x.state = 1 → u.sluList c = false → u.waitsAck c = false →
      y = u.grantCredits c → (y.sl c).desc = none → y.sluTurn c = true → y.waitsAck c = false → y.waitsMem c = false → y.waitsCredit c = false → y.sluFrom c = some src → y.sluTo c = some dst →
      (∀ b, y.portAt (some dst) = some b → (y.link b.1).admitted = true) →
      exec (.sluiceBurst t c ecc) s =
        .next (({ y with slu := { y.slu with turn := y.slu.turn.set (y.sluGroup c) c } }).moveBytes c src dst ecc)) ∧
    (∀ y, u.sluDue c = true → u.sluList c = false → y = u.handOver c →
      exec (.descriptorComplete t c) s = .next (((y.setSl c { y.sl c with state := 4, saved := [] }).sluEvent .SLU_EVENT_DONE c).dropCommit c)) ∧
    (∀ y z w d, u.sluDue c = true → u.sluList c = true → x.desc = some d →
      y = (if d.half then u.sluEvent .SLU_EVENT_HALF c else u) → z = (if d.irq then y.sluEvent .SLU_EVENT_DESC c else y) →
      w = (z.setSl c { x with desc := none, going := false, saved := [], list := d.next, ended := d.last }).handOver c →
      exec (.descriptorComplete t c) s = .next (if d.last && x.held.isNone then
        ((w.setSl c { w.sl c with state := 4 }).sluEvent .SLU_EVENT_DONE c).dropCommit c else w)) ∧
    (∀ cause ad, x.state = 1 ∨ x.state = 2 → 1 ≤ cause → cause ≤ 6 →
      exec (.engineHalt t cause ad) s = .next (u.haltSluice cause ad)) ∧
    (∀ y z, u.slu.halted = true → u.flag .SLU_ENGINE_CFG_AUTO_RESTORE = true → u.slu.haltAt + qMs ≤ u.now →
      y = (List.range 32).foldl (fun s c => if (s.sl c).held.isSome then s
        else (s.clearSluRegs c).setSl c { state := if (s.sl c).state = 6 then 6 else 0 }) u.resetSluice →
      z = y.reapply kSluice →
      exec (.autoRestore t) s = .next (if (z.rest kSluice).declared.isSome then z.endRestore kSluice else z))

/-- R353, R355, R357, R359, R360, R361, R362, R363, R365, R377, R393: the host commands of the lanes, the quads and the links, each a
register write that is carried out: ENABLE, RETRAIN, SLIP, RETIRE and RETURN of a lane, P1_REQ, the power state of a quad, and
ENABLE of a link. -/
def Obligations.LaneHostCommandsTakeEffect : Prop :=
  ∀ (s u a : State) (t p l : Nat) (x : Lane), u = s.at t → isPort p = true → l < numLanes → x = a.lane l →
    (∀ w y en q m, en < 2 → q < 2 → m < 2 → u.get .LNK_LANE_CTL_P1_REQ l = q → u.get .LNK_LANE_CTL_MANUAL_SLIP l = m →
      w = en + q * 2 + m * 4 → takesWriteIn u p .LNK_LANE_CTL l w a → y = (a.put .LNK_LANE_CTL_MANUAL_SLIP l m).enableLane l en →
      y.get .LNK_LANE_CTL_P1_REQ l = q → exec (.laneEnable t p l en) s = .next (reported y p)) ∧
    (∀ z : State, z.lane l = x → z.get .LNK_LANE_CTL_ENABLE l = 0 → x.state = 0 → z.enableLane l 1 =
      (((z.put .LNK_LANE_CTL_ENABLE l 1).setLane l { x with state := 9 }).noteEnable l).wakeLanes) ∧
    (∀ z : State, z.lane l = x → z.get .LNK_LANE_CTL_ENABLE l = 1 → x.state ≠ 8 → z.enableLane l 0 =
      if x.service then (z.put .LNK_LANE_CTL_ENABLE l 0).setLane l { x with off := true, leaving := true, place := false }
      else (z.put .LNK_LANE_CTL_ENABLE l 0).unuse l) ∧
    (∀ z : State, z.lane l = x → x.state = 8 → z.enableLane l 1 = z.put .LNK_LANE_CTL_ENABLE l 1) ∧
    (takesWriteIn u p .LNK_LANE_CMD l 1 a →
      (x.state = 1 → exec (.retrain t p l) s = .next (reported (a.setLane l { x with backoff := 0 }) p)) ∧
      (2 ≤ x.state → x.state ≤ 5 → exec (.retrain t p l) s = .next (reported (a.setLane l { x with
        state := 2, eyeTry := false, phaseAt := a.now, tryAt := a.now }) p)) ∧
      (x.state = 6 → exec (.retrain t p l) s = .next (reported (a.startRetrain l) p)) ∧
      (x.state = 7 → (a.quad (l / 4)).pwr = 0 →
        exec (.retrain t p l) s = .next (reported ((a.setLane l { x with backoff := 0 }).enqueue l false) p)) ∧
      (x.state = 7 → (a.quad (l / 4)).pwr ≠ 0 →
        exec (.retrain t p l) s = .next (reported (a.setLane l { x with backoff := 0 }) p)) ∧
      (x.state = 0 ∨ 7 < x.state → exec (.retrain t p l) s = .next (reported a p))) ∧
    (takesWriteIn u p .LNK_LANE_CMD l 2 a →
      (a.flag .LNK_LANE_CTL_MANUAL_SLIP l = true →
        exec (.slip t p l) s = .next (reported (a.setLane l { x with slip := (x.slip + 1) % 66 }) p)) ∧
      (a.flag .LNK_LANE_CTL_MANUAL_SLIP l = false → exec (.slip t p l) s = .next (reported a p))) ∧
    (takesWriteIn u p .LNK_LANE_CMD l 4 a →
      (x.service = true → exec (.laneRetire t p l) s =
        .next (reported (a.setLane l { x with retire := true, leaving := true, place := false }) p)) ∧
      (x.service = false → exec (.laneRetire t p l) s = .next (reported (a.retireNow l) p))) ∧
    (∀ y z, takesWriteIn u p .LNK_LANE_CMD l 8 a → y = a.setLane l { cfg := x.cfg, state := 0, taps := a.presets l, returns := true } →
      z = { y with gov := { y.gov with returns := if y.isJesd l then y.gov.returns else y.gov.returns ++ [l] } } →
      exec (.laneReturn t p l) s =
        .next (reported (if z.flag .LNK_LANE_CTL_ENABLE l then z.enqueue l false else z) p)) ∧
    (∀ w y en v m, Sound s → en < 2 → v < 2 → m < 2 → u.get .LNK_LANE_CTL_ENABLE l = en →
      u.get .LNK_LANE_CTL_MANUAL_SLIP l = m → w = en + v * 2 + m * 4 → takesWriteIn u p .LNK_LANE_CTL l w a →
      y = (a.put .LNK_LANE_CTL_MANUAL_SLIP l m).put .LNK_LANE_CTL_ENABLE l en →
      (v = y.get .LNK_LANE_CTL_P1_REQ l → exec (.p1Req t p l v) s = .next (reported y p)) ∧
      (v ≠ y.get .LNK_LANE_CTL_P1_REQ l → exec (.p1Req t p l v) s = .next (reported (y.reqP1 l v) p)))

/-- R363, R377: the power states of a quad and ENABLE of a link, by a register write that is carried out. -/
def Obligations.QuadAndLinkHostCommandsTakeEffect : Prop :=
  ∀ (s u a : State) (t p q b : Nat) (x : Quad) (k : Link), u = s.at t → isPort p = true → q < numQuads →
    b < numLinks → x = a.quad q → k = a.link b →
    (takesWriteIn u p .LNK_QUAD_CTL q 2 a →
      (a.get .LNK_QUAD_CTL_PWR q ≠ 2 → exec (.p2 t p q) s = .next (reported ((List.range 4).foldl
        (fun s i => s.setLane (4 * q + i) { s.lane (4 * q + i) with lock := false })
        ((a.put .LNK_QUAD_CTL_PWR q 2).setQuad q { x with pwr := 2, pll := false })) p)) ∧
      (a.get .LNK_QUAD_CTL_PWR q = 2 → exec (.p2 t p q) s = .next (reported (a.put .LNK_QUAD_CTL_PWR q 2) p))) ∧
    (∀ y used, takesWriteIn u p .LNK_QUAD_CTL q 0 a → y = a.put .LNK_QUAD_CTL_PWR q 0 →
      used = (List.range 4).any (fun i => (y.lane (4 * q + i)).state == 6 || (y.lane (4 * q + i)).state == 7) →
      (a.get .LNK_QUAD_CTL_PWR q ≠ 0 → x.pwr = 2 → used = true → exec (.p2Exit t p q) s =
        .next (reported (y.setQuad q { x with pwr := 1, exitAt := y.now }) p)) ∧
      (a.get .LNK_QUAD_CTL_PWR q ≠ 0 → x.pwr = 2 → used = false → exec (.p2Exit t p q) s = .next (reported y.wakeLanes p)) ∧
      (a.get .LNK_QUAD_CTL_PWR q = 0 ∨ x.pwr ≠ 2 → exec (.p2Exit t p q) s = .next (reported y p))) ∧
    (∀ y, takesWriteIn u p .LNK_LINK_CTL b 1 a → y = a.put .LNK_LINK_CTL_ENABLE b 1 →
      (a.get .LNK_LINK_CTL_ENABLE b = 0 → exec (.linkUp t p b 1) s = .next (reported (((y.linkLanes b).foldl State.noteEnable
        (y.setLink b { k with pend := true })).submit 1 (.link b)) p)) ∧
      (a.get .LNK_LINK_CTL_ENABLE b = 1 → exec (.linkUp t p b 1) s = .next (reported y p))) ∧
    (∀ y z, takesWriteIn u p .LNK_LINK_CTL b 0 a → y = a.put .LNK_LINK_CTL_ENABLE b 0 → z = y.setLink b { k with up := false } →
      (a.get .LNK_LINK_CTL_ENABLE b = 1 → k.pend = true → exec (.linkUp t p b 0) s =
        .next (reported ((y.setLink b { k with pend := false }).retract (.link b)) p)) ∧
      (a.get .LNK_LINK_CTL_ENABLE b = 1 → k.pend = false → exec (.linkUp t p b 0) s =
        .next (reported ((z.linkLanes b).foldl (fun s l => s.releaseCost (.lane l)) z).noteBoot p)) ∧
      (a.get .LNK_LINK_CTL_ENABLE b = 0 → exec (.linkUp t p b 0) s = .next (reported y p)))

/-- R118, R353, R354, R355, R356, R365, R392: the attempts of a lane: the head of the queue takes a free place, each phase that completes
within its limit begins the next one, the last one trains the lane, and a limit that passes sends the lane to SEEK. The
position that LOCK finds is a free value (log entry 3). -/
def Obligations.LaneTrainingTakesEffect : Prop :=
  ∀ (s u : State) (t l : Nat) (x : Lane), u = s.at t → l < numLanes → x = u.lane l →
    (∀ y, y = { u with boot := { u.boot with lanesOn := u.boot.lanesOn || decide (u.power.t0 + 300 * qMs ≤ u.now) } } →
      exec (.laneStartTime t) s = .next ((List.range 64).foldl (fun z m =>
        if (z.lane m).state = 9 ∧ z.laneReady m = true then (z.setLane m { z.lane m with taps := z.presets m }).enqueue m (!u.boot.lanesOn)
        else z) y)) ∧
    (x.state = 1 → u.quadTrains (l / 4) = true → x.service = false → u.places < 8 →
      x.early = true ∨ u.power.t0 + 300 * qMs ≤ u.now →
      (∀ m, m < 64 → (u.lane m).state = 1 → u.quadTrains (m / 4) = true → (u.lane m).service = false →
        (u.lane m).early = true ∨ u.power.t0 + 300 * qMs ≤ u.now → x.order ≤ (u.lane m).order) →
      exec (.attempt t l) s = .next (u.setLane l { x with
        state := if x.eyeTry then 4 else 2, place := true, order := 0, early := false, phaseAt := u.now, tryAt := u.now })) ∧
    (u.inTime l = true →
      (∀ y, x.state = 2 → y = u.setQuad (l / 4) { u.quad (l / 4) with pll := true } →
        exec (.signal t l) s = .next ((y.setLane l { x with signal := true }).nextPhase l 3)) ∧
      (∀ bad y, x.state = 3 → bad = u.free.1 % 1953126 → y = u.free.2.count .LNK_LANE_SHERR_COUNT l bad →
        exec (.lock t l) s = .next ((y.setLane l { x with lock := true, slip :=
          if (u.flag .LNK_LANE_CTL_MANUAL_SLIP l && u.dev == .test) = true then x.slip else (x.slip + bad) % 66 }).nextPhase l 4)) ∧
      (∀ ctle dfe old taps y, x.state = 4 → old = (if x.taps = [] then u.presets l else x.taps) →
        taps = ((min ctle 15 : Nat) : Int) :: (old.drop 1).take 3 ++
          (List.range 12).map (fun i => max (tapLow (i + 4)) (min (tapHigh (i + 4)) (dfe.getD i 0))) →
        y = u.setLane l { x with taps := taps, reject := false } → exec (.adapt t l ctle dfe) s =
          .next (if u.isJesd l then y.trainedLane l else (y.nextPhase l 5).sendTrain l)) ∧
      (x.state = 5 → exec (.ffe t l) s = .next (u.trainedLane l))) ∧
    (2 ≤ x.state → x.state ≤ 5 → x.phaseAt + phaseLimit x.state ≤ u.now ∨ x.tryAt + u.tryLimit l ≤ u.now →
      exec (.trainingTimeout t l) s = .next ((u.toSeek l).raise .LNK_LANE_EVENT_TIMEOUT l))

/-- R350, R351, R355, R356, R357, R363, R364, R365, R393: what happens to a lane after its training: loss of signal and of lock, the
retries of SEEK, measurements of the eye, adaptation, the ends of P1 and P2, and the fault of its quad. The number of invalid
headers at a loss of lock is a free value (log entry 3). -/
def Obligations.LaneEventsTakeEffect : Prop :=
  ∀ (s u : State) (t l q : Nat) (x : Lane), u = s.at t → l < numLanes → q < numQuads → x = u.lane l →
    (2 ≤ x.state → x.state ≤ 6 → u.listens l = true →
      (x.retire = true → exec (.los t l) s = .next (u.retireNow l)) ∧
      (x.retire = false → exec (.los t l) s = .next
        ((((u.setLane l { x with signal := false }).ingestLost l).toSeek l).raise .LNK_LANE_EVENT_LOS l))) ∧
    (x.state = 1 → exec (.los t l) s = .next (u.setLane l { x with signal := false, lock := false, eyeTry := false })) ∧
    (x.state = 0 ∨ 6 < x.state ∨ 1 < x.state ∧ u.listens l = false →
      exec (.los t l) s = .next (u.setLane l { x with signal := false })) ∧
    (∀ y z, x.lock = true → u.listens l = true → y = u.free.2.count .LNK_LANE_SHERR_COUNT l (8 + u.free.1 % 25) →
      z = (y.ingestLost l).stopLane l false →
      (x.state = 6 → exec (.lostLock t l) s = .next
        (((z.setLane l { z.lane l with taps := z.presets l }).enqueue l false).raise .LNK_LANE_EVENT_LOST_LOCK l)) ∧
      (x.state = 4 ∨ x.state = 5 → exec (.lostLock t l) s = .next (y.setLane l { x with
        state := 2, lock := false, eyeTry := false, phaseAt := y.now, tryAt := y.now })) ∧
      (x.state < 4 ∨ 6 < x.state →
        exec (.lostLock t l) s = .next (y.setLane l { x with lock := false, eyeTry := false }))) ∧
    (∀ signal, x.state = 7 → (u.quad (l / 4)).pwr = 0 →
      x.seekAt + 500 * 2 ^ x.backoff * qMs ≤ u.now ∨ signal = true ∧ x.seekAt + 500 * qMs ≤ u.now →
      exec (.seekRetry t l signal) s =
        .next ((u.setLane l { x with signal := x.signal || signal }).enqueue l false)) ∧
    (∀ vm hm y, x.state = 6 → x.p1 = false → (u.quad (l / 4)).pwr = 0 →
      y = (u.put .LNK_LANE_EYE_VMARGIN l vm).put .LNK_LANE_EYE_HMARGIN l hm →
      (y.get .LNK_QUAD_CFG_EYE_VMIN (l / 4) ≤ vm → y.get .LNK_QUAD_CFG_EYE_HMIN (l / 4) ≤ hm →
        exec (.eyeMeasurement t l vm hm) s = .next (y.setLane l { x with lows := 0 })) ∧
      (vm < y.get .LNK_QUAD_CFG_EYE_VMIN (l / 4) ∨ hm < y.get .LNK_QUAD_CFG_EYE_HMIN (l / 4) → x.lows < 15 →
        exec (.eyeMeasurement t l vm hm) s = .next (y.setLane l { x with lows := x.lows + 1 })) ∧
      (∀ z, vm < y.get .LNK_QUAD_CFG_EYE_VMIN (l / 4) ∨ hm < y.get .LNK_QUAD_CFG_EYE_HMIN (l / 4) → 15 ≤ x.lows →
        z = (y.setLane l { x with lows := 0 }).raise .LNK_LANE_EVENT_EYE_LOW l →
        exec (.eyeMeasurement t l vm hm) s = .next (if z.feedsArmed l false then z else z.startRetrain l))) ∧
    (∀ steps, x.state = 6 → x.p1 = false → (u.quad (l / 4)).pwr = 0 →
      exec (.adaptationUpdate t l steps) s = .next ((List.range 13).foldl (fun y j =>
        (fun i z => if (steps.getD j 0).sign = 0 then y
          else if 8 < (z - (y.lane l).trained.getD i 0).natAbs ∨ z < tapLow i ∨ tapHigh i < z then
            (y.count .LNK_LANE_GUARD_COUNT l).raise .LNK_LANE_EVENT_GUARD l
          else y.setLane l { y.lane l with taps := (y.lane l).taps.set i z })
        (if j = 0 then 0 else j + 3) ((y.lane l).taps.getD (if j = 0 then 0 else j + 3) 0 + (steps.getD j 0).sign))
        (u.setLane l { x with frozen := false }))) ∧
    (x.state = 6 → u.isJesd l = false → exec (.adaptationFreeze t l) s = .next (u.setLane l { x with frozen := true })) ∧
    (exec (.p1SignalReturn t l) s = .next (u.setLane l { x with muted := false, signal := x.signal || decide (2 < x.state) })) ∧
    (∀ y, (u.quad q).pwr = 1 → u.now ≤ (u.quad q).exitAt + 1200 * qUs → y = (List.range 4).foldl (fun s i =>
        if (s.lane (4 * q + i)).state = 6 then s.setLane (4 * q + i) { s.lane (4 * q + i) with lock := true } else s)
        (u.setQuad q { u.quad q with pwr := 0, pll := true }) →
      exec (.p2ExitComplete t q) s = .next y.wakeLanes) ∧
    (∀ y k, k = u.quad (l / 4) → k.exitAt ≠ 0 → k.exitAt + 1200 * qUs ≤ u.now → k.pwr ≤ 1 → x.state = 6 → x.lock = false →
      y = u.setQuad (l / 4) { k with pwr := 0, pll := true } → exec (.p2ExitTimeout t l) s =
        .next (((y.setLane l { x with p1 := false }).stopLane l false).enqueue l false).wakeLanes) ∧
    ((u.quad q).pwr ≠ 2 → exec (.laneQuadFault t q) s = .next ((u.failQuad q).declare kLanes false))

/-- R370, R373, R379, R380, R382, R383, R388, R389: a control block that a link hears, with a good CHECK, ends a packet in progress and
has the effect of its SUB: a selected stream, credits, a start request, a setting of the time or a leap second with their ACK,
a trigger; a block of an unknown type or SUB, or with a bad CHECK, is counted. -/
def Obligations.ControlBlocksTakeEffect : Prop :=
  ∀ (s : State) (t b w : Nat), b < numLinks → (s.at t).linkHears b = true →
    let y := (s.at t).breakPacket b
    let k := y.link b
    let tag := bits w 16 8
    let sec := bits w 24 32
    let triggered := y.count .LNK_LINK_TRIGGERS_COUNT b
    let at_ := ceilCoarse triggered.tick
    let codes := if triggered.time.linkTrig.1 = at_ then triggered.time.linkTrig.2 else []
    (w % 256 = 0x78 → checkOk w = true →
      (bits w 8 4 = subStream →
        (k.admitted = true → exec (.stream t b w) s = .next (y.setLink b { k with stream := some (bits w 16 6) })) ∧
        (k.admitted = false → exec (.stream t b w) s = .next y)) ∧
      (bits w 8 4 = subCredit →
        (k.admitted = true →
          exec (.credit t b w) s = .next ((y.setLink b { k with
            taken := SMap.set (fun _ => 0) k.taken (bits w 16 6) (bits w 22 12) }).takeCredits b (bits w 16 6)
            ((bits w 22 12 + 4096 - SMap.get (fun _ => 0) k.taken (bits w 16 6)) % 4096))) ∧
        (k.admitted = false → exec (.credit t b w) s = .next y)) ∧
      (bits w 8 4 = subStart →
        (k.admitted = true → y.remoteFor b (bits w 16 6) = none → exec (.start t b w) s = .next y) ∧
        (∀ c, k.admitted = true → y.remoteFor b (bits w 16 6) = some c → y.startedNow c = false → y.goError c = none →
          exec (.start t b w) s = .next (y.beginSlu c true)) ∧
        (∀ c, k.admitted = true → y.remoteFor b (bits w 16 6) = some c → y.startedNow c = true ∨ y.goError c ≠ none →
          exec (.start t b w) s = .next (y.count .SLU_CREDIT_IGNORED c)) ∧
        (k.admitted = false → exec (.start t b w) s = .next y)) ∧
      (bits w 8 4 = subTimeSet →
        (∀ r, k.kept.find? (fun r => r.tag == tag && r.crc == 2 ^ 32 + subTimeSet) = some r →
          exec (.timeSet t b w) s = .next (y.sendBlock b (r.words.headD 0))) ∧
        (k.kept.find? (fun r => r.tag == tag && r.crc == 2 ^ 32 + subTimeSet) = none →
          (y.get .LNK_LINK_CFG_TIME b = 0 →
            exec (.timeSet t b w) s = .next (y.sendAck b subTimeSet tag respLocked 0)) ∧
          (y.get .LNK_LINK_CFG_TIME b ≠ 0 → k.admitted = false →
            exec (.timeSet t b w) s = .next (y.sendAck b subTimeSet tag respBusy 0)) ∧
          (y.get .LNK_LINK_CFG_TIME b ≠ 0 → k.admitted = true → y.setByLower b = true →
            exec (.timeSet t b w) s = .next (y.sendAck b subTimeSet tag respBusy 0)) ∧
          (∀ z, y.get .LNK_LINK_CFG_TIME b ≠ 0 → k.admitted = true → y.setByLower b = false → y.quiet = true →
            z = y.acceptSec sec true → exec (.timeSet t b w) s =
              .next (({ z with time := { z.time with setBy := some (z.now, b) } }).sendAck b subTimeSet tag respOk 0)) ∧
          (y.get .LNK_LINK_CFG_TIME b ≠ 0 → k.admitted = true → y.setByLower b = false → y.quiet = false →
            exec (.timeSet t b w) s = .next (y.sendAck b subTimeSet tag respNak eState)))) ∧
      (bits w 8 4 = subLeap →
        (∀ r, k.kept.find? (fun r => r.tag == tag && r.crc == 2 ^ 32 + subLeap) = some r →
          exec (.leap t b w) s = .next (y.sendBlock b (r.words.headD 0))) ∧
        (k.kept.find? (fun r => r.tag == tag && r.crc == 2 ^ 32 + subLeap) = none →
          (y.get .LNK_LINK_CFG_TIME b = 0 → exec (.leap t b w) s = .next (y.sendAck b subLeap tag respLocked 0)) ∧
          (y.get .LNK_LINK_CFG_TIME b ≠ 0 → k.admitted = false →
            exec (.leap t b w) s = .next (y.sendAck b subLeap tag respBusy 0)) ∧
          (y.get .LNK_LINK_CFG_TIME b ≠ 0 → k.admitted = true →
            exec (.leap t b w) s = .next ((y.announceLink sec (bits w 12 1)).sendAck b subLeap tag respOk 0)))) ∧
      (bits w 8 4 = subTrigger →
        (y.get .LNK_LINK_CFG_TRIG b = 0 → exec (.linkTrigger t b w) s = .next y) ∧
        (y.get .LNK_LINK_CFG_TRIG b ≠ 0 → bits w 24 8 ≠ tag ^^^ 0xFF →
          exec (.linkTrigger t b w) s = .next (y.count .LNK_LINK_CHK_ERR_COUNT b)) ∧
        (y.get .LNK_LINK_CFG_TRIG b ≠ 0 → bits w 24 8 = tag ^^^ 0xFF → k.admitted = false →
          exec (.linkTrigger t b w) s = .next y) ∧
        (y.get .LNK_LINK_CFG_TRIG b ≠ 0 → bits w 24 8 = tag ^^^ 0xFF → k.admitted = true →
          exec (.linkTrigger t b w) s = .next (if triggered.time.halted = true ∨ codes.contains tag = true then triggered
            else ({ triggered with time := { triggered.time with linkTrig := (at_, tag :: codes) } }).aqEvents (.link tag at_)))) ∧
      (bits w 8 4 = subAck ∨ subP1 < bits w 8 4 →
        exec (.unknownBlock t b w) s = .next (y.count .LNK_LINK_UNKNOWN_COUNT b))) ∧
    (w % 256 = 0x78 ∨ w % 256 = 0x4B → checkOk w = false →
      exec (.unknownBlock t b w) s = .next (y.count .LNK_LINK_CHK_ERR_COUNT b)) ∧
    (w % 256 ≠ 0 → w % 256 ≠ 0x33 → w % 256 ≠ 0x4B → w % 256 ≠ 0x55 → w % 256 ≠ 0x78 →
      exec (.unknownBlock t b w) s = .next (y.count .LNK_LINK_UNKNOWN_COUNT b))

/-- R371, R372, R373, R374, R375, R376, R377, R378, R382, R392, R393: the ALIGN slots and the lane-local blocks. In a slot, lanes enter P1,
missing ALIGNs are counted, every lane takes its SERVICE bit, the link is admitted or its admission ends, and ALIGN is sent;
with no lane trained or in service the admission ends and none is sent; an ALIGN of the partner deskews its lane; TRAIN sets the
transmitter that the partner asks for and is answered with the lane's own. Whether the parity of a lane
agrees is a free value (log entry 44). -/
def Obligations.AlignmentTakesEffect : Prop :=
  ∀ (s u : State) (t b l w : Nat) (x : Lane) (k : Link), u = s.at t → b < numLinks → l < numLanes → x = u.lane l → k = u.link b →
    (∀ z, (∀ m ∈ u.linkLanes b, (u.lane m).state ≠ 6 ∧ (u.lane m).service = false) →
      z = (if k.admitted then u.endLink b else u) → exec (.alignSlot t b) s =
      .next (z.setLink b { z.link b with aseq := 0, rxAseq := none, tx := 0, offer := 0 })) ∧
    (∀ y z v ready, (∃ m ∈ u.linkLanes b, (u.lane m).state = 6 ∨ (u.lane m).service = true) →
      y = (u.linkLanes b).foldl State.takeService ((u.linkLanes b).foldl (fun s m => s.missAlign b m)
        ((u.linkLanes b).foldl (fun s m => s.enterP1 b m) u)) →
      z = y.setLink b { y.link b with tx := y.laneMask b (·.service), offer := y.laneMask b (·.deskew) } →
      ready = (!(z.linkWorking b).isEmpty && (z.linkWorking b).all fun m => (z.lane m).state == 6 && (z.lane m).deskew) →
      v = ((if !(z.link b).admitted && (z.link b).up && ready then z.admitLink b
        else if (z.link b).admitted && (z.link b).tx == 0 && k.tx != 0 then z.endLink b else z).sendAligns b) →
      exec (.alignSlot t b) s = .next ((fun r => if !(r.link b).admitted && (r.link b).tx != 0
        then r.sendBlock b (r.notReadyBlock b) else r) (v.setLink b { v.link b with aseq := ((v.link b).aseq + 1) % 256 }))) ∧
    (∀ c y, c = u.get .LNK_LANE_CFG_LINK l → u.isJesd l = false → x.cfg = true → x.state = 6 → x.lock = true → w % 256 = 0x33 →
      y = (if u.free.1 % 2 = 1 then u.free.2.count .LNK_LINK_BIP_ERR_COUNT c else u.free.2) →
      (checkOk w = false → exec (.align t l w) s = .next (u.count .LNK_LINK_CHK_ERR_COUNT c)) ∧
      (∀ d, checkOk w = true → y.alignFits c l (bits w 24 8) = some d →
        exec (.align t l w) s = .next (y.takeAlign c l w d)) ∧
      (checkOk w = true → y.alignFits c l (bits w 24 8) = none → exec (.align t l w) s =
        .next ((y.setLane l { x with deskew := false, miss := 0 }).raise .LNK_LINK_EVENT_DESKEW_FAIL c))) ∧
    (∀ stream c, k.admitted = true → c < 32 → u.portAt (u.sluFrom c) = some (b, stream) → 0 < (u.sl c).room →
      SMap.get (fun _ => 0) k.repeatAt stream + 100 * qUs ≤ u.now → exec (.creditRepeat t b stream) s =
        .next ((u.setLink b { k with repeatAt := SMap.set (fun _ => 0) k.repeatAt stream u.now }).sendBlock b
          (creditWord stream (SMap.get (fun _ => 0) k.given stream)))) ∧
    (∀ y, u.isJesd l = false → x.state = 5 → w % 256 = 0x78 → bits w 8 4 = subTrain →
      (checkOk w = false → exec (.train t l w) s = .next (u.count .LNK_LINK_CHK_ERR_COUNT (u.get .LNK_LANE_CFG_LINK l))) ∧
      (checkOk w = true →
        y = (if !bit w 31 then u else if ffeOk (bits w 16 4) (bits w 20 6) (bits w 26 5) then u.setLane l { x with
          taps := ((x.taps.set 1 (bits w 16 4 : Nat)).set 2 (bits w 20 6 : Nat)).set 3 (bits w 26 5 : Nat), reject := false }
          else u.setLane l { x with reject := true }) →
        exec (.train t l w) s = .next (if bit w 48 then (y.sendTrain l).ffeDone l else y.sendTrain l))) ∧
    (u.isJesd l = false → x.state = 6 → w % 256 = 0x78 → bits w 8 4 = subP1 →
      (checkOk w = false → exec (.p1 t l w) s = .next (u.count .LNK_LINK_CHK_ERR_COUNT (u.get .LNK_LANE_CFG_LINK l))) ∧
      (checkOk w = true → exec (.p1 t l w) s = .next (u.setLane l { x with muted := true })))

/-- R350, R380, R381, R383: a DATA block of a link that is heard resumes the adaptation of the lanes that carry it; its word belongs to
the packet in progress, or goes to the selected stream; one with no stream selected, or that no channel takes, is an error of
the protocol. -/
def Obligations.DataBlocksTakeEffect : Prop :=
  ∀ (s u y : State) (t b w : Nat) (k : Link), u = s.at t → b < numLinks → u.linkHears b = true → w < 2 ^ 64 → k = y.link b →
    y = (u.linkLanes b).foldl (fun s l =>
      if bit (s.link b).rx (l % 4) && (s.lane l).frozen then s.setLane l { s.lane l with frozen := false } else s) u →
    (∀ len ws, k.packet = some (len, ws) → ws.length + 1 < len →
      exec (.data t b w) s = .next (y.setLink b { k with packet := some (len, ws ++ [w]) })) ∧
    (∀ len ws, k.packet = some (len, ws) → len ≤ ws.length + 1 →
      exec (.data t b w) s = .next ((y.setLink b { k with packet := none }).takePacket b (ws ++ [w]))) ∧
    (k.packet = none → k.admitted = false → exec (.data t b w) s = .next y) ∧
    (k.packet = none → k.admitted = true → k.stream = none →
      exec (.data t b w) s = .next (y.raise .LNK_LINK_EVENT_PROTOCOL b)) ∧
    (∀ stream z, k.packet = none → k.admitted = true → k.stream = some stream → y.takeData b stream w = (true, z) →
      exec (.data t b w) s = .next z) ∧
    (∀ stream z, k.packet = none → k.admitted = true → k.stream = some stream → y.takeData b stream w = (false, z) →
      exec (.data t b w) s = .next ((z.count .LNK_LINK_LOST_BLOCKS_COUNT b).raise .LNK_LINK_EVENT_PROTOCOL b))

/-- R380, R384, R385, R386, R387, R396: a request packet that a link hears ends a packet in progress and resumes adaptation. With
LINK_CFG.REG = 0 every one is answered LOCKED; one whose response is kept is answered with it; a malformed one with NAK 0xFF, one that LINK_CFG.REG refuses with LOCKED, one before
admission, with 64 packets pending at the crossing or for a subsystem under restoration with BUSY; the others carry out their accesses through the crossing, the
instant of the answer being a free value within the time that R386 and R398 give (log entry 3). -/
def Obligations.PacketsTakeEffect : Prop :=
  ∀ (s u y : State) (t b op tag count ad crc : Nat) (ws : List Nat) (k : Link), u = s.at t → b < numLinks → u.linkHears b = true →
    y = (u.breakPacket b).thawLanes b → k = y.link b → op = bits (ws.headD 0) 0 8 → tag = bits (ws.headD 0) 8 8 →
    count = bits (ws.headD 0) 16 8 → ad = bits (ws.headD 0) 32 32 → crc = ws.getLast?.getD 0 % 2 ^ 32 →
    (∀ r, y.get .LNK_LINK_CFG_REG b ≠ 0 → k.kept.find? (fun r => r.tag == tag && r.crc == crc) = some r →
      exec (.read t b ws) s = .next ((y.count .LNK_LINK_PKTS_COUNT b).sendPacket b r.words) ∧
      exec (.writePacket t b ws) s = .next ((y.count .LNK_LINK_PKTS_COUNT b).sendPacket b r.words)) ∧
    (∀ z, k.kept.find? (fun r => r.tag == tag && r.crc == crc) = none → packetBad ws = true → y.get .LNK_LINK_CFG_REG b ≠ 0 →
      z = y.respond b tag crc (withCrc [respWord op tag 0 respNak ePacket]) respNak ePacket →
      exec (.read t b ws) s = .next z ∧ exec (.writePacket t b ws) s = .next z) ∧
    (∀ z, y.get .LNK_LINK_CFG_REG b = 0 ∨
        k.kept.find? (fun r => r.tag == tag && r.crc == crc) = none ∧ packetBad ws = false ∧ y.get .LNK_LINK_CFG_REG b = 1 ∧
        (op = 1 ∨ ∃ j, j < count ∧ y.sideEffect (ad + 4 * j) = true) →
      z = y.respond b tag crc (withCrc [respWord op tag 0 respLocked 0]) respLocked 0 →
      exec (.read t b ws) s = .next z ∧ exec (.writePacket t b ws) s = .next z) ∧
    (k.kept.find? (fun r => r.tag == tag && r.crc == crc) = none → packetBad ws = false →
      y.get .LNK_LINK_CFG_REG b ≠ 0 →
      (y.get .LNK_LINK_CFG_REG b = 1 → op ≠ 1 ∧ ∀ j, j < count → y.sideEffect (ad + 4 * j) = false) →
      (∀ z, k.admitted = false ∨ y.dev = .boot → op = 1 ∨ (∃ j, j < count ∧ inDevBoot (ad + 4 * j) = false) →
        z = y.respond b tag crc (withCrc [respWord op tag 0 respBusy 0]) respBusy 0 →
        exec (.read t b ws) s = .next z ∧ exec (.writePacket t b ws) s = .next z) ∧
      (∀ z, 64 ≤ y.pktsPending.length ∨ (∃ j, j < count ∧ y.restoring (ad + 4 * j) = true) → k.admitted = true → y.dev ≠ .boot →
        z = y.respond b tag crc (withCrc [respWord op tag 0 respBusy 0]) respBusy 0 →
        exec (.read t b ws) s = .next z ∧ exec (.writePacket t b ws) s = .next z) ∧
      (y.pktsPending.length < 64 → (∀ j, j < count → y.restoring (ad + 4 * j) = false) →
        k.admitted = true ∧ y.dev ≠ .boot ∨ op = 0 ∧ (∀ j, j < count → inDevBoot (ad + 4 * j) = true) →
        ∃ v x, v = { y.free.2 with pkts := y.pktsPending ++ [(b, x)] } ∧ y.now ≤ x ∧
          x ≤ max ((y.pktsPending.filter fun e => e.1 == b).foldl (fun m e => max m e.2) y.now)
            (y.now + min (count * 500 * qNs) (10 * qUs)) ∧
        (∀ ds err done un z r, op = 0 → v.readRun (16 + b) 4 ad count = (ds, err, done, un, z) →
          r = (if err = 0 then respOk else respNak) →
          exec (.read t b ws) s = .next ((z.setPort (16 + b) { z.port (16 + b) with resp := {
              data := ds.take done, status := r, err := err, done := done, flags := b2n (z.port (16 + b)).gate + 2 * b2n z.irq } }).respond b tag crc
            (withCrc (respWord op tag done r err :: pairWords (ds.take done))) r err)) ∧
        (∀ err done un z r, op = 1 →
          v.writeRun (16 + b) ad ((unpairWords (ws.drop 1).dropLast).take count) = (err, done, un, z) →
          r = (if err = 0 then respOk else respNak) →
          exec (.writePacket t b ws) s = .next ((z.setPort (16 + b) { z.port (16 + b) with resp := {
              data := [], status := r, err := err, done := done, flags := b2n (z.port (16 + b)).gate + 2 * b2n z.irq } }).respond b tag crc
            (withCrc [respWord op tag done r err]) r err))))

/-- R399, R400, R401, R402, R403, R407, R408, R411: the transactions of the SPI management port: a read of a register that is carried out
returns its bytes, a write has the effect of its register, a COUNT that the operation does not allow is a bus error, runs of
accesses are reported by the trailer, PHASE returns BOOT_PHASE, and a transaction cut short drops its latches. -/
def Obligations.SpiTransactionsTakeEffect : Prop :=
  ∀ (s u : State) (t n ad : Nat) (data : List Nat), u = s.at t → u.dev ≠ .off →
    (∀ w r i y x, Sound s → takesRead u 0 ad w r i → y = (if r.desc.blk = .MC then (readFalls u 0).afterBank else readFalls u 0) →
      x = u.readReg 0 false r i % 2 ^ 32 / 2 ^ (8 * (ad % 4)) % 2 ^ (8 * w) →
      (w = 1 → exec (.read8 t 1 ad) s = .next (y.trailer 0 [x] 0 1 false)) ∧
      (w = 2 → exec (.read16 t 1 ad) s = .next (y.trailer 0 [x] 0 1 false)) ∧
      (w = 4 → exec (.read32 t 1 ad) s = .next (y.trailer 0 [x] 0 1 false))) ∧
    (∀ r i v, Command r i → v < 2 ^ 32 → takesWrite u 0 r i v →
      exec (.write32 t 1 (r.addr i) [v]) s = .next (reported ((accepted u 0 r i v).writeReg 0 r i v) 0)) ∧
    (n ≠ 1 → exec (.read8 t n ad) s = .next ((u.busError 0 false ad eWidth).trailer 0 [] eWidth 0 false) ∧
      exec (.read16 t n ad) s = .next ((u.busError 0 false ad eWidth).trailer 0 [] eWidth 0 false)) ∧
    (n = 0 ∨ 64 < n → exec (.read32 t n ad) s = .next ((u.busError 0 false ad eWidth).trailer 0 [] eWidth 0 false) ∧
      exec (.write32 t n ad data) s = .next ((u.busError 0 true ad eWidth).trailer 0 [] eWidth 0 false)) ∧
    (∀ ds e done un y, 1 ≤ n → n ≤ 64 → u.readRun 0 4 ad n = (ds, e, done, un, y) →
      exec (.read32 t n ad) s = .next (y.trailer 0 ds e done un)) ∧
    (∀ e done un y, 1 ≤ n → n ≤ 64 → data.length = n → u.writeRun 0 ad data = (e, done, un, y) →
      exec (.write32 t n ad data) s = .next (y.trailer 0 [] e done un)) ∧
    (exec (.phase t) s = .next (u.setPort 0 { u.port 0 with resp := { data := [u.readReg 0 false .BOOT_PHASE 0] } })) ∧
    (∀ bytes e done un y, 1 ≤ n → n ≤ 64 → u.writeRun 0 ad ((bigWords bytes).take n) = (e, done, un, y) →
      exec (.spiCutShort t 4 n ad bytes) s = .next (y.setPort 0 { y.port 0 with rd := none, wr := none })) ∧
    (∀ bytes ds e done un y, 1 ≤ n → n ≤ 64 → u.readRun 0 4 ad (min n ((bytes.length - 4) / 4)) = (ds, e, done, un, y) →
      exec (.spiCutShort t 3 n ad bytes) s = .next (y.setPort 0 { y.port 0 with rd := none, wr := none }))

/-- R404: the JTAG port: Update-DR of REGACC carries out the access it holds, which completes within 500 ns at a free instant (log entry
3); Capture-DR takes its result, or shows it busy; and IDCODE, BYPASS, SAMPLE/PRELOAD and EXTEST. -/
def Obligations.JtagTakesEffect : Prop :=
  ∀ (s u : State) (t dr : Nat), u = s.at t → u.jtagServed = true →
    (∀ x y e, u.jtag.doneAt = some x → u.now < x → y = { u with jtag := { u.jtag with instr := 4, drive := false } } →
      e = bits dr 64 2 → exec (.regacc t dr) s = .next y) ∧
    (∀ y r i, (∀ x, u.jtag.doneAt = some x → x ≤ u.now) → y = { u with jtag := { u.jtag with instr := 4, drive := false } } →
      (∀ z, Command r i → bits dr 64 2 = 1 → bits dr 32 32 = r.addr i → takesWrite y 1 r i (bits dr 0 32) →
        z = (accepted y 1 r i (bits dr 0 32)).writeReg 1 r i (bits dr 0 32) →
        exec (.regacc t dr) s = .next { z.free.2 with jtag := { z.jtag with
          op := 1, doneAt := some (z.now + z.free.1 % (500 * qNs + 1)), data := 0, status := 0, err := 0 } }) ∧
      (∀ z w, Sound s → bits dr 64 2 ≠ 1 → w = (if bits dr 64 2 = 2 then 2 else if bits dr 64 2 = 3 then 1 else 4) →
        takesRead y 1 (bits dr 32 32) w r i → z = (if r.desc.blk = .MC then (readFalls y 1).afterBank else readFalls y 1) →
        exec (.regacc t dr) s = .next { z.free.2 with jtag := { z.jtag with
          op := bits dr 64 2, doneAt := some (z.now + z.free.1 % (500 * qNs + 1))
          data := y.readReg 1 false r i % 2 ^ 32 / 2 ^ (8 * (bits dr 32 32 % 4)) % 2 ^ (8 * w), status := 0, err := 0 } }) ∧
      (∀ e z, Sound s → bits dr 64 2 = 1 → (y.writeAccess 1 (bits dr 32 32) (bits dr 0 32)) = ({ err := e }, z) → e ≠ 0 →
        exec (.regacc t dr) s = .next { z.free.2 with jtag := { z.jtag with
          op := 1, doneAt := some (z.now + z.free.1 % (500 * qNs + 1)), data := 0, status := 2, err := e } })) ∧
    (∀ x, u.jtag.doneAt = some x → u.now < x →
      exec (.captureDr t) s = .next { u with jtag := { u.jtag with dr := 2 ^ 40 } }) ∧
    ((∀ x, u.jtag.doneAt = some x → x ≤ u.now) → exec (.captureDr t) s = .next { u with jtag := { u.jtag with
      dr := u.jtag.data + u.jtag.err * 2 ^ 32 + u.jtag.status * 2 ^ 40 } }) ∧
    (exec (.idcode t) s = .next { u with jtag := { u.jtag with instr := 1, drive := false, dr := idCode } }) ∧
    (exec (.bypass t) s = .next { u with jtag := { u.jtag with instr := 0, drive := false, dr := 0 } }) ∧
    (∀ balls load, exec (.samplePreload t balls load) s =
      .next { u with jtag := { u.jtag with instr := 2, drive := false, dr := balls, bscan := load } }) ∧
    (∀ balls, exec (.extest t balls) s = .next { u with jtag := { u.jtag with instr := 3, drive := true, dr := balls } })

/-- R29, R401, R407, R410, R414, R417, R422: the commands of the crossing itself: a register write that is carried out, the tide gate, a
Harvest with its instant and its end, and the entry to TEST and the return from it. -/
def Obligations.CrossingCommandsTakeEffect : Prop :=
  ∀ (s u a : State) (t p : Nat), u = s.at t → isPort p = true →
    (∀ r i v, Command r i → v < 2 ^ 32 → takesWriteIn u p r i v a →
      exec (.registerWrite t p (r.addr i) v) s = .next (reported (a.writeReg p r i v) p) ∧
      exec (.eventWriteBack t p (r.addr i) v) s = .next (reported (a.writeReg p r i v) p)) ∧
    (∀ r i v, r ∈ [Reg.PWR_EVENT, .HVS_EVENT, .BOOT_EVENT, .TB_STATUS, .TB_ISLAND_UNLOCK, .TCH_BE_EVENT, .WCH_EVENT, .MC_EVENT,
        .AQ_EVENT, .CRY_EVENT, .MSK_EVENT, .SLU_EVENT, .SLU_ENGINE_EVENT, .LNK_LANE_EVENT, .LNK_LINK_EVENT, .DEV_EVENT,
        .LIFE_EVENT, .VD_EVENT] → Command r i → v < 2 ^ 32 → takesWriteIn u p r i v a →
      exec (.eventWriteBack t p (r.addr i) v) s = .next (reported (a.writeBack r i v) p)) ∧
    (∀ i v y, Command .MRK_EVENT i → v < 2 ^ 32 → takesWriteIn u p .MRK_EVENT i v a → y = a.writeBack .MRK_EVENT i v →
      exec (.eventWriteBack t p (Reg.addr .MRK_EVENT i) v) s =
        .next (reported (if a.releases .MRK_EVENT_TRIPPED i v then y.releaseMarker i else y) p)) ∧
    (∀ key, key < 2 ^ 16 → takesWriteIn u p .DEV_TIDEGATE 0 key a → exec (.tideGate t p key) s =
      .next (reported (a.setPort p { a.port p with gate := decide (key = 0x5A17) }) p)) ∧
    (∀ h, takesWriteIn u p .DEV_CMD 0 1 a →
      (a.time.valid = true →
        h = (a.time.origin + (((a.now + qUs + qTick - 1) / qTick : Nat) : Int) + tPer - 1) / (tPer : Int) * tPer →
        exec (.harvest t p) s = .next (reported { a with bank := { a.bank with
          busy := true, due := some (a.instOf h), time := time64 h } } p)) ∧
      (a.time.valid = false → exec (.harvest t p) s = .next (reported { a with bank := { a.bank with
        busy := true, due := some (a.now + qUs), time := 0 } } p))) ∧
    (∀ x, u.bank.due = some x → x ≤ u.now → exec (.harvestInstant t) s = .next { u with bank := { u.bank with
      due := none, next := u.harvestRegs, nextStabs := u.stabs, qual := u.qual } }) ∧
    (∀ y, u.bank.busy = true → u.bank.due = none → y = { u with bank := { u.bank with
        regs := u.bank.next, stabs := u.bank.nextStabs, next := [], nextStabs := [], busy := false } } →
      exec (.harvestDone t) s = .next ((((y.put .DEV_HARVEST_TIME_TIME 0 u.bank.time).put .DEV_HARVEST_QUAL 0 u.bank.qual).bump
        .DEV_HARVEST_HSEQ).raise .DEV_EVENT_HARVEST_DONE)) ∧
    (takesWriteIn u p .DEV_CMD 0 2 a → a.dev = .run → exec (.enterTest t p) s =
      .next (reported ({ a with prev := .run, dev := .test, devAt := a.now }.raise .DEV_EVENT_STATE) p)) ∧
    (takesWriteIn u p .DEV_CMD 0 4 a → a.dev = .test → exec (.leaveTest t p) s =
      .next (reported ({ a.endBypasses with prev := .test, dev := .run, devAt := a.now }.raise .DEV_EVENT_STATE) p))

/-- R247, R430, R438, R441, R442, R443: the host commands of service life, each a register write that is carried out: a ledger entry, a
refresh, and the retirement or the return of an engine, a pseudo-channel or a Sluice channel; that of a Sluice channel
completes at once. -/
def Obligations.LifeHostCommandsTakeEffect : Prop :=
  ∀ (s u a : State) (t p : Nat), u = s.at t → isPort p = true →
    (takesWriteIn u p .LIFE_CMD 0 2 a → exec (.ledgerSync t p) s = .next (reported (a.ledger kHourly) p)) ∧
    (takesWriteIn u p .LIFE_CMD 0 1 a →
      (a.life.refStage ≠ 0 → exec (.refresh t p) s = .next (reported a p)) ∧
      (a.life.refStage = 0 → a.refreshRuns = true → exec (.refresh t p) s = .next (reported
        ({ a with life := { a.life with refStage := 1, refFails := 0, refWant := false } }.put .LIFE_STATUS_REFRESHING 0 1) p)) ∧
      (a.life.refStage = 0 → a.refreshRuns = false → exec (.refresh t p) s =
        .next (reported { a with life := { a.life with refWant := true } } p))) ∧
    (∀ kind index b w y, Sound s → kind < 4 → index < 64 → w = kind + index * 2 ^ 8 →
      b = (a.put .LIFE_UNIT_CMD_KIND 0 kind).put .LIFE_UNIT_CMD_INDEX 0 index →
      (takesWriteIn u p .LIFE_UNIT_CMD 0 (w + 2 ^ 16) a →
        (kind = 0 → y = { b with life := { b.life with engBusy := some (index, true) } } →
          exec (.unitRetire t p kind index) s = .next (reported (y.moveContexts
            ((b.armedContexts.filter fun n => b.engineOf n == index).mapIdx fun i n =>
              (n, y.workEngines.getD (i % max 1 y.workEngines.length) index))) p)) ∧
        (kind = 1 → y = { b with life := { b.life with pchBusy := some (index, true) } } →
          exec (.unitRetire t p kind index) s = .next (reported y.dropAbove p)) ∧
        (kind = 2 → y = { b with life := { b.life with sluAt := some b.now } }.setSl index { b.sl index with state := 6 } →
          exec (.unitRetire t p kind index) s = .next (reported
            (y.put .LIFE_SLU_RETIRED_BITS 0 (b.get .LIFE_SLU_RETIRED_BITS ||| 2 ^ index)).unitDone p))) ∧
      (takesWriteIn u p .LIFE_UNIT_CMD 0 (w + 2 ^ 17) a →
        (kind = 0 → y = { b with life := { b.life with engBusy := some (index, false) } } →
          exec (.unitReturn t p kind index) s = .next (reported (y.moveContexts
            ((y.armedContexts.filter fun n => n % 24 == index && y.engineOf n != index).map fun n => (n, index))) p)) ∧
        (kind = 1 → y = { b with life := { b.life with pchBusy := some (index, false) } } →
          exec (.unitReturn t p kind index) s = .next (reported y p)) ∧
        (kind = 2 → y = ({ b with life := { b.life with sluAt := some b.now } }.clearSluRegs index).setSl index {} →
          exec (.unitReturn t p kind index) s = .next (reported (y.put .LIFE_SLU_RETIRED_BITS 0
            (b.get .LIFE_SLU_RETIRED_BITS &&& ((2 ^ 32 - 1) ^^^ 2 ^ index))).unitDone p))))

/-- R426, R428, R429, R430, R431, R433, R441, R442, R443: the hours of the device and the ledger: a whole hour adds the life it consumed,
an HOURLY entry falls due every hour, the entry that is due first is written into the next slot or dropped after three tries,
and the ends of a migration and of an engine's moves set the retired bit of the unit. -/
def Obligations.LedgerEventsTakeEffect : Prop :=
  ∀ (s u : State) (t : Nat), u = s.at t →
    (∀ rings y z, u.dev ≠ .off → u.life.wholeAt + 3600 * qSec ≤ u.now →
      y = { u.count .LIFE_HOURS_COUNT with
        life := { u.life with wholeAt := u.life.wholeAt + 3600 * qSec }, gov := { u.gov with hourTj := 0, hourP := 0, hourN := 0 } } →
      (u.gov.hourN = 0 → z = y) →
      (u.gov.hourN ≠ 0 → z = { y with life := { y.life with
        consumed := min (u.life.consumed + consumedHour u.gov.hourTj u.gov.hourP u.gov.hourN) (2 ^ 64 - 1)
        lifeHours := u.life.lifeHours + 1, sumTj := u.life.sumTj + quotI (u.gov.hourTj * 65536) u.gov.hourN
        sumP := u.life.sumP + quot (u.gov.hourP * 65536) (950 * u.gov.hourN) } }) →
      exec (.lifeHour t rings) s = .next ((List.range 9).foldl (fun s k => match rings[k]? with
        | some x => if (if k = 8 then s.is8State == 0 else (s.island k).state == 0) = true then
            (fun y => if x.2 < -3000 ∧ (y.island k).aged = false
              then (y.setIsland k { y.island k with aged := true }).ageing k else y)
              ((s.put .LIFE_RO_FREQ k x.1).put .LIFE_RO_DRIFT k (ofSigned 16 x.2)) else s
        | none => s) z.showLife)) ∧
    (u.dev ≠ .off → u.life.hoursAt + 3600 * qSec ≤ u.now → exec (.hourly t) s =
      .next ({ u with life := { u.life with hoursAt := u.life.hoursAt + 3600 * qSec } }.ledger kHourly)) ∧
    (∀ y j rest, u.ledgerFree = true → u.life.jobs ≠ [] → y = (if 8192 ≤ u.life.slots then u.changeHalf else u) →
      y.life.jobs = j :: rest →
      (∀ z, z = { y with life := { y.life with
          jobs := rest, tries := 0, slots := y.life.slots + 1
          image := y.life.image ++ [(y.life.half, y.life.slots, (y.ledgerEntry j).map (BitVec.ofNat 8))]
          sinceHour := if j.kind = kHourly then 0 else y.life.sinceHour + 1
          sinceServ := if j.kind = kService then 0 else y.life.sinceServ + 1 } }.count .LIFE_ENTRIES_COUNT →
        exec (.ledgerWrite t true) s = .next ((z.after63 kHourly z.life.sinceHour).after63 kService z.life.sinceServ)) ∧
      (y.life.tries < 2 → exec (.ledgerWrite t false) s = .next ({ y with life := { y.life with
        tries := y.life.tries + 1, slots := y.life.slots + 1 } }.raise .LIFE_EVENT_LEDGER_FAIL)) ∧
      (2 ≤ y.life.tries → exec (.ledgerWrite t false) s = .next ({ y with life := { y.life with
        jobs := rest, tries := 0, slots := y.life.slots + 1 } }.raise .LIFE_EVENT_LEDGER_FAIL))) ∧
    (∀ p, u.life.pchBusy = some (p, true) → exec (.migrationDone t) s = .next
      (({ u with life := { u.life with pchBusy := none } }.put .LIFE_PCH_RETIRED_BITS 0
        (u.get .LIFE_PCH_RETIRED_BITS ||| 2 ^ p)).unitDone)) ∧
    (∀ p, u.life.pchBusy = some (p, false) → exec (.migrationDone t) s = .next
      (({ u with life := { u.life with pchBusy := none } }.put .LIFE_PCH_RETIRED_BITS 0
        (u.get .LIFE_PCH_RETIRED_BITS &&& ((2 ^ 64 - 1) ^^^ 2 ^ p))).unitDone)) ∧
    (∀ e, u.life.engBusy = some (e, true) → (∀ x ∈ u.ctxs, x.2.move = none) → exec (.engineMoveDone t) s = .next
      (({ u with life := { u.life with engBusy := none } }.put .LIFE_ENG_RETIRED_BITS 0
        (u.get .LIFE_ENG_RETIRED_BITS ||| 2 ^ e)).unitDone)) ∧
    (∀ e, u.life.engBusy = some (e, false) → (∀ x ∈ u.ctxs, x.2.move = none) → exec (.engineMoveDone t) s = .next
      (({ u with life := { u.life with engBusy := none } }.put .LIFE_ENG_RETIRED_BITS 0
        (u.get .LIFE_ENG_RETIRED_BITS &&& ((2 ^ 24 - 1) ^^^ 2 ^ e))).unitDone))

/-- R117, R124, R434, R435, R436, R437, R438, R439, R440, R468: HBM and the flash: a unit that the patrol reads without an error, with a
corrected one or with an uncorrectable one, the flash refresh from falling due to its last sector, and the training of HBM.
The flash address in the entry of a refresh that ends is a free value (log entry 3). -/
def Obligations.ScrubbingAndRefreshTakeEffect : Prop :=
  ∀ (s u : State) (t : Nat), u = s.at t →
    (∀ ad row spare y, u.hbm.trained = true → u.patrolled ad = true → row = u.rowOf ad →
      (exec (.patrolRead t ad 0 spare false) s = .next u) ∧
      (exec (.patrolRead t ad 0 spare true) s = .next ({ u with life := { u.life with
        patrolBad := u.life.pass ++ u.life.patrolBad, pass := [] } }.count .LIFE_SCRUB_PASSES_COUNT)) ∧
      (y = u.count .LIFE_SCRUB_CE_COUNT → u.life.patrolBad.contains row = true →
        exec (.patrolRead t ad 1 spare false) s = .next (y.repairRow ad spare)) ∧
      (y = u.count .LIFE_SCRUB_CE_COUNT → u.life.patrolBad.contains row = false → u.life.pass.contains row = false →
        exec (.patrolRead t ad 1 spare false) s = .next { y with life := { y.life with pass := row :: y.life.pass } }) ∧
      (y = ((u.count .LIFE_SCRUB_UE_COUNT).raise .LIFE_EVENT_SCRUB_UE).ledger kEvent evScrub ad →
        exec (.patrolRead t ad 2 spare false) s = .next ({ y with life := { y.life with
          bad := (ad / 64 * 64) :: y.life.bad.filter (· != ad / 64 * 64) } }.repairRow ad spare))) ∧
    (u.time.valid = true → u.life.refDueAt = none → u.get .LIFE_REFRESH_NEXT_SEC ≤ secOf u.tick → u.life.refStage = 0 →
      exec (.refreshDue t) s = .next ({ u with life := { u.life with refDueAt := some u.now } }.put .LIFE_STATUS_REFRESH_DUE 0 1)) ∧
    (∀ x, u.life.refStage = 0 → u.refreshRuns = true → u.life.refDueAt = some x → x + 86400 * qSec ≤ u.now →
      exec (.refreshAutoStart t) s = .next ({ u with life := { u.life with
        refStage := 1, refFails := 0, refWant := false } }.put .LIFE_STATUS_REFRESHING 0 1)) ∧
    (u.life.refStage = 0 → u.refreshRuns = true → u.life.refWant = true →
      exec (.refreshAutoStart t) s = .next ({ u with life := { u.life with
        refStage := 1, refFails := 0, refWant := false } }.put .LIFE_STATUS_REFRESHING 0 1)) ∧
    (∀ slotOk last, u.life.refStage ≠ 0 → u.refreshRuns = true →
      (exec (.refreshSector t true last false) s = .next u.nextRefreshSlot) ∧
      (exec (.refreshSector t true false true) s = .next { u with life := { u.life with refFails := 0 } }) ∧
      (exec (.refreshSector t true true true) s = .next { u with life := { u.life with refFails := 0 } }.nextRefreshSlot) ∧
      (u.life.refFails < 2 → exec (.refreshSector t false last true) s =
        .next { u with life := { u.life with refFails := u.life.refFails + 1 } }) ∧
      (slotOk = false ∨ 2 ≤ u.life.refFails → exec (.refreshSector t false last slotOk) s = .next (u.endRefresh false))) ∧
    (u.logicState = true → u.dev ≠ .hold → (u.rest kHbm).declared = none → u.hbm.training = none → u.hbm.trained = false →
      (∀ j, j < 10 → u.railOn j = true ∧ u.get .PWR_RAIL_PG j = 1) →
      exec (.hbmTrainingStart t) s = .next { u with hbm := { u.hbm with training := some u.now } }) ∧
    (∀ x y, u.hbm.training = some x →
      y = ((List.range 16).foldl (fun (z : State) n => z.noPan n)
        { u with hbm := { training := none, trained := true }, life := { u.life with soft := [] } }).mark 5 →
      exec (.hbmTrained t) s = .next (if (y.rest kHbm).declared.isSome then
        (if y.dev = .recovery then y.reapply kHbm else y).endRestore kHbm else y).noteBoot) ∧
    (∀ x y, u.hbm.training = some x → y = { u with hbm := { training := none, trained := false } } →
      exec (.hbmRetrainingFail t) s = .next (if (y.rest kHbm).declared.isSome ∧ (y.rest kHbm).began.isSome
        then y.failRestore kHbm else y.declare kHbm false))

/-- The frame of memory: a command that is none of those which move data, take a granule of SRAM, write a register through a port or
leave a device state in which memory is kept, leaves every byte of memory as it reads, in every state and with every operand. -/
def Obligations.OtherCommandsLeaveMemory : Prop :=
  ∀ (c : Instr) (s x : State), mayWriteMemory c = false → exec c s = .next x → ∀ a, x.readByte a = s.readByte a

/-- R29: the device state changes only as the rule says: a command that is no event of power, restoration or faults and no write of
a port leaves it, and the state it came from, as they stand, in every state and with every operand. -/
def Obligations.OtherCommandsLeaveDeviceState : Prop :=
  ∀ (c : Instr) (s x : State), mayChangeDevice c = false → exec c s = .next x → x.dev = s.dev ∧ x.prev = s.prev

/-- Reading after writing, in a sound state: a register field that is set reads as its value held to its width, and every other
field of every unit as before; a byte that is written reads as written, and every other one as before; and sound states that
read alike at every address hold the same memory. -/
def Obligations.ReadsFollowWrites : Prop :=
  ∀ s x : State, Sound s → Sound x →
    (∀ f g i j v, (s.put f i v).get g j = if g = f ∧ j = i then v % 2 ^ f.desc.w else s.get g j) ∧
    (∀ f g i j v, (s.put f i v).inForce g j = s.inForce g j) ∧
    (∀ f g i j, (s.apply f i).inForce g j = if g = f ∧ j = i then s.get f i else s.inForce g j) ∧
    (∀ a b v, (s.writeByte a v).readByte b = if b = a then v else s.readByte b) ∧
    ((∀ a, s.readByte a = x.readByte a) → s.mem = x.mem)

/-- R410: an event register holds its flags and SEQ in [31:24]. A setting of a flag sets it and advances SEQ modulo 256, and touches no
other field. A write whose [31:24] equals SEQ clears each flag that is written as 1 and leaves the others; any other write has
no effect; and neither is a bus error. -/
def Obligations.EventRegistersFollowSeq : Prop :=
  ∀ (s : State) (r : Reg) (f g : Fld) (i j v p : Nat), Sound s →
    r ∈ [Reg.PWR_EVENT, .HVS_EVENT, .BOOT_EVENT, .TCH_WIN_EVENT, .TCH_BE_EVENT, .WCH_EVENT, .MC_EVENT, .AQ_EVENT, .CRY_EVENT, .MSK_EVENT,
      .MRK_EVENT, .TRIP_EVENT, .SLU_EVENT, .SLU_ENGINE_EVENT, .LNK_LANE_EVENT, .LNK_LINK_EVENT, .DEV_EVENT, .LIFE_EVENT, .VD_EVENT] →
    f ∈ r.fields → f.desc.acc = .EV →
    (f.seqOf.desc.reg = r ∧ f.seqOf.desc.lo = 24 ∧ f.seqOf.desc.w = 8) ∧
    ((s.raise f i).get f i = 1 ∧ (s.raise f i).get f.seqOf i = (s.get f.seqOf i + 1) % 256 ∧
      (g ≠ f ∧ g ≠ f.seqOf ∨ j ≠ i → (s.raise f i).get g j = s.get g j)) ∧
    (v / 2 ^ 24 % 256 = s.get f.seqOf i → (s.writeBack r i v).get f i = if bit v f.desc.lo then 0 else s.get f i) ∧
    (v / 2 ^ 24 % 256 ≠ s.get f.seqOf i → s.writeBack r i v = s) ∧
    s.writeError p r i v = none

/-- R412, R413: a register write of a port that is a bus error: the code that applies is reported and recorded with the port, the
direction and the address, the port's tide gate closes, and every other register field, all of memory, the device state and
every channel, context and capture unit stay as they stand. -/
def Obligations.RefusedWritesChangeNothingElse : Prop :=
  ∀ (s u : State) (t p : Nat) (r : Reg) (i v e : Nat), u = s.at t → isPort p = true → Command r i → v < 2 ^ 32 → Sound s →
    u.dev ≠ .off → u.servedAt p (r.addr i) true = true → u.holdServes (.reg r i false) = true → (u.port p).wr = none →
    (readFalls u p).writeError p r i ((readFalls u p).settledWord p r i v) = some e → e ≠ 0 → e ≠ eBudget →
    ∃ x, exec (.registerWrite t p (r.addr i) v) s = .next x ∧ (x.port p).resp.status = 2 ∧ (x.port p).resp.err = e ∧
      (x.port p).gate = false ∧ x.flag .DEV_EVENT_BUS_ERROR = true ∧ x.get .DEV_BUSERR_CODE = e % 256 ∧
      x.get .DEV_BUSERR_WRITE = 1 ∧ x.get .DEV_BUSERR_ADDR_ADDR = r.addr i ∧
      (∀ f j, f.desc.reg ≠ .DEV_EVENT → f.desc.reg ≠ .DEV_BUSERR → f.desc.reg ≠ .DEV_BUSERR_ADDR →
        f.desc.reg ≠ .DEV_BUSERR_COUNT → x.get f j = u.get f j) ∧
      x.mem = u.mem ∧ x.dev = u.dev ∧ x.chans = u.chans ∧ x.ctxs = u.ctxs ∧ x.acqs = u.acqs ∧ x.pending = u.pending

/-- R437: the patrol skips retired pseudo-channels, the part of memory above the memory top, and any pseudo-channel while it is being
migrated: no granule lies in a retired pseudo-channel, and a read of an address that is skipped changes nothing. -/
def Obligations.PatrolSkipsWhatItMust : Prop :=
  ∀ (s u : State), (∀ t, u = s.at t →
      (∀ ad result spare, u.hbmTop ≤ ad → exec (.patrolRead t ad result spare false) s = .next u) ∧
      (∀ ad result spare b, u.life.pchBusy = some ((u.placeOf (ad / 4096)).1, b) →
        exec (.patrolRead t ad result spare false) s = .next u)) ∧
    (∀ g p, p < 64 → bit (u.get .LIFE_PCH_RETIRED_BITS) p = false →
      (u.placeOf g).1 < 64 ∧ bit (u.get .LIFE_PCH_RETIRED_BITS) (u.placeOf g).1 = false)

/-- R443: below the memory top, the place of a granule is a row of a working pseudo-channel, and no two granules have one place. -/
def Obligations.GranulesHavePlacesOfTheirOwn : Prop :=
  ∀ (s : State) (g h : Nat), g * 4096 < s.hbmTop → h * 4096 < s.hbmTop →
    (s.placeOf g).1 < 64 ∧ bit (s.get .LIFE_PCH_RETIRED_BITS) (s.placeOf g).1 = false ∧ (s.placeOf g).2 < 131072 ∧
    (s.placeOf g = s.placeOf h → g = h)

/-- R58: ticks_of and word_of are inverse to each other: the parts of a time word come back from its tick count, every tick count is
that of its own time word modulo 2^32 s, the parts lie in their ranges; and the rule's worked example. -/
def Obligations.TimeWordsAndTicksAgree : Prop :=
  (∀ sec per frac, sec < 2 ^ 32 → per < 10000000 → frac < 524288 →
    secOf (ticksOf sec per frac : Nat) = sec ∧ perOf (ticksOf sec per frac : Nat) = per ∧ fracOf (ticksOf sec per frac : Nat) = frac) ∧
  (∀ t : Int, secOf t < 2 ^ 32 ∧ perOf t < 10000000 ∧ fracOf t < 524288 ∧
    ((ticksOf (secOf t) (perOf t) (fracOf t) : Nat) : Int) = t % (2 ^ 32 * 10000000 * 524288)) ∧
  (∀ t : Int, secOf (t + 2 ^ 32 * 10000000 * 524288) = secOf t) ∧
  secOf ((ticksOf 1000 9999998 300000 : Nat) + 1000000 : Int) = 1001 ∧ perOf ((ticksOf 1000 9999998 300000 : Nat) + 1000000 : Int) = 0 ∧
    fracOf ((ticksOf 1000 9999998 300000 : Nat) + 1000000 : Int) = 251424

/-- R105: CRC-32C: the polynomial 0x1EDC6F41 bit-reflected, the initial value and the final XOR 0xFFFFFFFF, one bit at a time and the
lowest one first; and the check value over the bytes of "123456789". -/
def Obligations.CrcIsCastagnoli : Prop :=
  (∀ i, i < 32 → bit 0x82F63B78 i = bit 0x1EDC6F41 (31 - i)) ∧
  (∀ c, crcBit (2 * c) = c ∧ crcBit (2 * c + 1) = c ^^^ 0x82F63B78) ∧
  (∀ c b, crcByte c b = times crcBit 8 (c ^^^ (b % 256))) ∧
  (∀ bs, crc32c bs = bs.foldl crcByte 0xFFFFFFFF ^^^ 0xFFFFFFFF) ∧
  crc32c [0x31, 0x32, 0x33, 0x34, 0x35, 0x36, 0x37, 0x38, 0x39] = 0xE3069283
end

