-- ==== Sys2Proof/Laws/SMap.lean ====
section
/-!
SUPPORT. Laws of the sparse maps: what a map reads as after a change, and that every change keeps the canonical form.
-/

namespace Sys2Proof.Machine

variable {α : Type} [DecidableEq α] {d : Nat → α}

theorem SMap.wfFrom_mono {lo lo' : Nat} {m : SMap α} (h : SMap.wfFrom d lo m = true) (hl : lo' ≤ lo) :
    SMap.wfFrom d lo' m = true := by
  cases m with
  | nil => rfl
  | cons x m =>
    obtain ⟨j, v⟩ := x
    simp only [SMap.wfFrom, Bool.and_eq_true, decide_eq_true_eq] at h ⊢
    exact ⟨⟨by omega, h.1.2⟩, h.2⟩

/-- Below the first number that a map may list, it reads as unlisted. -/
theorem SMap.get_below {lo k : Nat} {m : SMap α} (h : SMap.wfFrom d lo m = true) (hk : k < lo) : SMap.get d m k = d k := by
  cases m with
  | nil => rfl
  | cons x m =>
    obtain ⟨j, v⟩ := x
    simp only [SMap.wfFrom, Bool.and_eq_true, decide_eq_true_eq] at h
    have hj : k < j := by omega
    simp [SMap.get, hj, Nat.ne_of_lt hj]

omit [DecidableEq α] in
theorem SMap.get_put {m : SMap α} {k a : Nat} {v : α} :
    SMap.get d (SMap.put m k v) a = if a = k then v else SMap.get d m a := by
  induction m with
  | nil =>
    simp only [SMap.put, SMap.get]
    split <;> simp_all
  | cons x m ih =>
    obtain ⟨j, w⟩ := x
    rcases Nat.lt_trichotomy k j with h | h | h
    · simp only [SMap.put, Nat.ne_of_lt h, h, if_false, if_true, SMap.get]
      by_cases h1 : a = k
      · subst h1; simp
      · rcases Nat.lt_or_gt_of_ne h1 with h2 | h2
        · have h3 : a < j := by omega
          simp [h1, h2, h3, Nat.ne_of_lt h3]
        · have h3 : ¬ a < k := by omega
          simp [h1, h3]
    · subst h
      simp only [SMap.put, if_true, SMap.get]
      by_cases h1 : a = k
      · simp [h1]
      · simp [h1]
    · have h0 : ¬ k < j := by omega
      have h1 : k ≠ j := by omega
      simp only [SMap.put, h0, h1, if_false, SMap.get, ih]
      by_cases h2 : a = j
      · subst h2; simp [Ne.symm h1]
      · by_cases h3 : a = k
        · subst h3; simp [h2, h0]
        · simp [h2, h3]

theorem SMap.get_del {lo : Nat} {m : SMap α} {k a : Nat} (h : SMap.wfFrom d lo m = true) :
    SMap.get d (SMap.del m k) a = if a = k then d k else SMap.get d m a := by
  induction m generalizing lo with
  | nil =>
    simp only [SMap.del, SMap.get]
    split <;> simp_all
  | cons x m ih =>
    obtain ⟨j, w⟩ := x
    simp only [SMap.wfFrom, Bool.and_eq_true, decide_eq_true_eq] at h
    rcases Nat.lt_trichotomy k j with h' | h' | h'
    · simp only [SMap.del, Nat.ne_of_lt h', h', if_false, if_true]
      by_cases h1 : a = k
      · subst h1; simp [SMap.get, h', Nat.ne_of_lt h']
      · simp [h1]
    · subst h'
      simp only [SMap.del, if_true]
      by_cases h1 : a = k
      · subst h1
        simpa using SMap.get_below h.2 (Nat.lt_succ_self a)
      · simp only [h1, if_false, SMap.get]
        by_cases h2 : a < k
        · simp only [h2, if_true]
          exact SMap.get_below h.2 (by omega)
        · simp [h2]
    · have h0 : ¬ k < j := by omega
      have h1 : k ≠ j := by omega
      simp only [SMap.del, h0, h1, if_false, SMap.get, ih h.2]
      by_cases h2 : a = j
      · subst h2; simp [Ne.symm h1]
      · by_cases h3 : a = k
        · subst h3; simp [h2, h0]
        · simp [h2, h3]

/-- What a map in canonical form reads as after one number is set. -/
theorem SMap.get_set {m : SMap α} {k a : Nat} {v : α} (h : SMap.wf d m = true) :
    SMap.get d (SMap.set d m k v) a = if a = k then v else SMap.get d m a := by
  unfold SMap.set
  split
  · next hv => rw [SMap.get_del h, hv]
  · exact SMap.get_put

theorem SMap.wfFrom_put {lo k : Nat} {v : α} {m : SMap α} (h : SMap.wfFrom d lo m = true) (hk : lo ≤ k) (hv : v ≠ d k) :
    SMap.wfFrom d lo (SMap.put m k v) = true := by
  induction m generalizing lo with
  | nil => simp [SMap.put, SMap.wfFrom, hk, hv]
  | cons x m ih =>
    obtain ⟨j, w⟩ := x
    simp only [SMap.wfFrom, Bool.and_eq_true, decide_eq_true_eq] at h
    simp only [SMap.put]
    split
    · next e => subst e; simp [SMap.wfFrom, hk, hv, h.2]
    · split
      · next e => simp only [SMap.wfFrom, Bool.and_eq_true, decide_eq_true_eq]
                  exact ⟨⟨hk, hv⟩, ⟨by omega, h.1.2⟩, h.2⟩
      · simp only [SMap.wfFrom, Bool.and_eq_true, decide_eq_true_eq]
        exact ⟨h.1, ih h.2 (by omega)⟩

theorem SMap.wfFrom_del {lo k : Nat} {m : SMap α} (h : SMap.wfFrom d lo m = true) :
    SMap.wfFrom d lo (SMap.del m k) = true := by
  induction m generalizing lo with
  | nil => rfl
  | cons x m ih =>
    obtain ⟨j, w⟩ := x
    simp only [SMap.wfFrom, Bool.and_eq_true, decide_eq_true_eq] at h
    simp only [SMap.del]
    split
    · exact SMap.wfFrom_mono h.2 (by omega)
    · split
      · simp only [SMap.wfFrom, Bool.and_eq_true, decide_eq_true_eq]; exact h
      · simp only [SMap.wfFrom, Bool.and_eq_true, decide_eq_true_eq]; exact ⟨h.1, ih h.2⟩

/-- Setting a number keeps the canonical form. -/
theorem SMap.wf_set {m : SMap α} {k : Nat} {v : α} (h : SMap.wf d m = true) : SMap.wf d (SMap.set d m k v) = true := by
  unfold SMap.set
  split
  · exact SMap.wfFrom_del h
  · next hv => exact SMap.wfFrom_put h (Nat.zero_le k) hv

/-- Leaving entries out keeps the canonical form. -/
theorem SMap.wfFrom_filter {lo : Nat} {m : SMap α} (p : Nat × α → Bool) (h : SMap.wfFrom d lo m = true) :
    SMap.wfFrom d lo (m.filter p) = true := by
  induction m generalizing lo with
  | nil => rfl
  | cons x m ih =>
    obtain ⟨j, w⟩ := x
    simp only [SMap.wfFrom, Bool.and_eq_true, decide_eq_true_eq] at h
    simp only [List.filter_cons]
    split
    · simp only [SMap.wfFrom, Bool.and_eq_true, decide_eq_true_eq]; exact ⟨h.1, ih h.2⟩
    · exact SMap.wfFrom_mono (ih h.2) (by omega)

theorem SMap.wf_filter {m : SMap α} (p : Nat × α → Bool) (h : SMap.wf d m = true) : SMap.wf d (m.filter p) = true :=
  SMap.wfFrom_filter p h

theorem SMap.wfFrom_update {lo : Nat} {m : SMap α} (f : Nat → α → α) (h : SMap.wfFrom d lo m = true) :
    SMap.wfFrom d lo (SMap.update d f m) = true := by
  unfold SMap.update
  induction m generalizing lo with
  | nil => rfl
  | cons x m ih =>
    obtain ⟨j, w⟩ := x
    simp only [SMap.wfFrom, Bool.and_eq_true, decide_eq_true_eq] at h
    simp only [List.map_cons, List.filter_cons]
    split
    · next e => simp only [SMap.wfFrom, Bool.and_eq_true, decide_eq_true_eq] at e ⊢
                exact ⟨⟨h.1.1, e⟩, ih h.2⟩
    · exact SMap.wfFrom_mono (ih h.2) (by omega)

/-- Updating every entry keeps the canonical form. -/
theorem SMap.wf_update {m : SMap α} (f : Nat → α → α) (h : SMap.wf d m = true) :
    SMap.wf d (SMap.update d f m) = true := SMap.wfFrom_update f h

theorem SMap.mem_put {m : SMap α} {k : Nat} {v : α} {x : Nat × α} (h : x ∈ SMap.put m k v) : x = (k, v) ∨ x ∈ m := by
  induction m with
  | nil => simpa [SMap.put] using h
  | cons y m ih =>
    obtain ⟨j, w⟩ := y
    simp only [SMap.put] at h
    split at h
    · simp only [List.mem_cons] at h ⊢; tauto
    · split at h
      · simp only [List.mem_cons] at h ⊢; tauto
      · simp only [List.mem_cons] at h ⊢
        rcases h with h | h
        · exact .inr (.inl h)
        · exact (ih h).imp id .inr

omit [DecidableEq α] in
theorem SMap.mem_del {m : SMap α} {k : Nat} {x : Nat × α} (h : x ∈ SMap.del m k) : x ∈ m := by
  induction m with
  | nil => simp [SMap.del] at h
  | cons y m ih =>
    obtain ⟨j, w⟩ := y
    simp only [SMap.del] at h
    split at h
    · exact .tail _ h
    · split at h
      · exact h
      · simp only [List.mem_cons] at h ⊢
        exact h.imp id ih

/-- What a map lists after one number is set, it listed before, or it is that number's new value. -/
theorem SMap.mem_set {m : SMap α} {k : Nat} {v : α} {x : Nat × α} (h : x ∈ SMap.set d m k v) : x = (k, v) ∨ x ∈ m := by
  unfold SMap.set at h
  split at h
  · exact .inr (SMap.mem_del h)
  · exact SMap.mem_put h

omit [DecidableEq α] in
/-- A listed value, or what an unlisted number reads as. -/
theorem SMap.get_mem {m : SMap α} {k : Nat} : (k, SMap.get d m k) ∈ m ∨ SMap.get d m k = d k := by
  induction m with
  | nil => exact .inr rfl
  | cons y m ih =>
    obtain ⟨j, w⟩ := y
    simp only [SMap.get]
    split
    · next e => subst e; exact .inl (.head _)
    · split
      · exact .inr rfl
      · exact ih.imp (.tail _) id

/-- Two maps in canonical form that read alike are equal. -/
theorem SMap.extFrom {lo : Nat} {m n : SMap α} (hm : SMap.wfFrom d lo m = true) (hn : SMap.wfFrom d lo n = true)
    (h : ∀ k, SMap.get d m k = SMap.get d n k) : m = n := by
  induction m generalizing lo n with
  | nil =>
    cases n with
    | nil => rfl
    | cons y n =>
      obtain ⟨i, w⟩ := y
      simp only [SMap.wfFrom, Bool.and_eq_true, decide_eq_true_eq] at hn
      have := h i
      simp only [SMap.get, if_true] at this
      exact absurd this.symm hn.1.2
  | cons x m ih =>
    obtain ⟨j, v⟩ := x
    cases n with
    | nil =>
      simp only [SMap.wfFrom, Bool.and_eq_true, decide_eq_true_eq] at hm
      have := h j
      simp only [SMap.get, if_true] at this
      exact absurd this hm.1.2
    | cons y n =>
      obtain ⟨i, w⟩ := y
      simp only [SMap.wfFrom, Bool.and_eq_true, decide_eq_true_eq] at hm hn
      rcases Nat.lt_trichotomy j i with e | e | e
      · have := h j
        simp only [SMap.get, if_true, if_neg (Nat.ne_of_lt e), if_pos e] at this
        exact absurd this hm.1.2
      · subst e
        have hv := h j
        simp only [SMap.get, if_true] at hv
        subst hv
        have : m = n := by
          refine ih hm.2 hn.2 fun k => ?_
          by_cases hk : k < j + 1
          · rw [SMap.get_below hm.2 hk, SMap.get_below hn.2 hk]
          · have := h k
            simpa only [SMap.get, if_neg (show ¬ k = j by omega), if_neg (show ¬ k < j by omega)] using this
        rw [this]
      · have := h i
        simp only [SMap.get, if_true, if_neg (Nat.ne_of_lt e), if_pos e] at this
        exact absurd this.symm hn.1.2

theorem SMap.ext {m n : SMap α} (hm : SMap.wf d m = true) (hn : SMap.wf d n = true)
    (h : ∀ k, SMap.get d m k = SMap.get d n k) : m = n := SMap.extFrom hm hn h

/-- The last setting of a number counts. -/
theorem SMap.set_set {m : SMap α} (h : SMap.wf d m = true) (k : Nat) (v w : α) :
    SMap.set d (SMap.set d m k v) k w = SMap.set d m k w := by
  refine SMap.ext (SMap.wf_set (SMap.wf_set h)) (SMap.wf_set h) fun a => ?_
  rw [SMap.get_set (SMap.wf_set h), SMap.get_set h, SMap.get_set h]
  split <;> rfl

/-- Setting a number to what it reads as changes nothing. -/
theorem SMap.set_get {m : SMap α} (h : SMap.wf d m = true) (k : Nat) : SMap.set d m k (SMap.get d m k) = m := by
  refine SMap.ext (SMap.wf_set h) h fun a => ?_
  rw [SMap.get_set h]
  split
  · next e => rw [e]
  · rfl

end Sys2Proof.Machine
end

