-- ==== Sys2Proof/Laws/State.lean ====
section
/-!
SUPPORT. What each update of the state leaves of each field: one lemma per field per update, true by definition.
-/

namespace Sys2Proof.Machine

/-! ## setPort -/

@[simp] theorem State.setPort_now (s : State) (n : Nat) v : (s.setPort n v).now = s.now := rfl
@[simp] theorem State.setPort_dev (s : State) (n : Nat) v : (s.setPort n v).dev = s.dev := rfl
@[simp] theorem State.setPort_prev (s : State) (n : Nat) v : (s.setPort n v).prev = s.prev := rfl
@[simp] theorem State.setPort_devAt (s : State) (n : Nat) v : (s.setPort n v).devAt = s.devAt := rfl
@[simp] theorem State.setPort_pkts (s : State) (n : Nat) v : (s.setPort n v).pkts = s.pkts := rfl
@[simp] theorem State.setPort_regs (s : State) (n : Nat) v : (s.setPort n v).regs = s.regs := rfl
@[simp] theorem State.setPort_force (s : State) (n : Nat) v : (s.setPort n v).force = s.force := rfl
@[simp] theorem State.setPort_ports (s : State) (n : Nat) v : (s.setPort n v).ports = SMap.set (fun _ => {}) s.ports n v := rfl
@[simp] theorem State.setPort_seqNo (s : State) (n : Nat) v : (s.setPort n v).seqNo = s.seqNo := rfl
@[simp] theorem State.setPort_mem (s : State) (n : Nat) v : (s.setPort n v).mem = s.mem := rfl
@[simp] theorem State.setPort_time (s : State) (n : Nat) v : (s.setPort n v).time = s.time := rfl
@[simp] theorem State.setPort_power (s : State) (n : Nat) v : (s.setPort n v).power = s.power := rfl
@[simp] theorem State.setPort_boot (s : State) (n : Nat) v : (s.setPort n v).boot = s.boot := rfl
@[simp] theorem State.setPort_gov (s : State) (n : Nat) v : (s.setPort n v).gov = s.gov := rfl
@[simp] theorem State.setPort_islands (s : State) (n : Nat) v : (s.setPort n v).islands = s.islands := rfl
@[simp] theorem State.setPort_restore (s : State) (n : Nat) v : (s.setPort n v).restore = s.restore := rfl
@[simp] theorem State.setPort_sources (s : State) (n : Nat) v : (s.setPort n v).sources = s.sources := rfl
@[simp] theorem State.setPort_ends (s : State) (n : Nat) v : (s.setPort n v).ends = s.ends := rfl
@[simp] theorem State.setPort_chans (s : State) (n : Nat) v : (s.setPort n v).chans = s.chans := rfl
@[simp] theorem State.setPort_waves (s : State) (n : Nat) v : (s.setPort n v).waves = s.waves := rfl
@[simp] theorem State.setPort_slots (s : State) (n : Nat) v : (s.setPort n v).slots = s.slots := rfl
@[simp] theorem State.setPort_ctxs (s : State) (n : Nat) v : (s.setPort n v).ctxs = s.ctxs := rfl
@[simp] theorem State.setPort_stabs (s : State) (n : Nat) v : (s.setPort n v).stabs = s.stabs := rfl
@[simp] theorem State.setPort_engines (s : State) (n : Nat) v : (s.setPort n v).engines = s.engines := rfl
@[simp] theorem State.setPort_acqs (s : State) (n : Nat) v : (s.setPort n v).acqs = s.acqs := rfl
@[simp] theorem State.setPort_share (s : State) (n : Nat) v : (s.setPort n v).share = s.share := rfl
@[simp] theorem State.setPort_pans (s : State) (n : Nat) v : (s.setPort n v).pans = s.pans := rfl
@[simp] theorem State.setPort_crys (s : State) (n : Nat) v : (s.setPort n v).crys = s.crys := rfl
@[simp] theorem State.setPort_masks (s : State) (n : Nat) v : (s.setPort n v).masks = s.masks := rfl
@[simp] theorem State.setPort_rules (s : State) (n : Nat) v : (s.setPort n v).rules = s.rules := rfl
@[simp] theorem State.setPort_markers (s : State) (n : Nat) v : (s.setPort n v).markers = s.markers := rfl
@[simp] theorem State.setPort_trips (s : State) (n : Nat) v : (s.setPort n v).trips = s.trips := rfl
@[simp] theorem State.setPort_slus (s : State) (n : Nat) v : (s.setPort n v).slus = s.slus := rfl
@[simp] theorem State.setPort_slu (s : State) (n : Nat) v : (s.setPort n v).slu = s.slu := rfl
@[simp] theorem State.setPort_lanes (s : State) (n : Nat) v : (s.setPort n v).lanes = s.lanes := rfl
@[simp] theorem State.setPort_quads (s : State) (n : Nat) v : (s.setPort n v).quads = s.quads := rfl
@[simp] theorem State.setPort_links (s : State) (n : Nat) v : (s.setPort n v).links = s.links := rfl
@[simp] theorem State.setPort_life (s : State) (n : Nat) v : (s.setPort n v).life = s.life := rfl
@[simp] theorem State.setPort_hbm (s : State) (n : Nat) v : (s.setPort n v).hbm = s.hbm := rfl
@[simp] theorem State.setPort_bank (s : State) (n : Nat) v : (s.setPort n v).bank = s.bank := rfl
@[simp] theorem State.setPort_jtag (s : State) (n : Nat) v : (s.setPort n v).jtag = s.jtag := rfl
@[simp] theorem State.setPort_pending (s : State) (n : Nat) v : (s.setPort n v).pending = s.pending := rfl

/-! ## setSrc -/

@[simp] theorem State.setSrc_now (s : State) (n : Nat) v : (s.setSrc n v).now = s.now := rfl
@[simp] theorem State.setSrc_dev (s : State) (n : Nat) v : (s.setSrc n v).dev = s.dev := rfl
@[simp] theorem State.setSrc_prev (s : State) (n : Nat) v : (s.setSrc n v).prev = s.prev := rfl
@[simp] theorem State.setSrc_devAt (s : State) (n : Nat) v : (s.setSrc n v).devAt = s.devAt := rfl
@[simp] theorem State.setSrc_pkts (s : State) (n : Nat) v : (s.setSrc n v).pkts = s.pkts := rfl
@[simp] theorem State.setSrc_regs (s : State) (n : Nat) v : (s.setSrc n v).regs = s.regs := rfl
@[simp] theorem State.setSrc_force (s : State) (n : Nat) v : (s.setSrc n v).force = s.force := rfl
@[simp] theorem State.setSrc_ports (s : State) (n : Nat) v : (s.setSrc n v).ports = s.ports := rfl
@[simp] theorem State.setSrc_seqNo (s : State) (n : Nat) v : (s.setSrc n v).seqNo = s.seqNo := rfl
@[simp] theorem State.setSrc_mem (s : State) (n : Nat) v : (s.setSrc n v).mem = s.mem := rfl
@[simp] theorem State.setSrc_time (s : State) (n : Nat) v : (s.setSrc n v).time = s.time := rfl
@[simp] theorem State.setSrc_power (s : State) (n : Nat) v : (s.setSrc n v).power = s.power := rfl
@[simp] theorem State.setSrc_boot (s : State) (n : Nat) v : (s.setSrc n v).boot = s.boot := rfl
@[simp] theorem State.setSrc_gov (s : State) (n : Nat) v : (s.setSrc n v).gov = s.gov := rfl
@[simp] theorem State.setSrc_islands (s : State) (n : Nat) v : (s.setSrc n v).islands = s.islands := rfl
@[simp] theorem State.setSrc_restore (s : State) (n : Nat) v : (s.setSrc n v).restore = s.restore := rfl
@[simp] theorem State.setSrc_sources (s : State) (n : Nat) v : (s.setSrc n v).sources = SMap.set (fun _ => {}) s.sources n v := rfl
@[simp] theorem State.setSrc_ends (s : State) (n : Nat) v : (s.setSrc n v).ends = s.ends := rfl
@[simp] theorem State.setSrc_chans (s : State) (n : Nat) v : (s.setSrc n v).chans = s.chans := rfl
@[simp] theorem State.setSrc_waves (s : State) (n : Nat) v : (s.setSrc n v).waves = s.waves := rfl
@[simp] theorem State.setSrc_slots (s : State) (n : Nat) v : (s.setSrc n v).slots = s.slots := rfl
@[simp] theorem State.setSrc_ctxs (s : State) (n : Nat) v : (s.setSrc n v).ctxs = s.ctxs := rfl
@[simp] theorem State.setSrc_stabs (s : State) (n : Nat) v : (s.setSrc n v).stabs = s.stabs := rfl
@[simp] theorem State.setSrc_engines (s : State) (n : Nat) v : (s.setSrc n v).engines = s.engines := rfl
@[simp] theorem State.setSrc_acqs (s : State) (n : Nat) v : (s.setSrc n v).acqs = s.acqs := rfl
@[simp] theorem State.setSrc_share (s : State) (n : Nat) v : (s.setSrc n v).share = s.share := rfl
@[simp] theorem State.setSrc_pans (s : State) (n : Nat) v : (s.setSrc n v).pans = s.pans := rfl
@[simp] theorem State.setSrc_crys (s : State) (n : Nat) v : (s.setSrc n v).crys = s.crys := rfl
@[simp] theorem State.setSrc_masks (s : State) (n : Nat) v : (s.setSrc n v).masks = s.masks := rfl
@[simp] theorem State.setSrc_rules (s : State) (n : Nat) v : (s.setSrc n v).rules = s.rules := rfl
@[simp] theorem State.setSrc_markers (s : State) (n : Nat) v : (s.setSrc n v).markers = s.markers := rfl
@[simp] theorem State.setSrc_trips (s : State) (n : Nat) v : (s.setSrc n v).trips = s.trips := rfl
@[simp] theorem State.setSrc_slus (s : State) (n : Nat) v : (s.setSrc n v).slus = s.slus := rfl
@[simp] theorem State.setSrc_slu (s : State) (n : Nat) v : (s.setSrc n v).slu = s.slu := rfl
@[simp] theorem State.setSrc_lanes (s : State) (n : Nat) v : (s.setSrc n v).lanes = s.lanes := rfl
@[simp] theorem State.setSrc_quads (s : State) (n : Nat) v : (s.setSrc n v).quads = s.quads := rfl
@[simp] theorem State.setSrc_links (s : State) (n : Nat) v : (s.setSrc n v).links = s.links := rfl
@[simp] theorem State.setSrc_life (s : State) (n : Nat) v : (s.setSrc n v).life = s.life := rfl
@[simp] theorem State.setSrc_hbm (s : State) (n : Nat) v : (s.setSrc n v).hbm = s.hbm := rfl
@[simp] theorem State.setSrc_bank (s : State) (n : Nat) v : (s.setSrc n v).bank = s.bank := rfl
@[simp] theorem State.setSrc_jtag (s : State) (n : Nat) v : (s.setSrc n v).jtag = s.jtag := rfl
@[simp] theorem State.setSrc_pending (s : State) (n : Nat) v : (s.setSrc n v).pending = s.pending := rfl

/-! ## setBe -/

@[simp] theorem State.setBe_now (s : State) (n : Nat) v : (s.setBe n v).now = s.now := rfl
@[simp] theorem State.setBe_dev (s : State) (n : Nat) v : (s.setBe n v).dev = s.dev := rfl
@[simp] theorem State.setBe_prev (s : State) (n : Nat) v : (s.setBe n v).prev = s.prev := rfl
@[simp] theorem State.setBe_devAt (s : State) (n : Nat) v : (s.setBe n v).devAt = s.devAt := rfl
@[simp] theorem State.setBe_pkts (s : State) (n : Nat) v : (s.setBe n v).pkts = s.pkts := rfl
@[simp] theorem State.setBe_regs (s : State) (n : Nat) v : (s.setBe n v).regs = s.regs := rfl
@[simp] theorem State.setBe_force (s : State) (n : Nat) v : (s.setBe n v).force = s.force := rfl
@[simp] theorem State.setBe_ports (s : State) (n : Nat) v : (s.setBe n v).ports = s.ports := rfl
@[simp] theorem State.setBe_seqNo (s : State) (n : Nat) v : (s.setBe n v).seqNo = s.seqNo := rfl
@[simp] theorem State.setBe_mem (s : State) (n : Nat) v : (s.setBe n v).mem = s.mem := rfl
@[simp] theorem State.setBe_time (s : State) (n : Nat) v : (s.setBe n v).time = s.time := rfl
@[simp] theorem State.setBe_power (s : State) (n : Nat) v : (s.setBe n v).power = s.power := rfl
@[simp] theorem State.setBe_boot (s : State) (n : Nat) v : (s.setBe n v).boot = s.boot := rfl
@[simp] theorem State.setBe_gov (s : State) (n : Nat) v : (s.setBe n v).gov = s.gov := rfl
@[simp] theorem State.setBe_islands (s : State) (n : Nat) v : (s.setBe n v).islands = s.islands := rfl
@[simp] theorem State.setBe_restore (s : State) (n : Nat) v : (s.setBe n v).restore = s.restore := rfl
@[simp] theorem State.setBe_sources (s : State) (n : Nat) v : (s.setBe n v).sources = s.sources := rfl
@[simp] theorem State.setBe_ends (s : State) (n : Nat) v : (s.setBe n v).ends = SMap.set (fun _ => {}) s.ends n v := rfl
@[simp] theorem State.setBe_chans (s : State) (n : Nat) v : (s.setBe n v).chans = s.chans := rfl
@[simp] theorem State.setBe_waves (s : State) (n : Nat) v : (s.setBe n v).waves = s.waves := rfl
@[simp] theorem State.setBe_slots (s : State) (n : Nat) v : (s.setBe n v).slots = s.slots := rfl
@[simp] theorem State.setBe_ctxs (s : State) (n : Nat) v : (s.setBe n v).ctxs = s.ctxs := rfl
@[simp] theorem State.setBe_stabs (s : State) (n : Nat) v : (s.setBe n v).stabs = s.stabs := rfl
@[simp] theorem State.setBe_engines (s : State) (n : Nat) v : (s.setBe n v).engines = s.engines := rfl
@[simp] theorem State.setBe_acqs (s : State) (n : Nat) v : (s.setBe n v).acqs = s.acqs := rfl
@[simp] theorem State.setBe_share (s : State) (n : Nat) v : (s.setBe n v).share = s.share := rfl
@[simp] theorem State.setBe_pans (s : State) (n : Nat) v : (s.setBe n v).pans = s.pans := rfl
@[simp] theorem State.setBe_crys (s : State) (n : Nat) v : (s.setBe n v).crys = s.crys := rfl
@[simp] theorem State.setBe_masks (s : State) (n : Nat) v : (s.setBe n v).masks = s.masks := rfl
@[simp] theorem State.setBe_rules (s : State) (n : Nat) v : (s.setBe n v).rules = s.rules := rfl
@[simp] theorem State.setBe_markers (s : State) (n : Nat) v : (s.setBe n v).markers = s.markers := rfl
@[simp] theorem State.setBe_trips (s : State) (n : Nat) v : (s.setBe n v).trips = s.trips := rfl
@[simp] theorem State.setBe_slus (s : State) (n : Nat) v : (s.setBe n v).slus = s.slus := rfl
@[simp] theorem State.setBe_slu (s : State) (n : Nat) v : (s.setBe n v).slu = s.slu := rfl
@[simp] theorem State.setBe_lanes (s : State) (n : Nat) v : (s.setBe n v).lanes = s.lanes := rfl
@[simp] theorem State.setBe_quads (s : State) (n : Nat) v : (s.setBe n v).quads = s.quads := rfl
@[simp] theorem State.setBe_links (s : State) (n : Nat) v : (s.setBe n v).links = s.links := rfl
@[simp] theorem State.setBe_life (s : State) (n : Nat) v : (s.setBe n v).life = s.life := rfl
@[simp] theorem State.setBe_hbm (s : State) (n : Nat) v : (s.setBe n v).hbm = s.hbm := rfl
@[simp] theorem State.setBe_bank (s : State) (n : Nat) v : (s.setBe n v).bank = s.bank := rfl
@[simp] theorem State.setBe_jtag (s : State) (n : Nat) v : (s.setBe n v).jtag = s.jtag := rfl
@[simp] theorem State.setBe_pending (s : State) (n : Nat) v : (s.setBe n v).pending = s.pending := rfl

/-! ## setChan -/

@[simp] theorem State.setChan_now (s : State) (n : Nat) v : (s.setChan n v).now = s.now := rfl
@[simp] theorem State.setChan_dev (s : State) (n : Nat) v : (s.setChan n v).dev = s.dev := rfl
@[simp] theorem State.setChan_prev (s : State) (n : Nat) v : (s.setChan n v).prev = s.prev := rfl
@[simp] theorem State.setChan_devAt (s : State) (n : Nat) v : (s.setChan n v).devAt = s.devAt := rfl
@[simp] theorem State.setChan_pkts (s : State) (n : Nat) v : (s.setChan n v).pkts = s.pkts := rfl
@[simp] theorem State.setChan_regs (s : State) (n : Nat) v : (s.setChan n v).regs = s.regs := rfl
@[simp] theorem State.setChan_force (s : State) (n : Nat) v : (s.setChan n v).force = s.force := rfl
@[simp] theorem State.setChan_ports (s : State) (n : Nat) v : (s.setChan n v).ports = s.ports := rfl
@[simp] theorem State.setChan_seqNo (s : State) (n : Nat) v : (s.setChan n v).seqNo = s.seqNo := rfl
@[simp] theorem State.setChan_mem (s : State) (n : Nat) v : (s.setChan n v).mem = s.mem := rfl
@[simp] theorem State.setChan_time (s : State) (n : Nat) v : (s.setChan n v).time = s.time := rfl
@[simp] theorem State.setChan_power (s : State) (n : Nat) v : (s.setChan n v).power = s.power := rfl
@[simp] theorem State.setChan_boot (s : State) (n : Nat) v : (s.setChan n v).boot = s.boot := rfl
@[simp] theorem State.setChan_gov (s : State) (n : Nat) v : (s.setChan n v).gov = s.gov := rfl
@[simp] theorem State.setChan_islands (s : State) (n : Nat) v : (s.setChan n v).islands = s.islands := rfl
@[simp] theorem State.setChan_restore (s : State) (n : Nat) v : (s.setChan n v).restore = s.restore := rfl
@[simp] theorem State.setChan_sources (s : State) (n : Nat) v : (s.setChan n v).sources = s.sources := rfl
@[simp] theorem State.setChan_ends (s : State) (n : Nat) v : (s.setChan n v).ends = s.ends := rfl
@[simp] theorem State.setChan_chans (s : State) (n : Nat) v : (s.setChan n v).chans = SMap.set (fun _ => {}) s.chans n v := rfl
@[simp] theorem State.setChan_waves (s : State) (n : Nat) v : (s.setChan n v).waves = s.waves := rfl
@[simp] theorem State.setChan_slots (s : State) (n : Nat) v : (s.setChan n v).slots = s.slots := rfl
@[simp] theorem State.setChan_ctxs (s : State) (n : Nat) v : (s.setChan n v).ctxs = s.ctxs := rfl
@[simp] theorem State.setChan_stabs (s : State) (n : Nat) v : (s.setChan n v).stabs = s.stabs := rfl
@[simp] theorem State.setChan_engines (s : State) (n : Nat) v : (s.setChan n v).engines = s.engines := rfl
@[simp] theorem State.setChan_acqs (s : State) (n : Nat) v : (s.setChan n v).acqs = s.acqs := rfl
@[simp] theorem State.setChan_share (s : State) (n : Nat) v : (s.setChan n v).share = s.share := rfl
@[simp] theorem State.setChan_pans (s : State) (n : Nat) v : (s.setChan n v).pans = s.pans := rfl
@[simp] theorem State.setChan_crys (s : State) (n : Nat) v : (s.setChan n v).crys = s.crys := rfl
@[simp] theorem State.setChan_masks (s : State) (n : Nat) v : (s.setChan n v).masks = s.masks := rfl
@[simp] theorem State.setChan_rules (s : State) (n : Nat) v : (s.setChan n v).rules = s.rules := rfl
@[simp] theorem State.setChan_markers (s : State) (n : Nat) v : (s.setChan n v).markers = s.markers := rfl
@[simp] theorem State.setChan_trips (s : State) (n : Nat) v : (s.setChan n v).trips = s.trips := rfl
@[simp] theorem State.setChan_slus (s : State) (n : Nat) v : (s.setChan n v).slus = s.slus := rfl
@[simp] theorem State.setChan_slu (s : State) (n : Nat) v : (s.setChan n v).slu = s.slu := rfl
@[simp] theorem State.setChan_lanes (s : State) (n : Nat) v : (s.setChan n v).lanes = s.lanes := rfl
@[simp] theorem State.setChan_quads (s : State) (n : Nat) v : (s.setChan n v).quads = s.quads := rfl
@[simp] theorem State.setChan_links (s : State) (n : Nat) v : (s.setChan n v).links = s.links := rfl
@[simp] theorem State.setChan_life (s : State) (n : Nat) v : (s.setChan n v).life = s.life := rfl
@[simp] theorem State.setChan_hbm (s : State) (n : Nat) v : (s.setChan n v).hbm = s.hbm := rfl
@[simp] theorem State.setChan_bank (s : State) (n : Nat) v : (s.setChan n v).bank = s.bank := rfl
@[simp] theorem State.setChan_jtag (s : State) (n : Nat) v : (s.setChan n v).jtag = s.jtag := rfl
@[simp] theorem State.setChan_pending (s : State) (n : Nat) v : (s.setChan n v).pending = s.pending := rfl

/-! ## setWave -/

@[simp] theorem State.setWave_now (s : State) (n : Nat) v : (s.setWave n v).now = s.now := rfl
@[simp] theorem State.setWave_dev (s : State) (n : Nat) v : (s.setWave n v).dev = s.dev := rfl
@[simp] theorem State.setWave_prev (s : State) (n : Nat) v : (s.setWave n v).prev = s.prev := rfl
@[simp] theorem State.setWave_devAt (s : State) (n : Nat) v : (s.setWave n v).devAt = s.devAt := rfl
@[simp] theorem State.setWave_pkts (s : State) (n : Nat) v : (s.setWave n v).pkts = s.pkts := rfl
@[simp] theorem State.setWave_regs (s : State) (n : Nat) v : (s.setWave n v).regs = s.regs := rfl
@[simp] theorem State.setWave_force (s : State) (n : Nat) v : (s.setWave n v).force = s.force := rfl
@[simp] theorem State.setWave_ports (s : State) (n : Nat) v : (s.setWave n v).ports = s.ports := rfl
@[simp] theorem State.setWave_seqNo (s : State) (n : Nat) v : (s.setWave n v).seqNo = s.seqNo := rfl
@[simp] theorem State.setWave_mem (s : State) (n : Nat) v : (s.setWave n v).mem = s.mem := rfl
@[simp] theorem State.setWave_time (s : State) (n : Nat) v : (s.setWave n v).time = s.time := rfl
@[simp] theorem State.setWave_power (s : State) (n : Nat) v : (s.setWave n v).power = s.power := rfl
@[simp] theorem State.setWave_boot (s : State) (n : Nat) v : (s.setWave n v).boot = s.boot := rfl
@[simp] theorem State.setWave_gov (s : State) (n : Nat) v : (s.setWave n v).gov = s.gov := rfl
@[simp] theorem State.setWave_islands (s : State) (n : Nat) v : (s.setWave n v).islands = s.islands := rfl
@[simp] theorem State.setWave_restore (s : State) (n : Nat) v : (s.setWave n v).restore = s.restore := rfl
@[simp] theorem State.setWave_sources (s : State) (n : Nat) v : (s.setWave n v).sources = s.sources := rfl
@[simp] theorem State.setWave_ends (s : State) (n : Nat) v : (s.setWave n v).ends = s.ends := rfl
@[simp] theorem State.setWave_chans (s : State) (n : Nat) v : (s.setWave n v).chans = s.chans := rfl
@[simp] theorem State.setWave_waves (s : State) (n : Nat) v : (s.setWave n v).waves = SMap.set (fun _ => {}) s.waves n v := rfl
@[simp] theorem State.setWave_slots (s : State) (n : Nat) v : (s.setWave n v).slots = s.slots := rfl
@[simp] theorem State.setWave_ctxs (s : State) (n : Nat) v : (s.setWave n v).ctxs = s.ctxs := rfl
@[simp] theorem State.setWave_stabs (s : State) (n : Nat) v : (s.setWave n v).stabs = s.stabs := rfl
@[simp] theorem State.setWave_engines (s : State) (n : Nat) v : (s.setWave n v).engines = s.engines := rfl
@[simp] theorem State.setWave_acqs (s : State) (n : Nat) v : (s.setWave n v).acqs = s.acqs := rfl
@[simp] theorem State.setWave_share (s : State) (n : Nat) v : (s.setWave n v).share = s.share := rfl
@[simp] theorem State.setWave_pans (s : State) (n : Nat) v : (s.setWave n v).pans = s.pans := rfl
@[simp] theorem State.setWave_crys (s : State) (n : Nat) v : (s.setWave n v).crys = s.crys := rfl
@[simp] theorem State.setWave_masks (s : State) (n : Nat) v : (s.setWave n v).masks = s.masks := rfl
@[simp] theorem State.setWave_rules (s : State) (n : Nat) v : (s.setWave n v).rules = s.rules := rfl
@[simp] theorem State.setWave_markers (s : State) (n : Nat) v : (s.setWave n v).markers = s.markers := rfl
@[simp] theorem State.setWave_trips (s : State) (n : Nat) v : (s.setWave n v).trips = s.trips := rfl
@[simp] theorem State.setWave_slus (s : State) (n : Nat) v : (s.setWave n v).slus = s.slus := rfl
@[simp] theorem State.setWave_slu (s : State) (n : Nat) v : (s.setWave n v).slu = s.slu := rfl
@[simp] theorem State.setWave_lanes (s : State) (n : Nat) v : (s.setWave n v).lanes = s.lanes := rfl
@[simp] theorem State.setWave_quads (s : State) (n : Nat) v : (s.setWave n v).quads = s.quads := rfl
@[simp] theorem State.setWave_links (s : State) (n : Nat) v : (s.setWave n v).links = s.links := rfl
@[simp] theorem State.setWave_life (s : State) (n : Nat) v : (s.setWave n v).life = s.life := rfl
@[simp] theorem State.setWave_hbm (s : State) (n : Nat) v : (s.setWave n v).hbm = s.hbm := rfl
@[simp] theorem State.setWave_bank (s : State) (n : Nat) v : (s.setWave n v).bank = s.bank := rfl
@[simp] theorem State.setWave_jtag (s : State) (n : Nat) v : (s.setWave n v).jtag = s.jtag := rfl
@[simp] theorem State.setWave_pending (s : State) (n : Nat) v : (s.setWave n v).pending = s.pending := rfl

/-! ## setSlot -/

@[simp] theorem State.setSlot_now (s : State) (n : Nat) v : (s.setSlot n v).now = s.now := rfl
@[simp] theorem State.setSlot_dev (s : State) (n : Nat) v : (s.setSlot n v).dev = s.dev := rfl
@[simp] theorem State.setSlot_prev (s : State) (n : Nat) v : (s.setSlot n v).prev = s.prev := rfl
@[simp] theorem State.setSlot_devAt (s : State) (n : Nat) v : (s.setSlot n v).devAt = s.devAt := rfl
@[simp] theorem State.setSlot_pkts (s : State) (n : Nat) v : (s.setSlot n v).pkts = s.pkts := rfl
@[simp] theorem State.setSlot_regs (s : State) (n : Nat) v : (s.setSlot n v).regs = s.regs := rfl
@[simp] theorem State.setSlot_force (s : State) (n : Nat) v : (s.setSlot n v).force = s.force := rfl
@[simp] theorem State.setSlot_ports (s : State) (n : Nat) v : (s.setSlot n v).ports = s.ports := rfl
@[simp] theorem State.setSlot_seqNo (s : State) (n : Nat) v : (s.setSlot n v).seqNo = s.seqNo := rfl
@[simp] theorem State.setSlot_mem (s : State) (n : Nat) v : (s.setSlot n v).mem = s.mem := rfl
@[simp] theorem State.setSlot_time (s : State) (n : Nat) v : (s.setSlot n v).time = s.time := rfl
@[simp] theorem State.setSlot_power (s : State) (n : Nat) v : (s.setSlot n v).power = s.power := rfl
@[simp] theorem State.setSlot_boot (s : State) (n : Nat) v : (s.setSlot n v).boot = s.boot := rfl
@[simp] theorem State.setSlot_gov (s : State) (n : Nat) v : (s.setSlot n v).gov = s.gov := rfl
@[simp] theorem State.setSlot_islands (s : State) (n : Nat) v : (s.setSlot n v).islands = s.islands := rfl
@[simp] theorem State.setSlot_restore (s : State) (n : Nat) v : (s.setSlot n v).restore = s.restore := rfl
@[simp] theorem State.setSlot_sources (s : State) (n : Nat) v : (s.setSlot n v).sources = s.sources := rfl
@[simp] theorem State.setSlot_ends (s : State) (n : Nat) v : (s.setSlot n v).ends = s.ends := rfl
@[simp] theorem State.setSlot_chans (s : State) (n : Nat) v : (s.setSlot n v).chans = s.chans := rfl
@[simp] theorem State.setSlot_waves (s : State) (n : Nat) v : (s.setSlot n v).waves = s.waves := rfl
@[simp] theorem State.setSlot_slots (s : State) (n : Nat) v : (s.setSlot n v).slots = SMap.set (fun _ => {}) s.slots n v := rfl
@[simp] theorem State.setSlot_ctxs (s : State) (n : Nat) v : (s.setSlot n v).ctxs = s.ctxs := rfl
@[simp] theorem State.setSlot_stabs (s : State) (n : Nat) v : (s.setSlot n v).stabs = s.stabs := rfl
@[simp] theorem State.setSlot_engines (s : State) (n : Nat) v : (s.setSlot n v).engines = s.engines := rfl
@[simp] theorem State.setSlot_acqs (s : State) (n : Nat) v : (s.setSlot n v).acqs = s.acqs := rfl
@[simp] theorem State.setSlot_share (s : State) (n : Nat) v : (s.setSlot n v).share = s.share := rfl
@[simp] theorem State.setSlot_pans (s : State) (n : Nat) v : (s.setSlot n v).pans = s.pans := rfl
@[simp] theorem State.setSlot_crys (s : State) (n : Nat) v : (s.setSlot n v).crys = s.crys := rfl
@[simp] theorem State.setSlot_masks (s : State) (n : Nat) v : (s.setSlot n v).masks = s.masks := rfl
@[simp] theorem State.setSlot_rules (s : State) (n : Nat) v : (s.setSlot n v).rules = s.rules := rfl
@[simp] theorem State.setSlot_markers (s : State) (n : Nat) v : (s.setSlot n v).markers = s.markers := rfl
@[simp] theorem State.setSlot_trips (s : State) (n : Nat) v : (s.setSlot n v).trips = s.trips := rfl
@[simp] theorem State.setSlot_slus (s : State) (n : Nat) v : (s.setSlot n v).slus = s.slus := rfl
@[simp] theorem State.setSlot_slu (s : State) (n : Nat) v : (s.setSlot n v).slu = s.slu := rfl
@[simp] theorem State.setSlot_lanes (s : State) (n : Nat) v : (s.setSlot n v).lanes = s.lanes := rfl
@[simp] theorem State.setSlot_quads (s : State) (n : Nat) v : (s.setSlot n v).quads = s.quads := rfl
@[simp] theorem State.setSlot_links (s : State) (n : Nat) v : (s.setSlot n v).links = s.links := rfl
@[simp] theorem State.setSlot_life (s : State) (n : Nat) v : (s.setSlot n v).life = s.life := rfl
@[simp] theorem State.setSlot_hbm (s : State) (n : Nat) v : (s.setSlot n v).hbm = s.hbm := rfl
@[simp] theorem State.setSlot_bank (s : State) (n : Nat) v : (s.setSlot n v).bank = s.bank := rfl
@[simp] theorem State.setSlot_jtag (s : State) (n : Nat) v : (s.setSlot n v).jtag = s.jtag := rfl
@[simp] theorem State.setSlot_pending (s : State) (n : Nat) v : (s.setSlot n v).pending = s.pending := rfl

/-! ## setCtx -/

@[simp] theorem State.setCtx_now (s : State) (n : Nat) v : (s.setCtx n v).now = s.now := rfl
@[simp] theorem State.setCtx_dev (s : State) (n : Nat) v : (s.setCtx n v).dev = s.dev := rfl
@[simp] theorem State.setCtx_prev (s : State) (n : Nat) v : (s.setCtx n v).prev = s.prev := rfl
@[simp] theorem State.setCtx_devAt (s : State) (n : Nat) v : (s.setCtx n v).devAt = s.devAt := rfl
@[simp] theorem State.setCtx_pkts (s : State) (n : Nat) v : (s.setCtx n v).pkts = s.pkts := rfl
@[simp] theorem State.setCtx_regs (s : State) (n : Nat) v : (s.setCtx n v).regs = s.regs := rfl
@[simp] theorem State.setCtx_force (s : State) (n : Nat) v : (s.setCtx n v).force = s.force := rfl
@[simp] theorem State.setCtx_ports (s : State) (n : Nat) v : (s.setCtx n v).ports = s.ports := rfl
@[simp] theorem State.setCtx_seqNo (s : State) (n : Nat) v : (s.setCtx n v).seqNo = s.seqNo := rfl
@[simp] theorem State.setCtx_mem (s : State) (n : Nat) v : (s.setCtx n v).mem = s.mem := rfl
@[simp] theorem State.setCtx_time (s : State) (n : Nat) v : (s.setCtx n v).time = s.time := rfl
@[simp] theorem State.setCtx_power (s : State) (n : Nat) v : (s.setCtx n v).power = s.power := rfl
@[simp] theorem State.setCtx_boot (s : State) (n : Nat) v : (s.setCtx n v).boot = s.boot := rfl
@[simp] theorem State.setCtx_gov (s : State) (n : Nat) v : (s.setCtx n v).gov = s.gov := rfl
@[simp] theorem State.setCtx_islands (s : State) (n : Nat) v : (s.setCtx n v).islands = s.islands := rfl
@[simp] theorem State.setCtx_restore (s : State) (n : Nat) v : (s.setCtx n v).restore = s.restore := rfl
@[simp] theorem State.setCtx_sources (s : State) (n : Nat) v : (s.setCtx n v).sources = s.sources := rfl
@[simp] theorem State.setCtx_ends (s : State) (n : Nat) v : (s.setCtx n v).ends = s.ends := rfl
@[simp] theorem State.setCtx_chans (s : State) (n : Nat) v : (s.setCtx n v).chans = s.chans := rfl
@[simp] theorem State.setCtx_waves (s : State) (n : Nat) v : (s.setCtx n v).waves = s.waves := rfl
@[simp] theorem State.setCtx_slots (s : State) (n : Nat) v : (s.setCtx n v).slots = s.slots := rfl
@[simp] theorem State.setCtx_ctxs (s : State) (n : Nat) v : (s.setCtx n v).ctxs = SMap.set (fun _ => {}) s.ctxs n v := rfl
@[simp] theorem State.setCtx_stabs (s : State) (n : Nat) v : (s.setCtx n v).stabs = s.stabs := rfl
@[simp] theorem State.setCtx_engines (s : State) (n : Nat) v : (s.setCtx n v).engines = s.engines := rfl
@[simp] theorem State.setCtx_acqs (s : State) (n : Nat) v : (s.setCtx n v).acqs = s.acqs := rfl
@[simp] theorem State.setCtx_share (s : State) (n : Nat) v : (s.setCtx n v).share = s.share := rfl
@[simp] theorem State.setCtx_pans (s : State) (n : Nat) v : (s.setCtx n v).pans = s.pans := rfl
@[simp] theorem State.setCtx_crys (s : State) (n : Nat) v : (s.setCtx n v).crys = s.crys := rfl
@[simp] theorem State.setCtx_masks (s : State) (n : Nat) v : (s.setCtx n v).masks = s.masks := rfl
@[simp] theorem State.setCtx_rules (s : State) (n : Nat) v : (s.setCtx n v).rules = s.rules := rfl
@[simp] theorem State.setCtx_markers (s : State) (n : Nat) v : (s.setCtx n v).markers = s.markers := rfl
@[simp] theorem State.setCtx_trips (s : State) (n : Nat) v : (s.setCtx n v).trips = s.trips := rfl
@[simp] theorem State.setCtx_slus (s : State) (n : Nat) v : (s.setCtx n v).slus = s.slus := rfl
@[simp] theorem State.setCtx_slu (s : State) (n : Nat) v : (s.setCtx n v).slu = s.slu := rfl
@[simp] theorem State.setCtx_lanes (s : State) (n : Nat) v : (s.setCtx n v).lanes = s.lanes := rfl
@[simp] theorem State.setCtx_quads (s : State) (n : Nat) v : (s.setCtx n v).quads = s.quads := rfl
@[simp] theorem State.setCtx_links (s : State) (n : Nat) v : (s.setCtx n v).links = s.links := rfl
@[simp] theorem State.setCtx_life (s : State) (n : Nat) v : (s.setCtx n v).life = s.life := rfl
@[simp] theorem State.setCtx_hbm (s : State) (n : Nat) v : (s.setCtx n v).hbm = s.hbm := rfl
@[simp] theorem State.setCtx_bank (s : State) (n : Nat) v : (s.setCtx n v).bank = s.bank := rfl
@[simp] theorem State.setCtx_jtag (s : State) (n : Nat) v : (s.setCtx n v).jtag = s.jtag := rfl
@[simp] theorem State.setCtx_pending (s : State) (n : Nat) v : (s.setCtx n v).pending = s.pending := rfl

/-! ## setStab -/

@[simp] theorem State.setStab_now (s : State) (n : Nat) v : (s.setStab n v).now = s.now := rfl
@[simp] theorem State.setStab_dev (s : State) (n : Nat) v : (s.setStab n v).dev = s.dev := rfl
@[simp] theorem State.setStab_prev (s : State) (n : Nat) v : (s.setStab n v).prev = s.prev := rfl
@[simp] theorem State.setStab_devAt (s : State) (n : Nat) v : (s.setStab n v).devAt = s.devAt := rfl
@[simp] theorem State.setStab_pkts (s : State) (n : Nat) v : (s.setStab n v).pkts = s.pkts := rfl
@[simp] theorem State.setStab_regs (s : State) (n : Nat) v : (s.setStab n v).regs = s.regs := rfl
@[simp] theorem State.setStab_force (s : State) (n : Nat) v : (s.setStab n v).force = s.force := rfl
@[simp] theorem State.setStab_ports (s : State) (n : Nat) v : (s.setStab n v).ports = s.ports := rfl
@[simp] theorem State.setStab_seqNo (s : State) (n : Nat) v : (s.setStab n v).seqNo = s.seqNo := rfl
@[simp] theorem State.setStab_mem (s : State) (n : Nat) v : (s.setStab n v).mem = s.mem := rfl
@[simp] theorem State.setStab_time (s : State) (n : Nat) v : (s.setStab n v).time = s.time := rfl
@[simp] theorem State.setStab_power (s : State) (n : Nat) v : (s.setStab n v).power = s.power := rfl
@[simp] theorem State.setStab_boot (s : State) (n : Nat) v : (s.setStab n v).boot = s.boot := rfl
@[simp] theorem State.setStab_gov (s : State) (n : Nat) v : (s.setStab n v).gov = s.gov := rfl
@[simp] theorem State.setStab_islands (s : State) (n : Nat) v : (s.setStab n v).islands = s.islands := rfl
@[simp] theorem State.setStab_restore (s : State) (n : Nat) v : (s.setStab n v).restore = s.restore := rfl
@[simp] theorem State.setStab_sources (s : State) (n : Nat) v : (s.setStab n v).sources = s.sources := rfl
@[simp] theorem State.setStab_ends (s : State) (n : Nat) v : (s.setStab n v).ends = s.ends := rfl
@[simp] theorem State.setStab_chans (s : State) (n : Nat) v : (s.setStab n v).chans = s.chans := rfl
@[simp] theorem State.setStab_waves (s : State) (n : Nat) v : (s.setStab n v).waves = s.waves := rfl
@[simp] theorem State.setStab_slots (s : State) (n : Nat) v : (s.setStab n v).slots = s.slots := rfl
@[simp] theorem State.setStab_ctxs (s : State) (n : Nat) v : (s.setStab n v).ctxs = s.ctxs := rfl
@[simp] theorem State.setStab_stabs (s : State) (n : Nat) v : (s.setStab n v).stabs = SMap.set (fun _ => {}) s.stabs n v := rfl
@[simp] theorem State.setStab_engines (s : State) (n : Nat) v : (s.setStab n v).engines = s.engines := rfl
@[simp] theorem State.setStab_acqs (s : State) (n : Nat) v : (s.setStab n v).acqs = s.acqs := rfl
@[simp] theorem State.setStab_share (s : State) (n : Nat) v : (s.setStab n v).share = s.share := rfl
@[simp] theorem State.setStab_pans (s : State) (n : Nat) v : (s.setStab n v).pans = s.pans := rfl
@[simp] theorem State.setStab_crys (s : State) (n : Nat) v : (s.setStab n v).crys = s.crys := rfl
@[simp] theorem State.setStab_masks (s : State) (n : Nat) v : (s.setStab n v).masks = s.masks := rfl
@[simp] theorem State.setStab_rules (s : State) (n : Nat) v : (s.setStab n v).rules = s.rules := rfl
@[simp] theorem State.setStab_markers (s : State) (n : Nat) v : (s.setStab n v).markers = s.markers := rfl
@[simp] theorem State.setStab_trips (s : State) (n : Nat) v : (s.setStab n v).trips = s.trips := rfl
@[simp] theorem State.setStab_slus (s : State) (n : Nat) v : (s.setStab n v).slus = s.slus := rfl
@[simp] theorem State.setStab_slu (s : State) (n : Nat) v : (s.setStab n v).slu = s.slu := rfl
@[simp] theorem State.setStab_lanes (s : State) (n : Nat) v : (s.setStab n v).lanes = s.lanes := rfl
@[simp] theorem State.setStab_quads (s : State) (n : Nat) v : (s.setStab n v).quads = s.quads := rfl
@[simp] theorem State.setStab_links (s : State) (n : Nat) v : (s.setStab n v).links = s.links := rfl
@[simp] theorem State.setStab_life (s : State) (n : Nat) v : (s.setStab n v).life = s.life := rfl
@[simp] theorem State.setStab_hbm (s : State) (n : Nat) v : (s.setStab n v).hbm = s.hbm := rfl
@[simp] theorem State.setStab_bank (s : State) (n : Nat) v : (s.setStab n v).bank = s.bank := rfl
@[simp] theorem State.setStab_jtag (s : State) (n : Nat) v : (s.setStab n v).jtag = s.jtag := rfl
@[simp] theorem State.setStab_pending (s : State) (n : Nat) v : (s.setStab n v).pending = s.pending := rfl

/-! ## setEngine -/

@[simp] theorem State.setEngine_now (s : State) (n : Nat) v : (s.setEngine n v).now = s.now := rfl
@[simp] theorem State.setEngine_dev (s : State) (n : Nat) v : (s.setEngine n v).dev = s.dev := rfl
@[simp] theorem State.setEngine_prev (s : State) (n : Nat) v : (s.setEngine n v).prev = s.prev := rfl
@[simp] theorem State.setEngine_devAt (s : State) (n : Nat) v : (s.setEngine n v).devAt = s.devAt := rfl
@[simp] theorem State.setEngine_pkts (s : State) (n : Nat) v : (s.setEngine n v).pkts = s.pkts := rfl
@[simp] theorem State.setEngine_regs (s : State) (n : Nat) v : (s.setEngine n v).regs = s.regs := rfl
@[simp] theorem State.setEngine_force (s : State) (n : Nat) v : (s.setEngine n v).force = s.force := rfl
@[simp] theorem State.setEngine_ports (s : State) (n : Nat) v : (s.setEngine n v).ports = s.ports := rfl
@[simp] theorem State.setEngine_seqNo (s : State) (n : Nat) v : (s.setEngine n v).seqNo = s.seqNo := rfl
@[simp] theorem State.setEngine_mem (s : State) (n : Nat) v : (s.setEngine n v).mem = s.mem := rfl
@[simp] theorem State.setEngine_time (s : State) (n : Nat) v : (s.setEngine n v).time = s.time := rfl
@[simp] theorem State.setEngine_power (s : State) (n : Nat) v : (s.setEngine n v).power = s.power := rfl
@[simp] theorem State.setEngine_boot (s : State) (n : Nat) v : (s.setEngine n v).boot = s.boot := rfl
@[simp] theorem State.setEngine_gov (s : State) (n : Nat) v : (s.setEngine n v).gov = s.gov := rfl
@[simp] theorem State.setEngine_islands (s : State) (n : Nat) v : (s.setEngine n v).islands = s.islands := rfl
@[simp] theorem State.setEngine_restore (s : State) (n : Nat) v : (s.setEngine n v).restore = s.restore := rfl
@[simp] theorem State.setEngine_sources (s : State) (n : Nat) v : (s.setEngine n v).sources = s.sources := rfl
@[simp] theorem State.setEngine_ends (s : State) (n : Nat) v : (s.setEngine n v).ends = s.ends := rfl
@[simp] theorem State.setEngine_chans (s : State) (n : Nat) v : (s.setEngine n v).chans = s.chans := rfl
@[simp] theorem State.setEngine_waves (s : State) (n : Nat) v : (s.setEngine n v).waves = s.waves := rfl
@[simp] theorem State.setEngine_slots (s : State) (n : Nat) v : (s.setEngine n v).slots = s.slots := rfl
@[simp] theorem State.setEngine_ctxs (s : State) (n : Nat) v : (s.setEngine n v).ctxs = s.ctxs := rfl
@[simp] theorem State.setEngine_stabs (s : State) (n : Nat) v : (s.setEngine n v).stabs = s.stabs := rfl
@[simp] theorem State.setEngine_engines (s : State) (n : Nat) v : (s.setEngine n v).engines = SMap.set (fun _ => {}) s.engines n v := rfl
@[simp] theorem State.setEngine_acqs (s : State) (n : Nat) v : (s.setEngine n v).acqs = s.acqs := rfl
@[simp] theorem State.setEngine_share (s : State) (n : Nat) v : (s.setEngine n v).share = s.share := rfl
@[simp] theorem State.setEngine_pans (s : State) (n : Nat) v : (s.setEngine n v).pans = s.pans := rfl
@[simp] theorem State.setEngine_crys (s : State) (n : Nat) v : (s.setEngine n v).crys = s.crys := rfl
@[simp] theorem State.setEngine_masks (s : State) (n : Nat) v : (s.setEngine n v).masks = s.masks := rfl
@[simp] theorem State.setEngine_rules (s : State) (n : Nat) v : (s.setEngine n v).rules = s.rules := rfl
@[simp] theorem State.setEngine_markers (s : State) (n : Nat) v : (s.setEngine n v).markers = s.markers := rfl
@[simp] theorem State.setEngine_trips (s : State) (n : Nat) v : (s.setEngine n v).trips = s.trips := rfl
@[simp] theorem State.setEngine_slus (s : State) (n : Nat) v : (s.setEngine n v).slus = s.slus := rfl
@[simp] theorem State.setEngine_slu (s : State) (n : Nat) v : (s.setEngine n v).slu = s.slu := rfl
@[simp] theorem State.setEngine_lanes (s : State) (n : Nat) v : (s.setEngine n v).lanes = s.lanes := rfl
@[simp] theorem State.setEngine_quads (s : State) (n : Nat) v : (s.setEngine n v).quads = s.quads := rfl
@[simp] theorem State.setEngine_links (s : State) (n : Nat) v : (s.setEngine n v).links = s.links := rfl
@[simp] theorem State.setEngine_life (s : State) (n : Nat) v : (s.setEngine n v).life = s.life := rfl
@[simp] theorem State.setEngine_hbm (s : State) (n : Nat) v : (s.setEngine n v).hbm = s.hbm := rfl
@[simp] theorem State.setEngine_bank (s : State) (n : Nat) v : (s.setEngine n v).bank = s.bank := rfl
@[simp] theorem State.setEngine_jtag (s : State) (n : Nat) v : (s.setEngine n v).jtag = s.jtag := rfl
@[simp] theorem State.setEngine_pending (s : State) (n : Nat) v : (s.setEngine n v).pending = s.pending := rfl

/-! ## setAcq -/

@[simp] theorem State.setAcq_now (s : State) (n : Nat) v : (s.setAcq n v).now = s.now := rfl
@[simp] theorem State.setAcq_dev (s : State) (n : Nat) v : (s.setAcq n v).dev = s.dev := rfl
@[simp] theorem State.setAcq_prev (s : State) (n : Nat) v : (s.setAcq n v).prev = s.prev := rfl
@[simp] theorem State.setAcq_devAt (s : State) (n : Nat) v : (s.setAcq n v).devAt = s.devAt := rfl
@[simp] theorem State.setAcq_pkts (s : State) (n : Nat) v : (s.setAcq n v).pkts = s.pkts := rfl
@[simp] theorem State.setAcq_regs (s : State) (n : Nat) v : (s.setAcq n v).regs = s.regs := rfl
@[simp] theorem State.setAcq_force (s : State) (n : Nat) v : (s.setAcq n v).force = s.force := rfl
@[simp] theorem State.setAcq_ports (s : State) (n : Nat) v : (s.setAcq n v).ports = s.ports := rfl
@[simp] theorem State.setAcq_seqNo (s : State) (n : Nat) v : (s.setAcq n v).seqNo = s.seqNo := rfl
@[simp] theorem State.setAcq_mem (s : State) (n : Nat) v : (s.setAcq n v).mem = s.mem := rfl
@[simp] theorem State.setAcq_time (s : State) (n : Nat) v : (s.setAcq n v).time = s.time := rfl
@[simp] theorem State.setAcq_power (s : State) (n : Nat) v : (s.setAcq n v).power = s.power := rfl
@[simp] theorem State.setAcq_boot (s : State) (n : Nat) v : (s.setAcq n v).boot = s.boot := rfl
@[simp] theorem State.setAcq_gov (s : State) (n : Nat) v : (s.setAcq n v).gov = s.gov := rfl
@[simp] theorem State.setAcq_islands (s : State) (n : Nat) v : (s.setAcq n v).islands = s.islands := rfl
@[simp] theorem State.setAcq_restore (s : State) (n : Nat) v : (s.setAcq n v).restore = s.restore := rfl
@[simp] theorem State.setAcq_sources (s : State) (n : Nat) v : (s.setAcq n v).sources = s.sources := rfl
@[simp] theorem State.setAcq_ends (s : State) (n : Nat) v : (s.setAcq n v).ends = s.ends := rfl
@[simp] theorem State.setAcq_chans (s : State) (n : Nat) v : (s.setAcq n v).chans = s.chans := rfl
@[simp] theorem State.setAcq_waves (s : State) (n : Nat) v : (s.setAcq n v).waves = s.waves := rfl
@[simp] theorem State.setAcq_slots (s : State) (n : Nat) v : (s.setAcq n v).slots = s.slots := rfl
@[simp] theorem State.setAcq_ctxs (s : State) (n : Nat) v : (s.setAcq n v).ctxs = s.ctxs := rfl
@[simp] theorem State.setAcq_stabs (s : State) (n : Nat) v : (s.setAcq n v).stabs = s.stabs := rfl
@[simp] theorem State.setAcq_engines (s : State) (n : Nat) v : (s.setAcq n v).engines = s.engines := rfl
@[simp] theorem State.setAcq_acqs (s : State) (n : Nat) v : (s.setAcq n v).acqs = SMap.set (fun _ => {}) s.acqs n v := rfl
@[simp] theorem State.setAcq_share (s : State) (n : Nat) v : (s.setAcq n v).share = s.share := rfl
@[simp] theorem State.setAcq_pans (s : State) (n : Nat) v : (s.setAcq n v).pans = s.pans := rfl
@[simp] theorem State.setAcq_crys (s : State) (n : Nat) v : (s.setAcq n v).crys = s.crys := rfl
@[simp] theorem State.setAcq_masks (s : State) (n : Nat) v : (s.setAcq n v).masks = s.masks := rfl
@[simp] theorem State.setAcq_rules (s : State) (n : Nat) v : (s.setAcq n v).rules = s.rules := rfl
@[simp] theorem State.setAcq_markers (s : State) (n : Nat) v : (s.setAcq n v).markers = s.markers := rfl
@[simp] theorem State.setAcq_trips (s : State) (n : Nat) v : (s.setAcq n v).trips = s.trips := rfl
@[simp] theorem State.setAcq_slus (s : State) (n : Nat) v : (s.setAcq n v).slus = s.slus := rfl
@[simp] theorem State.setAcq_slu (s : State) (n : Nat) v : (s.setAcq n v).slu = s.slu := rfl
@[simp] theorem State.setAcq_lanes (s : State) (n : Nat) v : (s.setAcq n v).lanes = s.lanes := rfl
@[simp] theorem State.setAcq_quads (s : State) (n : Nat) v : (s.setAcq n v).quads = s.quads := rfl
@[simp] theorem State.setAcq_links (s : State) (n : Nat) v : (s.setAcq n v).links = s.links := rfl
@[simp] theorem State.setAcq_life (s : State) (n : Nat) v : (s.setAcq n v).life = s.life := rfl
@[simp] theorem State.setAcq_hbm (s : State) (n : Nat) v : (s.setAcq n v).hbm = s.hbm := rfl
@[simp] theorem State.setAcq_bank (s : State) (n : Nat) v : (s.setAcq n v).bank = s.bank := rfl
@[simp] theorem State.setAcq_jtag (s : State) (n : Nat) v : (s.setAcq n v).jtag = s.jtag := rfl
@[simp] theorem State.setAcq_pending (s : State) (n : Nat) v : (s.setAcq n v).pending = s.pending := rfl

/-! ## setPan -/

@[simp] theorem State.setPan_now (s : State) (n : Nat) v : (s.setPan n v).now = s.now := rfl
@[simp] theorem State.setPan_dev (s : State) (n : Nat) v : (s.setPan n v).dev = s.dev := rfl
@[simp] theorem State.setPan_prev (s : State) (n : Nat) v : (s.setPan n v).prev = s.prev := rfl
@[simp] theorem State.setPan_devAt (s : State) (n : Nat) v : (s.setPan n v).devAt = s.devAt := rfl
@[simp] theorem State.setPan_pkts (s : State) (n : Nat) v : (s.setPan n v).pkts = s.pkts := rfl
@[simp] theorem State.setPan_regs (s : State) (n : Nat) v : (s.setPan n v).regs = s.regs := rfl
@[simp] theorem State.setPan_force (s : State) (n : Nat) v : (s.setPan n v).force = s.force := rfl
@[simp] theorem State.setPan_ports (s : State) (n : Nat) v : (s.setPan n v).ports = s.ports := rfl
@[simp] theorem State.setPan_seqNo (s : State) (n : Nat) v : (s.setPan n v).seqNo = s.seqNo := rfl
@[simp] theorem State.setPan_mem (s : State) (n : Nat) v : (s.setPan n v).mem = s.mem := rfl
@[simp] theorem State.setPan_time (s : State) (n : Nat) v : (s.setPan n v).time = s.time := rfl
@[simp] theorem State.setPan_power (s : State) (n : Nat) v : (s.setPan n v).power = s.power := rfl
@[simp] theorem State.setPan_boot (s : State) (n : Nat) v : (s.setPan n v).boot = s.boot := rfl
@[simp] theorem State.setPan_gov (s : State) (n : Nat) v : (s.setPan n v).gov = s.gov := rfl
@[simp] theorem State.setPan_islands (s : State) (n : Nat) v : (s.setPan n v).islands = s.islands := rfl
@[simp] theorem State.setPan_restore (s : State) (n : Nat) v : (s.setPan n v).restore = s.restore := rfl
@[simp] theorem State.setPan_sources (s : State) (n : Nat) v : (s.setPan n v).sources = s.sources := rfl
@[simp] theorem State.setPan_ends (s : State) (n : Nat) v : (s.setPan n v).ends = s.ends := rfl
@[simp] theorem State.setPan_chans (s : State) (n : Nat) v : (s.setPan n v).chans = s.chans := rfl
@[simp] theorem State.setPan_waves (s : State) (n : Nat) v : (s.setPan n v).waves = s.waves := rfl
@[simp] theorem State.setPan_slots (s : State) (n : Nat) v : (s.setPan n v).slots = s.slots := rfl
@[simp] theorem State.setPan_ctxs (s : State) (n : Nat) v : (s.setPan n v).ctxs = s.ctxs := rfl
@[simp] theorem State.setPan_stabs (s : State) (n : Nat) v : (s.setPan n v).stabs = s.stabs := rfl
@[simp] theorem State.setPan_engines (s : State) (n : Nat) v : (s.setPan n v).engines = s.engines := rfl
@[simp] theorem State.setPan_acqs (s : State) (n : Nat) v : (s.setPan n v).acqs = s.acqs := rfl
@[simp] theorem State.setPan_share (s : State) (n : Nat) v : (s.setPan n v).share = s.share := rfl
@[simp] theorem State.setPan_pans (s : State) (n : Nat) v : (s.setPan n v).pans = SMap.set (fun _ => {}) s.pans n v := rfl
@[simp] theorem State.setPan_crys (s : State) (n : Nat) v : (s.setPan n v).crys = s.crys := rfl
@[simp] theorem State.setPan_masks (s : State) (n : Nat) v : (s.setPan n v).masks = s.masks := rfl
@[simp] theorem State.setPan_rules (s : State) (n : Nat) v : (s.setPan n v).rules = s.rules := rfl
@[simp] theorem State.setPan_markers (s : State) (n : Nat) v : (s.setPan n v).markers = s.markers := rfl
@[simp] theorem State.setPan_trips (s : State) (n : Nat) v : (s.setPan n v).trips = s.trips := rfl
@[simp] theorem State.setPan_slus (s : State) (n : Nat) v : (s.setPan n v).slus = s.slus := rfl
@[simp] theorem State.setPan_slu (s : State) (n : Nat) v : (s.setPan n v).slu = s.slu := rfl
@[simp] theorem State.setPan_lanes (s : State) (n : Nat) v : (s.setPan n v).lanes = s.lanes := rfl
@[simp] theorem State.setPan_quads (s : State) (n : Nat) v : (s.setPan n v).quads = s.quads := rfl
@[simp] theorem State.setPan_links (s : State) (n : Nat) v : (s.setPan n v).links = s.links := rfl
@[simp] theorem State.setPan_life (s : State) (n : Nat) v : (s.setPan n v).life = s.life := rfl
@[simp] theorem State.setPan_hbm (s : State) (n : Nat) v : (s.setPan n v).hbm = s.hbm := rfl
@[simp] theorem State.setPan_bank (s : State) (n : Nat) v : (s.setPan n v).bank = s.bank := rfl
@[simp] theorem State.setPan_jtag (s : State) (n : Nat) v : (s.setPan n v).jtag = s.jtag := rfl
@[simp] theorem State.setPan_pending (s : State) (n : Nat) v : (s.setPan n v).pending = s.pending := rfl

/-! ## setCry -/

@[simp] theorem State.setCry_now (s : State) (n : Nat) v : (s.setCry n v).now = s.now := rfl
@[simp] theorem State.setCry_dev (s : State) (n : Nat) v : (s.setCry n v).dev = s.dev := rfl
@[simp] theorem State.setCry_prev (s : State) (n : Nat) v : (s.setCry n v).prev = s.prev := rfl
@[simp] theorem State.setCry_devAt (s : State) (n : Nat) v : (s.setCry n v).devAt = s.devAt := rfl
@[simp] theorem State.setCry_pkts (s : State) (n : Nat) v : (s.setCry n v).pkts = s.pkts := rfl
@[simp] theorem State.setCry_regs (s : State) (n : Nat) v : (s.setCry n v).regs = s.regs := rfl
@[simp] theorem State.setCry_force (s : State) (n : Nat) v : (s.setCry n v).force = s.force := rfl
@[simp] theorem State.setCry_ports (s : State) (n : Nat) v : (s.setCry n v).ports = s.ports := rfl
@[simp] theorem State.setCry_seqNo (s : State) (n : Nat) v : (s.setCry n v).seqNo = s.seqNo := rfl
@[simp] theorem State.setCry_mem (s : State) (n : Nat) v : (s.setCry n v).mem = s.mem := rfl
@[simp] theorem State.setCry_time (s : State) (n : Nat) v : (s.setCry n v).time = s.time := rfl
@[simp] theorem State.setCry_power (s : State) (n : Nat) v : (s.setCry n v).power = s.power := rfl
@[simp] theorem State.setCry_boot (s : State) (n : Nat) v : (s.setCry n v).boot = s.boot := rfl
@[simp] theorem State.setCry_gov (s : State) (n : Nat) v : (s.setCry n v).gov = s.gov := rfl
@[simp] theorem State.setCry_islands (s : State) (n : Nat) v : (s.setCry n v).islands = s.islands := rfl
@[simp] theorem State.setCry_restore (s : State) (n : Nat) v : (s.setCry n v).restore = s.restore := rfl
@[simp] theorem State.setCry_sources (s : State) (n : Nat) v : (s.setCry n v).sources = s.sources := rfl
@[simp] theorem State.setCry_ends (s : State) (n : Nat) v : (s.setCry n v).ends = s.ends := rfl
@[simp] theorem State.setCry_chans (s : State) (n : Nat) v : (s.setCry n v).chans = s.chans := rfl
@[simp] theorem State.setCry_waves (s : State) (n : Nat) v : (s.setCry n v).waves = s.waves := rfl
@[simp] theorem State.setCry_slots (s : State) (n : Nat) v : (s.setCry n v).slots = s.slots := rfl
@[simp] theorem State.setCry_ctxs (s : State) (n : Nat) v : (s.setCry n v).ctxs = s.ctxs := rfl
@[simp] theorem State.setCry_stabs (s : State) (n : Nat) v : (s.setCry n v).stabs = s.stabs := rfl
@[simp] theorem State.setCry_engines (s : State) (n : Nat) v : (s.setCry n v).engines = s.engines := rfl
@[simp] theorem State.setCry_acqs (s : State) (n : Nat) v : (s.setCry n v).acqs = s.acqs := rfl
@[simp] theorem State.setCry_share (s : State) (n : Nat) v : (s.setCry n v).share = s.share := rfl
@[simp] theorem State.setCry_pans (s : State) (n : Nat) v : (s.setCry n v).pans = s.pans := rfl
@[simp] theorem State.setCry_crys (s : State) (n : Nat) v : (s.setCry n v).crys = SMap.set (fun _ => {}) s.crys n v := rfl
@[simp] theorem State.setCry_masks (s : State) (n : Nat) v : (s.setCry n v).masks = s.masks := rfl
@[simp] theorem State.setCry_rules (s : State) (n : Nat) v : (s.setCry n v).rules = s.rules := rfl
@[simp] theorem State.setCry_markers (s : State) (n : Nat) v : (s.setCry n v).markers = s.markers := rfl
@[simp] theorem State.setCry_trips (s : State) (n : Nat) v : (s.setCry n v).trips = s.trips := rfl
@[simp] theorem State.setCry_slus (s : State) (n : Nat) v : (s.setCry n v).slus = s.slus := rfl
@[simp] theorem State.setCry_slu (s : State) (n : Nat) v : (s.setCry n v).slu = s.slu := rfl
@[simp] theorem State.setCry_lanes (s : State) (n : Nat) v : (s.setCry n v).lanes = s.lanes := rfl
@[simp] theorem State.setCry_quads (s : State) (n : Nat) v : (s.setCry n v).quads = s.quads := rfl
@[simp] theorem State.setCry_links (s : State) (n : Nat) v : (s.setCry n v).links = s.links := rfl
@[simp] theorem State.setCry_life (s : State) (n : Nat) v : (s.setCry n v).life = s.life := rfl
@[simp] theorem State.setCry_hbm (s : State) (n : Nat) v : (s.setCry n v).hbm = s.hbm := rfl
@[simp] theorem State.setCry_bank (s : State) (n : Nat) v : (s.setCry n v).bank = s.bank := rfl
@[simp] theorem State.setCry_jtag (s : State) (n : Nat) v : (s.setCry n v).jtag = s.jtag := rfl
@[simp] theorem State.setCry_pending (s : State) (n : Nat) v : (s.setCry n v).pending = s.pending := rfl

/-! ## setMask -/

@[simp] theorem State.setMask_now (s : State) (n : Nat) v : (s.setMask n v).now = s.now := rfl
@[simp] theorem State.setMask_dev (s : State) (n : Nat) v : (s.setMask n v).dev = s.dev := rfl
@[simp] theorem State.setMask_prev (s : State) (n : Nat) v : (s.setMask n v).prev = s.prev := rfl
@[simp] theorem State.setMask_devAt (s : State) (n : Nat) v : (s.setMask n v).devAt = s.devAt := rfl
@[simp] theorem State.setMask_pkts (s : State) (n : Nat) v : (s.setMask n v).pkts = s.pkts := rfl
@[simp] theorem State.setMask_regs (s : State) (n : Nat) v : (s.setMask n v).regs = s.regs := rfl
@[simp] theorem State.setMask_force (s : State) (n : Nat) v : (s.setMask n v).force = s.force := rfl
@[simp] theorem State.setMask_ports (s : State) (n : Nat) v : (s.setMask n v).ports = s.ports := rfl
@[simp] theorem State.setMask_seqNo (s : State) (n : Nat) v : (s.setMask n v).seqNo = s.seqNo := rfl
@[simp] theorem State.setMask_mem (s : State) (n : Nat) v : (s.setMask n v).mem = s.mem := rfl
@[simp] theorem State.setMask_time (s : State) (n : Nat) v : (s.setMask n v).time = s.time := rfl
@[simp] theorem State.setMask_power (s : State) (n : Nat) v : (s.setMask n v).power = s.power := rfl
@[simp] theorem State.setMask_boot (s : State) (n : Nat) v : (s.setMask n v).boot = s.boot := rfl
@[simp] theorem State.setMask_gov (s : State) (n : Nat) v : (s.setMask n v).gov = s.gov := rfl
@[simp] theorem State.setMask_islands (s : State) (n : Nat) v : (s.setMask n v).islands = s.islands := rfl
@[simp] theorem State.setMask_restore (s : State) (n : Nat) v : (s.setMask n v).restore = s.restore := rfl
@[simp] theorem State.setMask_sources (s : State) (n : Nat) v : (s.setMask n v).sources = s.sources := rfl
@[simp] theorem State.setMask_ends (s : State) (n : Nat) v : (s.setMask n v).ends = s.ends := rfl
@[simp] theorem State.setMask_chans (s : State) (n : Nat) v : (s.setMask n v).chans = s.chans := rfl
@[simp] theorem State.setMask_waves (s : State) (n : Nat) v : (s.setMask n v).waves = s.waves := rfl
@[simp] theorem State.setMask_slots (s : State) (n : Nat) v : (s.setMask n v).slots = s.slots := rfl
@[simp] theorem State.setMask_ctxs (s : State) (n : Nat) v : (s.setMask n v).ctxs = s.ctxs := rfl
@[simp] theorem State.setMask_stabs (s : State) (n : Nat) v : (s.setMask n v).stabs = s.stabs := rfl
@[simp] theorem State.setMask_engines (s : State) (n : Nat) v : (s.setMask n v).engines = s.engines := rfl
@[simp] theorem State.setMask_acqs (s : State) (n : Nat) v : (s.setMask n v).acqs = s.acqs := rfl
@[simp] theorem State.setMask_share (s : State) (n : Nat) v : (s.setMask n v).share = s.share := rfl
@[simp] theorem State.setMask_pans (s : State) (n : Nat) v : (s.setMask n v).pans = s.pans := rfl
@[simp] theorem State.setMask_crys (s : State) (n : Nat) v : (s.setMask n v).crys = s.crys := rfl
@[simp] theorem State.setMask_masks (s : State) (n : Nat) v : (s.setMask n v).masks = SMap.set (fun _ => {}) s.masks n v := rfl
@[simp] theorem State.setMask_rules (s : State) (n : Nat) v : (s.setMask n v).rules = s.rules := rfl
@[simp] theorem State.setMask_markers (s : State) (n : Nat) v : (s.setMask n v).markers = s.markers := rfl
@[simp] theorem State.setMask_trips (s : State) (n : Nat) v : (s.setMask n v).trips = s.trips := rfl
@[simp] theorem State.setMask_slus (s : State) (n : Nat) v : (s.setMask n v).slus = s.slus := rfl
@[simp] theorem State.setMask_slu (s : State) (n : Nat) v : (s.setMask n v).slu = s.slu := rfl
@[simp] theorem State.setMask_lanes (s : State) (n : Nat) v : (s.setMask n v).lanes = s.lanes := rfl
@[simp] theorem State.setMask_quads (s : State) (n : Nat) v : (s.setMask n v).quads = s.quads := rfl
@[simp] theorem State.setMask_links (s : State) (n : Nat) v : (s.setMask n v).links = s.links := rfl
@[simp] theorem State.setMask_life (s : State) (n : Nat) v : (s.setMask n v).life = s.life := rfl
@[simp] theorem State.setMask_hbm (s : State) (n : Nat) v : (s.setMask n v).hbm = s.hbm := rfl
@[simp] theorem State.setMask_bank (s : State) (n : Nat) v : (s.setMask n v).bank = s.bank := rfl
@[simp] theorem State.setMask_jtag (s : State) (n : Nat) v : (s.setMask n v).jtag = s.jtag := rfl
@[simp] theorem State.setMask_pending (s : State) (n : Nat) v : (s.setMask n v).pending = s.pending := rfl

/-! ## setRule -/

@[simp] theorem State.setRule_now (s : State) (n : Nat) v : (s.setRule n v).now = s.now := rfl
@[simp] theorem State.setRule_dev (s : State) (n : Nat) v : (s.setRule n v).dev = s.dev := rfl
@[simp] theorem State.setRule_prev (s : State) (n : Nat) v : (s.setRule n v).prev = s.prev := rfl
@[simp] theorem State.setRule_devAt (s : State) (n : Nat) v : (s.setRule n v).devAt = s.devAt := rfl
@[simp] theorem State.setRule_pkts (s : State) (n : Nat) v : (s.setRule n v).pkts = s.pkts := rfl
@[simp] theorem State.setRule_regs (s : State) (n : Nat) v : (s.setRule n v).regs = s.regs := rfl
@[simp] theorem State.setRule_force (s : State) (n : Nat) v : (s.setRule n v).force = s.force := rfl
@[simp] theorem State.setRule_ports (s : State) (n : Nat) v : (s.setRule n v).ports = s.ports := rfl
@[simp] theorem State.setRule_seqNo (s : State) (n : Nat) v : (s.setRule n v).seqNo = s.seqNo := rfl
@[simp] theorem State.setRule_mem (s : State) (n : Nat) v : (s.setRule n v).mem = s.mem := rfl
@[simp] theorem State.setRule_time (s : State) (n : Nat) v : (s.setRule n v).time = s.time := rfl
@[simp] theorem State.setRule_power (s : State) (n : Nat) v : (s.setRule n v).power = s.power := rfl
@[simp] theorem State.setRule_boot (s : State) (n : Nat) v : (s.setRule n v).boot = s.boot := rfl
@[simp] theorem State.setRule_gov (s : State) (n : Nat) v : (s.setRule n v).gov = s.gov := rfl
@[simp] theorem State.setRule_islands (s : State) (n : Nat) v : (s.setRule n v).islands = s.islands := rfl
@[simp] theorem State.setRule_restore (s : State) (n : Nat) v : (s.setRule n v).restore = s.restore := rfl
@[simp] theorem State.setRule_sources (s : State) (n : Nat) v : (s.setRule n v).sources = s.sources := rfl
@[simp] theorem State.setRule_ends (s : State) (n : Nat) v : (s.setRule n v).ends = s.ends := rfl
@[simp] theorem State.setRule_chans (s : State) (n : Nat) v : (s.setRule n v).chans = s.chans := rfl
@[simp] theorem State.setRule_waves (s : State) (n : Nat) v : (s.setRule n v).waves = s.waves := rfl
@[simp] theorem State.setRule_slots (s : State) (n : Nat) v : (s.setRule n v).slots = s.slots := rfl
@[simp] theorem State.setRule_ctxs (s : State) (n : Nat) v : (s.setRule n v).ctxs = s.ctxs := rfl
@[simp] theorem State.setRule_stabs (s : State) (n : Nat) v : (s.setRule n v).stabs = s.stabs := rfl
@[simp] theorem State.setRule_engines (s : State) (n : Nat) v : (s.setRule n v).engines = s.engines := rfl
@[simp] theorem State.setRule_acqs (s : State) (n : Nat) v : (s.setRule n v).acqs = s.acqs := rfl
@[simp] theorem State.setRule_share (s : State) (n : Nat) v : (s.setRule n v).share = s.share := rfl
@[simp] theorem State.setRule_pans (s : State) (n : Nat) v : (s.setRule n v).pans = s.pans := rfl
@[simp] theorem State.setRule_crys (s : State) (n : Nat) v : (s.setRule n v).crys = s.crys := rfl
@[simp] theorem State.setRule_masks (s : State) (n : Nat) v : (s.setRule n v).masks = s.masks := rfl
@[simp] theorem State.setRule_rules (s : State) (n : Nat) v : (s.setRule n v).rules = SMap.set (fun _ => {}) s.rules n v := rfl
@[simp] theorem State.setRule_markers (s : State) (n : Nat) v : (s.setRule n v).markers = s.markers := rfl
@[simp] theorem State.setRule_trips (s : State) (n : Nat) v : (s.setRule n v).trips = s.trips := rfl
@[simp] theorem State.setRule_slus (s : State) (n : Nat) v : (s.setRule n v).slus = s.slus := rfl
@[simp] theorem State.setRule_slu (s : State) (n : Nat) v : (s.setRule n v).slu = s.slu := rfl
@[simp] theorem State.setRule_lanes (s : State) (n : Nat) v : (s.setRule n v).lanes = s.lanes := rfl
@[simp] theorem State.setRule_quads (s : State) (n : Nat) v : (s.setRule n v).quads = s.quads := rfl
@[simp] theorem State.setRule_links (s : State) (n : Nat) v : (s.setRule n v).links = s.links := rfl
@[simp] theorem State.setRule_life (s : State) (n : Nat) v : (s.setRule n v).life = s.life := rfl
@[simp] theorem State.setRule_hbm (s : State) (n : Nat) v : (s.setRule n v).hbm = s.hbm := rfl
@[simp] theorem State.setRule_bank (s : State) (n : Nat) v : (s.setRule n v).bank = s.bank := rfl
@[simp] theorem State.setRule_jtag (s : State) (n : Nat) v : (s.setRule n v).jtag = s.jtag := rfl
@[simp] theorem State.setRule_pending (s : State) (n : Nat) v : (s.setRule n v).pending = s.pending := rfl

/-! ## setMarker -/

@[simp] theorem State.setMarker_now (s : State) (n : Nat) v : (s.setMarker n v).now = s.now := rfl
@[simp] theorem State.setMarker_dev (s : State) (n : Nat) v : (s.setMarker n v).dev = s.dev := rfl
@[simp] theorem State.setMarker_prev (s : State) (n : Nat) v : (s.setMarker n v).prev = s.prev := rfl
@[simp] theorem State.setMarker_devAt (s : State) (n : Nat) v : (s.setMarker n v).devAt = s.devAt := rfl
@[simp] theorem State.setMarker_pkts (s : State) (n : Nat) v : (s.setMarker n v).pkts = s.pkts := rfl
@[simp] theorem State.setMarker_regs (s : State) (n : Nat) v : (s.setMarker n v).regs = s.regs := rfl
@[simp] theorem State.setMarker_force (s : State) (n : Nat) v : (s.setMarker n v).force = s.force := rfl
@[simp] theorem State.setMarker_ports (s : State) (n : Nat) v : (s.setMarker n v).ports = s.ports := rfl
@[simp] theorem State.setMarker_seqNo (s : State) (n : Nat) v : (s.setMarker n v).seqNo = s.seqNo := rfl
@[simp] theorem State.setMarker_mem (s : State) (n : Nat) v : (s.setMarker n v).mem = s.mem := rfl
@[simp] theorem State.setMarker_time (s : State) (n : Nat) v : (s.setMarker n v).time = s.time := rfl
@[simp] theorem State.setMarker_power (s : State) (n : Nat) v : (s.setMarker n v).power = s.power := rfl
@[simp] theorem State.setMarker_boot (s : State) (n : Nat) v : (s.setMarker n v).boot = s.boot := rfl
@[simp] theorem State.setMarker_gov (s : State) (n : Nat) v : (s.setMarker n v).gov = s.gov := rfl
@[simp] theorem State.setMarker_islands (s : State) (n : Nat) v : (s.setMarker n v).islands = s.islands := rfl
@[simp] theorem State.setMarker_restore (s : State) (n : Nat) v : (s.setMarker n v).restore = s.restore := rfl
@[simp] theorem State.setMarker_sources (s : State) (n : Nat) v : (s.setMarker n v).sources = s.sources := rfl
@[simp] theorem State.setMarker_ends (s : State) (n : Nat) v : (s.setMarker n v).ends = s.ends := rfl
@[simp] theorem State.setMarker_chans (s : State) (n : Nat) v : (s.setMarker n v).chans = s.chans := rfl
@[simp] theorem State.setMarker_waves (s : State) (n : Nat) v : (s.setMarker n v).waves = s.waves := rfl
@[simp] theorem State.setMarker_slots (s : State) (n : Nat) v : (s.setMarker n v).slots = s.slots := rfl
@[simp] theorem State.setMarker_ctxs (s : State) (n : Nat) v : (s.setMarker n v).ctxs = s.ctxs := rfl
@[simp] theorem State.setMarker_stabs (s : State) (n : Nat) v : (s.setMarker n v).stabs = s.stabs := rfl
@[simp] theorem State.setMarker_engines (s : State) (n : Nat) v : (s.setMarker n v).engines = s.engines := rfl
@[simp] theorem State.setMarker_acqs (s : State) (n : Nat) v : (s.setMarker n v).acqs = s.acqs := rfl
@[simp] theorem State.setMarker_share (s : State) (n : Nat) v : (s.setMarker n v).share = s.share := rfl
@[simp] theorem State.setMarker_pans (s : State) (n : Nat) v : (s.setMarker n v).pans = s.pans := rfl
@[simp] theorem State.setMarker_crys (s : State) (n : Nat) v : (s.setMarker n v).crys = s.crys := rfl
@[simp] theorem State.setMarker_masks (s : State) (n : Nat) v : (s.setMarker n v).masks = s.masks := rfl
@[simp] theorem State.setMarker_rules (s : State) (n : Nat) v : (s.setMarker n v).rules = s.rules := rfl
@[simp] theorem State.setMarker_markers (s : State) (n : Nat) v : (s.setMarker n v).markers = SMap.set (fun _ => {}) s.markers n v := rfl
@[simp] theorem State.setMarker_trips (s : State) (n : Nat) v : (s.setMarker n v).trips = s.trips := rfl
@[simp] theorem State.setMarker_slus (s : State) (n : Nat) v : (s.setMarker n v).slus = s.slus := rfl
@[simp] theorem State.setMarker_slu (s : State) (n : Nat) v : (s.setMarker n v).slu = s.slu := rfl
@[simp] theorem State.setMarker_lanes (s : State) (n : Nat) v : (s.setMarker n v).lanes = s.lanes := rfl
@[simp] theorem State.setMarker_quads (s : State) (n : Nat) v : (s.setMarker n v).quads = s.quads := rfl
@[simp] theorem State.setMarker_links (s : State) (n : Nat) v : (s.setMarker n v).links = s.links := rfl
@[simp] theorem State.setMarker_life (s : State) (n : Nat) v : (s.setMarker n v).life = s.life := rfl
@[simp] theorem State.setMarker_hbm (s : State) (n : Nat) v : (s.setMarker n v).hbm = s.hbm := rfl
@[simp] theorem State.setMarker_bank (s : State) (n : Nat) v : (s.setMarker n v).bank = s.bank := rfl
@[simp] theorem State.setMarker_jtag (s : State) (n : Nat) v : (s.setMarker n v).jtag = s.jtag := rfl
@[simp] theorem State.setMarker_pending (s : State) (n : Nat) v : (s.setMarker n v).pending = s.pending := rfl

/-! ## setTrip -/

@[simp] theorem State.setTrip_now (s : State) (n : Nat) v : (s.setTrip n v).now = s.now := rfl
@[simp] theorem State.setTrip_dev (s : State) (n : Nat) v : (s.setTrip n v).dev = s.dev := rfl
@[simp] theorem State.setTrip_prev (s : State) (n : Nat) v : (s.setTrip n v).prev = s.prev := rfl
@[simp] theorem State.setTrip_devAt (s : State) (n : Nat) v : (s.setTrip n v).devAt = s.devAt := rfl
@[simp] theorem State.setTrip_pkts (s : State) (n : Nat) v : (s.setTrip n v).pkts = s.pkts := rfl
@[simp] theorem State.setTrip_regs (s : State) (n : Nat) v : (s.setTrip n v).regs = s.regs := rfl
@[simp] theorem State.setTrip_force (s : State) (n : Nat) v : (s.setTrip n v).force = s.force := rfl
@[simp] theorem State.setTrip_ports (s : State) (n : Nat) v : (s.setTrip n v).ports = s.ports := rfl
@[simp] theorem State.setTrip_seqNo (s : State) (n : Nat) v : (s.setTrip n v).seqNo = s.seqNo := rfl
@[simp] theorem State.setTrip_mem (s : State) (n : Nat) v : (s.setTrip n v).mem = s.mem := rfl
@[simp] theorem State.setTrip_time (s : State) (n : Nat) v : (s.setTrip n v).time = s.time := rfl
@[simp] theorem State.setTrip_power (s : State) (n : Nat) v : (s.setTrip n v).power = s.power := rfl
@[simp] theorem State.setTrip_boot (s : State) (n : Nat) v : (s.setTrip n v).boot = s.boot := rfl
@[simp] theorem State.setTrip_gov (s : State) (n : Nat) v : (s.setTrip n v).gov = s.gov := rfl
@[simp] theorem State.setTrip_islands (s : State) (n : Nat) v : (s.setTrip n v).islands = s.islands := rfl
@[simp] theorem State.setTrip_restore (s : State) (n : Nat) v : (s.setTrip n v).restore = s.restore := rfl
@[simp] theorem State.setTrip_sources (s : State) (n : Nat) v : (s.setTrip n v).sources = s.sources := rfl
@[simp] theorem State.setTrip_ends (s : State) (n : Nat) v : (s.setTrip n v).ends = s.ends := rfl
@[simp] theorem State.setTrip_chans (s : State) (n : Nat) v : (s.setTrip n v).chans = s.chans := rfl
@[simp] theorem State.setTrip_waves (s : State) (n : Nat) v : (s.setTrip n v).waves = s.waves := rfl
@[simp] theorem State.setTrip_slots (s : State) (n : Nat) v : (s.setTrip n v).slots = s.slots := rfl
@[simp] theorem State.setTrip_ctxs (s : State) (n : Nat) v : (s.setTrip n v).ctxs = s.ctxs := rfl
@[simp] theorem State.setTrip_stabs (s : State) (n : Nat) v : (s.setTrip n v).stabs = s.stabs := rfl
@[simp] theorem State.setTrip_engines (s : State) (n : Nat) v : (s.setTrip n v).engines = s.engines := rfl
@[simp] theorem State.setTrip_acqs (s : State) (n : Nat) v : (s.setTrip n v).acqs = s.acqs := rfl
@[simp] theorem State.setTrip_share (s : State) (n : Nat) v : (s.setTrip n v).share = s.share := rfl
@[simp] theorem State.setTrip_pans (s : State) (n : Nat) v : (s.setTrip n v).pans = s.pans := rfl
@[simp] theorem State.setTrip_crys (s : State) (n : Nat) v : (s.setTrip n v).crys = s.crys := rfl
@[simp] theorem State.setTrip_masks (s : State) (n : Nat) v : (s.setTrip n v).masks = s.masks := rfl
@[simp] theorem State.setTrip_rules (s : State) (n : Nat) v : (s.setTrip n v).rules = s.rules := rfl
@[simp] theorem State.setTrip_markers (s : State) (n : Nat) v : (s.setTrip n v).markers = s.markers := rfl
@[simp] theorem State.setTrip_trips (s : State) (n : Nat) v : (s.setTrip n v).trips = SMap.set (fun _ => {}) s.trips n v := rfl
@[simp] theorem State.setTrip_slus (s : State) (n : Nat) v : (s.setTrip n v).slus = s.slus := rfl
@[simp] theorem State.setTrip_slu (s : State) (n : Nat) v : (s.setTrip n v).slu = s.slu := rfl
@[simp] theorem State.setTrip_lanes (s : State) (n : Nat) v : (s.setTrip n v).lanes = s.lanes := rfl
@[simp] theorem State.setTrip_quads (s : State) (n : Nat) v : (s.setTrip n v).quads = s.quads := rfl
@[simp] theorem State.setTrip_links (s : State) (n : Nat) v : (s.setTrip n v).links = s.links := rfl
@[simp] theorem State.setTrip_life (s : State) (n : Nat) v : (s.setTrip n v).life = s.life := rfl
@[simp] theorem State.setTrip_hbm (s : State) (n : Nat) v : (s.setTrip n v).hbm = s.hbm := rfl
@[simp] theorem State.setTrip_bank (s : State) (n : Nat) v : (s.setTrip n v).bank = s.bank := rfl
@[simp] theorem State.setTrip_jtag (s : State) (n : Nat) v : (s.setTrip n v).jtag = s.jtag := rfl
@[simp] theorem State.setTrip_pending (s : State) (n : Nat) v : (s.setTrip n v).pending = s.pending := rfl

/-! ## setSl -/

@[simp] theorem State.setSl_now (s : State) (n : Nat) v : (s.setSl n v).now = s.now := rfl
@[simp] theorem State.setSl_dev (s : State) (n : Nat) v : (s.setSl n v).dev = s.dev := rfl
@[simp] theorem State.setSl_prev (s : State) (n : Nat) v : (s.setSl n v).prev = s.prev := rfl
@[simp] theorem State.setSl_devAt (s : State) (n : Nat) v : (s.setSl n v).devAt = s.devAt := rfl
@[simp] theorem State.setSl_pkts (s : State) (n : Nat) v : (s.setSl n v).pkts = s.pkts := rfl
@[simp] theorem State.setSl_regs (s : State) (n : Nat) v : (s.setSl n v).regs = s.regs := rfl
@[simp] theorem State.setSl_force (s : State) (n : Nat) v : (s.setSl n v).force = s.force := rfl
@[simp] theorem State.setSl_ports (s : State) (n : Nat) v : (s.setSl n v).ports = s.ports := rfl
@[simp] theorem State.setSl_seqNo (s : State) (n : Nat) v : (s.setSl n v).seqNo = s.seqNo := rfl
@[simp] theorem State.setSl_mem (s : State) (n : Nat) v : (s.setSl n v).mem = s.mem := rfl
@[simp] theorem State.setSl_time (s : State) (n : Nat) v : (s.setSl n v).time = s.time := rfl
@[simp] theorem State.setSl_power (s : State) (n : Nat) v : (s.setSl n v).power = s.power := rfl
@[simp] theorem State.setSl_boot (s : State) (n : Nat) v : (s.setSl n v).boot = s.boot := rfl
@[simp] theorem State.setSl_gov (s : State) (n : Nat) v : (s.setSl n v).gov = s.gov := rfl
@[simp] theorem State.setSl_islands (s : State) (n : Nat) v : (s.setSl n v).islands = s.islands := rfl
@[simp] theorem State.setSl_restore (s : State) (n : Nat) v : (s.setSl n v).restore = s.restore := rfl
@[simp] theorem State.setSl_sources (s : State) (n : Nat) v : (s.setSl n v).sources = s.sources := rfl
@[simp] theorem State.setSl_ends (s : State) (n : Nat) v : (s.setSl n v).ends = s.ends := rfl
@[simp] theorem State.setSl_chans (s : State) (n : Nat) v : (s.setSl n v).chans = s.chans := rfl
@[simp] theorem State.setSl_waves (s : State) (n : Nat) v : (s.setSl n v).waves = s.waves := rfl
@[simp] theorem State.setSl_slots (s : State) (n : Nat) v : (s.setSl n v).slots = s.slots := rfl
@[simp] theorem State.setSl_ctxs (s : State) (n : Nat) v : (s.setSl n v).ctxs = s.ctxs := rfl
@[simp] theorem State.setSl_stabs (s : State) (n : Nat) v : (s.setSl n v).stabs = s.stabs := rfl
@[simp] theorem State.setSl_engines (s : State) (n : Nat) v : (s.setSl n v).engines = s.engines := rfl
@[simp] theorem State.setSl_acqs (s : State) (n : Nat) v : (s.setSl n v).acqs = s.acqs := rfl
@[simp] theorem State.setSl_share (s : State) (n : Nat) v : (s.setSl n v).share = s.share := rfl
@[simp] theorem State.setSl_pans (s : State) (n : Nat) v : (s.setSl n v).pans = s.pans := rfl
@[simp] theorem State.setSl_crys (s : State) (n : Nat) v : (s.setSl n v).crys = s.crys := rfl
@[simp] theorem State.setSl_masks (s : State) (n : Nat) v : (s.setSl n v).masks = s.masks := rfl
@[simp] theorem State.setSl_rules (s : State) (n : Nat) v : (s.setSl n v).rules = s.rules := rfl
@[simp] theorem State.setSl_markers (s : State) (n : Nat) v : (s.setSl n v).markers = s.markers := rfl
@[simp] theorem State.setSl_trips (s : State) (n : Nat) v : (s.setSl n v).trips = s.trips := rfl
@[simp] theorem State.setSl_slus (s : State) (n : Nat) v : (s.setSl n v).slus = SMap.set (fun _ => {}) s.slus n v := rfl
@[simp] theorem State.setSl_slu (s : State) (n : Nat) v : (s.setSl n v).slu = s.slu := rfl
@[simp] theorem State.setSl_lanes (s : State) (n : Nat) v : (s.setSl n v).lanes = s.lanes := rfl
@[simp] theorem State.setSl_quads (s : State) (n : Nat) v : (s.setSl n v).quads = s.quads := rfl
@[simp] theorem State.setSl_links (s : State) (n : Nat) v : (s.setSl n v).links = s.links := rfl
@[simp] theorem State.setSl_life (s : State) (n : Nat) v : (s.setSl n v).life = s.life := rfl
@[simp] theorem State.setSl_hbm (s : State) (n : Nat) v : (s.setSl n v).hbm = s.hbm := rfl
@[simp] theorem State.setSl_bank (s : State) (n : Nat) v : (s.setSl n v).bank = s.bank := rfl
@[simp] theorem State.setSl_jtag (s : State) (n : Nat) v : (s.setSl n v).jtag = s.jtag := rfl
@[simp] theorem State.setSl_pending (s : State) (n : Nat) v : (s.setSl n v).pending = s.pending := rfl

/-! ## setLane -/

@[simp] theorem State.setLane_now (s : State) (n : Nat) v : (s.setLane n v).now = s.now := rfl
@[simp] theorem State.setLane_dev (s : State) (n : Nat) v : (s.setLane n v).dev = s.dev := rfl
@[simp] theorem State.setLane_prev (s : State) (n : Nat) v : (s.setLane n v).prev = s.prev := rfl
@[simp] theorem State.setLane_devAt (s : State) (n : Nat) v : (s.setLane n v).devAt = s.devAt := rfl
@[simp] theorem State.setLane_pkts (s : State) (n : Nat) v : (s.setLane n v).pkts = s.pkts := rfl
@[simp] theorem State.setLane_regs (s : State) (n : Nat) v : (s.setLane n v).regs = s.regs := rfl
@[simp] theorem State.setLane_force (s : State) (n : Nat) v : (s.setLane n v).force = s.force := rfl
@[simp] theorem State.setLane_ports (s : State) (n : Nat) v : (s.setLane n v).ports = s.ports := rfl
@[simp] theorem State.setLane_seqNo (s : State) (n : Nat) v : (s.setLane n v).seqNo = s.seqNo := rfl
@[simp] theorem State.setLane_mem (s : State) (n : Nat) v : (s.setLane n v).mem = s.mem := rfl
@[simp] theorem State.setLane_time (s : State) (n : Nat) v : (s.setLane n v).time = s.time := rfl
@[simp] theorem State.setLane_power (s : State) (n : Nat) v : (s.setLane n v).power = s.power := rfl
@[simp] theorem State.setLane_boot (s : State) (n : Nat) v : (s.setLane n v).boot = s.boot := rfl
@[simp] theorem State.setLane_gov (s : State) (n : Nat) v : (s.setLane n v).gov = s.gov := rfl
@[simp] theorem State.setLane_islands (s : State) (n : Nat) v : (s.setLane n v).islands = s.islands := rfl
@[simp] theorem State.setLane_restore (s : State) (n : Nat) v : (s.setLane n v).restore = s.restore := rfl
@[simp] theorem State.setLane_sources (s : State) (n : Nat) v : (s.setLane n v).sources = s.sources := rfl
@[simp] theorem State.setLane_ends (s : State) (n : Nat) v : (s.setLane n v).ends = s.ends := rfl
@[simp] theorem State.setLane_chans (s : State) (n : Nat) v : (s.setLane n v).chans = s.chans := rfl
@[simp] theorem State.setLane_waves (s : State) (n : Nat) v : (s.setLane n v).waves = s.waves := rfl
@[simp] theorem State.setLane_slots (s : State) (n : Nat) v : (s.setLane n v).slots = s.slots := rfl
@[simp] theorem State.setLane_ctxs (s : State) (n : Nat) v : (s.setLane n v).ctxs = s.ctxs := rfl
@[simp] theorem State.setLane_stabs (s : State) (n : Nat) v : (s.setLane n v).stabs = s.stabs := rfl
@[simp] theorem State.setLane_engines (s : State) (n : Nat) v : (s.setLane n v).engines = s.engines := rfl
@[simp] theorem State.setLane_acqs (s : State) (n : Nat) v : (s.setLane n v).acqs = s.acqs := rfl
@[simp] theorem State.setLane_share (s : State) (n : Nat) v : (s.setLane n v).share = s.share := rfl
@[simp] theorem State.setLane_pans (s : State) (n : Nat) v : (s.setLane n v).pans = s.pans := rfl
@[simp] theorem State.setLane_crys (s : State) (n : Nat) v : (s.setLane n v).crys = s.crys := rfl
@[simp] theorem State.setLane_masks (s : State) (n : Nat) v : (s.setLane n v).masks = s.masks := rfl
@[simp] theorem State.setLane_rules (s : State) (n : Nat) v : (s.setLane n v).rules = s.rules := rfl
@[simp] theorem State.setLane_markers (s : State) (n : Nat) v : (s.setLane n v).markers = s.markers := rfl
@[simp] theorem State.setLane_trips (s : State) (n : Nat) v : (s.setLane n v).trips = s.trips := rfl
@[simp] theorem State.setLane_slus (s : State) (n : Nat) v : (s.setLane n v).slus = s.slus := rfl
@[simp] theorem State.setLane_slu (s : State) (n : Nat) v : (s.setLane n v).slu = s.slu := rfl
@[simp] theorem State.setLane_lanes (s : State) (n : Nat) v : (s.setLane n v).lanes = SMap.set (fun _ => {}) s.lanes n v := rfl
@[simp] theorem State.setLane_quads (s : State) (n : Nat) v : (s.setLane n v).quads = s.quads := rfl
@[simp] theorem State.setLane_links (s : State) (n : Nat) v : (s.setLane n v).links = s.links := rfl
@[simp] theorem State.setLane_life (s : State) (n : Nat) v : (s.setLane n v).life = s.life := rfl
@[simp] theorem State.setLane_hbm (s : State) (n : Nat) v : (s.setLane n v).hbm = s.hbm := rfl
@[simp] theorem State.setLane_bank (s : State) (n : Nat) v : (s.setLane n v).bank = s.bank := rfl
@[simp] theorem State.setLane_jtag (s : State) (n : Nat) v : (s.setLane n v).jtag = s.jtag := rfl
@[simp] theorem State.setLane_pending (s : State) (n : Nat) v : (s.setLane n v).pending = s.pending := rfl

/-! ## setQuad -/

@[simp] theorem State.setQuad_now (s : State) (n : Nat) v : (s.setQuad n v).now = s.now := rfl
@[simp] theorem State.setQuad_dev (s : State) (n : Nat) v : (s.setQuad n v).dev = s.dev := rfl
@[simp] theorem State.setQuad_prev (s : State) (n : Nat) v : (s.setQuad n v).prev = s.prev := rfl
@[simp] theorem State.setQuad_devAt (s : State) (n : Nat) v : (s.setQuad n v).devAt = s.devAt := rfl
@[simp] theorem State.setQuad_pkts (s : State) (n : Nat) v : (s.setQuad n v).pkts = s.pkts := rfl
@[simp] theorem State.setQuad_regs (s : State) (n : Nat) v : (s.setQuad n v).regs = s.regs := rfl
@[simp] theorem State.setQuad_force (s : State) (n : Nat) v : (s.setQuad n v).force = s.force := rfl
@[simp] theorem State.setQuad_ports (s : State) (n : Nat) v : (s.setQuad n v).ports = s.ports := rfl
@[simp] theorem State.setQuad_seqNo (s : State) (n : Nat) v : (s.setQuad n v).seqNo = s.seqNo := rfl
@[simp] theorem State.setQuad_mem (s : State) (n : Nat) v : (s.setQuad n v).mem = s.mem := rfl
@[simp] theorem State.setQuad_time (s : State) (n : Nat) v : (s.setQuad n v).time = s.time := rfl
@[simp] theorem State.setQuad_power (s : State) (n : Nat) v : (s.setQuad n v).power = s.power := rfl
@[simp] theorem State.setQuad_boot (s : State) (n : Nat) v : (s.setQuad n v).boot = s.boot := rfl
@[simp] theorem State.setQuad_gov (s : State) (n : Nat) v : (s.setQuad n v).gov = s.gov := rfl
@[simp] theorem State.setQuad_islands (s : State) (n : Nat) v : (s.setQuad n v).islands = s.islands := rfl
@[simp] theorem State.setQuad_restore (s : State) (n : Nat) v : (s.setQuad n v).restore = s.restore := rfl
@[simp] theorem State.setQuad_sources (s : State) (n : Nat) v : (s.setQuad n v).sources = s.sources := rfl
@[simp] theorem State.setQuad_ends (s : State) (n : Nat) v : (s.setQuad n v).ends = s.ends := rfl
@[simp] theorem State.setQuad_chans (s : State) (n : Nat) v : (s.setQuad n v).chans = s.chans := rfl
@[simp] theorem State.setQuad_waves (s : State) (n : Nat) v : (s.setQuad n v).waves = s.waves := rfl
@[simp] theorem State.setQuad_slots (s : State) (n : Nat) v : (s.setQuad n v).slots = s.slots := rfl
@[simp] theorem State.setQuad_ctxs (s : State) (n : Nat) v : (s.setQuad n v).ctxs = s.ctxs := rfl
@[simp] theorem State.setQuad_stabs (s : State) (n : Nat) v : (s.setQuad n v).stabs = s.stabs := rfl
@[simp] theorem State.setQuad_engines (s : State) (n : Nat) v : (s.setQuad n v).engines = s.engines := rfl
@[simp] theorem State.setQuad_acqs (s : State) (n : Nat) v : (s.setQuad n v).acqs = s.acqs := rfl
@[simp] theorem State.setQuad_share (s : State) (n : Nat) v : (s.setQuad n v).share = s.share := rfl
@[simp] theorem State.setQuad_pans (s : State) (n : Nat) v : (s.setQuad n v).pans = s.pans := rfl
@[simp] theorem State.setQuad_crys (s : State) (n : Nat) v : (s.setQuad n v).crys = s.crys := rfl
@[simp] theorem State.setQuad_masks (s : State) (n : Nat) v : (s.setQuad n v).masks = s.masks := rfl
@[simp] theorem State.setQuad_rules (s : State) (n : Nat) v : (s.setQuad n v).rules = s.rules := rfl
@[simp] theorem State.setQuad_markers (s : State) (n : Nat) v : (s.setQuad n v).markers = s.markers := rfl
@[simp] theorem State.setQuad_trips (s : State) (n : Nat) v : (s.setQuad n v).trips = s.trips := rfl
@[simp] theorem State.setQuad_slus (s : State) (n : Nat) v : (s.setQuad n v).slus = s.slus := rfl
@[simp] theorem State.setQuad_slu (s : State) (n : Nat) v : (s.setQuad n v).slu = s.slu := rfl
@[simp] theorem State.setQuad_lanes (s : State) (n : Nat) v : (s.setQuad n v).lanes = s.lanes := rfl
@[simp] theorem State.setQuad_quads (s : State) (n : Nat) v : (s.setQuad n v).quads = SMap.set (fun _ => {}) s.quads n v := rfl
@[simp] theorem State.setQuad_links (s : State) (n : Nat) v : (s.setQuad n v).links = s.links := rfl
@[simp] theorem State.setQuad_life (s : State) (n : Nat) v : (s.setQuad n v).life = s.life := rfl
@[simp] theorem State.setQuad_hbm (s : State) (n : Nat) v : (s.setQuad n v).hbm = s.hbm := rfl
@[simp] theorem State.setQuad_bank (s : State) (n : Nat) v : (s.setQuad n v).bank = s.bank := rfl
@[simp] theorem State.setQuad_jtag (s : State) (n : Nat) v : (s.setQuad n v).jtag = s.jtag := rfl
@[simp] theorem State.setQuad_pending (s : State) (n : Nat) v : (s.setQuad n v).pending = s.pending := rfl

/-! ## setLink -/

@[simp] theorem State.setLink_now (s : State) (n : Nat) v : (s.setLink n v).now = s.now := rfl
@[simp] theorem State.setLink_dev (s : State) (n : Nat) v : (s.setLink n v).dev = s.dev := rfl
@[simp] theorem State.setLink_prev (s : State) (n : Nat) v : (s.setLink n v).prev = s.prev := rfl
@[simp] theorem State.setLink_devAt (s : State) (n : Nat) v : (s.setLink n v).devAt = s.devAt := rfl
@[simp] theorem State.setLink_pkts (s : State) (n : Nat) v : (s.setLink n v).pkts = s.pkts := rfl
@[simp] theorem State.setLink_regs (s : State) (n : Nat) v : (s.setLink n v).regs = s.regs := rfl
@[simp] theorem State.setLink_force (s : State) (n : Nat) v : (s.setLink n v).force = s.force := rfl
@[simp] theorem State.setLink_ports (s : State) (n : Nat) v : (s.setLink n v).ports = s.ports := rfl
@[simp] theorem State.setLink_seqNo (s : State) (n : Nat) v : (s.setLink n v).seqNo = s.seqNo := rfl
@[simp] theorem State.setLink_mem (s : State) (n : Nat) v : (s.setLink n v).mem = s.mem := rfl
@[simp] theorem State.setLink_time (s : State) (n : Nat) v : (s.setLink n v).time = s.time := rfl
@[simp] theorem State.setLink_power (s : State) (n : Nat) v : (s.setLink n v).power = s.power := rfl
@[simp] theorem State.setLink_boot (s : State) (n : Nat) v : (s.setLink n v).boot = s.boot := rfl
@[simp] theorem State.setLink_gov (s : State) (n : Nat) v : (s.setLink n v).gov = s.gov := rfl
@[simp] theorem State.setLink_islands (s : State) (n : Nat) v : (s.setLink n v).islands = s.islands := rfl
@[simp] theorem State.setLink_restore (s : State) (n : Nat) v : (s.setLink n v).restore = s.restore := rfl
@[simp] theorem State.setLink_sources (s : State) (n : Nat) v : (s.setLink n v).sources = s.sources := rfl
@[simp] theorem State.setLink_ends (s : State) (n : Nat) v : (s.setLink n v).ends = s.ends := rfl
@[simp] theorem State.setLink_chans (s : State) (n : Nat) v : (s.setLink n v).chans = s.chans := rfl
@[simp] theorem State.setLink_waves (s : State) (n : Nat) v : (s.setLink n v).waves = s.waves := rfl
@[simp] theorem State.setLink_slots (s : State) (n : Nat) v : (s.setLink n v).slots = s.slots := rfl
@[simp] theorem State.setLink_ctxs (s : State) (n : Nat) v : (s.setLink n v).ctxs = s.ctxs := rfl
@[simp] theorem State.setLink_stabs (s : State) (n : Nat) v : (s.setLink n v).stabs = s.stabs := rfl
@[simp] theorem State.setLink_engines (s : State) (n : Nat) v : (s.setLink n v).engines = s.engines := rfl
@[simp] theorem State.setLink_acqs (s : State) (n : Nat) v : (s.setLink n v).acqs = s.acqs := rfl
@[simp] theorem State.setLink_share (s : State) (n : Nat) v : (s.setLink n v).share = s.share := rfl
@[simp] theorem State.setLink_pans (s : State) (n : Nat) v : (s.setLink n v).pans = s.pans := rfl
@[simp] theorem State.setLink_crys (s : State) (n : Nat) v : (s.setLink n v).crys = s.crys := rfl
@[simp] theorem State.setLink_masks (s : State) (n : Nat) v : (s.setLink n v).masks = s.masks := rfl
@[simp] theorem State.setLink_rules (s : State) (n : Nat) v : (s.setLink n v).rules = s.rules := rfl
@[simp] theorem State.setLink_markers (s : State) (n : Nat) v : (s.setLink n v).markers = s.markers := rfl
@[simp] theorem State.setLink_trips (s : State) (n : Nat) v : (s.setLink n v).trips = s.trips := rfl
@[simp] theorem State.setLink_slus (s : State) (n : Nat) v : (s.setLink n v).slus = s.slus := rfl
@[simp] theorem State.setLink_slu (s : State) (n : Nat) v : (s.setLink n v).slu = s.slu := rfl
@[simp] theorem State.setLink_lanes (s : State) (n : Nat) v : (s.setLink n v).lanes = s.lanes := rfl
@[simp] theorem State.setLink_quads (s : State) (n : Nat) v : (s.setLink n v).quads = s.quads := rfl
@[simp] theorem State.setLink_links (s : State) (n : Nat) v : (s.setLink n v).links = SMap.set (fun _ => {}) s.links n v := rfl
@[simp] theorem State.setLink_life (s : State) (n : Nat) v : (s.setLink n v).life = s.life := rfl
@[simp] theorem State.setLink_hbm (s : State) (n : Nat) v : (s.setLink n v).hbm = s.hbm := rfl
@[simp] theorem State.setLink_bank (s : State) (n : Nat) v : (s.setLink n v).bank = s.bank := rfl
@[simp] theorem State.setLink_jtag (s : State) (n : Nat) v : (s.setLink n v).jtag = s.jtag := rfl
@[simp] theorem State.setLink_pending (s : State) (n : Nat) v : (s.setLink n v).pending = s.pending := rfl

/-! ## setIsland -/

@[simp] theorem State.setIsland_now (s : State) (n : Nat) v : (s.setIsland n v).now = s.now := rfl
@[simp] theorem State.setIsland_dev (s : State) (n : Nat) v : (s.setIsland n v).dev = s.dev := rfl
@[simp] theorem State.setIsland_prev (s : State) (n : Nat) v : (s.setIsland n v).prev = s.prev := rfl
@[simp] theorem State.setIsland_devAt (s : State) (n : Nat) v : (s.setIsland n v).devAt = s.devAt := rfl
@[simp] theorem State.setIsland_pkts (s : State) (n : Nat) v : (s.setIsland n v).pkts = s.pkts := rfl
@[simp] theorem State.setIsland_regs (s : State) (n : Nat) v : (s.setIsland n v).regs = s.regs := rfl
@[simp] theorem State.setIsland_force (s : State) (n : Nat) v : (s.setIsland n v).force = s.force := rfl
@[simp] theorem State.setIsland_ports (s : State) (n : Nat) v : (s.setIsland n v).ports = s.ports := rfl
@[simp] theorem State.setIsland_seqNo (s : State) (n : Nat) v : (s.setIsland n v).seqNo = s.seqNo := rfl
@[simp] theorem State.setIsland_mem (s : State) (n : Nat) v : (s.setIsland n v).mem = s.mem := rfl
@[simp] theorem State.setIsland_time (s : State) (n : Nat) v : (s.setIsland n v).time = s.time := rfl
@[simp] theorem State.setIsland_power (s : State) (n : Nat) v : (s.setIsland n v).power = s.power := rfl
@[simp] theorem State.setIsland_boot (s : State) (n : Nat) v : (s.setIsland n v).boot = s.boot := rfl
@[simp] theorem State.setIsland_gov (s : State) (n : Nat) v : (s.setIsland n v).gov = s.gov := rfl
@[simp] theorem State.setIsland_islands (s : State) (n : Nat) v : (s.setIsland n v).islands = SMap.set (fun _ => {}) s.islands n v := rfl
@[simp] theorem State.setIsland_restore (s : State) (n : Nat) v : (s.setIsland n v).restore = s.restore := rfl
@[simp] theorem State.setIsland_sources (s : State) (n : Nat) v : (s.setIsland n v).sources = s.sources := rfl
@[simp] theorem State.setIsland_ends (s : State) (n : Nat) v : (s.setIsland n v).ends = s.ends := rfl
@[simp] theorem State.setIsland_chans (s : State) (n : Nat) v : (s.setIsland n v).chans = s.chans := rfl
@[simp] theorem State.setIsland_waves (s : State) (n : Nat) v : (s.setIsland n v).waves = s.waves := rfl
@[simp] theorem State.setIsland_slots (s : State) (n : Nat) v : (s.setIsland n v).slots = s.slots := rfl
@[simp] theorem State.setIsland_ctxs (s : State) (n : Nat) v : (s.setIsland n v).ctxs = s.ctxs := rfl
@[simp] theorem State.setIsland_stabs (s : State) (n : Nat) v : (s.setIsland n v).stabs = s.stabs := rfl
@[simp] theorem State.setIsland_engines (s : State) (n : Nat) v : (s.setIsland n v).engines = s.engines := rfl
@[simp] theorem State.setIsland_acqs (s : State) (n : Nat) v : (s.setIsland n v).acqs = s.acqs := rfl
@[simp] theorem State.setIsland_share (s : State) (n : Nat) v : (s.setIsland n v).share = s.share := rfl
@[simp] theorem State.setIsland_pans (s : State) (n : Nat) v : (s.setIsland n v).pans = s.pans := rfl
@[simp] theorem State.setIsland_crys (s : State) (n : Nat) v : (s.setIsland n v).crys = s.crys := rfl
@[simp] theorem State.setIsland_masks (s : State) (n : Nat) v : (s.setIsland n v).masks = s.masks := rfl
@[simp] theorem State.setIsland_rules (s : State) (n : Nat) v : (s.setIsland n v).rules = s.rules := rfl
@[simp] theorem State.setIsland_markers (s : State) (n : Nat) v : (s.setIsland n v).markers = s.markers := rfl
@[simp] theorem State.setIsland_trips (s : State) (n : Nat) v : (s.setIsland n v).trips = s.trips := rfl
@[simp] theorem State.setIsland_slus (s : State) (n : Nat) v : (s.setIsland n v).slus = s.slus := rfl
@[simp] theorem State.setIsland_slu (s : State) (n : Nat) v : (s.setIsland n v).slu = s.slu := rfl
@[simp] theorem State.setIsland_lanes (s : State) (n : Nat) v : (s.setIsland n v).lanes = s.lanes := rfl
@[simp] theorem State.setIsland_quads (s : State) (n : Nat) v : (s.setIsland n v).quads = s.quads := rfl
@[simp] theorem State.setIsland_links (s : State) (n : Nat) v : (s.setIsland n v).links = s.links := rfl
@[simp] theorem State.setIsland_life (s : State) (n : Nat) v : (s.setIsland n v).life = s.life := rfl
@[simp] theorem State.setIsland_hbm (s : State) (n : Nat) v : (s.setIsland n v).hbm = s.hbm := rfl
@[simp] theorem State.setIsland_bank (s : State) (n : Nat) v : (s.setIsland n v).bank = s.bank := rfl
@[simp] theorem State.setIsland_jtag (s : State) (n : Nat) v : (s.setIsland n v).jtag = s.jtag := rfl
@[simp] theorem State.setIsland_pending (s : State) (n : Nat) v : (s.setIsland n v).pending = s.pending := rfl

/-! ## setRest -/

@[simp] theorem State.setRest_now (s : State) (n : Nat) v : (s.setRest n v).now = s.now := rfl
@[simp] theorem State.setRest_dev (s : State) (n : Nat) v : (s.setRest n v).dev = s.dev := rfl
@[simp] theorem State.setRest_prev (s : State) (n : Nat) v : (s.setRest n v).prev = s.prev := rfl
@[simp] theorem State.setRest_devAt (s : State) (n : Nat) v : (s.setRest n v).devAt = s.devAt := rfl
@[simp] theorem State.setRest_pkts (s : State) (n : Nat) v : (s.setRest n v).pkts = s.pkts := rfl
@[simp] theorem State.setRest_regs (s : State) (n : Nat) v : (s.setRest n v).regs = s.regs := rfl
@[simp] theorem State.setRest_force (s : State) (n : Nat) v : (s.setRest n v).force = s.force := rfl
@[simp] theorem State.setRest_ports (s : State) (n : Nat) v : (s.setRest n v).ports = s.ports := rfl
@[simp] theorem State.setRest_seqNo (s : State) (n : Nat) v : (s.setRest n v).seqNo = s.seqNo := rfl
@[simp] theorem State.setRest_mem (s : State) (n : Nat) v : (s.setRest n v).mem = s.mem := rfl
@[simp] theorem State.setRest_time (s : State) (n : Nat) v : (s.setRest n v).time = s.time := rfl
@[simp] theorem State.setRest_power (s : State) (n : Nat) v : (s.setRest n v).power = s.power := rfl
@[simp] theorem State.setRest_boot (s : State) (n : Nat) v : (s.setRest n v).boot = s.boot := rfl
@[simp] theorem State.setRest_gov (s : State) (n : Nat) v : (s.setRest n v).gov = s.gov := rfl
@[simp] theorem State.setRest_islands (s : State) (n : Nat) v : (s.setRest n v).islands = s.islands := rfl
@[simp] theorem State.setRest_restore (s : State) (n : Nat) v : (s.setRest n v).restore = SMap.set (fun _ => {}) s.restore n v := rfl
@[simp] theorem State.setRest_sources (s : State) (n : Nat) v : (s.setRest n v).sources = s.sources := rfl
@[simp] theorem State.setRest_ends (s : State) (n : Nat) v : (s.setRest n v).ends = s.ends := rfl
@[simp] theorem State.setRest_chans (s : State) (n : Nat) v : (s.setRest n v).chans = s.chans := rfl
@[simp] theorem State.setRest_waves (s : State) (n : Nat) v : (s.setRest n v).waves = s.waves := rfl
@[simp] theorem State.setRest_slots (s : State) (n : Nat) v : (s.setRest n v).slots = s.slots := rfl
@[simp] theorem State.setRest_ctxs (s : State) (n : Nat) v : (s.setRest n v).ctxs = s.ctxs := rfl
@[simp] theorem State.setRest_stabs (s : State) (n : Nat) v : (s.setRest n v).stabs = s.stabs := rfl
@[simp] theorem State.setRest_engines (s : State) (n : Nat) v : (s.setRest n v).engines = s.engines := rfl
@[simp] theorem State.setRest_acqs (s : State) (n : Nat) v : (s.setRest n v).acqs = s.acqs := rfl
@[simp] theorem State.setRest_share (s : State) (n : Nat) v : (s.setRest n v).share = s.share := rfl
@[simp] theorem State.setRest_pans (s : State) (n : Nat) v : (s.setRest n v).pans = s.pans := rfl
@[simp] theorem State.setRest_crys (s : State) (n : Nat) v : (s.setRest n v).crys = s.crys := rfl
@[simp] theorem State.setRest_masks (s : State) (n : Nat) v : (s.setRest n v).masks = s.masks := rfl
@[simp] theorem State.setRest_rules (s : State) (n : Nat) v : (s.setRest n v).rules = s.rules := rfl
@[simp] theorem State.setRest_markers (s : State) (n : Nat) v : (s.setRest n v).markers = s.markers := rfl
@[simp] theorem State.setRest_trips (s : State) (n : Nat) v : (s.setRest n v).trips = s.trips := rfl
@[simp] theorem State.setRest_slus (s : State) (n : Nat) v : (s.setRest n v).slus = s.slus := rfl
@[simp] theorem State.setRest_slu (s : State) (n : Nat) v : (s.setRest n v).slu = s.slu := rfl
@[simp] theorem State.setRest_lanes (s : State) (n : Nat) v : (s.setRest n v).lanes = s.lanes := rfl
@[simp] theorem State.setRest_quads (s : State) (n : Nat) v : (s.setRest n v).quads = s.quads := rfl
@[simp] theorem State.setRest_links (s : State) (n : Nat) v : (s.setRest n v).links = s.links := rfl
@[simp] theorem State.setRest_life (s : State) (n : Nat) v : (s.setRest n v).life = s.life := rfl
@[simp] theorem State.setRest_hbm (s : State) (n : Nat) v : (s.setRest n v).hbm = s.hbm := rfl
@[simp] theorem State.setRest_bank (s : State) (n : Nat) v : (s.setRest n v).bank = s.bank := rfl
@[simp] theorem State.setRest_jtag (s : State) (n : Nat) v : (s.setRest n v).jtag = s.jtag := rfl
@[simp] theorem State.setRest_pending (s : State) (n : Nat) v : (s.setRest n v).pending = s.pending := rfl

/-! ## put -/

@[simp] theorem State.put_now (s : State) (f : Fld) (i v : Nat) : (s.put f i v).now = s.now := rfl
@[simp] theorem State.put_dev (s : State) (f : Fld) (i v : Nat) : (s.put f i v).dev = s.dev := rfl
@[simp] theorem State.put_prev (s : State) (f : Fld) (i v : Nat) : (s.put f i v).prev = s.prev := rfl
@[simp] theorem State.put_devAt (s : State) (f : Fld) (i v : Nat) : (s.put f i v).devAt = s.devAt := rfl
@[simp] theorem State.put_pkts (s : State) (f : Fld) (i v : Nat) : (s.put f i v).pkts = s.pkts := rfl
@[simp] theorem State.put_regs (s : State) (f : Fld) (i v : Nat) : (s.put f i v).regs = SMap.set regDefault s.regs (f.key i) (v % 2 ^ f.desc.w) := rfl
@[simp] theorem State.put_force (s : State) (f : Fld) (i v : Nat) : (s.put f i v).force = s.force := rfl
@[simp] theorem State.put_ports (s : State) (f : Fld) (i v : Nat) : (s.put f i v).ports = s.ports := rfl
@[simp] theorem State.put_seqNo (s : State) (f : Fld) (i v : Nat) : (s.put f i v).seqNo = s.seqNo := rfl
@[simp] theorem State.put_mem (s : State) (f : Fld) (i v : Nat) : (s.put f i v).mem = s.mem := rfl
@[simp] theorem State.put_time (s : State) (f : Fld) (i v : Nat) : (s.put f i v).time = s.time := rfl
@[simp] theorem State.put_power (s : State) (f : Fld) (i v : Nat) : (s.put f i v).power = s.power := rfl
@[simp] theorem State.put_boot (s : State) (f : Fld) (i v : Nat) : (s.put f i v).boot = s.boot := rfl
@[simp] theorem State.put_gov (s : State) (f : Fld) (i v : Nat) : (s.put f i v).gov = s.gov := rfl
@[simp] theorem State.put_islands (s : State) (f : Fld) (i v : Nat) : (s.put f i v).islands = s.islands := rfl
@[simp] theorem State.put_restore (s : State) (f : Fld) (i v : Nat) : (s.put f i v).restore = s.restore := rfl
@[simp] theorem State.put_sources (s : State) (f : Fld) (i v : Nat) : (s.put f i v).sources = s.sources := rfl
@[simp] theorem State.put_ends (s : State) (f : Fld) (i v : Nat) : (s.put f i v).ends = s.ends := rfl
@[simp] theorem State.put_chans (s : State) (f : Fld) (i v : Nat) : (s.put f i v).chans = s.chans := rfl
@[simp] theorem State.put_waves (s : State) (f : Fld) (i v : Nat) : (s.put f i v).waves = s.waves := rfl
@[simp] theorem State.put_slots (s : State) (f : Fld) (i v : Nat) : (s.put f i v).slots = s.slots := rfl
@[simp] theorem State.put_ctxs (s : State) (f : Fld) (i v : Nat) : (s.put f i v).ctxs = s.ctxs := rfl
@[simp] theorem State.put_stabs (s : State) (f : Fld) (i v : Nat) : (s.put f i v).stabs = s.stabs := rfl
@[simp] theorem State.put_engines (s : State) (f : Fld) (i v : Nat) : (s.put f i v).engines = s.engines := rfl
@[simp] theorem State.put_acqs (s : State) (f : Fld) (i v : Nat) : (s.put f i v).acqs = s.acqs := rfl
@[simp] theorem State.put_share (s : State) (f : Fld) (i v : Nat) : (s.put f i v).share = s.share := rfl
@[simp] theorem State.put_pans (s : State) (f : Fld) (i v : Nat) : (s.put f i v).pans = s.pans := rfl
@[simp] theorem State.put_crys (s : State) (f : Fld) (i v : Nat) : (s.put f i v).crys = s.crys := rfl
@[simp] theorem State.put_masks (s : State) (f : Fld) (i v : Nat) : (s.put f i v).masks = s.masks := rfl
@[simp] theorem State.put_rules (s : State) (f : Fld) (i v : Nat) : (s.put f i v).rules = s.rules := rfl
@[simp] theorem State.put_markers (s : State) (f : Fld) (i v : Nat) : (s.put f i v).markers = s.markers := rfl
@[simp] theorem State.put_trips (s : State) (f : Fld) (i v : Nat) : (s.put f i v).trips = s.trips := rfl
@[simp] theorem State.put_slus (s : State) (f : Fld) (i v : Nat) : (s.put f i v).slus = s.slus := rfl
@[simp] theorem State.put_slu (s : State) (f : Fld) (i v : Nat) : (s.put f i v).slu = s.slu := rfl
@[simp] theorem State.put_lanes (s : State) (f : Fld) (i v : Nat) : (s.put f i v).lanes = s.lanes := rfl
@[simp] theorem State.put_quads (s : State) (f : Fld) (i v : Nat) : (s.put f i v).quads = s.quads := rfl
@[simp] theorem State.put_links (s : State) (f : Fld) (i v : Nat) : (s.put f i v).links = s.links := rfl
@[simp] theorem State.put_life (s : State) (f : Fld) (i v : Nat) : (s.put f i v).life = s.life := rfl
@[simp] theorem State.put_hbm (s : State) (f : Fld) (i v : Nat) : (s.put f i v).hbm = s.hbm := rfl
@[simp] theorem State.put_bank (s : State) (f : Fld) (i v : Nat) : (s.put f i v).bank = s.bank := rfl
@[simp] theorem State.put_jtag (s : State) (f : Fld) (i v : Nat) : (s.put f i v).jtag = s.jtag := rfl
@[simp] theorem State.put_pending (s : State) (f : Fld) (i v : Nat) : (s.put f i v).pending = s.pending := rfl

/-! ## apply -/

@[simp] theorem State.apply_now (s : State) (f : Fld) (i : Nat) : (s.apply f i).now = s.now := rfl
@[simp] theorem State.apply_dev (s : State) (f : Fld) (i : Nat) : (s.apply f i).dev = s.dev := rfl
@[simp] theorem State.apply_prev (s : State) (f : Fld) (i : Nat) : (s.apply f i).prev = s.prev := rfl
@[simp] theorem State.apply_devAt (s : State) (f : Fld) (i : Nat) : (s.apply f i).devAt = s.devAt := rfl
@[simp] theorem State.apply_pkts (s : State) (f : Fld) (i : Nat) : (s.apply f i).pkts = s.pkts := rfl
@[simp] theorem State.apply_regs (s : State) (f : Fld) (i : Nat) : (s.apply f i).regs = s.regs := rfl
@[simp] theorem State.apply_force (s : State) (f : Fld) (i : Nat) : (s.apply f i).force = SMap.set regDefault s.force (f.key i) (s.get f i) := rfl
@[simp] theorem State.apply_ports (s : State) (f : Fld) (i : Nat) : (s.apply f i).ports = s.ports := rfl
@[simp] theorem State.apply_seqNo (s : State) (f : Fld) (i : Nat) : (s.apply f i).seqNo = s.seqNo := rfl
@[simp] theorem State.apply_mem (s : State) (f : Fld) (i : Nat) : (s.apply f i).mem = s.mem := rfl
@[simp] theorem State.apply_time (s : State) (f : Fld) (i : Nat) : (s.apply f i).time = s.time := rfl
@[simp] theorem State.apply_power (s : State) (f : Fld) (i : Nat) : (s.apply f i).power = s.power := rfl
@[simp] theorem State.apply_boot (s : State) (f : Fld) (i : Nat) : (s.apply f i).boot = s.boot := rfl
@[simp] theorem State.apply_gov (s : State) (f : Fld) (i : Nat) : (s.apply f i).gov = s.gov := rfl
@[simp] theorem State.apply_islands (s : State) (f : Fld) (i : Nat) : (s.apply f i).islands = s.islands := rfl
@[simp] theorem State.apply_restore (s : State) (f : Fld) (i : Nat) : (s.apply f i).restore = s.restore := rfl
@[simp] theorem State.apply_sources (s : State) (f : Fld) (i : Nat) : (s.apply f i).sources = s.sources := rfl
@[simp] theorem State.apply_ends (s : State) (f : Fld) (i : Nat) : (s.apply f i).ends = s.ends := rfl
@[simp] theorem State.apply_chans (s : State) (f : Fld) (i : Nat) : (s.apply f i).chans = s.chans := rfl
@[simp] theorem State.apply_waves (s : State) (f : Fld) (i : Nat) : (s.apply f i).waves = s.waves := rfl
@[simp] theorem State.apply_slots (s : State) (f : Fld) (i : Nat) : (s.apply f i).slots = s.slots := rfl
@[simp] theorem State.apply_ctxs (s : State) (f : Fld) (i : Nat) : (s.apply f i).ctxs = s.ctxs := rfl
@[simp] theorem State.apply_stabs (s : State) (f : Fld) (i : Nat) : (s.apply f i).stabs = s.stabs := rfl
@[simp] theorem State.apply_engines (s : State) (f : Fld) (i : Nat) : (s.apply f i).engines = s.engines := rfl
@[simp] theorem State.apply_acqs (s : State) (f : Fld) (i : Nat) : (s.apply f i).acqs = s.acqs := rfl
@[simp] theorem State.apply_share (s : State) (f : Fld) (i : Nat) : (s.apply f i).share = s.share := rfl
@[simp] theorem State.apply_pans (s : State) (f : Fld) (i : Nat) : (s.apply f i).pans = s.pans := rfl
@[simp] theorem State.apply_crys (s : State) (f : Fld) (i : Nat) : (s.apply f i).crys = s.crys := rfl
@[simp] theorem State.apply_masks (s : State) (f : Fld) (i : Nat) : (s.apply f i).masks = s.masks := rfl
@[simp] theorem State.apply_rules (s : State) (f : Fld) (i : Nat) : (s.apply f i).rules = s.rules := rfl
@[simp] theorem State.apply_markers (s : State) (f : Fld) (i : Nat) : (s.apply f i).markers = s.markers := rfl
@[simp] theorem State.apply_trips (s : State) (f : Fld) (i : Nat) : (s.apply f i).trips = s.trips := rfl
@[simp] theorem State.apply_slus (s : State) (f : Fld) (i : Nat) : (s.apply f i).slus = s.slus := rfl
@[simp] theorem State.apply_slu (s : State) (f : Fld) (i : Nat) : (s.apply f i).slu = s.slu := rfl
@[simp] theorem State.apply_lanes (s : State) (f : Fld) (i : Nat) : (s.apply f i).lanes = s.lanes := rfl
@[simp] theorem State.apply_quads (s : State) (f : Fld) (i : Nat) : (s.apply f i).quads = s.quads := rfl
@[simp] theorem State.apply_links (s : State) (f : Fld) (i : Nat) : (s.apply f i).links = s.links := rfl
@[simp] theorem State.apply_life (s : State) (f : Fld) (i : Nat) : (s.apply f i).life = s.life := rfl
@[simp] theorem State.apply_hbm (s : State) (f : Fld) (i : Nat) : (s.apply f i).hbm = s.hbm := rfl
@[simp] theorem State.apply_bank (s : State) (f : Fld) (i : Nat) : (s.apply f i).bank = s.bank := rfl
@[simp] theorem State.apply_jtag (s : State) (f : Fld) (i : Nat) : (s.apply f i).jtag = s.jtag := rfl
@[simp] theorem State.apply_pending (s : State) (f : Fld) (i : Nat) : (s.apply f i).pending = s.pending := rfl

/-! ## writeByte -/

@[simp] theorem State.writeByte_now (s : State) (a : Nat) (b : BitVec 8) : (s.writeByte a b).now = s.now := rfl
@[simp] theorem State.writeByte_dev (s : State) (a : Nat) (b : BitVec 8) : (s.writeByte a b).dev = s.dev := rfl
@[simp] theorem State.writeByte_prev (s : State) (a : Nat) (b : BitVec 8) : (s.writeByte a b).prev = s.prev := rfl
@[simp] theorem State.writeByte_devAt (s : State) (a : Nat) (b : BitVec 8) : (s.writeByte a b).devAt = s.devAt := rfl
@[simp] theorem State.writeByte_pkts (s : State) (a : Nat) (b : BitVec 8) : (s.writeByte a b).pkts = s.pkts := rfl
@[simp] theorem State.writeByte_regs (s : State) (a : Nat) (b : BitVec 8) : (s.writeByte a b).regs = s.regs := rfl
@[simp] theorem State.writeByte_force (s : State) (a : Nat) (b : BitVec 8) : (s.writeByte a b).force = s.force := rfl
@[simp] theorem State.writeByte_ports (s : State) (a : Nat) (b : BitVec 8) : (s.writeByte a b).ports = s.ports := rfl
@[simp] theorem State.writeByte_seqNo (s : State) (a : Nat) (b : BitVec 8) : (s.writeByte a b).seqNo = s.seqNo := rfl
@[simp] theorem State.writeByte_mem (s : State) (a : Nat) (b : BitVec 8) : (s.writeByte a b).mem = SMap.set memDefault s.mem a b := rfl
@[simp] theorem State.writeByte_time (s : State) (a : Nat) (b : BitVec 8) : (s.writeByte a b).time = s.time := rfl
@[simp] theorem State.writeByte_power (s : State) (a : Nat) (b : BitVec 8) : (s.writeByte a b).power = s.power := rfl
@[simp] theorem State.writeByte_boot (s : State) (a : Nat) (b : BitVec 8) : (s.writeByte a b).boot = s.boot := rfl
@[simp] theorem State.writeByte_gov (s : State) (a : Nat) (b : BitVec 8) : (s.writeByte a b).gov = s.gov := rfl
@[simp] theorem State.writeByte_islands (s : State) (a : Nat) (b : BitVec 8) : (s.writeByte a b).islands = s.islands := rfl
@[simp] theorem State.writeByte_restore (s : State) (a : Nat) (b : BitVec 8) : (s.writeByte a b).restore = s.restore := rfl
@[simp] theorem State.writeByte_sources (s : State) (a : Nat) (b : BitVec 8) : (s.writeByte a b).sources = s.sources := rfl
@[simp] theorem State.writeByte_ends (s : State) (a : Nat) (b : BitVec 8) : (s.writeByte a b).ends = s.ends := rfl
@[simp] theorem State.writeByte_chans (s : State) (a : Nat) (b : BitVec 8) : (s.writeByte a b).chans = s.chans := rfl
@[simp] theorem State.writeByte_waves (s : State) (a : Nat) (b : BitVec 8) : (s.writeByte a b).waves = s.waves := rfl
@[simp] theorem State.writeByte_slots (s : State) (a : Nat) (b : BitVec 8) : (s.writeByte a b).slots = s.slots := rfl
@[simp] theorem State.writeByte_ctxs (s : State) (a : Nat) (b : BitVec 8) : (s.writeByte a b).ctxs = s.ctxs := rfl
@[simp] theorem State.writeByte_stabs (s : State) (a : Nat) (b : BitVec 8) : (s.writeByte a b).stabs = s.stabs := rfl
@[simp] theorem State.writeByte_engines (s : State) (a : Nat) (b : BitVec 8) : (s.writeByte a b).engines = s.engines := rfl
@[simp] theorem State.writeByte_acqs (s : State) (a : Nat) (b : BitVec 8) : (s.writeByte a b).acqs = s.acqs := rfl
@[simp] theorem State.writeByte_share (s : State) (a : Nat) (b : BitVec 8) : (s.writeByte a b).share = s.share := rfl
@[simp] theorem State.writeByte_pans (s : State) (a : Nat) (b : BitVec 8) : (s.writeByte a b).pans = s.pans := rfl
@[simp] theorem State.writeByte_crys (s : State) (a : Nat) (b : BitVec 8) : (s.writeByte a b).crys = s.crys := rfl
@[simp] theorem State.writeByte_masks (s : State) (a : Nat) (b : BitVec 8) : (s.writeByte a b).masks = s.masks := rfl
@[simp] theorem State.writeByte_rules (s : State) (a : Nat) (b : BitVec 8) : (s.writeByte a b).rules = s.rules := rfl
@[simp] theorem State.writeByte_markers (s : State) (a : Nat) (b : BitVec 8) : (s.writeByte a b).markers = s.markers := rfl
@[simp] theorem State.writeByte_trips (s : State) (a : Nat) (b : BitVec 8) : (s.writeByte a b).trips = s.trips := rfl
@[simp] theorem State.writeByte_slus (s : State) (a : Nat) (b : BitVec 8) : (s.writeByte a b).slus = s.slus := rfl
@[simp] theorem State.writeByte_slu (s : State) (a : Nat) (b : BitVec 8) : (s.writeByte a b).slu = s.slu := rfl
@[simp] theorem State.writeByte_lanes (s : State) (a : Nat) (b : BitVec 8) : (s.writeByte a b).lanes = s.lanes := rfl
@[simp] theorem State.writeByte_quads (s : State) (a : Nat) (b : BitVec 8) : (s.writeByte a b).quads = s.quads := rfl
@[simp] theorem State.writeByte_links (s : State) (a : Nat) (b : BitVec 8) : (s.writeByte a b).links = s.links := rfl
@[simp] theorem State.writeByte_life (s : State) (a : Nat) (b : BitVec 8) : (s.writeByte a b).life = s.life := rfl
@[simp] theorem State.writeByte_hbm (s : State) (a : Nat) (b : BitVec 8) : (s.writeByte a b).hbm = s.hbm := rfl
@[simp] theorem State.writeByte_bank (s : State) (a : Nat) (b : BitVec 8) : (s.writeByte a b).bank = s.bank := rfl
@[simp] theorem State.writeByte_jtag (s : State) (a : Nat) (b : BitVec 8) : (s.writeByte a b).jtag = s.jtag := rfl
@[simp] theorem State.writeByte_pending (s : State) (a : Nat) (b : BitVec 8) : (s.writeByte a b).pending = s.pending := rfl

/-! ## at -/

@[simp] theorem State.at_now (s : State) (t : Nat) : (s.at t).now = max s.now t := rfl
@[simp] theorem State.at_dev (s : State) (t : Nat) : (s.at t).dev = s.dev := rfl
@[simp] theorem State.at_prev (s : State) (t : Nat) : (s.at t).prev = s.prev := rfl
@[simp] theorem State.at_devAt (s : State) (t : Nat) : (s.at t).devAt = s.devAt := rfl
@[simp] theorem State.at_pkts (s : State) (t : Nat) : (s.at t).pkts = s.pkts := rfl
@[simp] theorem State.at_regs (s : State) (t : Nat) : (s.at t).regs = s.regs := rfl
@[simp] theorem State.at_force (s : State) (t : Nat) : (s.at t).force = s.force := rfl
@[simp] theorem State.at_ports (s : State) (t : Nat) : (s.at t).ports = s.ports := rfl
@[simp] theorem State.at_seqNo (s : State) (t : Nat) : (s.at t).seqNo = s.seqNo := rfl
@[simp] theorem State.at_mem (s : State) (t : Nat) : (s.at t).mem = s.mem := rfl
@[simp] theorem State.at_time (s : State) (t : Nat) : (s.at t).time = s.time := rfl
@[simp] theorem State.at_power (s : State) (t : Nat) : (s.at t).power = s.power := rfl
@[simp] theorem State.at_boot (s : State) (t : Nat) : (s.at t).boot = s.boot := rfl
@[simp] theorem State.at_gov (s : State) (t : Nat) : (s.at t).gov = s.gov := rfl
@[simp] theorem State.at_islands (s : State) (t : Nat) : (s.at t).islands = s.islands := rfl
@[simp] theorem State.at_restore (s : State) (t : Nat) : (s.at t).restore = s.restore := rfl
@[simp] theorem State.at_sources (s : State) (t : Nat) : (s.at t).sources = s.sources := rfl
@[simp] theorem State.at_ends (s : State) (t : Nat) : (s.at t).ends = s.ends := rfl
@[simp] theorem State.at_chans (s : State) (t : Nat) : (s.at t).chans = s.chans := rfl
@[simp] theorem State.at_waves (s : State) (t : Nat) : (s.at t).waves = s.waves := rfl
@[simp] theorem State.at_slots (s : State) (t : Nat) : (s.at t).slots = s.slots := rfl
@[simp] theorem State.at_ctxs (s : State) (t : Nat) : (s.at t).ctxs = s.ctxs := rfl
@[simp] theorem State.at_stabs (s : State) (t : Nat) : (s.at t).stabs = s.stabs := rfl
@[simp] theorem State.at_engines (s : State) (t : Nat) : (s.at t).engines = s.engines := rfl
@[simp] theorem State.at_acqs (s : State) (t : Nat) : (s.at t).acqs = s.acqs := rfl
@[simp] theorem State.at_share (s : State) (t : Nat) : (s.at t).share = s.share := rfl
@[simp] theorem State.at_pans (s : State) (t : Nat) : (s.at t).pans = s.pans := rfl
@[simp] theorem State.at_crys (s : State) (t : Nat) : (s.at t).crys = s.crys := rfl
@[simp] theorem State.at_masks (s : State) (t : Nat) : (s.at t).masks = s.masks := rfl
@[simp] theorem State.at_rules (s : State) (t : Nat) : (s.at t).rules = s.rules := rfl
@[simp] theorem State.at_markers (s : State) (t : Nat) : (s.at t).markers = s.markers := rfl
@[simp] theorem State.at_trips (s : State) (t : Nat) : (s.at t).trips = s.trips := rfl
@[simp] theorem State.at_slus (s : State) (t : Nat) : (s.at t).slus = s.slus := rfl
@[simp] theorem State.at_slu (s : State) (t : Nat) : (s.at t).slu = s.slu := rfl
@[simp] theorem State.at_lanes (s : State) (t : Nat) : (s.at t).lanes = s.lanes := rfl
@[simp] theorem State.at_quads (s : State) (t : Nat) : (s.at t).quads = s.quads := rfl
@[simp] theorem State.at_links (s : State) (t : Nat) : (s.at t).links = s.links := rfl
@[simp] theorem State.at_life (s : State) (t : Nat) : (s.at t).life = s.life := rfl
@[simp] theorem State.at_hbm (s : State) (t : Nat) : (s.at t).hbm = s.hbm := rfl
@[simp] theorem State.at_bank (s : State) (t : Nat) : (s.at t).bank = s.bank := rfl
@[simp] theorem State.at_jtag (s : State) (t : Nat) : (s.at t).jtag = s.jtag := rfl
@[simp] theorem State.at_pending (s : State) (t : Nat) : (s.at t).pending = s.pending := rfl

/-! ## writeBytes -/

@[simp] theorem State.writeBytes_now (s : State) (a : Nat) (bs : List (BitVec 8)) : (s.writeBytes a bs).now = s.now := rfl
@[simp] theorem State.writeBytes_dev (s : State) (a : Nat) (bs : List (BitVec 8)) : (s.writeBytes a bs).dev = s.dev := rfl
@[simp] theorem State.writeBytes_prev (s : State) (a : Nat) (bs : List (BitVec 8)) : (s.writeBytes a bs).prev = s.prev := rfl
@[simp] theorem State.writeBytes_devAt (s : State) (a : Nat) (bs : List (BitVec 8)) : (s.writeBytes a bs).devAt = s.devAt := rfl
@[simp] theorem State.writeBytes_pkts (s : State) (a : Nat) (bs : List (BitVec 8)) : (s.writeBytes a bs).pkts = s.pkts := rfl
@[simp] theorem State.writeBytes_regs (s : State) (a : Nat) (bs : List (BitVec 8)) : (s.writeBytes a bs).regs = s.regs := rfl
@[simp] theorem State.writeBytes_force (s : State) (a : Nat) (bs : List (BitVec 8)) : (s.writeBytes a bs).force = s.force := rfl
@[simp] theorem State.writeBytes_ports (s : State) (a : Nat) (bs : List (BitVec 8)) : (s.writeBytes a bs).ports = s.ports := rfl
@[simp] theorem State.writeBytes_seqNo (s : State) (a : Nat) (bs : List (BitVec 8)) : (s.writeBytes a bs).seqNo = s.seqNo := rfl
@[simp] theorem State.writeBytes_mem (s : State) (a : Nat) (bs : List (BitVec 8)) : (s.writeBytes a bs).mem = memWrite s.mem a bs := rfl
@[simp] theorem State.writeBytes_time (s : State) (a : Nat) (bs : List (BitVec 8)) : (s.writeBytes a bs).time = s.time := rfl
@[simp] theorem State.writeBytes_power (s : State) (a : Nat) (bs : List (BitVec 8)) : (s.writeBytes a bs).power = s.power := rfl
@[simp] theorem State.writeBytes_boot (s : State) (a : Nat) (bs : List (BitVec 8)) : (s.writeBytes a bs).boot = s.boot := rfl
@[simp] theorem State.writeBytes_gov (s : State) (a : Nat) (bs : List (BitVec 8)) : (s.writeBytes a bs).gov = s.gov := rfl
@[simp] theorem State.writeBytes_islands (s : State) (a : Nat) (bs : List (BitVec 8)) : (s.writeBytes a bs).islands = s.islands := rfl
@[simp] theorem State.writeBytes_restore (s : State) (a : Nat) (bs : List (BitVec 8)) : (s.writeBytes a bs).restore = s.restore := rfl
@[simp] theorem State.writeBytes_sources (s : State) (a : Nat) (bs : List (BitVec 8)) : (s.writeBytes a bs).sources = s.sources := rfl
@[simp] theorem State.writeBytes_ends (s : State) (a : Nat) (bs : List (BitVec 8)) : (s.writeBytes a bs).ends = s.ends := rfl
@[simp] theorem State.writeBytes_chans (s : State) (a : Nat) (bs : List (BitVec 8)) : (s.writeBytes a bs).chans = s.chans := rfl
@[simp] theorem State.writeBytes_waves (s : State) (a : Nat) (bs : List (BitVec 8)) : (s.writeBytes a bs).waves = s.waves := rfl
@[simp] theorem State.writeBytes_slots (s : State) (a : Nat) (bs : List (BitVec 8)) : (s.writeBytes a bs).slots = s.slots := rfl
@[simp] theorem State.writeBytes_ctxs (s : State) (a : Nat) (bs : List (BitVec 8)) : (s.writeBytes a bs).ctxs = s.ctxs := rfl
@[simp] theorem State.writeBytes_stabs (s : State) (a : Nat) (bs : List (BitVec 8)) : (s.writeBytes a bs).stabs = s.stabs := rfl
@[simp] theorem State.writeBytes_engines (s : State) (a : Nat) (bs : List (BitVec 8)) : (s.writeBytes a bs).engines = s.engines := rfl
@[simp] theorem State.writeBytes_acqs (s : State) (a : Nat) (bs : List (BitVec 8)) : (s.writeBytes a bs).acqs = s.acqs := rfl
@[simp] theorem State.writeBytes_share (s : State) (a : Nat) (bs : List (BitVec 8)) : (s.writeBytes a bs).share = s.share := rfl
@[simp] theorem State.writeBytes_pans (s : State) (a : Nat) (bs : List (BitVec 8)) : (s.writeBytes a bs).pans = s.pans := rfl
@[simp] theorem State.writeBytes_crys (s : State) (a : Nat) (bs : List (BitVec 8)) : (s.writeBytes a bs).crys = s.crys := rfl
@[simp] theorem State.writeBytes_masks (s : State) (a : Nat) (bs : List (BitVec 8)) : (s.writeBytes a bs).masks = s.masks := rfl
@[simp] theorem State.writeBytes_rules (s : State) (a : Nat) (bs : List (BitVec 8)) : (s.writeBytes a bs).rules = s.rules := rfl
@[simp] theorem State.writeBytes_markers (s : State) (a : Nat) (bs : List (BitVec 8)) : (s.writeBytes a bs).markers = s.markers := rfl
@[simp] theorem State.writeBytes_trips (s : State) (a : Nat) (bs : List (BitVec 8)) : (s.writeBytes a bs).trips = s.trips := rfl
@[simp] theorem State.writeBytes_slus (s : State) (a : Nat) (bs : List (BitVec 8)) : (s.writeBytes a bs).slus = s.slus := rfl
@[simp] theorem State.writeBytes_slu (s : State) (a : Nat) (bs : List (BitVec 8)) : (s.writeBytes a bs).slu = s.slu := rfl
@[simp] theorem State.writeBytes_lanes (s : State) (a : Nat) (bs : List (BitVec 8)) : (s.writeBytes a bs).lanes = s.lanes := rfl
@[simp] theorem State.writeBytes_quads (s : State) (a : Nat) (bs : List (BitVec 8)) : (s.writeBytes a bs).quads = s.quads := rfl
@[simp] theorem State.writeBytes_links (s : State) (a : Nat) (bs : List (BitVec 8)) : (s.writeBytes a bs).links = s.links := rfl
@[simp] theorem State.writeBytes_life (s : State) (a : Nat) (bs : List (BitVec 8)) : (s.writeBytes a bs).life = s.life := rfl
@[simp] theorem State.writeBytes_hbm (s : State) (a : Nat) (bs : List (BitVec 8)) : (s.writeBytes a bs).hbm = s.hbm := rfl
@[simp] theorem State.writeBytes_bank (s : State) (a : Nat) (bs : List (BitVec 8)) : (s.writeBytes a bs).bank = s.bank := rfl
@[simp] theorem State.writeBytes_jtag (s : State) (a : Nat) (bs : List (BitVec 8)) : (s.writeBytes a bs).jtag = s.jtag := rfl
@[simp] theorem State.writeBytes_pending (s : State) (a : Nat) (bs : List (BitVec 8)) : (s.writeBytes a bs).pending = s.pending := rfl

/-! ## Free values -/

@[simp] theorem State.free_now (s : State) : s.free.2.now = s.now := rfl
@[simp] theorem State.free_dev (s : State) : s.free.2.dev = s.dev := rfl
@[simp] theorem State.free_prev (s : State) : s.free.2.prev = s.prev := rfl
@[simp] theorem State.free_devAt (s : State) : s.free.2.devAt = s.devAt := rfl
@[simp] theorem State.free_pkts (s : State) : s.free.2.pkts = s.pkts := rfl
@[simp] theorem State.free_regs (s : State) : s.free.2.regs = s.regs := rfl
@[simp] theorem State.free_force (s : State) : s.free.2.force = s.force := rfl
@[simp] theorem State.free_ports (s : State) : s.free.2.ports = s.ports := rfl
@[simp] theorem State.free_seqNo (s : State) : s.free.2.seqNo = s.seqNo + 1 := rfl
@[simp] theorem State.free_mem (s : State) : s.free.2.mem = s.mem := rfl
@[simp] theorem State.free_time (s : State) : s.free.2.time = s.time := rfl
@[simp] theorem State.free_power (s : State) : s.free.2.power = s.power := rfl
@[simp] theorem State.free_boot (s : State) : s.free.2.boot = s.boot := rfl
@[simp] theorem State.free_gov (s : State) : s.free.2.gov = s.gov := rfl
@[simp] theorem State.free_islands (s : State) : s.free.2.islands = s.islands := rfl
@[simp] theorem State.free_restore (s : State) : s.free.2.restore = s.restore := rfl
@[simp] theorem State.free_sources (s : State) : s.free.2.sources = s.sources := rfl
@[simp] theorem State.free_ends (s : State) : s.free.2.ends = s.ends := rfl
@[simp] theorem State.free_chans (s : State) : s.free.2.chans = s.chans := rfl
@[simp] theorem State.free_waves (s : State) : s.free.2.waves = s.waves := rfl
@[simp] theorem State.free_slots (s : State) : s.free.2.slots = s.slots := rfl
@[simp] theorem State.free_ctxs (s : State) : s.free.2.ctxs = s.ctxs := rfl
@[simp] theorem State.free_stabs (s : State) : s.free.2.stabs = s.stabs := rfl
@[simp] theorem State.free_engines (s : State) : s.free.2.engines = s.engines := rfl
@[simp] theorem State.free_acqs (s : State) : s.free.2.acqs = s.acqs := rfl
@[simp] theorem State.free_pans (s : State) : s.free.2.pans = s.pans := rfl
@[simp] theorem State.free_crys (s : State) : s.free.2.crys = s.crys := rfl
@[simp] theorem State.free_masks (s : State) : s.free.2.masks = s.masks := rfl
@[simp] theorem State.free_rules (s : State) : s.free.2.rules = s.rules := rfl
@[simp] theorem State.free_markers (s : State) : s.free.2.markers = s.markers := rfl
@[simp] theorem State.free_trips (s : State) : s.free.2.trips = s.trips := rfl
@[simp] theorem State.free_slus (s : State) : s.free.2.slus = s.slus := rfl
@[simp] theorem State.free_slu (s : State) : s.free.2.slu = s.slu := rfl
@[simp] theorem State.free_lanes (s : State) : s.free.2.lanes = s.lanes := rfl
@[simp] theorem State.free_quads (s : State) : s.free.2.quads = s.quads := rfl
@[simp] theorem State.free_links (s : State) : s.free.2.links = s.links := rfl
@[simp] theorem State.free_life (s : State) : s.free.2.life = s.life := rfl
@[simp] theorem State.free_hbm (s : State) : s.free.2.hbm = s.hbm := rfl
@[simp] theorem State.free_bank (s : State) : s.free.2.bank = s.bank := rfl
@[simp] theorem State.free_jtag (s : State) : s.free.2.jtag = s.jtag := rfl
@[simp] theorem State.free_pending (s : State) : s.free.2.pending = s.pending := rfl

end Sys2Proof.Machine
end

