-- ==== Sys2Proof/Laws/Ops.lean ====
section
/-!
SUPPORT. What the named operations do, said once: register fields (read after write, width), memory (read after write, the
canonical form), event flags, and what every part of a command keeps.
-/

namespace Sys2Proof.Machine

/-! ## Register fields -/

theorem Fld.ctorIdx_lt (f : Fld) : f.ctorIdx < 1024 := by cases f <;> decide

theorem Fld.key_mod (f : Fld) (i : Nat) : f.key i % 1024 = f.ctorIdx := by
  have := f.ctorIdx_lt
  simp only [Fld.key]; omega

theorem Fld.key_div (f : Fld) (i : Nat) : f.key i / 1024 = i := by
  have := f.ctorIdx_lt
  simp only [Fld.key]; omega

/-- The number of a field of an instance names both. -/
theorem Fld.key_inj {f g : Fld} {i j : Nat} (h : f.key i = g.key j) : f = g ∧ i = j := by
  have h1 : f.ctorIdx = g.ctorIdx := by rw [← f.key_mod i, ← g.key_mod j, h]
  refine ⟨?_, by rw [← f.key_div i, ← g.key_div j, h]⟩
  rw [← Fld.ofNat_ctorIdx f, ← Fld.ofNat_ctorIdx g, h1]

theorem Fld.ofNat_key (f : Fld) (i : Nat) : Fld.ofNat (f.key i % 1024) = f := by rw [Fld.key_mod, Fld.ofNat_ctorIdx]

theorem Fld.tableReset_lt (f : Fld) : f.tableReset < 2 ^ f.desc.w := by cases f <;> decide

/-- A reset value lies in its field's width. -/
theorem Fld.reset_lt (f : Fld) (i : Nat) : f.reset i < 2 ^ f.desc.w := by
  unfold Fld.reset
  split
  · rw [List.getD_eq_getElem?_getD]
    have h : ∀ x ∈ [339000, 3600, 1200, 4500, 12, 45, 3750, 2100], x < 2 ^ Fld.PWR_COST_COST.desc.w := by decide
    cases e : [339000, 3600, 1200, 4500, 12, 45, 3750, 2100][i]? with
    | none => decide
    | some x => exact h x (List.mem_of_getElem? e)
  · exact Nat.mod_lt i (by decide)
  · exact Fld.tableReset_lt f

theorem regDefault_lt (k : Nat) : regDefault k < 2 ^ (Fld.ofNat (k % 1024)).desc.w := Fld.reset_lt _ _

theorem regDefault_key (f : Fld) (i : Nat) : regDefault (f.key i) = f.reset i := by
  unfold regDefault; rw [Fld.ofNat_key, Fld.key_div]

theorem regsFit_set {m : SMap Nat} {f : Fld} {i v : Nat} (h : regsFit m = true) (hv : v < 2 ^ f.desc.w) :
    regsFit (SMap.set regDefault m (f.key i) v) = true := by
  simp only [regsFit, Bool.and_eq_true, List.all_eq_true] at h ⊢
  refine ⟨SMap.wf_set h.1, fun x hx => ?_⟩
  rcases SMap.mem_set hx with rfl | hx
  · simp only [fieldFits, Fld.ofNat_key, decide_eq_true_eq]; exact hv
  · exact h.2 x hx

theorem regsFit_filter {m : SMap Nat} (p : Nat × Nat → Bool) (h : regsFit m = true) : regsFit (m.filter p) = true := by
  simp only [regsFit, Bool.and_eq_true, List.all_eq_true] at h ⊢
  exact ⟨SMap.wf_filter p h.1, fun x hx => h.2 x (List.mem_of_mem_filter hx)⟩

theorem regsFit_get {m : SMap Nat} (h : regsFit m = true) (f : Fld) (i : Nat) :
    SMap.get regDefault m (f.key i) < 2 ^ f.desc.w := by
  simp only [regsFit, Bool.and_eq_true, List.all_eq_true] at h
  rcases SMap.get_mem (d := regDefault) (m := m) (k := f.key i) with h1 | h1
  · have := h.2 _ h1
    simpa [fieldFits, Fld.ofNat_key] using this
  · rw [h1, regDefault_key]; exact f.reset_lt i

/-- A field that is set reads as its value, held to its width; every other field of every instance as before. -/
theorem State.get_put {s : State} (h : regsFit s.regs = true) (f g : Fld) (i j v : Nat) :
    (s.put f i v).get g j = if g = f ∧ j = i then v % 2 ^ f.desc.w else s.get g j := by
  simp only [regsFit, Bool.and_eq_true] at h
  simp only [State.get, State.put_regs, SMap.get_set h.1]
  by_cases e : g = f ∧ j = i
  · simp [e.1, e.2]
  · have : ¬ g.key j = f.key i := fun hk => e (Fld.key_inj hk)
    simp [e, this]

theorem State.get_put_same {s : State} (h : regsFit s.regs = true) (f : Fld) (i v : Nat) :
    (s.put f i v).get f i = v % 2 ^ f.desc.w := by simp [State.get_put h]

/-- Every register field of a state holds a value of its width, and the map is in canonical form: what the laws of reads and
settings of fields need, closed under them. -/
def State.Fits (s : State) : Prop := regsFit s.regs = true

theorem State.fits_of_sound {s : State} (h : Sound s) : s.Fits := h.regs
theorem State.fits_put {s : State} (h : s.Fits) (f : Fld) (i v : Nat) : (s.put f i v).Fits :=
  regsFit_set h (Nat.mod_lt _ (Nat.two_pow_pos _))
theorem State.fits_at {s : State} (h : s.Fits) (t : Nat) : (s.at t).Fits := h
@[simp] theorem State.get_at (s : State) (t : Nat) (f : Fld) (i : Nat) : (s.at t).get f i = s.get f i := rfl
theorem State.get_put_fits {s : State} (h : s.Fits) (f g : Fld) (i j v : Nat) :
    (s.put f i v).get g j = if g = f ∧ j = i then v % 2 ^ f.desc.w else s.get g j := State.get_put h f g i j v

/-- The fields read the registers only. -/
theorem State.get_congr {s t : State} (h : t.regs = s.regs) (f : Fld) (i : Nat) : t.get f i = s.get f i := by
  simp only [State.get, h]

theorem State.inForce_congr {s t : State} (h : t.force = s.force) (f : Fld) (i : Nat) : t.inForce f i = s.inForce f i := by
  simp only [State.inForce, h]

theorem State.get_lt {s : State} (h : regsFit s.regs = true) (f : Fld) (i : Nat) : s.get f i < 2 ^ f.desc.w :=
  regsFit_get h f i

theorem regsFit_put {s : State} (h : regsFit s.regs = true) (f : Fld) (i v : Nat) : regsFit (s.put f i v).regs = true :=
  regsFit_set h (Nat.mod_lt _ (Nat.two_pow_pos _))

/-! ## Memory -/

/-- A byte that is written reads as written; every other byte as before. -/
theorem State.readByte_writeByte {s : State} (h : memWf s.mem = true) (a b : Nat) (v : BitVec 8) :
    (s.writeByte a v).readByte b = if b = a then v else s.readByte b := by
  simp only [State.readByte, State.writeByte_mem]
  exact SMap.get_set h

theorem State.memWf_writeByte {s : State} (h : memWf s.mem = true) (a : Nat) (v : BitVec 8) :
    memWf (s.writeByte a v).mem = true := SMap.wf_set h

theorem memWf_filter {m : List Host.Cell} (p : Host.Cell → Bool) (h : memWf m = true) : memWf (m.filter p) = true :=
  SMap.wf_filter p h

theorem memWf_memWrite {m : List Host.Cell} (h : memWf m = true) (a : Nat) (bs : List (BitVec 8)) :
    memWf (memWrite m a bs) = true := by
  induction bs generalizing m a with
  | nil => exact h
  | cons b bs ih => exact ih (SMap.wf_set h) _

theorem State.memWf_writeBytes {s : State} (h : memWf s.mem = true) (a : Nat) (bs : List (BitVec 8)) :
    memWf (s.writeBytes a bs).mem = true := memWf_memWrite h a bs

theorem get_memWrite_of_outside {m : List Host.Cell} (h : memWf m = true) (a : Nat) (bs : List (BitVec 8)) (b : Nat)
    (hb : b < a ∨ a + bs.length ≤ b) : SMap.get memDefault (memWrite m a bs) b = SMap.get memDefault m b := by
  induction bs generalizing m a with
  | nil => rfl
  | cons x bs ih =>
    simp only [List.length_cons] at hb
    rw [memWrite, ih (SMap.wf_set h) _ (by omega), SMap.get_set h, if_neg (by omega)]

/-- Bytes outside those written read as before. -/
theorem State.readByte_writeBytes {s : State} (h : memWf s.mem = true) (a : Nat) (bs : List (BitVec 8)) (b : Nat)
    (hb : b < a ∨ a + bs.length ≤ b) : (s.writeBytes a bs).readByte b = s.readByte b :=
  get_memWrite_of_outside h a bs b hb

theorem get_memWrite_of_inside {m : List Host.Cell} (h : memWf m = true) (a : Nat) (bs : List (BitVec 8)) (j : Nat)
    (hj : j < bs.length) : SMap.get memDefault (memWrite m a bs) (a + j) = bs[j] := by
  induction bs generalizing m a j with
  | nil => simp at hj
  | cons x bs ih =>
    rw [memWrite]
    cases j with
    | zero =>
      rw [get_memWrite_of_outside (SMap.wf_set h) _ _ _ (by omega), SMap.get_set h]
      simp
    | succ j =>
      have e : a + (j + 1) = a + 1 + j := by omega
      rw [e, ih (SMap.wf_set h) _ _ (by simpa using hj)]
      simp

/-- The bytes written read as written. -/
theorem State.readByte_writeBytes_same {s : State} (h : memWf s.mem = true) (a : Nat) (bs : List (BitVec 8)) (j : Nat)
    (hj : j < bs.length) : (s.writeBytes a bs).readByte (a + j) = bs[j] := get_memWrite_of_inside h a bs j hj

/-! ## What every part of a command keeps -/

/-- What every part of a command keeps: soundness, the queue, and the course of time. -/
structure Keeps (s0 s : State) : Prop where
  sound   : Sound s0 → Sound s
  pending : s.pending = s0.pending
  now     : s0.now ≤ s.now

theorem Keeps.refl (s : State) : Keeps s s := ⟨id, rfl, Nat.le_refl _⟩

/-- The same of the state in a pair. -/
def KeepsP {α : Type} (s0 : State) (x : α × State) : Prop := Keeps s0 x.2
def KeepsF {α : Type} (s0 : State) (x : State × α) : Prop := Keeps s0 x.1

/-- The same of an outcome that is a next state. -/
def KeepsO (s0 : State) (x : Host.Outcome State Fault Refusal) : Prop :=
  match x with
  | .next s => Keeps s0 s
  | .fault _ => True
  | .refused _ => True

theorem KeepsP.snd {α : Type} {s0 s : State} {a : α} {p : α × State} (e : p = (a, s)) (h : KeepsP s0 p) : Keeps s0 s := by
  subst e; exact h

theorem KeepsF.fst {α : Type} {s0 s : State} {a : α} {p : State × α} (e : p = (s, a)) (h : KeepsF s0 p) : Keeps s0 s := by
  subst e; exact h

theorem KeepsP.proj {α : Type} {s0 : State} {p : α × State} (h : KeepsP s0 p) : Keeps s0 p.2 := h
theorem KeepsF.proj {α : Type} {s0 : State} {p : State × α} (h : KeepsF s0 p) : Keeps s0 p.1 := h
theorem keepsP_mk {α : Type} {s0 s : State} {a : α} : KeepsP s0 (a, s) ↔ Keeps s0 s := Iff.rfl
theorem keepsF_mk {α : Type} {s0 s : State} {a : α} : KeepsF s0 (s, a) ↔ Keeps s0 s := Iff.rfl
theorem keepsO_next {s0 s : State} (h : Keeps s0 s) : KeepsO s0 (.next s) := h
theorem keepsO_fault {s0 : State} {e : Fault} : KeepsO s0 (.fault e) := trivial

/-- A change of the parts that soundness does not speak of. -/
theorem keeps_of {s0 s t : State} (h : Keeps s0 s) (h1 : t.regs = s.regs) (h2 : t.force = s.force) (h3 : t.mem = s.mem)
    (h4 : groupsFit t = groupsFit s) (h5 : t.pending = s.pending) (h6 : t.now = s.now) : Keeps s0 t where
  sound hs := ⟨h1 ▸ (h.sound hs).regs, h2 ▸ (h.sound hs).force, h3 ▸ (h.sound hs).mem, h4 ▸ (h.sound hs).groups⟩
  pending := h5 ▸ h.pending
  now := h6 ▸ h.now

/-- A change of the parts that soundness does not speak of. -/
theorem keeps_mk {s0 s : State} {dev : DevState} {prev : DevState} {seqNo : Nat} {time : TimeBase} {power : Power}
      {boot : BootCtl} {gov : Gov} {slu : SluEngine} {life : Life} {hbm : Hbm} {bank : Bank} {jtag : Jtag} {devAt : Nat}
      {pkts : List (Nat × Nat)} {share : Share} :
    Keeps s0 (State.mk s.now dev prev devAt pkts s.regs s.force s.ports seqNo s.mem time power boot gov s.islands s.restore
      s.sources s.ends s.chans s.waves s.slots s.ctxs s.stabs s.engines s.acqs share s.pans s.crys s.masks s.rules s.markers
      s.trips s.slus slu s.lanes s.quads s.links life hbm bank jtag s.pending) ↔ Keeps s0 s :=
  ⟨fun h => keeps_of h rfl rfl rfl rfl rfl rfl, fun h => keeps_of h rfl rfl rfl rfl rfl rfl⟩

/-- A change of the groups that keeps their canonical form. -/
theorem keeps_group {s0 s t : State} (h : Keeps s0 s) (h1 : t.regs = s.regs) (h2 : t.force = s.force) (h3 : t.mem = s.mem)
    (h4 : groupsFit s = true → groupsFit t = true) (h5 : t.pending = s.pending) (h6 : t.now = s.now) : Keeps s0 t where
  sound hs := ⟨h1 ▸ (h.sound hs).regs, h2 ▸ (h.sound hs).force, h3 ▸ (h.sound hs).mem, h4 (h.sound hs).groups⟩
  pending := h5 ▸ h.pending
  now := h6 ▸ h.now

/-- The present moves on. -/
theorem State.later_keeps {s0 s : State} (h : Keeps s0 s) (w : Nat) : Keeps s0 { s with now := s.now + w } where
  sound hs := ⟨(h.sound hs).regs, (h.sound hs).force, (h.sound hs).mem, (h.sound hs).groups⟩
  pending := h.pending
  now := Nat.le_trans h.now (Nat.le_add_right _ _)

theorem ite_pred {α : Type} {P : α → Prop} {c : Prop} [Decidable c] {a b : α} (ha : P a) (hb : P b) :
    P (if c then a else b) := by split <;> assumption

theorem foldl_pred {α β : Type} {P : α → Prop} {f : α → β → α} {l : List β} {a : α} (hf : ∀ a b, P a → P (f a b))
    (h : P a) : P (l.foldl f a) := by
  induction l generalizing a with
  | nil => exact h
  | cons b l ih => exact ih (hf a b h)

theorem times_pred {α : Type} {P : α → Prop} {f : α → α} {n : Nat} {a : α} (hf : ∀ a, P a → P (f a)) (h : P a) :
    P (times f n a) := by
  induction n generalizing a with
  | zero => exact h
  | succ n ih => exact ih (hf a h)

/-! ## The parts of each group -/

/-- The unit that is set reads as set, every other unit of the group as before. -/
theorem State.port_setPort {s : State} (h : SMap.wf (fun _ => {}) s.ports = true) (n m : Nat) (v : Port) :
    (s.setPort n v).port m = if m = n then v else s.port m := SMap.get_set h

/-- The unit that is set reads as set, every other unit of the group as before. -/
theorem State.src_setSrc {s : State} (h : SMap.wf (fun _ => {}) s.sources = true) (n m : Nat) (v : Source) :
    (s.setSrc n v).src m = if m = n then v else s.src m := SMap.get_set h

/-- The unit that is set reads as set, every other unit of the group as before. -/
theorem State.be_setBe {s : State} (h : SMap.wf (fun _ => {}) s.ends = true) (n m : Nat) (v : BackEnd) :
    (s.setBe n v).be m = if m = n then v else s.be m := SMap.get_set h

/-- The unit that is set reads as set, every other unit of the group as before. -/
theorem State.chan_setChan {s : State} (h : SMap.wf (fun _ => {}) s.chans = true) (n m : Nat) (v : Chan) :
    (s.setChan n v).chan m = if m = n then v else s.chan m := SMap.get_set h

/-- The unit that is set reads as set, every other unit of the group as before. -/
theorem State.wave_setWave {s : State} (h : SMap.wf (fun _ => {}) s.waves = true) (n m : Nat) (v : Wave) :
    (s.setWave n v).wave m = if m = n then v else s.wave m := SMap.get_set h

/-- The unit that is set reads as set, every other unit of the group as before. -/
theorem State.slot_setSlot {s : State} (h : SMap.wf (fun _ => {}) s.slots = true) (n m : Nat) (v : Slot) :
    (s.setSlot n v).slot m = if m = n then v else s.slot m := SMap.get_set h

/-- The unit that is set reads as set, every other unit of the group as before. -/
theorem State.ctx_setCtx {s : State} (h : SMap.wf (fun _ => {}) s.ctxs = true) (n m : Nat) (v : Ctx) :
    (s.setCtx n v).ctx m = if m = n then v else s.ctx m := SMap.get_set h

/-- The unit that is set reads as set, every other unit of the group as before. -/
theorem State.stab_setStab {s : State} (h : SMap.wf (fun _ => {}) s.stabs = true) (n m : Nat) (v : Stab) :
    (s.setStab n v).stab m = if m = n then v else s.stab m := SMap.get_set h

/-- The unit that is set reads as set, every other unit of the group as before. -/
theorem State.engine_setEngine {s : State} (h : SMap.wf (fun _ => {}) s.engines = true) (n m : Nat) (v : Engine) :
    (s.setEngine n v).engine m = if m = n then v else s.engine m := SMap.get_set h

/-- The unit that is set reads as set, every other unit of the group as before. -/
theorem State.acq_setAcq {s : State} (h : SMap.wf (fun _ => {}) s.acqs = true) (n m : Nat) (v : Acq) :
    (s.setAcq n v).acq m = if m = n then v else s.acq m := SMap.get_set h

/-- The unit that is set reads as set, every other unit of the group as before. -/
theorem State.pan_setPan {s : State} (h : SMap.wf (fun _ => {}) s.pans = true) (n m : Nat) (v : Pan) :
    (s.setPan n v).pan m = if m = n then v else s.pan m := SMap.get_set h

/-- The unit that is set reads as set, every other unit of the group as before. -/
theorem State.cry_setCry {s : State} (h : SMap.wf (fun _ => {}) s.crys = true) (n m : Nat) (v : Cry) :
    (s.setCry n v).cry m = if m = n then v else s.cry m := SMap.get_set h

/-- The unit that is set reads as set, every other unit of the group as before. -/
theorem State.mask_setMask {s : State} (h : SMap.wf (fun _ => {}) s.masks = true) (n m : Nat) (v : Mask) :
    (s.setMask n v).mask m = if m = n then v else s.mask m := SMap.get_set h

/-- The unit that is set reads as set, every other unit of the group as before. -/
theorem State.rule_setRule {s : State} (h : SMap.wf (fun _ => {}) s.rules = true) (n m : Nat) (v : Rule) :
    (s.setRule n v).rule m = if m = n then v else s.rule m := SMap.get_set h

/-- The unit that is set reads as set, every other unit of the group as before. -/
theorem State.marker_setMarker {s : State} (h : SMap.wf (fun _ => {}) s.markers = true) (n m : Nat) (v : Marker) :
    (s.setMarker n v).marker m = if m = n then v else s.marker m := SMap.get_set h

/-- The unit that is set reads as set, every other unit of the group as before. -/
theorem State.trip_setTrip {s : State} (h : SMap.wf (fun _ => {}) s.trips = true) (n m : Nat) (v : TripOut) :
    (s.setTrip n v).trip m = if m = n then v else s.trip m := SMap.get_set h

/-- The unit that is set reads as set, every other unit of the group as before. -/
theorem State.sl_setSl {s : State} (h : SMap.wf (fun _ => {}) s.slus = true) (n m : Nat) (v : Slu) :
    (s.setSl n v).sl m = if m = n then v else s.sl m := SMap.get_set h

/-- The unit that is set reads as set, every other unit of the group as before. -/
theorem State.lane_setLane {s : State} (h : SMap.wf (fun _ => {}) s.lanes = true) (n m : Nat) (v : Lane) :
    (s.setLane n v).lane m = if m = n then v else s.lane m := SMap.get_set h

/-- The unit that is set reads as set, every other unit of the group as before. -/
theorem State.quad_setQuad {s : State} (h : SMap.wf (fun _ => {}) s.quads = true) (n m : Nat) (v : Quad) :
    (s.setQuad n v).quad m = if m = n then v else s.quad m := SMap.get_set h

/-- The unit that is set reads as set, every other unit of the group as before. -/
theorem State.link_setLink {s : State} (h : SMap.wf (fun _ => {}) s.links = true) (n m : Nat) (v : Link) :
    (s.setLink n v).link m = if m = n then v else s.link m := SMap.get_set h

/-- The unit that is set reads as set, every other unit of the group as before. -/
theorem State.island_setIsland {s : State} (h : SMap.wf (fun _ => {}) s.islands = true) (n m : Nat) (v : Island) :
    (s.setIsland n v).island m = if m = n then v else s.island m := SMap.get_set h

/-- The unit that is set reads as set, every other unit of the group as before. -/
theorem State.rest_setRest {s : State} (h : SMap.wf (fun _ => {}) s.restore = true) (n m : Nat) (v : Restore) :
    (s.setRest n v).rest m = if m = n then v else s.rest m := SMap.get_set h

theorem State.setPort_keeps {s0 s : State} (h : Keeps s0 s) (n : Nat) (v : Port) : Keeps s0 (s.setPort n v) := by
  refine keeps_group h rfl rfl rfl (fun hg => ?_) rfl rfl
  simp only [groupsFit, Bool.and_eq_true] at hg ⊢
  simpa only [State.setPort, hg, and_true, true_and] using SMap.wf_set (by simp only [hg])

theorem State.setSrc_keeps {s0 s : State} (h : Keeps s0 s) (n : Nat) (v : Source) : Keeps s0 (s.setSrc n v) := by
  refine keeps_group h rfl rfl rfl (fun hg => ?_) rfl rfl
  simp only [groupsFit, Bool.and_eq_true] at hg ⊢
  simpa only [State.setSrc, hg, and_true, true_and] using SMap.wf_set (by simp only [hg])

theorem State.setBe_keeps {s0 s : State} (h : Keeps s0 s) (n : Nat) (v : BackEnd) : Keeps s0 (s.setBe n v) := by
  refine keeps_group h rfl rfl rfl (fun hg => ?_) rfl rfl
  simp only [groupsFit, Bool.and_eq_true] at hg ⊢
  simpa only [State.setBe, hg, and_true, true_and] using SMap.wf_set (by simp only [hg])

theorem State.setChan_keeps {s0 s : State} (h : Keeps s0 s) (n : Nat) (v : Chan) : Keeps s0 (s.setChan n v) := by
  refine keeps_group h rfl rfl rfl (fun hg => ?_) rfl rfl
  simp only [groupsFit, Bool.and_eq_true] at hg ⊢
  simpa only [State.setChan, hg, and_true, true_and] using SMap.wf_set (by simp only [hg])

theorem State.setWave_keeps {s0 s : State} (h : Keeps s0 s) (n : Nat) (v : Wave) : Keeps s0 (s.setWave n v) := by
  refine keeps_group h rfl rfl rfl (fun hg => ?_) rfl rfl
  simp only [groupsFit, Bool.and_eq_true] at hg ⊢
  simpa only [State.setWave, hg, and_true, true_and] using SMap.wf_set (by simp only [hg])

theorem State.setSlot_keeps {s0 s : State} (h : Keeps s0 s) (n : Nat) (v : Slot) : Keeps s0 (s.setSlot n v) := by
  refine keeps_group h rfl rfl rfl (fun hg => ?_) rfl rfl
  simp only [groupsFit, Bool.and_eq_true] at hg ⊢
  simpa only [State.setSlot, hg, and_true, true_and] using SMap.wf_set (by simp only [hg])

theorem State.setCtx_keeps {s0 s : State} (h : Keeps s0 s) (n : Nat) (v : Ctx) : Keeps s0 (s.setCtx n v) := by
  refine keeps_group h rfl rfl rfl (fun hg => ?_) rfl rfl
  simp only [groupsFit, Bool.and_eq_true] at hg ⊢
  simpa only [State.setCtx, hg, and_true, true_and] using SMap.wf_set (by simp only [hg])

theorem State.setStab_keeps {s0 s : State} (h : Keeps s0 s) (n : Nat) (v : Stab) : Keeps s0 (s.setStab n v) := by
  refine keeps_group h rfl rfl rfl (fun hg => ?_) rfl rfl
  simp only [groupsFit, Bool.and_eq_true] at hg ⊢
  simpa only [State.setStab, hg, and_true, true_and] using SMap.wf_set (by simp only [hg])

theorem State.setEngine_keeps {s0 s : State} (h : Keeps s0 s) (n : Nat) (v : Engine) : Keeps s0 (s.setEngine n v) := by
  refine keeps_group h rfl rfl rfl (fun hg => ?_) rfl rfl
  simp only [groupsFit, Bool.and_eq_true] at hg ⊢
  simpa only [State.setEngine, hg, and_true, true_and] using SMap.wf_set (by simp only [hg])

theorem State.setAcq_keeps {s0 s : State} (h : Keeps s0 s) (n : Nat) (v : Acq) : Keeps s0 (s.setAcq n v) := by
  refine keeps_group h rfl rfl rfl (fun hg => ?_) rfl rfl
  simp only [groupsFit, Bool.and_eq_true] at hg ⊢
  simpa only [State.setAcq, hg, and_true, true_and] using SMap.wf_set (by simp only [hg])

theorem State.setPan_keeps {s0 s : State} (h : Keeps s0 s) (n : Nat) (v : Pan) : Keeps s0 (s.setPan n v) := by
  refine keeps_group h rfl rfl rfl (fun hg => ?_) rfl rfl
  simp only [groupsFit, Bool.and_eq_true] at hg ⊢
  simpa only [State.setPan, hg, and_true, true_and] using SMap.wf_set (by simp only [hg])

theorem State.setCry_keeps {s0 s : State} (h : Keeps s0 s) (n : Nat) (v : Cry) : Keeps s0 (s.setCry n v) := by
  refine keeps_group h rfl rfl rfl (fun hg => ?_) rfl rfl
  simp only [groupsFit, Bool.and_eq_true] at hg ⊢
  simpa only [State.setCry, hg, and_true, true_and] using SMap.wf_set (by simp only [hg])

theorem State.setMask_keeps {s0 s : State} (h : Keeps s0 s) (n : Nat) (v : Mask) : Keeps s0 (s.setMask n v) := by
  refine keeps_group h rfl rfl rfl (fun hg => ?_) rfl rfl
  simp only [groupsFit, Bool.and_eq_true] at hg ⊢
  simpa only [State.setMask, hg, and_true, true_and] using SMap.wf_set (by simp only [hg])

theorem State.setRule_keeps {s0 s : State} (h : Keeps s0 s) (n : Nat) (v : Rule) : Keeps s0 (s.setRule n v) := by
  refine keeps_group h rfl rfl rfl (fun hg => ?_) rfl rfl
  simp only [groupsFit, Bool.and_eq_true] at hg ⊢
  simpa only [State.setRule, hg, and_true, true_and] using SMap.wf_set (by simp only [hg])

theorem State.setMarker_keeps {s0 s : State} (h : Keeps s0 s) (n : Nat) (v : Marker) : Keeps s0 (s.setMarker n v) := by
  refine keeps_group h rfl rfl rfl (fun hg => ?_) rfl rfl
  simp only [groupsFit, Bool.and_eq_true] at hg ⊢
  simpa only [State.setMarker, hg, and_true, true_and] using SMap.wf_set (by simp only [hg])

theorem State.setTrip_keeps {s0 s : State} (h : Keeps s0 s) (n : Nat) (v : TripOut) : Keeps s0 (s.setTrip n v) := by
  refine keeps_group h rfl rfl rfl (fun hg => ?_) rfl rfl
  simp only [groupsFit, Bool.and_eq_true] at hg ⊢
  simpa only [State.setTrip, hg, and_true, true_and] using SMap.wf_set (by simp only [hg])

theorem State.setSl_keeps {s0 s : State} (h : Keeps s0 s) (n : Nat) (v : Slu) : Keeps s0 (s.setSl n v) := by
  refine keeps_group h rfl rfl rfl (fun hg => ?_) rfl rfl
  simp only [groupsFit, Bool.and_eq_true] at hg ⊢
  simpa only [State.setSl, hg, and_true, true_and] using SMap.wf_set (by simp only [hg])

theorem State.setLane_keeps {s0 s : State} (h : Keeps s0 s) (n : Nat) (v : Lane) : Keeps s0 (s.setLane n v) := by
  refine keeps_group h rfl rfl rfl (fun hg => ?_) rfl rfl
  simp only [groupsFit, Bool.and_eq_true] at hg ⊢
  simpa only [State.setLane, hg, and_true, true_and] using SMap.wf_set (by simp only [hg])

theorem State.setQuad_keeps {s0 s : State} (h : Keeps s0 s) (n : Nat) (v : Quad) : Keeps s0 (s.setQuad n v) := by
  refine keeps_group h rfl rfl rfl (fun hg => ?_) rfl rfl
  simp only [groupsFit, Bool.and_eq_true] at hg ⊢
  simpa only [State.setQuad, hg, and_true, true_and] using SMap.wf_set (by simp only [hg])

theorem State.setLink_keeps {s0 s : State} (h : Keeps s0 s) (n : Nat) (v : Link) : Keeps s0 (s.setLink n v) := by
  refine keeps_group h rfl rfl rfl (fun hg => ?_) rfl rfl
  simp only [groupsFit, Bool.and_eq_true] at hg ⊢
  simpa only [State.setLink, hg, and_true, true_and] using SMap.wf_set (by simp only [hg])

theorem State.setIsland_keeps {s0 s : State} (h : Keeps s0 s) (n : Nat) (v : Island) : Keeps s0 (s.setIsland n v) := by
  refine keeps_group h rfl rfl rfl (fun hg => ?_) rfl rfl
  simp only [groupsFit, Bool.and_eq_true] at hg ⊢
  simpa only [State.setIsland, hg, and_true, true_and] using SMap.wf_set (by simp only [hg])

theorem State.setRest_keeps {s0 s : State} (h : Keeps s0 s) (n : Nat) (v : Restore) : Keeps s0 (s.setRest n v) := by
  refine keeps_group h rfl rfl rfl (fun hg => ?_) rfl rfl
  simp only [groupsFit, Bool.and_eq_true] at hg ⊢
  simpa only [State.setRest, hg, and_true, true_and] using SMap.wf_set (by simp only [hg])

theorem State.put_keeps {s0 s : State} (h : Keeps s0 s) (f : Fld) (i v : Nat) : Keeps s0 (s.put f i v) where
  sound hs := ⟨regsFit_put (h.sound hs).regs f i v, (h.sound hs).force, (h.sound hs).mem, (h.sound hs).groups⟩
  pending := h.pending
  now := h.now

theorem State.apply_keeps {s0 s : State} (h : Keeps s0 s) (f : Fld) (i : Nat) : Keeps s0 (s.apply f i) where
  sound hs := ⟨(h.sound hs).regs, regsFit_set (h.sound hs).force (State.get_lt (h.sound hs).regs f i), (h.sound hs).mem,
    (h.sound hs).groups⟩
  pending := h.pending
  now := h.now

theorem State.writeByte_keeps {s0 s : State} (h : Keeps s0 s) (a : Nat) (b : BitVec 8) : Keeps s0 (s.writeByte a b) where
  sound hs := ⟨(h.sound hs).regs, (h.sound hs).force, State.memWf_writeByte (h.sound hs).mem a b, (h.sound hs).groups⟩
  pending := h.pending
  now := h.now

/-- Leaving bytes of memory out (they read as unlisted ones do). -/
theorem State.dropMem_keeps {s0 s : State} (h : Keeps s0 s) (p : Host.Cell → Bool) :
    Keeps s0 { s with mem := s.mem.filter p } where
  sound hs := ⟨(h.sound hs).regs, (h.sound hs).force, memWf_filter p (h.sound hs).mem, (h.sound hs).groups⟩
  pending := h.pending
  now := h.now

theorem State.writeBytes_keeps {s0 s : State} (h : Keeps s0 s) (a : Nat) (bs : List (BitVec 8)) :
    Keeps s0 (s.writeBytes a bs) where
  sound hs := ⟨(h.sound hs).regs, (h.sound hs).force, State.memWf_writeBytes (h.sound hs).mem a bs, (h.sound hs).groups⟩
  pending := h.pending
  now := h.now

theorem State.at_keeps {s0 s : State} (h : Keeps s0 s) (t : Nat) : Keeps s0 (s.at t) where
  sound hs := ⟨(h.sound hs).regs, (h.sound hs).force, (h.sound hs).mem, (h.sound hs).groups⟩
  pending := h.pending
  now := Nat.le_trans h.now (Nat.le_max_left _ _)

theorem State.free_keeps {s0 s : State} (h : Keeps s0 s) : KeepsP s0 s.free :=
  keeps_of (t := s.free.2) h rfl rfl rfl rfl rfl rfl

end Sys2Proof.Machine
end

