-- ==== Sys2Proof/Laws/Answers.lean ====
section
/-!
SUPPORT. Which outcome a command has: a next state where its units and port exist, otherwise the fault of R27.
-/

namespace Sys2Proof.Machine

/-- The outcome is a next state when the check holds, and the fault otherwise. -/
def AnswersIf (b : Bool) (x : Host.Outcome State Fault Refusal) : Prop :=
  (b = true → ∃ t, x = .next t) ∧ (b = false → x = .fault .noSuchUnit)

theorem answersIf_next {s : State} : AnswersIf true (.next s) := ⟨fun _ => ⟨s, rfl⟩, nofun⟩

theorem answersIf_ite {b : Bool} {c : Prop} [Decidable c] {x : Host.Outcome State Fault Refusal} (h : b = decide c)
    (hx : ∃ t, x = .next t) : AnswersIf b (if c then x else .fault .noSuchUnit) := by
  subst h
  by_cases hc : c
  · simp only [hc, if_true, decide_true]; exact ⟨fun _ => hx, nofun⟩
  · simp only [hc, if_false, decide_false]; exact ⟨nofun, fun _ => rfl⟩

theorem exec_answers (i : Instr) (s : State) : AnswersIf i.wf (exec i s) := by
  cases i with
  | uvloRise _ => exact ⟨fun _ => ⟨_, rfl⟩, nofun⟩
  | auxEntry _ => exact ⟨fun _ => ⟨_, rfl⟩, nofun⟩
  | aoRelease _ => exact ⟨fun _ => ⟨_, rfl⟩, nofun⟩
  | uvloFall _ => exact ⟨fun _ => ⟨_, rfl⟩, nofun⟩
  | lowInput _ _ => exact ⟨fun _ => ⟨_, rfl⟩, nofun⟩
  | overvoltage _ => exact ⟨fun _ => ⟨_, rfl⟩, nofun⟩
  | hotSwapTrip _ _ _ => exact ⟨fun _ => ⟨_, rfl⟩, nofun⟩
  | fastTrip _ _ => exact ⟨fun _ => ⟨_, rfl⟩, nofun⟩
  | fetRetry _ => exact ⟨fun _ => ⟨_, rfl⟩, nofun⟩
  | fetRestart _ _ =>
    exact answersIf_ite (by simp [Instr.wf]) ⟨_, rfl⟩
  | peakClear _ _ =>
    exact answersIf_ite (by simp [Instr.wf]) ⟨_, rfl⟩
  | heartbeatLost _ => exact ⟨fun _ => ⟨_, rfl⟩, nofun⟩
  | telemetryFrame _ _ _ _ _ => exact ⟨fun _ => ⟨_, rfl⟩, nofun⟩
  | busEn _ _ => exact ⟨fun _ => ⟨_, rfl⟩, nofun⟩
  | railEnable _ => exact ⟨fun _ => ⟨_, rfl⟩, nofun⟩
  | pmbusAlert _ _ _ _ =>
    exact answersIf_ite (by simp [Instr.wf]) ⟨_, rfl⟩
  | railRetry _ _ =>
    exact answersIf_ite (by simp [Instr.wf]) ⟨_, rfl⟩
  | thermalShutdown _ _ =>
    exact answersIf_ite (by simp [Instr.wf]) ⟨_, rfl⟩
  | thermalCooldown _ => exact ⟨fun _ => ⟨_, rfl⟩, nofun⟩
  | protectiveRestart _ => exact ⟨fun _ => ⟨_, rfl⟩, nofun⟩
  | reboot _ _ =>
    exact answersIf_ite (by simp [Instr.wf]) ⟨_, rfl⟩
  | governorTick _ _ _ => exact ⟨fun _ => ⟨_, rfl⟩, nofun⟩
  | islandFloor _ _ _ _ =>
    exact answersIf_ite (by simp [Instr.wf, Bool.and_comm]) ⟨_, rfl⟩
  | wakeIsland _ _ =>
    exact answersIf_ite (by simp [Instr.wf]) ⟨_, rfl⟩
  | islandDrained _ _ =>
    exact answersIf_ite (by simp [Instr.wf]) ⟨_, rfl⟩
  | islandUnlock _ _ =>
    exact answersIf_ite (by simp [Instr.wf]) ⟨_, rfl⟩
  | islandRelock _ _ _ =>
    exact answersIf_ite (by simp [Instr.wf]) ⟨_, rfl⟩
  | is8Unlock _ => exact ⟨fun _ => ⟨_, rfl⟩, nofun⟩
  | is8Relock _ => exact ⟨fun _ => ⟨_, rfl⟩, nofun⟩
  | restorationDone _ _ => exact ⟨fun _ => ⟨_, rfl⟩, nofun⟩
  | restorationTimeout _ _ => exact ⟨fun _ => ⟨_, rfl⟩, nofun⟩
  | restorationHeld _ _ => exact ⟨fun _ => ⟨_, rfl⟩, nofun⟩
  | sfdpRead _ _ _ _ _ => exact ⟨fun _ => ⟨_, rfl⟩, nofun⟩
  | slotSelect _ _ _ _ => exact ⟨fun _ => ⟨_, rfl⟩, nofun⟩
  | pass1 _ _ => exact ⟨fun _ => ⟨_, rfl⟩, nofun⟩
  | pass2 _ _ _ => exact ⟨fun _ => ⟨_, rfl⟩, nofun⟩
  | flashTimeout _ => exact ⟨fun _ => ⟨_, rfl⟩, nofun⟩
  | write _ => exact ⟨fun _ => ⟨_, rfl⟩, nofun⟩
  | modify _ => exact ⟨fun _ => ⟨_, rfl⟩, nofun⟩
  | poll _ => exact ⟨fun _ => ⟨_, rfl⟩, nofun⟩
  | pollTimeout _ => exact ⟨fun _ => ⟨_, rfl⟩, nofun⟩
  | delay _ => exact ⟨fun _ => ⟨_, rfl⟩, nofun⟩
  | listBlock _ => exact ⟨fun _ => ⟨_, rfl⟩, nofun⟩
  | refLock _ _ _ _ _ => exact ⟨fun _ => ⟨_, rfl⟩, nofun⟩
  | holdover _ _ _ => exact ⟨fun _ => ⟨_, rfl⟩, nofun⟩
  | ppsEdge _ _ _ _ => exact ⟨fun _ => ⟨_, rfl⟩, nofun⟩
  | ppsMissing _ => exact ⟨fun _ => ⟨_, rfl⟩, nofun⟩
  | alignWaitTimeout _ => exact ⟨fun _ => ⟨_, rfl⟩, nofun⟩
  | realign _ _ =>
    exact answersIf_ite (by simp [Instr.wf]) ⟨_, rfl⟩
  | realignTimeout _ => exact ⟨fun _ => ⟨_, rfl⟩, nofun⟩
  | setSec _ _ =>
    exact answersIf_ite (by simp [Instr.wf]) ⟨_, rfl⟩
  | leapAnnounce _ _ _ _ =>
    exact answersIf_ite (by simp [Instr.wf]) ⟨_, rfl⟩
  | sysrefBurst _ _ =>
    exact answersIf_ite (by simp [Instr.wf]) ⟨_, rfl⟩
  | secondBoundary _ => exact ⟨fun _ => ⟨_, rfl⟩, nofun⟩
  | frameBoundary _ _ => exact ⟨fun _ => ⟨_, rfl⟩, nofun⟩
  | frameCommit _ _ =>
    exact answersIf_ite (by simp [Instr.wf]) ⟨_, rfl⟩
  | sysrefPulse _ _ _ => exact ⟨fun _ => ⟨_, rfl⟩, nofun⟩
  | periodicAnchor _ _ =>
    exact answersIf_ite (by simp [Instr.wf]) ⟨_, rfl⟩
  | gapAnchor _ _ =>
    exact answersIf_ite (by simp [Instr.wf]) ⟨_, rfl⟩
  | armChannel _ _ _ =>
    exact answersIf_ite (by simp [Instr.wf, Bool.and_comm]) ⟨_, rfl⟩
  | disarmChannel _ _ _ =>
    exact answersIf_ite (by simp [Instr.wf, Bool.and_comm]) ⟨_, rfl⟩
  | channelStart _ _ _ _ =>
    exact answersIf_ite (by simp [Instr.wf]) ⟨_, rfl⟩
  | edge _ _ _ _ =>
    exact answersIf_ite (by simp [Instr.wf]) ⟨_, rfl⟩
  | runtPulse _ _ _ _ _ =>
    exact answersIf_ite (by simp [Instr.wf]) ⟨_, rfl⟩
  | overflowEnd _ _ =>
    exact answersIf_ite (by simp [Instr.wf]) ⟨_, rfl⟩
  | recordToFabric _ _ =>
    exact answersIf_ite (by simp [Instr.wf]) ⟨_, rfl⟩
  | calibrationHit _ _ _ =>
    exact answersIf_ite (by simp [Instr.wf]) ⟨_, rfl⟩
  | calTableBuild _ _ =>
    exact answersIf_ite (by simp [Instr.wf]) ⟨_, rfl⟩
  | calRestart _ _ _ =>
    exact answersIf_ite (by simp [Instr.wf, Bool.and_comm]) ⟨_, rfl⟩
  | feCommit _ _ _ =>
    exact answersIf_ite (by simp [Instr.wf, Bool.and_comm]) ⟨_, rfl⟩
  | commitApplyEarly t n input bin =>
    simp only [exec, execCommitApplyEarly]
    split
    · next h =>
      have : (Instr.commitApplyEarly t n input bin).wf = true := by
        simp only [Instr.wf, decide_eq_true_eq]; omega
      rw [this]; exact ⟨fun _ => ⟨_, rfl⟩, nofun⟩
    · exact answersIf_ite (by simp [Instr.wf]) ⟨_, rfl⟩
  | settleEnd _ _ =>
    exact answersIf_ite (by simp [Instr.wf]) ⟨_, rfl⟩
  | overdriveStart _ _ _ =>
    exact answersIf_ite (by simp [Instr.wf]) ⟨_, rfl⟩
  | overdriveEnd _ _ =>
    exact answersIf_ite (by simp [Instr.wf]) ⟨_, rfl⟩
  | windowEnable _ _ _ _ =>
    exact answersIf_ite (by simp [Instr.wf, Bool.and_comm]) ⟨_, rfl⟩
  | windowAssert _ _ _ =>
    exact answersIf_ite (by simp [Instr.wf]) ⟨_, rfl⟩
  | windowDeassert _ _ _ =>
    exact answersIf_ite (by simp [Instr.wf]) ⟨_, rfl⟩
  | windowHoldEnd _ _ =>
    exact answersIf_ite (by simp [Instr.wf]) ⟨_, rfl⟩
  | beRetire _ _ _ =>
    exact answersIf_ite (by simp [Instr.wf, Bool.and_comm]) ⟨_, rfl⟩
  | retireNow _ _ _ =>
    exact answersIf_ite (by simp [Instr.wf, Bool.and_comm]) ⟨_, rfl⟩
  | beReturn _ _ _ =>
    exact answersIf_ite (by simp [Instr.wf, Bool.and_comm]) ⟨_, rfl⟩
  | switch _ _ _ =>
    exact answersIf_ite (by simp [Instr.wf]) ⟨_, rfl⟩
  | spareWarmupTimeout _ _ =>
    exact answersIf_ite (by simp [Instr.wf]) ⟨_, rfl⟩
  | rejoin _ _ =>
    exact answersIf_ite (by simp [Instr.wf]) ⟨_, rfl⟩
  | backendFault _ _ =>
    exact answersIf_ite (by simp [Instr.wf]) ⟨_, rfl⟩
  | interpolatorNoHits _ _ =>
    exact answersIf_ite (by simp [Instr.wf]) ⟨_, rfl⟩
  | startWaveform _ _ _ =>
    exact answersIf_ite (by simp [Instr.wf, Bool.and_comm]) ⟨_, rfl⟩
  | disarmWaveform _ _ _ =>
    exact answersIf_ite (by simp [Instr.wf, Bool.and_comm]) ⟨_, rfl⟩
  | ingestStart _ _ =>
    exact answersIf_ite (by simp [Instr.wf]) ⟨_, rfl⟩
  | embRelease _ _ _ _ _ _ =>
    exact answersIf_ite (by simp [Instr.wf]) ⟨_, rfl⟩
  | jesdCrcError _ _ =>
    exact answersIf_ite (by simp [Instr.wf]) ⟨_, rfl⟩
  | ingestFault _ _ =>
    exact answersIf_ite (by simp [Instr.wf]) ⟨_, rfl⟩
  | waveformCommit _ _ _ =>
    exact answersIf_ite (by simp [Instr.wf, Bool.and_comm]) ⟨_, rfl⟩
  | waveformSettleEnd _ _ =>
    exact answersIf_ite (by simp [Instr.wf]) ⟨_, rfl⟩
  | convEnd _ _ =>
    exact answersIf_ite (by simp [Instr.wf]) ⟨_, rfl⟩
  | windowOpen _ _ =>
    exact answersIf_ite (by simp [Instr.wf]) ⟨_, rfl⟩
  | windowClose _ _ =>
    exact answersIf_ite (by simp [Instr.wf]) ⟨_, rfl⟩
  | startContext _ _ _ =>
    exact answersIf_ite (by simp [Instr.wf, Bool.and_comm]) ⟨_, rfl⟩
  | disarmContext _ _ _ =>
    exact answersIf_ite (by simp [Instr.wf, Bool.and_comm]) ⟨_, rfl⟩
  | contextRestart _ _ _ =>
    exact answersIf_ite (by simp [Instr.wf, Bool.and_comm]) ⟨_, rfl⟩
  | stabClear _ _ _ =>
    exact answersIf_ite (by simp [Instr.wf, Bool.and_comm]) ⟨_, rfl⟩
  | engineUpdate _ _ =>
    exact answersIf_ite (by simp [Instr.wf]) (by first | exact ⟨_, rfl⟩ | (repeat' split) <;> exact ⟨_, rfl⟩)
  | gateTimeout _ _ =>
    exact answersIf_ite (by simp [Instr.wf]) (by first | exact ⟨_, rfl⟩ | (repeat' split) <;> exact ⟨_, rfl⟩)
  | publish _ _ =>
    exact answersIf_ite (by simp [Instr.wf]) (by first | exact ⟨_, rfl⟩ | (repeat' split) <;> exact ⟨_, rfl⟩)
  | contextMove _ _ =>
    exact answersIf_ite (by simp [Instr.wf]) (by first | exact ⟨_, rfl⟩ | (repeat' split) <;> exact ⟨_, rfl⟩)
  | armAcquisition _ _ _ =>
    exact answersIf_ite (by simp [Instr.wf, Bool.and_comm]) ⟨_, rfl⟩
  | disarmAcquisition _ _ _ =>
    exact answersIf_ite (by simp [Instr.wf, Bool.and_comm]) ⟨_, rfl⟩
  | fillStart _ _ =>
    exact answersIf_ite (by simp [Instr.wf]) ⟨_, rfl⟩
  | ready _ _ =>
    exact answersIf_ite (by simp [Instr.wf]) ⟨_, rfl⟩
  | autoTimeout _ _ =>
    exact answersIf_ite (by simp [Instr.wf]) ⟨_, rfl⟩
  | intervalTimeout t n c =>
    simp only [exec, execIntervalTimeout]
    by_cases h1 : n < numUnits ∧ c < 8
    · have hw : Instr.wf (.intervalTimeout t n c) = true := by simp [Instr.wf, h1]
      rw [if_pos h1, hw]; exact answersIf_next
    · by_cases h2 : n = numUnits ∧ c < numRules
      · have hw : Instr.wf (.intervalTimeout t n c) = true := by simp [Instr.wf, h2]
        rw [if_neg h1, if_pos h2, hw]; exact answersIf_next
      · have hw : Instr.wf (.intervalTimeout t n c) = false := by
          simp only [Instr.wf, decide_eq_false h1, decide_eq_false h2, Bool.or_false]
        rw [if_neg h1, if_neg h2, hw]
        exact ⟨nofun, fun _ => rfl⟩
  | force _ _ _ =>
    exact answersIf_ite (by simp [Instr.wf, Bool.and_comm]) ⟨_, rfl⟩
  | abort _ _ _ =>
    exact answersIf_ite (by simp [Instr.wf, Bool.and_comm]) ⟨_, rfl⟩
  | captureClose _ _ =>
    exact answersIf_ite (by simp [Instr.wf]) ⟨_, rfl⟩
  | panRelease _ _ _ =>
    exact answersIf_ite (by simp [Instr.wf, Bool.and_comm]) ⟨_, rfl⟩
  | freeze _ _ _ _ =>
    exact answersIf_ite (by simp [Instr.wf, Bool.and_comm]) ⟨_, rfl⟩
  | clear _ _ _ =>
    exact answersIf_ite (by simp [Instr.wf, Bool.and_comm]) ⟨_, rfl⟩
  | clearDone _ _ =>
    exact answersIf_ite (by simp [Instr.wf]) ⟨_, rfl⟩
  | release _ _ _ =>
    exact answersIf_ite (by simp [Instr.wf, Bool.and_comm]) ⟨_, rfl⟩
  | stagingMerge _ _ =>
    exact answersIf_ite (by simp [Instr.wf]) ⟨_, rfl⟩
  | sweepComplete _ _ =>
    exact answersIf_ite (by simp [Instr.wf]) ⟨_, rfl⟩
  | tapEdge _ _ =>
    exact answersIf_ite (by simp [Instr.wf]) (by first | exact ⟨_, rfl⟩ | (repeat' split) <;> exact ⟨_, rfl⟩)
  | maskSpanPassed _ _ =>
    exact answersIf_ite (by simp [Instr.wf]) ⟨_, rfl⟩
  | ruleEnable _ _ _ _ =>
    exact answersIf_ite (by simp [Instr.wf, Bool.and_comm]) ⟨_, rfl⟩
  | presenceWindowEnd _ _ =>
    exact answersIf_ite (by simp [Instr.wf]) ⟨_, rfl⟩
  | targetEdgeExpiry _ _ =>
    exact answersIf_ite (by simp [Instr.wf]) ⟨_, rfl⟩
  | verdict _ _ =>
    exact answersIf_ite (by simp [Instr.wf]) ⟨_, rfl⟩
  | markerArm _ _ _ =>
    exact answersIf_ite (by simp [Instr.wf, Bool.and_comm]) ⟨_, rfl⟩
  | markerDisarm _ _ _ =>
    exact answersIf_ite (by simp [Instr.wf, Bool.and_comm]) ⟨_, rfl⟩
  | firing _ _ _ =>
    exact answersIf_ite (by simp [Instr.wf]) ⟨_, rfl⟩
  | pulseEnd _ _ _ =>
    exact answersIf_ite (by simp [Instr.wf]) ⟨_, rfl⟩
  | tripSelect t p trip j lines =>
    cases trip
    · exact answersIf_ite (by by_cases h : j < numMarkers <;> cases hp : isPort p <;> simp [Instr.wf, h, hp]) ⟨_, rfl⟩
    · exact answersIf_ite (by by_cases h : j < numTrips <;> cases hp : isPort p <;> simp [Instr.wf, h, hp]) ⟨_, rfl⟩
  | tripCfg _ _ _ _ =>
    exact answersIf_ite (by simp [Instr.wf, Bool.and_comm]) ⟨_, rfl⟩
  | go _ _ _ =>
    exact answersIf_ite (by simp [Instr.wf, Bool.and_comm]) ⟨_, rfl⟩
  | disable _ _ _ =>
    exact answersIf_ite (by simp [Instr.wf, Bool.and_comm]) ⟨_, rfl⟩
  | pause _ _ _ =>
    exact answersIf_ite (by simp [Instr.wf, Bool.and_comm]) ⟨_, rfl⟩
  | pauseDrained _ _ =>
    exact answersIf_ite (by simp [Instr.wf]) ⟨_, rfl⟩
  | resume _ _ _ =>
    exact answersIf_ite (by simp [Instr.wf, Bool.and_comm]) ⟨_, rfl⟩
  | listCommit _ _ _ =>
    exact answersIf_ite (by simp [Instr.wf, Bool.and_comm]) ⟨_, rfl⟩
  | sluiceBurst _ _ _ =>
    exact answersIf_ite (by simp [Instr.wf]) ⟨_, rfl⟩
  | descriptorComplete _ _ =>
    exact answersIf_ite (by simp [Instr.wf]) ⟨_, rfl⟩
  | engineHalt _ _ _ => exact ⟨fun _ => ⟨_, rfl⟩, nofun⟩
  | autoRestore _ => exact ⟨fun _ => ⟨_, rfl⟩, nofun⟩
  | engineResume _ _ =>
    exact answersIf_ite (by simp [Instr.wf]) ⟨_, rfl⟩
  | disableAll _ _ =>
    exact answersIf_ite (by simp [Instr.wf]) ⟨_, rfl⟩
  | laneEnable _ _ _ _ =>
    exact answersIf_ite (by simp [Instr.wf, Bool.and_comm]) ⟨_, rfl⟩
  | laneStartTime _ => exact ⟨fun _ => ⟨_, rfl⟩, nofun⟩
  | attempt _ _ =>
    exact answersIf_ite (by simp [Instr.wf]) ⟨_, rfl⟩
  | signal _ _ =>
    exact answersIf_ite (by simp [Instr.wf]) ⟨_, rfl⟩
  | lock _ _ =>
    exact answersIf_ite (by simp [Instr.wf]) ⟨_, rfl⟩
  | adapt _ _ _ _ =>
    exact answersIf_ite (by simp [Instr.wf]) ⟨_, rfl⟩
  | ffe _ _ =>
    exact answersIf_ite (by simp [Instr.wf]) ⟨_, rfl⟩
  | trainingTimeout _ _ =>
    exact answersIf_ite (by simp [Instr.wf]) ⟨_, rfl⟩
  | los _ _ =>
    exact answersIf_ite (by simp [Instr.wf]) ⟨_, rfl⟩
  | lostLock _ _ =>
    exact answersIf_ite (by simp [Instr.wf]) ⟨_, rfl⟩
  | seekRetry _ _ _ =>
    exact answersIf_ite (by simp [Instr.wf]) ⟨_, rfl⟩
  | retrain _ _ _ =>
    exact answersIf_ite (by simp [Instr.wf, Bool.and_comm]) ⟨_, rfl⟩
  | eyeMeasurement _ _ _ _ =>
    exact answersIf_ite (by simp [Instr.wf]) ⟨_, rfl⟩
  | adaptationUpdate _ _ _ =>
    exact answersIf_ite (by simp [Instr.wf]) ⟨_, rfl⟩
  | adaptationFreeze _ _ =>
    exact answersIf_ite (by simp [Instr.wf]) ⟨_, rfl⟩
  | slip _ _ _ =>
    exact answersIf_ite (by simp [Instr.wf, Bool.and_comm]) ⟨_, rfl⟩
  | laneRetire _ _ _ =>
    exact answersIf_ite (by simp [Instr.wf, Bool.and_comm]) ⟨_, rfl⟩
  | laneReturn _ _ _ =>
    exact answersIf_ite (by simp [Instr.wf, Bool.and_comm]) ⟨_, rfl⟩
  | p1Req _ _ _ _ =>
    exact answersIf_ite (by simp [Instr.wf, Bool.and_comm]) ⟨_, rfl⟩
  | p2 _ _ _ =>
    exact answersIf_ite (by simp [Instr.wf, Bool.and_comm]) ⟨_, rfl⟩
  | p2Exit _ _ _ =>
    exact answersIf_ite (by simp [Instr.wf, Bool.and_comm]) ⟨_, rfl⟩
  | p2ExitTimeout _ _ =>
    exact answersIf_ite (by simp [Instr.wf]) ⟨_, rfl⟩
  | linkUp _ _ _ _ =>
    exact answersIf_ite (by simp [Instr.wf, Bool.and_comm]) ⟨_, rfl⟩
  | alignSlot _ _ =>
    exact answersIf_ite (by simp [Instr.wf]) ⟨_, rfl⟩
  | align _ _ _ =>
    exact answersIf_ite (by simp [Instr.wf]) ⟨_, rfl⟩
  | data _ _ _ =>
    exact answersIf_ite (by simp [Instr.wf]) ⟨_, rfl⟩
  | stream _ _ _ =>
    exact answersIf_ite (by simp [Instr.wf]) ⟨_, rfl⟩
  | credit _ _ _ =>
    exact answersIf_ite (by simp [Instr.wf]) ⟨_, rfl⟩
  | creditRepeat _ _ _ =>
    exact answersIf_ite (by simp [Instr.wf]) ⟨_, rfl⟩
  | start _ _ _ =>
    exact answersIf_ite (by simp [Instr.wf]) ⟨_, rfl⟩
  | timeSet _ _ _ =>
    exact answersIf_ite (by simp [Instr.wf]) ⟨_, rfl⟩
  | leap _ _ _ =>
    exact answersIf_ite (by simp [Instr.wf]) ⟨_, rfl⟩
  | linkTrigger _ _ _ =>
    exact answersIf_ite (by simp [Instr.wf]) ⟨_, rfl⟩
  | train _ _ _ =>
    exact answersIf_ite (by simp [Instr.wf]) ⟨_, rfl⟩
  | p1 _ _ _ =>
    exact answersIf_ite (by simp [Instr.wf]) ⟨_, rfl⟩
  | unknownBlock _ _ _ =>
    exact answersIf_ite (by simp [Instr.wf]) ⟨_, rfl⟩
  | read _ _ _ =>
    exact answersIf_ite (by simp [Instr.wf]) ⟨_, rfl⟩
  | writePacket _ _ _ =>
    exact answersIf_ite (by simp [Instr.wf]) ⟨_, rfl⟩
  | read8 _ _ _ => exact ⟨fun _ => ⟨_, rfl⟩, nofun⟩
  | read16 _ _ _ => exact ⟨fun _ => ⟨_, rfl⟩, nofun⟩
  | read32 _ _ _ => exact ⟨fun _ => ⟨_, rfl⟩, nofun⟩
  | write32 _ _ _ _ => exact ⟨fun _ => ⟨_, rfl⟩, nofun⟩
  | phase _ => exact ⟨fun _ => ⟨_, rfl⟩, nofun⟩
  | spiCutShort _ _ _ _ _ => exact ⟨fun _ => ⟨_, rfl⟩, nofun⟩
  | regacc _ _ => exact ⟨fun _ => ⟨_, rfl⟩, nofun⟩
  | captureDr _ => exact ⟨fun _ => ⟨_, rfl⟩, nofun⟩
  | idcode _ => exact ⟨fun _ => ⟨_, rfl⟩, nofun⟩
  | bypass _ => exact ⟨fun _ => ⟨_, rfl⟩, nofun⟩
  | samplePreload _ _ _ => exact ⟨fun _ => ⟨_, rfl⟩, nofun⟩
  | extest _ _ => exact ⟨fun _ => ⟨_, rfl⟩, nofun⟩
  | registerWrite _ _ _ _ =>
    exact answersIf_ite (by simp [Instr.wf]) ⟨_, rfl⟩
  | eventWriteBack _ _ _ _ =>
    exact answersIf_ite (by simp [Instr.wf]) ⟨_, rfl⟩
  | tideGate _ _ _ =>
    exact answersIf_ite (by simp [Instr.wf]) ⟨_, rfl⟩
  | harvest _ _ =>
    exact answersIf_ite (by simp [Instr.wf]) ⟨_, rfl⟩
  | harvestInstant _ => exact ⟨fun _ => ⟨_, rfl⟩, nofun⟩
  | harvestDone _ => exact ⟨fun _ => ⟨_, rfl⟩, nofun⟩
  | enterTest _ _ =>
    exact answersIf_ite (by simp [Instr.wf]) ⟨_, rfl⟩
  | leaveTest _ _ =>
    exact answersIf_ite (by simp [Instr.wf]) ⟨_, rfl⟩
  | hbmTrained _ => exact ⟨fun _ => ⟨_, rfl⟩, nofun⟩
  | lifeHour _ _ => exact ⟨fun _ => ⟨_, rfl⟩, nofun⟩
  | hourly _ => exact ⟨fun _ => ⟨_, rfl⟩, nofun⟩
  | ledgerSync _ _ =>
    exact answersIf_ite (by simp [Instr.wf]) ⟨_, rfl⟩
  | ledgerWrite _ _ => exact ⟨fun _ => ⟨_, rfl⟩, nofun⟩
  | patrolRead _ _ _ _ _ => exact ⟨fun _ => ⟨_, rfl⟩, nofun⟩
  | refreshDue _ => exact ⟨fun _ => ⟨_, rfl⟩, nofun⟩
  | refresh _ _ =>
    exact answersIf_ite (by simp [Instr.wf]) ⟨_, rfl⟩
  | refreshAutoStart _ => exact ⟨fun _ => ⟨_, rfl⟩, nofun⟩
  | refreshSector _ _ _ _ => exact ⟨fun _ => ⟨_, rfl⟩, nofun⟩
  | unitRetire _ _ _ _ =>
    exact answersIf_ite (by simp [Instr.wf]) ⟨_, rfl⟩
  | unitReturn _ _ _ _ =>
    exact answersIf_ite (by simp [Instr.wf]) ⟨_, rfl⟩
  | migrationDone _ => exact ⟨fun _ => ⟨_, rfl⟩, nofun⟩
  | engineMoveDone _ => exact ⟨fun _ => ⟨_, rfl⟩, nofun⟩
  | embLock _ _ =>
    exact answersIf_ite (by simp [Instr.wf]) ⟨_, rfl⟩
  | laneQuadFault _ _ =>
    exact answersIf_ite (by simp [Instr.wf]) ⟨_, rfl⟩
  | hbmTrainingStart _ => exact ⟨fun _ => by first | exact ⟨_, rfl⟩ | (simp only [exec, execHbmTrainingStart]; (repeat' split) <;> exact ⟨_, rfl⟩), nofun⟩
  | hbmRetrainingFail _ => exact ⟨fun _ => by first | exact ⟨_, rfl⟩ | (simp only [exec, execHbmRetrainingFail]; (repeat' split) <;> exact ⟨_, rfl⟩), nofun⟩
  | p2ExitComplete _ _ =>
    exact answersIf_ite (by simp [Instr.wf]) ⟨_, rfl⟩
  | p1SignalReturn _ _ =>
    exact answersIf_ite (by simp [Instr.wf]) ⟨_, rfl⟩

end Sys2Proof.Machine
end

