-- ==== Sys2Proof/Laws/Crossing.lean ====
section
/-!
SUPPORT. What an accepted register write through the crossing does, said once, and where the command registers lie.
-/

namespace Sys2Proof.Machine

/-- No code applies when no condition of the list holds. -/
theorem lowestCode_none {l : List (Bool × Nat)} (h : ∀ x ∈ l, x.1 = false) : lowestCode l = none := by
  have : l.filter (·.1) = [] := by
    rw [List.filter_eq_nil_iff]
    intro x hx
    simp [h x hx]
  simp [lowestCode, this]

theorem State.port_readFalls (s : State) (p : Nat) : (readFalls s p).dev = s.dev := rfl

theorem State.writeAccess_taken {s : State} {p : Nat} {r : Reg} {i v : Nat} (c : Command r i)
    (h : takesWrite s p r i (v % 2 ^ 32)) :
    s.writeAccess p (r.addr i) v = ({}, (accepted s p r i (v % 2 ^ 32)).writeReg p r i (v % 2 ^ 32)) := by
  obtain ⟨_, h2, h3, h4, hw, h5⟩ := h
  have ha : r.addr i % 2 ^ 28 / 4 * 4 = r.addr i := by
    have := c.small; have := c.word; omega
  have hb : bits (r.addr i) 28 2 = 0 := by
    have := c.small; simp only [bits]; omega
  have hc : bit (r.addr i) 30 = false := by
    have := c.small
    have e : r.addr i / 2 ^ 30 = 0 := by omega
    simp only [bit, e]; rfl
  have hd : ¬ 2 ^ 31 ≤ r.addr i := by have := c.small; omega
  have hdrop : s.dropPair p = readFalls s p := by simp only [State.dropPair, h4, readFalls]
  have herr : (readFalls s p).addrError (r.addr i) false = none := by
    simp only [State.addrError, ha, hb, hc, if_neg hd, c.place]
    apply lowestCode_none
    have h3' : (readFalls s p).holdServes (.reg r i false) = true := h3
    intro x hx
    simp only [List.mem_cons, List.not_mem_nil, or_false] at hx
    rcases hx with rfl | rfl | rfl | rfl | rfl
    · simp [c.word]
    · simp
    · simp only [Place.readOnly, Bool.false_or]; exact c.rw
    · simp [h3']
    · simp
  have hserved : (readFalls s p).servedAt p (r.addr i) true = true := h2
  simp only [State.writeAccess, h4, ha, c.place, Bool.false_eq_true, if_false, hdrop, hserved, Bool.not_true, herr, c.one,
    Bool.false_and, hb, aliased]
  norm_num
  simp only [State.writeWhole]
  have e : (v % 4294967296) = v % 2 ^ 32 := by norm_num
  rw [e, hw, h5]
  rfl

/-- R401, R407, R414: an accepted write has the effect of its register, and the port reports one access carried out. -/
theorem State.portWrites_taken {s : State} {p : Nat} {r : Reg} {i v : Nat} (c : Command r i)
    (h : takesWrite s p r i (v % 2 ^ 32)) :
    s.portWrites p (r.addr i) [v] = reported ((accepted s p r i (v % 2 ^ 32)).writeReg p r i (v % 2 ^ 32)) p := by
  have hm : r.addr i % 2 ^ 32 = r.addr i := by have := c.small; omega
  simp only [State.portWrites, if_neg h.1, State.writeRun, hm, State.writeAccess_taken c h]
  simp [reported, b2n]

/-- R401, R407, R414: the same of the commands that are a register write. -/
theorem State.hostWrite_taken {s : State} {p : Nat} {r : Reg} {i : Nat} {fs : List (Fld × Nat)} (c : Command r i)
    (h : takesWrite s p r i (s.wordWith r i fs % 2 ^ 32)) :
    s.hostWrite p r i fs =
      reported ((accepted s p r i (s.wordWith r i fs % 2 ^ 32)).writeReg p r i (s.wordWith r i fs % 2 ^ 32)) p := by
  simp only [State.hostWrite, c.one, Bool.false_eq_true, if_false, State.portWrites_taken c h]

/-- The same with the word that is written. -/
theorem State.hostWrite_word {u a : State} {p : Nat} {r : Reg} {i v : Nat} {fs : List (Fld × Nat)} (c : Command r i)
    (e : u.wordWith r i fs % 2 ^ 32 = v) (h : takesWriteIn u p r i v a) :
    u.hostWrite p r i fs = reported (a.writeReg p r i v) p := by
  obtain ⟨h, ha⟩ := h
  subst e ha
  exact State.hostWrite_taken c h

/-- The word of a register of two fields with both given. -/
theorem State.wordWith_two (s : State) {r : Reg} {f g : Fld} (e : r.fields = [f, g]) (h : f ≠ g) (i x y : Nat) :
    s.wordWith r i [(f, x), (g, y)] = f.place x + g.place y := by
  simp [State.wordWith, e, h]

/-- The place of a value that its field takes. -/
theorem Fld.place_fits {f : Fld} {v : Nat} (h : v < 2 ^ f.desc.w) : f.place v = v * 2 ^ f.desc.lo := by
  simp [Fld.place, Nat.mod_eq_of_lt h]

/-! ## Pairs (R409) -/

theorem State.setPort_setPort {s : State} (h : SMap.wf (fun _ => ({} : Port)) s.ports = true) (p : Nat) (a b : Port) :
    (s.setPort p a).setPort p b = s.setPort p b := by
  have e : (s.setPort p a).setPort p b =
      { s.setPort p b with ports := SMap.set (fun _ => {}) (SMap.set (fun _ => {}) s.ports p a) p b } := rfl
  rw [e, SMap.set_set h]
  rfl

theorem State.dropPair_none {s : State} {p : Nat} (h : (s.port p).wr = none) : s.dropPair p = readFalls s p := by
  simp only [State.dropPair, h, readFalls]

theorem State.writeAccess_low {s : State} {p : Nat} {r : Reg} {i v : Nat} (c : PairCommand r i)
    (h1 : s.servedAt p (r.addr i) true = true) (h2 : s.holdServes (.reg r i false) = true) (h3 : (s.port p).wr = none) :
    s.writeAccess p (r.addr i) v =
      ({}, (readFalls s p).setPort p { (readFalls s p).port p with wr := some (r.addr i, v % 2 ^ 32) }) := by
  have ha : r.addr i % 2 ^ 28 / 4 * 4 = r.addr i := by
    have := c.small; have := c.word; omega
  have hb : bits (r.addr i) 28 2 = 0 := by
    have := c.small; simp only [bits]; omega
  have hc : bit (r.addr i) 30 = false := by
    have := c.small
    have e : r.addr i / 2 ^ 30 = 0 := by omega
    simp only [bit, e]; rfl
  have hd : ¬ 2 ^ 31 ≤ r.addr i := by have := c.small; omega
  have herr : (readFalls s p).addrError (r.addr i) false = none := by
    simp only [State.addrError, ha, hb, hc, if_neg hd, c.low]
    apply lowestCode_none
    have h2' : (readFalls s p).holdServes (.reg r i false) = true := h2
    intro x hx
    simp only [List.mem_cons, List.not_mem_nil, or_false] at hx
    rcases hx with rfl | rfl | rfl | rfl | rfl
    · simp [c.word]
    · simp
    · simp only [Place.readOnly, Bool.false_or]; exact c.rw
    · simp [h2']
    · simp
  have hserved : (readFalls s p).servedAt p (r.addr i) true = true := h1
  simp only [State.writeAccess, h3, ha, c.low, Bool.false_eq_true, if_false, State.dropPair_none h3, hserved, Bool.not_true,
    herr, c.pair, Bool.not_false, Bool.and_self, if_true]

theorem State.writeAccess_high {s : State} {p : Nat} {r : Reg} {i lo v : Nat} (c : PairCommand r i)
    (h1 : s.servedAt p (r.addr i + 4) true = true) (h2 : s.holdServes (.reg r i false) = true)
    (h3 : (s.port p).wr = some (r.addr i, lo)) (h4 : lo < 2 ^ 32) :
    s.writeAccess p (r.addr i + 4) v =
      (s.setPort p { s.port p with rd := none, wr := none }).writeWhole p (r.addr i + 4) r i (lo + v % 2 ^ 32 * 2 ^ 32) := by
  have ha : (r.addr i + 4) % 2 ^ 28 / 4 * 4 = r.addr i + 4 := by
    have := c.small; have := c.word; omega
  have ha0 : r.addr i % 2 ^ 28 / 4 * 4 = r.addr i := by
    have := c.small; have := c.word; omega
  have hb : bits (r.addr i + 4) 28 2 = 0 := by
    have := c.small; simp only [bits]; omega
  have hb0 : bits (r.addr i) 28 2 = 0 := by
    have := c.small; simp only [bits]; omega
  have hc : bit (r.addr i + 4) 30 = false := by
    have := c.small
    have e : (r.addr i + 4) / 2 ^ 30 = 0 := by omega
    simp only [bit, e]; rfl
  have hd : ¬ 2 ^ 31 ≤ r.addr i + 4 := by have := c.small; omega
  have hm : (r.addr i + 4) % 4 = 0 := by have := c.word; omega
  have hq : ((r.addr i + 4 == r.addr i + 4) && ((r.addr i + 4) % 4 == 0)) = true := by rw [hm]; simp
  generalize ht : s.setPort p { s.port p with rd := none, wr := none } = t
  have herr : t.addrError (r.addr i + 4) true = none := by
    simp only [State.addrError, ha, hb, hc, if_neg hd, c.high]
    apply lowestCode_none
    have h2' : t.holdServes (.reg r i true) = true := by rw [← ht]; exact h2
    intro x hx
    simp only [List.mem_cons, List.not_mem_nil, or_false] at hx
    rcases hx with rfl | rfl | rfl | rfl | rfl
    · simp [hm]
    · simp
    · simp only [Place.readOnly, Bool.false_or]; exact c.rw
    · simp [h2']
    · simp
  have hserved : t.servedAt p (r.addr i + 4) true = true := by rw [← ht]; exact h1
  simp only [State.writeAccess, h3, ha, ha0, c.high, hq, if_true, ht, hserved, Bool.not_true, Bool.false_eq_true, if_false,
    herr, Bool.and_false, Option.getD, hb, hb0, aliased]
  norm_num
  have e2 : lo % 4294967296 = lo := by omega
  rw [e2]

/-- R409, R414: an accepted write of both words of a pair has the effect of its register. -/
theorem State.portWrites_pair {s : State} {p : Nat} {r : Reg} {i v : Nat} (c : PairCommand r i)
    (hs : SMap.wf (fun _ => ({} : Port)) s.ports = true) (hv : v < 2 ^ 64) (h : takesPair s p r i v) :
    s.portWrites p (r.addr i) [v % 2 ^ 32, v / 2 ^ 32 % 2 ^ 32] = reportedPair ((accepted s p r i v).writeReg p r i v) p := by
  obtain ⟨⟨h1, h2, h3, h4, hw, h5⟩, h6⟩ := h
  have hm : r.addr i % 2 ^ 32 = r.addr i := by have := c.small; omega
  have hm4 : (r.addr i + 4) % 2 ^ 32 = r.addr i + 4 := by have := c.small; omega
  have hlow := State.writeAccess_low (v := v % 2 ^ 32) c h2 h3 h4
  have hF : SMap.wf (fun _ => ({} : Port)) (readFalls s p).ports = true := SMap.wf_set hs
  generalize hy : (readFalls s p).setPort p { (readFalls s p).port p with wr := some (r.addr i, v % 2 ^ 32 % 2 ^ 32) } = y at hlow
  have hyp : y.port p = { (readFalls s p).port p with wr := some (r.addr i, v % 2 ^ 32) } := by
    rw [← hy, State.port_setPort hF, if_pos rfl]
    simp
  have hrf : (readFalls s p).port p = { s.port p with rd := none } := by
    unfold readFalls
    rw [State.port_setPort hs, if_pos rfl]
  have hback : y.setPort p { y.port p with rd := none, wr := none } = readFalls s p := by
    rw [hyp, hrf, ← hy, State.setPort_setPort hF]
    unfold readFalls
    rw [State.setPort_setPort hs, ← h4]
  have hhigh := State.writeAccess_high (s := y) (p := p) (lo := v % 2 ^ 32) (v := v / 2 ^ 32 % 2 ^ 32) c
    (by rw [← hy]; exact h6) (by rw [← hy]; exact h3) (by rw [hyp]) (by omega)
  have e : v % 2 ^ 32 + v / 2 ^ 32 % 2 ^ 32 % 2 ^ 32 * 2 ^ 32 = v := by omega
  rw [hback, e] at hhigh
  simp only [State.writeWhole, hw, h5] at hhigh
  simp only [State.portWrites, if_neg h1, State.writeRun, hm, hlow, hm4, hhigh]
  simp [reportedPair, accepted, b2n]

/-! ## Where the command registers lie (R405) -/

/-- What makes an instance a command register, as a check. -/
def commandOk (r : Reg) (i : Nat) : Bool :=
  decide (r.addr i < 0x8000000) && !(decide (0x3080000 ≤ r.addr i) && decide (r.addr i < 0x3200000)) &&
    r.addr i % 4 == 0 && decide (findReg (r.addr i) ((blkAt (r.addr i)).map Blk.regs).flatten = some (.reg r i false)) &&
    !r.desc.pair && !(r.fields.all fun f => decide (f.desc.acc = .RO))

theorem Command.of_ok {r : Reg} {i : Nat} (h : commandOk r i = true) : Command r i := by
  simp only [commandOk, Bool.and_eq_true, decide_eq_true_eq, beq_iff_eq, Bool.not_eq_true', Bool.and_eq_false_iff,
    decide_eq_false_iff_not] at h
  obtain ⟨⟨⟨⟨⟨h1, h2⟩, h3⟩, h4⟩, h5⟩, h6⟩ := h
  refine ⟨by omega, h3, fun s => ?_, h5, h6⟩
  have h7 : ¬ (0x3080000 ≤ r.addr i ∧ r.addr i < 0x3200000) := by omega
  simp only [State.placeAt, if_neg (Nat.not_le.mpr h1), if_neg h7, h4]

/-- Whether the place `rest` within a unit holds no word of a register. -/
def missRest (d : RegDesc) (rest : Nat) : Bool :=
  let e := if d.ast = 0 then 0 else rest / d.ast
  let last := rest - e * d.ast
  !(decide (e < d.n2) && (last == 0 || (d.pair && last == 4)))

/-- Whether a register has no word at any address `base + u * st` with `u < n`. -/
def Reg.misses (r : Reg) (base st n : Nat) : Bool :=
  let d := r.desc
  (decide (0 < st) && decide (base + n * st ≤ d.base)) ||
    (decide (0 < d.st) && decide (d.base + d.n1 * d.st ≤ base)) ||
    (decide (0 < d.st) && d.st == st && missRest d ((base + d.base * (st - 1)) % st))

theorem Reg.at_none_of_rest {r : Reg} {a : Nat} (hs : 0 < r.desc.st) (ha : r.desc.base ≤ a)
    (h : missRest r.desc ((a - r.desc.base) % r.desc.st) = true) : r.at_ a = none := by
  have e : a - r.desc.base - (a - r.desc.base) / r.desc.st * r.desc.st = (a - r.desc.base) % r.desc.st := by
    have := Nat.div_add_mod (a - r.desc.base) r.desc.st
    rw [Nat.mul_comm] at this
    omega
  simp only [missRest, Bool.not_eq_true', Bool.and_eq_false_iff, decide_eq_false_iff_not, Bool.or_eq_false_iff,
    beq_eq_false_iff_ne, ne_eq] at h
  simp only [Reg.at_, if_neg (Nat.not_lt.mpr ha), if_neg (Nat.ne_of_gt hs), e]
  split
  · rfl
  · rw [if_neg, if_neg]
    · rintro ⟨h1, h2, h3⟩
      rcases h with h | h
      · exact h h1
      · rcases h.2 with h' | h'
        · simp [h2] at h'
        · exact h' h3
    · rintro ⟨h1, h2⟩
      rcases h with h | h
      · exact h h1
      · exact h.1 h2

/-- The check of `misses` is right. -/
theorem Reg.at_none_of_misses {r : Reg} {base st n u : Nat} (hu : u < n) (h : r.misses base st n = true) :
    r.at_ (base + u * st) = none := by
  simp only [Reg.misses, Bool.or_eq_true, Bool.and_eq_true, decide_eq_true_eq, beq_iff_eq] at h
  by_cases hb : base + u * st < r.desc.base
  · simp only [Reg.at_, if_pos hb]
  · have hb := Nat.not_lt.mp hb
    rcases h with (⟨_, h⟩ | ⟨h1, h2⟩) | ⟨⟨h1, h2⟩, h3⟩
    · have h5 : u * st + st ≤ n * st := by
        have := Nat.mul_le_mul_right st (Nat.succ_le_of_lt hu)
        rw [Nat.succ_mul] at this
        exact this
      omega
    · have h3 : r.desc.n1 ≤ (base + u * st - r.desc.base) / r.desc.st := by
        rw [Nat.le_div_iff_mul_le h1]; omega
      simp only [Reg.at_, if_neg (Nat.not_lt.mpr hb), if_neg (Nat.ne_of_gt h1), if_pos h3]
    · subst h2
      refine Reg.at_none_of_rest h1 hb ?_
      have e : (base + u * r.desc.st - r.desc.base) % r.desc.st = (base + r.desc.base * (r.desc.st - 1)) % r.desc.st := by
        obtain ⟨k, hk⟩ : ∃ k, r.desc.st = k + 1 := ⟨r.desc.st - 1, by omega⟩
        rw [hk] at hb ⊢
        have e1 : base + r.desc.base * (k + 1 - 1) + u * (k + 1) =
            base + u * (k + 1) - r.desc.base + r.desc.base * (k + 1) := by
          simp only [Nat.add_sub_cancel]
          have : r.desc.base * (k + 1) = r.desc.base * k + r.desc.base := by ring
          omega
        rw [← Nat.add_mul_mod_self_right (base + u * (k + 1) - r.desc.base) r.desc.base (k + 1), ← e1,
          Nat.add_mul_mod_self_right]
      rw [e]; exact h3

/-- Whether a register comes first in a list among those that have a word at an address `base + u * st` with `u < n`. -/
def Reg.firstIn (r : Reg) (base st n : Nat) : List Reg → Bool
  | [] => false
  | x :: xs => decide (x = r) || (x.misses base st n && Reg.firstIn r base st n xs)

theorem findReg_of_firstIn {r : Reg} {base st n u : Nat} {l : List Reg} (hu : u < n)
    (hr : r.at_ (base + u * st) = some (u, false)) (h : r.firstIn base st n l = true) :
    findReg (base + u * st) l = some (.reg r u false) := by
  induction l with
  | nil => cases h
  | cons x xs ih =>
    simp only [Reg.firstIn, Bool.or_eq_true, decide_eq_true_eq, Bool.and_eq_true] at h
    rcases h with rfl | ⟨h1, h2⟩
    · simp only [findReg, hr]
    · simp only [findReg, Reg.at_none_of_misses hu h1]
      exact ih h2

/-- What makes every instance of a register of units a command register, as a check. -/
def unitsOk (r : Reg) (l : List Blk) : Bool :=
  let d := r.desc
  decide (0 < d.st) && d.ast == 0 && d.n2 == 1 && d.base % 4 == 0 && d.st % 4 == 0 &&
    (decide (d.base + (d.n1 - 1) * d.st < 0x3080000) || decide (0x3200000 ≤ d.base)) &&
    decide (d.base + d.n1 * d.st ≤ 0x8000000) && !d.pair && !(r.fields.all fun f => decide (f.desc.acc = .RO)) &&
    r.firstIn d.base d.st d.n1 (l.map Blk.regs).flatten

theorem Command.of_units {r : Reg} {l : List Blk} (h : unitsOk r l = true)
    (hl : ∀ a, r.desc.base ≤ a → a < r.desc.base + r.desc.n1 * r.desc.st → blkAt a = l) {i : Nat} (hi : i < r.desc.n1) :
    Command r i := by
  simp only [unitsOk, Bool.and_eq_true, decide_eq_true_eq, beq_iff_eq, Bool.not_eq_true', Bool.or_eq_true] at h
  obtain ⟨⟨⟨⟨⟨⟨⟨⟨⟨h1, h2⟩, h3⟩, h4⟩, h5⟩, h6⟩, h7⟩, h8⟩, h9⟩, h10⟩ := h
  have e : r.addr i = r.desc.base + i * r.desc.st := by simp [Reg.addr, h2, h3]
  have hb : i * r.desc.st + r.desc.st ≤ r.desc.n1 * r.desc.st := by
    have := Nat.mul_le_mul_right r.desc.st (Nat.succ_le_of_lt hi)
    rw [Nat.succ_mul] at this
    exact this
  have hb' : i * r.desc.st ≤ (r.desc.n1 - 1) * r.desc.st := Nat.mul_le_mul_right r.desc.st (by omega)
  have hat : r.at_ (r.desc.base + i * r.desc.st) = some (i, false) := by
    simp only [Reg.at_, if_neg (Nat.not_lt.mpr (Nat.le_add_right _ _)), if_neg (Nat.ne_of_gt h1), Nat.add_sub_cancel_left,
      Nat.mul_div_cancel _ h1, if_neg (Nat.not_le.mpr hi), h2, if_true, h3]
    simp
  refine ⟨by omega, ?_, fun s => ?_, h8, h9⟩
  · rw [e, Nat.add_mod, Nat.mul_mod, h5, h4]; simp
  · rw [e]
    have h11 : ¬ 0x8000000 ≤ r.desc.base + i * r.desc.st := by omega
    have h12 : ¬ (0x3080000 ≤ r.desc.base + i * r.desc.st ∧ r.desc.base + i * r.desc.st < 0x3200000) := by omega
    rw [State.placeAt, if_neg h11, if_neg h12, hl _ (by omega) (by omega)]
    exact findReg_of_firstIn hi hat h10

theorem blkAt_TCH {a : Nat} (h1 : 0x1000000 ≤ a) (h2 : a < 0x2000000) : blkAt a = [.TCH] := by
  simp (disch := omega) only [blkAt, if_neg, if_pos]

theorem blkAt_WCH {a : Nat} (h1 : 0x2000000 ≤ a) (h2 : a < 0x3000000) : blkAt a = [.WCH] := by
  simp (disch := omega) only [blkAt, if_neg, if_pos]

theorem blkAt_MC {a : Nat} (h1 : 0x3000000 ≤ a) (h2 : a < 0x4000000) : blkAt a = [.MC] := by
  simp (disch := omega) only [blkAt, if_neg, if_pos]

theorem blkAt_AQ {a : Nat} (h1 : 0x4000000 ≤ a) (h2 : a < 0x4800000) : blkAt a = [.AQ, .CRY] := by
  simp (disch := omega) only [blkAt, if_neg, if_pos]

theorem blkAt_PAN {a : Nat} (h1 : 0x4800000 ≤ a) (h2 : a < 0x4900000) : blkAt a = [.PAN] := by
  simp (disch := omega) only [blkAt, if_neg, if_pos]

theorem blkAt_VD {a : Nat} (h1 : 0x4900000 ≤ a) (h2 : a < 0x5000000) : blkAt a = [.VD] := by
  simp (disch := omega) only [blkAt, if_neg, if_pos]

theorem blkAt_SLU {a : Nat} (h1 : 0x5000000 ≤ a) (h2 : a < 0x6000000) : blkAt a = [.SLU] := by
  simp (disch := omega) only [blkAt, if_neg, if_pos]

theorem blkAt_LNK {a : Nat} (h1 : 0x6000000 ≤ a) (h2 : a < 0x7000000) : blkAt a = [.LNK] := by
  simp (disch := omega) only [blkAt, if_neg, if_pos]

theorem blkAt_MRK {a : Nat} (h1 : 0x7000000 ≤ a) (h2 : a < 0x8000000) : blkAt a = [.MRK] := by
  simp (disch := omega) only [blkAt, if_neg, if_pos]

theorem Command.HVS_CMD : Command .HVS_CMD 0 := .of_ok (by decide)
theorem Command.PWR_CMD : Command .PWR_CMD 0 := .of_ok (by decide)
theorem Command.BOOT_CMD : Command .BOOT_CMD 0 := .of_ok (by decide)
theorem Command.PWR_ISLAND {i : Nat} (h : i < 8) : Command .PWR_ISLAND i :=
  .of_ok ((by decide : ∀ i < 8, commandOk .PWR_ISLAND i = true) i h)
theorem Command.TB_CMD : Command .TB_CMD 0 := .of_ok (by decide)
theorem Command.TB_FRAME_COMMIT : Command .TB_FRAME_COMMIT 0 := .of_ok (by decide)
theorem Command.TCH_ARM {i : Nat} (h : i < 144) : Command .TCH_ARM i :=
  .of_units (r := .TCH_ARM) (l := [.TCH]) (by decide)
    (fun a (h1 : 0x1000104 ≤ a) (h2 : a < 0x1000104 + 144 * 0x1000) => blkAt_TCH (by omega) (by omega)) h
theorem Command.TCH_BE_CMD {i : Nat} (h : i < 144) : Command .TCH_BE_CMD i :=
  .of_units (r := .TCH_BE_CMD) (l := [.TCH]) (by decide)
    (fun a (h1 : 0x1000118 ≤ a) (h2 : a < 0x1000118 + 144 * 0x1000) => blkAt_TCH (by omega) (by omega)) h
theorem Command.TCH_FE_COMMIT {i : Nat} (h : i < 144) : Command .TCH_FE_COMMIT i :=
  .of_units (r := .TCH_FE_COMMIT) (l := [.TCH]) (by decide)
    (fun a (h1 : 0x1000008 ≤ a) (h2 : a < 0x1000008 + 144 * 0x1000) => blkAt_TCH (by omega) (by omega)) h
theorem Command.TCH_WIN_CTL {i : Nat} (h : i < 144) : Command .TCH_WIN_CTL i :=
  .of_units (r := .TCH_WIN_CTL) (l := [.TCH]) (by decide)
    (fun a (h1 : 0x1000018 ≤ a) (h2 : a < 0x1000018 + 144 * 0x1000) => blkAt_TCH (by omega) (by omega)) h
theorem Command.WCH_ARM {i : Nat} (h : i < 16) : Command .WCH_ARM i :=
  .of_units (r := .WCH_ARM) (l := [.WCH]) (by decide)
    (fun a (h1 : 0x2000014 ≤ a) (h2 : a < 0x2000014 + 16 * 0x1000) => blkAt_WCH (by omega) (by omega)) h
theorem Command.WCH_COMMIT {i : Nat} (h : i < 16) : Command .WCH_COMMIT i :=
  .of_units (r := .WCH_COMMIT) (l := [.WCH]) (by decide)
    (fun a (h1 : 0x2000028 ≤ a) (h2 : a < 0x2000028 + 16 * 0x1000) => blkAt_WCH (by omega) (by omega)) h
theorem Command.MC_CTL {i : Nat} (h : i < 8192) : Command .MC_CTL i :=
  .of_units (r := .MC_CTL) (l := [.MC]) (by decide)
    (fun a (h1 : 0x3000008 ≤ a) (h2 : a < 0x3000008 + 8192 * 0x40) => blkAt_MC (by omega) (by omega)) h
theorem Command.AQ_ARM {i : Nat} (h : i < 16) : Command .AQ_ARM i :=
  .of_units (r := .AQ_ARM) (l := [.AQ, .CRY]) (by decide)
    (fun a (h1 : 0x4000004 ≤ a) (h2 : a < 0x4000004 + 16 * 0x10000) => blkAt_AQ (by omega) (by omega)) h
theorem Command.AQ_CMD {i : Nat} (h : i < 16) : Command .AQ_CMD i :=
  .of_units (r := .AQ_CMD) (l := [.AQ, .CRY]) (by decide)
    (fun a (h1 : 0x4000008 ≤ a) (h2 : a < 0x4000008 + 16 * 0x10000) => blkAt_AQ (by omega) (by omega)) h
theorem Command.PAN_STATUS {i : Nat} (h : i < 256) : Command .PAN_STATUS i :=
  .of_units (r := .PAN_STATUS) (l := [.PAN]) (by decide)
    (fun a (h1 : 0x4800008 ≤ a) (h2 : a < 0x4800008 + 256 * 0x10) => blkAt_PAN (by omega) (by omega)) h
theorem Command.CRY_CTL {i : Nat} (h : i < 16) : Command .CRY_CTL i :=
  .of_units (r := .CRY_CTL) (l := [.AQ, .CRY]) (by decide)
    (fun a (h1 : 0x4000404 ≤ a) (h2 : a < 0x4000404 + 16 * 0x10000) => blkAt_AQ (by omega) (by omega)) h
theorem Command.CRY_CMD {i : Nat} (h : i < 16) : Command .CRY_CMD i :=
  .of_units (r := .CRY_CMD) (l := [.AQ, .CRY]) (by decide)
    (fun a (h1 : 0x4000408 ≤ a) (h2 : a < 0x4000408 + 16 * 0x10000) => blkAt_AQ (by omega) (by omega)) h
theorem Command.VD_CFG {i : Nat} (h : i < 256) : Command .VD_CFG i :=
  .of_units (r := .VD_CFG) (l := [.VD]) (by decide)
    (fun a (h1 : 0x4900000 ≤ a) (h2 : a < 0x4900000 + 256 * 0x20) => blkAt_VD (by omega) (by omega)) h
theorem Command.MRK_CTL {i : Nat} (h : i < 32) : Command .MRK_CTL i :=
  .of_units (r := .MRK_CTL) (l := [.MRK]) (by decide)
    (fun a (h1 : 0x7000004 ≤ a) (h2 : a < 0x7000004 + 32 * 0x40) => blkAt_MRK (by omega) (by omega)) h
theorem Command.TRIP_CFG {i : Nat} (h : i < 16) : Command .TRIP_CFG i :=
  .of_units (r := .TRIP_CFG) (l := [.MRK]) (by decide)
    (fun a (h1 : 0x7001000 ≤ a) (h2 : a < 0x7001000 + 16 * 0x20) => blkAt_MRK (by omega) (by omega)) h
theorem Command.SLU_CTL {i : Nat} (h : i < 32) : Command .SLU_CTL i :=
  .of_units (r := .SLU_CTL) (l := [.SLU]) (by decide)
    (fun a (h1 : 0x5000004 ≤ a) (h2 : a < 0x5000004 + 32 * 0x40) => blkAt_SLU (by omega) (by omega)) h
theorem Command.SLU_COMMIT {i : Nat} (h : i < 32) : Command .SLU_COMMIT i :=
  .of_units (r := .SLU_COMMIT) (l := [.SLU]) (by decide)
    (fun a (h1 : 0x5000024 ≤ a) (h2 : a < 0x5000024 + 32 * 0x40) => blkAt_SLU (by omega) (by omega)) h
theorem Command.SLU_ENGINE_CTL : Command .SLU_ENGINE_CTL 0 := .of_ok (by decide)
theorem Command.LNK_LANE_CTL {i : Nat} (h : i < 64) : Command .LNK_LANE_CTL i :=
  .of_units (r := .LNK_LANE_CTL) (l := [.LNK]) (by decide)
    (fun a (h1 : 0x6001004 ≤ a) (h2 : a < 0x6001004 + 64 * 0x40) => blkAt_LNK (by omega) (by omega)) h
theorem Command.LNK_LANE_CMD {i : Nat} (h : i < 64) : Command .LNK_LANE_CMD i :=
  .of_units (r := .LNK_LANE_CMD) (l := [.LNK]) (by decide)
    (fun a (h1 : 0x6001008 ≤ a) (h2 : a < 0x6001008 + 64 * 0x40) => blkAt_LNK (by omega) (by omega)) h
theorem Command.LNK_QUAD_CTL {i : Nat} (h : i < 16) : Command .LNK_QUAD_CTL i :=
  .of_units (r := .LNK_QUAD_CTL) (l := [.LNK]) (by decide)
    (fun a (h1 : 0x6000004 ≤ a) (h2 : a < 0x6000004 + 16 * 0x40) => blkAt_LNK (by omega) (by omega)) h
theorem Command.LNK_LINK_CTL {i : Nat} (h : i < 16) : Command .LNK_LINK_CTL i :=
  .of_units (r := .LNK_LINK_CTL) (l := [.LNK]) (by decide)
    (fun a (h1 : 0x6004004 ≤ a) (h2 : a < 0x6004004 + 16 * 0x40) => blkAt_LNK (by omega) (by omega)) h
theorem Command.DEV_TIDEGATE : Command .DEV_TIDEGATE 0 := .of_ok (by decide)
theorem Command.DEV_CMD : Command .DEV_CMD 0 := .of_ok (by decide)
theorem Command.LIFE_CMD : Command .LIFE_CMD 0 := .of_ok (by decide)
theorem Command.LIFE_UNIT_CMD : Command .LIFE_UNIT_CMD 0 := .of_ok (by decide)

/-- What makes an instance a pair, as a check. -/
def pairOk (r : Reg) (i : Nat) : Bool :=
  decide (r.addr i + 4 < 0x8000000) && !(decide (0x307fffc ≤ r.addr i) && decide (r.addr i < 0x3200000)) &&
    r.addr i % 4 == 0 && decide (findReg (r.addr i) ((blkAt (r.addr i)).map Blk.regs).flatten = some (.reg r i false)) &&
    decide (findReg (r.addr i + 4) ((blkAt (r.addr i + 4)).map Blk.regs).flatten = some (.reg r i true)) &&
    r.desc.pair && !(r.fields.all fun f => decide (f.desc.acc = .RO))

theorem PairCommand.of_ok {r : Reg} {i : Nat} (h : pairOk r i = true) : PairCommand r i := by
  simp only [pairOk, Bool.and_eq_true, decide_eq_true_eq, beq_iff_eq, Bool.not_eq_true', Bool.and_eq_false_iff,
    decide_eq_false_iff_not] at h
  obtain ⟨⟨⟨⟨⟨⟨h1, h2⟩, h3⟩, h4⟩, h4'⟩, h5⟩, h6⟩ := h
  refine ⟨by omega, h3, fun s => ?_, fun s => ?_, h5, h6⟩
  · have h7 : ¬ (0x3080000 ≤ r.addr i ∧ r.addr i < 0x3200000) := by omega
    have h8 : ¬ 0x8000000 ≤ r.addr i := by omega
    simp only [State.placeAt, if_neg h8, if_neg h7, h4]
  · have h7 : ¬ (0x3080000 ≤ r.addr i + 4 ∧ r.addr i + 4 < 0x3200000) := by omega
    have h8 : ¬ 0x8000000 ≤ r.addr i + 4 := by omega
    simp only [State.placeAt, if_neg h8, if_neg h7, h4']

theorem PairCommand.TB_LEAP : PairCommand .TB_LEAP 0 := .of_ok (by decide)
theorem PairCommand.MRK_TRIPSEL {i : Nat} (h : i < 32) : PairCommand .MRK_TRIPSEL i :=
  .of_ok ((by decide : ∀ i < 32, pairOk .MRK_TRIPSEL i = true) i h)
theorem PairCommand.TRIP_SEL {i : Nat} (h : i < 16) : PairCommand .TRIP_SEL i :=
  .of_ok ((by decide : ∀ i < 16, pairOk .TRIP_SEL i = true) i h)

/-- The words of registers of one and of three fields with all given. -/
theorem State.wordWith_one (s : State) {r : Reg} {f : Fld} (e : r.fields = [f]) (i x : Nat) :
    s.wordWith r i [(f, x)] = f.place x := by
  simp [State.wordWith, e]

theorem State.wordWith_three (s : State) {r : Reg} {f g h : Fld} (e : r.fields = [f, g, h]) (h1 : f ≠ g) (h2 : f ≠ h)
    (h3 : g ≠ h) (i x y z : Nat) :
    s.wordWith r i [(f, x), (g, y), (h, z)] = f.place x + g.place y + h.place z := by
  simp [State.wordWith, e, h1, h2, h3, Nat.add_assoc]

/-- R409, R414: the commands that write a pair, with the value that is written. -/
theorem State.hostWrite_pair {u a : State} {p : Nat} {r : Reg} {i v : Nat} {fs : List (Fld × Nat)} (c : PairCommand r i)
    (hs : SMap.wf (fun _ => ({} : Port)) u.ports = true) (e : u.wordWith r i fs = v)
    (hv : v < 2 ^ 64) (h : takesPairIn u p r i v a) :
    u.hostWrite p r i fs = reportedPair (a.writeReg p r i v) p := by
  obtain ⟨h, ha⟩ := h
  subst e ha
  simp only [State.hostWrite, c.pair, if_true, State.portWrites_pair c hs hv h]

/-! ## Reads (R408) -/

/-- R408: what a read of a whole register, or of bytes of it, answers. -/
theorem State.readAccess_taken {s : State} {p a w : Nat} {r : Reg} {i : Nat}
    (hs : SMap.wf (fun _ => ({} : Port)) s.ports = true) (h : takesRead s p a w r i) :
    s.readAccess p a w = ({ data := s.readReg p false r i % 2 ^ 32 / 2 ^ (8 * (a % 4)) % 2 ^ (8 * w) },
      if r.desc.blk = .MC then (readFalls s p).afterBank else readFalls s p) := by
  obtain ⟨_, h2, h3, h4, h5, h6, h7, h8⟩ := h
  have ha : a % 2 ^ 28 = a := by omega
  have hb : bits a 28 2 = 0 := by simp only [bits]; omega
  have hc : bit a 30 = false := by
    have e : a / 2 ^ 30 = 0 := by omega
    simp only [bit, e]; rfl
  have hd : ¬ 2 ^ 31 ≤ a := by omega
  have hp : ∀ b : Nat, (readFalls s p).placeAt b = s.placeAt b := fun b => rfl
  have hserved : (readFalls s p).servedAt p a false = true := h6
  have herr : (readFalls s p).readError a w = none := by
    simp only [State.readError, ha, hb, hc, if_neg hd, hp, h2]
    apply lowestCode_none
    have h7' : (readFalls s p).holdServes (.reg r i false) = true := h7
    intro x hx
    simp only [List.mem_cons, List.not_mem_nil, or_false] at hx
    rcases hx with rfl | rfl | rfl | rfl
    · simp [h5]
    · simp
    · simp [h7']
    · simp [Place.lowWord, h3]
  have hF : SMap.wf (fun _ => ({} : Port)) (readFalls s p).ports = true := SMap.wf_set hs
  have hrf : (readFalls s p).port p = { s.port p with rd := none } := by
    unfold readFalls
    rw [State.port_setPort hs, if_pos rfl]
  have hback : (readFalls s p).setPort p { (readFalls s p).port p with rd := (s.port p).rd } = s := by
    rw [hrf]
    unfold readFalls
    rw [State.setPort_setPort hs]
    show { s with ports := SMap.set _ s.ports p (SMap.get _ s.ports p) } = s
    rw [SMap.set_get hs]
  have hback2 : (readFalls s p).setPort p { (readFalls s p).port p with rd := none } = readFalls s p := by
    rw [hrf]
    unfold readFalls
    rw [State.setPort_setPort hs]
  simp only [State.readAccess, State.dropPair_none h8, hserved, Bool.not_true, Bool.false_eq_true, if_false, herr, ha, hp, h2, hc,
    hback, State.readPlace, h3, hback2, Bool.false_or, Place.blk, beq_iff_eq]

end Sys2Proof.Machine
end

