-- ==== Sys2Proof/Laws/Named.lean ====
section
/-!
SUPPORT. What the named operations leave of each field, as Laws/State.lean says of the updates: one lemma per field.
-/

namespace Sys2Proof.Machine

/-! ## bump -/

@[simp] theorem State.bump_now (s : State) (f : Fld) (i : Nat) : (s.bump f i).now = s.now := rfl
@[simp] theorem State.bump_dev (s : State) (f : Fld) (i : Nat) : (s.bump f i).dev = s.dev := rfl
@[simp] theorem State.bump_prev (s : State) (f : Fld) (i : Nat) : (s.bump f i).prev = s.prev := rfl
@[simp] theorem State.bump_force (s : State) (f : Fld) (i : Nat) : (s.bump f i).force = s.force := rfl
@[simp] theorem State.bump_ports (s : State) (f : Fld) (i : Nat) : (s.bump f i).ports = s.ports := rfl
@[simp] theorem State.bump_seqNo (s : State) (f : Fld) (i : Nat) : (s.bump f i).seqNo = s.seqNo := rfl
@[simp] theorem State.bump_mem (s : State) (f : Fld) (i : Nat) : (s.bump f i).mem = s.mem := rfl
@[simp] theorem State.bump_time (s : State) (f : Fld) (i : Nat) : (s.bump f i).time = s.time := rfl
@[simp] theorem State.bump_power (s : State) (f : Fld) (i : Nat) : (s.bump f i).power = s.power := rfl
@[simp] theorem State.bump_boot (s : State) (f : Fld) (i : Nat) : (s.bump f i).boot = s.boot := rfl
@[simp] theorem State.bump_gov (s : State) (f : Fld) (i : Nat) : (s.bump f i).gov = s.gov := rfl
@[simp] theorem State.bump_islands (s : State) (f : Fld) (i : Nat) : (s.bump f i).islands = s.islands := rfl
@[simp] theorem State.bump_restore (s : State) (f : Fld) (i : Nat) : (s.bump f i).restore = s.restore := rfl
@[simp] theorem State.bump_sources (s : State) (f : Fld) (i : Nat) : (s.bump f i).sources = s.sources := rfl
@[simp] theorem State.bump_ends (s : State) (f : Fld) (i : Nat) : (s.bump f i).ends = s.ends := rfl
@[simp] theorem State.bump_chans (s : State) (f : Fld) (i : Nat) : (s.bump f i).chans = s.chans := rfl
@[simp] theorem State.bump_waves (s : State) (f : Fld) (i : Nat) : (s.bump f i).waves = s.waves := rfl
@[simp] theorem State.bump_slots (s : State) (f : Fld) (i : Nat) : (s.bump f i).slots = s.slots := rfl
@[simp] theorem State.bump_ctxs (s : State) (f : Fld) (i : Nat) : (s.bump f i).ctxs = s.ctxs := rfl
@[simp] theorem State.bump_stabs (s : State) (f : Fld) (i : Nat) : (s.bump f i).stabs = s.stabs := rfl
@[simp] theorem State.bump_engines (s : State) (f : Fld) (i : Nat) : (s.bump f i).engines = s.engines := rfl
@[simp] theorem State.bump_acqs (s : State) (f : Fld) (i : Nat) : (s.bump f i).acqs = s.acqs := rfl
@[simp] theorem State.bump_pans (s : State) (f : Fld) (i : Nat) : (s.bump f i).pans = s.pans := rfl
@[simp] theorem State.bump_crys (s : State) (f : Fld) (i : Nat) : (s.bump f i).crys = s.crys := rfl
@[simp] theorem State.bump_masks (s : State) (f : Fld) (i : Nat) : (s.bump f i).masks = s.masks := rfl
@[simp] theorem State.bump_rules (s : State) (f : Fld) (i : Nat) : (s.bump f i).rules = s.rules := rfl
@[simp] theorem State.bump_markers (s : State) (f : Fld) (i : Nat) : (s.bump f i).markers = s.markers := rfl
@[simp] theorem State.bump_trips (s : State) (f : Fld) (i : Nat) : (s.bump f i).trips = s.trips := rfl
@[simp] theorem State.bump_slus (s : State) (f : Fld) (i : Nat) : (s.bump f i).slus = s.slus := rfl
@[simp] theorem State.bump_slu (s : State) (f : Fld) (i : Nat) : (s.bump f i).slu = s.slu := rfl
@[simp] theorem State.bump_lanes (s : State) (f : Fld) (i : Nat) : (s.bump f i).lanes = s.lanes := rfl
@[simp] theorem State.bump_quads (s : State) (f : Fld) (i : Nat) : (s.bump f i).quads = s.quads := rfl
@[simp] theorem State.bump_links (s : State) (f : Fld) (i : Nat) : (s.bump f i).links = s.links := rfl
@[simp] theorem State.bump_life (s : State) (f : Fld) (i : Nat) : (s.bump f i).life = s.life := rfl
@[simp] theorem State.bump_hbm (s : State) (f : Fld) (i : Nat) : (s.bump f i).hbm = s.hbm := rfl
@[simp] theorem State.bump_bank (s : State) (f : Fld) (i : Nat) : (s.bump f i).bank = s.bank := rfl
@[simp] theorem State.bump_jtag (s : State) (f : Fld) (i : Nat) : (s.bump f i).jtag = s.jtag := rfl
@[simp] theorem State.bump_pending (s : State) (f : Fld) (i : Nat) : (s.bump f i).pending = s.pending := rfl

/-! ## count -/

@[simp] theorem State.count_now (s : State) (f : Fld) (i n : Nat) : (s.count f i n).now = s.now := rfl
@[simp] theorem State.count_dev (s : State) (f : Fld) (i n : Nat) : (s.count f i n).dev = s.dev := rfl
@[simp] theorem State.count_prev (s : State) (f : Fld) (i n : Nat) : (s.count f i n).prev = s.prev := rfl
@[simp] theorem State.count_force (s : State) (f : Fld) (i n : Nat) : (s.count f i n).force = s.force := rfl
@[simp] theorem State.count_ports (s : State) (f : Fld) (i n : Nat) : (s.count f i n).ports = s.ports := rfl
@[simp] theorem State.count_seqNo (s : State) (f : Fld) (i n : Nat) : (s.count f i n).seqNo = s.seqNo := rfl
@[simp] theorem State.count_mem (s : State) (f : Fld) (i n : Nat) : (s.count f i n).mem = s.mem := rfl
@[simp] theorem State.count_time (s : State) (f : Fld) (i n : Nat) : (s.count f i n).time = s.time := rfl
@[simp] theorem State.count_power (s : State) (f : Fld) (i n : Nat) : (s.count f i n).power = s.power := rfl
@[simp] theorem State.count_boot (s : State) (f : Fld) (i n : Nat) : (s.count f i n).boot = s.boot := rfl
@[simp] theorem State.count_gov (s : State) (f : Fld) (i n : Nat) : (s.count f i n).gov = s.gov := rfl
@[simp] theorem State.count_islands (s : State) (f : Fld) (i n : Nat) : (s.count f i n).islands = s.islands := rfl
@[simp] theorem State.count_restore (s : State) (f : Fld) (i n : Nat) : (s.count f i n).restore = s.restore := rfl
@[simp] theorem State.count_sources (s : State) (f : Fld) (i n : Nat) : (s.count f i n).sources = s.sources := rfl
@[simp] theorem State.count_ends (s : State) (f : Fld) (i n : Nat) : (s.count f i n).ends = s.ends := rfl
@[simp] theorem State.count_chans (s : State) (f : Fld) (i n : Nat) : (s.count f i n).chans = s.chans := rfl
@[simp] theorem State.count_waves (s : State) (f : Fld) (i n : Nat) : (s.count f i n).waves = s.waves := rfl
@[simp] theorem State.count_slots (s : State) (f : Fld) (i n : Nat) : (s.count f i n).slots = s.slots := rfl
@[simp] theorem State.count_ctxs (s : State) (f : Fld) (i n : Nat) : (s.count f i n).ctxs = s.ctxs := rfl
@[simp] theorem State.count_stabs (s : State) (f : Fld) (i n : Nat) : (s.count f i n).stabs = s.stabs := rfl
@[simp] theorem State.count_engines (s : State) (f : Fld) (i n : Nat) : (s.count f i n).engines = s.engines := rfl
@[simp] theorem State.count_acqs (s : State) (f : Fld) (i n : Nat) : (s.count f i n).acqs = s.acqs := rfl
@[simp] theorem State.count_pans (s : State) (f : Fld) (i n : Nat) : (s.count f i n).pans = s.pans := rfl
@[simp] theorem State.count_crys (s : State) (f : Fld) (i n : Nat) : (s.count f i n).crys = s.crys := rfl
@[simp] theorem State.count_masks (s : State) (f : Fld) (i n : Nat) : (s.count f i n).masks = s.masks := rfl
@[simp] theorem State.count_rules (s : State) (f : Fld) (i n : Nat) : (s.count f i n).rules = s.rules := rfl
@[simp] theorem State.count_markers (s : State) (f : Fld) (i n : Nat) : (s.count f i n).markers = s.markers := rfl
@[simp] theorem State.count_trips (s : State) (f : Fld) (i n : Nat) : (s.count f i n).trips = s.trips := rfl
@[simp] theorem State.count_slus (s : State) (f : Fld) (i n : Nat) : (s.count f i n).slus = s.slus := rfl
@[simp] theorem State.count_slu (s : State) (f : Fld) (i n : Nat) : (s.count f i n).slu = s.slu := rfl
@[simp] theorem State.count_lanes (s : State) (f : Fld) (i n : Nat) : (s.count f i n).lanes = s.lanes := rfl
@[simp] theorem State.count_quads (s : State) (f : Fld) (i n : Nat) : (s.count f i n).quads = s.quads := rfl
@[simp] theorem State.count_links (s : State) (f : Fld) (i n : Nat) : (s.count f i n).links = s.links := rfl
@[simp] theorem State.count_life (s : State) (f : Fld) (i n : Nat) : (s.count f i n).life = s.life := rfl
@[simp] theorem State.count_hbm (s : State) (f : Fld) (i n : Nat) : (s.count f i n).hbm = s.hbm := rfl
@[simp] theorem State.count_bank (s : State) (f : Fld) (i n : Nat) : (s.count f i n).bank = s.bank := rfl
@[simp] theorem State.count_jtag (s : State) (f : Fld) (i n : Nat) : (s.count f i n).jtag = s.jtag := rfl
@[simp] theorem State.count_pending (s : State) (f : Fld) (i n : Nat) : (s.count f i n).pending = s.pending := rfl

/-! ## raise -/

@[simp] theorem State.raise_now (s : State) (f : Fld) (i : Nat) : (s.raise f i).now = s.now := rfl
@[simp] theorem State.raise_dev (s : State) (f : Fld) (i : Nat) : (s.raise f i).dev = s.dev := rfl
@[simp] theorem State.raise_prev (s : State) (f : Fld) (i : Nat) : (s.raise f i).prev = s.prev := rfl
@[simp] theorem State.raise_force (s : State) (f : Fld) (i : Nat) : (s.raise f i).force = s.force := rfl
@[simp] theorem State.raise_ports (s : State) (f : Fld) (i : Nat) : (s.raise f i).ports = s.ports := rfl
@[simp] theorem State.raise_seqNo (s : State) (f : Fld) (i : Nat) : (s.raise f i).seqNo = s.seqNo := rfl
@[simp] theorem State.raise_mem (s : State) (f : Fld) (i : Nat) : (s.raise f i).mem = s.mem := rfl
@[simp] theorem State.raise_time (s : State) (f : Fld) (i : Nat) : (s.raise f i).time = s.time := rfl
@[simp] theorem State.raise_power (s : State) (f : Fld) (i : Nat) : (s.raise f i).power = s.power := rfl
@[simp] theorem State.raise_boot (s : State) (f : Fld) (i : Nat) : (s.raise f i).boot = s.boot := rfl
@[simp] theorem State.raise_gov (s : State) (f : Fld) (i : Nat) : (s.raise f i).gov = s.gov := rfl
@[simp] theorem State.raise_islands (s : State) (f : Fld) (i : Nat) : (s.raise f i).islands = s.islands := rfl
@[simp] theorem State.raise_restore (s : State) (f : Fld) (i : Nat) : (s.raise f i).restore = s.restore := rfl
@[simp] theorem State.raise_sources (s : State) (f : Fld) (i : Nat) : (s.raise f i).sources = s.sources := rfl
@[simp] theorem State.raise_ends (s : State) (f : Fld) (i : Nat) : (s.raise f i).ends = s.ends := rfl
@[simp] theorem State.raise_chans (s : State) (f : Fld) (i : Nat) : (s.raise f i).chans = s.chans := rfl
@[simp] theorem State.raise_waves (s : State) (f : Fld) (i : Nat) : (s.raise f i).waves = s.waves := rfl
@[simp] theorem State.raise_slots (s : State) (f : Fld) (i : Nat) : (s.raise f i).slots = s.slots := rfl
@[simp] theorem State.raise_ctxs (s : State) (f : Fld) (i : Nat) : (s.raise f i).ctxs = s.ctxs := rfl
@[simp] theorem State.raise_stabs (s : State) (f : Fld) (i : Nat) : (s.raise f i).stabs = s.stabs := rfl
@[simp] theorem State.raise_engines (s : State) (f : Fld) (i : Nat) : (s.raise f i).engines = s.engines := rfl
@[simp] theorem State.raise_acqs (s : State) (f : Fld) (i : Nat) : (s.raise f i).acqs = s.acqs := rfl
@[simp] theorem State.raise_pans (s : State) (f : Fld) (i : Nat) : (s.raise f i).pans = s.pans := rfl
@[simp] theorem State.raise_crys (s : State) (f : Fld) (i : Nat) : (s.raise f i).crys = s.crys := rfl
@[simp] theorem State.raise_masks (s : State) (f : Fld) (i : Nat) : (s.raise f i).masks = s.masks := rfl
@[simp] theorem State.raise_rules (s : State) (f : Fld) (i : Nat) : (s.raise f i).rules = s.rules := rfl
@[simp] theorem State.raise_markers (s : State) (f : Fld) (i : Nat) : (s.raise f i).markers = s.markers := rfl
@[simp] theorem State.raise_trips (s : State) (f : Fld) (i : Nat) : (s.raise f i).trips = s.trips := rfl
@[simp] theorem State.raise_slus (s : State) (f : Fld) (i : Nat) : (s.raise f i).slus = s.slus := rfl
@[simp] theorem State.raise_slu (s : State) (f : Fld) (i : Nat) : (s.raise f i).slu = s.slu := rfl
@[simp] theorem State.raise_lanes (s : State) (f : Fld) (i : Nat) : (s.raise f i).lanes = s.lanes := rfl
@[simp] theorem State.raise_quads (s : State) (f : Fld) (i : Nat) : (s.raise f i).quads = s.quads := rfl
@[simp] theorem State.raise_links (s : State) (f : Fld) (i : Nat) : (s.raise f i).links = s.links := rfl
@[simp] theorem State.raise_life (s : State) (f : Fld) (i : Nat) : (s.raise f i).life = s.life := rfl
@[simp] theorem State.raise_hbm (s : State) (f : Fld) (i : Nat) : (s.raise f i).hbm = s.hbm := rfl
@[simp] theorem State.raise_bank (s : State) (f : Fld) (i : Nat) : (s.raise f i).bank = s.bank := rfl
@[simp] theorem State.raise_jtag (s : State) (f : Fld) (i : Nat) : (s.raise f i).jtag = s.jtag := rfl
@[simp] theorem State.raise_pending (s : State) (f : Fld) (i : Nat) : (s.raise f i).pending = s.pending := rfl

/-! ## ledger -/

@[simp] theorem State.ledger_now (s : State) (k c d : Nat) : (s.ledger k c d).now = s.now := rfl
@[simp] theorem State.ledger_dev (s : State) (k c d : Nat) : (s.ledger k c d).dev = s.dev := rfl
@[simp] theorem State.ledger_prev (s : State) (k c d : Nat) : (s.ledger k c d).prev = s.prev := rfl
@[simp] theorem State.ledger_regs (s : State) (k c d : Nat) : (s.ledger k c d).regs = s.regs := rfl
@[simp] theorem State.ledger_force (s : State) (k c d : Nat) : (s.ledger k c d).force = s.force := rfl
@[simp] theorem State.ledger_ports (s : State) (k c d : Nat) : (s.ledger k c d).ports = s.ports := rfl
@[simp] theorem State.ledger_seqNo (s : State) (k c d : Nat) : (s.ledger k c d).seqNo = s.seqNo := rfl
@[simp] theorem State.ledger_mem (s : State) (k c d : Nat) : (s.ledger k c d).mem = s.mem := rfl
@[simp] theorem State.ledger_time (s : State) (k c d : Nat) : (s.ledger k c d).time = s.time := rfl
@[simp] theorem State.ledger_power (s : State) (k c d : Nat) : (s.ledger k c d).power = s.power := rfl
@[simp] theorem State.ledger_boot (s : State) (k c d : Nat) : (s.ledger k c d).boot = s.boot := rfl
@[simp] theorem State.ledger_gov (s : State) (k c d : Nat) : (s.ledger k c d).gov = s.gov := rfl
@[simp] theorem State.ledger_islands (s : State) (k c d : Nat) : (s.ledger k c d).islands = s.islands := rfl
@[simp] theorem State.ledger_restore (s : State) (k c d : Nat) : (s.ledger k c d).restore = s.restore := rfl
@[simp] theorem State.ledger_sources (s : State) (k c d : Nat) : (s.ledger k c d).sources = s.sources := rfl
@[simp] theorem State.ledger_ends (s : State) (k c d : Nat) : (s.ledger k c d).ends = s.ends := rfl
@[simp] theorem State.ledger_chans (s : State) (k c d : Nat) : (s.ledger k c d).chans = s.chans := rfl
@[simp] theorem State.ledger_waves (s : State) (k c d : Nat) : (s.ledger k c d).waves = s.waves := rfl
@[simp] theorem State.ledger_slots (s : State) (k c d : Nat) : (s.ledger k c d).slots = s.slots := rfl
@[simp] theorem State.ledger_ctxs (s : State) (k c d : Nat) : (s.ledger k c d).ctxs = s.ctxs := rfl
@[simp] theorem State.ledger_stabs (s : State) (k c d : Nat) : (s.ledger k c d).stabs = s.stabs := rfl
@[simp] theorem State.ledger_engines (s : State) (k c d : Nat) : (s.ledger k c d).engines = s.engines := rfl
@[simp] theorem State.ledger_acqs (s : State) (k c d : Nat) : (s.ledger k c d).acqs = s.acqs := rfl
@[simp] theorem State.ledger_pans (s : State) (k c d : Nat) : (s.ledger k c d).pans = s.pans := rfl
@[simp] theorem State.ledger_crys (s : State) (k c d : Nat) : (s.ledger k c d).crys = s.crys := rfl
@[simp] theorem State.ledger_masks (s : State) (k c d : Nat) : (s.ledger k c d).masks = s.masks := rfl
@[simp] theorem State.ledger_rules (s : State) (k c d : Nat) : (s.ledger k c d).rules = s.rules := rfl
@[simp] theorem State.ledger_markers (s : State) (k c d : Nat) : (s.ledger k c d).markers = s.markers := rfl
@[simp] theorem State.ledger_trips (s : State) (k c d : Nat) : (s.ledger k c d).trips = s.trips := rfl
@[simp] theorem State.ledger_slus (s : State) (k c d : Nat) : (s.ledger k c d).slus = s.slus := rfl
@[simp] theorem State.ledger_slu (s : State) (k c d : Nat) : (s.ledger k c d).slu = s.slu := rfl
@[simp] theorem State.ledger_lanes (s : State) (k c d : Nat) : (s.ledger k c d).lanes = s.lanes := rfl
@[simp] theorem State.ledger_quads (s : State) (k c d : Nat) : (s.ledger k c d).quads = s.quads := rfl
@[simp] theorem State.ledger_links (s : State) (k c d : Nat) : (s.ledger k c d).links = s.links := rfl
@[simp] theorem State.ledger_hbm (s : State) (k c d : Nat) : (s.ledger k c d).hbm = s.hbm := rfl
@[simp] theorem State.ledger_bank (s : State) (k c d : Nat) : (s.ledger k c d).bank = s.bank := rfl
@[simp] theorem State.ledger_jtag (s : State) (k c d : Nat) : (s.ledger k c d).jtag = s.jtag := rfl
@[simp] theorem State.ledger_pending (s : State) (k c d : Nat) : (s.ledger k c d).pending = s.pending := rfl
@[simp] theorem State.ledger_life (s : State) (k c d : Nat) :
    (s.ledger k c d).life = { s.life with jobs := s.life.jobs ++ [{ kind := k, cause := c, detail := d }] } := rfl

/-! ## accepted -/

@[simp] theorem State.accepted_now (s : State) (p : Nat) (r : Reg) (i v : Nat) : (accepted s p r i v).now = s.now := rfl
@[simp] theorem State.accepted_dev (s : State) (p : Nat) (r : Reg) (i v : Nat) : (accepted s p r i v).dev = s.dev := rfl
@[simp] theorem State.accepted_prev (s : State) (p : Nat) (r : Reg) (i v : Nat) : (accepted s p r i v).prev = s.prev := rfl
@[simp] theorem State.accepted_regs (s : State) (p : Nat) (r : Reg) (i v : Nat) : (accepted s p r i v).regs = s.regs := rfl
@[simp] theorem State.accepted_force (s : State) (p : Nat) (r : Reg) (i v : Nat) : (accepted s p r i v).force = s.force := rfl
@[simp] theorem State.accepted_seqNo (s : State) (p : Nat) (r : Reg) (i v : Nat) : (accepted s p r i v).seqNo = s.seqNo := rfl
@[simp] theorem State.accepted_mem (s : State) (p : Nat) (r : Reg) (i v : Nat) : (accepted s p r i v).mem = s.mem := rfl
@[simp] theorem State.accepted_time (s : State) (p : Nat) (r : Reg) (i v : Nat) : (accepted s p r i v).time = s.time := rfl
@[simp] theorem State.accepted_power (s : State) (p : Nat) (r : Reg) (i v : Nat) : (accepted s p r i v).power = s.power := rfl
@[simp] theorem State.accepted_boot (s : State) (p : Nat) (r : Reg) (i v : Nat) : (accepted s p r i v).boot = s.boot := rfl
@[simp] theorem State.accepted_gov (s : State) (p : Nat) (r : Reg) (i v : Nat) : (accepted s p r i v).gov = s.gov := rfl
@[simp] theorem State.accepted_islands (s : State) (p : Nat) (r : Reg) (i v : Nat) : (accepted s p r i v).islands = s.islands := rfl
@[simp] theorem State.accepted_restore (s : State) (p : Nat) (r : Reg) (i v : Nat) : (accepted s p r i v).restore = s.restore := rfl
@[simp] theorem State.accepted_sources (s : State) (p : Nat) (r : Reg) (i v : Nat) : (accepted s p r i v).sources = s.sources := rfl
@[simp] theorem State.accepted_ends (s : State) (p : Nat) (r : Reg) (i v : Nat) : (accepted s p r i v).ends = s.ends := rfl
@[simp] theorem State.accepted_chans (s : State) (p : Nat) (r : Reg) (i v : Nat) : (accepted s p r i v).chans = s.chans := rfl
@[simp] theorem State.accepted_waves (s : State) (p : Nat) (r : Reg) (i v : Nat) : (accepted s p r i v).waves = s.waves := rfl
@[simp] theorem State.accepted_slots (s : State) (p : Nat) (r : Reg) (i v : Nat) : (accepted s p r i v).slots = s.slots := rfl
@[simp] theorem State.accepted_ctxs (s : State) (p : Nat) (r : Reg) (i v : Nat) : (accepted s p r i v).ctxs = s.ctxs := rfl
@[simp] theorem State.accepted_stabs (s : State) (p : Nat) (r : Reg) (i v : Nat) : (accepted s p r i v).stabs = s.stabs := rfl
@[simp] theorem State.accepted_engines (s : State) (p : Nat) (r : Reg) (i v : Nat) : (accepted s p r i v).engines = s.engines := rfl
@[simp] theorem State.accepted_acqs (s : State) (p : Nat) (r : Reg) (i v : Nat) : (accepted s p r i v).acqs = s.acqs := rfl
@[simp] theorem State.accepted_pans (s : State) (p : Nat) (r : Reg) (i v : Nat) : (accepted s p r i v).pans = s.pans := rfl
@[simp] theorem State.accepted_crys (s : State) (p : Nat) (r : Reg) (i v : Nat) : (accepted s p r i v).crys = s.crys := rfl
@[simp] theorem State.accepted_masks (s : State) (p : Nat) (r : Reg) (i v : Nat) : (accepted s p r i v).masks = s.masks := rfl
@[simp] theorem State.accepted_rules (s : State) (p : Nat) (r : Reg) (i v : Nat) : (accepted s p r i v).rules = s.rules := rfl
@[simp] theorem State.accepted_markers (s : State) (p : Nat) (r : Reg) (i v : Nat) : (accepted s p r i v).markers = s.markers := rfl
@[simp] theorem State.accepted_trips (s : State) (p : Nat) (r : Reg) (i v : Nat) : (accepted s p r i v).trips = s.trips := rfl
@[simp] theorem State.accepted_slus (s : State) (p : Nat) (r : Reg) (i v : Nat) : (accepted s p r i v).slus = s.slus := rfl
@[simp] theorem State.accepted_slu (s : State) (p : Nat) (r : Reg) (i v : Nat) : (accepted s p r i v).slu = s.slu := rfl
@[simp] theorem State.accepted_lanes (s : State) (p : Nat) (r : Reg) (i v : Nat) : (accepted s p r i v).lanes = s.lanes := rfl
@[simp] theorem State.accepted_quads (s : State) (p : Nat) (r : Reg) (i v : Nat) : (accepted s p r i v).quads = s.quads := rfl
@[simp] theorem State.accepted_links (s : State) (p : Nat) (r : Reg) (i v : Nat) : (accepted s p r i v).links = s.links := rfl
@[simp] theorem State.accepted_life (s : State) (p : Nat) (r : Reg) (i v : Nat) : (accepted s p r i v).life = s.life := rfl
@[simp] theorem State.accepted_hbm (s : State) (p : Nat) (r : Reg) (i v : Nat) : (accepted s p r i v).hbm = s.hbm := rfl
@[simp] theorem State.accepted_bank (s : State) (p : Nat) (r : Reg) (i v : Nat) : (accepted s p r i v).bank = s.bank := rfl
@[simp] theorem State.accepted_jtag (s : State) (p : Nat) (r : Reg) (i v : Nat) : (accepted s p r i v).jtag = s.jtag := rfl
@[simp] theorem State.accepted_pending (s : State) (p : Nat) (r : Reg) (i v : Nat) : (accepted s p r i v).pending = s.pending := rfl

/-! ## reported -/

@[simp] theorem State.reported_now (s : State) (p : Nat) : (reported s p).now = s.now := rfl
@[simp] theorem State.reported_dev (s : State) (p : Nat) : (reported s p).dev = s.dev := rfl
@[simp] theorem State.reported_prev (s : State) (p : Nat) : (reported s p).prev = s.prev := rfl
@[simp] theorem State.reported_regs (s : State) (p : Nat) : (reported s p).regs = s.regs := rfl
@[simp] theorem State.reported_force (s : State) (p : Nat) : (reported s p).force = s.force := rfl
@[simp] theorem State.reported_seqNo (s : State) (p : Nat) : (reported s p).seqNo = s.seqNo := rfl
@[simp] theorem State.reported_mem (s : State) (p : Nat) : (reported s p).mem = s.mem := rfl
@[simp] theorem State.reported_time (s : State) (p : Nat) : (reported s p).time = s.time := rfl
@[simp] theorem State.reported_power (s : State) (p : Nat) : (reported s p).power = s.power := rfl
@[simp] theorem State.reported_boot (s : State) (p : Nat) : (reported s p).boot = s.boot := rfl
@[simp] theorem State.reported_gov (s : State) (p : Nat) : (reported s p).gov = s.gov := rfl
@[simp] theorem State.reported_islands (s : State) (p : Nat) : (reported s p).islands = s.islands := rfl
@[simp] theorem State.reported_restore (s : State) (p : Nat) : (reported s p).restore = s.restore := rfl
@[simp] theorem State.reported_sources (s : State) (p : Nat) : (reported s p).sources = s.sources := rfl
@[simp] theorem State.reported_ends (s : State) (p : Nat) : (reported s p).ends = s.ends := rfl
@[simp] theorem State.reported_chans (s : State) (p : Nat) : (reported s p).chans = s.chans := rfl
@[simp] theorem State.reported_waves (s : State) (p : Nat) : (reported s p).waves = s.waves := rfl
@[simp] theorem State.reported_slots (s : State) (p : Nat) : (reported s p).slots = s.slots := rfl
@[simp] theorem State.reported_ctxs (s : State) (p : Nat) : (reported s p).ctxs = s.ctxs := rfl
@[simp] theorem State.reported_stabs (s : State) (p : Nat) : (reported s p).stabs = s.stabs := rfl
@[simp] theorem State.reported_engines (s : State) (p : Nat) : (reported s p).engines = s.engines := rfl
@[simp] theorem State.reported_acqs (s : State) (p : Nat) : (reported s p).acqs = s.acqs := rfl
@[simp] theorem State.reported_pans (s : State) (p : Nat) : (reported s p).pans = s.pans := rfl
@[simp] theorem State.reported_crys (s : State) (p : Nat) : (reported s p).crys = s.crys := rfl
@[simp] theorem State.reported_masks (s : State) (p : Nat) : (reported s p).masks = s.masks := rfl
@[simp] theorem State.reported_rules (s : State) (p : Nat) : (reported s p).rules = s.rules := rfl
@[simp] theorem State.reported_markers (s : State) (p : Nat) : (reported s p).markers = s.markers := rfl
@[simp] theorem State.reported_trips (s : State) (p : Nat) : (reported s p).trips = s.trips := rfl
@[simp] theorem State.reported_slus (s : State) (p : Nat) : (reported s p).slus = s.slus := rfl
@[simp] theorem State.reported_slu (s : State) (p : Nat) : (reported s p).slu = s.slu := rfl
@[simp] theorem State.reported_lanes (s : State) (p : Nat) : (reported s p).lanes = s.lanes := rfl
@[simp] theorem State.reported_quads (s : State) (p : Nat) : (reported s p).quads = s.quads := rfl
@[simp] theorem State.reported_links (s : State) (p : Nat) : (reported s p).links = s.links := rfl
@[simp] theorem State.reported_life (s : State) (p : Nat) : (reported s p).life = s.life := rfl
@[simp] theorem State.reported_hbm (s : State) (p : Nat) : (reported s p).hbm = s.hbm := rfl
@[simp] theorem State.reported_bank (s : State) (p : Nat) : (reported s p).bank = s.bank := rfl
@[simp] theorem State.reported_jtag (s : State) (p : Nat) : (reported s p).jtag = s.jtag := rfl
@[simp] theorem State.reported_pending (s : State) (p : Nat) : (reported s p).pending = s.pending := rfl

end Sys2Proof.Machine
end

