-- ==== Sys2Proof/Laws/Effects.lean ====
section
/-!
SUPPORT. What the shared operations of the chapters do, each said once.
-/

namespace Sys2Proof.Machine

/-! ## The groups of a sound state -/

theorem State.wf_ports {s : State} (h : Sound s) : SMap.wf (fun _ => {}) s.ports = true := by
  have := h.groups
  simp only [groupsFit, Bool.and_eq_true] at this
  exact this.1.1.1.1.1.1.1.1.1.1.1.1.1.1.1.1.1.1.1.1.1
theorem State.wf_islands {s : State} (h : Sound s) : SMap.wf (fun _ => {}) s.islands = true := by
  have := h.groups
  simp only [groupsFit, Bool.and_eq_true] at this
  exact this.1.1.1.1.1.1.1.1.1.1.1.1.1.1.1.1.1.1.1.1.2
theorem State.wf_restore {s : State} (h : Sound s) : SMap.wf (fun _ => {}) s.restore = true := by
  have := h.groups
  simp only [groupsFit, Bool.and_eq_true] at this
  exact this.1.1.1.1.1.1.1.1.1.1.1.1.1.1.1.1.1.1.1.2
theorem State.wf_sources {s : State} (h : Sound s) : SMap.wf (fun _ => {}) s.sources = true := by
  have := h.groups
  simp only [groupsFit, Bool.and_eq_true] at this
  exact this.1.1.1.1.1.1.1.1.1.1.1.1.1.1.1.1.1.1.2
theorem State.wf_ends {s : State} (h : Sound s) : SMap.wf (fun _ => {}) s.ends = true := by
  have := h.groups
  simp only [groupsFit, Bool.and_eq_true] at this
  exact this.1.1.1.1.1.1.1.1.1.1.1.1.1.1.1.1.1.2
theorem State.wf_chans {s : State} (h : Sound s) : SMap.wf (fun _ => {}) s.chans = true := by
  have := h.groups
  simp only [groupsFit, Bool.and_eq_true] at this
  exact this.1.1.1.1.1.1.1.1.1.1.1.1.1.1.1.1.2
theorem State.wf_waves {s : State} (h : Sound s) : SMap.wf (fun _ => {}) s.waves = true := by
  have := h.groups
  simp only [groupsFit, Bool.and_eq_true] at this
  exact this.1.1.1.1.1.1.1.1.1.1.1.1.1.1.1.2
theorem State.wf_slots {s : State} (h : Sound s) : SMap.wf (fun _ => {}) s.slots = true := by
  have := h.groups
  simp only [groupsFit, Bool.and_eq_true] at this
  exact this.1.1.1.1.1.1.1.1.1.1.1.1.1.1.2
theorem State.wf_ctxs {s : State} (h : Sound s) : SMap.wf (fun _ => {}) s.ctxs = true := by
  have := h.groups
  simp only [groupsFit, Bool.and_eq_true] at this
  exact this.1.1.1.1.1.1.1.1.1.1.1.1.1.2
theorem State.wf_stabs {s : State} (h : Sound s) : SMap.wf (fun _ => {}) s.stabs = true := by
  have := h.groups
  simp only [groupsFit, Bool.and_eq_true] at this
  exact this.1.1.1.1.1.1.1.1.1.1.1.1.2
theorem State.wf_engines {s : State} (h : Sound s) : SMap.wf (fun _ => {}) s.engines = true := by
  have := h.groups
  simp only [groupsFit, Bool.and_eq_true] at this
  exact this.1.1.1.1.1.1.1.1.1.1.1.2
theorem State.wf_acqs {s : State} (h : Sound s) : SMap.wf (fun _ => {}) s.acqs = true := by
  have := h.groups
  simp only [groupsFit, Bool.and_eq_true] at this
  exact this.1.1.1.1.1.1.1.1.1.1.2
theorem State.wf_pans {s : State} (h : Sound s) : SMap.wf (fun _ => {}) s.pans = true := by
  have := h.groups
  simp only [groupsFit, Bool.and_eq_true] at this
  exact this.1.1.1.1.1.1.1.1.1.2
theorem State.wf_crys {s : State} (h : Sound s) : SMap.wf (fun _ => {}) s.crys = true := by
  have := h.groups
  simp only [groupsFit, Bool.and_eq_true] at this
  exact this.1.1.1.1.1.1.1.1.2
theorem State.wf_masks {s : State} (h : Sound s) : SMap.wf (fun _ => {}) s.masks = true := by
  have := h.groups
  simp only [groupsFit, Bool.and_eq_true] at this
  exact this.1.1.1.1.1.1.1.2
theorem State.wf_rules {s : State} (h : Sound s) : SMap.wf (fun _ => {}) s.rules = true := by
  have := h.groups
  simp only [groupsFit, Bool.and_eq_true] at this
  exact this.1.1.1.1.1.1.2
theorem State.wf_markers {s : State} (h : Sound s) : SMap.wf (fun _ => {}) s.markers = true := by
  have := h.groups
  simp only [groupsFit, Bool.and_eq_true] at this
  exact this.1.1.1.1.1.2
theorem State.wf_trips {s : State} (h : Sound s) : SMap.wf (fun _ => {}) s.trips = true := by
  have := h.groups
  simp only [groupsFit, Bool.and_eq_true] at this
  exact this.1.1.1.1.2
theorem State.wf_slus {s : State} (h : Sound s) : SMap.wf (fun _ => {}) s.slus = true := by
  have := h.groups
  simp only [groupsFit, Bool.and_eq_true] at this
  exact this.1.1.1.2
theorem State.wf_lanes {s : State} (h : Sound s) : SMap.wf (fun _ => {}) s.lanes = true := by
  have := h.groups
  simp only [groupsFit, Bool.and_eq_true] at this
  exact this.1.1.2
theorem State.wf_quads {s : State} (h : Sound s) : SMap.wf (fun _ => {}) s.quads = true := by
  have := h.groups
  simp only [groupsFit, Bool.and_eq_true] at this
  exact this.1.2
theorem State.wf_links {s : State} (h : Sound s) : SMap.wf (fun _ => {}) s.links = true := by
  have := h.groups
  simp only [groupsFit, Bool.and_eq_true] at this
  exact this.2

/-! ## Device states -/

theorem State.logicState_ne_aux {s : State} (h : s.logicState = true) : s.dev ≠ .aux := by
  intro h'; simp [State.logicState, h'] at h

theorem State.logicState_ne_off {s : State} (h : s.logicState = true) : s.dev ≠ .off := by
  intro h'; simp [State.logicState, h'] at h

theorem State.raise_frame (s : State) (f : Fld) (i : Nat) : ∃ r, s.raise f i = { s with regs := r } := ⟨_, rfl⟩

theorem State.endBypasses_frame (s : State) : ∃ e, s.endBypasses = { s with ends := e } := by
  refine foldl_pred (P := fun y : State => ∃ e, y = { s with ends := e }) (fun y n h => ?_) ⟨_, rfl⟩
  obtain ⟨e, rfl⟩ := h
  split <;> exact ⟨_, rfl⟩

/-- Everything a change of the device's state can do (R29, R162). -/
theorem State.setDev_frame (s : State) (d : DevState) :
    ∃ p a e r, s.setDev d = { s with dev := d, prev := p, devAt := a, ends := e, regs := r } := by
  unfold State.setDev
  split
  · next h => exact ⟨_, _, _, _, by rw [← h]⟩
  · obtain ⟨e, h⟩ := State.endBypasses_frame s
    dsimp only
    generalize hx : (if s.dev = .test then s.endBypasses else s) = x
    have hx' : ∃ e, x = { s with ends := e } := by
      subst hx; split
      · exact ⟨e, h⟩
      · exact ⟨_, rfl⟩
    obtain ⟨e, rfl⟩ := hx'
    obtain ⟨r, h⟩ := State.raise_frame { s with ends := e, dev := d, prev := s.dev, devAt := s.now } .DEV_EVENT_STATE 0
    exact ⟨_, _, e, r, h⟩

theorem State.enterAux_down {u : State} (h : u.power.fet = false) :
    WentDown (u.enterAux false) ∧ (u.enterAux false).power.above = u.power.above ∧
      (u.enterAux false).power.latched = u.power.latched ∧ (u.enterAux false).life.jobs = u.life.jobs := by
  unfold State.enterAux
  obtain ⟨p, a, e, r, hd⟩ := State.setDev_frame u.loseLogic.dropRestores.shutGates .aux
  rw [hd]
  exact ⟨⟨rfl, h, rfl, rfl, rfl, rfl, rfl⟩, rfl, rfl, rfl⟩

theorem State.protect_down {u : State} (h : u.power.fet = false) (c d : Nat) :
    WentDown (u.protect false c d) ∧ (u.protect false c d).power.protect = true ∧
      (u.protect false c d).power.above = u.power.above ∧ (u.protect false c d).power.latched = u.power.latched := by
  obtain ⟨w, a, b, _⟩ := State.enterAux_down h
  obtain ⟨w1, w2, w3, w4, w5, w6, w7⟩ := w
  simp only [State.protect]
  generalize u.enterAux false = x at *
  split <;> exact ⟨⟨by simp only [w1, State.put_dev, State.count_dev, State.ledger_dev], by simp [w2], by simp [w3], by simp [w4], by simp [w5], by simp [w6], by simp [w7]⟩, by simp, by simp [a], by simp [b]⟩

theorem State.protectNow_down {u : State} (hu : u.logicState = true) (c : Nat) :
    WentDown (u.protectNow c) ∧ (u.protectNow c).power.protect = true ∧
      (u.protectNow c).power.above = u.power.above ∧ (u.protectNow c).power.latched = u.power.latched := by
  have hc : u.cutPower.logicState = true := hu
  simp only [State.protectNow, hc, if_true, State.free]
  obtain ⟨w, a, b, d⟩ := State.protect_down (u := { u.cutPower with seqNo := u.cutPower.seqNo + 1 }) rfl c
    (Config.freeValue u.cutPower.seqNo % 2 ^ 64)
  have b' : _ = u.power.above := b
  have d' : _ = u.power.latched := d
  generalize State.protect _ _ _ _ = x at *
  obtain ⟨w1, w2, w3, w4, w5, w6, w7⟩ := w
  exact ⟨⟨w1, rfl, rfl, rfl, w5, w6, w7⟩, a, b', d'⟩

theorem State.enterBoot_began {u : State} : BeganBoot u u.enterBoot := by
  unfold State.enterBoot
  dsimp only
  have hput : ∀ (x : State) (f : Fld) (i v : Nat), BeganBoot u x → BeganBoot u (x.put f i v) := by
    intro x f i v h
    obtain ⟨h1, h2, h3, h4, h5, h6, h7, h8, h9, h10⟩ := h
    exact ⟨by simp [h1], by simp [h2], by simp [h3], by simp [h4], by simp [h5], by simp [h6], by simp [h7], by simp [h8], by simp [h9], by simp [h10]⟩
  refine foldl_pred (fun x f h => hput x f 0 0 h) (foldl_pred (fun x j h => hput _ _ _ _ (hput x _ _ _ h)) (foldl_pred (fun x n h => hput x _ _ _ h) ?_))
  obtain ⟨p, a, e, r, hd⟩ := State.setDev_frame u.loseLogic.dropRestores .boot
  rw [hd]
  exact ⟨rfl, rfl, rfl, rfl, ⟨rfl, rfl, rfl⟩, rfl, rfl, rfl, rfl, rfl⟩

theorem State.protect_ordered {u : State} (c d : Nat) :
    (u.protect true c d).dev = .aux ∧ (u.protect true c d).power.downAt = some u.now ∧ (u.protect true c d).power.protect = true := by
  have w : (u.enterAux true).dev = .aux ∧ (u.enterAux true).power.downAt = some u.now := by
    unfold State.enterAux
    obtain ⟨p, a, e, r, hd⟩ := State.setDev_frame u.loseLogic.dropRestores.shutGates .aux
    rw [hd]
    exact ⟨rfl, rfl⟩
  obtain ⟨w1, w2⟩ := w
  simp only [State.protect]
  generalize u.enterAux true = x at *
  split <;> exact ⟨by simp [w1], by simp [w2], by simp⟩

/-- The entry to HOLD: the logic and the restorations are lost, and an ordered power-down begins (R86, R119). -/
theorem State.enterHold_held (s : State) :
    s.enterHold.dev = .hold ∧ s.enterHold.restore = [] ∧ s.enterHold.power.downAt = some s.now ∧ s.enterHold.boot.phase = 7 ∧
      s.enterHold.mem = [] ∧ s.enterHold.boot.error = s.boot.error := by
  unfold State.enterHold
  obtain ⟨p, a, e, r, hd⟩ := State.setDev_frame s.loseLogic.dropRestores .hold
  rw [hd]
  exact ⟨rfl, rfl, rfl, rfl, rfl, rfl⟩

/-! ## The governor -/

theorem getD_map_range {α : Type} (n i : Nat) (f : Nat → α) (d : α) (h : i < n) : ((List.range n).map f).getD i d = f i := by
  simp [List.getD, h]

theorem State.readSensors_gov (s : State) (temps : List Int) :
    (s.readSensors temps).gov.temps = (List.range 24).map (replaced (s.readSensors temps).gov.valid temps) ∧
    ∀ i, i < 24 → s.gov.valid.getD i false = true → -320 ≤ temps.getD i 0 → temps.getD i 0 ≤ 1200 →
      (s.readSensors temps).gov.valid.getD i false = true ∧ (s.readSensors temps).gov.temps.getD i 0 = temps.getD i 0 := by
  have key : ∀ (g : Gov) (l : List Nat) (v : Nat → Nat) (w : Nat → Nat) (x : State), x.gov = g →
      (l.foldl (fun s i => (s.put .PWR_TEMP_TEMP i (v i)).put .PWR_TEMP_VALID i (w i)) x).gov = g := by
    intro g l v w x hx
    exact foldl_pred (P := fun y : State => y.gov = g) (fun y i h => by simp [h]) hx
  have hv : ∀ i, i < 24 → s.gov.valid.getD i false = true → -320 ≤ temps.getD i 0 → temps.getD i 0 ≤ 1200 →
      (s.readSensors temps).gov.valid.getD i false = true := by
    intro i hi h1 h2 h3
    have h1' : s.gov.valid.getD i true = true := by
      simp only [List.getD] at h1 ⊢
      cases h : s.gov.valid[i]? <;> simp_all
    unfold State.readSensors
    dsimp only
    split
    all_goals
      first | rw [State.raise_gov, key _ _ _ _ _ rfl] | rw [key _ _ _ _ _ rfl]
      dsimp only
      rw [getD_map_range _ _ _ _ hi, if_pos h1', getD_map_range _ _ _ _ hi, if_pos (by rw [Bool.and_eq_true]; exact ⟨decide_eq_true h2, decide_eq_true h3⟩)]
      rfl
  have ht : (s.readSensors temps).gov.temps = (List.range 24).map (replaced (s.readSensors temps).gov.valid temps) := by
    unfold State.readSensors
    dsimp only
    split
    · simp only [State.raise_gov]; rw [key _ _ _ _ _ rfl]
    · rw [key _ _ _ _ _ rfl]
  refine ⟨ht, fun i hi h1 h2 h3 => ⟨hv i hi h1 h2 h3, ?_⟩⟩
  rw [ht, getD_map_range _ _ _ _ hi, replaced, if_pos (hv i hi h1 h2 h3)]

/-- The sections kept in AO that a boot still has to apply. -/
theorem State.applyTable_frame {s : State} (h : s.dev = .boot → s.boot.cost = none) :
    s.applyTable.dev = s.dev ∧ s.applyTable.power = s.power ∧ s.applyTable.gov.valid = s.gov.valid := by
  have hc : s.applyCosts = s := by
    unfold State.applyCosts
    by_cases hd : s.dev = .boot
    · simp [hd, h hd]
    · simp [hd]
  have hp : ∀ P : State → Prop, P s → (∀ y f i, P y → P (y.apply f i)) → P s.applyPwr := by
    intro P h0 hf
    unfold State.applyPwr State.applyAll
    exact foldl_pred (fun y i h => hf y _ i h) (foldl_pred (fun y f h => hf y f 0 h) h0)
  have h1 : s.applyPwr.dev = s.dev ∧ s.applyPwr.power = s.power ∧ s.applyPwr.gov = s.gov :=
    hp (fun y => y.dev = s.dev ∧ y.power = s.power ∧ y.gov = s.gov) ⟨rfl, rfl, rfl⟩ fun _ _ _ h => by simpa using h
  unfold State.applyTable
  dsimp only
  rw [hc]
  split <;> simp [State.commitCost, h1]

/-- The tick up to the sensors, where no section kept in AO is being applied: the sensors as `readSensors` takes them, and the
device in the same state. -/
theorem State.senseTick_gov (s : State) (temps : List Int)
    (h : s.dev = .boot → s.boot.clocks = none ∧ s.boot.cost = none) :
    (s.senseTick temps).dev = s.dev ∧
    (s.senseTick temps).power = s.power ∧
    (s.senseTick temps).gov.temps = (List.range 24).map (replaced (s.senseTick temps).gov.valid temps) ∧
    ∀ i, i < 24 → s.gov.valid.getD i false = true → -320 ≤ temps.getD i 0 → temps.getD i 0 ≤ 1200 →
      (s.senseTick temps).gov.valid.getD i false = true ∧ (s.senseTick temps).gov.temps.getD i 0 = temps.getD i 0 := by
  unfold State.senseTick
  dsimp only
  have hx : s.noteTick.dev = s.dev ∧ s.noteTick.power = s.power ∧ s.noteTick.gov.valid = s.gov.valid ∧
      s.noteTick.boot = s.boot := ⟨rfl, rfl, rfl, rfl⟩
  generalize s.noteTick = x at *
  have hb : (if x.dev = .boot then x.pumpClocks else x) = x := by
    split
    · next hd => simp [State.pumpClocks, hx.2.2.2, (h (hx.1 ▸ hd)).1]
    · rfl
  rw [hb]
  have hp : x.applyTable.dev = s.dev ∧ x.applyTable.power = s.power ∧ x.applyTable.gov.valid = s.gov.valid := by
    rw [← hx.1, ← hx.2.1, ← hx.2.2.1]
    refine State.applyTable_frame fun hd => ?_
    rw [hx.2.2.2]
    exact (h (hx.1 ▸ hd)).2
  generalize x.applyTable = z at *
  have hs : z.settleCosts.dev = s.dev ∧ z.settleCosts.power = s.power ∧ z.settleCosts.gov.valid = s.gov.valid := by
    unfold State.settleCosts
    refine foldl_pred (P := fun y : State => y.dev = s.dev ∧ y.power = s.power ∧ y.gov.valid = s.gov.valid) (fun w i h => ?_) hp
    split
    · simpa [State.commitCost] using h
    · exact h
  generalize z.settleCosts = w at *
  have hr := State.readSensors_gov w temps
  have hd : (w.readSensors temps).dev = w.dev ∧ (w.readSensors temps).power = w.power := by
    have key : ∀ (l : List Nat) (v : Nat → Nat) (g : Nat → Nat) (x : State), x.dev = w.dev ∧ x.power = w.power →
        (l.foldl (fun s i => (s.put .PWR_TEMP_TEMP i (v i)).put .PWR_TEMP_VALID i (g i)) x).dev = w.dev ∧
        (l.foldl (fun s i => (s.put .PWR_TEMP_TEMP i (v i)).put .PWR_TEMP_VALID i (g i)) x).power = w.power := by
      intro l v g x hx
      exact foldl_pred (P := fun y : State => y.dev = w.dev ∧ y.power = w.power) (fun y i h => by simp [h]) hx
    unfold State.readSensors
    dsimp only
    split
    · simp only [State.raise_dev, State.raise_power]; exact key _ _ _ _ ⟨rfl, rfl⟩
    · exact key _ _ _ _ ⟨rfl, rfl⟩
  generalize w.readSensors temps = r at *
  rw [hs.2.2] at hr
  refine ⟨?_, ?_, ?_, ?_⟩
  · simp [hd, hs]
  · simp [hd, hs]
  · simpa only [State.put_gov] using hr.1
  · simpa only [State.put_gov] using hr.2

theorem State.thermalDown_down {s : State} (i : Nat) (hl : s.logicState = true) :
    WentDown (s.thermalDown i) ∧ (s.thermalDown i).power.thermal = true ∧
      (s.thermalDown i).life.jobs = s.life.jobs ++ [{ kind := kEvent, cause := evThermal, detail := i }] := by
  simp only [State.thermalDown, hl, if_true]
  obtain ⟨w, a, b, d⟩ := State.enterAux_down (u := s.cutPower) rfl
  have d' : _ = s.life.jobs := d
  generalize State.enterAux _ _ = x at *
  obtain ⟨w1, w2, w3, w4, w5, w6, w7⟩ := w
  split <;> exact ⟨⟨by simp [State.cutPower, w1], by simp [State.cutPower], by simp [State.cutPower], by simp [State.cutPower],
    by simp [State.cutPower, w5], by simp [State.cutPower, w6], by simp [State.cutPower, w7]⟩, by simp [State.cutPower],
    by simp [State.cutPower, d']⟩

/-! ## The boot -/

/-- A boot that fails ends in HOLD, with its code (R119, R121). -/
theorem State.failBoot_held (s : State) (code k e : Nat) :
    (s.failBoot code k e).dev = .hold ∧ (s.failBoot code k e).boot.error = code ∧ (s.failBoot code k e).boot.phase = 7 ∧
      (s.failBoot code k e).power.downAt = some s.now ∧ (s.failBoot code k e).mem = [] := by
  unfold State.failBoot
  dsimp only
  have h := State.enterHold_held { ((s.put .BOOT_FAIL_CODE 0 code).put .BOOT_FAIL_SECTION 0 k).put .BOOT_FAIL_ENTRY 0 e with
    boot := { s.boot with error := code, section_ := k } }
  exact ⟨h.1, h.2.2.2.2.2, h.2.2.2.1, h.2.2.1, h.2.2.2.2.1⟩

end Sys2Proof.Machine
end

