-- ==== Sys2Proof/Laws/Keeps.lean ====
section
/-!
SUPPORT. What every part of a command keeps: the soundness of the state, the queue, and the present not moving back.
-/

namespace Sys2Proof.Machine

/-! ## Ops -/

theorem State.applyAll_keeps {s0 s : State} (hs : Keeps s0 s) (fs : List Fld) (i : Nat) : Keeps s0 (s.applyAll fs i) := by
  unfold State.applyAll
  repeat' first
    | with_reducible assumption
    | with_reducible refine foldl_pred (fun _ _ _ => ?_) ?_
    | with_reducible apply State.apply_keeps

theorem State.bump_keeps {s0 s : State} (hs : Keeps s0 s) (f : Fld) (i : Nat) : Keeps s0 (s.bump f i) := by
  unfold State.bump
  repeat' first | with_reducible assumption | with_reducible apply State.put_keeps

theorem State.count_keeps {s0 s : State} (hs : Keeps s0 s) (f : Fld) (i n : Nat) : Keeps s0 (s.count f i n) := by
  unfold State.count
  repeat' first | with_reducible assumption | with_reducible apply State.put_keeps

theorem State.raise_keeps {s0 s : State} (hs : Keeps s0 s) (f : Fld) (i : Nat) : Keeps s0 (s.raise f i) := by
  unfold State.raise
  repeat' first
    | with_reducible assumption
    | with_reducible apply State.put_keeps
    | with_reducible apply State.bump_keeps

theorem State.cleanUnits_keeps {s0 s : State} (hs : Keeps s0 s) (a n : Nat) : Keeps s0 (s.cleanUnits a n) := by
  unfold State.cleanUnits
  repeat' first | with_reducible assumption | simp only [keeps_mk]

theorem State.writeLe_keeps {s0 s : State} (hs : Keeps s0 s) (a n v : Nat) : Keeps s0 (s.writeLe a n v) := by
  unfold State.writeLe
  repeat' first | with_reducible assumption | with_reducible apply State.writeBytes_keeps

theorem State.writeWords_keeps {s0 s : State} (hs : Keeps s0 s) (a : Nat) (ws : List Nat) :
    Keeps s0 (s.writeWords a ws) := by
  unfold State.writeWords
  repeat' first | with_reducible assumption | with_reducible apply State.writeBytes_keeps

/-! ## Blocks -/

theorem State.sendBlock_keeps {s0 s : State} (hs : Keeps s0 s) (b w : Nat) : Keeps s0 (s.sendBlock b w) := by
  unfold State.sendBlock
  dsimp only
  repeat' first | with_reducible assumption | with_reducible apply State.setLink_keeps

/-! ## Records -/

theorem State.noteOverflow_keeps {s0 s : State} (hs : Keeps s0 s) (k : Nat) (buffer : Bool) :
    Keeps s0 (s.noteOverflow k buffer) := by
  unfold State.noteOverflow
  dsimp only
  repeat' first
    | with_reducible assumption
    | with_reducible apply ite_pred
    | with_reducible apply State.count_keeps
    | with_reducible apply State.raise_keeps

theorem State.beginCause_keeps {s0 s : State} (hs : Keeps s0 s) (k c : Nat) (uncounted : Bool) :
    Keeps s0 (s.beginCause k c uncounted) := by
  unfold State.beginCause
  try dsimp only
  repeat' first
    | with_reducible assumption
    | with_reducible apply ite_pred
    | with_reducible apply State.setSrc_keeps
    | with_reducible apply State.noteOverflow_keeps
    | simp only [keeps_mk]
    | split

theorem State.noteLost_keeps {s0 s : State} (hs : Keeps s0 s) (k : Nat) (e : Episode) : Keeps s0 (s.noteLost k e) := by
  unfold State.noteLost
  repeat' first
    | with_reducible assumption
    | with_reducible apply ite_pred
    | with_reducible apply State.count_keeps

theorem State.putAnchor_keeps {s0 s : State} (hs : Keeps s0 s) (k reason : Nat) (t : Int) :
    Keeps s0 (s.putAnchor k reason t) := by
  unfold State.putAnchor
  dsimp only
  repeat' first | with_reducible assumption | with_reducible apply State.setSrc_keeps

theorem State.dueAnchor_keeps {s0 s : State} (hs : Keeps s0 s) (k reason : Nat) (t : Int) :
    Keeps s0 (s.dueAnchor k reason t) := by
  unfold State.dueAnchor
  repeat' first
    | with_reducible assumption
    | with_reducible apply ite_pred
    | with_reducible apply State.putAnchor_keeps
    | with_reducible apply State.beginCause_keeps

theorem State.dueMarker_keeps {s0 s : State} (hs : Keeps s0 s) (k : Nat) (t : Int) (i : Item) :
    Keeps s0 (s.dueMarker k t i) := by
  unfold State.dueMarker
  try dsimp only
  repeat' first
    | with_reducible assumption
    | with_reducible apply ite_pred
    | with_reducible apply State.setSrc_keeps
    | with_reducible apply State.beginCause_keeps

theorem State.stopNow_keeps {s0 s : State} (hs : Keeps s0 s) (k : Nat) (t : Int) (markers : List Item) :
    Keeps s0 (s.stopNow k t markers) := by
  unfold State.stopNow
  try dsimp only
  repeat' first
    | with_reducible assumption
    | with_reducible apply State.noteLost_keeps
    | with_reducible apply State.setSrc_keeps
    | simp only [keeps_mk]
    | split

theorem State.endCauses_keeps {s0 s : State} (hs : Keeps s0 s) (k : Nat) (cs : List Nat) (t : Int) (markers :
    List Item) (reason : Nat) :
    Keeps s0 (s.endCauses k cs t markers reason) := by
  unfold State.endCauses
  try dsimp only
  repeat' first
    | with_reducible assumption
    | with_reducible apply ite_pred
    | with_reducible apply State.setSrc_keeps
    | with_reducible apply State.noteLost_keeps
    | with_reducible apply State.putAnchor_keeps
    | simp only [keeps_mk]
    | split

theorem State.meet_keeps {s0 s : State} (hs : Keeps s0 s) (k : Nat) (t : Int) : Keeps s0 (s.meet k t) := by
  unfold State.meet
  try dsimp only
  repeat' first
    | with_reducible assumption
    | with_reducible apply ite_pred
    | with_reducible refine foldl_pred (fun _ _ _ => ?_) ?_
    | with_reducible apply State.setSrc_keeps
    | with_reducible apply State.stopNow_keeps
    | with_reducible apply State.endCauses_keeps
    | with_reducible apply State.dueMarker_keeps
    | with_reducible apply State.dueAnchor_keeps
    | simp only [keeps_mk]
    | split

theorem State.meetAll_keeps {s0 : State} (k : Nat) (t : Int) (n : Nat) {s : State} (hs : Keeps s0 s) :
    Keeps s0 (State.meetAll k t n s) := by
  induction n generalizing s with
  | zero => exact hs
  | succ n ih =>
    rw [State.meetAll]
    split
    · split
      · exact ih (State.meet_keeps hs _ _)
      · exact hs
    · exact hs

theorem State.writeDue_keeps {s0 s : State} (hs : Keeps s0 s) (k : Nat) (t : Int) : Keeps s0 (s.writeDue k t) := by
  unfold State.writeDue
  try dsimp only
  repeat' first | with_reducible assumption | with_reducible apply State.meetAll_keeps

theorem State.flush_keeps {s0 s : State} (hs : Keeps s0 s) (k : Nat) : Keeps s0 (s.flush k) := by
  unfold State.flush
  repeat' first | with_reducible assumption | with_reducible apply State.writeDue_keeps

theorem State.pushDue_keeps {s0 s : State} (hs : Keeps s0 s) (k : Nat) (t : Int) (w : DueWord) :
    Keeps s0 (s.pushDue k t w) := by
  unfold State.pushDue
  try dsimp only
  repeat' first
    | with_reducible assumption
    | with_reducible apply State.setSrc_keeps
    | with_reducible apply State.flush_keeps

theorem State.startTaking_keeps {s0 s : State} (hs : Keeps s0 s) (k : Nat) (t : Int) (reason : Nat) :
    Keeps s0 (s.startTaking k t reason) := by
  unfold State.startTaking
  try dsimp only
  repeat' first
    | with_reducible assumption
    | with_reducible apply State.writeDue_keeps
    | with_reducible apply State.setSrc_keeps
    | with_reducible apply State.putAnchor_keeps

theorem State.stopTaking_keeps {s0 s : State} (hs : Keeps s0 s) (k : Nat) (t : Int) :
    Keeps s0 (s.stopTaking k t) := by
  unfold State.stopTaking
  repeat' first
    | with_reducible assumption
    | with_reducible apply ite_pred
    | with_reducible apply State.pushDue_keeps

theorem State.endCause_keeps {s0 s : State} (hs : Keeps s0 s) (k c : Nat) (t : Int) :
    Keeps s0 (s.endCause k c t) := by
  unfold State.endCause
  repeat' first
    | with_reducible assumption
    | with_reducible apply ite_pred
    | with_reducible apply State.pushDue_keeps
    | split

theorem State.offerTap_keeps {s0 s : State} (hs : Keeps s0 s) (k : Nat) (t : Int) (pol : Bool) (f : EdgeFlags) :
    KeepsP s0 (s.offerTap k t pol f) := by
  unfold State.offerTap
  dsimp only
  repeat' first
    | with_reducible assumption
    | with_reducible apply ite_pred
    | with_reducible apply State.setSrc_keeps
    | simp only [keepsP_mk]

theorem State.outsideEdge_keeps {s0 s : State} (hs : Keeps s0 s) (k : Nat) : Keeps s0 (s.outsideEdge k) := by
  unfold State.outsideEdge
  dsimp only
  repeat' first | with_reducible assumption | with_reducible apply State.setSrc_keeps | split

theorem State.readCounter_keeps {s0 s : State} (hs : Keeps s0 s) (k n : Nat) : Keeps s0 (s.readCounter k n) := by
  unfold State.readCounter
  dsimp only
  repeat' first | with_reducible assumption | with_reducible apply State.setSrc_keeps | split

theorem State.countEdge_keeps {s0 s : State} (hs : Keeps s0 s) (k : Nat) : Keeps s0 (s.countEdge k) := by
  unfold State.countEdge
  repeat' first
    | with_reducible assumption
    | with_reducible apply ite_pred
    | with_reducible apply State.count_keeps

theorem State.formEdge_keeps {s0 s : State} (hs : Keeps s0 s) (k : Nat) (t : Int) (pol : Bool) (f : EdgeFlags) :
    Keeps s0 (s.formEdge k t pol f) := by
  unfold State.formEdge
  try dsimp only
  repeat' first
    | with_reducible assumption
    | with_reducible apply ite_pred
    | with_reducible apply State.writeDue_keeps
    | with_reducible apply State.countEdge_keeps
    | with_reducible apply State.setSrc_keeps
    | with_reducible apply State.count_keeps
    | with_reducible apply State.beginCause_keeps
    | with_reducible apply State.offerTap_keeps
    | with_reducible refine KeepsP.snd (by assumption) ?_
    | with_reducible apply KeepsP.proj
    | simp only [keepsP_mk]
    | simp only [keeps_mk]
    | split

theorem State.takeBy_keeps {s0 s : State} (hs : Keeps s0 s) (b : Nat) : Keeps s0 (s.takeBy b) := by
  unfold State.takeBy
  repeat' first
    | with_reducible assumption
    | with_reducible apply State.setBe_keeps

theorem State.stamp_keeps {s0 s : State} (hs : Keeps s0 s) (k bin : Nat) : KeepsP s0 (s.stamp k bin) := by
  unfold State.stamp
  repeat' first | with_reducible assumption | with_reducible apply State.takeBy_keeps | simp only [keepsP_mk]

/-! ## Trips -/

theorem State.assertMarker_keeps {s0 s : State} (hs : Keeps s0 s) (k fresh : Nat) : Keeps s0 (s.assertMarker k fresh) := by
  unfold State.assertMarker
  dsimp only
  repeat' first
    | with_reducible assumption
    | with_reducible apply ite_pred
    | with_reducible apply State.raise_keeps
    | with_reducible apply State.setMarker_keeps
    | with_reducible refine times_pred (fun _ _ => ?_) ?_

theorem State.loopEdge_keeps {s0 s : State} (hs : Keeps s0 s) (k : Nat) (pol : Bool) (bin : Nat) :
    Keeps s0 (s.loopEdge k pol bin) := by
  unfold State.loopEdge
  dsimp only
  repeat' first
    | with_reducible assumption
    | with_reducible apply ite_pred
    | with_reducible apply State.formEdge_keeps
    | with_reducible apply State.stamp_keeps
    | with_reducible apply KeepsP.proj

theorem State.endMarker_keeps {s0 s : State} (hs : Keeps s0 s) (k : Nat) : Keeps s0 (s.endMarker k) := by
  unfold State.endMarker
  try dsimp only
  repeat' first
    | with_reducible assumption
    | with_reducible apply State.stopTaking_keeps
    | with_reducible apply State.setMarker_keeps

theorem State.truncate_keeps {s0 s : State} (hs : Keeps s0 s) (k : Nat) : Keeps s0 (s.truncate k) := by
  unfold State.truncate
  dsimp only
  repeat' first
    | with_reducible assumption
    | with_reducible apply ite_pred
    | with_reducible apply State.count_keeps
    | with_reducible apply State.free_keeps
    | with_reducible apply State.setMarker_keeps
    | with_reducible apply State.loopEdge_keeps
    | with_reducible apply State.endMarker_keeps
    | with_reducible apply KeepsP.proj

theorem State.gateMarker_keeps {s0 s : State} (hs : Keeps s0 s) (k lines : Nat) : Keeps s0 (s.gateMarker k lines) := by
  unfold State.gateMarker
  dsimp only
  repeat' first
    | with_reducible assumption
    | with_reducible apply ite_pred
    | with_reducible apply State.setMarker_keeps
    | with_reducible apply State.assertMarker_keeps
    | with_reducible apply State.truncate_keeps

theorem State.gateTrip_keeps {s0 s : State} (hs : Keeps s0 s) (i lines : Nat) : Keeps s0 (s.gateTrip i lines) := by
  unfold State.gateTrip
  try dsimp only
  repeat' first
    | with_reducible assumption
    | with_reducible apply ite_pred
    | with_reducible refine times_pred (fun _ _ => ?_) ?_
    | with_reducible apply State.raise_keeps
    | with_reducible apply State.count_keeps
    | with_reducible apply State.setTrip_keeps

theorem State.settleTrips_keeps {s0 s : State} (hs : Keeps s0 s) : Keeps s0 s.settleTrips := by
  unfold State.settleTrips
  dsimp only
  repeat' first
    | with_reducible assumption
    | with_reducible refine foldl_pred (fun _ _ _ => ?_) ?_
    | with_reducible apply State.gateMarker_keeps
    | with_reducible apply State.gateTrip_keeps

theorem State.startLoop_keeps {s0 s : State} (hs : Keeps s0 s) (k : Nat) : Keeps s0 (s.startLoop k) := by
  unfold State.startLoop
  try dsimp only
  repeat' first
    | with_reducible assumption
    | with_reducible apply ite_pred
    | with_reducible apply State.startTaking_keeps

theorem State.armMarker_keeps {s0 s : State} (hs : Keeps s0 s) (k : Nat) : Keeps s0 (s.armMarker k) := by
  unfold State.armMarker
  try dsimp only
  repeat' first
    | with_reducible assumption
    | with_reducible apply ite_pred
    | with_reducible apply State.setMarker_keeps
    | with_reducible apply State.count_keeps
    | with_reducible apply State.startLoop_keeps

theorem State.disarmMarker_keeps {s0 s : State} (hs : Keeps s0 s) (k : Nat) : Keeps s0 (s.disarmMarker k) := by
  unfold State.disarmMarker
  try dsimp only
  repeat' first
    | with_reducible assumption
    | with_reducible apply ite_pred
    | with_reducible apply State.setMarker_keeps
    | with_reducible apply State.endMarker_keeps

theorem State.releaseNext_keeps {s0 s : State} (hs : Keeps s0 s) (k : Nat) : Keeps s0 (s.releaseNext k) := by
  unfold State.releaseNext
  dsimp only
  repeat' first
    | with_reducible assumption
    | with_reducible apply ite_pred
    | with_reducible refine foldl_pred (fun _ _ _ => ?_) ?_
    | with_reducible apply State.setMarker_keeps
    | with_reducible apply State.setTrip_keeps

theorem State.pulse_keeps {s0 s : State} (hs : Keeps s0 s) (k bin : Nat) (at_ : Int) : Keeps s0 (s.pulse k bin at_) := by
  unfold State.pulse
  dsimp only
  repeat' first
    | with_reducible assumption
    | with_reducible apply ite_pred
    | with_reducible apply State.count_keeps
    | with_reducible apply State.free_keeps
    | with_reducible apply State.setMarker_keeps
    | with_reducible apply State.loopEdge_keeps
    | with_reducible apply KeepsP.proj

theorem State.fire_keeps {s0 s : State} (hs : Keeps s0 s) (k bin : Nat) : KeepsP s0 (s.fire k bin) := by
  unfold State.fire
  try dsimp only
  repeat' first
    | with_reducible assumption
    | with_reducible apply ite_pred
    | with_reducible apply State.setMarker_keeps
    | with_reducible apply State.count_keeps
    | with_reducible apply State.releaseNext_keeps
    | with_reducible apply State.pulse_keeps
    | with_reducible apply State.endMarker_keeps
    | simp only [keepsP_mk]
    | simp only [keeps_mk]
    | split

theorem State.fall_keeps {s0 s : State} (hs : Keeps s0 s) (k bin : Nat) : Keeps s0 (s.fall k bin) := by
  unfold State.fall
  dsimp only
  repeat' first
    | with_reducible assumption
    | with_reducible apply ite_pred
    | with_reducible apply State.setMarker_keeps
    | with_reducible apply State.loopEdge_keeps
    | with_reducible apply State.endMarker_keeps
    | split

/-! ## Tasks -/

theorem State.submit_keeps {s0 s : State} (hs : Keeps s0 s) (cls : Nat) (x : Subject) : Keeps s0 (s.submit cls x) := by
  unfold State.submit
  repeat' first | with_reducible assumption | simp only [keeps_mk]

theorem State.withdraw_keeps {s0 s : State} (hs : Keeps s0 s) (x : Subject) : Keeps s0 (s.withdraw x) := by
  unfold State.withdraw
  dsimp only
  repeat' first | with_reducible assumption | simp only [keeps_mk]

theorem State.retract_keeps {s0 s : State} (hs : Keeps s0 s) (x : Subject) : Keeps s0 (s.retract x) := by
  unfold State.retract
  try dsimp only
  repeat' first | with_reducible assumption | with_reducible apply State.withdraw_keeps | simp only [keeps_mk]

theorem State.queueWake_keeps {s0 s : State} (hs : Keeps s0 s) (k cls : Nat) : Keeps s0 (s.queueWake k cls) := by
  unfold State.queueWake
  repeat' first
    | with_reducible assumption
    | with_reducible apply ite_pred
    | with_reducible apply State.submit_keeps

theorem State.releaseCost_keeps {s0 s : State} (hs : Keeps s0 s) (x : Subject) : Keeps s0 (s.releaseCost x) := by
  unfold State.releaseCost
  repeat' first | with_reducible assumption | simp only [keeps_mk]

theorem State.touchIsland_keeps {s0 s : State} (hs : Keeps s0 s) (k : Nat) : Keeps s0 (s.touchIsland k) := by
  unfold State.touchIsland
  dsimp only
  repeat' first | with_reducible assumption | with_reducible apply State.setIsland_keeps

theorem State.commitCost_keeps {s0 s : State} (hs : Keeps s0 s) (x : Subject) (cost : Nat) (guard : Bool) :
    Keeps s0 (s.commitCost x cost guard) := by
  unfold State.commitCost
  repeat' first | with_reducible assumption | simp only [keeps_mk]

/-! ## Engines -/

theorem State.openAt_keeps {s0 s : State} (hs : Keeps s0 s) (n : Nat) (t : Int) (code : Nat) :
    Keeps s0 (s.openAt n t code) := by
  unfold State.openAt
  dsimp only
  repeat' first | with_reducible assumption | with_reducible apply State.setCtx_keeps

theorem State.shutAt_keeps {s0 s : State} (hs : Keeps s0 s) (n : Nat) (t : Int) (code : Nat) :
    Keeps s0 (s.shutAt n t code) := by
  unfold State.shutAt
  repeat' first | with_reducible assumption | with_reducible apply State.setCtx_keeps

theorem State.cutGates_keeps {s0 s : State} (hs : Keeps s0 s) (n : Nat) (t : Int) (code : Nat) (renew : Bool) :
    Keeps s0 (s.cutGates n t code renew) := by
  unfold State.cutGates
  try dsimp only
  repeat' first
    | with_reducible assumption
    | with_reducible apply ite_pred
    | with_reducible apply State.setCtx_keeps
    | with_reducible apply State.shutAt_keeps
    | with_reducible apply State.openAt_keeps

theorem State.frameGate_keeps {s0 s : State} (hs : Keeps s0 s) (n : Nat) (t : Int) : Keeps s0 (s.frameGate n t) := by
  unfold State.frameGate
  try dsimp only
  repeat' first
    | with_reducible assumption
    | with_reducible apply ite_pred
    | with_reducible apply State.shutAt_keeps
    | with_reducible apply State.openAt_keeps
    | split

theorem State.gateEdge_keeps {s0 s : State} (hs : Keeps s0 s) (n : Nat) (t : Int) : Keeps s0 (s.gateEdge n t) := by
  unfold State.gateEdge
  try dsimp only
  repeat' first
    | with_reducible assumption
    | with_reducible apply ite_pred
    | with_reducible apply State.openAt_keeps
    | with_reducible apply State.shutAt_keeps
    | with_reducible apply State.setCtx_keeps
    | simp only [keeps_mk]
    | split

theorem State.applyUpd_keeps {s0 s : State} (hs : Keeps s0 s) (n : Nat) (u : Upd) : Keeps s0 (s.applyUpd n u) := by
  unfold State.applyUpd
  try dsimp only
  repeat' first
    | with_reducible assumption
    | with_reducible apply ite_pred
    | with_reducible apply State.setCtx_keeps
    | with_reducible apply State.gateEdge_keeps
    | with_reducible apply State.cutGates_keeps
    | with_reducible apply State.shutAt_keeps
    | simp only [keeps_mk]
    | split

theorem State.offerUpd_keeps {s0 s : State} (hs : Keeps s0 s) (n : Nat) (u : Upd) : Keeps s0 (s.offerUpd n u) := by
  unfold State.offerUpd
  try dsimp only
  repeat' first
    | with_reducible assumption
    | with_reducible apply ite_pred
    | with_reducible apply State.setEngine_keeps
    | with_reducible apply State.setCtx_keeps
    | with_reducible apply State.count_keeps
    | with_reducible apply State.raise_keeps

theorem State.drainCtx_keeps {s0 s : State} (hs : Keeps s0 s) (n : Nat) : Keeps s0 (s.drainCtx n) := by
  unfold State.drainCtx
  dsimp only
  repeat' first
    | with_reducible assumption
    | with_reducible refine foldl_pred (fun _ _ _ => ?_) ?_
    | with_reducible apply State.setEngine_keeps
    | with_reducible apply State.applyUpd_keeps

theorem State.settle_keeps {s0 s : State} (hs : Keeps s0 s) (l : List (Option (Nat × Bool))) :
    KeepsP s0 (s.settle l) := by
  induction l generalizing s with
  | nil => exact hs
  | cons x l ih =>
    cases x with
    | none => exact ih (State.free_keeps hs)
    | some v => exact ih hs

theorem State.ringBlock_keeps {s0 s : State} (hs : Keeps s0 s) (words : List Nat) : Keeps s0 (s.ringBlock words) := by
  unfold State.ringBlock
  dsimp only
  repeat' first
    | with_reducible assumption
    | with_reducible apply ite_pred
    | with_reducible apply State.put_keeps
    | with_reducible apply State.count_keeps
    | with_reducible apply State.raise_keeps
    | with_reducible apply State.writeWords_keeps

theorem State.publishGate_keeps {s0 s : State} (hs : Keeps s0 s) (n : Nat) : Keeps s0 (s.publishGate n) := by
  unfold State.publishGate
  try dsimp only
  repeat' first
    | with_reducible assumption
    | with_reducible apply ite_pred
    | with_reducible refine foldl_pred (fun _ _ _ => ?_) ?_
    | with_reducible apply State.settle_keeps
    | with_reducible apply State.free_keeps
    | with_reducible apply State.setStab_keeps
    | with_reducible apply State.put_keeps
    | with_reducible apply State.ringBlock_keeps
    | with_reducible apply State.setCtx_keeps
    | with_reducible refine KeepsP.snd (by assumption) ?_
    | with_reducible apply KeepsP.proj
    | simp only [keepsP_mk]
    | simp only [keeps_mk]
    | split

theorem State.publishAll_keeps {s0 s : State} (hs : Keeps s0 s) (n : Nat) : Keeps s0 (s.publishAll n) := by
  unfold State.publishAll
  repeat' first
    | with_reducible assumption
    | with_reducible apply State.publishGate_keeps
    | with_reducible refine times_pred (fun _ _ => ?_) ?_

theorem State.engineFor_keeps {s0 s : State} (hs : Keeps s0 s) (n : Nat) : KeepsP s0 (s.engineFor n) := by
  unfold State.engineFor
  dsimp only
  repeat' first
    | with_reducible assumption
    | with_reducible apply ite_pred
    | with_reducible apply State.free_keeps
    | simp only [keepsP_mk]
    | with_reducible apply KeepsP.proj

theorem State.admitContext_keeps {s0 s : State} (hs : Keeps s0 s) (n : Nat) : Keeps s0 (s.admitContext n) := by
  unfold State.admitContext
  try dsimp only
  repeat' first
    | with_reducible assumption
    | with_reducible apply ite_pred
    | with_reducible apply State.engineFor_keeps
    | with_reducible apply State.setStab_keeps
    | with_reducible apply State.setCtx_keeps
    | with_reducible apply State.put_keeps
    | with_reducible apply State.openAt_keeps
    | with_reducible refine KeepsP.snd (by assumption) ?_
    | with_reducible apply KeepsP.proj
    | simp only [keepsP_mk]
    | simp only [keeps_mk]
    | split

theorem State.endContext_keeps {s0 s : State} (hs : Keeps s0 s) (n : Nat) : Keeps s0 (s.endContext n) := by
  unfold State.endContext
  try dsimp only
  repeat' first
    | with_reducible assumption
    | with_reducible apply State.drainCtx_keeps
    | with_reducible apply State.shutAt_keeps
    | with_reducible apply State.publishAll_keeps
    | with_reducible apply State.setStab_keeps
    | with_reducible apply State.setCtx_keeps
    | with_reducible apply State.releaseCost_keeps
    | split

theorem State.disarmCtx_keeps {s0 s : State} (hs : Keeps s0 s) (n : Nat) : Keeps s0 (s.disarmCtx n) := by
  unfold State.disarmCtx
  try dsimp only
  repeat' first
    | with_reducible assumption
    | with_reducible apply ite_pred
    | with_reducible apply State.setCtx_keeps
    | with_reducible apply State.retract_keeps
    | with_reducible apply State.endContext_keeps

theorem State.armCtx_keeps {s0 s : State} (hs : Keeps s0 s) (n : Nat) : Keeps s0 (s.armCtx n) := by
  unfold State.armCtx
  dsimp only
  repeat' first
    | with_reducible assumption
    | with_reducible apply ite_pred
    | with_reducible apply State.setCtx_keeps
    | with_reducible apply State.submit_keeps

theorem State.restartCtx_keeps {s0 s : State} (hs : Keeps s0 s) (n : Nat) : Keeps s0 (s.restartCtx n) := by
  unfold State.restartCtx
  try dsimp only
  repeat' first
    | with_reducible assumption
    | with_reducible apply ite_pred
    | with_reducible apply State.shutAt_keeps
    | with_reducible apply State.setCtx_keeps
    | with_reducible apply State.openAt_keeps
    | simp only [keeps_mk]
    | split

theorem State.clearStab_keeps {s0 s : State} (hs : Keeps s0 s) (n : Nat) : Keeps s0 (s.clearStab n) := by
  unfold State.clearStab
  repeat' first | with_reducible assumption | with_reducible apply State.setStab_keeps | split

theorem State.newFrameLen_keeps {s0 s : State} (hs : Keeps s0 s) (n : Nat) (t : Int) : Keeps s0 (s.newFrameLen n t) := by
  unfold State.newFrameLen
  dsimp only
  repeat' first
    | with_reducible assumption
    | with_reducible apply ite_pred
    | with_reducible apply State.put_keeps
    | with_reducible apply State.raise_keeps
    | with_reducible apply State.setCtx_keeps
    | with_reducible apply State.openAt_keeps
    | with_reducible apply State.endContext_keeps

theorem State.frameContexts_keeps {s0 s : State} (hs : Keeps s0 s) (t : Int) : Keeps s0 (s.frameContexts t) := by
  unfold State.frameContexts
  dsimp only
  repeat' first
    | with_reducible assumption
    | with_reducible refine foldl_pred (fun _ _ _ => ?_) ?_
    | with_reducible apply State.setEngine_keeps
    | with_reducible apply State.frameGate_keeps

theorem execEngineUpdate_keeps {s0 s : State} (t e : Nat) (hs : Keeps s0 s) : KeepsO s0 (execEngineUpdate t e s) := by
  unfold execEngineUpdate
  try dsimp only
  repeat' first
    | with_reducible assumption
    | with_reducible apply ite_pred
    | with_reducible apply State.at_keeps
    | with_reducible apply State.setEngine_keeps
    | with_reducible apply State.applyUpd_keeps
    | with_reducible apply keepsO_next
    | with_reducible exact keepsO_fault
    | simp only [keeps_mk]
    | split

theorem execGateTimeout_keeps {s0 s : State} (t n : Nat) (hs : Keeps s0 s) : KeepsO s0 (execGateTimeout t n s) := by
  unfold execGateTimeout
  dsimp only
  repeat' first
    | with_reducible assumption
    | with_reducible apply ite_pred
    | with_reducible apply State.at_keeps
    | with_reducible apply State.shutAt_keeps
    | with_reducible apply keepsO_next
    | with_reducible exact keepsO_fault
    | split

theorem execPublish_keeps {s0 s : State} (t n : Nat) (hs : Keeps s0 s) : KeepsO s0 (execPublish t n s) := by
  unfold execPublish
  dsimp only
  repeat' first
    | with_reducible assumption
    | with_reducible apply ite_pred
    | with_reducible apply State.at_keeps
    | with_reducible apply State.publishGate_keeps
    | with_reducible apply keepsO_next
    | with_reducible exact keepsO_fault
    | split

theorem execContextMove_keeps {s0 s : State} (t n : Nat) (hs : Keeps s0 s) : KeepsO s0 (execContextMove t n s) := by
  unfold execContextMove
  dsimp only
  repeat' first
    | with_reducible assumption
    | with_reducible apply ite_pred
    | with_reducible apply State.at_keeps
    | with_reducible apply State.setCtx_keeps
    | with_reducible apply State.drainCtx_keeps
    | with_reducible apply keepsO_next
    | with_reducible exact keepsO_fault
    | split

/-! ## Crystal -/

theorem State.zeroGranule_keeps {s0 s : State} (hs : Keeps s0 s) (g : Nat) : Keeps s0 (s.zeroGranule g) :=
  State.dropMem_keeps hs _

theorem State.armCry_keeps {s0 s : State} (hs : Keeps s0 s) (n : Nat) : Keeps s0 (s.armCry n) := by
  unfold State.armCry
  try dsimp only
  repeat' first
    | with_reducible assumption
    | with_reducible apply ite_pred
    | with_reducible refine foldl_pred (fun _ _ _ => ?_) ?_
    | with_reducible apply State.zeroGranule_keeps
    | with_reducible apply State.put_keeps
    | with_reducible apply State.setCry_keeps
    | simp only [keeps_mk]
    | split

theorem State.addCell_keeps {s0 s : State} (hs : Keeps s0 s) (a w : Nat) : KeepsF s0 (s.addCell a w) := by
  unfold State.addCell
  dsimp only
  repeat' first
    | with_reducible assumption
    | with_reducible apply ite_pred
    | with_reducible apply State.writeLe_keeps
    | simp only [keepsF_mk]

theorem State.binValue_keeps {s0 s : State} (hs : Keeps s0 s) (n h : Nat) (v : Int) :
    Keeps s0 (s.binValue n h v) := by
  unfold State.binValue
  try dsimp only
  repeat' first
    | with_reducible assumption
    | with_reducible apply ite_pred
    | with_reducible apply State.count_keeps
    | with_reducible apply State.addCell_keeps
    | with_reducible apply State.put_keeps
    | with_reducible apply State.raise_keeps
    | with_reducible refine KeepsF.fst (by assumption) ?_
    | with_reducible apply KeepsF.proj
    | simp only [keepsF_mk]
    | split

theorem State.histValue_keeps {s0 s : State} (hs : Keeps s0 s) (n h : Nat) (v : Int) (fe cv : Bool) :
    Keeps s0 (s.histValue n h v fe cv) := by
  unfold State.histValue
  try dsimp only
  repeat' first
    | with_reducible assumption
    | with_reducible apply ite_pred
    | with_reducible apply State.count_keeps
    | with_reducible apply State.raise_keeps
    | with_reducible apply State.setCry_keeps
    | with_reducible apply State.binValue_keeps

theorem State.setHist_keeps {s0 s : State} (hs : Keeps s0 s) (n h : Nat) (v : HistState) : Keeps s0 (s.setHist n h v) := by
  unfold State.setHist
  dsimp only
  repeat' first | with_reducible assumption | with_reducible apply State.setCry_keeps

theorem State.cryEdge_keeps {s0 s : State} (hs : Keeps s0 s) (n k : Nat) (t : Int) (pol est fe cv : Bool)
    (trig : Option Int) (last : Option (Int × Int)) :
    Keeps s0 (s.cryEdge n k t pol est fe cv trig last) := by
  unfold State.cryEdge
  dsimp only
  repeat' first
    | with_reducible assumption
    | with_reducible apply ite_pred
    | with_reducible refine foldl_pred (fun _ _ _ => ?_) ?_
    | with_reducible apply State.histValue_keeps
    | with_reducible apply State.setHist_keeps

theorem State.cryBreak_keeps {s0 s : State} (hs : Keeps s0 s) (n k : Nat) : Keeps s0 (s.cryBreak n k) := by
  unfold State.cryBreak
  repeat' first
    | with_reducible assumption
    | with_reducible apply ite_pred
    | with_reducible refine foldl_pred (fun _ _ _ => ?_) ?_
    | with_reducible apply State.setHist_keeps

theorem State.mapSample_keeps {s0 s : State} (hs : Keeps s0 s) (n col : Nat) (x : Int) :
    Keeps s0 (s.mapSample n col x) := by
  unfold State.mapSample
  dsimp only
  repeat' first
    | with_reducible assumption
    | with_reducible apply ite_pred
    | with_reducible apply State.put_keeps
    | with_reducible apply State.count_keeps
    | with_reducible apply State.raise_keeps
    | with_reducible apply State.addCell_keeps
    | with_reducible apply KeepsF.proj

theorem State.endSweep_keeps {s0 s : State} (hs : Keeps s0 s) (n : Nat) : Keeps s0 (s.endSweep n) := by
  unfold State.endSweep
  dsimp only
  repeat' first
    | with_reducible assumption
    | with_reducible apply ite_pred
    | with_reducible apply State.count_keeps
    | with_reducible apply State.setCry_keeps
    | split

theorem State.dueSweeps_keeps {s0 s : State} (hs : Keeps s0 s) (n : Nat) (t : Int) : Keeps s0 (s.dueSweeps n t) := by
  unfold State.dueSweeps
  try dsimp only
  repeat' first
    | with_reducible assumption
    | with_reducible apply ite_pred
    | with_reducible apply State.endSweep_keeps
    | with_reducible apply State.setCry_keeps
    | with_reducible apply State.count_keeps
    | simp only [keeps_mk]
    | split

theorem State.sweepSample_keeps {s0 s : State} (hs : Keeps s0 s) (n : Nat) (t x : Int) (usable : Bool) :
    Keeps s0 (s.sweepSample n t x usable) := by
  unfold State.sweepSample
  try dsimp only
  repeat' first
    | with_reducible assumption
    | with_reducible apply ite_pred
    | with_reducible apply State.dueSweeps_keeps
    | with_reducible apply State.setCry_keeps
    | with_reducible apply State.count_keeps
    | with_reducible apply State.mapSample_keeps
    | simp only [keeps_mk]
    | split

theorem State.sweepRef_keeps {s0 s : State} (hs : Keeps s0 s) (n : Nat) (at_ : Int) (hist : List (Int × Int ×
    Bool)) :
    Keeps s0 (s.sweepRef n at_ hist) := by
  unfold State.sweepRef
  try dsimp only
  repeat' first
    | with_reducible assumption
    | with_reducible apply ite_pred
    | with_reducible refine foldl_pred (fun _ _ _ => ?_) ?_
    | with_reducible apply State.count_keeps
    | with_reducible apply State.setCry_keeps
    | with_reducible apply State.sweepSample_keeps

theorem State.freezeCry_keeps {s0 s : State} (hs : Keeps s0 s) (n : Nat) (on : Bool) : Keeps s0 (s.freezeCry n on) := by
  unfold State.freezeCry
  dsimp only
  repeat' first
    | with_reducible assumption
    | with_reducible apply ite_pred
    | with_reducible apply State.put_keeps
    | with_reducible apply State.setCry_keeps

theorem State.clearCry_keeps {s0 s : State} (hs : Keeps s0 s) (n : Nat) : Keeps s0 (s.clearCry n) := by
  unfold State.clearCry
  dsimp only
  repeat' first | with_reducible assumption | with_reducible apply State.setCry_keeps | split

theorem State.endClear_keeps {s0 s : State} (hs : Keeps s0 s) (n : Nat) : Keeps s0 (s.endClear n) := by
  unfold State.endClear
  dsimp only
  repeat' first
    | with_reducible assumption
    | with_reducible apply ite_pred
    | with_reducible refine foldl_pred (fun _ _ _ => ?_) ?_
    | with_reducible apply State.put_keeps
    | with_reducible apply State.setCry_keeps
    | with_reducible apply State.zeroGranule_keeps
    | split

theorem State.releaseCry_keeps {s0 s : State} (hs : Keeps s0 s) (n : Nat) : Keeps s0 (s.releaseCry n) := by
  unfold State.releaseCry
  dsimp only
  repeat' first
    | with_reducible assumption
    | with_reducible apply State.put_keeps
    | with_reducible apply State.setCry_keeps

theorem State.startMerge_keeps {s0 s : State} (hs : Keeps s0 s) (n : Nat) : Keeps s0 (s.startMerge n) := by
  unfold State.startMerge
  dsimp only
  repeat' first
    | with_reducible assumption
    | with_reducible apply ite_pred
    | with_reducible apply State.setCry_keeps

theorem State.dropStaging_keeps {s0 s : State} (hs : Keeps s0 s) (n : Nat) : Keeps s0 (s.dropStaging n) := by
  unfold State.dropStaging
  dsimp only
  repeat' first
    | with_reducible assumption
    | with_reducible apply ite_pred
    | with_reducible refine foldl_pred (fun _ _ _ => ?_) ?_
    | with_reducible apply State.zeroGranule_keeps

theorem State.mergeCells_keeps {s0 s : State} (hs : Keeps s0 s) (src dst w : Nat) : KeepsF s0 (s.mergeCells src dst w) := by
  unfold State.mergeCells
  dsimp only
  repeat' first
    | with_reducible assumption
    | with_reducible refine foldl_pred (fun _ _ _ => ?_) ?_
    | with_reducible apply State.writeLe_keeps
    | with_reducible apply State.zeroGranule_keeps
    | simp only [keepsF_mk]
    | with_reducible apply KeepsF.proj

theorem State.endMerge_keeps {s0 s : State} (hs : Keeps s0 s) (n : Nat) : Keeps s0 (s.endMerge n) := by
  unfold State.endMerge
  dsimp only
  repeat' first
    | with_reducible assumption
    | with_reducible apply ite_pred
    | with_reducible refine foldl_pred (fun _ _ _ => ?_) ?_
    | with_reducible apply State.put_keeps
    | with_reducible apply State.raise_keeps
    | with_reducible apply State.setCry_keeps
    | with_reducible apply State.clearCry_keeps
    | with_reducible apply State.mergeCells_keeps
    | with_reducible apply KeepsF.proj
    | split

theorem execClearDone_keeps {s0 s : State} (t n : Nat) (hs : Keeps s0 s) : KeepsO s0 (execClearDone t n s) := by
  unfold execClearDone
  repeat' first
    | with_reducible assumption
    | with_reducible apply ite_pred
    | with_reducible apply State.at_keeps
    | with_reducible apply State.endClear_keeps
    | with_reducible apply keepsO_next
    | with_reducible exact keepsO_fault

theorem execStagingMerge_keeps {s0 s : State} (t n : Nat) (hs : Keeps s0 s) : KeepsO s0 (execStagingMerge t n s) := by
  unfold execStagingMerge
  repeat' first
    | with_reducible assumption
    | with_reducible apply ite_pred
    | with_reducible apply State.at_keeps
    | with_reducible apply State.endMerge_keeps
    | with_reducible apply keepsO_next
    | with_reducible exact keepsO_fault

theorem execSweepComplete_keeps {s0 s : State} (t n : Nat) (hs : Keeps s0 s) : KeepsO s0 (execSweepComplete t n s) := by
  unfold execSweepComplete
  repeat' first
    | with_reducible assumption
    | with_reducible apply ite_pred
    | with_reducible apply State.at_keeps
    | with_reducible apply State.endSweep_keeps
    | with_reducible apply keepsO_next
    | with_reducible exact keepsO_fault

/-! ## Waves -/

theorem State.switchSet_keeps {s0 s : State} (hs : Keeps s0 s) (m n : Nat) (at_ : Int) :
    Keeps s0 (s.switchSet m n at_) := by
  unfold State.switchSet
  dsimp only
  repeat' first | with_reducible assumption | with_reducible apply State.setWave_keeps

theorem State.reuser_keeps {s0 s : State} (hs : Keeps s0 s) (m : Nat) (at_ : Int) : Keeps s0 (s.reuser m at_) := by
  unfold State.reuser
  dsimp only
  repeat' first
    | with_reducible assumption
    | with_reducible apply ite_pred
    | with_reducible apply State.switchSet_keeps

theorem State.beginWindow_keeps {s0 s : State} (hs : Keeps s0 s) (n : Nat) (w : Window) :
    Keeps s0 (s.beginWindow n w) := by
  unfold State.beginWindow
  try dsimp only
  repeat' first
    | with_reducible assumption
    | with_reducible apply ite_pred
    | with_reducible apply State.startTaking_keeps
    | with_reducible apply State.putAnchor_keeps
    | with_reducible apply State.setWave_keeps

theorem State.setSure_keeps {s0 s : State} (hs : Keeps s0 s) (k : Nat) (t : Int) : Keeps s0 (s.setSure k t) := by
  unfold State.setSure
  repeat' first | with_reducible assumption | with_reducible apply State.setSrc_keeps

theorem State.finishWindow_keeps {s0 s : State} (hs : Keeps s0 s) (n : Nat) (w : Window) (c : Int) :
    Keeps s0 (s.finishWindow n w c) := by
  unfold State.finishWindow
  try dsimp only
  repeat' first
    | with_reducible assumption
    | with_reducible apply ite_pred
    | with_reducible apply State.setSure_keeps
    | with_reducible apply State.stopTaking_keeps
    | with_reducible apply State.count_keeps
    | with_reducible apply State.setWave_keeps

theorem State.windowEvent_keeps {s0 s : State} (hs : Keeps s0 s) (n : Nat) (rec : Int) :
    Keeps s0 (s.windowEvent n rec) := by
  unfold State.windowEvent
  try dsimp only
  repeat' first
    | with_reducible assumption
    | with_reducible apply ite_pred
    | with_reducible apply State.finishWindow_keeps
    | with_reducible apply State.beginWindow_keeps
    | with_reducible apply State.setWave_keeps
    | simp only [keeps_mk]
    | split

theorem State.advance_keeps {s0 s : State} (hs : Keeps s0 s) (n : Nat) (rec : Int) : Keeps s0 (s.advance n rec) := by
  unfold State.advance
  try dsimp only
  repeat' first
    | with_reducible assumption
    | with_reducible apply ite_pred
    | with_reducible refine times_pred (fun _ _ => ?_) ?_
    | with_reducible apply State.windowEvent_keeps
    | with_reducible apply State.setSure_keeps
    | with_reducible apply State.flush_keeps

theorem State.idleWindows_keeps {s0 s : State} (hs : Keeps s0 s) (n : Nat) : Keeps s0 (s.idleWindows n) := by
  unfold State.idleWindows
  try dsimp only
  repeat' first
    | with_reducible assumption
    | with_reducible refine foldl_pred (fun _ _ _ => ?_) ?_
    | with_reducible apply State.count_keeps
    | with_reducible apply State.setWave_keeps

theorem State.followWindows_keeps {s0 s : State} (hs : Keeps s0 s) (n : Nat) : Keeps s0 (s.followWindows n) := by
  unfold State.followWindows
  repeat' first
    | with_reducible assumption
    | with_reducible apply ite_pred
    | with_reducible apply State.advance_keeps
    | with_reducible apply State.idleWindows_keeps

theorem State.endWindows_keeps {s0 s : State} (hs : Keeps s0 s) (n : Nat) : Keeps s0 (s.endWindows n) := by
  unfold State.endWindows
  repeat' first
    | with_reducible assumption
    | with_reducible apply ite_pred
    | with_reducible refine times_pred (fun _ _ => ?_) ?_
    | with_reducible apply State.finishWindow_keeps
    | split

theorem State.stopChain_keeps {s0 s : State} (hs : Keeps s0 s) (m : Nat) : Keeps s0 (s.stopChain m) := by
  unfold State.stopChain
  try dsimp only
  repeat' first
    | with_reducible assumption
    | with_reducible apply ite_pred
    | with_reducible apply State.setWave_keeps

theorem State.crossing_keeps {s0 s : State} (hs : Keeps s0 s) (n : Nat) (t : Int) (pol est : Bool) (mark : Nat)
    (ovr : Bool) :
    Keeps s0 (s.crossing n t pol est mark ovr) := by
  unfold State.crossing
  try dsimp only
  repeat' first
    | with_reducible assumption
    | with_reducible apply ite_pred
    | with_reducible apply State.count_keeps
    | with_reducible apply State.setSrc_keeps
    | with_reducible apply State.setWave_keeps
    | with_reducible apply State.formEdge_keeps

theorem State.loseSample_keeps {s0 s : State} (hs : Keeps s0 s) (n : Nat) : Keeps s0 (s.loseSample n) := by
  unfold State.loseSample
  try dsimp only
  repeat' first
    | with_reducible assumption
    | with_reducible apply ite_pred
    | with_reducible apply State.setSrc_keeps
    | with_reducible apply State.beginCause_keeps
    | simp only [keeps_mk]
    | split

theorem State.goodSample_keeps {s0 s : State} (hs : Keeps s0 s) (n : Nat) (rec : Int) (after : Bool) :
    Keeps s0 (s.goodSample n rec after) := by
  unfold State.goodSample
  try dsimp only
  repeat' first
    | with_reducible assumption
    | with_reducible apply ite_pred
    | with_reducible apply State.loseSample_keeps
    | with_reducible apply State.endCause_keeps

theorem State.settled_keeps {s0 s : State} (hs : Keeps s0 s) (m n : Nat) (rec : Int) :
    Keeps s0 (s.settled m n rec) := by
  unfold State.settled
  try dsimp only
  repeat' first
    | with_reducible assumption
    | with_reducible apply ite_pred
    | with_reducible apply State.setWave_keeps
    | with_reducible apply State.pushDue_keeps
    | with_reducible apply State.settle_keeps
    | with_reducible refine KeepsP.snd (by assumption) ?_
    | with_reducible apply KeepsP.proj
    | simp only [keepsP_mk]
    | simp only [keeps_mk]
    | split

theorem State.detect_keeps {s0 s : State} (hs : Keeps s0 s) (m n : Nat) : Keeps s0 (s.detect m n) := by
  unfold State.detect
  try dsimp only
  repeat' first
    | with_reducible assumption
    | with_reducible apply ite_pred
    | with_reducible apply State.advance_keeps
    | with_reducible apply State.loseSample_keeps
    | with_reducible apply State.crossing_keeps
    | with_reducible apply State.setWave_keeps
    | with_reducible apply State.goodSample_keeps
    | with_reducible apply State.settled_keeps
    | simp only [keeps_mk]
    | split

theorem State.chainSample_keeps {s0 s : State} (hs : Keeps s0 s) (m : Nat) (tq v : Int) (full bad : Bool) :
    Keeps s0 (s.chainSample m tq v full bad) := by
  unfold State.chainSample
  try dsimp only
  repeat' first
    | with_reducible assumption
    | with_reducible apply ite_pred
    | with_reducible refine foldl_pred (fun _ _ _ => ?_) ?_
    | with_reducible apply State.setWave_keeps
    | with_reducible apply State.sweepSample_keeps
    | with_reducible apply State.detect_keeps

theorem State.correctPair_keeps {s0 s : State} (hs : Keeps s0 s) (m : Nat) (a b : Int) (hold : Bool) :
    KeepsP s0 (s.correctPair m a b hold) := by
  unfold State.correctPair
  try dsimp only
  repeat' first
    | with_reducible assumption
    | with_reducible apply ite_pred
    | with_reducible refine foldl_pred (fun _ _ _ => ?_) ?_
    | with_reducible apply State.setWave_keeps
    | with_reducible apply State.raise_keeps
    | simp only [keepsP_mk]

theorem State.releaseEmb_keeps {s0 s : State} (hs : Keeps s0 s) (m : Nat) (a : List Int) (b : List Int) :
    Keeps s0 (s.releaseEmb m a b) := by
  unfold State.releaseEmb
  dsimp only
  repeat' first
    | with_reducible assumption
    | with_reducible refine foldl_pred (fun _ _ _ => ?_) ?_
    | with_reducible apply State.setWave_keeps
    | with_reducible apply State.stopChain_keeps
    | with_reducible apply State.chainSample_keeps
    | with_reducible apply State.correctPair_keeps
    | with_reducible apply KeepsP.proj
    | split

theorem State.preempt_keeps {s0 s : State} (hs : Keeps s0 s) (g : Nat) (tg : Int) : Keeps s0 (s.preempt g tg) := by
  unfold State.preempt
  dsimp only
  repeat' first
    | with_reducible assumption
    | with_reducible apply ite_pred
    | with_reducible refine foldl_pred (fun _ _ _ => ?_) ?_
    | with_reducible apply State.count_keeps
    | with_reducible apply State.raise_keeps
    | with_reducible apply State.setWave_keeps
    | split

theorem State.pushWindow_keeps {s0 s : State} (hs : Keeps s0 s) (n : Nat) (o requested : Int) (restart : Bool) :
    Keeps s0 (s.pushWindow n o requested restart) := by
  unfold State.pushWindow
  dsimp only
  repeat' first | with_reducible assumption | with_reducible apply State.setWave_keeps

theorem State.guardClosed_keeps {s0 s : State} (hs : Keeps s0 s) (g : Nat) (tc : Int) : Keeps s0 (s.guardClosed g tc) := by
  unfold State.guardClosed
  dsimp only
  repeat' first
    | with_reducible assumption
    | with_reducible apply ite_pred
    | with_reducible refine foldl_pred (fun _ _ _ => ?_) ?_
    | with_reducible apply State.setWave_keeps
    | with_reducible apply State.reuser_keeps
    | with_reducible apply State.pushWindow_keeps
    | split

theorem State.missWindow_keeps {s0 s : State} (hs : Keeps s0 s) (n : Nat) : Keeps s0 (s.missWindow n) := by
  unfold State.missWindow
  repeat' first
    | with_reducible assumption
    | with_reducible apply State.count_keeps
    | with_reducible apply State.raise_keeps

theorem State.openWindow_keeps {s0 s : State} (hs : Keeps s0 s) (n : Nat) (o : Int) :
    Keeps s0 (s.openWindow n o) := by
  unfold State.openWindow
  try dsimp only
  repeat' first
    | with_reducible assumption
    | with_reducible apply ite_pred
    | with_reducible apply State.missWindow_keeps
    | with_reducible apply State.preempt_keeps
    | with_reducible apply State.pushWindow_keeps
    | with_reducible apply State.reuser_keeps
    | with_reducible apply State.followWindows_keeps
    | with_reducible apply State.setWave_keeps
    | with_reducible apply State.count_keeps
    | with_reducible apply State.raise_keeps

theorem State.windowDue_keeps {s0 s : State} (hs : Keeps s0 s) (n : Nat) : Keeps s0 (s.windowDue n) := by
  unfold State.windowDue
  dsimp only
  repeat' first
    | with_reducible assumption
    | with_reducible apply ite_pred
    | with_reducible apply State.setWave_keeps
    | with_reducible apply State.openWindow_keeps
    | split

theorem State.shutWindow_keeps {s0 s : State} (hs : Keeps s0 s) (n : Nat) : Keeps s0 (s.shutWindow n) := by
  unfold State.shutWindow
  try dsimp only
  repeat' first
    | with_reducible assumption
    | with_reducible apply ite_pred
    | with_reducible apply State.followWindows_keeps
    | with_reducible apply State.setWave_keeps
    | with_reducible apply State.guardClosed_keeps
    | with_reducible apply State.stopChain_keeps
    | simp only [keeps_mk]
    | split

theorem State.waveMarker_keeps {s0 s : State} (hs : Keeps s0 s) (k : Nat) (at_ : Int) : Keeps s0 (s.waveMarker k at_) := by
  unfold State.waveMarker
  dsimp only
  repeat' first
    | with_reducible assumption
    | with_reducible apply ite_pred
    | with_reducible refine foldl_pred (fun _ _ _ => ?_) ?_
    | with_reducible apply State.setWave_keeps

theorem State.armWave_keeps {s0 s : State} (hs : Keeps s0 s) (n : Nat) : Keeps s0 (s.armWave n) := by
  unfold State.armWave
  dsimp only
  repeat' first
    | with_reducible assumption
    | with_reducible apply ite_pred
    | with_reducible apply State.setWave_keeps
    | with_reducible apply State.submit_keeps

theorem State.admitWave_keeps {s0 s : State} (hs : Keeps s0 s) (n : Nat) : Keeps s0 (s.admitWave n) := by
  unfold State.admitWave
  dsimp only
  repeat' first | with_reducible assumption | with_reducible apply State.setWave_keeps

theorem State.startIngest_keeps {s0 s : State} (hs : Keeps s0 s) (n : Nat) : Keeps s0 (s.startIngest n) := by
  unfold State.startIngest
  try dsimp only
  repeat' first
    | with_reducible assumption
    | with_reducible apply ite_pred
    | with_reducible apply State.setWave_keeps
    | with_reducible apply State.setSure_keeps
    | with_reducible apply State.reuser_keeps
    | with_reducible apply State.openWindow_keeps
    | with_reducible apply State.missWindow_keeps
    | simp only [keeps_mk]
    | split

theorem State.keepCorr_keeps {s0 s : State} (hs : Keeps s0 s) (m : Nat) : Keeps s0 (s.keepCorr m) := by
  unfold State.keepCorr
  dsimp only
  repeat' first
    | with_reducible assumption
    | with_reducible apply ite_pred
    | with_reducible apply State.setWave_keeps

theorem State.disarmWave_keeps {s0 s : State} (hs : Keeps s0 s) (n : Nat) : Keeps s0 (s.disarmWave n) := by
  unfold State.disarmWave
  try dsimp only
  repeat' first
    | with_reducible assumption
    | with_reducible apply ite_pred
    | with_reducible apply State.setWave_keeps
    | with_reducible apply State.retract_keeps
    | with_reducible apply State.shutWindow_keeps
    | with_reducible apply State.raise_keeps
    | with_reducible apply State.keepCorr_keeps
    | with_reducible apply State.guardClosed_keeps
    | with_reducible apply State.reuser_keeps
    | with_reducible apply State.followWindows_keeps
    | with_reducible apply State.endWindows_keeps
    | with_reducible apply State.stopChain_keeps
    | with_reducible apply State.releaseCost_keeps

theorem State.applyWave_keeps {s0 s : State} (hs : Keeps s0 s) (n inst : Nat) : Keeps s0 (s.applyWave n inst) := by
  unfold State.applyWave
  try dsimp only
  repeat' first
    | with_reducible assumption
    | with_reducible apply ite_pred
    | with_reducible apply State.applyAll_keeps
    | with_reducible apply State.bump_keeps
    | with_reducible apply State.setWave_keeps
    | with_reducible apply State.switchSet_keeps

theorem State.frameWaves_keeps {s0 s : State} (hs : Keeps s0 s) (inst : Nat) : Keeps s0 (s.frameWaves inst) := by
  unfold State.frameWaves
  repeat' first
    | with_reducible assumption
    | with_reducible apply ite_pred
    | with_reducible refine foldl_pred (fun _ _ _ => ?_) ?_
    | with_reducible apply State.applyWave_keeps
    | split

theorem State.earlyWave_keeps {s0 s : State} (hs : Keeps s0 s) (n : Nat) : Keeps s0 (s.earlyWave n) := by
  unfold State.earlyWave
  repeat' first
    | with_reducible assumption
    | with_reducible apply ite_pred
    | with_reducible apply State.applyWave_keeps
    | split

theorem State.crcError_keeps {s0 s : State} (hs : Keeps s0 s) (slot : Nat) : Keeps s0 (s.crcError slot) := by
  unfold State.crcError
  try dsimp only
  repeat' first
    | with_reducible assumption
    | with_reducible apply ite_pred
    | with_reducible refine foldl_pred (fun _ _ _ => ?_) ?_
    | with_reducible apply State.free_keeps
    | with_reducible apply State.setWave_keeps
    | with_reducible apply State.count_keeps
    | with_reducible apply State.raise_keeps
    | with_reducible refine KeepsP.snd (by assumption) ?_
    | with_reducible apply KeepsP.proj

theorem State.loseIngest_keeps {s0 s : State} (hs : Keeps s0 s) (slot : Nat) : Keeps s0 (s.loseIngest slot) := by
  unfold State.loseIngest
  try dsimp only
  repeat' first
    | with_reducible assumption
    | with_reducible apply ite_pred
    | with_reducible refine foldl_pred (fun _ _ _ => ?_) ?_
    | with_reducible apply State.setSlot_keeps
    | with_reducible apply State.raise_keeps
    | with_reducible apply State.setWave_keeps
    | with_reducible apply State.loseSample_keeps

theorem State.noteMargin_keeps {s0 s : State} (hs : Keeps s0 s) (slot octets : Nat) :
    Keeps s0 (s.noteMargin slot octets) := by
  unfold State.noteMargin
  try dsimp only
  repeat' first
    | with_reducible assumption
    | with_reducible apply ite_pred
    | with_reducible apply State.setSlot_keeps

theorem State.alignSlots_keeps {s0 s : State} (hs : Keeps s0 s) : Keeps s0 s.alignSlots := by
  unfold State.alignSlots
  repeat' first
    | with_reducible assumption
    | with_reducible apply ite_pred
    | with_reducible refine foldl_pred (fun _ _ _ => ?_) ?_
    | with_reducible apply State.setSlot_keeps

theorem execIngestStart_keeps {s0 s : State} (t n : Nat) (hs : Keeps s0 s) : KeepsO s0 (execIngestStart t n s) := by
  unfold execIngestStart
  repeat' first
    | with_reducible assumption
    | with_reducible apply ite_pred
    | with_reducible apply State.at_keeps
    | with_reducible apply State.startIngest_keeps
    | with_reducible apply keepsO_next
    | with_reducible exact keepsO_fault

theorem execWaveformSettleEnd_keeps {s0 s : State} (t n : Nat) (hs : Keeps s0 s) :
    KeepsO s0 (execWaveformSettleEnd t n s) := by
  unfold execWaveformSettleEnd
  repeat' first
    | with_reducible assumption
    | with_reducible apply ite_pred
    | with_reducible apply State.at_keeps
    | with_reducible apply State.followWindows_keeps
    | with_reducible apply keepsO_next
    | with_reducible exact keepsO_fault

theorem execConvEnd_keeps {s0 s : State} (t n : Nat) (hs : Keeps s0 s) : KeepsO s0 (execConvEnd t n s) := by
  unfold execConvEnd
  dsimp only
  repeat' first
    | with_reducible assumption
    | with_reducible apply ite_pred
    | with_reducible apply State.at_keeps
    | with_reducible apply State.setWave_keeps
    | with_reducible apply keepsO_next
    | with_reducible exact keepsO_fault

theorem execWindowOpen_keeps {s0 s : State} (t n : Nat) (hs : Keeps s0 s) : KeepsO s0 (execWindowOpen t n s) := by
  unfold execWindowOpen
  repeat' first
    | with_reducible assumption
    | with_reducible apply ite_pred
    | with_reducible apply State.at_keeps
    | with_reducible apply State.windowDue_keeps
    | with_reducible apply keepsO_next
    | with_reducible exact keepsO_fault

theorem execWindowClose_keeps {s0 s : State} (t n : Nat) (hs : Keeps s0 s) : KeepsO s0 (execWindowClose t n s) := by
  unfold execWindowClose
  repeat' first
    | with_reducible assumption
    | with_reducible apply ite_pred
    | with_reducible apply State.at_keeps
    | with_reducible apply State.shutWindow_keeps
    | with_reducible apply keepsO_next
    | with_reducible exact keepsO_fault

/-! ## SluiceCfg -/

theorem State.sluEvent_keeps {s0 s : State} (hs : Keeps s0 s) (f : Fld) (c : Nat) : Keeps s0 (s.sluEvent f c) := by
  unfold State.sluEvent
  repeat' first
    | with_reducible assumption
    | with_reducible apply State.count_keeps
    | with_reducible apply State.raise_keeps

theorem State.startSlu_keeps {s0 s : State} (hs : Keeps s0 s) (c : Nat) : Keeps s0 (s.startSlu c) := by
  unfold State.startSlu
  dsimp only
  repeat' first
    | with_reducible assumption
    | with_reducible apply State.put_keeps
    | with_reducible apply State.setSl_keeps

theorem State.holdSlu_keeps {s0 s : State} (hs : Keeps s0 s) (c unit : Nat) : Keeps s0 (s.holdSlu c unit) := by
  unfold State.holdSlu
  dsimp only
  repeat' first | with_reducible assumption | with_reducible apply State.setSl_keeps

theorem State.freeSlu_keeps {s0 s : State} (hs : Keeps s0 s) (c : Nat) (done : Bool) : Keeps s0 (s.freeSlu c done) := by
  unfold State.freeSlu
  dsimp only
  repeat' first
    | with_reducible assumption
    | with_reducible apply ite_pred
    | with_reducible apply State.setSl_keeps
    | with_reducible apply State.sluEvent_keeps

/-! ## Verdict -/

theorem State.dropVerdict_keeps {s0 s : State} (hs : Keeps s0 s) (w : Nat) : Keeps s0 (s.dropVerdict w) := by
  unfold State.dropVerdict
  repeat' first
    | with_reducible assumption
    | with_reducible apply State.count_keeps
    | with_reducible apply State.raise_keeps

theorem State.decideRule_keeps {s0 s : State} (hs : Keeps s0 s) (v outcome detail : Nat) (time : Int) :
    Keeps s0 (s.decide_ v outcome detail time) := by
  unfold State.decide_
  try dsimp only
  repeat' first
    | with_reducible assumption
    | with_reducible apply ite_pred
    | with_reducible refine foldl_pred (fun _ _ _ => ?_) ?_
    | with_reducible apply State.setRule_keeps
    | with_reducible apply State.put_keeps
    | with_reducible apply State.setLink_keeps
    | with_reducible apply State.dropVerdict_keeps

theorem State.endPresence_keeps {s0 s : State} (hs : Keeps s0 s) (v : Nat) : Keeps s0 (s.endPresence v) := by
  unfold State.endPresence
  try dsimp only
  repeat' first
    | with_reducible assumption
    | with_reducible apply ite_pred
    | with_reducible apply State.setRule_keeps
    | with_reducible apply State.decideRule_keeps
    | simp only [keeps_mk]
    | split

theorem State.presenceEdge_keeps {s0 s : State} (hs : Keeps s0 s) (v k : Nat) (t : Int) (pol : Bool) (detail :
    Nat) :
    Keeps s0 (s.presenceEdge v k t pol detail) := by
  unfold State.presenceEdge
  try dsimp only
  repeat' first
    | with_reducible assumption
    | with_reducible apply ite_pred
    | with_reducible apply State.endPresence_keeps
    | with_reducible apply State.count_keeps
    | with_reducible apply State.setRule_keeps
    | with_reducible apply State.decideRule_keeps
    | simp only [keeps_mk]
    | split

theorem State.intervalEdge_keeps {s0 s : State} (hs : Keeps s0 s) (v k : Nat) (t : Int) (pol : Bool) (detail :
    Nat) :
    Keeps s0 (s.intervalEdge v k t pol detail) := by
  unfold State.intervalEdge
  try dsimp only
  repeat' first
    | with_reducible assumption
    | with_reducible apply ite_pred
    | with_reducible apply State.decideRule_keeps
    | with_reducible apply State.setRule_keeps
    | simp only [keeps_mk]
    | split

theorem State.rulesEdge_keeps {s0 s : State} (hs : Keeps s0 s) (k : Nat) (t : Int) (pol est fe cal late : Bool) :
    Keeps s0 (s.rulesEdge k t pol est fe cal late) := by
  unfold State.rulesEdge
  try dsimp only
  repeat' first
    | with_reducible assumption
    | with_reducible apply ite_pred
    | with_reducible refine foldl_pred (fun _ _ _ => ?_) ?_
    | with_reducible apply State.decideRule_keeps
    | with_reducible apply State.presenceEdge_keeps
    | with_reducible apply State.intervalEdge_keeps
    | split

theorem State.rulesBreak_keeps {s0 s : State} (hs : Keeps s0 s) (k : Nat) (t : Int) : Keeps s0 (s.rulesBreak k t) := by
  unfold State.rulesBreak
  dsimp only
  repeat' first
    | with_reducible assumption
    | with_reducible apply ite_pred
    | with_reducible refine foldl_pred (fun _ _ _ => ?_) ?_
    | with_reducible apply State.setRule_keeps
    | split

theorem State.rulesTrip_keeps {s0 s : State} (hs : Keeps s0 s) (n : Nat) (t : Int) : Keeps s0 (s.rulesTrip n t) := by
  unfold State.rulesTrip
  repeat' first
    | with_reducible assumption
    | with_reducible apply ite_pred
    | with_reducible refine foldl_pred (fun _ _ _ => ?_) ?_
    | with_reducible apply State.decideRule_keeps

theorem State.rulesMask_keeps {s0 s : State} (hs : Keeps s0 s) (unit : Nat) (pass : Bool) (primary : Nat)
    (ref : Int) :
    Keeps s0 (s.rulesMask unit pass primary ref) := by
  unfold State.rulesMask
  repeat' first
    | with_reducible assumption
    | with_reducible apply ite_pred
    | with_reducible refine foldl_pred (fun _ _ _ => ?_) ?_
    | with_reducible apply State.decideRule_keeps

theorem State.enableRule_keeps {s0 s : State} (hs : Keeps s0 s) (v : Nat) (on : Bool) : Keeps s0 (s.enableRule v on) := by
  unfold State.enableRule
  dsimp only
  repeat' first
    | with_reducible assumption
    | with_reducible apply ite_pred
    | with_reducible apply State.put_keeps
    | with_reducible apply State.setRule_keeps

theorem State.endInterval_keeps {s0 s : State} (hs : Keeps s0 s) (v : Nat) : Keeps s0 (s.endInterval v) := by
  unfold State.endInterval
  try dsimp only
  repeat' first
    | with_reducible assumption
    | with_reducible apply ite_pred
    | with_reducible apply State.setRule_keeps
    | with_reducible apply State.decideRule_keeps
    | simp only [keeps_mk]
    | split

theorem execPresenceWindowEnd_keeps {s0 s : State} (t v : Nat) (hs : Keeps s0 s) :
    KeepsO s0 (execPresenceWindowEnd t v s) := by
  unfold execPresenceWindowEnd
  repeat' first
    | with_reducible assumption
    | with_reducible apply ite_pred
    | with_reducible apply State.at_keeps
    | with_reducible apply State.endPresence_keeps
    | with_reducible apply keepsO_next
    | with_reducible exact keepsO_fault

theorem execTargetEdgeExpiry_keeps {s0 s : State} (t v : Nat) (hs : Keeps s0 s) :
    KeepsO s0 (execTargetEdgeExpiry t v s) := by
  unfold execTargetEdgeExpiry
  try dsimp only
  repeat' first
    | with_reducible assumption
    | with_reducible apply ite_pred
    | with_reducible apply State.at_keeps
    | with_reducible apply State.setRule_keeps
    | with_reducible apply keepsO_next
    | with_reducible exact keepsO_fault

/-! ## Capture -/

theorem State.grantRound_keeps {s0 : State} (guard : Bool) (fuel words turn : Nat) {s : State} (hs : Keeps s0 s) :
    KeepsP s0 (State.grantRound guard fuel words turn s) := by
  induction fuel generalizing s words turn with
  | zero => exact hs
  | succ fuel ih =>
    rw [State.grantRound]
    split
    · exact hs
    · exact ite_pred hs (ih _ _ (State.setAcq_keeps hs _ _))

theorem State.grantOwn_keeps {s0 s : State} (hs : Keeps s0 s) (words : Nat) : KeepsP s0 (s.grantOwn words) :=
  foldl_pred (P := KeepsP s0) (fun _ _ h => keepsP_mk.2 (ite_pred h (State.setAcq_keeps h _ _))) hs

theorem State.drainQueues_keeps {s0 s : State} (hs : Keeps s0 s) : Keeps s0 s.drainQueues := by
  have h := State.grantOwn_keeps hs (8 * (surveyGrants s.now - s.share.survey))
  unfold State.drainQueues
  dsimp only
  simp only [keeps_mk]
  exact State.grantRound_keeps _ _ _ _ (State.grantRound_keeps _ _ _ _ h)

theorem State.panWrite_keeps {s0 s : State} (hs : Keeps s0 s) (p i : Nat) (ws : List Nat) :
    Keeps s0 (s.panWrite p i ws) := by
  induction ws generalizing s i with
  | nil => exact hs
  | cons w ws ih =>
    rw [State.panWrite]
    exact ih (State.cleanUnits_keeps (State.writeLe_keeps hs _ _ _) _ _) _

theorem State.handBlocks_keeps {s0 s : State} (hs : Keeps s0 s) (n upTo : Nat) (close : Bool) :
    Keeps s0 (s.handBlocks n upTo close) := by
  unfold State.handBlocks
  dsimp only
  repeat' first
    | with_reducible assumption
    | with_reducible apply State.setAcq_keeps
    | with_reducible apply State.setSl_keeps

theorem State.noPan_keeps {s0 s : State} (hs : Keeps s0 s) (n : Nat) : Keeps s0 (s.noPan n) := by
  unfold State.noPan
  repeat' first
    | with_reducible assumption
    | with_reducible apply ite_pred
    | with_reducible apply State.raise_keeps

theorem State.waitFill_keeps {s0 s : State} (hs : Keeps s0 s) (n : Nat) : Keeps s0 (s.waitFill n) := by
  unfold State.waitFill
  repeat' first
    | with_reducible assumption
    | with_reducible apply State.setAcq_keeps
    | with_reducible apply State.noPan_keeps

theorem State.fillNow_keeps {s0 s : State} (hs : Keeps s0 s) (n : Nat) : Keeps s0 (s.fillNow n) := by
  have h := State.drainQueues_keeps hs
  unfold State.fillNow
  generalize s.drainQueues = s1 at h ⊢
  dsimp only
  repeat' first
    | with_reducible assumption
    | with_reducible apply ite_pred
    | with_reducible refine foldl_pred (fun _ _ _ => ?_) ?_
    | with_reducible apply State.put_keeps
    | with_reducible apply State.setAcq_keeps
    | with_reducible apply State.setPan_keeps
    | with_reducible apply State.startSlu_keeps
    | with_reducible apply State.panWrite_keeps
    | split

theorem State.fillStart_keeps {s0 s : State} (hs : Keeps s0 s) (n : Nat) : Keeps s0 (s.fillStart n) := by
  unfold State.fillStart
  dsimp only
  repeat' first
    | with_reducible assumption
    | with_reducible apply ite_pred
    | with_reducible apply State.fillNow_keeps

theorem State.leaveArm_keeps {s0 s : State} (hs : Keeps s0 s) (n : Nat) : Keeps s0 (s.leaveArm n) := by
  unfold State.leaveArm
  try dsimp only
  repeat' first
    | with_reducible assumption
    | with_reducible apply ite_pred
    | with_reducible apply State.setAcq_keeps
    | with_reducible apply State.setMask_keeps
    | with_reducible apply State.setCry_keeps
    | with_reducible apply State.put_keeps
    | with_reducible apply State.freeSlu_keeps
    | with_reducible apply State.releaseCost_keeps

theorem State.closeAcq_keeps {s0 s : State} (hs : Keeps s0 s) (n stop : Nat) (mark : Option Nat) (late : Bool) :
    Keeps s0 (s.closeAcq n stop mark late) := by
  unfold State.closeAcq
  try dsimp only
  repeat' first
    | with_reducible assumption
    | with_reducible apply ite_pred
    | with_reducible apply State.drainQueues_keeps
    | with_reducible apply State.panWrite_keeps
    | with_reducible apply State.setAcq_keeps
    | with_reducible apply State.handBlocks_keeps
    | with_reducible apply State.setPan_keeps
    | with_reducible apply State.put_keeps
    | with_reducible apply State.raise_keeps
    | with_reducible apply State.count_keeps
    | with_reducible apply State.leaveArm_keeps
    | with_reducible apply State.waitFill_keeps

theorem State.storeItem_keeps {s0 s : State} (hs : Keeps s0 s) (n k : Nat) (i : Item) (time : Int) :
    Keeps s0 (s.storeItem n k i time) := by
  unfold State.storeItem
  try dsimp only
  repeat' first
    | with_reducible assumption
    | with_reducible apply ite_pred
    | with_reducible refine foldl_pred (fun _ _ _ => ?_) ?_
    | with_reducible apply State.closeAcq_keeps
    | with_reducible apply State.setAcq_keeps
    | with_reducible apply State.panWrite_keeps
    | with_reducible apply State.put_keeps
    | with_reducible apply State.handBlocks_keeps

theorem State.ignored_keeps {s0 s : State} (hs : Keeps s0 s) (n : Nat) : Keeps s0 (s.ignored n) := by
  unfold State.ignored
  try dsimp only
  repeat' first
    | with_reducible assumption
    | with_reducible apply ite_pred
    | with_reducible apply State.setAcq_keeps
    | with_reducible apply State.count_keeps

theorem State.trigger_keeps {s0 s : State} (hs : Keeps s0 s) (n cause met : Nat) (t : Int) (forced : Bool) :
    Keeps s0 (s.trigger n cause met t forced) := by
  unfold State.trigger
  try dsimp only
  repeat' first
    | with_reducible assumption
    | with_reducible apply State.setAcq_keeps
    | with_reducible apply State.put_keeps

theorem State.condsMet_keeps {s0 s : State} (hs : Keeps s0 s) (n : Nat) (mets : List (Nat × Int)) :
    Keeps s0 (s.condsMet n mets) := by
  unfold State.condsMet
  try dsimp only
  repeat' first
    | with_reducible assumption
    | with_reducible apply ite_pred
    | with_reducible apply State.trigger_keeps
    | with_reducible apply State.ignored_keeps
    | with_reducible apply State.setAcq_keeps
    | simp only [keeps_mk]
    | split

theorem State.aqEvent_keeps {s0 s : State} (hs : Keeps s0 s) (n : Nat) (ev : TrgEvent) : Keeps s0 (s.aqEvent n ev) := by
  unfold State.aqEvent
  dsimp only
  repeat' first
    | with_reducible assumption
    | with_reducible apply ite_pred
    | with_reducible refine foldl_pred (fun _ _ _ => ?_) ?_
    | with_reducible apply State.setAcq_keeps
    | with_reducible apply State.sweepRef_keeps
    | with_reducible apply State.condsMet_keeps
    | simp only [keepsF_mk]
    | with_reducible apply KeepsF.proj

theorem State.aqEvents_keeps {s0 s : State} (hs : Keeps s0 s) (ev : TrgEvent) : Keeps s0 (s.aqEvents ev) := by
  unfold State.aqEvents
  repeat' first
    | with_reducible assumption
    | with_reducible refine foldl_pred (fun _ _ _ => ?_) ?_
    | with_reducible apply State.aqEvent_keeps

theorem State.condTimeout_keeps {s0 s : State} (hs : Keeps s0 s) (n c : Nat) : Keeps s0 (s.condTimeout n c) := by
  unfold State.condTimeout
  try dsimp only
  repeat' first
    | with_reducible assumption
    | with_reducible apply ite_pred
    | with_reducible apply State.setAcq_keeps
    | with_reducible apply State.sweepRef_keeps
    | with_reducible apply State.condsMet_keeps
    | simp only [keeps_mk]
    | split

theorem State.armAcq_keeps {s0 s : State} (hs : Keeps s0 s) (n : Nat) : Keeps s0 (s.armAcq n) := by
  unfold State.armAcq
  dsimp only
  repeat' first
    | with_reducible assumption
    | with_reducible apply ite_pred
    | with_reducible apply State.setAcq_keeps
    | with_reducible apply State.submit_keeps
    | with_reducible apply State.armCry_keeps
    | with_reducible apply State.holdSlu_keeps
    | with_reducible apply State.waitFill_keeps

theorem State.admitAcq_keeps {s0 s : State} (hs : Keeps s0 s) (n : Nat) : Keeps s0 (s.admitAcq n) := by
  unfold State.admitAcq
  dsimp only
  repeat' first
    | with_reducible assumption
    | with_reducible apply State.setAcq_keeps
    | with_reducible apply State.waitFill_keeps

theorem State.undoTrigger_keeps {s0 s : State} (hs : Keeps s0 s) (n : Nat) : Keeps s0 (s.undoTrigger n) := by
  unfold State.undoTrigger
  try dsimp only
  repeat' first
    | with_reducible assumption
    | with_reducible apply ite_pred
    | with_reducible apply State.setAcq_keeps
    | with_reducible apply State.put_keeps
    | with_reducible apply State.ignored_keeps
    | simp only [keeps_mk]
    | split

theorem State.abortAcq_keeps {s0 s : State} (hs : Keeps s0 s) (n : Nat) : Keeps s0 (s.abortAcq n) := by
  unfold State.abortAcq
  try dsimp only
  repeat' first
    | with_reducible assumption
    | with_reducible apply ite_pred
    | with_reducible apply State.closeAcq_keeps
    | with_reducible apply State.undoTrigger_keeps

theorem State.disarmAcq_keeps {s0 s : State} (hs : Keeps s0 s) (n : Nat) : Keeps s0 (s.disarmAcq n) := by
  unfold State.disarmAcq
  try dsimp only
  repeat' first
    | with_reducible assumption
    | with_reducible apply ite_pred
    | with_reducible apply State.setAcq_keeps
    | with_reducible apply State.retract_keeps
    | with_reducible apply State.freeSlu_keeps
    | with_reducible apply State.closeAcq_keeps
    | with_reducible apply State.leaveArm_keeps

theorem State.closeDue_keeps {s0 s : State} (hs : Keeps s0 s) (n : Nat) : Keeps s0 (s.closeDue n) := by
  unfold State.closeDue
  try dsimp only
  repeat' first
    | with_reducible assumption
    | with_reducible apply ite_pred
    | with_reducible apply State.closeAcq_keeps
    | split

theorem State.readyDue_keeps {s0 s : State} (hs : Keeps s0 s) (n : Nat) : Keeps s0 (s.readyDue n) := by
  unfold State.readyDue
  dsimp only
  repeat' first
    | with_reducible assumption
    | with_reducible apply ite_pred
    | with_reducible apply State.setAcq_keeps

theorem State.autoDue_keeps {s0 s : State} (hs : Keeps s0 s) (n : Nat) : Keeps s0 (s.autoDue n) := by
  unfold State.autoDue
  try dsimp only
  repeat' first
    | with_reducible assumption
    | with_reducible apply ite_pred
    | with_reducible apply State.trigger_keeps

theorem State.forceAcq_keeps {s0 s : State} (hs : Keeps s0 s) (n : Nat) : Keeps s0 (s.forceAcq n) := by
  unfold State.forceAcq
  try dsimp only
  repeat' first
    | with_reducible assumption
    | with_reducible apply ite_pred
    | with_reducible apply State.trigger_keeps
    | with_reducible apply State.setAcq_keeps
    | simp only [keeps_mk]
    | split

theorem State.haltStreams_keeps {s0 s : State} (hs : Keeps s0 s) : Keeps s0 s.haltStreams := by
  unfold State.haltStreams
  dsimp only
  repeat' first
    | with_reducible assumption
    | with_reducible apply ite_pred
    | with_reducible refine foldl_pred (fun _ _ _ => ?_) ?_
    | with_reducible apply State.closeAcq_keeps

theorem State.releasePan_keeps {s0 s : State} (hs : Keeps s0 s) (p : Nat) : Keeps s0 (s.releasePan p) := by
  unfold State.releasePan
  dsimp only
  repeat' first
    | with_reducible assumption
    | with_reducible apply ite_pred
    | with_reducible apply State.setPan_keeps

theorem execFillStart_keeps {s0 s : State} (t n : Nat) (hs : Keeps s0 s) : KeepsO s0 (execFillStart t n s) := by
  unfold execFillStart
  repeat' first
    | with_reducible assumption
    | with_reducible apply ite_pred
    | with_reducible apply State.at_keeps
    | with_reducible apply State.fillStart_keeps
    | with_reducible apply keepsO_next
    | with_reducible exact keepsO_fault

theorem execReady_keeps {s0 s : State} (t n : Nat) (hs : Keeps s0 s) : KeepsO s0 (execReady t n s) := by
  unfold execReady
  repeat' first
    | with_reducible assumption
    | with_reducible apply ite_pred
    | with_reducible apply State.at_keeps
    | with_reducible apply State.readyDue_keeps
    | with_reducible apply keepsO_next
    | with_reducible exact keepsO_fault

theorem execAutoTimeout_keeps {s0 s : State} (t n : Nat) (hs : Keeps s0 s) : KeepsO s0 (execAutoTimeout t n s) := by
  unfold execAutoTimeout
  repeat' first
    | with_reducible assumption
    | with_reducible apply ite_pred
    | with_reducible apply State.at_keeps
    | with_reducible apply State.autoDue_keeps
    | with_reducible apply keepsO_next
    | with_reducible exact keepsO_fault

theorem execIntervalTimeout_keeps {s0 s : State} (t n c : Nat) (hs : Keeps s0 s) :
    KeepsO s0 (execIntervalTimeout t n c s) := by
  unfold execIntervalTimeout
  repeat' first
    | with_reducible assumption
    | with_reducible apply ite_pred
    | with_reducible apply State.at_keeps
    | with_reducible apply State.endInterval_keeps
    | with_reducible apply State.condTimeout_keeps
    | with_reducible apply keepsO_next
    | with_reducible exact keepsO_fault

theorem execCaptureClose_keeps {s0 s : State} (t n : Nat) (hs : Keeps s0 s) : KeepsO s0 (execCaptureClose t n s) := by
  unfold execCaptureClose
  repeat' first
    | with_reducible assumption
    | with_reducible apply ite_pred
    | with_reducible apply State.at_keeps
    | with_reducible apply State.closeDue_keeps
    | with_reducible apply keepsO_next
    | with_reducible exact keepsO_fault

/-! ## MaskTest -/

theorem State.violate_keeps {s0 s : State} (hs : Keeps s0 s) (n : Nat) (i : Instance) (multi : Bool) :
    Keeps s0 (s.violate n i multi) := by
  unfold State.violate
  dsimp only
  repeat' first
    | with_reducible assumption
    | with_reducible apply ite_pred
    | with_reducible apply State.count_keeps
    | with_reducible apply State.raise_keeps
    | with_reducible apply State.setAcq_keeps
    | with_reducible apply State.setMask_keeps
    | with_reducible apply State.rulesMask_keeps
    | with_reducible apply State.closeAcq_keeps

theorem State.settleMask_keeps {s0 s : State} (hs : Keeps s0 s) (n : Nat) : Keeps s0 (s.settleMask n) := by
  unfold State.settleMask
  try dsimp only
  repeat' first
    | with_reducible assumption
    | with_reducible apply ite_pred
    | with_reducible refine foldl_pred (fun _ _ _ => ?_) ?_
    | with_reducible apply State.count_keeps
    | with_reducible apply State.rulesMask_keeps
    | with_reducible apply State.setMask_keeps
    | with_reducible apply State.violate_keeps
    | simp only [keeps_mk]
    | split

theorem State.maskRef_keeps {s0 s : State} (hs : Keeps s0 s) (n : Nat) (t : Int) : Keeps s0 (s.maskRef n t) := by
  unfold State.maskRef
  try dsimp only
  repeat' first
    | with_reducible assumption
    | with_reducible apply ite_pred
    | with_reducible refine foldl_pred (fun _ _ _ => ?_) ?_
    | with_reducible apply State.put_keeps
    | with_reducible apply State.setMask_keeps
    | with_reducible apply State.raise_keeps
    | with_reducible apply State.violate_keeps
    | with_reducible apply State.settleMask_keeps

theorem State.maskEvent_keeps {s0 s : State} (hs : Keeps s0 s) (n : Nat) (x : MaskEvent) :
    Keeps s0 (s.maskEvent n x) := by
  unfold State.maskEvent
  try dsimp only
  repeat' first
    | with_reducible assumption
    | with_reducible apply ite_pred
    | with_reducible apply State.setMask_keeps
    | with_reducible apply State.settleMask_keeps

theorem State.masksEdge_keeps {s0 s : State} (hs : Keeps s0 s) (k : Nat) (t : Int) (pol est fe cal late : Bool) :
    Keeps s0 (s.masksEdge k t pol est fe cal late) := by
  unfold State.masksEdge
  try dsimp only
  repeat' first
    | with_reducible assumption
    | with_reducible apply ite_pred
    | with_reducible refine foldl_pred (fun _ _ _ => ?_) ?_
    | with_reducible apply State.maskRef_keeps
    | with_reducible apply State.maskEvent_keeps

theorem State.masksMarker_keeps {s0 s : State} (hs : Keeps s0 s) (k : Nat) (t : Int) : Keeps s0 (s.masksMarker k t) := by
  unfold State.masksMarker
  repeat' first
    | with_reducible assumption
    | with_reducible apply ite_pred
    | with_reducible refine foldl_pred (fun _ _ _ => ?_) ?_
    | with_reducible apply State.maskRef_keeps

theorem State.masksTrip_keeps {s0 s : State} (hs : Keeps s0 s) (ch : Nat) (t : Int) :
    Keeps s0 (s.masksTrip ch t) := by
  unfold State.masksTrip
  repeat' first
    | with_reducible assumption
    | with_reducible refine foldl_pred (fun _ _ _ => ?_) ?_
    | with_reducible apply State.maskEvent_keeps

theorem State.maskPassed_keeps {s0 s : State} (hs : Keeps s0 s) (n : Nat) : Keeps s0 (s.maskPassed n) := by
  unfold State.maskPassed
  try dsimp only
  repeat' first
    | with_reducible assumption
    | with_reducible apply ite_pred
    | with_reducible apply State.setMask_keeps
    | with_reducible apply State.settleMask_keeps

theorem execMaskSpanPassed_keeps {s0 s : State} (t n : Nat) (hs : Keeps s0 s) : KeepsO s0 (execMaskSpanPassed t n s) := by
  unfold execMaskSpanPassed
  repeat' first
    | with_reducible assumption
    | with_reducible apply ite_pred
    | with_reducible apply State.at_keeps
    | with_reducible apply State.maskPassed_keeps
    | with_reducible apply keepsO_next
    | with_reducible exact keepsO_fault

/-! ## Fabric -/

theorem State.storeAll_keeps {s0 s : State} (hs : Keeps s0 s) (k : Nat) (i : Item) (time : Int) :
    Keeps s0 (s.storeAll k i time) := by
  unfold State.storeAll
  repeat' first
    | with_reducible assumption
    | with_reducible refine foldl_pred (fun _ _ _ => ?_) ?_
    | with_reducible apply State.storeItem_keeps

theorem State.fabricEdge_keeps {s0 s : State} (hs : Keeps s0 s) (k : Nat) (e : EdgeRec) (x : Entry) :
    Keeps s0 (s.fabricEdge k e x) := by
  unfold State.fabricEdge
  dsimp only
  repeat' first
    | with_reducible assumption
    | with_reducible apply ite_pred
    | with_reducible refine foldl_pred (fun _ _ _ => ?_) ?_
    | with_reducible apply State.setSrc_keeps
    | with_reducible apply State.offerUpd_keeps
    | with_reducible apply State.cryEdge_keeps
    | with_reducible apply State.rulesEdge_keeps
    | with_reducible apply State.aqEvents_keeps
    | with_reducible apply State.masksEdge_keeps
    | with_reducible apply State.storeAll_keeps

theorem State.fabricBreak_keeps {s0 s : State} (hs : Keeps s0 s) (k : Nat) (t : Int) : Keeps s0 (s.fabricBreak k t) := by
  unfold State.fabricBreak
  dsimp only
  repeat' first
    | with_reducible assumption
    | with_reducible refine foldl_pred (fun _ _ _ => ?_) ?_
    | with_reducible apply State.cryBreak_keeps
    | with_reducible apply State.rulesBreak_keeps
    | with_reducible apply State.aqEvents_keeps

theorem State.fabricMark_keeps {s0 s : State} (hs : Keeps s0 s) (k cause lost : Nat) (x : Entry) :
    Keeps s0 (s.fabricMark k cause lost x) := by
  unfold State.fabricMark
  dsimp only
  repeat' first
    | with_reducible assumption
    | with_reducible refine foldl_pred (fun _ _ _ => ?_) ?_
    | with_reducible apply State.setSrc_keeps
    | with_reducible apply State.offerUpd_keeps
    | with_reducible apply State.storeAll_keeps
    | with_reducible apply State.fabricBreak_keeps

theorem State.stagedClose_keeps {s0 s : State} (hs : Keeps s0 s) (k : Nat) (t : Int) : Keeps s0 (s.stagedClose k t) := by
  unfold State.stagedClose
  dsimp only
  repeat' first
    | with_reducible assumption
    | with_reducible apply ite_pred
    | with_reducible refine foldl_pred (fun _ _ _ => ?_) ?_
    | with_reducible apply State.setWave_keeps
    | with_reducible apply State.startMerge_keeps
    | with_reducible apply State.dropStaging_keeps

theorem State.fabricAnchor_keeps {s0 s : State} (hs : Keeps s0 s) (k seq reason time : Nat) (x : Entry) :
    Keeps s0 (s.fabricAnchor k seq reason time x) := by
  unfold State.fabricAnchor
  try dsimp only
  repeat' first
    | with_reducible assumption
    | with_reducible apply ite_pred
    | with_reducible refine foldl_pred (fun _ _ _ => ?_) ?_
    | with_reducible apply State.free_keeps
    | with_reducible apply State.setSrc_keeps
    | with_reducible apply State.storeAll_keeps
    | with_reducible apply State.offerUpd_keeps
    | with_reducible apply State.fabricBreak_keeps
    | with_reducible apply State.stagedClose_keeps
    | with_reducible refine KeepsP.snd (by assumption) ?_
    | with_reducible apply KeepsP.proj
    | simp only [keepsP_mk]

theorem State.deliver_keeps {s0 s : State} (hs : Keeps s0 s) (k : Nat) : Keeps s0 (s.deliver k) := by
  unfold State.deliver
  try dsimp only
  repeat' first
    | with_reducible assumption
    | with_reducible apply ite_pred
    | with_reducible refine foldl_pred (fun _ _ _ => ?_) ?_
    | with_reducible apply State.setSrc_keeps
    | with_reducible apply State.fabricEdge_keeps
    | with_reducible apply State.fabricMark_keeps
    | with_reducible apply State.fabricAnchor_keeps
    | with_reducible apply State.settle_keeps
    | with_reducible apply State.storeAll_keeps
    | with_reducible apply State.offerUpd_keeps
    | with_reducible refine KeepsP.snd (by assumption) ?_
    | with_reducible apply KeepsP.proj
    | simp only [keepsP_mk]
    | simp only [keeps_mk]
    | split

theorem State.retryLoop_keeps {s0 s : State} (hs : Keeps s0 s) (k : Nat) : Keeps s0 (s.retryLoop k) := by
  unfold State.retryLoop
  repeat' first
    | with_reducible assumption
    | with_reducible apply ite_pred
    | with_reducible apply State.startLoop_keeps

theorem execRecordToFabric_keeps {s0 s : State} (t src : Nat) (hs : Keeps s0 s) :
    KeepsO s0 (execRecordToFabric t src s) := by
  unfold execRecordToFabric
  try dsimp only
  repeat' first
    | with_reducible assumption
    | with_reducible apply ite_pred
    | with_reducible apply State.at_keeps
    | with_reducible apply State.drainQueues_keeps
    | with_reducible apply State.flush_keeps
    | with_reducible apply State.deliver_keeps
    | with_reducible apply State.retryLoop_keeps
    | with_reducible apply keepsO_next
    | with_reducible exact keepsO_fault

theorem execTapEdge_keeps {s0 s : State} (t src : Nat) (hs : Keeps s0 s) : KeepsO s0 (execTapEdge t src s) := by
  unfold execTapEdge
  try dsimp only
  repeat' first
    | with_reducible assumption
    | with_reducible apply ite_pred
    | with_reducible apply State.at_keeps
    | with_reducible apply State.setSrc_keeps
    | with_reducible apply State.rulesBreak_keeps
    | with_reducible apply State.masksEdge_keeps
    | with_reducible apply State.rulesEdge_keeps
    | with_reducible apply keepsO_next
    | with_reducible exact keepsO_fault
    | simp only [keeps_mk]
    | split

/-! ## Ledger -/

theorem State.ledger_keeps {s0 s : State} (hs : Keeps s0 s) (kind cause detail : Nat) :
    Keeps s0 (s.ledger kind cause detail) := by
  unfold State.ledger
  dsimp only
  repeat' first | with_reducible assumption | simp only [keeps_mk]

theorem State.unitDone_keeps {s0 s : State} (hs : Keeps s0 s) : Keeps s0 s.unitDone := by
  unfold State.unitDone
  repeat' first
    | with_reducible assumption
    | with_reducible apply State.raise_keeps
    | with_reducible apply State.ledger_keeps

theorem State.ageing_keeps {s0 s : State} (hs : Keeps s0 s) (detail : Nat) : Keeps s0 (s.ageing detail) := by
  unfold State.ageing
  repeat' first
    | with_reducible assumption
    | with_reducible apply State.raise_keeps
    | with_reducible apply State.ledger_keeps

/-! ## Spares -/

theorem State.startEnd_keeps {s0 s : State} (hs : Keeps s0 s) (b : Nat) : Keeps s0 (s.startEnd b) := by
  unfold State.startEnd
  repeat' first | with_reducible assumption | with_reducible apply State.setBe_keeps

theorem State.stopEnd_keeps {s0 s : State} (hs : Keeps s0 s) (b : Nat) : Keeps s0 (s.stopEnd b) := by
  unfold State.stopEnd
  dsimp only
  repeat' first | with_reducible assumption | with_reducible apply State.setBe_keeps

theorem State.retire_keeps {s0 s : State} (hs : Keeps s0 s) (n : Nat) (now : Bool) : Keeps s0 (s.retire n now) := by
  unfold State.retire
  dsimp only
  repeat' first
    | with_reducible assumption
    | with_reducible apply State.setChan_keeps
    | with_reducible apply State.startEnd_keeps

theorem State.beBack_keeps {s0 s : State} (hs : Keeps s0 s) (n : Nat) : Keeps s0 (s.beBack n) := by
  unfold State.beBack
  dsimp only
  repeat' first
    | with_reducible assumption
    | with_reducible apply ite_pred
    | with_reducible apply State.setChan_keeps
    | with_reducible apply State.startEnd_keeps
    | with_reducible apply State.stopEnd_keeps

theorem State.changeOver_keeps {s0 s : State} (hs : Keeps s0 s) (n b reason : Nat) (t : Int) (markers : List
    Item) :
    Keeps s0 (s.changeOver n b reason t markers) := by
  unfold State.changeOver
  try dsimp only
  repeat' first
    | with_reducible assumption
    | with_reducible apply ite_pred
    | with_reducible refine foldl_pred (fun _ _ _ => ?_) ?_
    | with_reducible apply State.pushDue_keeps
    | with_reducible apply State.writeDue_keeps
    | with_reducible apply State.beginCause_keeps
    | with_reducible apply State.setSrc_keeps

theorem State.switchAt_keeps {s0 s : State} (hs : Keeps s0 s) (n count : Nat) (t : Int) :
    Keeps s0 (s.switchAt n count t) := by
  unfold State.switchAt
  try dsimp only
  repeat' first
    | with_reducible assumption
    | with_reducible apply ite_pred
    | with_reducible apply State.readCounter_keeps
    | with_reducible apply State.changeOver_keeps
    | with_reducible apply State.setChan_keeps
    | with_reducible apply State.stopEnd_keeps
    | with_reducible apply State.raise_keeps
    | with_reducible apply State.unitDone_keeps
    | simp only [keeps_mk]
    | split

theorem State.rejoinAt_keeps {s0 s : State} (hs : Keeps s0 s) (n : Nat) (t : Int) : Keeps s0 (s.rejoinAt n t) := by
  unfold State.rejoinAt
  try dsimp only
  repeat' first
    | with_reducible assumption
    | with_reducible apply State.changeOver_keeps
    | with_reducible apply State.setChan_keeps
    | with_reducible apply State.stopEnd_keeps
    | with_reducible apply State.raise_keeps
    | with_reducible apply State.unitDone_keeps
    | simp only [keeps_mk]

theorem State.switchOver_keeps {s0 s : State} (hs : Keeps s0 s) (n count : Nat) :
    Keeps s0 (s.switchOver n count) := by
  unfold State.switchOver
  try dsimp only
  repeat' first
    | with_reducible assumption
    | with_reducible apply ite_pred
    | with_reducible apply State.switchAt_keeps
    | split

theorem State.rejoin_keeps {s0 s : State} (hs : Keeps s0 s) (n : Nat) : Keeps s0 (s.rejoin n) := by
  unfold State.rejoin
  try dsimp only
  repeat' first
    | with_reducible assumption
    | with_reducible apply ite_pred
    | with_reducible apply State.rejoinAt_keeps
    | split

theorem State.changeBefore_keeps {s0 s : State} (hs : Keeps s0 s) (n : Nat) (t : Int) :
    Keeps s0 (s.changeBefore n t) := by
  unfold State.changeBefore
  try dsimp only
  repeat' first
    | with_reducible assumption
    | with_reducible apply ite_pred
    | with_reducible apply State.switchAt_keeps
    | with_reducible apply State.rejoinAt_keeps
    | split

/-! ## FrontEnd -/

theorem State.compEdge_keeps {s0 s : State} (hs : Keeps s0 s) (n : Nat) (pol : Bool) (bin : Nat) :
    Keeps s0 (s.compEdge n pol bin) := by
  unfold State.compEdge
  try dsimp only
  repeat' first
    | with_reducible assumption
    | with_reducible apply ite_pred
    | with_reducible apply State.setChan_keeps
    | with_reducible apply State.changeBefore_keeps
    | with_reducible apply State.takeBy_keeps
    | with_reducible apply State.formEdge_keeps
    | with_reducible apply State.outsideEdge_keeps

theorem State.compareNew_keeps {s0 s : State} (hs : Keeps s0 s) (n : Nat) (v : Input) (bin : Nat) :
    Keeps s0 (s.compareNew n v bin) := by
  unfold State.compareNew
  try dsimp only
  repeat' first
    | with_reducible assumption
    | with_reducible apply ite_pred
    | with_reducible apply State.compEdge_keeps
    | with_reducible apply State.setChan_keeps

theorem State.applyFe_keeps {s0 s : State} (hs : Keeps s0 s) (n at_ : Nat) (input : Option (Input × Nat)) :
    Keeps s0 (s.applyFe n at_ input) := by
  unfold State.applyFe
  try dsimp only
  repeat' first
    | with_reducible assumption
    | with_reducible apply ite_pred
    | with_reducible apply State.applyAll_keeps
    | with_reducible apply State.bump_keeps
    | with_reducible apply State.setChan_keeps
    | with_reducible apply State.pushDue_keeps
    | with_reducible apply State.compareNew_keeps
    | simp only [keeps_mk]
    | split

theorem State.frameFronts_keeps {s0 s : State} (hs : Keeps s0 s) (inst : Nat) (inputs : List (Nat × Input ×
    Nat)) :
    Keeps s0 (s.frameFronts inst inputs) := by
  unfold State.frameFronts
  repeat' first
    | with_reducible assumption
    | with_reducible apply ite_pred
    | with_reducible refine foldl_pred (fun _ _ _ => ?_) ?_
    | with_reducible apply State.applyFe_keeps
    | split

theorem State.frameLatches_keeps {s0 s : State} (hs : Keeps s0 s) : Keeps s0 s.frameLatches := by
  unfold State.frameLatches
  dsimp only
  repeat' first
    | with_reducible assumption
    | with_reducible apply ite_pred
    | with_reducible refine foldl_pred (fun _ _ _ => ?_) ?_
    | with_reducible apply State.setChan_keeps
    | with_reducible apply State.settleTrips_keeps

theorem State.deliverTrip_keeps {s0 s : State} (hs : Keeps s0 s) (n : Nat) (t : Int) : Keeps s0 (s.deliverTrip n t) := by
  unfold State.deliverTrip
  repeat' first
    | with_reducible assumption
    | with_reducible apply ite_pred
    | with_reducible apply State.rulesTrip_keeps
    | with_reducible apply State.aqEvents_keeps
    | with_reducible apply State.masksTrip_keeps

theorem State.winSample_keeps {s0 s : State} (hs : Keeps s0 s) (n : Nat) (v : Input) (back : Nat) :
    Keeps s0 (s.winSample n v back) := by
  unfold State.winSample
  try dsimp only
  repeat' first
    | with_reducible assumption
    | with_reducible apply ite_pred
    | with_reducible apply State.setChan_keeps
    | with_reducible apply State.settleTrips_keeps
    | with_reducible apply State.raise_keeps
    | with_reducible apply State.count_keeps
    | with_reducible apply State.deliverTrip_keeps

theorem State.winSamples_keeps {s0 s : State} (hs : Keeps s0 s) (n : Nat) (vs : List Input) :
    Keeps s0 (s.winSamples n vs) := by
  induction vs generalizing s with
  | nil => exact hs
  | cons x xs ih =>
    rw [State.winSamples]
    exact ih (State.winSample_keeps hs _ _ _)

theorem State.startWin_keeps {s0 s : State} (hs : Keeps s0 s) (n : Nat) : Keeps s0 (s.startWin n) := by
  unfold State.startWin
  try dsimp only
  repeat' first
    | with_reducible assumption
    | with_reducible apply State.setChan_keeps
    | with_reducible apply State.settleTrips_keeps

theorem State.stopWin_keeps {s0 s : State} (hs : Keeps s0 s) (n : Nat) : Keeps s0 (s.stopWin n) := by
  unfold State.stopWin
  dsimp only
  repeat' first
    | with_reducible assumption
    | with_reducible apply State.setChan_keeps
    | with_reducible apply State.settleTrips_keeps
    | with_reducible apply State.touchIsland_keeps

theorem State.enableWin_keeps {s0 s : State} (hs : Keeps s0 s) (n en : Nat) : Keeps s0 (s.enableWin n en) := by
  unfold State.enableWin
  dsimp only
  repeat' first
    | with_reducible assumption
    | with_reducible apply ite_pred
    | with_reducible apply State.put_keeps
    | with_reducible apply State.setChan_keeps
    | with_reducible apply State.queueWake_keeps
    | with_reducible apply State.startWin_keeps
    | with_reducible apply State.stopWin_keeps

theorem State.armChan_keeps {s0 s : State} (hs : Keeps s0 s) (n : Nat) : Keeps s0 (s.armChan n) := by
  unfold State.armChan
  dsimp only
  repeat' first
    | with_reducible assumption
    | with_reducible apply ite_pred
    | with_reducible apply State.setChan_keeps
    | with_reducible apply State.submit_keeps
    | with_reducible apply State.queueWake_keeps

theorem State.admitChan_keeps {s0 s : State} (hs : Keeps s0 s) (n : Nat) : Keeps s0 (s.admitChan n) := by
  unfold State.admitChan
  try dsimp only
  repeat' first
    | with_reducible assumption
    | with_reducible apply ite_pred
    | with_reducible apply State.setChan_keeps

theorem State.startChan_keeps {s0 s : State} (hs : Keeps s0 s) (n : Nat) (v : Input) (bin : Nat) :
    Keeps s0 (s.startChan n v bin) := by
  unfold State.startChan
  try dsimp only
  repeat' first
    | with_reducible assumption
    | with_reducible apply ite_pred
    | with_reducible apply State.flush_keeps
    | with_reducible apply State.setChan_keeps
    | with_reducible apply State.startTaking_keeps
    | with_reducible apply State.pushDue_keeps
    | with_reducible apply State.beginCause_keeps
    | with_reducible apply State.free_keeps
    | with_reducible apply State.takeBy_keeps
    | with_reducible apply State.formEdge_keeps
    | with_reducible refine KeepsP.snd (by assumption) ?_
    | with_reducible apply KeepsP.proj
    | simp only [keepsP_mk]
    | simp only [keeps_mk]
    | split

theorem State.withdrawWake_keeps {s0 s : State} (hs : Keeps s0 s) (n : Nat) : Keeps s0 (s.withdrawWake n) := by
  unfold State.withdrawWake
  try dsimp only
  repeat' first
    | with_reducible assumption
    | with_reducible apply ite_pred
    | with_reducible apply State.retract_keeps

theorem State.disarmChan_keeps {s0 s : State} (hs : Keeps s0 s) (n : Nat) : Keeps s0 (s.disarmChan n) := by
  unfold State.disarmChan
  try dsimp only
  repeat' first
    | with_reducible assumption
    | with_reducible apply ite_pred
    | with_reducible apply State.setChan_keeps
    | with_reducible apply State.retract_keeps
    | with_reducible apply State.withdrawWake_keeps
    | with_reducible apply State.stopTaking_keeps
    | with_reducible apply State.touchIsland_keeps
    | with_reducible apply State.releaseCost_keeps

theorem execChannelStart_keeps {s0 s : State} (t n : Nat) (input : Input) (bin : Nat) (hs : Keeps s0 s) :
    KeepsO s0 (execChannelStart t n input bin s) := by
  unfold execChannelStart
  repeat' first
    | with_reducible assumption
    | with_reducible apply ite_pred
    | with_reducible apply State.at_keeps
    | with_reducible apply State.startChan_keeps
    | with_reducible apply keepsO_next
    | with_reducible exact keepsO_fault

theorem execEdge_keeps {s0 s : State} (t n : Nat) (pol : Bool) (bin : Nat) (hs : Keeps s0 s) :
    KeepsO s0 (execEdge t n pol bin s) := by
  unfold execEdge
  try dsimp only
  repeat' first
    | with_reducible assumption
    | with_reducible apply ite_pred
    | with_reducible apply State.at_keeps
    | with_reducible apply State.flush_keeps
    | with_reducible apply State.compEdge_keeps
    | with_reducible apply State.setChan_keeps
    | with_reducible apply keepsO_next
    | with_reducible exact keepsO_fault

theorem State.pulseIn_keeps {s0 s : State} (hs : Keeps s0 s) (n width bin endBin : Nat) :
    Keeps s0 (s.pulseIn n width bin endBin) := by
  unfold State.pulseIn
  dsimp only
  repeat' first
    | with_reducible assumption
    | with_reducible apply ite_pred
    | with_reducible apply State.count_keeps
    | with_reducible apply State.compEdge_keeps
    | with_reducible apply State.free_keeps
    | with_reducible apply State.later_keeps
    | with_reducible apply KeepsP.proj

theorem execRuntPulse_keeps {s0 s : State} (t n width bin endBin : Nat) (hs : Keeps s0 s) :
    KeepsO s0 (execRuntPulse t n width bin endBin s) := by
  unfold execRuntPulse
  try dsimp only
  repeat' first
    | with_reducible assumption
    | with_reducible apply ite_pred
    | with_reducible apply State.at_keeps
    | with_reducible apply State.flush_keeps
    | with_reducible apply State.pulseIn_keeps
    | with_reducible apply keepsO_next
    | with_reducible exact keepsO_fault

theorem execCommitApplyEarly_keeps {s0 s : State} (t n : Nat) (input : Input) (bin : Nat) (hs : Keeps s0 s) :
    KeepsO s0 (execCommitApplyEarly t n input bin s) := by
  unfold execCommitApplyEarly
  try dsimp only
  repeat' first
    | with_reducible assumption
    | with_reducible apply ite_pred
    | with_reducible apply State.at_keeps
    | with_reducible apply State.applyFe_keeps
    | with_reducible apply State.earlyWave_keeps
    | with_reducible apply keepsO_next
    | with_reducible exact keepsO_fault
    | split

theorem execSettleEnd_keeps {s0 s : State} (t n : Nat) (hs : Keeps s0 s) : KeepsO s0 (execSettleEnd t n s) := by
  unfold execSettleEnd
  repeat' first
    | with_reducible assumption
    | with_reducible apply ite_pred
    | with_reducible apply State.at_keeps
    | with_reducible apply State.flush_keeps
    | with_reducible apply keepsO_next
    | with_reducible exact keepsO_fault

theorem State.detects_keeps {s0 s : State} (hs : Keeps s0 s) (peak : Nat) : KeepsP s0 (s.detects peak) := by
  unfold State.detects
  try dsimp only
  repeat' first
    | with_reducible assumption
    | with_reducible apply ite_pred
    | with_reducible apply State.free_keeps
    | with_reducible refine KeepsP.snd (by assumption) ?_
    | with_reducible apply KeepsP.proj
    | simp only [keepsP_mk]

theorem State.overdrive_keeps {s0 s : State} (hs : Keeps s0 s) (n cls : Nat) : Keeps s0 (s.overdrive n cls) := by
  unfold State.overdrive
  try dsimp only
  repeat' first
    | with_reducible assumption
    | with_reducible apply ite_pred
    | with_reducible apply State.count_keeps
    | with_reducible apply State.setChan_keeps

theorem execOverdriveStart_keeps {s0 s : State} (t n : Nat) (peak : Input) (hs : Keeps s0 s) :
    KeepsO s0 (execOverdriveStart t n peak s) := by
  unfold execOverdriveStart
  try dsimp only
  repeat' first
    | with_reducible assumption
    | with_reducible apply ite_pred
    | with_reducible apply State.at_keeps
    | with_reducible apply State.detects_keeps
    | with_reducible apply State.overdrive_keeps
    | with_reducible refine KeepsP.snd (by assumption) ?_
    | with_reducible apply KeepsP.proj
    | with_reducible apply keepsO_next
    | with_reducible exact keepsO_fault

theorem execOverdriveEnd_keeps {s0 s : State} (t n : Nat) (hs : Keeps s0 s) : KeepsO s0 (execOverdriveEnd t n s) := by
  unfold execOverdriveEnd
  dsimp only
  repeat' first
    | with_reducible assumption
    | with_reducible apply ite_pred
    | with_reducible apply State.at_keeps
    | with_reducible apply State.setChan_keeps
    | with_reducible apply keepsO_next
    | with_reducible exact keepsO_fault

theorem execWindowAssert_keeps {s0 s : State} (t n : Nat) (samples : List Input) (hs : Keeps s0 s) :
    KeepsO s0 (execWindowAssert t n samples s) := by
  unfold execWindowAssert
  repeat' first
    | with_reducible assumption
    | with_reducible apply ite_pred
    | with_reducible apply State.at_keeps
    | with_reducible apply State.winSamples_keeps
    | with_reducible apply keepsO_next
    | with_reducible exact keepsO_fault

theorem execWindowDeassert_keeps {s0 s : State} (t n : Nat) (samples : List Input) (hs : Keeps s0 s) :
    KeepsO s0 (execWindowDeassert t n samples s) := by
  unfold execWindowDeassert
  repeat' first
    | with_reducible assumption
    | with_reducible apply ite_pred
    | with_reducible apply State.at_keeps
    | with_reducible apply State.winSamples_keeps
    | with_reducible apply keepsO_next
    | with_reducible exact keepsO_fault

theorem execWindowHoldEnd_keeps {s0 s : State} (t n : Nat) (hs : Keeps s0 s) :
    KeepsO s0 (execWindowHoldEnd t n s) := by
  unfold execWindowHoldEnd
  try dsimp only
  repeat' first
    | with_reducible assumption
    | with_reducible apply ite_pred
    | with_reducible apply State.at_keeps
    | with_reducible apply State.setChan_keeps
    | with_reducible apply keepsO_next
    | with_reducible exact keepsO_fault
    | simp only [keeps_mk]
    | split

/-! ## BackEnd -/

theorem State.overflowEnds_keeps {s0 s : State} (hs : Keeps s0 s) (k : Nat) : Keeps s0 (s.overflowEnds k) := by
  unfold State.overflowEnds
  repeat' first
    | with_reducible assumption
    | with_reducible apply ite_pred
    | with_reducible apply State.endCause_keeps

theorem State.calHit_keeps {s0 s : State} (hs : Keeps s0 s) (b bin : Nat) : Keeps s0 (s.calHit b bin) := by
  unfold State.calHit
  dsimp only
  repeat' first
    | with_reducible assumption
    | with_reducible apply ite_pred
    | with_reducible apply State.setBe_keeps

theorem State.buildTables_keeps {s0 s : State} (hs : Keeps s0 s) (b : Nat) : Keeps s0 (s.buildTables b) := by
  unfold State.buildTables
  try dsimp only
  repeat' first
    | with_reducible assumption
    | with_reducible apply ite_pred
    | with_reducible apply State.setBe_keeps
    | with_reducible apply State.setChan_keeps
    | with_reducible apply State.ageing_keeps
    | with_reducible apply State.raise_keeps
    | simp only [keeps_mk]
    | split

theorem State.calRestart_keeps {s0 s : State} (hs : Keeps s0 s) (n : Nat) : Keeps s0 (s.calRestart n) := by
  unfold State.calRestart
  try dsimp only
  repeat' first | with_reducible assumption | with_reducible apply State.setBe_keeps

theorem State.endBypass_keeps {s0 s : State} (hs : Keeps s0 s) (n : Nat) : Keeps s0 (s.endBypass n) := by
  unfold State.endBypass
  repeat' first | with_reducible assumption | with_reducible apply State.setBe_keeps

theorem State.warmupOver_keeps {s0 s : State} (hs : Keeps s0 s) (n : Nat) : Keeps s0 (s.warmupOver n) := by
  unfold State.warmupOver
  dsimp only
  repeat' first
    | with_reducible assumption
    | with_reducible apply ite_pred
    | with_reducible apply State.raise_keeps
    | with_reducible apply State.setChan_keeps

theorem State.beFault_keeps {s0 s : State} (hs : Keeps s0 s) (b : Nat) : Keeps s0 (s.beFault b) := by
  unfold State.beFault
  try dsimp only
  repeat' first
    | with_reducible assumption
    | with_reducible apply ite_pred
    | with_reducible apply State.setBe_keeps
    | with_reducible apply State.raise_keeps
    | with_reducible apply State.beginCause_keeps
    | with_reducible apply State.retire_keeps
    | simp only [keeps_mk]
    | split

theorem execOverflowEnd_keeps {s0 s : State} (t src : Nat) (hs : Keeps s0 s) : KeepsO s0 (execOverflowEnd t src s) := by
  unfold execOverflowEnd
  repeat' first
    | with_reducible assumption
    | with_reducible apply ite_pred
    | with_reducible apply State.at_keeps
    | with_reducible apply State.overflowEnds_keeps
    | with_reducible apply keepsO_next
    | with_reducible exact keepsO_fault

theorem execPeriodicAnchor_keeps {s0 s : State} (t src : Nat) (hs : Keeps s0 s) :
    KeepsO s0 (execPeriodicAnchor t src s) := by
  unfold execPeriodicAnchor
  repeat' first
    | with_reducible assumption
    | with_reducible apply ite_pred
    | with_reducible apply State.at_keeps
    | with_reducible apply State.flush_keeps
    | with_reducible apply keepsO_next
    | with_reducible exact keepsO_fault

theorem execGapAnchor_keeps {s0 s : State} (t src : Nat) (hs : Keeps s0 s) : KeepsO s0 (execGapAnchor t src s) := by
  unfold execGapAnchor
  repeat' first
    | with_reducible assumption
    | with_reducible apply ite_pred
    | with_reducible apply State.at_keeps
    | with_reducible apply State.flush_keeps
    | with_reducible apply keepsO_next
    | with_reducible exact keepsO_fault

theorem execCalibrationHit_keeps {s0 s : State} (t be bin : Nat) (hs : Keeps s0 s) :
    KeepsO s0 (execCalibrationHit t be bin s) := by
  unfold execCalibrationHit
  repeat' first
    | with_reducible assumption
    | with_reducible apply ite_pred
    | with_reducible apply State.at_keeps
    | with_reducible apply State.calHit_keeps
    | with_reducible apply keepsO_next
    | with_reducible exact keepsO_fault

theorem execCalTableBuild_keeps {s0 s : State} (t be : Nat) (hs : Keeps s0 s) : KeepsO s0 (execCalTableBuild t be s) := by
  unfold execCalTableBuild
  repeat' first
    | with_reducible assumption
    | with_reducible apply ite_pred
    | with_reducible apply State.at_keeps
    | with_reducible apply State.buildTables_keeps
    | with_reducible apply keepsO_next
    | with_reducible exact keepsO_fault

theorem execSwitch_keeps {s0 s : State} (t n count : Nat) (hs : Keeps s0 s) : KeepsO s0 (execSwitch t n count s) := by
  unfold execSwitch
  repeat' first
    | with_reducible assumption
    | with_reducible apply ite_pred
    | with_reducible apply State.at_keeps
    | with_reducible apply State.switchOver_keeps
    | with_reducible apply keepsO_next
    | with_reducible exact keepsO_fault

theorem execSpareWarmupTimeout_keeps {s0 s : State} (t n : Nat) (hs : Keeps s0 s) :
    KeepsO s0 (execSpareWarmupTimeout t n s) := by
  unfold execSpareWarmupTimeout
  repeat' first
    | with_reducible assumption
    | with_reducible apply ite_pred
    | with_reducible apply State.at_keeps
    | with_reducible apply State.warmupOver_keeps
    | with_reducible apply keepsO_next
    | with_reducible exact keepsO_fault

theorem execRejoin_keeps {s0 s : State} (t n : Nat) (hs : Keeps s0 s) : KeepsO s0 (execRejoin t n s) := by
  unfold execRejoin
  repeat' first
    | with_reducible assumption
    | with_reducible apply ite_pred
    | with_reducible apply State.at_keeps
    | with_reducible apply State.rejoin_keeps
    | with_reducible apply keepsO_next
    | with_reducible exact keepsO_fault

theorem execBackendFault_keeps {s0 s : State} (t be : Nat) (hs : Keeps s0 s) :
    KeepsO s0 (execBackendFault t be s) := by
  unfold execBackendFault
  repeat' first
    | with_reducible assumption
    | with_reducible apply ite_pred
    | with_reducible apply State.at_keeps
    | with_reducible apply State.beFault_keeps
    | with_reducible apply keepsO_next
    | with_reducible exact keepsO_fault

theorem execInterpolatorNoHits_keeps {s0 s : State} (t be : Nat) (hs : Keeps s0 s) :
    KeepsO s0 (execInterpolatorNoHits t be s) := by
  unfold execInterpolatorNoHits
  try dsimp only
  repeat' first
    | with_reducible assumption
    | with_reducible apply ite_pred
    | with_reducible apply State.at_keeps
    | with_reducible apply State.beFault_keeps
    | with_reducible apply keepsO_next
    | with_reducible exact keepsO_fault

/-! ## Lifecycle -/

theorem State.endBypasses_keeps {s0 s : State} (hs : Keeps s0 s) : Keeps s0 s.endBypasses := by
  unfold State.endBypasses
  repeat' first
    | with_reducible assumption
    | with_reducible apply ite_pred
    | with_reducible refine foldl_pred (fun _ _ _ => ?_) ?_
    | with_reducible apply State.endBypass_keeps

theorem State.setDev_keeps {s0 s : State} (hs : Keeps s0 s) (d : DevState) : Keeps s0 (s.setDev d) := by
  unfold State.setDev
  try dsimp only
  repeat' first
    | with_reducible assumption
    | with_reducible apply ite_pred
    | with_reducible apply State.endBypasses_keeps
    | with_reducible apply State.raise_keeps
    | simp only [keeps_mk]

theorem State.toRecovery_keeps {s0 s : State} (hs : Keeps s0 s) : Keeps s0 s.toRecovery := by
  unfold State.toRecovery
  repeat' first
    | with_reducible assumption
    | with_reducible apply ite_pred
    | with_reducible apply State.setDev_keeps
    | simp only [keeps_mk]

theorem State.loseLogic_keeps {s0 s : State} (hs : Keeps s0 s) : Keeps s0 s.loseLogic where
  sound h := by
    obtain ⟨h1, h2, h3, h4⟩ := hs.sound h
    refine ⟨regsFit_filter _ h1, regsFit_filter _ h2, rfl, ?_⟩
    simp only [groupsFit, Bool.and_eq_true] at h4 ⊢
    simp only [State.loseLogic, h4, SMap.wf_update, true_and]
    repeat' first | exact trivial | exact rfl | refine ⟨?_, ?_⟩
  pending := hs.pending
  now := hs.now

theorem State.dropRestores_keeps {s0 s : State} (hs : Keeps s0 s) : Keeps s0 s.dropRestores where
  sound h := by
    obtain ⟨h1, h2, h3, h4⟩ := hs.sound h
    refine ⟨h1, h2, h3, ?_⟩
    simp only [groupsFit, State.dropRestores, Bool.and_eq_true] at h4 ⊢
    simp only [h4, and_true, true_and]; rfl
  pending := hs.pending
  now := hs.now

theorem State.shutGates_keeps {s0 s : State} (hs : Keeps s0 s) : Keeps s0 s.shutGates where
  sound h := by
    obtain ⟨h1, h2, h3, h4⟩ := hs.sound h
    refine ⟨h1, h2, h3, ?_⟩
    simp only [groupsFit, State.shutGates, Bool.and_eq_true] at h4 ⊢
    simp only [h4, SMap.wf_update, and_self]
  pending := hs.pending
  now := hs.now

theorem State.mark_keeps {s0 s : State} (hs : Keeps s0 s) (n : Nat) : Keeps s0 (s.mark n) := by
  unfold State.mark
  repeat' first
    | with_reducible assumption
    | with_reducible apply ite_pred
    | with_reducible apply State.put_keeps

theorem State.noteBoot_keeps {s0 s : State} (hs : Keeps s0 s) : Keeps s0 s.noteBoot := by
  unfold State.noteBoot
  dsimp only
  repeat' first
    | with_reducible assumption
    | with_reducible apply ite_pred
    | with_reducible apply State.mark_keeps
    | simp only [keeps_mk]

theorem State.enterBoot_keeps {s0 s : State} (hs : Keeps s0 s) : Keeps s0 s.enterBoot := by
  unfold State.enterBoot
  try dsimp only
  repeat' first
    | with_reducible assumption
    | with_reducible refine foldl_pred (fun _ _ _ => ?_) ?_
    | with_reducible apply State.loseLogic_keeps
    | with_reducible apply State.dropRestores_keeps
    | with_reducible apply State.setDev_keeps
    | with_reducible apply State.put_keeps
    | simp only [keeps_mk]

theorem State.enterHold_keeps {s0 s : State} (hs : Keeps s0 s) : Keeps s0 s.enterHold := by
  unfold State.enterHold
  dsimp only
  repeat' first
    | with_reducible assumption
    | with_reducible apply State.setDev_keeps
    | with_reducible apply State.loseLogic_keeps
    | with_reducible apply State.dropRestores_keeps
    | simp only [keeps_mk]

theorem State.failBoot_keeps {s0 s : State} (hs : Keeps s0 s) (code section_ entry : Nat) :
    Keeps s0 (s.failBoot code section_ entry) := by
  unfold State.failBoot
  dsimp only
  repeat' first
    | with_reducible assumption
    | with_reducible apply State.put_keeps
    | with_reducible apply State.enterHold_keeps
    | simp only [keeps_mk]

theorem State.enterAux_keeps {s0 s : State} (hs : Keeps s0 s) (ordered : Bool) : Keeps s0 (s.enterAux ordered) := by
  unfold State.enterAux
  try dsimp only
  repeat' first
    | with_reducible assumption
    | with_reducible apply ite_pred
    | with_reducible apply State.loseLogic_keeps
    | with_reducible apply State.dropRestores_keeps
    | with_reducible apply State.shutGates_keeps
    | with_reducible apply State.setDev_keeps
    | with_reducible apply State.put_keeps
    | simp only [keeps_mk]

theorem State.protect_keeps {s0 s : State} (hs : Keeps s0 s) (ordered : Bool) (cause detail : Nat) :
    Keeps s0 (s.protect ordered cause detail) := by
  unfold State.protect
  dsimp only
  repeat' first
    | with_reducible assumption
    | with_reducible apply ite_pred
    | with_reducible apply State.put_keeps
    | with_reducible apply State.count_keeps
    | with_reducible apply State.ledger_keeps
    | with_reducible apply State.enterAux_keeps
    | simp only [keeps_mk]

theorem State.failRestore_keeps {s0 s : State} (hs : Keeps s0 s) (k : Nat) : Keeps s0 (s.failRestore k) := by
  unfold State.failRestore
  try dsimp only
  repeat' first
    | with_reducible assumption
    | with_reducible apply ite_pred
    | with_reducible apply State.setRest_keeps
    | with_reducible apply State.enterHold_keeps

theorem State.declare_keeps {s0 s : State} (hs : Keeps s0 s) (k : Nat) (rails : Bool) :
    Keeps s0 (s.declare k rails) := by
  unfold State.declare
  try dsimp only
  repeat' first
    | with_reducible assumption
    | with_reducible apply ite_pred
    | with_reducible apply State.setRest_keeps
    | with_reducible apply State.failRestore_keeps
    | with_reducible apply State.toRecovery_keeps

theorem State.endRestore_keeps {s0 s : State} (hs : Keeps s0 s) (k : Nat) : Keeps s0 (s.endRestore k) := by
  unfold State.endRestore
  dsimp only
  repeat' first
    | with_reducible assumption
    | with_reducible apply ite_pred
    | with_reducible apply State.setRest_keeps
    | with_reducible apply State.setDev_keeps

theorem State.restoreHeld_keeps {s0 s : State} (hs : Keeps s0 s) (k : Nat) : Keeps s0 (s.restoreHeld k) := by
  unfold State.restoreHeld
  dsimp only
  repeat' first
    | with_reducible assumption
    | with_reducible apply ite_pred
    | with_reducible apply State.setRest_keeps
    | split

theorem State.enterRun_keeps {s0 s : State} (hs : Keeps s0 s) : Keeps s0 s.enterRun := by
  unfold State.enterRun
  dsimp only
  repeat' first
    | with_reducible assumption
    | with_reducible apply ite_pred
    | with_reducible apply State.setDev_keeps
    | with_reducible apply State.noteBoot_keeps
    | simp only [keeps_mk]

/-! ## Lanes -/

theorem State.enqueue_keeps {s0 s : State} (hs : Keeps s0 s) (l : Nat) (keep : Bool) : Keeps s0 (s.enqueue l keep) := by
  unfold State.enqueue
  dsimp only
  repeat' first
    | with_reducible assumption
    | with_reducible apply ite_pred
    | with_reducible apply State.setLane_keeps
    | with_reducible apply State.setQuad_keeps

theorem State.wakeLanes_keeps {s0 s : State} (hs : Keeps s0 s) : Keeps s0 s.wakeLanes := by
  unfold State.wakeLanes
  try dsimp only
  repeat' first
    | with_reducible assumption
    | with_reducible apply ite_pred
    | with_reducible refine foldl_pred (fun _ _ _ => ?_) ?_
    | with_reducible apply State.setLane_keeps
    | with_reducible apply State.enqueue_keeps
    | simp only [keeps_mk]

theorem State.noteEnable_keeps {s0 s : State} (hs : Keeps s0 s) (l : Nat) : Keeps s0 (s.noteEnable l) := by
  unfold State.noteEnable
  dsimp only
  repeat' first
    | with_reducible assumption
    | with_reducible apply ite_pred
    | with_reducible apply State.setLane_keeps

theorem State.loseBlocks_keeps {s0 s : State} (hs : Keeps s0 s) (l : Nat) : Keeps s0 (s.loseBlocks l) := by
  unfold State.loseBlocks
  dsimp only
  repeat' first
    | with_reducible assumption
    | with_reducible apply ite_pred
    | with_reducible apply State.raise_keeps
    | with_reducible apply State.setLane_keeps

theorem State.stopLane_keeps {s0 s : State} (hs : Keeps s0 s) (l : Nat) (lock : Bool) : Keeps s0 (s.stopLane l lock) := by
  unfold State.stopLane
  dsimp only
  repeat' first
    | with_reducible assumption
    | with_reducible apply ite_pred
    | with_reducible apply State.setLane_keeps
    | with_reducible apply State.loseBlocks_keeps

theorem State.ingestLost_keeps {s0 s : State} (hs : Keeps s0 s) (l : Nat) : Keeps s0 (s.ingestLost l) := by
  unfold State.ingestLost
  try dsimp only
  repeat' first
    | with_reducible assumption
    | with_reducible apply ite_pred
    | with_reducible apply State.loseIngest_keeps
    | with_reducible apply State.declare_keeps
    | with_reducible apply State.setSlot_keeps

theorem State.toSeek_keeps {s0 s : State} (hs : Keeps s0 s) (l : Nat) : Keeps s0 (s.toSeek l) := by
  unfold State.toSeek
  dsimp only
  repeat' first
    | with_reducible assumption
    | with_reducible apply State.setLane_keeps
    | with_reducible apply State.noteBoot_keeps
    | with_reducible apply State.stopLane_keeps

theorem State.retireNow_keeps {s0 s : State} (hs : Keeps s0 s) (l : Nat) : Keeps s0 (s.retireNow l) := by
  unfold State.retireNow
  dsimp only
  repeat' first
    | with_reducible assumption
    | with_reducible apply State.setLane_keeps
    | with_reducible apply State.releaseCost_keeps
    | with_reducible apply State.unitDone_keeps
    | with_reducible apply State.noteBoot_keeps
    | with_reducible apply State.stopLane_keeps
    | simp only [keeps_mk]

theorem State.unuse_keeps {s0 s : State} (hs : Keeps s0 s) (l : Nat) : Keeps s0 (s.unuse l) := by
  unfold State.unuse
  try dsimp only
  repeat' first
    | with_reducible assumption
    | with_reducible apply State.stopLane_keeps
    | with_reducible apply State.setLane_keeps
    | with_reducible apply State.noteBoot_keeps

theorem State.trainedLane_keeps {s0 s : State} (hs : Keeps s0 s) (l : Nat) : Keeps s0 (s.trainedLane l) := by
  unfold State.trainedLane
  dsimp only
  repeat' first
    | with_reducible assumption
    | with_reducible apply ite_pred
    | with_reducible apply State.count_keeps
    | with_reducible apply State.setSlot_keeps
    | with_reducible apply State.setLane_keeps
    | with_reducible apply State.unitDone_keeps
    | with_reducible apply State.noteBoot_keeps
    | with_reducible apply State.retireNow_keeps
    | simp only [keeps_mk]

theorem State.startRetrain_keeps {s0 s : State} (hs : Keeps s0 s) (l : Nat) : Keeps s0 (s.startRetrain l) := by
  unfold State.startRetrain
  try dsimp only
  repeat' first
    | with_reducible assumption
    | with_reducible apply ite_pred
    | with_reducible apply State.stopLane_keeps
    | with_reducible apply State.setSlot_keeps
    | with_reducible apply State.setLane_keeps
    | with_reducible apply State.enqueue_keeps

theorem State.takePlace_keeps {s0 s : State} (hs : Keeps s0 s) (l : Nat) : Keeps s0 (s.takePlace l) := by
  unfold State.takePlace
  try dsimp only
  repeat' first
    | with_reducible assumption
    | with_reducible apply ite_pred
    | with_reducible apply State.setLane_keeps

theorem State.nextPhase_keeps {s0 s : State} (hs : Keeps s0 s) (l state : Nat) : Keeps s0 (s.nextPhase l state) := by
  unfold State.nextPhase
  dsimp only
  repeat' first | with_reducible assumption | with_reducible apply State.setLane_keeps

theorem State.signalDone_keeps {s0 s : State} (hs : Keeps s0 s) (l : Nat) : Keeps s0 (s.signalDone l) := by
  unfold State.signalDone
  dsimp only
  repeat' first
    | with_reducible assumption
    | with_reducible apply ite_pred
    | with_reducible apply State.setLane_keeps
    | with_reducible apply State.setQuad_keeps
    | with_reducible apply State.nextPhase_keeps

theorem State.lockDone_keeps {s0 s : State} (hs : Keeps s0 s) (l : Nat) : Keeps s0 (s.lockDone l) := by
  unfold State.lockDone
  try dsimp only
  repeat' first
    | with_reducible assumption
    | with_reducible apply ite_pred
    | with_reducible apply State.free_keeps
    | with_reducible apply State.count_keeps
    | with_reducible apply State.setLane_keeps
    | with_reducible apply State.nextPhase_keeps
    | with_reducible refine KeepsP.snd (by assumption) ?_
    | with_reducible apply KeepsP.proj

theorem State.sendTrain_keeps {s0 s : State} (hs : Keeps s0 s) (l : Nat) : Keeps s0 (s.sendTrain l) := by
  unfold State.sendTrain
  try dsimp only
  repeat' first | with_reducible assumption | with_reducible apply State.sendBlock_keeps

theorem State.adaptDone_keeps {s0 s : State} (hs : Keeps s0 s) (l ctle : Nat) (dfe : List Int) :
    Keeps s0 (s.adaptDone l ctle dfe) := by
  unfold State.adaptDone
  try dsimp only
  repeat' first
    | with_reducible assumption
    | with_reducible apply ite_pred
    | with_reducible apply State.setLane_keeps
    | with_reducible apply State.trainedLane_keeps
    | with_reducible apply State.nextPhase_keeps
    | with_reducible apply State.sendTrain_keeps

theorem State.ffeDone_keeps {s0 s : State} (hs : Keeps s0 s) (l : Nat) : Keeps s0 (s.ffeDone l) := by
  unfold State.ffeDone
  repeat' first
    | with_reducible assumption
    | with_reducible apply ite_pred
    | with_reducible apply State.trainedLane_keeps

theorem State.timeoutLane_keeps {s0 s : State} (hs : Keeps s0 s) (l : Nat) : Keeps s0 (s.timeoutLane l) := by
  unfold State.timeoutLane
  dsimp only
  repeat' first
    | with_reducible assumption
    | with_reducible apply ite_pred
    | with_reducible apply State.raise_keeps
    | with_reducible apply State.toSeek_keeps

theorem State.losLane_keeps {s0 s : State} (hs : Keeps s0 s) (l : Nat) : Keeps s0 (s.losLane l) := by
  unfold State.losLane
  try dsimp only
  repeat' first
    | with_reducible assumption
    | with_reducible apply ite_pred
    | with_reducible apply State.retire_keeps
    | with_reducible apply State.retireNow_keeps
    | with_reducible apply State.setLane_keeps
    | with_reducible apply State.ingestLost_keeps
    | with_reducible apply State.toSeek_keeps
    | with_reducible apply State.raise_keeps

theorem State.unlockLane_keeps {s0 s : State} (hs : Keeps s0 s) (l : Nat) : Keeps s0 (s.unlockLane l) := by
  unfold State.unlockLane
  try dsimp only
  repeat' first
    | with_reducible assumption
    | with_reducible apply ite_pred
    | with_reducible apply State.free_keeps
    | with_reducible apply State.count_keeps
    | with_reducible apply State.ingestLost_keeps
    | with_reducible apply State.stopLane_keeps
    | with_reducible apply State.setLane_keeps
    | with_reducible apply State.enqueue_keeps
    | with_reducible apply State.raise_keeps
    | with_reducible refine KeepsP.snd (by assumption) ?_
    | with_reducible apply KeepsP.proj

theorem State.retrySeek_keeps {s0 s : State} (hs : Keeps s0 s) (l : Nat) (signal : Bool) :
    Keeps s0 (s.retrySeek l signal) := by
  unfold State.retrySeek
  try dsimp only
  repeat' first
    | with_reducible assumption
    | with_reducible apply ite_pred
    | with_reducible apply State.setLane_keeps
    | with_reducible apply State.enqueue_keeps

theorem State.enableLane_keeps {s0 s : State} (hs : Keeps s0 s) (l en : Nat) : Keeps s0 (s.enableLane l en) := by
  unfold State.enableLane
  dsimp only
  repeat' first
    | with_reducible assumption
    | with_reducible apply ite_pred
    | with_reducible apply State.put_keeps
    | with_reducible apply State.setLane_keeps
    | with_reducible apply State.wakeLanes_keeps
    | with_reducible apply State.noteEnable_keeps
    | with_reducible apply State.unuse_keeps

theorem State.retrainLane_keeps {s0 s : State} (hs : Keeps s0 s) (l : Nat) : Keeps s0 (s.retrainLane l) := by
  unfold State.retrainLane
  try dsimp only
  repeat' first
    | with_reducible assumption
    | with_reducible apply ite_pred
    | with_reducible apply State.setLane_keeps
    | with_reducible apply State.startRetrain_keeps
    | with_reducible apply State.enqueue_keeps
    | simp only [keeps_mk]
    | split

theorem State.slipLane_keeps {s0 s : State} (hs : Keeps s0 s) (l : Nat) : Keeps s0 (s.slipLane l) := by
  unfold State.slipLane
  dsimp only
  repeat' first
    | with_reducible assumption
    | with_reducible apply ite_pred
    | with_reducible apply State.setLane_keeps

theorem State.laneRetire_keeps {s0 s : State} (hs : Keeps s0 s) (l : Nat) : Keeps s0 (s.laneRetire l) := by
  unfold State.laneRetire
  dsimp only
  repeat' first
    | with_reducible assumption
    | with_reducible apply ite_pred
    | with_reducible apply State.setLane_keeps
    | with_reducible apply State.retireNow_keeps

theorem State.laneReturn_keeps {s0 s : State} (hs : Keeps s0 s) (l : Nat) : Keeps s0 (s.laneReturn l) := by
  unfold State.laneReturn
  dsimp only
  repeat' first
    | with_reducible assumption
    | with_reducible apply ite_pred
    | with_reducible apply State.setLane_keeps
    | with_reducible apply State.enqueue_keeps
    | simp only [keeps_mk]

theorem State.reqP1_keeps {s0 s : State} (hs : Keeps s0 s) (l v : Nat) : Keeps s0 (s.reqP1 l v) := by
  unfold State.reqP1
  dsimp only
  repeat' first
    | with_reducible assumption
    | with_reducible apply ite_pred
    | with_reducible apply State.put_keeps
    | with_reducible apply State.setLane_keeps

theorem State.writePwr_keeps {s0 s : State} (hs : Keeps s0 s) (q v : Nat) : Keeps s0 (s.writePwr q v) := by
  unfold State.writePwr
  dsimp only
  repeat' first
    | with_reducible assumption
    | with_reducible apply ite_pred
    | with_reducible refine foldl_pred (fun _ _ _ => ?_) ?_
    | with_reducible apply State.put_keeps
    | with_reducible apply State.setLane_keeps
    | with_reducible apply State.setQuad_keeps
    | with_reducible apply State.wakeLanes_keeps

theorem State.exitDone_keeps {s0 s : State} (hs : Keeps s0 s) (q : Nat) : Keeps s0 (s.exitDone q) := by
  unfold State.exitDone
  dsimp only
  repeat' first
    | with_reducible assumption
    | with_reducible apply ite_pred
    | with_reducible refine foldl_pred (fun _ _ _ => ?_) ?_
    | with_reducible apply State.setLane_keeps
    | with_reducible apply State.setQuad_keeps
    | with_reducible apply State.wakeLanes_keeps

theorem State.exitLate_keeps {s0 s : State} (hs : Keeps s0 s) (l : Nat) : Keeps s0 (s.exitLate l) := by
  unfold State.exitLate
  dsimp only
  repeat' first
    | with_reducible assumption
    | with_reducible apply ite_pred
    | with_reducible apply State.setLane_keeps
    | with_reducible apply State.setQuad_keeps
    | with_reducible apply State.enqueue_keeps
    | with_reducible apply State.wakeLanes_keeps
    | with_reducible apply State.stopLane_keeps

theorem State.measureEye_keeps {s0 s : State} (hs : Keeps s0 s) (l vm hm : Nat) : Keeps s0 (s.measureEye l vm hm) := by
  unfold State.measureEye
  dsimp only
  repeat' first
    | with_reducible assumption
    | with_reducible apply ite_pred
    | with_reducible apply State.put_keeps
    | with_reducible apply State.raise_keeps
    | with_reducible apply State.setLane_keeps
    | with_reducible apply State.startRetrain_keeps

theorem State.adaptLane_keeps {s0 s : State} (hs : Keeps s0 s) (l : Nat) (steps : List Int) :
    Keeps s0 (s.adaptLane l steps) := by
  unfold State.adaptLane
  dsimp only
  repeat' first
    | with_reducible assumption
    | with_reducible apply ite_pred
    | with_reducible refine foldl_pred (fun _ _ _ => ?_) ?_
    | with_reducible apply State.count_keeps
    | with_reducible apply State.raise_keeps
    | with_reducible apply State.setLane_keeps

theorem State.failQuad_keeps {s0 s : State} (hs : Keeps s0 s) (q : Nat) (rail : Bool) :
    Keeps s0 (s.failQuad q rail) := by
  unfold State.failQuad
  try dsimp only
  repeat' first
    | with_reducible assumption
    | with_reducible apply ite_pred
    | with_reducible refine foldl_pred (fun _ _ _ => ?_) ?_
    | with_reducible apply State.setQuad_keeps
    | with_reducible apply State.ingestLost_keeps
    | with_reducible apply State.stopLane_keeps
    | with_reducible apply State.setLane_keeps
    | with_reducible apply State.enqueue_keeps

theorem State.restoreQuads_keeps {s0 s : State} (hs : Keeps s0 s) : Keeps s0 s.restoreQuads := by
  unfold State.restoreQuads
  dsimp only
  repeat' first
    | with_reducible assumption
    | with_reducible apply ite_pred
    | with_reducible refine foldl_pred (fun _ _ _ => ?_) ?_
    | with_reducible apply State.setQuad_keeps

theorem execLaneStartTime_keeps {s0 s : State} (t : Nat) (hs : Keeps s0 s) : KeepsO s0 (execLaneStartTime t s) := by
  unfold execLaneStartTime
  repeat' first
    | with_reducible assumption
    | with_reducible apply State.at_keeps
    | with_reducible apply State.wakeLanes_keeps
    | with_reducible apply keepsO_next

theorem execAttempt_keeps {s0 s : State} (t l : Nat) (hs : Keeps s0 s) : KeepsO s0 (execAttempt t l s) := by
  unfold execAttempt
  repeat' first
    | with_reducible assumption
    | with_reducible apply ite_pred
    | with_reducible apply State.at_keeps
    | with_reducible apply State.takePlace_keeps
    | with_reducible apply keepsO_next
    | with_reducible exact keepsO_fault

theorem execSignal_keeps {s0 s : State} (t l : Nat) (hs : Keeps s0 s) : KeepsO s0 (execSignal t l s) := by
  unfold execSignal
  repeat' first
    | with_reducible assumption
    | with_reducible apply ite_pred
    | with_reducible apply State.at_keeps
    | with_reducible apply State.signalDone_keeps
    | with_reducible apply keepsO_next
    | with_reducible exact keepsO_fault

theorem execLock_keeps {s0 s : State} (t l : Nat) (hs : Keeps s0 s) : KeepsO s0 (execLock t l s) := by
  unfold execLock
  repeat' first
    | with_reducible assumption
    | with_reducible apply ite_pred
    | with_reducible apply State.at_keeps
    | with_reducible apply State.lockDone_keeps
    | with_reducible apply keepsO_next
    | with_reducible exact keepsO_fault

theorem execAdapt_keeps {s0 s : State} (t l ctle : Nat) (dfe : List Int) (hs : Keeps s0 s) :
    KeepsO s0 (execAdapt t l ctle dfe s) := by
  unfold execAdapt
  repeat' first
    | with_reducible assumption
    | with_reducible apply ite_pred
    | with_reducible apply State.at_keeps
    | with_reducible apply State.adaptDone_keeps
    | with_reducible apply keepsO_next
    | with_reducible exact keepsO_fault

theorem execFfe_keeps {s0 s : State} (t l : Nat) (hs : Keeps s0 s) : KeepsO s0 (execFfe t l s) := by
  unfold execFfe
  repeat' first
    | with_reducible assumption
    | with_reducible apply ite_pred
    | with_reducible apply State.at_keeps
    | with_reducible apply State.ffeDone_keeps
    | with_reducible apply keepsO_next
    | with_reducible exact keepsO_fault

theorem execTrainingTimeout_keeps {s0 s : State} (t l : Nat) (hs : Keeps s0 s) : KeepsO s0 (execTrainingTimeout t l s) := by
  unfold execTrainingTimeout
  repeat' first
    | with_reducible assumption
    | with_reducible apply ite_pred
    | with_reducible apply State.at_keeps
    | with_reducible apply State.timeoutLane_keeps
    | with_reducible apply keepsO_next
    | with_reducible exact keepsO_fault

theorem execLos_keeps {s0 s : State} (t l : Nat) (hs : Keeps s0 s) : KeepsO s0 (execLos t l s) := by
  unfold execLos
  repeat' first
    | with_reducible assumption
    | with_reducible apply ite_pred
    | with_reducible apply State.at_keeps
    | with_reducible apply State.losLane_keeps
    | with_reducible apply keepsO_next
    | with_reducible exact keepsO_fault

theorem execLostLock_keeps {s0 s : State} (t l : Nat) (hs : Keeps s0 s) : KeepsO s0 (execLostLock t l s) := by
  unfold execLostLock
  repeat' first
    | with_reducible assumption
    | with_reducible apply ite_pred
    | with_reducible apply State.at_keeps
    | with_reducible apply State.unlockLane_keeps
    | with_reducible apply keepsO_next
    | with_reducible exact keepsO_fault

theorem execSeekRetry_keeps {s0 s : State} (t l : Nat) (signal : Bool) (hs : Keeps s0 s) :
    KeepsO s0 (execSeekRetry t l signal s) := by
  unfold execSeekRetry
  repeat' first
    | with_reducible assumption
    | with_reducible apply ite_pred
    | with_reducible apply State.at_keeps
    | with_reducible apply State.retrySeek_keeps
    | with_reducible apply keepsO_next
    | with_reducible exact keepsO_fault

theorem execEyeMeasurement_keeps {s0 s : State} (t l vm hm : Nat) (hs : Keeps s0 s) :
    KeepsO s0 (execEyeMeasurement t l vm hm s) := by
  unfold execEyeMeasurement
  repeat' first
    | with_reducible assumption
    | with_reducible apply ite_pred
    | with_reducible apply State.at_keeps
    | with_reducible apply State.measureEye_keeps
    | with_reducible apply keepsO_next
    | with_reducible exact keepsO_fault

theorem execAdaptationUpdate_keeps {s0 s : State} (t l : Nat) (steps : List Int) (hs : Keeps s0 s) :
    KeepsO s0 (execAdaptationUpdate t l steps s) := by
  unfold execAdaptationUpdate
  repeat' first
    | with_reducible assumption
    | with_reducible apply ite_pred
    | with_reducible apply State.at_keeps
    | with_reducible apply State.adaptLane_keeps
    | with_reducible apply keepsO_next
    | with_reducible exact keepsO_fault

theorem execAdaptationFreeze_keeps {s0 s : State} (t l : Nat) (hs : Keeps s0 s) :
    KeepsO s0 (execAdaptationFreeze t l s) := by
  unfold execAdaptationFreeze
  dsimp only
  repeat' first
    | with_reducible assumption
    | with_reducible apply ite_pred
    | with_reducible apply State.at_keeps
    | with_reducible apply State.setLane_keeps
    | with_reducible apply keepsO_next
    | with_reducible exact keepsO_fault

theorem execP2ExitComplete_keeps {s0 s : State} (t q : Nat) (hs : Keeps s0 s) : KeepsO s0 (execP2ExitComplete t q s) := by
  unfold execP2ExitComplete
  repeat' first
    | with_reducible assumption
    | with_reducible apply ite_pred
    | with_reducible apply State.at_keeps
    | with_reducible apply State.exitDone_keeps
    | with_reducible apply keepsO_next
    | with_reducible exact keepsO_fault

theorem execP2ExitTimeout_keeps {s0 s : State} (t l : Nat) (hs : Keeps s0 s) : KeepsO s0 (execP2ExitTimeout t l s) := by
  unfold execP2ExitTimeout
  repeat' first
    | with_reducible assumption
    | with_reducible apply ite_pred
    | with_reducible apply State.at_keeps
    | with_reducible apply State.exitLate_keeps
    | with_reducible apply keepsO_next
    | with_reducible exact keepsO_fault

theorem execP1SignalReturn_keeps {s0 s : State} (t l : Nat) (hs : Keeps s0 s) :
    KeepsO s0 (execP1SignalReturn t l s) := by
  unfold execP1SignalReturn
  try dsimp only
  repeat' first
    | with_reducible assumption
    | with_reducible apply ite_pred
    | with_reducible apply State.at_keeps
    | with_reducible apply State.setLane_keeps
    | with_reducible apply keepsO_next
    | with_reducible exact keepsO_fault

theorem execLaneQuadFault_keeps {s0 s : State} (t q : Nat) (hs : Keeps s0 s) : KeepsO s0 (execLaneQuadFault t q s) := by
  unfold execLaneQuadFault
  dsimp only
  repeat' first
    | with_reducible assumption
    | with_reducible apply ite_pred
    | with_reducible apply State.at_keeps
    | with_reducible apply State.declare_keeps
    | with_reducible apply State.failQuad_keeps
    | with_reducible apply keepsO_next
    | with_reducible exact keepsO_fault

/-! ## TimeBase -/

theorem State.rescaleMarker_keeps {s0 s : State} (hs : Keeps s0 s) (k : Nat) (delta from_ : Int) :
    Keeps s0 (s.rescaleMarker k delta from_) := by
  unfold State.rescaleMarker
  dsimp only
  repeat' first
    | with_reducible assumption
    | with_reducible apply ite_pred
    | with_reducible apply State.count_keeps
    | with_reducible apply State.setMarker_keeps
    | split

theorem State.stopAt_keeps {s0 s : State} (hs : Keeps s0 s) (k : Nat) (b : Int) : Keeps s0 (s.stopAt k b) := by
  unfold State.stopAt
  try dsimp only
  repeat' first
    | with_reducible assumption
    | with_reducible apply State.stopTaking_keeps
    | with_reducible apply State.writeDue_keeps
    | with_reducible apply State.setSrc_keeps

theorem State.stepOut_keeps {s0 s : State} (hs : Keeps s0 s) (k : Nat) : Keeps s0 (s.stepOut k) := by
  unfold State.stepOut
  try dsimp only
  repeat' first
    | with_reducible assumption
    | with_reducible apply ite_pred
    | with_reducible apply State.setSrc_keeps
    | with_reducible apply State.stopAt_keeps

theorem State.stepIn_keeps {s0 s : State} (hs : Keeps s0 s) (k : Nat) : Keeps s0 (s.stepIn k) := by
  unfold State.stepIn
  repeat' first | with_reducible assumption | with_reducible apply State.startTaking_keeps

theorem State.moveOrigin_keeps {s0 s : State} (hs : Keeps s0 s) (origin : Int) (aligned : Bool) :
    Keeps s0 (s.moveOrigin origin aligned) := by
  unfold State.moveOrigin
  dsimp only
  repeat' first
    | with_reducible assumption
    | with_reducible refine foldl_pred (fun _ _ _ => ?_) ?_
    | with_reducible apply State.rescaleMarker_keeps
    | with_reducible apply State.stepOut_keeps
    | with_reducible apply State.stepIn_keeps
    | simp only [keeps_mk]

theorem State.startTime_keeps {s0 s : State} (hs : Keeps s0 s) (x : Nat) (at_ pps : Int) (aligned : Bool) :
    Keeps s0 (s.startTime x at_ pps aligned) := by
  unfold State.startTime
  try dsimp only
  repeat' first
    | with_reducible assumption
    | with_reducible apply ite_pred
    | with_reducible refine foldl_pred (fun _ _ _ => ?_) ?_
    | with_reducible apply State.startTaking_keeps
    | with_reducible apply State.rescaleMarker_keeps
    | with_reducible apply State.startLoop_keeps
    | with_reducible apply State.mark_keeps
    | with_reducible apply State.noteBoot_keeps
    | simp only [keeps_mk]

theorem State.startPlain_keeps {s0 s : State} (hs : Keeps s0 s) (x : Nat) : Keeps s0 (s.startPlain x) := by
  unfold State.startPlain
  try dsimp only
  repeat' first | with_reducible assumption | with_reducible apply State.startTime_keeps

theorem State.beginTime_keeps {s0 s : State} (hs : Keeps s0 s) : Keeps s0 s.beginTime := by
  unfold State.beginTime
  try dsimp only
  repeat' first
    | with_reducible assumption
    | with_reducible apply ite_pred
    | with_reducible apply State.startPlain_keeps
    | simp only [keeps_mk]

theorem State.beginInternal_keeps {s0 s : State} (hs : Keeps s0 s) : Keeps s0 s.beginInternal := by
  unfold State.beginInternal
  repeat' first
    | with_reducible assumption
    | with_reducible apply ite_pred
    | with_reducible apply State.beginTime_keeps

theorem State.lockRef_keeps {s0 s : State} (hs : Keeps s0 s) (hz since phase refOut : Nat) :
    Keeps s0 (s.lockRef hz since phase refOut) := by
  unfold State.lockRef
  try dsimp only
  repeat' first
    | with_reducible assumption
    | with_reducible apply ite_pred
    | with_reducible apply State.put_keeps
    | with_reducible apply State.mark_keeps
    | with_reducible apply State.beginTime_keeps
    | simp only [keeps_mk]
    | split

theorem State.holdRef_keeps {s0 s : State} (hs : Keeps s0 s) (hz missed : Nat) : Keeps s0 (s.holdRef hz missed) := by
  unfold State.holdRef
  repeat' first | with_reducible assumption | with_reducible apply ite_pred | simp only [keeps_mk]

theorem State.freqWritten_keeps {s0 s : State} (hs : Keeps s0 s) : Keeps s0 s.freqWritten := by
  unfold State.freqWritten
  dsimp only
  repeat' first
    | with_reducible assumption
    | with_reducible apply ite_pred
    | with_reducible apply State.beginInternal_keeps
    | simp only [keeps_mk]

theorem State.ppsPulse_keeps {s0 s : State} (hs : Keeps s0 s) (good : Bool) : Keeps s0 (s.ppsPulse good) := by
  unfold State.ppsPulse
  dsimp only
  repeat' first | with_reducible assumption | simp only [keeps_mk]

theorem State.checkPps_keeps {s0 s : State} (hs : Keeps s0 s) (t : Int) : Keeps s0 (s.checkPps t) := by
  unfold State.checkPps
  dsimp only
  repeat' first
    | with_reducible assumption
    | with_reducible apply ite_pred
    | with_reducible apply State.put_keeps
    | with_reducible apply State.count_keeps
    | with_reducible apply State.free_keeps
    | with_reducible apply State.ppsPulse_keeps
    | with_reducible apply KeepsP.proj
    | simp only [keeps_mk]

theorem State.ppsForm_keeps {s0 s : State} (hs : Keeps s0 s) (t : Int) (pol : Bool) : Keeps s0 (s.ppsForm t pol) := by
  unfold State.ppsForm
  repeat' first
    | with_reducible assumption
    | with_reducible apply State.takeBy_keeps
    | with_reducible apply State.formEdge_keeps

theorem State.ppsRecord_keeps {s0 s : State} (hs : Keeps s0 s) (pol : Bool) (bin : Nat) (check : Bool) :
    Keeps s0 (s.ppsRecord pol bin check) := by
  unfold State.ppsRecord
  try dsimp only
  repeat' first
    | with_reducible assumption
    | with_reducible apply ite_pred
    | with_reducible apply State.ppsForm_keeps
    | with_reducible apply State.checkPps_keeps

theorem State.alignFirst_keeps {s0 s : State} (hs : Keeps s0 s) (pol : Bool) (refOut : Nat) :
    Keeps s0 (s.alignFirst pol refOut) := by
  unfold State.alignFirst
  try dsimp only
  repeat' first
    | with_reducible assumption
    | with_reducible apply State.free_keeps
    | with_reducible apply State.startTime_keeps
    | with_reducible apply State.put_keeps
    | with_reducible apply State.ppsForm_keeps
    | with_reducible refine KeepsP.snd (by assumption) ?_
    | with_reducible apply KeepsP.proj

theorem State.realignTo_keeps {s0 s : State} (hs : Keeps s0 s) (n : Int) (pol : Bool) (refOut : Nat) :
    Keeps s0 (s.realignTo n pol refOut) := by
  unfold State.realignTo
  try dsimp only
  repeat' first
    | with_reducible assumption
    | with_reducible apply State.moveOrigin_keeps
    | with_reducible apply State.put_keeps
    | with_reducible apply State.ppsForm_keeps
    | simp only [keeps_mk]

theorem State.ppsEdge_keeps {s0 s : State} (hs : Keeps s0 s) (pol : Bool) (bin refOut : Nat) :
    Keeps s0 (s.ppsEdge pol bin refOut) := by
  unfold State.ppsEdge
  try dsimp only
  repeat' first
    | with_reducible assumption
    | with_reducible apply ite_pred
    | with_reducible apply State.alignFirst_keeps
    | with_reducible apply State.realignTo_keeps
    | with_reducible apply State.ppsRecord_keeps
    | split

theorem State.ppsMissing_keeps {s0 s : State} (hs : Keeps s0 s) : Keeps s0 s.ppsMissing := by
  unfold State.ppsMissing
  dsimp only
  repeat' first
    | with_reducible assumption
    | with_reducible apply ite_pred
    | with_reducible apply State.ppsPulse_keeps
    | simp only [keeps_mk]

theorem State.waitOver_keeps {s0 s : State} (hs : Keeps s0 s) : Keeps s0 s.waitOver := by
  unfold State.waitOver
  try dsimp only
  repeat' first
    | with_reducible assumption
    | with_reducible apply ite_pred
    | with_reducible apply State.startPlain_keeps
    | split

theorem State.realignOver_keeps {s0 s : State} (hs : Keeps s0 s) : Keeps s0 s.realignOver := by
  unfold State.realignOver
  dsimp only
  repeat' first
    | with_reducible assumption
    | with_reducible apply ite_pred
    | with_reducible apply State.raise_keeps
    | simp only [keeps_mk]
    | split

theorem State.acceptSec_keeps {s0 s : State} (hs : Keeps s0 s) (v : Nat) (link : Bool) : Keeps s0 (s.acceptSec v link) := by
  unfold State.acceptSec
  dsimp only
  repeat' first | with_reducible assumption | with_reducible apply ite_pred | simp only [keeps_mk]

theorem State.announce_keeps {s0 s : State} (hs : Keeps s0 s) (sec : Nat) : Keeps s0 (s.announce sec) := by
  unfold State.announce
  dsimp only
  repeat' first | with_reducible assumption | with_reducible apply ite_pred | simp only [keeps_mk]

theorem State.announceLink_keeps {s0 s : State} (hs : Keeps s0 s) (sec dir : Nat) :
    Keeps s0 (s.announceLink sec dir) := by
  unfold State.announceLink
  repeat' first
    | with_reducible assumption
    | with_reducible apply State.put_keeps
    | with_reducible apply State.announce_keeps

theorem State.applySec_keeps {s0 s : State} (hs : Keeps s0 s) : Keeps s0 s.applySec := by
  unfold State.applySec
  dsimp only
  repeat' first
    | with_reducible assumption
    | with_reducible apply ite_pred
    | with_reducible apply State.moveOrigin_keeps
    | simp only [keeps_mk]
    | split

theorem State.applyFrameLen_keeps {s0 s : State} (hs : Keeps s0 s) : Keeps s0 s.applyFrameLen := by
  unfold State.applyFrameLen
  dsimp only
  repeat' first
    | with_reducible assumption
    | with_reducible apply State.apply_keeps
    | with_reducible apply State.bump_keeps
    | simp only [keeps_mk]

theorem State.secondDue_keeps {s0 s : State} (hs : Keeps s0 s) : Keeps s0 s.secondDue := by
  unfold State.secondDue
  dsimp only
  repeat' first
    | with_reducible assumption
    | with_reducible apply ite_pred
    | with_reducible refine foldl_pred (fun _ _ _ => ?_) ?_
    | with_reducible apply State.newFrameLen_keeps
    | with_reducible apply State.applySec_keeps
    | with_reducible apply State.applyFrameLen_keeps
    | simp only [keeps_mk]
    | split

theorem State.frameDue_keeps {s0 s : State} (hs : Keeps s0 s) (inputs : List (Nat × Input × Nat)) :
    Keeps s0 (s.frameDue inputs) := by
  unfold State.frameDue
  try dsimp only
  repeat' first
    | with_reducible assumption
    | with_reducible apply ite_pred
    | with_reducible apply State.frameFronts_keeps
    | with_reducible apply State.frameWaves_keeps
    | with_reducible apply State.frameLatches_keeps
    | with_reducible apply State.frameContexts_keeps
    | simp only [keeps_mk]

theorem State.sysrefEdge_keeps {s0 s : State} (hs : Keeps s0 s) (t : Int) (pol : Bool) (bin : Nat) :
    Keeps s0 (s.sysrefEdge t pol bin) := by
  unfold State.sysrefEdge
  try dsimp only
  repeat' first
    | with_reducible assumption
    | with_reducible apply State.free_keeps
    | with_reducible apply State.setBe_keeps
    | with_reducible apply State.formEdge_keeps

theorem State.sysrefDue_keeps {s0 s : State} (hs : Keeps s0 s) (bin fallBin : Nat) :
    Keeps s0 (s.sysrefDue bin fallBin) := by
  unfold State.sysrefDue
  try dsimp only
  repeat' first
    | with_reducible assumption
    | with_reducible apply ite_pred
    | with_reducible apply State.sysrefEdge_keeps
    | with_reducible apply State.alignSlots_keeps
    | simp only [keeps_mk]
    | split

theorem State.flagUnlock_keeps {s0 s : State} (hs : Keeps s0 s) (k : Nat) : Keeps s0 (s.flagUnlock k) := by
  unfold State.flagUnlock
  repeat' first
    | with_reducible assumption
    | with_reducible apply State.put_keeps
    | with_reducible apply State.bump_keeps

theorem State.loseIsland_keeps {s0 s : State} (hs : Keeps s0 s) (k : Nat) : Keeps s0 (s.loseIsland k) := by
  unfold State.loseIsland
  dsimp only
  repeat' first
    | with_reducible assumption
    | with_reducible apply ite_pred
    | with_reducible refine foldl_pred (fun _ _ _ => ?_) ?_
    | with_reducible apply State.setChan_keeps
    | with_reducible apply State.setIsland_keeps
    | with_reducible apply State.beginCause_keeps
    | with_reducible apply State.settleTrips_keeps
    | with_reducible apply State.flagUnlock_keeps

theorem State.islandBack_keeps {s0 s : State} (hs : Keeps s0 s) (k : Nat) (counts : List Nat) :
    Keeps s0 (s.islandBack k counts) := by
  unfold State.islandBack
  try dsimp only
  repeat' first
    | with_reducible assumption
    | with_reducible apply ite_pred
    | with_reducible refine foldl_pred (fun _ _ _ => ?_) ?_
    | with_reducible apply State.setIsland_keeps
    | with_reducible apply State.readCounter_keeps
    | with_reducible apply State.endCause_keeps
    | with_reducible apply State.startWin_keeps
    | with_reducible apply State.settleTrips_keeps

theorem State.haltWave_keeps {s0 s : State} (hs : Keeps s0 s) (n : Nat) : Keeps s0 (s.haltWave n) := by
  unfold State.haltWave
  try dsimp only
  repeat' first
    | with_reducible assumption
    | with_reducible apply ite_pred
    | with_reducible apply State.setWave_keeps
    | with_reducible apply State.loseSample_keeps

theorem State.loseIs8_keeps {s0 s : State} (hs : Keeps s0 s) : Keeps s0 s.loseIs8 := by
  unfold State.loseIs8
  try dsimp only
  repeat' first
    | with_reducible assumption
    | with_reducible apply ite_pred
    | with_reducible refine foldl_pred (fun _ _ _ => ?_) ?_
    | with_reducible apply State.flagUnlock_keeps
    | with_reducible apply State.beginCause_keeps
    | with_reducible apply State.setMarker_keeps
    | with_reducible apply State.endMarker_keeps
    | with_reducible apply State.haltWave_keeps
    | with_reducible apply State.declare_keeps
    | simp only [keeps_mk]

theorem State.is8Back_keeps {s0 s : State} (hs : Keeps s0 s) : Keeps s0 s.is8Back := by
  unfold State.is8Back
  try dsimp only
  repeat' first
    | with_reducible assumption
    | with_reducible apply ite_pred
    | with_reducible refine foldl_pred (fun _ _ _ => ?_) ?_
    | with_reducible apply State.endCause_keeps
    | with_reducible apply State.endRestore_keeps
    | simp only [keeps_mk]

theorem execRefLock_keeps {s0 s : State} (t hz since phase refOut : Nat) (hs : Keeps s0 s) :
    KeepsO s0 (execRefLock t hz since phase refOut s) := by
  unfold execRefLock
  repeat' first
    | with_reducible assumption
    | with_reducible apply State.at_keeps
    | with_reducible apply State.lockRef_keeps
    | with_reducible apply keepsO_next

theorem execHoldover_keeps {s0 s : State} (t hz missed : Nat) (hs : Keeps s0 s) :
    KeepsO s0 (execHoldover t hz missed s) := by
  unfold execHoldover
  repeat' first
    | with_reducible assumption
    | with_reducible apply State.at_keeps
    | with_reducible apply State.holdRef_keeps
    | with_reducible apply keepsO_next

theorem execPpsEdge_keeps {s0 s : State} (t : Nat) (pol : Bool) (bin refOut : Nat) (hs : Keeps s0 s) :
    KeepsO s0 (execPpsEdge t pol bin refOut s) := by
  unfold execPpsEdge
  repeat' first
    | with_reducible assumption
    | with_reducible apply State.at_keeps
    | with_reducible apply State.ppsEdge_keeps
    | with_reducible apply keepsO_next

theorem execPpsMissing_keeps {s0 s : State} (t : Nat) (hs : Keeps s0 s) : KeepsO s0 (execPpsMissing t s) := by
  unfold execPpsMissing
  repeat' first
    | with_reducible assumption
    | with_reducible apply State.at_keeps
    | with_reducible apply State.ppsMissing_keeps
    | with_reducible apply keepsO_next

theorem execAlignWaitTimeout_keeps {s0 s : State} (t : Nat) (hs : Keeps s0 s) : KeepsO s0 (execAlignWaitTimeout t s) := by
  unfold execAlignWaitTimeout
  repeat' first
    | with_reducible assumption
    | with_reducible apply State.at_keeps
    | with_reducible apply State.waitOver_keeps
    | with_reducible apply keepsO_next

theorem execRealignTimeout_keeps {s0 s : State} (t : Nat) (hs : Keeps s0 s) : KeepsO s0 (execRealignTimeout t s) := by
  unfold execRealignTimeout
  repeat' first
    | with_reducible assumption
    | with_reducible apply State.at_keeps
    | with_reducible apply State.realignOver_keeps
    | with_reducible apply keepsO_next

theorem execSecondBoundary_keeps {s0 s : State} (t : Nat) (hs : Keeps s0 s) : KeepsO s0 (execSecondBoundary t s) := by
  unfold execSecondBoundary
  repeat' first
    | with_reducible assumption
    | with_reducible apply State.at_keeps
    | with_reducible apply State.secondDue_keeps
    | with_reducible apply keepsO_next

theorem execFrameBoundary_keeps {s0 s : State} (t : Nat) (inputs : List (Nat × Input × Nat)) (hs : Keeps s0 s) :
    KeepsO s0 (execFrameBoundary t inputs s) := by
  unfold execFrameBoundary
  repeat' first
    | with_reducible assumption
    | with_reducible apply State.at_keeps
    | with_reducible apply State.frameDue_keeps
    | with_reducible apply keepsO_next

theorem execSysrefPulse_keeps {s0 s : State} (t bin fallBin : Nat) (hs : Keeps s0 s) :
    KeepsO s0 (execSysrefPulse t bin fallBin s) := by
  unfold execSysrefPulse
  repeat' first
    | with_reducible assumption
    | with_reducible apply State.at_keeps
    | with_reducible apply State.sysrefDue_keeps
    | with_reducible apply keepsO_next

theorem execIslandUnlock_keeps {s0 s : State} (t k : Nat) (hs : Keeps s0 s) : KeepsO s0 (execIslandUnlock t k s) := by
  unfold execIslandUnlock
  repeat' first
    | with_reducible assumption
    | with_reducible apply ite_pred
    | with_reducible apply State.at_keeps
    | with_reducible apply State.loseIsland_keeps
    | with_reducible apply keepsO_next
    | with_reducible exact keepsO_fault

theorem execIslandRelock_keeps {s0 s : State} (t k : Nat) (counts : List Nat) (hs : Keeps s0 s) :
    KeepsO s0 (execIslandRelock t k counts s) := by
  unfold execIslandRelock
  repeat' first
    | with_reducible assumption
    | with_reducible apply ite_pred
    | with_reducible apply State.at_keeps
    | with_reducible apply State.islandBack_keeps
    | with_reducible apply keepsO_next
    | with_reducible exact keepsO_fault

theorem execIs8Unlock_keeps {s0 s : State} (t : Nat) (hs : Keeps s0 s) : KeepsO s0 (execIs8Unlock t s) := by
  unfold execIs8Unlock
  repeat' first
    | with_reducible assumption
    | with_reducible apply State.at_keeps
    | with_reducible apply State.loseIs8_keeps
    | with_reducible apply keepsO_next

theorem execIs8Relock_keeps {s0 s : State} (t : Nat) (hs : Keeps s0 s) : KeepsO s0 (execIs8Relock t s) := by
  unfold execIs8Relock
  repeat' first
    | with_reducible assumption
    | with_reducible apply State.at_keeps
    | with_reducible apply State.is8Back_keeps
    | with_reducible apply keepsO_next

/-! ## Sluice -/

theorem State.applyList_keeps {s0 s : State} (hs : Keeps s0 s) (c : Nat) : Keeps s0 (s.applyList c) := by
  unfold State.applyList
  dsimp only
  repeat' first
    | with_reducible assumption
    | with_reducible apply State.apply_keeps
    | with_reducible apply State.bump_keeps
    | with_reducible apply State.setSl_keeps

theorem State.handOver_keeps {s0 s : State} (hs : Keeps s0 s) (c : Nat) : Keeps s0 (s.handOver c) := by
  unfold State.handOver
  repeat' first
    | with_reducible assumption
    | with_reducible apply ite_pred
    | with_reducible apply State.applyList_keeps
    | split

theorem State.dropCommit_keeps {s0 s : State} (hs : Keeps s0 s) (c : Nat) : Keeps s0 (s.dropCommit c) := by
  unfold State.dropCommit
  repeat' first
    | with_reducible assumption
    | with_reducible apply ite_pred
    | with_reducible apply State.applyList_keeps

theorem State.completeSlu_keeps {s0 s : State} (hs : Keeps s0 s) (c : Nat) : Keeps s0 (s.completeSlu c) := by
  unfold State.completeSlu
  dsimp only
  repeat' first
    | with_reducible assumption
    | with_reducible apply ite_pred
    | with_reducible apply State.setSl_keeps
    | with_reducible apply State.sluEvent_keeps
    | with_reducible apply State.handOver_keeps
    | with_reducible apply State.dropCommit_keeps
    | split

theorem State.haltSluice_keeps {s0 s : State} (hs : Keeps s0 s) (cause addr : Nat) :
    Keeps s0 (s.haltSluice cause addr) := by
  unfold State.haltSluice
  try dsimp only
  repeat' first
    | with_reducible assumption
    | with_reducible apply ite_pred
    | with_reducible refine foldl_pred (fun _ _ _ => ?_) ?_
    | with_reducible apply State.completeSlu_keeps
    | with_reducible apply State.setSl_keeps
    | with_reducible apply State.dropCommit_keeps
    | with_reducible apply State.put_keeps
    | with_reducible apply State.raise_keeps
    | with_reducible apply State.count_keeps
    | with_reducible apply State.haltStreams_keeps
    | with_reducible apply State.declare_keeps
    | simp only [keeps_mk]

theorem State.sendStream_keeps {s0 s : State} (hs : Keeps s0 s) (b stream : Nat) (ws : List Nat) :
    Keeps s0 (s.sendStream b stream ws) := by
  unfold State.sendStream
  dsimp only
  repeat' first
    | with_reducible assumption
    | with_reducible apply ite_pred
    | with_reducible apply State.setLink_keeps
    | with_reducible apply State.sendBlock_keeps

theorem State.grantCredits_keeps {s0 s : State} (hs : Keeps s0 s) (c : Nat) : Keeps s0 (s.grantCredits c) := by
  unfold State.grantCredits
  dsimp only
  repeat' first
    | with_reducible assumption
    | with_reducible apply ite_pred
    | with_reducible apply State.setSl_keeps
    | with_reducible apply State.setLink_keeps
    | with_reducible apply State.sendBlock_keeps
    | with_reducible refine times_pred (fun _ _ => ?_) ?_
    | split

theorem State.advanceSlu_keeps {s0 s : State} (hs : Keeps s0 s) (c n : Nat) (fromPort toPort : Bool) :
    Keeps s0 (s.advanceSlu c n fromPort toPort) := by
  unfold State.advanceSlu
  dsimp only
  repeat' first
    | with_reducible assumption
    | with_reducible apply ite_pred
    | with_reducible apply State.put_keeps
    | with_reducible apply State.count_keeps
    | with_reducible apply State.setSl_keeps
    | with_reducible apply State.sluEvent_keeps
    | split

theorem State.drainBlock_keeps {s0 s : State} (hs : Keeps s0 s) (c n : Nat) : Keeps s0 (s.drainBlock c n) := by
  unfold State.drainBlock
  dsimp only
  repeat' first
    | with_reducible assumption
    | with_reducible apply ite_pred
    | with_reducible apply State.setAcq_keeps
    | with_reducible apply State.setPan_keeps
    | with_reducible apply State.setSl_keeps
    | with_reducible apply State.freeSlu_keeps
    | split

theorem State.moveFromPort_keeps {s0 s : State} (hs : Keeps s0 s) (c dst : Nat) :
    Keeps s0 (s.moveFromPort c dst) := by
  unfold State.moveFromPort
  try dsimp only
  repeat' first
    | with_reducible assumption
    | with_reducible apply State.writeBytes_keeps
    | with_reducible apply State.cleanUnits_keeps
    | with_reducible apply State.setSl_keeps
    | with_reducible apply State.advanceSlu_keeps
    | with_reducible apply State.grantCredits_keeps

theorem State.moveToPort_keeps {s0 s : State} (hs : Keeps s0 s) (c src n b stream : Nat) :
    Keeps s0 (s.moveToPort c src n b stream) := by
  unfold State.moveToPort
  dsimp only
  repeat' first
    | with_reducible assumption
    | with_reducible apply ite_pred
    | with_reducible apply State.put_keeps
    | with_reducible apply State.sendStream_keeps
    | with_reducible apply State.advanceSlu_keeps
    | with_reducible apply State.drainBlock_keeps

theorem State.moveInMemory_keeps {s0 s : State} (hs : Keeps s0 s) (c src dst n left : Nat) :
    Keeps s0 (s.moveInMemory c src dst n left) := by
  unfold State.moveInMemory
  try dsimp only
  repeat' first
    | with_reducible assumption
    | with_reducible apply ite_pred
    | with_reducible apply State.setSl_keeps
    | with_reducible apply State.writeBytes_keeps
    | with_reducible apply State.cleanUnits_keeps
    | with_reducible apply State.advanceSlu_keeps
    | with_reducible apply State.drainBlock_keeps

theorem State.moveBytes_keeps {s0 s : State} (hs : Keeps s0 s) (c src dst : Nat) (ecc : Bool) :
    Keeps s0 (s.moveBytes c src dst ecc) := by
  unfold State.moveBytes
  try dsimp only
  repeat' first
    | with_reducible assumption
    | with_reducible apply ite_pred
    | with_reducible apply State.haltSluice_keeps
    | with_reducible apply State.moveFromPort_keeps
    | with_reducible apply State.moveToPort_keeps
    | with_reducible apply State.moveInMemory_keeps
    | split

theorem State.fetchDesc_keeps {s0 s : State} (hs : Keeps s0 s) (c : Nat) : Keeps s0 (s.fetchDesc c) := by
  unfold State.fetchDesc
  dsimp only
  repeat' first
    | with_reducible assumption
    | with_reducible apply ite_pred
    | with_reducible apply State.setSl_keeps
    | with_reducible apply State.haltSluice_keeps

theorem State.sluBurst_keeps {s0 s : State} (hs : Keeps s0 s) (c : Nat) (ecc : Bool) :
    Keeps s0 (s.sluBurst c ecc) := by
  unfold State.sluBurst
  try dsimp only
  repeat' first
    | with_reducible assumption
    | with_reducible apply ite_pred
    | with_reducible apply State.fetchDesc_keeps
    | with_reducible apply State.grantCredits_keeps
    | with_reducible apply State.setSl_keeps
    | with_reducible apply State.moveBytes_keeps
    | simp only [keeps_mk]
    | split

theorem State.beginSlu_keeps {s0 s : State} (hs : Keeps s0 s) (c : Nat) (request : Bool) :
    Keeps s0 (s.beginSlu c request) := by
  unfold State.beginSlu
  try dsimp only
  repeat' first
    | with_reducible assumption
    | with_reducible apply State.startSlu_keeps
    | with_reducible apply State.setSl_keeps
    | with_reducible apply State.grantCredits_keeps

theorem State.goSlu_keeps {s0 s : State} (hs : Keeps s0 s) (c : Nat) : Keeps s0 (s.goSlu c) := by
  unfold State.goSlu
  repeat' first
    | with_reducible assumption
    | with_reducible apply ite_pred
    | with_reducible apply State.setSl_keeps
    | with_reducible apply State.count_keeps
    | with_reducible apply State.beginSlu_keeps
    | simp only
    | split

theorem State.startRequest_keeps {s0 s : State} (hs : Keeps s0 s) (b stream : Nat) :
    Keeps s0 (s.startRequest b stream) := by
  unfold State.startRequest
  repeat' first
    | with_reducible assumption
    | with_reducible apply ite_pred
    | with_reducible apply State.count_keeps
    | with_reducible apply State.beginSlu_keeps
    | split

theorem State.takeCredits_keeps {s0 s : State} (hs : Keeps s0 s) (b stream n : Nat) :
    Keeps s0 (s.takeCredits b stream n) := by
  unfold State.takeCredits
  try dsimp only
  repeat' first
    | with_reducible assumption
    | with_reducible apply ite_pred
    | with_reducible apply State.count_keeps
    | with_reducible apply State.setSl_keeps
    | with_reducible apply State.put_keeps
    | with_reducible apply State.raise_keeps
    | simp only [keeps_mk]
    | split

theorem State.takeData_keeps {s0 s : State} (hs : Keeps s0 s) (b stream w : Nat) : KeepsP s0 (s.takeData b stream w) := by
  unfold State.takeData
  dsimp only
  repeat' first
    | with_reducible assumption
    | with_reducible apply ite_pred
    | with_reducible apply State.setSl_keeps
    | simp only [keepsP_mk]
    | split

theorem State.disableSlu_keeps {s0 s : State} (hs : Keeps s0 s) (c : Nat) : Keeps s0 (s.disableSlu c) := by
  unfold State.disableSlu
  try dsimp only
  repeat' first
    | with_reducible assumption
    | with_reducible apply ite_pred
    | with_reducible apply State.completeSlu_keeps
    | with_reducible apply State.raise_keeps
    | with_reducible apply State.setSl_keeps
    | with_reducible apply State.put_keeps
    | with_reducible apply State.count_keeps
    | with_reducible apply State.dropCommit_keeps

theorem State.pauseSlu_keeps {s0 s : State} (hs : Keeps s0 s) (c : Nat) : Keeps s0 (s.pauseSlu c) := by
  unfold State.pauseSlu
  dsimp only
  repeat' first
    | with_reducible assumption
    | with_reducible apply ite_pred
    | with_reducible apply State.setSl_keeps
    | with_reducible apply State.completeSlu_keeps

theorem State.resumeSlu_keeps {s0 s : State} (hs : Keeps s0 s) (c : Nat) : Keeps s0 (s.resumeSlu c) := by
  unfold State.resumeSlu
  dsimp only
  repeat' first
    | with_reducible assumption
    | with_reducible apply ite_pred
    | with_reducible apply State.setSl_keeps

theorem State.resetSluice_keeps {s0 s : State} (hs : Keeps s0 s) : Keeps s0 s.resetSluice := by
  unfold State.resetSluice
  try dsimp only
  repeat' first
    | with_reducible assumption
    | with_reducible apply ite_pred
    | with_reducible refine foldl_pred (fun _ _ _ => ?_) ?_
    | with_reducible apply State.setSl_keeps
    | simp only [keeps_mk]

theorem execPauseDrained_keeps {s0 s : State} (t c : Nat) (hs : Keeps s0 s) : KeepsO s0 (execPauseDrained t c s) := by
  unfold execPauseDrained
  dsimp only
  repeat' first
    | with_reducible assumption
    | with_reducible apply ite_pred
    | with_reducible apply State.at_keeps
    | with_reducible apply State.setSl_keeps
    | with_reducible apply keepsO_next
    | with_reducible exact keepsO_fault

theorem execSluiceBurst_keeps {s0 s : State} (t c : Nat) (ecc : Bool) (hs : Keeps s0 s) :
    KeepsO s0 (execSluiceBurst t c ecc s) := by
  unfold execSluiceBurst
  repeat' first
    | with_reducible assumption
    | with_reducible apply ite_pred
    | with_reducible apply State.at_keeps
    | with_reducible apply State.sluBurst_keeps
    | with_reducible apply keepsO_next
    | with_reducible exact keepsO_fault

theorem execDescriptorComplete_keeps {s0 s : State} (t c : Nat) (hs : Keeps s0 s) :
    KeepsO s0 (execDescriptorComplete t c s) := by
  unfold execDescriptorComplete
  repeat' first
    | with_reducible assumption
    | with_reducible apply ite_pred
    | with_reducible apply State.at_keeps
    | with_reducible apply State.completeSlu_keeps
    | with_reducible apply keepsO_next
    | with_reducible exact keepsO_fault

theorem execEngineHalt_keeps {s0 s : State} (t cause addr : Nat) (hs : Keeps s0 s) :
    KeepsO s0 (execEngineHalt t cause addr s) := by
  unfold execEngineHalt
  dsimp only
  repeat' first
    | with_reducible assumption
    | with_reducible apply ite_pred
    | with_reducible apply State.at_keeps
    | with_reducible apply State.haltSluice_keeps
    | with_reducible apply keepsO_next

/-! ## Power -/

theorem State.noteValid_keeps {s0 s : State} (hs : Keeps s0 s) (was : State) : Keeps s0 (State.noteValid was s) := by
  unfold State.noteValid
  repeat' first | with_reducible assumption | with_reducible apply ite_pred | simp only [keeps_mk]

theorem State.cutPower_keeps {s0 s : State} (hs : Keeps s0 s) : Keeps s0 s.cutPower := by
  unfold State.cutPower
  repeat' first | with_reducible assumption | simp only [keeps_mk]

theorem State.protectNow_keeps {s0 s : State} (hs : Keeps s0 s) (cause : Nat) : Keeps s0 (s.protectNow cause) := by
  unfold State.protectNow
  dsimp only
  repeat' first
    | with_reducible assumption
    | with_reducible apply ite_pred
    | with_reducible apply State.free_keeps
    | with_reducible apply State.protect_keeps
    | with_reducible apply State.cutPower_keeps
    | with_reducible apply KeepsP.proj

theorem State.riseVin_keeps {s0 s : State} (hs : Keeps s0 s) : Keeps s0 s.riseVin := by
  unfold State.riseVin
  dsimp only
  repeat' first | with_reducible assumption | with_reducible apply ite_pred | simp only [keeps_mk]

theorem State.toAux_keeps {s0 s : State} (hs : Keeps s0 s) : Keeps s0 s.toAux := by
  unfold State.toAux
  repeat' first | with_reducible assumption | with_reducible apply ite_pred | simp only [keeps_mk]

theorem State.release_keeps {s0 s : State} (hs : Keeps s0 s) : Keeps s0 s.release := by
  unfold State.release
  repeat' first
    | with_reducible assumption
    | with_reducible apply ite_pred
    | with_reducible apply State.enterBoot_keeps

theorem State.fallVin_keeps {s0 s : State} (hs : Keeps s0 s) : Keeps s0 s.fallVin :=
  ⟨fun _ => ⟨rfl, rfl, rfl, rfl⟩, hs.pending, hs.now⟩

theorem State.lowVin_keeps {s0 s : State} (hs : Keeps s0 s) (low : Bool) : Keeps s0 (s.lowVin low) := by
  unfold State.lowVin
  dsimp only
  repeat' first
    | with_reducible assumption
    | with_reducible apply ite_pred
    | with_reducible apply State.put_keeps
    | with_reducible apply State.raise_keeps

theorem State.overVin_keeps {s0 s : State} (hs : Keeps s0 s) : Keeps s0 s.overVin := by
  unfold State.overVin
  try dsimp only
  repeat' first
    | with_reducible assumption
    | with_reducible apply ite_pred
    | with_reducible apply State.raise_keeps
    | with_reducible apply State.protectNow_keeps
    | simp only [keeps_mk]

theorem State.fetOff_keeps {s0 s : State} (hs : Keeps s0 s) : Keeps s0 s.fetOff := by
  unfold State.fetOff
  dsimp only
  repeat' first | with_reducible assumption | simp only [keeps_mk]

theorem State.tripFet_keeps {s0 s : State} (hs : Keeps s0 s) : Keeps s0 s.tripFet := by
  unfold State.tripFet
  repeat' first
    | with_reducible assumption
    | with_reducible apply ite_pred
    | with_reducible apply State.count_keeps
    | with_reducible apply State.raise_keeps
    | with_reducible apply State.protectNow_keeps
    | with_reducible apply State.fetOff_keeps

theorem State.loseHeartbeat_keeps {s0 s : State} (hs : Keeps s0 s) : Keeps s0 s.loseHeartbeat := by
  unfold State.loseHeartbeat
  try dsimp only
  repeat' first
    | with_reducible assumption
    | with_reducible apply ite_pred
    | with_reducible apply State.raise_keeps
    | with_reducible apply State.fetOff_keeps
    | with_reducible apply State.protectNow_keeps
    | simp only [keeps_mk]

theorem State.fetStart_keeps {s0 s : State} (hs : Keeps s0 s) : Keeps s0 s.fetStart := by
  unfold State.fetStart
  repeat' first | with_reducible assumption | with_reducible apply ite_pred | simp only [keeps_mk]

theorem State.retryFet_keeps {s0 s : State} (hs : Keeps s0 s) : Keeps s0 s.retryFet := by
  unfold State.retryFet
  repeat' first
    | with_reducible assumption
    | with_reducible apply ite_pred
    | with_reducible apply State.fetStart_keeps
    | split

theorem State.restartFet_keeps {s0 s : State} (hs : Keeps s0 s) : Keeps s0 s.restartFet := by
  unfold State.restartFet
  repeat' first
    | with_reducible assumption
    | with_reducible apply ite_pred
    | with_reducible apply State.fetStart_keeps

theorem State.addEnergy_keeps {s0 s : State} (hs : Keeps s0 s) (uw : Nat) : Keeps s0 (s.addEnergy uw) := by
  unfold State.addEnergy
  try dsimp only
  repeat' first | with_reducible assumption | with_reducible apply State.count_keeps | simp only [keeps_mk]

theorem State.telemetry_keeps {s0 s : State} (hs : Keeps s0 s) (mv ma : Nat) (limiting beat : Bool) :
    Keeps s0 (s.telemetry mv ma limiting beat) := by
  unfold State.telemetry
  try dsimp only
  repeat' first
    | with_reducible assumption
    | with_reducible apply ite_pred
    | with_reducible apply State.addEnergy_keeps
    | with_reducible apply State.noteValid_keeps
    | with_reducible apply State.put_keeps
    | simp only [keeps_mk]

theorem State.thermalDown_keeps {s0 s : State} (hs : Keeps s0 s) (i : Nat) : Keeps s0 (s.thermalDown i) := by
  unfold State.thermalDown
  dsimp only
  repeat' first
    | with_reducible assumption
    | with_reducible apply ite_pred
    | with_reducible apply State.put_keeps
    | with_reducible apply State.count_keeps
    | with_reducible apply State.ledger_keeps
    | with_reducible apply State.enterAux_keeps
    | with_reducible apply State.cutPower_keeps
    | simp only [keeps_mk]

theorem State.cooled_keeps {s0 s : State} (hs : Keeps s0 s) : Keeps s0 s.cooled := by
  unfold State.cooled
  repeat' first
    | with_reducible assumption
    | with_reducible apply ite_pred
    | with_reducible apply State.enterBoot_keeps
    | split

theorem State.causeGone_keeps {s0 s : State} (hs : Keeps s0 s) : Keeps s0 s.causeGone := by
  unfold State.causeGone
  dsimp only
  repeat' first | with_reducible assumption | with_reducible apply ite_pred | simp only [keeps_mk]

theorem State.rebootDue_keeps {s0 s : State} (hs : Keeps s0 s) : Keeps s0 s.rebootDue := by
  unfold State.rebootDue
  repeat' first
    | with_reducible assumption
    | with_reducible apply ite_pred
    | with_reducible apply State.enterBoot_keeps

theorem State.reboot_keeps {s0 s : State} (hs : Keeps s0 s) : Keeps s0 s.reboot := by
  unfold State.reboot
  try dsimp only
  repeat' first
    | with_reducible assumption
    | with_reducible apply ite_pred
    | with_reducible apply State.enterBoot_keeps
    | with_reducible apply State.put_keeps
    | with_reducible apply State.rebootDue_keeps
    | simp only [keeps_mk]

theorem State.assertBus_keeps {s0 s : State} (hs : Keeps s0 s) (mv : Nat) : Keeps s0 (s.assertBus mv) := by
  unfold State.assertBus
  repeat' first | with_reducible assumption | with_reducible apply ite_pred | simp only [keeps_mk]

theorem State.setRegulator_keeps {s0 s : State} (hs : Keeps s0 s) (j : Nat) (r : Regulator) :
    Keeps s0 (s.setRegulator j r) := by
  unfold State.setRegulator
  repeat' first | with_reducible assumption | simp only [keeps_mk]

theorem State.programRail_keeps {s0 s : State} (hs : Keeps s0 s) (j : Nat) : Keeps s0 (s.programRail j) := by
  unfold State.programRail
  repeat' first
    | with_reducible assumption
    | with_reducible apply State.setRegulator_keeps
    | simp only [keeps_mk]
    | split

theorem State.notePmb_keeps {s0 s : State} (hs : Keeps s0 s) (j : Nat) (x : PmbReply) : Keeps s0 (s.notePmb j x) := by
  unfold State.notePmb
  repeat' first | with_reducible assumption | with_reducible apply State.setRegulator_keeps

theorem State.enableRail_keeps {s0 s : State} (hs : Keeps s0 s) : Keeps s0 s.enableRail := by
  unfold State.enableRail
  try dsimp only
  repeat' first
    | with_reducible assumption
    | with_reducible apply ite_pred
    | with_reducible apply State.bump_keeps
    | with_reducible apply State.programRail_keeps
    | with_reducible apply State.put_keeps
    | with_reducible apply State.settleTrips_keeps
    | simp only [keeps_mk]
    | split

theorem State.resequence_keeps {s0 s : State} (hs : Keeps s0 s) (js : List Nat) (start : Nat) :
    Keeps s0 (s.resequence js start) := by
  unfold State.resequence
  try dsimp only
  repeat' first
    | with_reducible assumption
    | with_reducible refine foldl_pred (fun _ _ _ => ?_) ?_
    | with_reducible apply State.setRegulator_keeps
    | with_reducible apply State.put_keeps
    | simp only [keeps_mk]

theorem State.retryRails_keeps {s0 s : State} (hs : Keeps s0 s) : Keeps s0 s.retryRails := by
  unfold State.retryRails
  repeat' first | with_reducible assumption | with_reducible apply State.resequence_keeps

theorem State.stopMonitors_keeps {s0 s : State} (hs : Keeps s0 s) (k : Nat) : Keeps s0 (s.stopMonitors k) := by
  unfold State.stopMonitors
  dsimp only
  repeat' first
    | with_reducible assumption
    | with_reducible refine foldl_pred (fun _ _ _ => ?_) ?_
    | with_reducible apply State.setChan_keeps

theorem State.dropHits_keeps {s0 s : State} (hs : Keeps s0 s) (n : Nat) : Keeps s0 (s.dropHits n) := by
  unfold State.dropHits
  try dsimp only
  repeat' first
    | with_reducible assumption
    | with_reducible apply ite_pred
    | with_reducible apply State.setBe_keeps

theorem State.lowerIsland_keeps {s0 s : State} (hs : Keeps s0 s) (k st : Nat) : Keeps s0 (s.lowerIsland k st) := by
  unfold State.lowerIsland
  try dsimp only
  repeat' first
    | with_reducible assumption
    | with_reducible apply ite_pred
    | with_reducible refine foldl_pred (fun _ _ _ => ?_) ?_
    | with_reducible apply State.setIsland_keeps
    | with_reducible apply State.dropHits_keeps
    | with_reducible apply State.stopMonitors_keeps
    | with_reducible apply State.settleTrips_keeps
    | simp only [keeps_mk]

theorem State.feFault_keeps {s0 s : State} (hs : Keeps s0 s) : Keeps s0 s.feFault := by
  unfold State.feFault
  try dsimp only
  repeat' first
    | with_reducible assumption
    | with_reducible apply ite_pred
    | with_reducible refine foldl_pred (fun _ _ _ => ?_) ?_
    | with_reducible apply State.stopMonitors_keeps
    | with_reducible apply State.setIsland_keeps
    | with_reducible apply State.lowerIsland_keeps
    | with_reducible apply State.setChan_keeps
    | with_reducible apply State.beginCause_keeps
    | with_reducible apply State.settleTrips_keeps
    | simp only [keeps_mk]

theorem State.clearHbm_keeps {s0 s : State} (hs : Keeps s0 s) : Keeps s0 s.clearHbm := State.dropMem_keeps hs _

theorem State.railFault_keeps {s0 s : State} (hs : Keeps s0 s) (j cause : Nat) : Keeps s0 (s.railFault j cause) := by
  unfold State.railFault
  try dsimp only
  repeat' first
    | with_reducible assumption
    | with_reducible apply ite_pred
    | with_reducible refine foldl_pred (fun _ _ _ => ?_) ?_
    | with_reducible apply State.raise_keeps
    | with_reducible apply State.put_keeps
    | with_reducible apply State.ledger_keeps
    | with_reducible apply State.failBoot_keeps
    | with_reducible apply State.protect_keeps
    | with_reducible apply State.clearHbm_keeps
    | with_reducible apply State.declare_keeps
    | with_reducible apply State.settleTrips_keeps
    | with_reducible apply State.failQuad_keeps
    | with_reducible apply State.feFault_keeps
    | simp only [keeps_mk]

theorem State.alertRail_keeps {s0 s : State} (hs : Keeps s0 s) (j : Nat) (x : PmbReply × PmbReply) :
    Keeps s0 (s.alertRail j x) := by
  unfold State.alertRail
  try dsimp only
  repeat' first
    | with_reducible assumption
    | with_reducible apply ite_pred
    | with_reducible apply State.notePmb_keeps
    | with_reducible apply State.railFault_keeps
    | split

theorem State.rewake_keeps {s0 s : State} (hs : Keeps s0 s) (n : Nat) : Keeps s0 (s.rewake n) := by
  unfold State.rewake
  repeat' first
    | with_reducible assumption
    | with_reducible apply ite_pred
    | with_reducible apply State.queueWake_keeps

theorem State.drainedIsland_keeps {s0 s : State} (hs : Keeps s0 s) (k : Nat) : Keeps s0 (s.drainedIsland k) := by
  unfold State.drainedIsland
  try dsimp only
  repeat' first
    | with_reducible assumption
    | with_reducible apply ite_pred
    | with_reducible refine foldl_pred (fun _ _ _ => ?_) ?_
    | with_reducible apply State.setIsland_keeps
    | with_reducible apply State.lowerIsland_keeps
    | with_reducible apply State.rewake_keeps
    | simp only [keeps_mk]
    | split

theorem State.wakeChannel_keeps {s0 s : State} (hs : Keeps s0 s) (n : Nat) : Keeps s0 (s.wakeChannel n) := by
  unfold State.wakeChannel
  try dsimp only
  repeat' first
    | with_reducible assumption
    | with_reducible apply ite_pred
    | with_reducible apply State.setBe_keeps
    | with_reducible apply State.dropHits_keeps
    | with_reducible apply State.setChan_keeps
    | with_reducible apply State.startEnd_keeps
    | with_reducible apply State.endCause_keeps
    | simp only [keeps_mk]
    | split

theorem State.wokenIsland_keeps {s0 s : State} (hs : Keeps s0 s) (k : Nat) : Keeps s0 (s.wokenIsland k) := by
  unfold State.wokenIsland
  dsimp only
  repeat' first
    | with_reducible assumption
    | with_reducible apply ite_pred
    | with_reducible refine foldl_pred (fun _ _ _ => ?_) ?_
    | with_reducible apply State.setIsland_keeps
    | with_reducible apply State.settleTrips_keeps
    | with_reducible apply State.startWin_keeps
    | with_reducible apply State.wakeChannel_keeps
    | split

theorem State.setFloor_keeps {s0 s : State} (hs : Keeps s0 s) (k v : Nat) : Keeps s0 (s.setFloor k v) := by
  unfold State.setFloor
  dsimp only
  repeat' first
    | with_reducible assumption
    | with_reducible apply ite_pred
    | with_reducible apply State.put_keeps
    | with_reducible apply State.submit_keeps
    | with_reducible apply State.touchIsland_keeps

theorem State.feBack_keeps {s0 s : State} (hs : Keeps s0 s) : Keeps s0 s.feBack := by
  unfold State.feBack
  try dsimp only
  repeat' first
    | with_reducible assumption
    | with_reducible apply ite_pred
    | with_reducible refine foldl_pred (fun _ _ _ => ?_) ?_
    | with_reducible apply State.setIsland_keeps
    | with_reducible apply State.rewake_keeps
    | with_reducible apply State.settleTrips_keeps
    | simp only [keeps_mk]

theorem State.beginRestore_keeps {s0 s : State} (hs : Keeps s0 s) (k : Nat) : Keeps s0 (s.beginRestore k) := by
  unfold State.beginRestore
  try dsimp only
  repeat' first
    | with_reducible assumption
    | with_reducible apply ite_pred
    | with_reducible refine foldl_pred (fun _ _ _ => ?_) ?_
    | with_reducible apply State.setRest_keeps
    | with_reducible apply State.resequence_keeps
    | with_reducible apply State.startRetrain_keeps
    | simp only [keeps_mk]

theorem State.railsRestored_keeps {s0 s : State} (hs : Keeps s0 s) (k : Nat) : Keeps s0 (s.railsRestored k) := by
  unfold State.railsRestored
  dsimp only
  repeat' first
    | with_reducible assumption
    | with_reducible apply ite_pred
    | with_reducible apply State.setRest_keeps
    | simp only [keeps_mk]

theorem State.restoreOver_keeps {s0 s : State} (hs : Keeps s0 s) (k : Nat) : Keeps s0 (s.restoreOver k) := by
  unfold State.restoreOver
  dsimp only
  repeat' first
    | with_reducible assumption
    | with_reducible apply ite_pred
    | with_reducible apply State.failRestore_keeps
    | simp only [keeps_mk]

theorem execUvloRise_keeps {s0 s : State} (t : Nat) (hs : Keeps s0 s) : KeepsO s0 (execUvloRise t s) := by
  unfold execUvloRise
  repeat' first
    | with_reducible assumption
    | with_reducible apply State.at_keeps
    | with_reducible apply State.riseVin_keeps
    | with_reducible apply keepsO_next

theorem execAuxEntry_keeps {s0 s : State} (t : Nat) (hs : Keeps s0 s) : KeepsO s0 (execAuxEntry t s) := by
  unfold execAuxEntry
  repeat' first
    | with_reducible assumption
    | with_reducible apply State.at_keeps
    | with_reducible apply State.toAux_keeps
    | with_reducible apply keepsO_next

theorem execAoRelease_keeps {s0 s : State} (t : Nat) (hs : Keeps s0 s) : KeepsO s0 (execAoRelease t s) := by
  unfold execAoRelease
  repeat' first
    | with_reducible assumption
    | with_reducible apply State.at_keeps
    | with_reducible apply State.release_keeps
    | with_reducible apply keepsO_next

theorem execUvloFall_keeps {s0 s : State} (t : Nat) (hs : Keeps s0 s) : KeepsO s0 (execUvloFall t s) := by
  unfold execUvloFall
  repeat' first
    | with_reducible assumption
    | with_reducible apply State.at_keeps
    | with_reducible apply State.fallVin_keeps
    | with_reducible apply keepsO_next

theorem execLowInput_keeps {s0 s : State} (t : Nat) (low : Bool) (hs : Keeps s0 s) : KeepsO s0 (execLowInput t low s) := by
  unfold execLowInput
  repeat' first
    | with_reducible assumption
    | with_reducible apply State.at_keeps
    | with_reducible apply State.lowVin_keeps
    | with_reducible apply keepsO_next

theorem execOvervoltage_keeps {s0 s : State} (t : Nat) (hs : Keeps s0 s) : KeepsO s0 (execOvervoltage t s) := by
  unfold execOvervoltage
  repeat' first
    | with_reducible assumption
    | with_reducible apply State.at_keeps
    | with_reducible apply State.overVin_keeps
    | with_reducible apply keepsO_next

theorem execHotSwapTrip_keeps {s0 s : State} (t since ma : Nat) (hs : Keeps s0 s) :
    KeepsO s0 (execHotSwapTrip t since ma s) := by
  unfold execHotSwapTrip
  try dsimp only
  repeat' first
    | with_reducible assumption
    | with_reducible apply ite_pred
    | with_reducible apply State.at_keeps
    | with_reducible apply State.tripFet_keeps
    | with_reducible apply keepsO_next

theorem execFastTrip_keeps {s0 s : State} (t ma : Nat) (hs : Keeps s0 s) : KeepsO s0 (execFastTrip t ma s) := by
  unfold execFastTrip
  try dsimp only
  repeat' first
    | with_reducible assumption
    | with_reducible apply ite_pred
    | with_reducible apply State.at_keeps
    | with_reducible apply State.tripFet_keeps
    | with_reducible apply keepsO_next

theorem execFetRetry_keeps {s0 s : State} (t : Nat) (hs : Keeps s0 s) : KeepsO s0 (execFetRetry t s) := by
  unfold execFetRetry
  repeat' first
    | with_reducible assumption
    | with_reducible apply State.at_keeps
    | with_reducible apply State.retryFet_keeps
    | with_reducible apply keepsO_next

theorem execHeartbeatLost_keeps {s0 s : State} (t : Nat) (hs : Keeps s0 s) : KeepsO s0 (execHeartbeatLost t s) := by
  unfold execHeartbeatLost
  repeat' first
    | with_reducible assumption
    | with_reducible apply State.at_keeps
    | with_reducible apply State.loseHeartbeat_keeps
    | with_reducible apply keepsO_next

theorem execTelemetryFrame_keeps {s0 s : State} (t mv ma : Nat) (limiting beat : Bool) (hs : Keeps s0 s) :
    KeepsO s0 (execTelemetryFrame t mv ma limiting beat s) := by
  unfold execTelemetryFrame
  repeat' first
    | with_reducible assumption
    | with_reducible apply State.at_keeps
    | with_reducible apply State.telemetry_keeps
    | with_reducible apply State.rebootDue_keeps
    | with_reducible apply keepsO_next

theorem execBusEn_keeps {s0 s : State} (t mv : Nat) (hs : Keeps s0 s) : KeepsO s0 (execBusEn t mv s) := by
  unfold execBusEn
  repeat' first
    | with_reducible assumption
    | with_reducible apply State.at_keeps
    | with_reducible apply State.assertBus_keeps
    | with_reducible apply keepsO_next

theorem execRailEnable_keeps {s0 s : State} (t : Nat) (hs : Keeps s0 s) : KeepsO s0 (execRailEnable t s) := by
  unfold execRailEnable
  repeat' first
    | with_reducible assumption
    | with_reducible apply State.at_keeps
    | with_reducible apply State.enableRail_keeps
    | with_reducible apply keepsO_next

theorem execPmbusAlert_keeps {s0 s : State} (t j : Nat) (first second : PmbReply) (hs : Keeps s0 s) :
    KeepsO s0 (execPmbusAlert t j first second s) := by
  unfold execPmbusAlert
  repeat' first
    | with_reducible assumption
    | with_reducible apply ite_pred
    | with_reducible apply State.at_keeps
    | with_reducible apply State.alertRail_keeps
    | with_reducible apply keepsO_next
    | with_reducible exact keepsO_fault

theorem execThermalShutdown_keeps {s0 s : State} (t i : Nat) (hs : Keeps s0 s) : KeepsO s0 (execThermalShutdown t i s) := by
  unfold execThermalShutdown
  dsimp only
  repeat' first
    | with_reducible assumption
    | with_reducible apply ite_pred
    | with_reducible apply State.at_keeps
    | with_reducible apply State.thermalDown_keeps
    | with_reducible apply keepsO_next
    | with_reducible exact keepsO_fault

theorem execThermalCooldown_keeps {s0 s : State} (t : Nat) (hs : Keeps s0 s) : KeepsO s0 (execThermalCooldown t s) := by
  unfold execThermalCooldown
  repeat' first
    | with_reducible assumption
    | with_reducible apply State.at_keeps
    | with_reducible apply State.cooled_keeps
    | with_reducible apply keepsO_next

theorem execProtectiveRestart_keeps {s0 s : State} (t : Nat) (hs : Keeps s0 s) : KeepsO s0 (execProtectiveRestart t s) := by
  unfold execProtectiveRestart
  repeat' first
    | with_reducible assumption
    | with_reducible apply State.at_keeps
    | with_reducible apply State.causeGone_keeps
    | with_reducible apply keepsO_next

theorem execWakeIsland_keeps {s0 s : State} (t k : Nat) (hs : Keeps s0 s) : KeepsO s0 (execWakeIsland t k s) := by
  unfold execWakeIsland
  repeat' first
    | with_reducible assumption
    | with_reducible apply ite_pred
    | with_reducible apply State.at_keeps
    | with_reducible apply State.wokenIsland_keeps
    | with_reducible apply keepsO_next
    | with_reducible exact keepsO_fault

theorem execIslandDrained_keeps {s0 s : State} (t k : Nat) (hs : Keeps s0 s) : KeepsO s0 (execIslandDrained t k s) := by
  unfold execIslandDrained
  repeat' first
    | with_reducible assumption
    | with_reducible apply ite_pred
    | with_reducible apply State.at_keeps
    | with_reducible apply State.drainedIsland_keeps
    | with_reducible apply keepsO_next
    | with_reducible exact keepsO_fault

theorem execRestorationTimeout_keeps {s0 s : State} (t : Nat) (sub : Subsystem) (hs : Keeps s0 s) :
    KeepsO s0 (execRestorationTimeout t sub s) := by
  unfold execRestorationTimeout
  repeat' first
    | with_reducible assumption
    | with_reducible apply State.at_keeps
    | with_reducible apply State.restoreOver_keeps
    | with_reducible apply keepsO_next

theorem execRestorationHeld_keeps {s0 s : State} (t : Nat) (sub : Subsystem) (hs : Keeps s0 s) :
    KeepsO s0 (execRestorationHeld t sub s) := by
  unfold execRestorationHeld
  repeat' first
    | with_reducible assumption
    | with_reducible apply State.at_keeps
    | with_reducible apply State.restoreHeld_keeps
    | with_reducible apply keepsO_next

/-! ## Life -/

theorem State.showLife_keeps {s0 s : State} (hs : Keeps s0 s) : Keeps s0 s.showLife := by
  unfold State.showLife
  dsimp only
  repeat' first
    | with_reducible assumption
    | with_reducible apply ite_pred
    | with_reducible apply State.put_keeps

theorem State.lifeHour_keeps {s0 s : State} (hs : Keeps s0 s) (rings : List (Nat × Int)) : Keeps s0 (s.lifeHour rings) := by
  unfold State.lifeHour
  dsimp only
  repeat' first
    | with_reducible assumption
    | with_reducible apply ite_pred
    | with_reducible refine foldl_pred (fun _ _ _ => ?_) ?_
    | with_reducible apply State.put_keeps
    | with_reducible apply State.count_keeps
    | with_reducible apply State.setIsland_keeps
    | with_reducible apply State.ageing_keeps
    | with_reducible apply State.showLife_keeps
    | simp only [keeps_mk]
    | split

theorem State.changeHalf_keeps {s0 s : State} (hs : Keeps s0 s) : Keeps s0 s.changeHalf := by
  unfold State.changeHalf
  dsimp only
  repeat' first | with_reducible assumption | simp only [keeps_mk]

theorem State.after63_keeps {s0 s : State} (hs : Keeps s0 s) (kind n : Nat) : Keeps s0 (s.after63 kind n) := by
  unfold State.after63
  repeat' first
    | with_reducible assumption
    | with_reducible apply ite_pred
    | with_reducible apply State.ledger_keeps

theorem State.writeLedger_keeps {s0 s : State} (hs : Keeps s0 s) (good : Bool) : Keeps s0 (s.writeLedger good) := by
  unfold State.writeLedger
  dsimp only
  repeat' first
    | with_reducible assumption
    | with_reducible apply ite_pred
    | with_reducible apply State.count_keeps
    | with_reducible apply State.raise_keeps
    | with_reducible apply State.changeHalf_keeps
    | with_reducible apply State.after63_keeps
    | simp only [keeps_mk]
    | split

theorem State.hourlyDue_keeps {s0 s : State} (hs : Keeps s0 s) : Keeps s0 s.hourlyDue := by
  unfold State.hourlyDue
  dsimp only
  repeat' first
    | with_reducible assumption
    | with_reducible apply ite_pred
    | with_reducible apply State.ledger_keeps
    | simp only [keeps_mk]

theorem State.newLedger_keeps {s0 s : State} (hs : Keeps s0 s) : Keeps s0 s.newLedger := by
  unfold State.newLedger
  try dsimp only
  repeat' first
    | with_reducible assumption
    | with_reducible apply State.put_keeps
    | with_reducible apply State.showLife_keeps
    | simp only [keeps_mk]

theorem State.loadTotals_keeps {s0 s : State} (hs : Keeps s0 s) (h : Totals) (r : LedgerRead) :
    Keeps s0 (s.loadTotals h r) := by
  unfold State.loadTotals
  dsimp only
  repeat' first
    | with_reducible assumption
    | with_reducible apply State.put_keeps
    | with_reducible apply State.free_keeps
    | with_reducible apply State.showLife_keeps
    | with_reducible apply KeepsP.proj
    | simp only [keeps_mk]

theorem State.applyRetired_keeps {s0 s : State} (hs : Keeps s0 s) (x : ServiceSet) : Keeps s0 (s.applyRetired x) := by
  unfold State.applyRetired
  dsimp only
  repeat' first
    | with_reducible assumption
    | with_reducible apply ite_pred
    | with_reducible refine foldl_pred (fun _ _ _ => ?_) ?_
    | with_reducible apply State.put_keeps
    | with_reducible apply State.setChan_keeps
    | with_reducible apply State.setSl_keeps
    | with_reducible apply State.setLane_keeps
    | with_reducible apply State.startEnd_keeps
    | with_reducible apply State.stopEnd_keeps
    | simp only [keeps_mk]

theorem State.loadLedger_keeps {s0 s : State} (hs : Keeps s0 s) (r : LedgerRead) : Keeps s0 (s.loadLedger r) := by
  unfold State.loadLedger
  dsimp only
  repeat' first
    | with_reducible assumption
    | with_reducible apply ite_pred
    | with_reducible apply State.put_keeps
    | with_reducible apply State.count_keeps
    | with_reducible apply State.raise_keeps
    | with_reducible apply State.newLedger_keeps
    | with_reducible apply State.loadTotals_keeps
    | with_reducible apply State.applyRetired_keeps
    | with_reducible refine times_pred (fun _ _ => ?_) ?_
    | split

theorem State.repairRow_keeps {s0 s : State} (hs : Keeps s0 s) (addr : Nat) (spareRow : Bool) :
    Keeps s0 (s.repairRow addr spareRow) := by
  unfold State.repairRow
  dsimp only
  repeat' first
    | with_reducible assumption
    | with_reducible apply ite_pred
    | with_reducible apply State.count_keeps
    | with_reducible apply State.raise_keeps
    | with_reducible apply State.ledger_keeps
    | simp only [keeps_mk]

theorem State.patrol_keeps {s0 s : State} (hs : Keeps s0 s) (addr result : Nat) (spareRow lastUnit : Bool) :
    Keeps s0 (s.patrol addr result spareRow lastUnit) := by
  unfold State.patrol
  try dsimp only
  repeat' first
    | with_reducible assumption
    | with_reducible apply ite_pred
    | with_reducible apply State.count_keeps
    | with_reducible apply State.repairRow_keeps
    | with_reducible apply State.raise_keeps
    | with_reducible apply State.ledger_keeps
    | simp only [keeps_mk]
    | split

theorem State.startRefresh_keeps {s0 s : State} (hs : Keeps s0 s) : Keeps s0 s.startRefresh := by
  unfold State.startRefresh
  dsimp only
  repeat' first | with_reducible assumption | with_reducible apply State.put_keeps | simp only [keeps_mk]

theorem State.refreshFalls_keeps {s0 s : State} (hs : Keeps s0 s) : Keeps s0 s.refreshFalls := by
  unfold State.refreshFalls
  dsimp only
  repeat' first
    | with_reducible assumption
    | with_reducible apply ite_pred
    | with_reducible apply State.put_keeps
    | simp only [keeps_mk]

theorem State.askRefresh_keeps {s0 s : State} (hs : Keeps s0 s) : Keeps s0 s.askRefresh := by
  unfold State.askRefresh
  dsimp only
  repeat' first
    | with_reducible assumption
    | with_reducible apply ite_pred
    | with_reducible apply State.startRefresh_keeps
    | simp only [keeps_mk]

theorem State.autoRefresh_keeps {s0 s : State} (hs : Keeps s0 s) : Keeps s0 s.autoRefresh := by
  unfold State.autoRefresh
  dsimp only
  repeat' first
    | with_reducible assumption
    | with_reducible apply ite_pred
    | with_reducible apply State.startRefresh_keeps

theorem State.endRefresh_keeps {s0 s : State} (hs : Keeps s0 s) (done : Bool) : Keeps s0 (s.endRefresh done) := by
  unfold State.endRefresh
  dsimp only
  repeat' first
    | with_reducible assumption
    | with_reducible apply ite_pred
    | with_reducible apply State.put_keeps
    | with_reducible apply State.raise_keeps
    | with_reducible apply State.free_keeps
    | with_reducible apply State.ledger_keeps
    | with_reducible apply KeepsP.proj
    | simp only [keeps_mk]

theorem State.nextRefreshSlot_keeps {s0 s : State} (hs : Keeps s0 s) : Keeps s0 s.nextRefreshSlot := by
  unfold State.nextRefreshSlot
  dsimp only
  repeat' first
    | with_reducible assumption
    | with_reducible apply ite_pred
    | with_reducible apply State.changeHalf_keeps
    | with_reducible apply State.endRefresh_keeps
    | simp only [keeps_mk]

theorem State.refreshSector_keeps {s0 s : State} (hs : Keeps s0 s) (good lastOfSlot slotOk : Bool) :
    Keeps s0 (s.refreshSector good lastOfSlot slotOk) := by
  unfold State.refreshSector
  dsimp only
  repeat' first
    | with_reducible assumption
    | with_reducible apply ite_pred
    | with_reducible apply State.endRefresh_keeps
    | with_reducible apply State.nextRefreshSlot_keeps
    | simp only [keeps_mk]

theorem State.moveContexts_keeps {s0 s : State} (hs : Keeps s0 s) (ns : List (Nat × Nat)) :
    Keeps s0 (s.moveContexts ns) := by
  unfold State.moveContexts
  dsimp only
  repeat' first
    | with_reducible assumption
    | with_reducible refine foldl_pred (fun _ _ _ => ?_) ?_
    | with_reducible apply State.setCtx_keeps

theorem State.dropAbove_keeps {s0 s : State} (hs : Keeps s0 s) : Keeps s0 s.dropAbove := by
  unfold State.dropAbove
  exact keeps_of (State.dropMem_keeps hs _) rfl rfl rfl rfl rfl rfl

theorem State.retireUnit_keeps {s0 s : State} (hs : Keeps s0 s) (kind index : Nat) :
    Keeps s0 (s.retireUnit kind index) := by
  unfold State.retireUnit
  try dsimp only
  repeat' first
    | with_reducible assumption
    | with_reducible apply ite_pred
    | with_reducible apply State.moveContexts_keeps
    | with_reducible apply State.dropAbove_keeps
    | with_reducible apply State.setSl_keeps
    | with_reducible apply State.put_keeps
    | with_reducible apply State.unitDone_keeps
    | simp only [keeps_mk]

theorem State.clearSluRegs_keeps {s0 s : State} (hs : Keeps s0 s) (c : Nat) : Keeps s0 (s.clearSluRegs c) where
  sound h := ⟨regsFit_filter _ (hs.sound h).regs, regsFit_filter _ (hs.sound h).force, (hs.sound h).mem,
    (hs.sound h).groups⟩
  pending := hs.pending
  now := hs.now

theorem State.returnUnit_keeps {s0 s : State} (hs : Keeps s0 s) (kind index : Nat) :
    Keeps s0 (s.returnUnit kind index) := by
  unfold State.returnUnit
  try dsimp only
  repeat' first
    | with_reducible assumption
    | with_reducible apply ite_pred
    | with_reducible apply State.moveContexts_keeps
    | with_reducible apply State.clearSluRegs_keeps
    | with_reducible apply State.setSl_keeps
    | with_reducible apply State.put_keeps
    | with_reducible apply State.unitDone_keeps
    | simp only [keeps_mk]

theorem State.migrated_keeps {s0 s : State} (hs : Keeps s0 s) : Keeps s0 s.migrated := by
  unfold State.migrated
  dsimp only
  repeat' first
    | with_reducible assumption
    | with_reducible apply State.put_keeps
    | with_reducible apply State.unitDone_keeps
    | simp only [keeps_mk]
    | split

theorem State.engineMoved_keeps {s0 s : State} (hs : Keeps s0 s) : Keeps s0 s.engineMoved := by
  unfold State.engineMoved
  dsimp only
  repeat' first
    | with_reducible assumption
    | with_reducible apply ite_pred
    | with_reducible apply State.put_keeps
    | with_reducible apply State.unitDone_keeps
    | simp only [keeps_mk]
    | split

theorem execLifeHour_keeps {s0 s : State} (t : Nat) (rings : List (Nat × Int)) (hs : Keeps s0 s) :
    KeepsO s0 (execLifeHour t rings s) := by
  unfold execLifeHour
  repeat' first
    | with_reducible assumption
    | with_reducible apply State.at_keeps
    | with_reducible apply State.lifeHour_keeps
    | with_reducible apply keepsO_next

theorem execHourly_keeps {s0 s : State} (t : Nat) (hs : Keeps s0 s) : KeepsO s0 (execHourly t s) := by
  unfold execHourly
  repeat' first
    | with_reducible assumption
    | with_reducible apply State.at_keeps
    | with_reducible apply State.hourlyDue_keeps
    | with_reducible apply keepsO_next

theorem execLedgerWrite_keeps {s0 s : State} (t : Nat) (good : Bool) (hs : Keeps s0 s) :
    KeepsO s0 (execLedgerWrite t good s) := by
  unfold execLedgerWrite
  repeat' first
    | with_reducible assumption
    | with_reducible apply State.at_keeps
    | with_reducible apply State.writeLedger_keeps
    | with_reducible apply keepsO_next

theorem execPatrolRead_keeps {s0 s : State} (t addr result : Nat) (spareRow lastUnit : Bool) (hs : Keeps s0 s) :
    KeepsO s0 (execPatrolRead t addr result spareRow lastUnit s) := by
  unfold execPatrolRead
  repeat' first
    | with_reducible assumption
    | with_reducible apply State.at_keeps
    | with_reducible apply State.patrol_keeps
    | with_reducible apply keepsO_next

theorem execRefreshDue_keeps {s0 s : State} (t : Nat) (hs : Keeps s0 s) : KeepsO s0 (execRefreshDue t s) := by
  unfold execRefreshDue
  repeat' first
    | with_reducible assumption
    | with_reducible apply State.at_keeps
    | with_reducible apply State.refreshFalls_keeps
    | with_reducible apply keepsO_next

theorem execRefreshAutoStart_keeps {s0 s : State} (t : Nat) (hs : Keeps s0 s) : KeepsO s0 (execRefreshAutoStart t s) := by
  unfold execRefreshAutoStart
  repeat' first
    | with_reducible assumption
    | with_reducible apply State.at_keeps
    | with_reducible apply State.autoRefresh_keeps
    | with_reducible apply keepsO_next

theorem execRefreshSector_keeps {s0 s : State} (t : Nat) (good lastOfSlot slotOk : Bool) (hs : Keeps s0 s) :
    KeepsO s0 (execRefreshSector t good lastOfSlot slotOk s) := by
  unfold execRefreshSector
  repeat' first
    | with_reducible assumption
    | with_reducible apply State.at_keeps
    | with_reducible apply State.refreshSector_keeps
    | with_reducible apply keepsO_next

theorem execMigrationDone_keeps {s0 s : State} (t : Nat) (hs : Keeps s0 s) : KeepsO s0 (execMigrationDone t s) := by
  unfold execMigrationDone
  repeat' first
    | with_reducible assumption
    | with_reducible apply State.at_keeps
    | with_reducible apply State.migrated_keeps
    | with_reducible apply keepsO_next

theorem execEngineMoveDone_keeps {s0 s : State} (t : Nat) (hs : Keeps s0 s) : KeepsO s0 (execEngineMoveDone t s) := by
  unfold execEngineMoveDone
  repeat' first
    | with_reducible assumption
    | with_reducible apply State.at_keeps
    | with_reducible apply State.engineMoved_keeps
    | with_reducible apply keepsO_next

theorem execHbmTrainingStart_keeps {s0 s : State} (t : Nat) (hs : Keeps s0 s) : KeepsO s0 (execHbmTrainingStart t s) := by
  unfold execHbmTrainingStart
  dsimp only
  repeat' first
    | with_reducible assumption
    | with_reducible apply ite_pred
    | with_reducible apply State.at_keeps
    | with_reducible apply keepsO_next
    | simp only [keeps_mk]

theorem execHbmRetrainingFail_keeps {s0 s : State} (t : Nat) (hs : Keeps s0 s) : KeepsO s0 (execHbmRetrainingFail t s) := by
  unfold execHbmRetrainingFail
  dsimp only
  repeat' first
    | with_reducible assumption
    | with_reducible apply ite_pred
    | with_reducible apply State.at_keeps
    | with_reducible apply State.failRestore_keeps
    | with_reducible apply State.declare_keeps
    | with_reducible apply keepsO_next
    | simp only [keeps_mk]

/-! ## RegStop -/

theorem State.store_keeps {s0 s : State} (hs : Keeps s0 s) (r : Reg) (i v : Nat) (p : Fld → Bool) :
    Keeps s0 (s.store r i v p) := by
  unfold State.store
  repeat' first
    | with_reducible assumption
    | with_reducible refine foldl_pred (fun _ _ _ => ?_) ?_
    | with_reducible apply State.put_keeps

/-! ## RegWrite -/

theorem State.writeBack_keeps {s0 s : State} (hs : Keeps s0 s) (r : Reg) (i v : Nat) : Keeps s0 (s.writeBack r i v) := by
  unfold State.writeBack
  repeat' first
    | with_reducible assumption
    | with_reducible apply ite_pred
    | with_reducible refine foldl_pred (fun _ _ _ => ?_) ?_
    | with_reducible apply State.put_keeps
    | split

theorem State.releaseWin_keeps {s0 s : State} (hs : Keeps s0 s) (n : Nat) : Keeps s0 (s.releaseWin n) := by
  unfold State.releaseWin
  try dsimp only
  repeat' first
    | with_reducible assumption
    | with_reducible apply ite_pred
    | with_reducible apply State.setChan_keeps
    | with_reducible apply State.settleTrips_keeps

theorem State.releaseMarker_keeps {s0 s : State} (hs : Keeps s0 s) (k : Nat) : Keeps s0 (s.releaseMarker k) := by
  unfold State.releaseMarker
  dsimp only
  repeat' first
    | with_reducible assumption
    | with_reducible apply State.setMarker_keeps
    | with_reducible apply State.settleTrips_keeps

theorem State.releaseTrip_keeps {s0 s : State} (hs : Keeps s0 s) (i : Nat) : Keeps s0 (s.releaseTrip i) := by
  unfold State.releaseTrip
  dsimp only
  repeat' first
    | with_reducible assumption
    | with_reducible apply State.setTrip_keeps
    | with_reducible apply State.settleTrips_keeps

theorem State.commitFe_keeps {s0 s : State} (hs : Keeps s0 s) (n : Nat) : Keeps s0 (s.commitFe n) := by
  unfold State.commitFe
  try dsimp only
  repeat' first
    | with_reducible assumption
    | with_reducible apply ite_pred
    | with_reducible apply State.applyFe_keeps
    | with_reducible apply State.setChan_keeps

theorem State.commitWave_keeps {s0 s : State} (hs : Keeps s0 s) (n : Nat) : Keeps s0 (s.commitWave n) := by
  unfold State.commitWave
  try dsimp only
  repeat' first
    | with_reducible assumption
    | with_reducible apply ite_pred
    | with_reducible apply State.applyWave_keeps
    | with_reducible apply State.setWave_keeps

theorem State.commitList_keeps {s0 s : State} (hs : Keeps s0 s) (c : Nat) : Keeps s0 (s.commitList c) := by
  unfold State.commitList
  dsimp only
  repeat' first
    | with_reducible assumption
    | with_reducible apply ite_pred
    | with_reducible apply State.setSl_keeps
    | with_reducible apply State.applyList_keeps

theorem State.commitFrame_keeps {s0 s : State} (hs : Keeps s0 s) : Keeps s0 s.commitFrame := by
  unfold State.commitFrame
  dsimp only
  repeat' first
    | with_reducible assumption
    | with_reducible apply ite_pred
    | with_reducible apply State.applyFrameLen_keeps
    | simp only [keeps_mk]

theorem State.startHarvest_keeps {s0 s : State} (hs : Keeps s0 s) : Keeps s0 s.startHarvest := by
  unfold State.startHarvest
  dsimp only
  repeat' first | with_reducible assumption | simp only [keeps_mk]

theorem State.disableAll_keeps {s0 s : State} (hs : Keeps s0 s) : Keeps s0 s.disableAll := by
  unfold State.disableAll
  repeat' first
    | with_reducible assumption
    | with_reducible apply ite_pred
    | with_reducible refine foldl_pred (fun _ _ _ => ?_) ?_
    | with_reducible apply State.disableSlu_keeps

theorem State.resumeEngine_keeps {s0 s : State} (hs : Keeps s0 s) : Keeps s0 s.resumeEngine := by
  unfold State.resumeEngine
  dsimp only
  repeat' first
    | with_reducible assumption
    | with_reducible apply ite_pred
    | with_reducible apply State.endRestore_keeps
    | with_reducible apply State.resetSluice_keeps

theorem State.enableLink_keeps {s0 s : State} (hs : Keeps s0 s) (b en was : Nat) :
    Keeps s0 (s.enableLink b en was) := by
  unfold State.enableLink
  try dsimp only
  repeat' first
    | with_reducible assumption
    | with_reducible apply ite_pred
    | with_reducible refine foldl_pred (fun _ _ _ => ?_) ?_
    | with_reducible apply State.noteEnable_keeps
    | with_reducible apply State.setLink_keeps
    | with_reducible apply State.submit_keeps
    | with_reducible apply State.retract_keeps
    | with_reducible apply State.releaseCost_keeps
    | with_reducible apply State.noteBoot_keeps

theorem State.assignLane_keeps {s0 s : State} (hs : Keeps s0 s) (l : Nat) : Keeps s0 (s.assignLane l) := by
  unfold State.assignLane
  dsimp only
  repeat' first
    | with_reducible assumption
    | with_reducible apply State.setLane_keeps
    | with_reducible apply State.wakeLanes_keeps

theorem State.burstSysref_keeps {s0 s : State} (hs : Keeps s0 s) : Keeps s0 s.burstSysref := by
  unfold State.burstSysref
  dsimp only
  repeat' first | with_reducible assumption | with_reducible apply ite_pred | simp only [keeps_mk]

theorem State.stopPps_keeps {s0 s : State} (hs : Keeps s0 s) (v : Nat) : Keeps s0 (s.stopPps v) := by
  unfold State.stopPps
  repeat' first
    | with_reducible assumption
    | with_reducible apply ite_pred
    | with_reducible apply State.stopAt_keeps

theorem State.startPps_keeps {s0 s : State} (hs : Keeps s0 s) (was : State) : Keeps s0 (s.startPps was) := by
  unfold State.startPps
  repeat' first
    | with_reducible assumption
    | with_reducible apply ite_pred
    | with_reducible apply State.startTaking_keeps

theorem State.effectAo_keeps {s0 s : State} (hs : Keeps s0 s) (was : State) (p : Nat) (r : Reg) (i v : Nat) :
    Keeps s0 (s.effectAo was p r i v) := by
  unfold State.effectAo
  try dsimp only
  repeat' first
    | with_reducible assumption
    | with_reducible apply ite_pred
    | with_reducible apply State.setPort_keeps
    | with_reducible apply State.startHarvest_keeps
    | with_reducible apply State.setDev_keeps
    | with_reducible apply State.setFloor_keeps
    | with_reducible apply State.retryRails_keeps
    | with_reducible apply State.put_keeps
    | with_reducible apply State.restartFet_keeps
    | with_reducible apply State.reboot_keeps
    | with_reducible apply State.freqWritten_keeps
    | with_reducible apply State.startPps_keeps
    | with_reducible apply State.acceptSec_keeps
    | with_reducible apply State.burstSysref_keeps
    | with_reducible apply State.announce_keeps
    | with_reducible apply State.commitFrame_keeps
    | with_reducible apply State.retireUnit_keeps
    | with_reducible apply State.returnUnit_keeps
    | with_reducible apply State.askRefresh_keeps
    | with_reducible apply State.ledger_keeps
    | simp only [keeps_mk]
    | split

theorem State.effectChan_keeps {s0 s : State} (hs : Keeps s0 s) (was : State) (r : Reg) (i v : Nat) :
    Keeps s0 (s.effectChan was r i v) := by
  unfold State.effectChan
  try dsimp only
  repeat' first
    | with_reducible assumption
    | with_reducible apply ite_pred
    | with_reducible apply State.commitFe_keeps
    | with_reducible apply State.settleTrips_keeps
    | with_reducible apply State.endBypass_keeps
    | with_reducible apply State.enableWin_keeps
    | with_reducible apply State.armChan_keeps
    | with_reducible apply State.disarmChan_keeps
    | with_reducible apply State.retire_keeps
    | with_reducible apply State.beBack_keeps
    | with_reducible apply State.calRestart_keeps
    | with_reducible apply State.armWave_keeps
    | with_reducible apply State.disarmWave_keeps
    | with_reducible apply State.commitWave_keeps
    | split

theorem State.effectUnit_keeps {s0 s : State} (hs : Keeps s0 s) (r : Reg) (i v : Nat) : Keeps s0 (s.effectUnit r i v) := by
  unfold State.effectUnit
  dsimp only
  repeat' first
    | with_reducible assumption
    | with_reducible apply ite_pred
    | with_reducible apply State.settleTrips_keeps
    | with_reducible apply State.armMarker_keeps
    | with_reducible apply State.disarmMarker_keeps
    | with_reducible apply State.disarmCtx_keeps
    | with_reducible apply State.armCtx_keeps
    | with_reducible apply State.restartCtx_keeps
    | with_reducible apply State.clearStab_keeps
    | with_reducible apply State.freezeCry_keeps
    | with_reducible apply State.clearCry_keeps
    | with_reducible apply State.releaseCry_keeps
    | with_reducible apply State.enableRule_keeps
    | with_reducible apply State.armAcq_keeps
    | with_reducible apply State.abortAcq_keeps
    | with_reducible apply State.disarmAcq_keeps
    | with_reducible apply State.forceAcq_keeps
    | with_reducible apply State.releasePan_keeps
    | split

theorem State.effectSlu_keeps {s0 s : State} (hs : Keeps s0 s) (r : Reg) (i v : Nat) : Keeps s0 (s.effectSlu r i v) := by
  unfold State.effectSlu
  dsimp only
  repeat' first
    | with_reducible assumption
    | with_reducible apply ite_pred
    | with_reducible apply State.goSlu_keeps
    | with_reducible apply State.disableSlu_keeps
    | with_reducible apply State.pauseSlu_keeps
    | with_reducible apply State.resumeSlu_keeps
    | with_reducible apply State.commitList_keeps
    | with_reducible apply State.disableAll_keeps
    | with_reducible apply State.resumeEngine_keeps
    | split

theorem State.effectLnk_keeps {s0 s : State} (hs : Keeps s0 s) (was : State) (r : Reg) (i v : Nat) :
    Keeps s0 (s.effectLnk was r i v) := by
  unfold State.effectLnk
  dsimp only
  repeat' first
    | with_reducible assumption
    | with_reducible apply ite_pred
    | with_reducible apply State.wakeLanes_keeps
    | with_reducible apply State.enableLane_keeps
    | with_reducible apply State.retrainLane_keeps
    | with_reducible apply State.slipLane_keeps
    | with_reducible apply State.laneRetire_keeps
    | with_reducible apply State.laneReturn_keeps
    | with_reducible apply State.reqP1_keeps
    | with_reducible apply State.writePwr_keeps
    | with_reducible apply State.enableLink_keeps
    | with_reducible apply State.assignLane_keeps
    | split

theorem State.effectEvent_keeps {s0 s : State} (hs : Keeps s0 s) (was : State) (r : Reg) (i v : Nat) :
    Keeps s0 (s.effectEvent was r i v) := by
  unfold State.effectEvent
  repeat' first
    | with_reducible assumption
    | with_reducible apply ite_pred
    | with_reducible apply State.releaseWin_keeps
    | with_reducible apply State.releaseMarker_keeps
    | with_reducible apply State.releaseTrip_keeps
    | split

theorem State.writeReg_keeps {s0 s : State} (hs : Keeps s0 s) (p : Nat) (r : Reg) (i v : Nat) :
    Keeps s0 (s.writeReg p r i v) := by
  unfold State.writeReg
  try dsimp only
  repeat' first
    | with_reducible assumption
    | with_reducible apply ite_pred
    | with_reducible apply State.stopPps_keeps
    | with_reducible apply State.writeBack_keeps
    | with_reducible apply State.store_keeps
    | with_reducible apply State.effectEvent_keeps
    | with_reducible apply State.effectAo_keeps
    | with_reducible apply State.effectChan_keeps
    | with_reducible apply State.effectUnit_keeps
    | with_reducible apply State.effectSlu_keeps
    | with_reducible apply State.effectLnk_keeps
    | split

/-! ## Windows -/

theorem State.bankState_keeps {s0 s : State} (hs : Keeps s0 s) : Keeps s0 s.bankState := by
  unfold State.bankState
  dsimp only
  repeat' first
    | with_reducible assumption
    | with_reducible apply ite_pred
    | with_reducible apply State.free_keeps
    | with_reducible apply KeepsP.proj
    | simp only [keeps_mk]

theorem State.afterBank_keeps {s0 s : State} (hs : Keeps s0 s) : Keeps s0 s.afterBank := by
  unfold State.afterBank
  repeat' first
    | with_reducible assumption
    | with_reducible apply ite_pred
    | with_reducible apply State.free_keeps
    | with_reducible apply KeepsP.proj

/-! ## Access -/

theorem State.busError_keeps {s0 s : State} (hs : Keeps s0 s) (p : Nat) (wr : Bool) (a code : Nat) :
    Keeps s0 (s.busError p wr a code) := by
  unfold State.busError
  dsimp only
  repeat' first
    | with_reducible assumption
    | with_reducible apply State.put_keeps
    | with_reducible apply State.count_keeps
    | with_reducible apply State.raise_keeps

theorem State.dropPair_keeps {s0 s : State} (hs : Keeps s0 s) (p : Nat) : Keeps s0 (s.dropPair p) := by
  unfold State.dropPair
  dsimp only
  repeat' first
    | with_reducible assumption
    | with_reducible apply State.raise_keeps
    | with_reducible apply State.setPort_keeps
    | with_reducible apply State.busError_keeps
    | split

theorem State.readAccess_keeps {s0 s : State} (hs : Keeps s0 s) (p a w : Nat) : KeepsP s0 (s.readAccess p a w) := by
  unfold State.readAccess
  dsimp only
  repeat' first
    | with_reducible assumption
    | with_reducible apply ite_pred
    | with_reducible apply State.setPort_keeps
    | with_reducible apply State.afterBank_keeps
    | with_reducible apply State.busError_keeps
    | with_reducible apply State.dropPair_keeps
    | simp only [keepsP_mk]
    | split

theorem State.noteRefusal_keeps {s0 s : State} (hs : Keeps s0 s) (r : Reg) (e : Nat) : Keeps s0 (s.noteRefusal r e) := by
  unfold State.noteRefusal
  repeat' first
    | with_reducible assumption
    | with_reducible apply ite_pred
    | with_reducible apply State.raise_keeps

theorem State.closeGate_keeps {s0 s : State} (hs : Keeps s0 s) (p : Nat) : Keeps s0 (s.closeGate p) := by
  unfold State.closeGate
  dsimp only
  repeat' first | with_reducible assumption | with_reducible apply State.setPort_keeps

theorem State.noteWrite_keeps {s0 s : State} (hs : Keeps s0 s) (p : Nat) (r : Reg) (i v : Nat) : Keeps s0 (s.noteWrite p r i v) := by
  unfold State.noteWrite
  dsimp only
  repeat' first | with_reducible assumption | with_reducible apply State.setPort_keeps

theorem State.writeWhole_keeps {s0 s : State} (hs : Keeps s0 s) (p a : Nat) (r : Reg) (i v : Nat) :
    KeepsP s0 (s.writeWhole p a r i v) := by
  unfold State.writeWhole
  dsimp only
  repeat' first
    | with_reducible assumption
    | with_reducible apply State.writeReg_keeps
    | with_reducible apply State.noteWrite_keeps
    | with_reducible apply State.busError_keeps
    | with_reducible apply State.noteRefusal_keeps
    | with_reducible apply State.closeGate_keeps
    | simp only [keepsP_mk]
    | split

theorem State.writeAccess_keeps {s0 s : State} (hs : Keeps s0 s) (p a v : Nat) : KeepsP s0 (s.writeAccess p a v) := by
  unfold State.writeAccess
  dsimp only
  repeat' first
    | with_reducible assumption
    | with_reducible apply ite_pred
    | with_reducible apply State.setPort_keeps
    | with_reducible apply State.busError_keeps
    | with_reducible apply State.dropPair_keeps
    | with_reducible apply State.closeGate_keeps
    | with_reducible apply State.writeWhole_keeps
    | simp only [keepsP_mk]
    | split

theorem State.trailer_keeps {s0 s : State} (hs : Keeps s0 s) (p : Nat) (data : List Nat) (err done : Nat)
    (unserved : Bool) :
    Keeps s0 (s.trailer p data err done unserved) := by
  unfold State.trailer
  dsimp only
  repeat' first | with_reducible assumption | with_reducible apply State.setPort_keeps

theorem State.readRun_keeps {s0 s : State} (hs : Keeps s0 s) (p w a n : Nat) : Keeps s0 (s.readRun p w a n).2.2.2.2 := by
  induction n generalizing s a with
  | zero => exact hs
  | succ n ih =>
    have h := State.readAccess_keeps hs p (a % 2 ^ 32) w
    rw [State.readRun]
    generalize s.readAccess p (a % 2 ^ 32) w = q at h ⊢
    obtain ⟨x, s1⟩ := q
    dsimp only
    split
    · exact h
    · exact ih h _

theorem State.writeRun_keeps {s0 s : State} (hs : Keeps s0 s) (p a : Nat) (vs : List Nat) :
    Keeps s0 (s.writeRun p a vs).2.2.2 := by
  induction vs generalizing s a with
  | nil => exact hs
  | cons v vs ih =>
    have h := State.writeAccess_keeps hs p (a % 2 ^ 32) v
    rw [State.writeRun]
    generalize s.writeAccess p (a % 2 ^ 32) v = q at h ⊢
    obtain ⟨x, s1⟩ := q
    dsimp only
    split
    · exact h
    · exact ih h _

theorem State.badCount_keeps {s0 s : State} (hs : Keeps s0 s) (p : Nat) (wr : Bool) (a : Nat) :
    Keeps s0 (s.badCount p wr a) := by
  unfold State.badCount
  repeat' first
    | with_reducible assumption
    | with_reducible apply State.busError_keeps
    | with_reducible apply State.trailer_keeps

theorem State.spiRead_keeps {s0 s : State} (hs : Keeps s0 s) (w count a : Nat) : Keeps s0 (s.spiRead w count a) := by
  unfold State.spiRead
  dsimp only
  repeat' first
    | with_reducible assumption
    | with_reducible apply ite_pred
    | with_reducible apply State.trailer_keeps
    | with_reducible apply State.readRun_keeps
    | with_reducible apply State.badCount_keeps

theorem State.spiWrite_keeps {s0 s : State} (hs : Keeps s0 s) (count a : Nat) (data : List Nat) :
    Keeps s0 (s.spiWrite count a data) := by
  unfold State.spiWrite
  dsimp only
  repeat' first
    | with_reducible assumption
    | with_reducible apply ite_pred
    | with_reducible apply State.trailer_keeps
    | with_reducible apply State.writeRun_keeps
    | with_reducible apply State.badCount_keeps

theorem State.clearLatch_keeps {s0 s : State} (hs : Keeps s0 s) (p : Nat) : Keeps s0 (s.clearLatch p) := by
  unfold State.clearLatch
  dsimp only
  repeat' first | with_reducible assumption | with_reducible apply State.setPort_keeps

theorem State.cutShort_keeps {s0 s : State} (hs : Keeps s0 s) (op count a : Nat) (bytes : List Byte) :
    Keeps s0 (s.cutShort op count a bytes) := by
  unfold State.cutShort
  dsimp only
  repeat' first
    | with_reducible assumption
    | with_reducible apply ite_pred
    | with_reducible apply State.readRun_keeps
    | with_reducible apply State.writeRun_keeps
    | with_reducible apply State.clearLatch_keeps

theorem State.regAcc_keeps {s0 s : State} (hs : Keeps s0 s) (dr : Nat) : Keeps s0 (s.regAcc dr) := by
  unfold State.regAcc
  dsimp only
  repeat' first
    | with_reducible assumption
    | with_reducible apply ite_pred
    | with_reducible apply State.free_keeps
    | with_reducible apply State.readAccess_keeps
    | with_reducible apply State.writeAccess_keeps
    | with_reducible apply KeepsP.proj
    | simp only [keeps_mk]

theorem State.captureReg_keeps {s0 s : State} (hs : Keeps s0 s) : Keeps s0 s.captureReg := by
  unfold State.captureReg
  dsimp only
  repeat' first | with_reducible assumption | simp only [keeps_mk]

theorem execRead8_keeps {s0 s : State} (t count addr : Nat) (hs : Keeps s0 s) : KeepsO s0 (execRead8 t count addr s) := by
  unfold execRead8
  repeat' first
    | with_reducible assumption
    | with_reducible apply State.at_keeps
    | with_reducible apply State.spiRead_keeps
    | with_reducible apply keepsO_next

theorem execRead16_keeps {s0 s : State} (t count addr : Nat) (hs : Keeps s0 s) : KeepsO s0 (execRead16 t count addr s) := by
  unfold execRead16
  repeat' first
    | with_reducible assumption
    | with_reducible apply State.at_keeps
    | with_reducible apply State.spiRead_keeps
    | with_reducible apply keepsO_next

theorem execRead32_keeps {s0 s : State} (t count addr : Nat) (hs : Keeps s0 s) : KeepsO s0 (execRead32 t count addr s) := by
  unfold execRead32
  repeat' first
    | with_reducible assumption
    | with_reducible apply State.at_keeps
    | with_reducible apply State.spiRead_keeps
    | with_reducible apply keepsO_next

theorem execWrite32_keeps {s0 s : State} (t count addr : Nat) (data : List Nat) (hs : Keeps s0 s) :
    KeepsO s0 (execWrite32 t count addr data s) := by
  unfold execWrite32
  repeat' first
    | with_reducible assumption
    | with_reducible apply State.at_keeps
    | with_reducible apply State.spiWrite_keeps
    | with_reducible apply keepsO_next

theorem execPhase_keeps {s0 s : State} (t : Nat) (hs : Keeps s0 s) : KeepsO s0 (execPhase t s) := by
  unfold execPhase
  dsimp only
  repeat' first
    | with_reducible assumption
    | with_reducible apply ite_pred
    | with_reducible apply State.at_keeps
    | with_reducible apply State.setPort_keeps
    | with_reducible apply keepsO_next

theorem execSpiCutShort_keeps {s0 s : State} (t op count addr : Nat) (bytes : List Byte) (hs : Keeps s0 s) :
    KeepsO s0 (execSpiCutShort t op count addr bytes s) := by
  unfold execSpiCutShort
  repeat' first
    | with_reducible assumption
    | with_reducible apply State.at_keeps
    | with_reducible apply State.cutShort_keeps
    | with_reducible apply keepsO_next

theorem execRegacc_keeps {s0 s : State} (t dr : Nat) (hs : Keeps s0 s) : KeepsO s0 (execRegacc t dr s) := by
  unfold execRegacc
  repeat' first
    | with_reducible assumption
    | with_reducible apply State.at_keeps
    | with_reducible apply State.regAcc_keeps
    | with_reducible apply keepsO_next

theorem execCaptureDr_keeps {s0 s : State} (t : Nat) (hs : Keeps s0 s) : KeepsO s0 (execCaptureDr t s) := by
  unfold execCaptureDr
  dsimp only
  repeat' first
    | with_reducible assumption
    | with_reducible apply ite_pred
    | with_reducible apply State.at_keeps
    | with_reducible apply State.captureReg_keeps
    | with_reducible apply keepsO_next

theorem execIdcode_keeps {s0 s : State} (t : Nat) (hs : Keeps s0 s) : KeepsO s0 (execIdcode t s) := by
  unfold execIdcode
  dsimp only
  repeat' first
    | with_reducible assumption
    | with_reducible apply ite_pred
    | with_reducible apply State.at_keeps
    | with_reducible apply keepsO_next
    | simp only [keeps_mk]

theorem execBypass_keeps {s0 s : State} (t : Nat) (hs : Keeps s0 s) : KeepsO s0 (execBypass t s) := by
  unfold execBypass
  dsimp only
  repeat' first
    | with_reducible assumption
    | with_reducible apply ite_pred
    | with_reducible apply State.at_keeps
    | with_reducible apply keepsO_next
    | simp only [keeps_mk]

theorem execSamplePreload_keeps {s0 s : State} (t balls load : Nat) (hs : Keeps s0 s) :
    KeepsO s0 (execSamplePreload t balls load s) := by
  unfold execSamplePreload
  dsimp only
  repeat' first
    | with_reducible assumption
    | with_reducible apply ite_pred
    | with_reducible apply State.at_keeps
    | with_reducible apply keepsO_next
    | simp only [keeps_mk]

theorem execExtest_keeps {s0 s : State} (t balls : Nat) (hs : Keeps s0 s) : KeepsO s0 (execExtest t balls s) := by
  unfold execExtest
  dsimp only
  repeat' first
    | with_reducible assumption
    | with_reducible apply ite_pred
    | with_reducible apply State.at_keeps
    | with_reducible apply keepsO_next
    | simp only [keeps_mk]

/-! ## Boot -/

theorem State.readSfdp_keeps {s0 s : State} (hs : Keeps s0 s) (found : Bool) (density modes : Nat) (fourByte : Bool) :
    Keeps s0 (s.readSfdp found density modes fourByte) := by
  unfold State.readSfdp
  dsimp only
  repeat' first
    | with_reducible assumption
    | with_reducible apply ite_pred
    | with_reducible apply State.put_keeps
    | with_reducible apply State.failBoot_keeps
    | simp only [keeps_mk]

theorem State.takeSlot_keeps {s0 s : State} (hs : Keeps s0 s) (slot : Nat) (h : List Byte) :
    Keeps s0 (s.takeSlot slot h) := by
  unfold State.takeSlot
  repeat' first | with_reducible assumption | with_reducible apply State.put_keeps | simp only [keeps_mk]

theorem State.selectSlot_keeps {s0 s : State} (hs : Keeps s0 s) (a b : List Byte) (ledger : LedgerRead) :
    Keeps s0 (s.selectSlot a b ledger) := by
  unfold State.selectSlot
  try dsimp only
  repeat' first
    | with_reducible assumption
    | with_reducible apply ite_pred
    | with_reducible apply State.loadLedger_keeps
    | with_reducible apply State.put_keeps
    | with_reducible apply State.takeSlot_keeps
    | with_reducible apply State.mark_keeps
    | with_reducible apply State.failBoot_keeps
    | simp only [keeps_mk]
    | split

theorem State.entryWrite_keeps {s0 s : State} (hs : Keeps s0 s) (addr value : Nat) :
    KeepsP s0 (s.entryWrite addr value) := by
  unfold State.entryWrite
  dsimp only
  repeat' first
    | with_reducible assumption
    | with_reducible apply State.writeAccess_keeps
    | simp only [keepsP_mk]
    | with_reducible apply KeepsP.proj

theorem State.entryModify_keeps {s0 s : State} (hs : Keeps s0 s) (addr value mask : Nat) :
    KeepsP s0 (s.entryModify addr value mask) := by
  unfold State.entryModify
  dsimp only
  repeat' first
    | with_reducible assumption
    | with_reducible apply ite_pred
    | with_reducible apply State.readAccess_keeps
    | with_reducible apply State.entryWrite_keeps
    | simp only [keepsP_mk]
    | with_reducible apply KeepsP.proj

theorem State.entryPoll_keeps {s0 s : State} (hs : Keeps s0 s) (addr value mask : Nat) :
    Keeps s0 (s.entryPoll addr value mask).2.2 := by
  unfold State.entryPoll
  dsimp only
  repeat' first
    | with_reducible assumption
    | with_reducible apply State.readAccess_keeps
    | with_reducible apply KeepsP.proj

theorem State.applyEntry_keeps {s0 s : State} (hs : Keeps s0 s) (e : RegEntry) : KeepsP s0 (s.applyEntry e) := by
  unfold State.applyEntry
  try dsimp only
  repeat' first
    | with_reducible assumption
    | with_reducible apply State.entryWrite_keeps
    | with_reducible apply State.entryModify_keeps
    | with_reducible apply State.entryPoll_keeps
    | with_reducible refine KeepsP.snd (by assumption) ?_
    | with_reducible apply KeepsP.proj
    | simp only [keepsP_mk]
    | split

theorem State.applyAo_keeps {s0 s : State} (hs : Keeps s0 s) (typ : Nat) (poll : Option Nat) (i : Nat)
    (es : List RegEntry) :
    KeepsP s0 (s.applyAo typ poll i es).2 := by
  induction es generalizing s i poll with
  | nil => exact hs
  | cons e es ih =>
    have h := State.applyEntry_keeps hs e
    have h' : Keeps s0 (s.entryPoll e.addr e.value e.mask).2.2 := State.entryPoll_keeps hs _ _ _
    rw [State.applyAo]
    generalize s.applyEntry e = q at h ⊢
    generalize s.entryPoll e.addr e.value e.mask = q' at h' ⊢
    obtain ⟨bad, s1⟩ := q
    obtain ⟨err, hit, s2⟩ := q'
    dsimp only
    repeat' first
      | exact hs
      | exact h
      | exact h'
      | exact ih h _ _
      | exact ih h' _ _
      | split

theorem State.tryAcquire_keeps {s0 s : State} (hs : Keeps s0 s) : Keeps s0 s.tryAcquire := by
  unfold State.tryAcquire
  repeat' first | with_reducible assumption | with_reducible apply ite_pred | simp only [keeps_mk]

theorem State.pumpClocks_keeps {s0 s : State} (hs : Keeps s0 s) : Keeps s0 s.pumpClocks := by
  unfold State.pumpClocks
  split
  · next r _ =>
    have h := State.applyAo_keeps hs 2 r.poll r.entry r.left
    generalize s.applyAo 2 r.poll r.entry r.left = q at h ⊢
    obtain ⟨a, r1, s1⟩ := q
    replace h : Keeps s0 s1 := h
    cases a with
    | none =>
      exact ite_pred hs (ite_pred (State.tryAcquire_keeps (State.bump_keeps (keeps_mk.2 h) _ _)) (keeps_mk.2 h))
    | some i => exact ite_pred hs (State.failBoot_keeps h _ _ _)
  · exact hs

theorem State.applyCosts_keeps {s0 s : State} (hs : Keeps s0 s) : Keeps s0 s.applyCosts := by
  unfold State.applyCosts
  split
  · next r _ =>
    have h := State.applyAo_keeps hs 3 r.poll r.entry r.left
    generalize s.applyAo 3 r.poll r.entry r.left = q at h ⊢
    obtain ⟨a, r1, s1⟩ := q
    replace h : Keeps s0 s1 := h
    cases a with
    | none => exact ite_pred hs (ite_pred (State.bump_keeps (keeps_mk.2 h) _ _) (keeps_mk.2 h))
    | some i => exact ite_pred hs (State.failBoot_keeps h _ _ _)
  · exact hs

theorem State.keepAo_keeps {s0 s : State} (hs : Keeps s0 s) (x : SectionHdr) (body : List Byte) :
    Keeps s0 (s.keepAo x body) := by
  unfold State.keepAo
  repeat' first
    | with_reducible assumption
    | with_reducible apply ite_pred
    | with_reducible apply State.failBoot_keeps
    | with_reducible apply State.pumpClocks_keeps
    | simp only [keeps_mk]
    | split

theorem State.repower_keeps {s0 s : State} (hs : Keeps s0 s) : Keeps s0 s.repower := by
  unfold State.repower
  try dsimp only
  repeat' first | with_reducible assumption | simp only [keeps_mk] | split

theorem State.nextVerified_keeps {s0 s : State} (hs : Keeps s0 s) : Keeps s0 s.nextVerified := by
  unfold State.nextVerified
  try dsimp only
  repeat' first
    | with_reducible assumption
    | with_reducible apply ite_pred
    | with_reducible apply State.mark_keeps
    | with_reducible apply State.repower_keeps
    | simp only [keeps_mk]

theorem State.discardAo_keeps {s0 s : State} (hs : Keeps s0 s) : Keeps s0 s.discardAo := by
  unfold State.discardAo
  dsimp only
  refine State.commitCost_keeps ?_ _ _ _
  exact ⟨fun h => ⟨regsFit_filter _ (hs.sound h).regs, regsFit_filter _ (hs.sound h).force,
    (hs.sound h).mem, (hs.sound h).groups⟩, hs.pending, hs.now⟩

theorem State.fallBackSlot_keeps {s0 s : State} (hs : Keeps s0 s) (slot : Nat) (h : List Byte) :
    Keeps s0 (s.fallBackSlot slot h) := by
  unfold State.fallBackSlot
  try dsimp only
  repeat' first
    | with_reducible assumption
    | with_reducible apply ite_pred
    | with_reducible apply State.takeSlot_keeps
    | with_reducible apply State.put_keeps
    | with_reducible apply State.raise_keeps
    | with_reducible apply State.discardAo_keeps
    | simp only [keeps_mk]

theorem State.slotFails_keeps {s0 s : State} (hs : Keeps s0 s) (code i : Nat) : Keeps s0 (s.slotFails code i) := by
  unfold State.slotFails
  try dsimp only
  repeat' first
    | with_reducible assumption
    | with_reducible apply ite_pred
    | with_reducible apply State.put_keeps
    | with_reducible apply State.failBoot_keeps
    | with_reducible apply State.fallBackSlot_keeps

theorem State.passOne_keeps {s0 s : State} (hs : Keeps s0 s) (body : List Byte) : Keeps s0 (s.passOne body) := by
  unfold State.passOne
  try dsimp only
  repeat' first
    | with_reducible assumption
    | with_reducible apply ite_pred
    | with_reducible apply State.pumpClocks_keeps
    | with_reducible apply State.slotFails_keeps
    | with_reducible apply State.keepAo_keeps
    | with_reducible apply State.nextVerified_keeps
    | simp only [keeps_mk]
    | split

theorem State.endBoot_keeps {s0 s : State} (hs : Keeps s0 s) : Keeps s0 s.endBoot := by
  unfold State.endBoot
  repeat' first
    | with_reducible assumption
    | with_reducible apply State.settleTrips_keeps
    | with_reducible apply State.mark_keeps
    | with_reducible apply State.enterRun_keeps
    | with_reducible apply State.beginInternal_keeps

theorem State.showProgress_keeps {s0 s : State} (hs : Keeps s0 s) : Keeps s0 s.showProgress := by
  unfold State.showProgress
  try dsimp only
  repeat' first | with_reducible assumption | simp only [keeps_mk]

theorem State.nextSection_keeps {s0 s : State} (hs : Keeps s0 s) : Keeps s0 s.nextSection := by
  unfold State.nextSection
  try dsimp only
  repeat' first
    | with_reducible assumption
    | with_reducible apply ite_pred
    | with_reducible apply State.showProgress_keeps
    | with_reducible apply State.endBoot_keeps
    | simp only [keeps_mk]

theorem State.readSection_keeps {s0 s : State} (hs : Keeps s0 s) (body again : List Byte) :
    Keeps s0 (s.readSection body again) := by
  unfold State.readSection
  try dsimp only
  repeat' first
    | with_reducible assumption
    | with_reducible apply ite_pred
    | with_reducible apply State.endBoot_keeps
    | with_reducible apply State.raise_keeps
    | with_reducible apply State.failBoot_keeps
    | with_reducible apply State.nextSection_keeps
    | simp only [keeps_mk]
    | split

theorem State.passTwo_keeps {s0 s : State} (hs : Keeps s0 s) (body again : List Byte) :
    Keeps s0 (s.passTwo body again) := by
  unfold State.passTwo
  try dsimp only
  repeat' first
    | with_reducible assumption
    | with_reducible apply ite_pred
    | with_reducible apply State.pumpClocks_keeps
    | with_reducible apply State.readSection_keeps
    | simp only [keeps_mk]

theorem State.failSection_keeps {s0 s : State} (hs : Keeps s0 s) : Keeps s0 s.failSection := by
  unfold State.failSection
  dsimp only
  repeat' first
    | with_reducible assumption
    | with_reducible apply ite_pred
    | with_reducible apply State.put_keeps
    | with_reducible apply State.count_keeps
    | with_reducible apply State.raise_keeps
    | with_reducible apply State.failBoot_keeps
    | with_reducible apply State.nextSection_keeps

theorem State.nextEntry_keeps {s0 s : State} (hs : Keeps s0 s) (typ len : Nat) : Keeps s0 (s.nextEntry typ len) := by
  unfold State.nextEntry
  try dsimp only
  repeat' first
    | with_reducible assumption
    | with_reducible apply ite_pred
    | with_reducible apply State.showProgress_keeps
    | with_reducible apply State.bump_keeps
    | with_reducible apply State.settleTrips_keeps
    | with_reducible apply State.nextSection_keeps
    | simp only [keeps_mk]

theorem State.keepItem_keeps {s0 s : State} (hs : Keeps s0 s) (typ : Nat) (x : ImageItem) :
    Keeps s0 (s.keepItem typ x) := by
  unfold State.keepItem
  repeat' first | with_reducible assumption | simp only [keeps_mk]

theorem State.takeEntry_keeps {s0 s : State} {run : State → RegEntry → Bool × State} (hs : Keeps s0 s) (op : Nat)
    (hrun : ∀ y e, Keeps s0 y → KeepsP s0 (run y e)) :
    Keeps s0 (s.takeEntry op run) := by
  unfold State.takeEntry
  split
  · exact hs
  · next typ e _ =>
    have h := hrun s e hs
    generalize run s e = q at h ⊢
    obtain ⟨bad, s1⟩ := q
    replace h : Keeps s0 s1 := h
    exact ite_pred (State.failSection_keeps hs) (ite_pred hs (ite_pred h (ite_pred (State.failSection_keeps h)
      (State.nextEntry_keeps (State.keepItem_keeps h _ _) _ _))))

theorem State.pollEntry_keeps {s0 s : State} (hs : Keeps s0 s) : Keeps s0 s.pollEntry := by
  unfold State.pollEntry
  try dsimp only
  repeat' first
    | with_reducible assumption
    | with_reducible apply ite_pred
    | with_reducible apply State.failSection_keeps
    | with_reducible apply State.entryPoll_keeps
    | with_reducible apply State.keepItem_keeps
    | with_reducible apply State.nextEntry_keeps
    | with_reducible refine KeepsP.snd (by assumption) ?_
    | with_reducible apply KeepsP.proj
    | simp only [keepsP_mk]
    | simp only [keeps_mk]
    | split

theorem State.delayEntry_keeps {s0 s : State} (hs : Keeps s0 s) : Keeps s0 s.delayEntry :=
  State.takeEntry_keeps hs _ fun _ _ h => keepsP_mk.2 (keeps_mk.2 h)

theorem State.listEntry_keeps {s0 s : State} (hs : Keeps s0 s) : Keeps s0 s.listEntry := by
  unfold State.listEntry
  try dsimp only
  repeat' first
    | with_reducible assumption
    | with_reducible apply ite_pred
    | with_reducible apply State.failSection_keeps
    | with_reducible apply State.writeBytes_keeps
    | with_reducible apply State.keepItem_keeps
    | with_reducible apply State.nextEntry_keeps
    | split

theorem State.applyItems_keeps {s0 s : State} (hs : Keeps s0 s) (bad : List Nat) (xs : List (Nat × Nat × ImageItem)) :
    Keeps s0 (s.applyItems bad xs) := by
  induction xs generalizing s bad with
  | nil => exact hs
  | cons x xs ih =>
    obtain ⟨k, typ, x⟩ := x
    cases x with
    | list a d =>
      rw [State.applyItems]
      exact ite_pred (ih hs _) (ih (State.writeBytes_keeps hs _ _) _)
    | reg e =>
      have h := State.applyEntry_keeps hs e
      rw [State.applyItems]
      generalize s.applyEntry e = q at h ⊢
      obtain ⟨b, s1⟩ := q
      exact ite_pred (ih hs _) (ih h _)

theorem State.reapply_keeps {s0 s : State} (hs : Keeps s0 s) (k : Nat) : Keeps s0 (s.reapply k) := by
  unfold State.reapply
  repeat' first | with_reducible assumption | with_reducible apply State.applyItems_keeps

theorem State.finishRestore_keeps {s0 s : State} (hs : Keeps s0 s) (k : Nat) : Keeps s0 (s.finishRestore k) := by
  unfold State.finishRestore
  repeat' first
    | with_reducible assumption
    | with_reducible apply ite_pred
    | with_reducible apply State.reapply_keeps
    | with_reducible apply State.endRestore_keeps

theorem State.restored_keeps {s0 s : State} (hs : Keeps s0 s) (k : Nat) : Keeps s0 (s.restored k) := by
  unfold State.restored
  try dsimp only
  repeat' first
    | with_reducible assumption
    | with_reducible apply ite_pred
    | with_reducible apply State.endRestore_keeps
    | with_reducible apply State.finishRestore_keeps
    | with_reducible apply State.restoreQuads_keeps

theorem State.hbmTrained_keeps {s0 s : State} (hs : Keeps s0 s) : Keeps s0 s.hbmTrained := by
  unfold State.hbmTrained
  try dsimp only
  repeat' first
    | with_reducible assumption
    | with_reducible apply ite_pred
    | with_reducible refine foldl_pred (fun _ _ _ => ?_) ?_
    | with_reducible apply State.noPan_keeps
    | with_reducible apply State.mark_keeps
    | with_reducible apply State.finishRestore_keeps
    | with_reducible apply State.noteBoot_keeps
    | simp only [keeps_mk]

theorem State.autoRestore_keeps {s0 s : State} (hs : Keeps s0 s) : Keeps s0 s.autoRestore := by
  unfold State.autoRestore
  try dsimp only
  repeat' first
    | with_reducible assumption
    | with_reducible apply ite_pred
    | with_reducible refine foldl_pred (fun _ _ _ => ?_) ?_
    | with_reducible apply State.resetSluice_keeps
    | with_reducible apply State.clearSluRegs_keeps
    | with_reducible apply State.setSl_keeps
    | with_reducible apply State.reapply_keeps
    | with_reducible apply State.endRestore_keeps

theorem execSfdpRead_keeps {s0 s : State} (t : Nat) (found : Bool) (density modes : Nat) (fourByte : Bool)
    (hs : Keeps s0 s) :
    KeepsO s0 (execSfdpRead t found density modes fourByte s) := by
  unfold execSfdpRead
  repeat' first
    | with_reducible assumption
    | with_reducible apply State.at_keeps
    | with_reducible apply State.readSfdp_keeps
    | with_reducible apply keepsO_next

theorem execSlotSelect_keeps {s0 s : State} (t : Nat) (a b : List Byte) (ledger : LedgerRead) (hs : Keeps s0 s) :
    KeepsO s0 (execSlotSelect t a b ledger s) := by
  unfold execSlotSelect
  repeat' first
    | with_reducible assumption
    | with_reducible apply State.at_keeps
    | with_reducible apply State.selectSlot_keeps
    | with_reducible apply keepsO_next

theorem execPass1_keeps {s0 s : State} (t : Nat) (body : List Byte) (hs : Keeps s0 s) :
    KeepsO s0 (execPass1 t body s) := by
  unfold execPass1
  repeat' first
    | with_reducible assumption
    | with_reducible apply State.at_keeps
    | with_reducible apply State.passOne_keeps
    | with_reducible apply keepsO_next

theorem execPass2_keeps {s0 s : State} (t : Nat) (body again : List Byte) (hs : Keeps s0 s) :
    KeepsO s0 (execPass2 t body again s) := by
  unfold execPass2
  repeat' first
    | with_reducible assumption
    | with_reducible apply State.at_keeps
    | with_reducible apply State.passTwo_keeps
    | with_reducible apply keepsO_next

theorem execFlashTimeout_keeps {s0 s : State} (t : Nat) (hs : Keeps s0 s) : KeepsO s0 (execFlashTimeout t s) := by
  unfold execFlashTimeout
  dsimp only
  repeat' first
    | with_reducible assumption
    | with_reducible apply ite_pred
    | with_reducible apply State.at_keeps
    | with_reducible apply State.failBoot_keeps
    | with_reducible apply keepsO_next

theorem execWrite_keeps {s0 s : State} (t : Nat) (hs : Keeps s0 s) : KeepsO s0 (execWrite t s) :=
  State.takeEntry_keeps (State.at_keeps hs t) _ fun _ _ h => State.applyEntry_keeps h _

theorem execModify_keeps {s0 s : State} (t : Nat) (hs : Keeps s0 s) : KeepsO s0 (execModify t s) :=
  State.takeEntry_keeps (State.at_keeps hs t) _ fun _ _ h => State.applyEntry_keeps h _

theorem execPoll_keeps {s0 s : State} (t : Nat) (hs : Keeps s0 s) : KeepsO s0 (execPoll t s) := by
  unfold execPoll
  repeat' first
    | with_reducible assumption
    | with_reducible apply State.at_keeps
    | with_reducible apply State.pumpClocks_keeps
    | with_reducible apply State.pollEntry_keeps
    | with_reducible apply keepsO_next

theorem execPollTimeout_keeps {s0 s : State} (t : Nat) (hs : Keeps s0 s) : KeepsO s0 (execPollTimeout t s) := by
  unfold execPollTimeout
  try dsimp only
  repeat' first
    | with_reducible assumption
    | with_reducible apply ite_pred
    | with_reducible apply State.at_keeps
    | with_reducible apply State.pumpClocks_keeps
    | with_reducible apply State.failSection_keeps
    | with_reducible apply keepsO_next

theorem execDelay_keeps {s0 s : State} (t : Nat) (hs : Keeps s0 s) : KeepsO s0 (execDelay t s) := by
  unfold execDelay
  repeat' first
    | with_reducible assumption
    | with_reducible apply State.at_keeps
    | with_reducible apply State.pumpClocks_keeps
    | with_reducible apply State.delayEntry_keeps
    | with_reducible apply keepsO_next

theorem execListBlock_keeps {s0 s : State} (t : Nat) (hs : Keeps s0 s) : KeepsO s0 (execListBlock t s) := by
  unfold execListBlock
  repeat' first
    | with_reducible assumption
    | with_reducible apply State.at_keeps
    | with_reducible apply State.listEntry_keeps
    | with_reducible apply keepsO_next

theorem execHbmTrained_keeps {s0 s : State} (t : Nat) (hs : Keeps s0 s) : KeepsO s0 (execHbmTrained t s) := by
  unfold execHbmTrained
  repeat' first
    | with_reducible assumption
    | with_reducible apply State.at_keeps
    | with_reducible apply State.hbmTrained_keeps
    | with_reducible apply keepsO_next

theorem execRestorationDone_keeps {s0 s : State} (t : Nat) (sub : Subsystem) (hs : Keeps s0 s) :
    KeepsO s0 (execRestorationDone t sub s) := by
  unfold execRestorationDone
  repeat' first
    | with_reducible assumption
    | with_reducible apply State.at_keeps
    | with_reducible apply State.restored_keeps
    | with_reducible apply keepsO_next

theorem execAutoRestore_keeps {s0 s : State} (t : Nat) (hs : Keeps s0 s) : KeepsO s0 (execAutoRestore t s) := by
  unfold execAutoRestore
  repeat' first
    | with_reducible assumption
    | with_reducible apply State.at_keeps
    | with_reducible apply State.autoRestore_keeps
    | with_reducible apply keepsO_next

/-! ## HostCmd -/

theorem State.portWrites_keeps {s0 s : State} (hs : Keeps s0 s) (p a : Nat) (ws : List Nat) :
    Keeps s0 (s.portWrites p a ws) := by
  unfold State.portWrites
  dsimp only
  repeat' first
    | with_reducible assumption
    | with_reducible apply ite_pred
    | with_reducible apply State.trailer_keeps
    | with_reducible apply State.writeRun_keeps

theorem State.portWrite_keeps {s0 s : State} (hs : Keeps s0 s) (p a v : Nat) : Keeps s0 (s.portWrite p a v) := by
  unfold State.portWrite
  repeat' first | with_reducible assumption | with_reducible apply State.portWrites_keeps

theorem State.hostWrite_keeps {s0 s : State} (hs : Keeps s0 s) (p : Nat) (r : Reg) (i : Nat) (fs : List (Fld × Nat)) :
    Keeps s0 (s.hostWrite p r i fs) := by
  unfold State.hostWrite
  dsimp only
  repeat' first | with_reducible assumption | with_reducible apply State.portWrites_keeps

theorem execFetRestart_keeps {s0 s : State} (t p : Nat) (hs : Keeps s0 s) : KeepsO s0 (execFetRestart t p s) := by
  unfold execFetRestart
  repeat' first
    | with_reducible assumption
    | with_reducible apply ite_pred
    | with_reducible apply State.at_keeps
    | with_reducible apply State.hostWrite_keeps
    | with_reducible apply keepsO_next
    | with_reducible exact keepsO_fault

theorem execPeakClear_keeps {s0 s : State} (t p : Nat) (hs : Keeps s0 s) : KeepsO s0 (execPeakClear t p s) := by
  unfold execPeakClear
  repeat' first
    | with_reducible assumption
    | with_reducible apply ite_pred
    | with_reducible apply State.at_keeps
    | with_reducible apply State.hostWrite_keeps
    | with_reducible apply keepsO_next
    | with_reducible exact keepsO_fault

theorem execRailRetry_keeps {s0 s : State} (t p : Nat) (hs : Keeps s0 s) : KeepsO s0 (execRailRetry t p s) := by
  unfold execRailRetry
  repeat' first
    | with_reducible assumption
    | with_reducible apply ite_pred
    | with_reducible apply State.at_keeps
    | with_reducible apply State.hostWrite_keeps
    | with_reducible apply keepsO_next
    | with_reducible exact keepsO_fault

theorem execReboot_keeps {s0 s : State} (t p : Nat) (hs : Keeps s0 s) : KeepsO s0 (execReboot t p s) := by
  unfold execReboot
  repeat' first
    | with_reducible assumption
    | with_reducible apply ite_pred
    | with_reducible apply State.at_keeps
    | with_reducible apply State.hostWrite_keeps
    | with_reducible apply keepsO_next
    | with_reducible exact keepsO_fault

theorem execIslandFloor_keeps {s0 s : State} (t p k v : Nat) (hs : Keeps s0 s) : KeepsO s0 (execIslandFloor t p k v s) := by
  unfold execIslandFloor
  repeat' first
    | with_reducible assumption
    | with_reducible apply ite_pred
    | with_reducible apply State.at_keeps
    | with_reducible apply State.hostWrite_keeps
    | with_reducible apply keepsO_next
    | with_reducible exact keepsO_fault

theorem execRealign_keeps {s0 s : State} (t p : Nat) (hs : Keeps s0 s) : KeepsO s0 (execRealign t p s) := by
  unfold execRealign
  repeat' first
    | with_reducible assumption
    | with_reducible apply ite_pred
    | with_reducible apply State.at_keeps
    | with_reducible apply State.hostWrite_keeps
    | with_reducible apply keepsO_next
    | with_reducible exact keepsO_fault

theorem execSetSec_keeps {s0 s : State} (t p : Nat) (hs : Keeps s0 s) : KeepsO s0 (execSetSec t p s) := by
  unfold execSetSec
  repeat' first
    | with_reducible assumption
    | with_reducible apply ite_pred
    | with_reducible apply State.at_keeps
    | with_reducible apply State.hostWrite_keeps
    | with_reducible apply keepsO_next
    | with_reducible exact keepsO_fault

theorem execLeapAnnounce_keeps {s0 s : State} (t p sec dir : Nat) (hs : Keeps s0 s) :
    KeepsO s0 (execLeapAnnounce t p sec dir s) := by
  unfold execLeapAnnounce
  repeat' first
    | with_reducible assumption
    | with_reducible apply ite_pred
    | with_reducible apply State.at_keeps
    | with_reducible apply State.hostWrite_keeps
    | with_reducible apply keepsO_next
    | with_reducible exact keepsO_fault

theorem execSysrefBurst_keeps {s0 s : State} (t p : Nat) (hs : Keeps s0 s) : KeepsO s0 (execSysrefBurst t p s) := by
  unfold execSysrefBurst
  repeat' first
    | with_reducible assumption
    | with_reducible apply ite_pred
    | with_reducible apply State.at_keeps
    | with_reducible apply State.hostWrite_keeps
    | with_reducible apply keepsO_next
    | with_reducible exact keepsO_fault

theorem execFrameCommit_keeps {s0 s : State} (t p : Nat) (hs : Keeps s0 s) : KeepsO s0 (execFrameCommit t p s) := by
  unfold execFrameCommit
  repeat' first
    | with_reducible assumption
    | with_reducible apply ite_pred
    | with_reducible apply State.at_keeps
    | with_reducible apply State.hostWrite_keeps
    | with_reducible apply keepsO_next
    | with_reducible exact keepsO_fault

theorem execArmChannel_keeps {s0 s : State} (t p n : Nat) (hs : Keeps s0 s) : KeepsO s0 (execArmChannel t p n s) := by
  unfold execArmChannel
  repeat' first
    | with_reducible assumption
    | with_reducible apply ite_pred
    | with_reducible apply State.at_keeps
    | with_reducible apply State.hostWrite_keeps
    | with_reducible apply keepsO_next
    | with_reducible exact keepsO_fault

theorem execDisarmChannel_keeps {s0 s : State} (t p n : Nat) (hs : Keeps s0 s) : KeepsO s0 (execDisarmChannel t p n s) := by
  unfold execDisarmChannel
  repeat' first
    | with_reducible assumption
    | with_reducible apply ite_pred
    | with_reducible apply State.at_keeps
    | with_reducible apply State.hostWrite_keeps
    | with_reducible apply keepsO_next
    | with_reducible exact keepsO_fault

theorem execCalRestart_keeps {s0 s : State} (t p n : Nat) (hs : Keeps s0 s) : KeepsO s0 (execCalRestart t p n s) := by
  unfold execCalRestart
  repeat' first
    | with_reducible assumption
    | with_reducible apply ite_pred
    | with_reducible apply State.at_keeps
    | with_reducible apply State.hostWrite_keeps
    | with_reducible apply keepsO_next
    | with_reducible exact keepsO_fault

theorem execFeCommit_keeps {s0 s : State} (t p n : Nat) (hs : Keeps s0 s) : KeepsO s0 (execFeCommit t p n s) := by
  unfold execFeCommit
  repeat' first
    | with_reducible assumption
    | with_reducible apply ite_pred
    | with_reducible apply State.at_keeps
    | with_reducible apply State.hostWrite_keeps
    | with_reducible apply keepsO_next
    | with_reducible exact keepsO_fault

theorem execWindowEnable_keeps {s0 s : State} (t p n en : Nat) (hs : Keeps s0 s) :
    KeepsO s0 (execWindowEnable t p n en s) := by
  unfold execWindowEnable
  repeat' first
    | with_reducible assumption
    | with_reducible apply ite_pred
    | with_reducible apply State.at_keeps
    | with_reducible apply State.hostWrite_keeps
    | with_reducible apply keepsO_next
    | with_reducible exact keepsO_fault

theorem execBeRetire_keeps {s0 s : State} (t p n : Nat) (hs : Keeps s0 s) : KeepsO s0 (execBeRetire t p n s) := by
  unfold execBeRetire
  repeat' first
    | with_reducible assumption
    | with_reducible apply ite_pred
    | with_reducible apply State.at_keeps
    | with_reducible apply State.hostWrite_keeps
    | with_reducible apply keepsO_next
    | with_reducible exact keepsO_fault

theorem execRetireNow_keeps {s0 s : State} (t p n : Nat) (hs : Keeps s0 s) : KeepsO s0 (execRetireNow t p n s) := by
  unfold execRetireNow
  repeat' first
    | with_reducible assumption
    | with_reducible apply ite_pred
    | with_reducible apply State.at_keeps
    | with_reducible apply State.hostWrite_keeps
    | with_reducible apply keepsO_next
    | with_reducible exact keepsO_fault

theorem execBeReturn_keeps {s0 s : State} (t p n : Nat) (hs : Keeps s0 s) : KeepsO s0 (execBeReturn t p n s) := by
  unfold execBeReturn
  repeat' first
    | with_reducible assumption
    | with_reducible apply ite_pred
    | with_reducible apply State.at_keeps
    | with_reducible apply State.hostWrite_keeps
    | with_reducible apply keepsO_next
    | with_reducible exact keepsO_fault

theorem execStartWaveform_keeps {s0 s : State} (t p n : Nat) (hs : Keeps s0 s) : KeepsO s0 (execStartWaveform t p n s) := by
  unfold execStartWaveform
  repeat' first
    | with_reducible assumption
    | with_reducible apply ite_pred
    | with_reducible apply State.at_keeps
    | with_reducible apply State.hostWrite_keeps
    | with_reducible apply keepsO_next
    | with_reducible exact keepsO_fault

theorem execDisarmWaveform_keeps {s0 s : State} (t p n : Nat) (hs : Keeps s0 s) :
    KeepsO s0 (execDisarmWaveform t p n s) := by
  unfold execDisarmWaveform
  repeat' first
    | with_reducible assumption
    | with_reducible apply ite_pred
    | with_reducible apply State.at_keeps
    | with_reducible apply State.hostWrite_keeps
    | with_reducible apply keepsO_next
    | with_reducible exact keepsO_fault

theorem execWaveformCommit_keeps {s0 s : State} (t p n : Nat) (hs : Keeps s0 s) :
    KeepsO s0 (execWaveformCommit t p n s) := by
  unfold execWaveformCommit
  repeat' first
    | with_reducible assumption
    | with_reducible apply ite_pred
    | with_reducible apply State.at_keeps
    | with_reducible apply State.hostWrite_keeps
    | with_reducible apply keepsO_next
    | with_reducible exact keepsO_fault

theorem execStartContext_keeps {s0 s : State} (t p n : Nat) (hs : Keeps s0 s) : KeepsO s0 (execStartContext t p n s) := by
  unfold execStartContext
  repeat' first
    | with_reducible assumption
    | with_reducible apply ite_pred
    | with_reducible apply State.at_keeps
    | with_reducible apply State.hostWrite_keeps
    | with_reducible apply keepsO_next
    | with_reducible exact keepsO_fault

theorem execDisarmContext_keeps {s0 s : State} (t p n : Nat) (hs : Keeps s0 s) : KeepsO s0 (execDisarmContext t p n s) := by
  unfold execDisarmContext
  repeat' first
    | with_reducible assumption
    | with_reducible apply ite_pred
    | with_reducible apply State.at_keeps
    | with_reducible apply State.hostWrite_keeps
    | with_reducible apply keepsO_next
    | with_reducible exact keepsO_fault

theorem execContextRestart_keeps {s0 s : State} (t p n : Nat) (hs : Keeps s0 s) :
    KeepsO s0 (execContextRestart t p n s) := by
  unfold execContextRestart
  repeat' first
    | with_reducible assumption
    | with_reducible apply ite_pred
    | with_reducible apply State.at_keeps
    | with_reducible apply State.hostWrite_keeps
    | with_reducible apply keepsO_next
    | with_reducible exact keepsO_fault

theorem execStabClear_keeps {s0 s : State} (t p n : Nat) (hs : Keeps s0 s) : KeepsO s0 (execStabClear t p n s) := by
  unfold execStabClear
  repeat' first
    | with_reducible assumption
    | with_reducible apply ite_pred
    | with_reducible apply State.at_keeps
    | with_reducible apply State.hostWrite_keeps
    | with_reducible apply keepsO_next
    | with_reducible exact keepsO_fault

theorem execArmAcquisition_keeps {s0 s : State} (t p n : Nat) (hs : Keeps s0 s) :
    KeepsO s0 (execArmAcquisition t p n s) := by
  unfold execArmAcquisition
  repeat' first
    | with_reducible assumption
    | with_reducible apply ite_pred
    | with_reducible apply State.at_keeps
    | with_reducible apply State.hostWrite_keeps
    | with_reducible apply keepsO_next
    | with_reducible exact keepsO_fault

theorem execDisarmAcquisition_keeps {s0 s : State} (t p n : Nat) (hs : Keeps s0 s) :
    KeepsO s0 (execDisarmAcquisition t p n s) := by
  unfold execDisarmAcquisition
  repeat' first
    | with_reducible assumption
    | with_reducible apply ite_pred
    | with_reducible apply State.at_keeps
    | with_reducible apply State.hostWrite_keeps
    | with_reducible apply keepsO_next
    | with_reducible exact keepsO_fault

theorem execForce_keeps {s0 s : State} (t p n : Nat) (hs : Keeps s0 s) : KeepsO s0 (execForce t p n s) := by
  unfold execForce
  repeat' first
    | with_reducible assumption
    | with_reducible apply ite_pred
    | with_reducible apply State.at_keeps
    | with_reducible apply State.hostWrite_keeps
    | with_reducible apply keepsO_next
    | with_reducible exact keepsO_fault

theorem execAbort_keeps {s0 s : State} (t p n : Nat) (hs : Keeps s0 s) : KeepsO s0 (execAbort t p n s) := by
  unfold execAbort
  repeat' first
    | with_reducible assumption
    | with_reducible apply ite_pred
    | with_reducible apply State.at_keeps
    | with_reducible apply State.hostWrite_keeps
    | with_reducible apply keepsO_next
    | with_reducible exact keepsO_fault

theorem execPanRelease_keeps {s0 s : State} (t p pan : Nat) (hs : Keeps s0 s) : KeepsO s0 (execPanRelease t p pan s) := by
  unfold execPanRelease
  repeat' first
    | with_reducible assumption
    | with_reducible apply ite_pred
    | with_reducible apply State.at_keeps
    | with_reducible apply State.hostWrite_keeps
    | with_reducible apply keepsO_next
    | with_reducible exact keepsO_fault

theorem execFreeze_keeps {s0 s : State} (t p n v : Nat) (hs : Keeps s0 s) : KeepsO s0 (execFreeze t p n v s) := by
  unfold execFreeze
  repeat' first
    | with_reducible assumption
    | with_reducible apply ite_pred
    | with_reducible apply State.at_keeps
    | with_reducible apply State.hostWrite_keeps
    | with_reducible apply keepsO_next
    | with_reducible exact keepsO_fault

theorem execClear_keeps {s0 s : State} (t p n : Nat) (hs : Keeps s0 s) : KeepsO s0 (execClear t p n s) := by
  unfold execClear
  repeat' first
    | with_reducible assumption
    | with_reducible apply ite_pred
    | with_reducible apply State.at_keeps
    | with_reducible apply State.hostWrite_keeps
    | with_reducible apply keepsO_next
    | with_reducible exact keepsO_fault

theorem execRelease_keeps {s0 s : State} (t p n : Nat) (hs : Keeps s0 s) : KeepsO s0 (execRelease t p n s) := by
  unfold execRelease
  repeat' first
    | with_reducible assumption
    | with_reducible apply ite_pred
    | with_reducible apply State.at_keeps
    | with_reducible apply State.hostWrite_keeps
    | with_reducible apply keepsO_next
    | with_reducible exact keepsO_fault

theorem execRuleEnable_keeps {s0 s : State} (t p v en : Nat) (hs : Keeps s0 s) : KeepsO s0 (execRuleEnable t p v en s) := by
  unfold execRuleEnable
  repeat' first
    | with_reducible assumption
    | with_reducible apply ite_pred
    | with_reducible apply State.at_keeps
    | with_reducible apply State.hostWrite_keeps
    | with_reducible apply keepsO_next
    | with_reducible exact keepsO_fault

theorem execMarkerArm_keeps {s0 s : State} (t p k : Nat) (hs : Keeps s0 s) : KeepsO s0 (execMarkerArm t p k s) := by
  unfold execMarkerArm
  repeat' first
    | with_reducible assumption
    | with_reducible apply ite_pred
    | with_reducible apply State.at_keeps
    | with_reducible apply State.hostWrite_keeps
    | with_reducible apply keepsO_next
    | with_reducible exact keepsO_fault

theorem execMarkerDisarm_keeps {s0 s : State} (t p k : Nat) (hs : Keeps s0 s) : KeepsO s0 (execMarkerDisarm t p k s) := by
  unfold execMarkerDisarm
  repeat' first
    | with_reducible assumption
    | with_reducible apply ite_pred
    | with_reducible apply State.at_keeps
    | with_reducible apply State.hostWrite_keeps
    | with_reducible apply keepsO_next
    | with_reducible exact keepsO_fault

theorem execTripCfg_keeps {s0 s : State} (t p i v : Nat) (hs : Keeps s0 s) : KeepsO s0 (execTripCfg t p i v s) := by
  unfold execTripCfg
  repeat' first
    | with_reducible assumption
    | with_reducible apply ite_pred
    | with_reducible apply State.at_keeps
    | with_reducible apply State.hostWrite_keeps
    | with_reducible apply keepsO_next
    | with_reducible exact keepsO_fault

theorem execGo_keeps {s0 s : State} (t p c : Nat) (hs : Keeps s0 s) : KeepsO s0 (execGo t p c s) := by
  unfold execGo
  repeat' first
    | with_reducible assumption
    | with_reducible apply ite_pred
    | with_reducible apply State.at_keeps
    | with_reducible apply State.hostWrite_keeps
    | with_reducible apply keepsO_next
    | with_reducible exact keepsO_fault

theorem execDisable_keeps {s0 s : State} (t p c : Nat) (hs : Keeps s0 s) : KeepsO s0 (execDisable t p c s) := by
  unfold execDisable
  repeat' first
    | with_reducible assumption
    | with_reducible apply ite_pred
    | with_reducible apply State.at_keeps
    | with_reducible apply State.hostWrite_keeps
    | with_reducible apply keepsO_next
    | with_reducible exact keepsO_fault

theorem execPause_keeps {s0 s : State} (t p c : Nat) (hs : Keeps s0 s) : KeepsO s0 (execPause t p c s) := by
  unfold execPause
  repeat' first
    | with_reducible assumption
    | with_reducible apply ite_pred
    | with_reducible apply State.at_keeps
    | with_reducible apply State.hostWrite_keeps
    | with_reducible apply keepsO_next
    | with_reducible exact keepsO_fault

theorem execResume_keeps {s0 s : State} (t p c : Nat) (hs : Keeps s0 s) : KeepsO s0 (execResume t p c s) := by
  unfold execResume
  repeat' first
    | with_reducible assumption
    | with_reducible apply ite_pred
    | with_reducible apply State.at_keeps
    | with_reducible apply State.hostWrite_keeps
    | with_reducible apply keepsO_next
    | with_reducible exact keepsO_fault

theorem execListCommit_keeps {s0 s : State} (t p c : Nat) (hs : Keeps s0 s) : KeepsO s0 (execListCommit t p c s) := by
  unfold execListCommit
  repeat' first
    | with_reducible assumption
    | with_reducible apply ite_pred
    | with_reducible apply State.at_keeps
    | with_reducible apply State.hostWrite_keeps
    | with_reducible apply keepsO_next
    | with_reducible exact keepsO_fault

theorem execEngineResume_keeps {s0 s : State} (t p : Nat) (hs : Keeps s0 s) : KeepsO s0 (execEngineResume t p s) := by
  unfold execEngineResume
  repeat' first
    | with_reducible assumption
    | with_reducible apply ite_pred
    | with_reducible apply State.at_keeps
    | with_reducible apply State.hostWrite_keeps
    | with_reducible apply keepsO_next
    | with_reducible exact keepsO_fault

theorem execDisableAll_keeps {s0 s : State} (t p : Nat) (hs : Keeps s0 s) : KeepsO s0 (execDisableAll t p s) := by
  unfold execDisableAll
  repeat' first
    | with_reducible assumption
    | with_reducible apply ite_pred
    | with_reducible apply State.at_keeps
    | with_reducible apply State.hostWrite_keeps
    | with_reducible apply keepsO_next
    | with_reducible exact keepsO_fault

theorem execLaneEnable_keeps {s0 s : State} (t p l en : Nat) (hs : Keeps s0 s) : KeepsO s0 (execLaneEnable t p l en s) := by
  unfold execLaneEnable
  repeat' first
    | with_reducible assumption
    | with_reducible apply ite_pred
    | with_reducible apply State.at_keeps
    | with_reducible apply State.hostWrite_keeps
    | with_reducible apply keepsO_next
    | with_reducible exact keepsO_fault

theorem execRetrain_keeps {s0 s : State} (t p l : Nat) (hs : Keeps s0 s) : KeepsO s0 (execRetrain t p l s) := by
  unfold execRetrain
  repeat' first
    | with_reducible assumption
    | with_reducible apply ite_pred
    | with_reducible apply State.at_keeps
    | with_reducible apply State.hostWrite_keeps
    | with_reducible apply keepsO_next
    | with_reducible exact keepsO_fault

theorem execSlip_keeps {s0 s : State} (t p l : Nat) (hs : Keeps s0 s) : KeepsO s0 (execSlip t p l s) := by
  unfold execSlip
  repeat' first
    | with_reducible assumption
    | with_reducible apply ite_pred
    | with_reducible apply State.at_keeps
    | with_reducible apply State.hostWrite_keeps
    | with_reducible apply keepsO_next
    | with_reducible exact keepsO_fault

theorem execLaneRetire_keeps {s0 s : State} (t p l : Nat) (hs : Keeps s0 s) : KeepsO s0 (execLaneRetire t p l s) := by
  unfold execLaneRetire
  repeat' first
    | with_reducible assumption
    | with_reducible apply ite_pred
    | with_reducible apply State.at_keeps
    | with_reducible apply State.hostWrite_keeps
    | with_reducible apply keepsO_next
    | with_reducible exact keepsO_fault

theorem execLaneReturn_keeps {s0 s : State} (t p l : Nat) (hs : Keeps s0 s) : KeepsO s0 (execLaneReturn t p l s) := by
  unfold execLaneReturn
  repeat' first
    | with_reducible assumption
    | with_reducible apply ite_pred
    | with_reducible apply State.at_keeps
    | with_reducible apply State.hostWrite_keeps
    | with_reducible apply keepsO_next
    | with_reducible exact keepsO_fault

theorem execP1Req_keeps {s0 s : State} (t p l v : Nat) (hs : Keeps s0 s) : KeepsO s0 (execP1Req t p l v s) := by
  unfold execP1Req
  repeat' first
    | with_reducible assumption
    | with_reducible apply ite_pred
    | with_reducible apply State.at_keeps
    | with_reducible apply State.hostWrite_keeps
    | with_reducible apply keepsO_next
    | with_reducible exact keepsO_fault

theorem execP2_keeps {s0 s : State} (t p q : Nat) (hs : Keeps s0 s) : KeepsO s0 (execP2 t p q s) := by
  unfold execP2
  repeat' first
    | with_reducible assumption
    | with_reducible apply ite_pred
    | with_reducible apply State.at_keeps
    | with_reducible apply State.hostWrite_keeps
    | with_reducible apply keepsO_next
    | with_reducible exact keepsO_fault

theorem execP2Exit_keeps {s0 s : State} (t p q : Nat) (hs : Keeps s0 s) : KeepsO s0 (execP2Exit t p q s) := by
  unfold execP2Exit
  repeat' first
    | with_reducible assumption
    | with_reducible apply ite_pred
    | with_reducible apply State.at_keeps
    | with_reducible apply State.hostWrite_keeps
    | with_reducible apply keepsO_next
    | with_reducible exact keepsO_fault

theorem execLinkUp_keeps {s0 s : State} (t p b en : Nat) (hs : Keeps s0 s) : KeepsO s0 (execLinkUp t p b en s) := by
  unfold execLinkUp
  repeat' first
    | with_reducible assumption
    | with_reducible apply ite_pred
    | with_reducible apply State.at_keeps
    | with_reducible apply State.hostWrite_keeps
    | with_reducible apply keepsO_next
    | with_reducible exact keepsO_fault

theorem execRegisterWrite_keeps {s0 s : State} (t p addr data : Nat) (hs : Keeps s0 s) :
    KeepsO s0 (execRegisterWrite t p addr data s) := by
  unfold execRegisterWrite
  repeat' first
    | with_reducible assumption
    | with_reducible apply ite_pred
    | with_reducible apply State.at_keeps
    | with_reducible apply State.portWrite_keeps
    | with_reducible apply keepsO_next
    | with_reducible exact keepsO_fault

theorem execEventWriteBack_keeps {s0 s : State} (t p addr data : Nat) (hs : Keeps s0 s) :
    KeepsO s0 (execEventWriteBack t p addr data s) := by
  unfold execEventWriteBack
  repeat' first
    | with_reducible assumption
    | with_reducible apply ite_pred
    | with_reducible apply State.at_keeps
    | with_reducible apply State.portWrite_keeps
    | with_reducible apply keepsO_next
    | with_reducible exact keepsO_fault

theorem execTideGate_keeps {s0 s : State} (t p key : Nat) (hs : Keeps s0 s) : KeepsO s0 (execTideGate t p key s) := by
  unfold execTideGate
  repeat' first
    | with_reducible assumption
    | with_reducible apply ite_pred
    | with_reducible apply State.at_keeps
    | with_reducible apply State.hostWrite_keeps
    | with_reducible apply keepsO_next
    | with_reducible exact keepsO_fault

theorem execHarvest_keeps {s0 s : State} (t p : Nat) (hs : Keeps s0 s) : KeepsO s0 (execHarvest t p s) := by
  unfold execHarvest
  repeat' first
    | with_reducible assumption
    | with_reducible apply ite_pred
    | with_reducible apply State.at_keeps
    | with_reducible apply State.hostWrite_keeps
    | with_reducible apply keepsO_next
    | with_reducible exact keepsO_fault

theorem execEnterTest_keeps {s0 s : State} (t p : Nat) (hs : Keeps s0 s) : KeepsO s0 (execEnterTest t p s) := by
  unfold execEnterTest
  repeat' first
    | with_reducible assumption
    | with_reducible apply ite_pred
    | with_reducible apply State.at_keeps
    | with_reducible apply State.hostWrite_keeps
    | with_reducible apply keepsO_next
    | with_reducible exact keepsO_fault

theorem execLeaveTest_keeps {s0 s : State} (t p : Nat) (hs : Keeps s0 s) : KeepsO s0 (execLeaveTest t p s) := by
  unfold execLeaveTest
  repeat' first
    | with_reducible assumption
    | with_reducible apply ite_pred
    | with_reducible apply State.at_keeps
    | with_reducible apply State.hostWrite_keeps
    | with_reducible apply keepsO_next
    | with_reducible exact keepsO_fault

theorem execLedgerSync_keeps {s0 s : State} (t p : Nat) (hs : Keeps s0 s) : KeepsO s0 (execLedgerSync t p s) := by
  unfold execLedgerSync
  repeat' first
    | with_reducible assumption
    | with_reducible apply ite_pred
    | with_reducible apply State.at_keeps
    | with_reducible apply State.hostWrite_keeps
    | with_reducible apply keepsO_next
    | with_reducible exact keepsO_fault

theorem execRefresh_keeps {s0 s : State} (t p : Nat) (hs : Keeps s0 s) : KeepsO s0 (execRefresh t p s) := by
  unfold execRefresh
  repeat' first
    | with_reducible assumption
    | with_reducible apply ite_pred
    | with_reducible apply State.at_keeps
    | with_reducible apply State.hostWrite_keeps
    | with_reducible apply keepsO_next
    | with_reducible exact keepsO_fault

theorem execUnitRetire_keeps {s0 s : State} (t p kind index : Nat) (hs : Keeps s0 s) :
    KeepsO s0 (execUnitRetire t p kind index s) := by
  unfold execUnitRetire
  repeat' first
    | with_reducible assumption
    | with_reducible apply ite_pred
    | with_reducible apply State.at_keeps
    | with_reducible apply State.hostWrite_keeps
    | with_reducible apply keepsO_next
    | with_reducible exact keepsO_fault

theorem execUnitReturn_keeps {s0 s : State} (t p kind index : Nat) (hs : Keeps s0 s) :
    KeepsO s0 (execUnitReturn t p kind index s) := by
  unfold execUnitReturn
  repeat' first
    | with_reducible assumption
    | with_reducible apply ite_pred
    | with_reducible apply State.at_keeps
    | with_reducible apply State.hostWrite_keeps
    | with_reducible apply keepsO_next
    | with_reducible exact keepsO_fault

theorem execTripSelect_keeps {s0 s : State} (t p : Nat) (trip : Bool) (i lines : Nat) (hs : Keeps s0 s) :
    KeepsO s0 (execTripSelect t p trip i lines s) := by
  unfold execTripSelect
  repeat' first
    | with_reducible assumption
    | with_reducible apply ite_pred
    | with_reducible apply State.at_keeps
    | with_reducible apply State.hostWrite_keeps
    | with_reducible apply keepsO_next
    | with_reducible exact keepsO_fault

/-! ## Events -/

theorem State.ingestFault_keeps {s0 s : State} (hs : Keeps s0 s) (slot : Nat) : Keeps s0 (s.ingestFault slot) := by
  unfold State.ingestFault
  repeat' first
    | with_reducible assumption
    | with_reducible apply State.loseIngest_keeps
    | with_reducible apply State.declare_keeps

theorem State.crcMismatch_keeps {s0 s : State} (hs : Keeps s0 s) (slot : Nat) : Keeps s0 (s.crcMismatch slot) := by
  unfold State.crcMismatch
  dsimp only
  repeat' first
    | with_reducible assumption
    | with_reducible apply ite_pred
    | with_reducible apply State.setSlot_keeps
    | with_reducible apply State.crcError_keeps
    | with_reducible apply State.ingestFault_keeps

theorem State.slotLost_keeps {s0 s : State} (hs : Keeps s0 s) (slot : Nat) : Keeps s0 (s.slotLost slot) := by
  unfold State.slotLost
  dsimp only
  repeat' first
    | with_reducible assumption
    | with_reducible apply ite_pred
    | with_reducible apply State.setSlot_keeps
    | with_reducible apply State.ingestFault_keeps

theorem State.checkMargin_keeps {s0 s : State} (hs : Keeps s0 s) (slot octets : Nat) :
    Keeps s0 (s.checkMargin slot octets) := by
  unfold State.checkMargin
  try dsimp only
  repeat' first
    | with_reducible assumption
    | with_reducible apply ite_pred
    | with_reducible apply State.noteMargin_keeps
    | with_reducible apply State.ingestFault_keeps

theorem State.harvestAt_keeps {s0 s : State} (hs : Keeps s0 s) : Keeps s0 s.harvestAt := by
  unfold State.harvestAt
  dsimp only
  repeat' first | with_reducible assumption | with_reducible apply ite_pred | simp only [keeps_mk] | split

theorem State.harvestEnd_keeps {s0 s : State} (hs : Keeps s0 s) : Keeps s0 s.harvestEnd := by
  unfold State.harvestEnd
  dsimp only
  repeat' first
    | with_reducible assumption
    | with_reducible apply ite_pred
    | with_reducible apply State.put_keeps
    | with_reducible apply State.bump_keeps
    | with_reducible apply State.raise_keeps
    | simp only [keeps_mk]

theorem execJesdCrcError_keeps {s0 s : State} (t slot : Nat) (hs : Keeps s0 s) : KeepsO s0 (execJesdCrcError t slot s) := by
  unfold execJesdCrcError
  repeat' first
    | with_reducible assumption
    | with_reducible apply ite_pred
    | with_reducible apply State.at_keeps
    | with_reducible apply State.crcMismatch_keeps
    | with_reducible apply keepsO_next
    | with_reducible exact keepsO_fault

theorem execIngestFault_keeps {s0 s : State} (t slot : Nat) (hs : Keeps s0 s) : KeepsO s0 (execIngestFault t slot s) := by
  unfold execIngestFault
  repeat' first
    | with_reducible assumption
    | with_reducible apply ite_pred
    | with_reducible apply State.at_keeps
    | with_reducible apply State.slotLost_keeps
    | with_reducible apply keepsO_next
    | with_reducible exact keepsO_fault

theorem execEmbLock_keeps {s0 s : State} (t slot : Nat) (hs : Keeps s0 s) : KeepsO s0 (execEmbLock t slot s) := by
  unfold execEmbLock
  dsimp only
  repeat' first
    | with_reducible assumption
    | with_reducible apply ite_pred
    | with_reducible apply State.at_keeps
    | with_reducible apply State.setSlot_keeps
    | with_reducible apply keepsO_next
    | with_reducible exact keepsO_fault

theorem execEmbRelease_keeps {s0 s : State} (t m : Nat) (a b : List Int) (ma mb : Nat) (hs : Keeps s0 s) :
    KeepsO s0 (execEmbRelease t m a b ma mb s) := by
  unfold execEmbRelease
  try dsimp only
  repeat' first
    | with_reducible assumption
    | with_reducible apply ite_pred
    | with_reducible apply State.at_keeps
    | with_reducible apply State.checkMargin_keeps
    | with_reducible apply State.releaseEmb_keeps
    | with_reducible apply keepsO_next
    | with_reducible exact keepsO_fault

theorem execFiring_keeps {s0 s : State} (t k bin : Nat) (hs : Keeps s0 s) : KeepsO s0 (execFiring t k bin s) := by
  unfold execFiring
  repeat' first
    | with_reducible assumption
    | with_reducible apply ite_pred
    | with_reducible apply State.at_keeps
    | with_reducible apply State.fire_keeps
    | with_reducible apply State.waveMarker_keeps
    | with_reducible apply State.masksMarker_keeps
    | with_reducible apply keepsO_next
    | with_reducible exact keepsO_fault
    | with_reducible refine KeepsP.snd (by assumption) ?_
    | split

theorem execPulseEnd_keeps {s0 s : State} (t k bin : Nat) (hs : Keeps s0 s) : KeepsO s0 (execPulseEnd t k bin s) := by
  unfold execPulseEnd
  repeat' first
    | with_reducible assumption
    | with_reducible apply ite_pred
    | with_reducible apply State.at_keeps
    | with_reducible apply State.fall_keeps
    | with_reducible apply keepsO_next
    | with_reducible exact keepsO_fault

theorem execHarvestInstant_keeps {s0 s : State} (t : Nat) (hs : Keeps s0 s) : KeepsO s0 (execHarvestInstant t s) := by
  unfold execHarvestInstant
  repeat' first
    | with_reducible assumption
    | with_reducible apply State.at_keeps
    | with_reducible apply State.harvestAt_keeps
    | with_reducible apply keepsO_next

theorem execHarvestDone_keeps {s0 s : State} (t : Nat) (hs : Keeps s0 s) : KeepsO s0 (execHarvestDone t s) := by
  unfold execHarvestDone
  repeat' first
    | with_reducible assumption
    | with_reducible apply State.at_keeps
    | with_reducible apply State.harvestEnd_keeps
    | with_reducible apply keepsO_next

/-! ## Governor -/

theorem State.readSensors_keeps {s0 s : State} (hs : Keeps s0 s) (temps : List Int) : Keeps s0 (s.readSensors temps) := by
  unfold State.readSensors
  dsimp only
  repeat' first
    | with_reducible assumption
    | with_reducible apply ite_pred
    | with_reducible refine foldl_pred (fun _ _ _ => ?_) ?_
    | with_reducible apply State.put_keeps
    | with_reducible apply State.raise_keeps
    | simp only [keeps_mk]

theorem State.noteCool_keeps {s0 s : State} (hs : Keeps s0 s) : Keeps s0 s.noteCool := by
  unfold State.noteCool
  dsimp only
  repeat' first | with_reducible assumption | simp only [keeps_mk]

theorem State.shedChans_keeps {s0 s : State} (hs : Keeps s0 s) (ns : List Nat) : Keeps s0 (s.shedChans ns) := by
  unfold State.shedChans
  repeat' first
    | with_reducible assumption
    | with_reducible refine foldl_pred (fun _ _ _ => ?_) ?_
    | with_reducible apply State.put_keeps
    | with_reducible apply State.count_keeps
    | with_reducible apply State.disarmChan_keeps

theorem State.shedWaves_keeps {s0 s : State} (hs : Keeps s0 s) (ns : List Nat) : Keeps s0 (s.shedWaves ns) := by
  unfold State.shedWaves
  repeat' first
    | with_reducible assumption
    | with_reducible refine foldl_pred (fun _ _ _ => ?_) ?_
    | with_reducible apply State.put_keeps
    | with_reducible apply State.count_keeps
    | with_reducible apply State.disarmWave_keeps

theorem State.shedContexts_keeps {s0 s : State} (hs : Keeps s0 s) (ns : List Nat) : Keeps s0 (s.shedContexts ns) := by
  unfold State.shedContexts
  repeat' first
    | with_reducible assumption
    | with_reducible refine foldl_pred (fun _ _ _ => ?_) ?_
    | with_reducible apply State.put_keeps
    | with_reducible apply State.count_keeps
    | with_reducible apply State.disarmCtx_keeps

theorem State.shedAcqs_keeps {s0 s : State} (hs : Keeps s0 s) (ns : List Nat) : Keeps s0 (s.shedAcqs ns) := by
  unfold State.shedAcqs
  repeat' first
    | with_reducible assumption
    | with_reducible refine foldl_pred (fun _ _ _ => ?_) ?_
    | with_reducible apply State.put_keeps
    | with_reducible apply State.count_keeps
    | with_reducible apply State.disarmAcq_keeps

theorem State.shedStep_keeps {s0 s : State} (hs : Keeps s0 s) : Keeps s0 s.shedStep := by
  unfold State.shedStep
  dsimp only
  repeat' first
    | with_reducible assumption
    | with_reducible apply ite_pred
    | with_reducible apply State.put_keeps
    | with_reducible apply State.shedChans_keeps
    | with_reducible apply State.shedWaves_keeps
    | with_reducible apply State.shedContexts_keeps
    | with_reducible apply State.shedAcqs_keeps
    | split

theorem State.defer_keeps {s0 s : State} (hs : Keeps s0 s) (t : Int) : Keeps s0 (s.defer t) := by
  unfold State.defer
  repeat' first
    | with_reducible assumption
    | with_reducible apply ite_pred
    | with_reducible apply State.put_keeps
    | with_reducible apply State.raise_keeps

theorem State.shed_keeps {s0 s : State} (hs : Keeps s0 s) (t : Int) : Keeps s0 (s.shed t) := by
  unfold State.shed
  dsimp only
  repeat' first
    | with_reducible assumption
    | with_reducible apply ite_pred
    | with_reducible apply State.put_keeps
    | with_reducible apply State.raise_keeps
    | with_reducible apply State.shedStep_keeps

theorem State.overheated_keeps {s0 s : State} (hs : Keeps s0 s) : KeepsP s0 s.overheated := by
  unfold State.overheated
  dsimp only
  repeat' first
    | with_reducible assumption
    | with_reducible apply ite_pred
    | with_reducible apply State.free_keeps
    | simp only [keepsP_mk]
    | with_reducible apply KeepsP.proj

theorem State.rechargeIslands_keeps {s0 s : State} (hs : Keeps s0 s) : Keeps s0 s.rechargeIslands := by
  unfold State.rechargeIslands
  dsimp only
  repeat' first | with_reducible assumption | simp only [keeps_mk]

theorem State.settleCosts_keeps {s0 s : State} (hs : Keeps s0 s) : Keeps s0 s.settleCosts := by
  unfold State.settleCosts
  try dsimp only
  repeat' first
    | with_reducible assumption
    | with_reducible apply ite_pred
    | with_reducible refine foldl_pred (fun _ _ _ => ?_) ?_
    | with_reducible apply State.commitCost_keeps
    | simp only [keeps_mk]

theorem State.admitWake_keeps {s0 s : State} (hs : Keeps s0 s) (k : Nat) (guard : Bool) (cost : Nat) :
    Keeps s0 (s.admitWake k guard cost) := by
  unfold State.admitWake
  dsimp only
  repeat' first
    | with_reducible assumption
    | with_reducible apply ite_pred
    | with_reducible apply State.setIsland_keeps
    | with_reducible apply State.withdraw_keeps
    | with_reducible apply State.commitCost_keeps

theorem State.admitUp_keeps {s0 s : State} (hs : Keeps s0 s) (b : Nat) : Keeps s0 (s.admitUp b) := by
  unfold State.admitUp
  dsimp only
  repeat' first
    | with_reducible assumption
    | with_reducible refine foldl_pred (fun _ _ _ => ?_) ?_
    | with_reducible apply State.setLink_keeps
    | with_reducible apply State.commitCost_keeps
    | with_reducible apply State.wakeLanes_keeps

theorem State.admitTask_keeps {s0 s : State} (hs : Keeps s0 s) (x : Subject) (guard : Bool) :
    Keeps s0 (s.admitTask x guard) := by
  unfold State.admitTask
  try dsimp only
  repeat' first
    | with_reducible assumption
    | with_reducible apply ite_pred
    | with_reducible apply State.admitWake_keeps
    | with_reducible apply State.admitChan_keeps
    | with_reducible apply State.commitCost_keeps
    | with_reducible apply State.admitWave_keeps
    | with_reducible apply State.admitContext_keeps
    | with_reducible apply State.admitAcq_keeps
    | with_reducible apply State.admitUp_keeps
    | split

theorem State.admitGuards_keeps {s0 s : State} (hs : Keeps s0 s) (n : Nat) : KeepsP s0 (s.admitGuards n) := by
  induction n generalizing s with
  | zero => exact hs
  | succ n ih =>
    rw [State.admitGuards]
    split
    · exact hs
    · exact ih (State.admitTask_keeps (State.withdraw_keeps hs _) _ _)

theorem State.admitQueue_keeps {s0 s : State} (hs : Keeps s0 s) (cls n : Nat) (avail : Int) :
    Keeps s0 (s.admitQueue cls n avail).2.2 := by
  induction n generalizing s avail with
  | zero => exact hs
  | succ n ih =>
    rw [State.admitQueue]
    split
    · exact hs
    · dsimp only
      split
      · exact hs
      · exact ih (State.admitTask_keeps (State.withdraw_keeps hs _) _ _) _

theorem State.markPending_keeps {s0 s : State} (hs : Keeps s0 s) (x1 : Subject) : Keeps s0 (s.markPending x1) := by
  unfold State.markPending
  try dsimp only
  repeat' first
    | with_reducible assumption
    | with_reducible apply State.setChan_keeps
    | with_reducible apply State.setWave_keeps
    | with_reducible apply State.setCtx_keeps
    | with_reducible apply State.setAcq_keeps
    | with_reducible apply State.setLink_keeps
    | simp only [keeps_mk]
    | split

theorem State.revive_keeps {s0 s : State} (hs : Keeps s0 s) (gone : List (Nat × Nat × Task)) :
    Keeps s0 (s.revive gone) := by
  unfold State.revive
  try dsimp only
  repeat' first
    | with_reducible assumption
    | with_reducible refine foldl_pred (fun _ _ _ => ?_) ?_
    | with_reducible apply State.markPending_keeps
    | simp only [keeps_mk]

theorem State.disarmLate_keeps {s0 s : State} (hs : Keeps s0 s) (gone : List (Nat × Nat × Task)) :
    Keeps s0 (s.disarmLate gone) := by
  unfold State.disarmLate
  try dsimp only
  repeat' first
    | with_reducible assumption
    | with_reducible refine foldl_pred (fun _ _ _ => ?_) ?_
    | with_reducible apply State.disarmChan_keeps
    | with_reducible apply State.disarmWave_keeps
    | with_reducible apply State.disarmCtx_keeps
    | with_reducible apply State.disarmAcq_keeps
    | with_reducible apply State.enableLink_keeps
    | simp only [keeps_mk]
    | split

theorem State.admitTasks_keeps {s0 s : State} (hs : Keeps s0 s) (t : Int) : Keeps s0 (s.admitTasks t) := by
  unfold State.admitTasks
  try dsimp only
  repeat' first
    | with_reducible assumption
    | with_reducible apply ite_pred
    | with_reducible apply State.rechargeIslands_keeps
    | with_reducible apply State.put_keeps
    | with_reducible apply State.revive_keeps
    | with_reducible apply State.admitGuards_keeps
    | with_reducible apply State.admitQueue_keeps
    | with_reducible apply State.disarmLate_keeps
    | with_reducible refine KeepsP.snd (by assumption) ?_
    | with_reducible apply KeepsP.proj

theorem State.raiseIsland_keeps {s0 s : State} (hs : Keeps s0 s) (k : Nat) : Keeps s0 (s.raiseIsland k) := by
  unfold State.raiseIsland
  try dsimp only
  repeat' first
    | with_reducible assumption
    | with_reducible apply ite_pred
    | with_reducible apply State.setIsland_keeps
    | with_reducible apply State.commitCost_keeps

theorem State.aimIsland_keeps {s0 s : State} (hs : Keeps s0 s) (k st : Nat) : Keeps s0 (s.aimIsland k st) := by
  unfold State.aimIsland
  try dsimp only
  repeat' first
    | with_reducible assumption
    | with_reducible apply ite_pred
    | with_reducible apply State.touchIsland_keeps
    | with_reducible apply State.raiseIsland_keeps
    | with_reducible apply State.setIsland_keeps

theorem State.targetIsland_keeps {s0 s : State} (hs : Keeps s0 s) (k : Nat) : Keeps s0 (s.targetIsland k) := by
  unfold State.targetIsland
  try dsimp only
  repeat' first
    | with_reducible assumption
    | with_reducible apply ite_pred
    | with_reducible apply State.setIsland_keeps
    | with_reducible apply State.aimIsland_keeps
    | with_reducible apply State.lowerIsland_keeps

theorem State.readRail_keeps {s0 s : State} (hs : Keeps s0 s) (j : Nat) (x : PmbReply × PmbReply) :
    Keeps s0 (s.readRail j x) := by
  unfold State.readRail
  try dsimp only
  repeat' first
    | with_reducible assumption
    | with_reducible apply ite_pred
    | with_reducible apply State.notePmb_keeps
    | with_reducible apply State.put_keeps
    | with_reducible apply State.railFault_keeps
    | simp only [keeps_mk]
    | split

theorem State.readRails_keeps {s0 s : State} (hs : Keeps s0 s) (rails : List (PmbReply × PmbReply)) :
    Keeps s0 (s.readRails rails) := by
  unfold State.readRails
  try dsimp only
  repeat' first
    | with_reducible assumption
    | with_reducible apply ite_pred
    | with_reducible refine foldl_pred (fun _ _ _ => ?_) ?_
    | with_reducible apply State.readRail_keeps
    | with_reducible apply State.mark_keeps
    | with_reducible apply State.tryAcquire_keeps
    | with_reducible apply State.feBack_keeps
    | with_reducible apply State.settleTrips_keeps
    | with_reducible apply State.railsRestored_keeps

theorem State.applyPwr_keeps {s0 s : State} (hs : Keeps s0 s) : Keeps s0 s.applyPwr := by
  unfold State.applyPwr
  dsimp only
  repeat' first
    | with_reducible assumption
    | with_reducible refine foldl_pred (fun _ _ _ => ?_) ?_
    | with_reducible apply State.apply_keeps
    | with_reducible apply State.applyAll_keeps

theorem State.noteHour_keeps {s0 s : State} (hs : Keeps s0 s) (t : Int) : Keeps s0 (s.noteHour t) := by
  unfold State.noteHour
  dsimp only
  repeat' first | with_reducible assumption | simp only [keeps_mk]

theorem State.heatTick_keeps {s0 s : State} (hs : Keeps s0 s) : Keeps s0 s.heatTick := by
  unfold State.heatTick
  try dsimp only
  repeat' first
    | with_reducible assumption
    | with_reducible apply State.defer_keeps
    | with_reducible apply State.shed_keeps
    | with_reducible apply State.admitTasks_keeps

theorem State.logicTick_keeps {s0 s : State} (hs : Keeps s0 s) (rails : List (PmbReply × PmbReply)) :
    Keeps s0 (s.logicTick rails) := by
  unfold State.logicTick
  try dsimp only
  repeat' first
    | with_reducible assumption
    | with_reducible refine foldl_pred (fun _ _ _ => ?_) ?_
    | with_reducible apply State.noteHour_keeps
    | with_reducible apply State.targetIsland_keeps
    | with_reducible apply State.beginRestore_keeps
    | with_reducible apply State.readRails_keeps

theorem State.applyTable_keeps {s0 s : State} (hs : Keeps s0 s) : Keeps s0 s.applyTable := by
  unfold State.applyTable
  try dsimp only
  repeat' first
    | with_reducible assumption
    | with_reducible apply ite_pred
    | with_reducible apply State.applyCosts_keeps
    | with_reducible apply State.applyPwr_keeps
    | with_reducible apply State.commitCost_keeps

theorem State.noteTick_keeps {s0 s : State} (hs : Keeps s0 s) : Keeps s0 s.noteTick := by
  unfold State.noteTick
  try dsimp only
  repeat' first | with_reducible assumption | with_reducible apply State.bump_keeps | simp only [keeps_mk]

theorem State.senseTick_keeps {s0 s : State} (hs : Keeps s0 s) (temps : List Int) : Keeps s0 (s.senseTick temps) := by
  unfold State.senseTick
  try dsimp only
  repeat' first
    | with_reducible assumption
    | with_reducible apply ite_pred
    | with_reducible apply State.noteTick_keeps
    | with_reducible apply State.pumpClocks_keeps
    | with_reducible apply State.applyTable_keeps
    | with_reducible apply State.settleCosts_keeps
    | with_reducible apply State.readSensors_keeps
    | with_reducible apply State.put_keeps

theorem State.governorTick_keeps {s0 s : State} (hs : Keeps s0 s) (temps : List Int) (rails : List (PmbReply ×
    PmbReply)) :
    Keeps s0 (s.governorTick temps rails) := by
  unfold State.governorTick
  try dsimp only
  repeat' first
    | with_reducible assumption
    | with_reducible apply ite_pred
    | with_reducible apply State.senseTick_keeps
    | with_reducible apply State.overheated_keeps
    | with_reducible apply State.thermalDown_keeps
    | with_reducible apply State.noteCool_keeps
    | with_reducible apply State.heatTick_keeps
    | with_reducible apply State.logicTick_keeps
    | with_reducible apply State.rebootDue_keeps
    | with_reducible refine KeepsP.snd (by assumption) ?_
    | with_reducible apply KeepsP.proj
    | simp only [keepsP_mk]
    | split

theorem execGovernorTick_keeps {s0 s : State} (t : Nat) (temps : List Int) (rails : List (PmbReply × PmbReply))
    (hs : Keeps s0 s) :
    KeepsO s0 (execGovernorTick t temps rails s) := by
  unfold execGovernorTick
  repeat' first
    | with_reducible assumption
    | with_reducible apply State.at_keeps
    | with_reducible apply State.governorTick_keeps
    | with_reducible apply keepsO_next

/-! ## Links -/

theorem State.admitLink_keeps {s0 s : State} (hs : Keeps s0 s) (b : Nat) : Keeps s0 (s.admitLink b) := by
  unfold State.admitLink
  dsimp only
  repeat' first
    | with_reducible assumption
    | with_reducible apply ite_pred
    | with_reducible refine foldl_pred (fun _ _ _ => ?_) ?_
    | with_reducible apply State.raise_keeps
    | with_reducible apply State.setLink_keeps
    | with_reducible apply State.grantCredits_keeps
    | split

theorem State.endLink_keeps {s0 s : State} (hs : Keeps s0 s) (b : Nat) : Keeps s0 (s.endLink b) := by
  unfold State.endLink
  try dsimp only
  repeat' first
    | with_reducible assumption
    | with_reducible refine foldl_pred (fun _ _ _ => ?_) ?_
    | with_reducible apply State.dropVerdict_keeps
    | with_reducible apply State.setLink_keeps
    | with_reducible apply State.closeGate_keeps
    | with_reducible apply State.raise_keeps

theorem State.enterP1_keeps {s0 s : State} (hs : Keeps s0 s) (b l : Nat) : Keeps s0 (s.enterP1 b l) := by
  unfold State.enterP1
  dsimp only
  repeat' first
    | with_reducible assumption
    | with_reducible apply ite_pred
    | with_reducible apply State.setLane_keeps
    | with_reducible apply State.sendBlock_keeps

theorem State.takeService_keeps {s0 s : State} (hs : Keeps s0 s) (l : Nat) : Keeps s0 (s.takeService l) := by
  unfold State.takeService
  dsimp only
  repeat' first
    | with_reducible assumption
    | with_reducible apply ite_pred
    | with_reducible apply State.setLane_keeps
    | with_reducible apply State.retireNow_keeps
    | with_reducible apply State.unuse_keeps

theorem State.missAlign_keeps {s0 s : State} (hs : Keeps s0 s) (b l : Nat) : Keeps s0 (s.missAlign b l) := by
  unfold State.missAlign
  dsimp only
  repeat' first
    | with_reducible assumption
    | with_reducible apply ite_pred
    | with_reducible apply State.raise_keeps
    | with_reducible apply State.setLane_keeps

theorem State.sendAligns_keeps {s0 s : State} (hs : Keeps s0 s) (b : Nat) : Keeps s0 (s.sendAligns b) := by
  unfold State.sendAligns
  dsimp only
  repeat' first
    | with_reducible assumption
    | with_reducible refine foldl_pred (fun _ _ _ => ?_) ?_
    | with_reducible apply State.free_keeps
    | with_reducible apply State.sendBlock_keeps
    | with_reducible apply KeepsP.proj

theorem State.alignSlot_keeps {s0 s : State} (hs : Keeps s0 s) (b : Nat) : Keeps s0 (s.alignSlot b) := by
  unfold State.alignSlot
  try dsimp only
  repeat' first
    | with_reducible assumption
    | with_reducible apply ite_pred
    | with_reducible refine foldl_pred (fun _ _ _ => ?_) ?_
    | with_reducible apply State.endLink_keeps
    | with_reducible apply State.setLink_keeps
    | with_reducible apply State.enterP1_keeps
    | with_reducible apply State.missAlign_keeps
    | with_reducible apply State.takeService_keeps
    | with_reducible apply State.admitLink_keeps
    | with_reducible apply State.sendAligns_keeps
    | with_reducible apply State.sendBlock_keeps

theorem State.countLost_keeps {s0 s : State} (hs : Keeps s0 s) (b l : Nat) : Keeps s0 (s.countLost b l) := by
  unfold State.countLost
  dsimp only
  repeat' first
    | with_reducible assumption
    | with_reducible apply ite_pred
    | with_reducible apply State.count_keeps
    | with_reducible apply State.free_keeps
    | with_reducible apply State.setLane_keeps
    | with_reducible apply KeepsP.proj
    | split

theorem State.takeAlign_keeps {s0 s : State} (hs : Keeps s0 s) (b l payload d : Nat) :
    Keeps s0 (s.takeAlign b l payload d) := by
  unfold State.takeAlign
  dsimp only
  repeat' first
    | with_reducible assumption
    | with_reducible apply ite_pred
    | with_reducible refine foldl_pred (fun _ _ _ => ?_) ?_
    | with_reducible apply State.setLane_keeps
    | with_reducible apply State.setLink_keeps
    | with_reducible apply State.countLost_keeps

theorem State.recvAlign_keeps {s0 s : State} (hs : Keeps s0 s) (l payload : Nat) : Keeps s0 (s.recvAlign l payload) := by
  unfold State.recvAlign
  dsimp only
  repeat' first
    | with_reducible assumption
    | with_reducible apply ite_pred
    | with_reducible apply State.count_keeps
    | with_reducible apply State.raise_keeps
    | with_reducible apply State.free_keeps
    | with_reducible apply State.setLane_keeps
    | with_reducible apply State.takeAlign_keeps
    | with_reducible apply KeepsP.proj
    | split

theorem State.sendPacket_keeps {s0 s : State} (hs : Keeps s0 s) (b : Nat) (ws : List Nat) :
    Keeps s0 (s.sendPacket b ws) := by
  unfold State.sendPacket
  repeat' first
    | with_reducible assumption
    | with_reducible refine foldl_pred (fun _ _ _ => ?_) ?_
    | with_reducible apply State.sendBlock_keeps

theorem State.respond_keeps {s0 s : State} (hs : Keeps s0 s) (b tag crc : Nat) (ws : List Nat) (resp err : Nat) :
    Keeps s0 (s.respond b tag crc ws resp err) := by
  unfold State.respond
  dsimp only
  repeat' first
    | with_reducible assumption
    | with_reducible apply ite_pred
    | with_reducible apply State.count_keeps
    | with_reducible apply State.setLink_keeps
    | with_reducible apply State.sendPacket_keeps

theorem State.awaitAnswer_keeps {s0 s : State} (hs : Keeps s0 s) (b count : Nat) :
    Keeps s0 (s.awaitAnswer b count) := by
  unfold State.awaitAnswer
  try dsimp only
  repeat' first
    | with_reducible assumption
    | with_reducible refine foldl_pred (fun _ _ _ => ?_) ?_
    | with_reducible apply State.free_keeps
    | with_reducible refine KeepsP.snd (by assumption) ?_
    | with_reducible apply KeepsP.proj
    | simp only [keepsP_mk]
    | simp only [keeps_mk]

theorem State.runPacket_keeps {s0 s : State} (hs : Keeps s0 s) (b op tag count addr crc : Nat) (data : List Nat) :
    Keeps s0 (s.runPacket b op tag count addr crc data) := by
  unfold State.runPacket
  try dsimp only
  repeat' first
    | with_reducible assumption
    | with_reducible apply ite_pred
    | with_reducible apply State.awaitAnswer_keeps
    | with_reducible apply State.readRun_keeps
    | with_reducible apply State.writeRun_keeps
    | with_reducible apply State.setPort_keeps
    | with_reducible apply State.respond_keeps
    | with_reducible refine KeepsP.snd (by assumption) ?_
    | with_reducible apply KeepsP.proj
    | simp only [keepsP_mk]
    | simp only [keeps_mk]
    | split

theorem State.takePacket_keeps {s0 s : State} (hs : Keeps s0 s) (b : Nat) (ws : List Nat) :
    Keeps s0 (s.takePacket b ws) := by
  unfold State.takePacket
  try dsimp only
  repeat' first
    | with_reducible assumption
    | with_reducible apply ite_pred
    | with_reducible apply State.respond_keeps
    | with_reducible apply State.count_keeps
    | with_reducible apply State.sendPacket_keeps
    | with_reducible apply State.runPacket_keeps
    | split

theorem State.breakPacket_keeps {s0 s : State} (hs : Keeps s0 s) (b : Nat) : Keeps s0 (s.breakPacket b) := by
  unfold State.breakPacket
  dsimp only
  repeat' first
    | with_reducible assumption
    | with_reducible apply State.count_keeps
    | with_reducible apply State.setLink_keeps
    | split

theorem State.sendAck_keeps {s0 s : State} (hs : Keeps s0 s) (b sub tag resp err : Nat) :
    Keeps s0 (s.sendAck b sub tag resp err) := by
  unfold State.sendAck
  dsimp only
  repeat' first
    | with_reducible assumption
    | with_reducible apply ite_pred
    | with_reducible apply State.setLink_keeps
    | with_reducible apply State.sendBlock_keeps

theorem State.timeCommand_keeps {s0 s : State} (hs : Keeps s0 s) (b sub payload : Nat) :
    Keeps s0 (s.timeCommand b sub payload) := by
  unfold State.timeCommand
  try dsimp only
  repeat' first
    | with_reducible assumption
    | with_reducible apply ite_pred
    | with_reducible apply State.sendBlock_keeps
    | with_reducible apply State.sendAck_keeps
    | with_reducible apply State.announceLink_keeps
    | with_reducible apply State.acceptSec_keeps
    | simp only [keeps_mk]
    | split

theorem State.linkTrigger_keeps {s0 s : State} (hs : Keeps s0 s) (b payload : Nat) :
    Keeps s0 (s.linkTrigger b payload) := by
  unfold State.linkTrigger
  try dsimp only
  repeat' first
    | with_reducible assumption
    | with_reducible apply ite_pred
    | with_reducible apply State.count_keeps
    | with_reducible apply State.aqEvents_keeps
    | simp only [keeps_mk]

theorem State.recvCredit_keeps {s0 s : State} (hs : Keeps s0 s) (b payload : Nat) : Keeps s0 (s.recvCredit b payload) := by
  unfold State.recvCredit
  dsimp only
  repeat' first
    | with_reducible assumption
    | with_reducible apply ite_pred
    | with_reducible apply State.setLink_keeps
    | with_reducible apply State.takeCredits_keeps

theorem State.recvCtrl_keeps {s0 s : State} (hs : Keeps s0 s) (b payload : Nat) : Keeps s0 (s.recvCtrl b payload) := by
  unfold State.recvCtrl
  dsimp only
  repeat' first
    | with_reducible assumption
    | with_reducible apply ite_pred
    | with_reducible apply State.count_keeps
    | with_reducible apply State.setLink_keeps
    | with_reducible apply State.startRequest_keeps
    | with_reducible apply State.timeCommand_keeps
    | with_reducible apply State.linkTrigger_keeps
    | with_reducible apply State.recvCredit_keeps

theorem State.recvBlock_keeps {s0 s : State} (hs : Keeps s0 s) (b payload : Nat) : Keeps s0 (s.recvBlock b payload) := by
  unfold State.recvBlock
  dsimp only
  repeat' first
    | with_reducible assumption
    | with_reducible apply ite_pred
    | with_reducible apply State.count_keeps
    | with_reducible apply State.breakPacket_keeps
    | with_reducible apply State.recvCtrl_keeps

theorem State.thawLanes_keeps {s0 s : State} (hs : Keeps s0 s) (b : Nat) : Keeps s0 (s.thawLanes b) := by
  unfold State.thawLanes
  dsimp only
  repeat' first
    | with_reducible assumption
    | with_reducible apply ite_pred
    | with_reducible refine foldl_pred (fun _ _ _ => ?_) ?_
    | with_reducible apply State.setLane_keeps

theorem State.recvData_keeps {s0 s : State} (hs : Keeps s0 s) (b w : Nat) : Keeps s0 (s.recvData b w) := by
  unfold State.recvData
  dsimp only
  repeat' first
    | with_reducible assumption
    | with_reducible apply ite_pred
    | with_reducible apply State.count_keeps
    | with_reducible apply State.raise_keeps
    | with_reducible apply State.setLink_keeps
    | with_reducible apply State.takeData_keeps
    | with_reducible apply State.takePacket_keeps
    | with_reducible apply State.thawLanes_keeps
    | with_reducible apply KeepsP.proj
    | split

theorem State.recvPacket_keeps {s0 s : State} (hs : Keeps s0 s) (b : Nat) (ws : List Nat) :
    Keeps s0 (s.recvPacket b ws) := by
  unfold State.recvPacket
  repeat' first
    | with_reducible assumption
    | with_reducible apply ite_pred
    | with_reducible apply State.takePacket_keeps
    | with_reducible apply State.breakPacket_keeps
    | with_reducible apply State.thawLanes_keeps

theorem State.repeatCredit_keeps {s0 s : State} (hs : Keeps s0 s) (b stream : Nat) :
    Keeps s0 (s.repeatCredit b stream) := by
  unfold State.repeatCredit
  dsimp only
  repeat' first
    | with_reducible assumption
    | with_reducible apply ite_pred
    | with_reducible apply State.setLink_keeps
    | with_reducible apply State.sendBlock_keeps

theorem State.sendVerdict_keeps {s0 s : State} (hs : Keeps s0 s) (b : Nat) : Keeps s0 (s.sendVerdict b) := by
  unfold State.sendVerdict
  try dsimp only
  repeat' first
    | with_reducible assumption
    | with_reducible apply ite_pred
    | with_reducible apply State.setLink_keeps
    | with_reducible apply State.sendBlock_keeps
    | with_reducible apply State.count_keeps
    | simp only [keeps_mk]
    | split

theorem State.recvTrain_keeps {s0 s : State} (hs : Keeps s0 s) (l payload : Nat) :
    Keeps s0 (s.recvTrain l payload) := by
  unfold State.recvTrain
  try dsimp only
  repeat' first
    | with_reducible assumption
    | with_reducible apply ite_pred
    | with_reducible apply State.count_keeps
    | with_reducible apply State.setLane_keeps
    | with_reducible apply State.sendTrain_keeps
    | with_reducible apply State.ffeDone_keeps

theorem State.recvP1_keeps {s0 s : State} (hs : Keeps s0 s) (l payload : Nat) : Keeps s0 (s.recvP1 l payload) := by
  unfold State.recvP1
  dsimp only
  repeat' first
    | with_reducible assumption
    | with_reducible apply ite_pred
    | with_reducible apply State.count_keeps
    | with_reducible apply State.setLane_keeps

theorem execVerdict_keeps {s0 s : State} (t link : Nat) (hs : Keeps s0 s) : KeepsO s0 (execVerdict t link s) := by
  unfold execVerdict
  repeat' first
    | with_reducible assumption
    | with_reducible apply ite_pred
    | with_reducible apply State.at_keeps
    | with_reducible apply State.sendVerdict_keeps
    | with_reducible apply keepsO_next
    | with_reducible exact keepsO_fault

theorem execAlignSlot_keeps {s0 s : State} (t b : Nat) (hs : Keeps s0 s) : KeepsO s0 (execAlignSlot t b s) := by
  unfold execAlignSlot
  repeat' first
    | with_reducible assumption
    | with_reducible apply ite_pred
    | with_reducible apply State.at_keeps
    | with_reducible apply State.alignSlot_keeps
    | with_reducible apply keepsO_next
    | with_reducible exact keepsO_fault

theorem execAlign_keeps {s0 s : State} (t lane payload : Nat) (hs : Keeps s0 s) :
    KeepsO s0 (execAlign t lane payload s) := by
  unfold execAlign
  repeat' first
    | with_reducible assumption
    | with_reducible apply ite_pred
    | with_reducible apply State.at_keeps
    | with_reducible apply State.recvAlign_keeps
    | with_reducible apply keepsO_next
    | with_reducible exact keepsO_fault

theorem execData_keeps {s0 s : State} (t b word : Nat) (hs : Keeps s0 s) : KeepsO s0 (execData t b word s) := by
  unfold execData
  repeat' first
    | with_reducible assumption
    | with_reducible apply ite_pred
    | with_reducible apply State.at_keeps
    | with_reducible apply State.recvData_keeps
    | with_reducible apply keepsO_next
    | with_reducible exact keepsO_fault

theorem execStream_keeps {s0 s : State} (t b payload : Nat) (hs : Keeps s0 s) : KeepsO s0 (execStream t b payload s) := by
  unfold execStream
  repeat' first
    | with_reducible assumption
    | with_reducible apply ite_pred
    | with_reducible apply State.at_keeps
    | with_reducible apply State.recvBlock_keeps
    | with_reducible apply keepsO_next
    | with_reducible exact keepsO_fault

theorem execCredit_keeps {s0 s : State} (t b payload : Nat) (hs : Keeps s0 s) : KeepsO s0 (execCredit t b payload s) := by
  unfold execCredit
  repeat' first
    | with_reducible assumption
    | with_reducible apply ite_pred
    | with_reducible apply State.at_keeps
    | with_reducible apply State.recvBlock_keeps
    | with_reducible apply keepsO_next
    | with_reducible exact keepsO_fault

theorem execCreditRepeat_keeps {s0 s : State} (t b stream : Nat) (hs : Keeps s0 s) :
    KeepsO s0 (execCreditRepeat t b stream s) := by
  unfold execCreditRepeat
  repeat' first
    | with_reducible assumption
    | with_reducible apply ite_pred
    | with_reducible apply State.at_keeps
    | with_reducible apply State.repeatCredit_keeps
    | with_reducible apply keepsO_next
    | with_reducible exact keepsO_fault

theorem execStart_keeps {s0 s : State} (t b payload : Nat) (hs : Keeps s0 s) : KeepsO s0 (execStart t b payload s) := by
  unfold execStart
  repeat' first
    | with_reducible assumption
    | with_reducible apply ite_pred
    | with_reducible apply State.at_keeps
    | with_reducible apply State.recvBlock_keeps
    | with_reducible apply keepsO_next
    | with_reducible exact keepsO_fault

theorem execTimeSet_keeps {s0 s : State} (t b payload : Nat) (hs : Keeps s0 s) : KeepsO s0 (execTimeSet t b payload s) := by
  unfold execTimeSet
  repeat' first
    | with_reducible assumption
    | with_reducible apply ite_pred
    | with_reducible apply State.at_keeps
    | with_reducible apply State.recvBlock_keeps
    | with_reducible apply keepsO_next
    | with_reducible exact keepsO_fault

theorem execLeap_keeps {s0 s : State} (t b payload : Nat) (hs : Keeps s0 s) : KeepsO s0 (execLeap t b payload s) := by
  unfold execLeap
  repeat' first
    | with_reducible assumption
    | with_reducible apply ite_pred
    | with_reducible apply State.at_keeps
    | with_reducible apply State.recvBlock_keeps
    | with_reducible apply keepsO_next
    | with_reducible exact keepsO_fault

theorem execLinkTrigger_keeps {s0 s : State} (t b payload : Nat) (hs : Keeps s0 s) :
    KeepsO s0 (execLinkTrigger t b payload s) := by
  unfold execLinkTrigger
  repeat' first
    | with_reducible assumption
    | with_reducible apply ite_pred
    | with_reducible apply State.at_keeps
    | with_reducible apply State.recvBlock_keeps
    | with_reducible apply keepsO_next
    | with_reducible exact keepsO_fault

theorem execTrain_keeps {s0 s : State} (t lane payload : Nat) (hs : Keeps s0 s) :
    KeepsO s0 (execTrain t lane payload s) := by
  unfold execTrain
  repeat' first
    | with_reducible assumption
    | with_reducible apply ite_pred
    | with_reducible apply State.at_keeps
    | with_reducible apply State.recvTrain_keeps
    | with_reducible apply keepsO_next
    | with_reducible exact keepsO_fault

theorem execP1_keeps {s0 s : State} (t lane payload : Nat) (hs : Keeps s0 s) : KeepsO s0 (execP1 t lane payload s) := by
  unfold execP1
  repeat' first
    | with_reducible assumption
    | with_reducible apply ite_pred
    | with_reducible apply State.at_keeps
    | with_reducible apply State.recvP1_keeps
    | with_reducible apply keepsO_next
    | with_reducible exact keepsO_fault

theorem execUnknownBlock_keeps {s0 s : State} (t b payload : Nat) (hs : Keeps s0 s) :
    KeepsO s0 (execUnknownBlock t b payload s) := by
  unfold execUnknownBlock
  repeat' first
    | with_reducible assumption
    | with_reducible apply ite_pred
    | with_reducible apply State.at_keeps
    | with_reducible apply State.recvBlock_keeps
    | with_reducible apply keepsO_next
    | with_reducible exact keepsO_fault

theorem execRead_keeps {s0 s : State} (t b : Nat) (words : List Nat) (hs : Keeps s0 s) :
    KeepsO s0 (execRead t b words s) := by
  unfold execRead
  repeat' first
    | with_reducible assumption
    | with_reducible apply ite_pred
    | with_reducible apply State.at_keeps
    | with_reducible apply State.recvPacket_keeps
    | with_reducible apply keepsO_next
    | with_reducible exact keepsO_fault

theorem execWritePacket_keeps {s0 s : State} (t b : Nat) (words : List Nat) (hs : Keeps s0 s) :
    KeepsO s0 (execWritePacket t b words s) := by
  unfold execWritePacket
  repeat' first
    | with_reducible assumption
    | with_reducible apply ite_pred
    | with_reducible apply State.at_keeps
    | with_reducible apply State.recvPacket_keeps
    | with_reducible apply keepsO_next
    | with_reducible exact keepsO_fault

/-! ## Dispatch -/

theorem exec_keeps {s0 s : State} (i : Instr) (hs : Keeps s0 s) : KeepsO s0 (exec i s) := by
  cases i with
  | uvloRise _ => exact execUvloRise_keeps (hs := hs) ..
  | auxEntry _ => exact execAuxEntry_keeps (hs := hs) ..
  | aoRelease _ => exact execAoRelease_keeps (hs := hs) ..
  | uvloFall _ => exact execUvloFall_keeps (hs := hs) ..
  | lowInput _ _ => exact execLowInput_keeps (hs := hs) ..
  | overvoltage _ => exact execOvervoltage_keeps (hs := hs) ..
  | hotSwapTrip _ _ _ => exact execHotSwapTrip_keeps (hs := hs) ..
  | fastTrip _ _ => exact execFastTrip_keeps (hs := hs) ..
  | fetRetry _ => exact execFetRetry_keeps (hs := hs) ..
  | fetRestart _ _ => exact execFetRestart_keeps (hs := hs) ..
  | peakClear _ _ => exact execPeakClear_keeps (hs := hs) ..
  | heartbeatLost _ => exact execHeartbeatLost_keeps (hs := hs) ..
  | telemetryFrame _ _ _ _ _ => exact execTelemetryFrame_keeps (hs := hs) ..
  | busEn _ _ => exact execBusEn_keeps (hs := hs) ..
  | railEnable _ => exact execRailEnable_keeps (hs := hs) ..
  | pmbusAlert _ _ _ _ => exact execPmbusAlert_keeps (hs := hs) ..
  | railRetry _ _ => exact execRailRetry_keeps (hs := hs) ..
  | thermalShutdown _ _ => exact execThermalShutdown_keeps (hs := hs) ..
  | thermalCooldown _ => exact execThermalCooldown_keeps (hs := hs) ..
  | protectiveRestart _ => exact execProtectiveRestart_keeps (hs := hs) ..
  | reboot _ _ => exact execReboot_keeps (hs := hs) ..
  | governorTick _ _ _ => exact execGovernorTick_keeps (hs := hs) ..
  | islandFloor _ _ _ _ => exact execIslandFloor_keeps (hs := hs) ..
  | wakeIsland _ _ => exact execWakeIsland_keeps (hs := hs) ..
  | islandDrained _ _ => exact execIslandDrained_keeps (hs := hs) ..
  | islandUnlock _ _ => exact execIslandUnlock_keeps (hs := hs) ..
  | islandRelock _ _ _ => exact execIslandRelock_keeps (hs := hs) ..
  | is8Unlock _ => exact execIs8Unlock_keeps (hs := hs) ..
  | is8Relock _ => exact execIs8Relock_keeps (hs := hs) ..
  | restorationDone _ _ => exact execRestorationDone_keeps (hs := hs) ..
  | restorationTimeout _ _ => exact execRestorationTimeout_keeps (hs := hs) ..
  | restorationHeld _ _ => exact execRestorationHeld_keeps (hs := hs) ..
  | sfdpRead _ _ _ _ _ => exact execSfdpRead_keeps (hs := hs) ..
  | slotSelect _ _ _ _ => exact execSlotSelect_keeps (hs := hs) ..
  | pass1 _ _ => exact execPass1_keeps (hs := hs) ..
  | pass2 _ _ _ => exact execPass2_keeps (hs := hs) ..
  | flashTimeout _ => exact execFlashTimeout_keeps (hs := hs) ..
  | write _ => exact execWrite_keeps (hs := hs) ..
  | modify _ => exact execModify_keeps (hs := hs) ..
  | poll _ => exact execPoll_keeps (hs := hs) ..
  | pollTimeout _ => exact execPollTimeout_keeps (hs := hs) ..
  | delay _ => exact execDelay_keeps (hs := hs) ..
  | listBlock _ => exact execListBlock_keeps (hs := hs) ..
  | refLock _ _ _ _ _ => exact execRefLock_keeps (hs := hs) ..
  | holdover _ _ _ => exact execHoldover_keeps (hs := hs) ..
  | ppsEdge _ _ _ _ => exact execPpsEdge_keeps (hs := hs) ..
  | ppsMissing _ => exact execPpsMissing_keeps (hs := hs) ..
  | alignWaitTimeout _ => exact execAlignWaitTimeout_keeps (hs := hs) ..
  | realign _ _ => exact execRealign_keeps (hs := hs) ..
  | realignTimeout _ => exact execRealignTimeout_keeps (hs := hs) ..
  | setSec _ _ => exact execSetSec_keeps (hs := hs) ..
  | leapAnnounce _ _ _ _ => exact execLeapAnnounce_keeps (hs := hs) ..
  | sysrefBurst _ _ => exact execSysrefBurst_keeps (hs := hs) ..
  | secondBoundary _ => exact execSecondBoundary_keeps (hs := hs) ..
  | frameBoundary _ _ => exact execFrameBoundary_keeps (hs := hs) ..
  | frameCommit _ _ => exact execFrameCommit_keeps (hs := hs) ..
  | sysrefPulse _ _ _ => exact execSysrefPulse_keeps (hs := hs) ..
  | periodicAnchor _ _ => exact execPeriodicAnchor_keeps (hs := hs) ..
  | gapAnchor _ _ => exact execGapAnchor_keeps (hs := hs) ..
  | armChannel _ _ _ => exact execArmChannel_keeps (hs := hs) ..
  | disarmChannel _ _ _ => exact execDisarmChannel_keeps (hs := hs) ..
  | channelStart _ _ _ _ => exact execChannelStart_keeps (hs := hs) ..
  | edge _ _ _ _ => exact execEdge_keeps (hs := hs) ..
  | runtPulse _ _ _ _ _ => exact execRuntPulse_keeps (hs := hs) ..
  | overflowEnd _ _ => exact execOverflowEnd_keeps (hs := hs) ..
  | recordToFabric _ _ => exact execRecordToFabric_keeps (hs := hs) ..
  | calibrationHit _ _ _ => exact execCalibrationHit_keeps (hs := hs) ..
  | calTableBuild _ _ => exact execCalTableBuild_keeps (hs := hs) ..
  | calRestart _ _ _ => exact execCalRestart_keeps (hs := hs) ..
  | feCommit _ _ _ => exact execFeCommit_keeps (hs := hs) ..
  | commitApplyEarly _ _ _ _ => exact execCommitApplyEarly_keeps (hs := hs) ..
  | settleEnd _ _ => exact execSettleEnd_keeps (hs := hs) ..
  | overdriveStart _ _ _ => exact execOverdriveStart_keeps (hs := hs) ..
  | overdriveEnd _ _ => exact execOverdriveEnd_keeps (hs := hs) ..
  | windowEnable _ _ _ _ => exact execWindowEnable_keeps (hs := hs) ..
  | windowAssert _ _ _ => exact execWindowAssert_keeps (hs := hs) ..
  | windowDeassert _ _ _ => exact execWindowDeassert_keeps (hs := hs) ..
  | windowHoldEnd _ _ => exact execWindowHoldEnd_keeps (hs := hs) ..
  | beRetire _ _ _ => exact execBeRetire_keeps (hs := hs) ..
  | retireNow _ _ _ => exact execRetireNow_keeps (hs := hs) ..
  | beReturn _ _ _ => exact execBeReturn_keeps (hs := hs) ..
  | switch _ _ _ => exact execSwitch_keeps (hs := hs) ..
  | spareWarmupTimeout _ _ => exact execSpareWarmupTimeout_keeps (hs := hs) ..
  | rejoin _ _ => exact execRejoin_keeps (hs := hs) ..
  | backendFault _ _ => exact execBackendFault_keeps (hs := hs) ..
  | interpolatorNoHits _ _ => exact execInterpolatorNoHits_keeps (hs := hs) ..
  | startWaveform _ _ _ => exact execStartWaveform_keeps (hs := hs) ..
  | disarmWaveform _ _ _ => exact execDisarmWaveform_keeps (hs := hs) ..
  | ingestStart _ _ => exact execIngestStart_keeps (hs := hs) ..
  | embRelease _ _ _ _ _ _ => exact execEmbRelease_keeps (hs := hs) ..
  | jesdCrcError _ _ => exact execJesdCrcError_keeps (hs := hs) ..
  | ingestFault _ _ => exact execIngestFault_keeps (hs := hs) ..
  | waveformCommit _ _ _ => exact execWaveformCommit_keeps (hs := hs) ..
  | waveformSettleEnd _ _ => exact execWaveformSettleEnd_keeps (hs := hs) ..
  | convEnd _ _ => exact execConvEnd_keeps (hs := hs) ..
  | windowOpen _ _ => exact execWindowOpen_keeps (hs := hs) ..
  | windowClose _ _ => exact execWindowClose_keeps (hs := hs) ..
  | startContext _ _ _ => exact execStartContext_keeps (hs := hs) ..
  | disarmContext _ _ _ => exact execDisarmContext_keeps (hs := hs) ..
  | contextRestart _ _ _ => exact execContextRestart_keeps (hs := hs) ..
  | stabClear _ _ _ => exact execStabClear_keeps (hs := hs) ..
  | engineUpdate _ _ => exact execEngineUpdate_keeps (hs := hs) ..
  | gateTimeout _ _ => exact execGateTimeout_keeps (hs := hs) ..
  | publish _ _ => exact execPublish_keeps (hs := hs) ..
  | contextMove _ _ => exact execContextMove_keeps (hs := hs) ..
  | armAcquisition _ _ _ => exact execArmAcquisition_keeps (hs := hs) ..
  | disarmAcquisition _ _ _ => exact execDisarmAcquisition_keeps (hs := hs) ..
  | fillStart _ _ => exact execFillStart_keeps (hs := hs) ..
  | ready _ _ => exact execReady_keeps (hs := hs) ..
  | autoTimeout _ _ => exact execAutoTimeout_keeps (hs := hs) ..
  | intervalTimeout _ _ _ => exact execIntervalTimeout_keeps (hs := hs) ..
  | force _ _ _ => exact execForce_keeps (hs := hs) ..
  | abort _ _ _ => exact execAbort_keeps (hs := hs) ..
  | captureClose _ _ => exact execCaptureClose_keeps (hs := hs) ..
  | panRelease _ _ _ => exact execPanRelease_keeps (hs := hs) ..
  | freeze _ _ _ _ => exact execFreeze_keeps (hs := hs) ..
  | clear _ _ _ => exact execClear_keeps (hs := hs) ..
  | clearDone _ _ => exact execClearDone_keeps (hs := hs) ..
  | release _ _ _ => exact execRelease_keeps (hs := hs) ..
  | stagingMerge _ _ => exact execStagingMerge_keeps (hs := hs) ..
  | sweepComplete _ _ => exact execSweepComplete_keeps (hs := hs) ..
  | tapEdge _ _ => exact execTapEdge_keeps (hs := hs) ..
  | maskSpanPassed _ _ => exact execMaskSpanPassed_keeps (hs := hs) ..
  | ruleEnable _ _ _ _ => exact execRuleEnable_keeps (hs := hs) ..
  | presenceWindowEnd _ _ => exact execPresenceWindowEnd_keeps (hs := hs) ..
  | targetEdgeExpiry _ _ => exact execTargetEdgeExpiry_keeps (hs := hs) ..
  | verdict _ _ => exact execVerdict_keeps (hs := hs) ..
  | markerArm _ _ _ => exact execMarkerArm_keeps (hs := hs) ..
  | markerDisarm _ _ _ => exact execMarkerDisarm_keeps (hs := hs) ..
  | firing _ _ _ => exact execFiring_keeps (hs := hs) ..
  | pulseEnd _ _ _ => exact execPulseEnd_keeps (hs := hs) ..
  | tripSelect _ _ _ _ _ => exact execTripSelect_keeps (hs := hs) ..
  | tripCfg _ _ _ _ => exact execTripCfg_keeps (hs := hs) ..
  | go _ _ _ => exact execGo_keeps (hs := hs) ..
  | disable _ _ _ => exact execDisable_keeps (hs := hs) ..
  | pause _ _ _ => exact execPause_keeps (hs := hs) ..
  | pauseDrained _ _ => exact execPauseDrained_keeps (hs := hs) ..
  | resume _ _ _ => exact execResume_keeps (hs := hs) ..
  | listCommit _ _ _ => exact execListCommit_keeps (hs := hs) ..
  | sluiceBurst _ _ _ => exact execSluiceBurst_keeps (hs := hs) ..
  | descriptorComplete _ _ => exact execDescriptorComplete_keeps (hs := hs) ..
  | engineHalt _ _ _ => exact execEngineHalt_keeps (hs := hs) ..
  | autoRestore _ => exact execAutoRestore_keeps (hs := hs) ..
  | engineResume _ _ => exact execEngineResume_keeps (hs := hs) ..
  | disableAll _ _ => exact execDisableAll_keeps (hs := hs) ..
  | laneEnable _ _ _ _ => exact execLaneEnable_keeps (hs := hs) ..
  | laneStartTime _ => exact execLaneStartTime_keeps (hs := hs) ..
  | attempt _ _ => exact execAttempt_keeps (hs := hs) ..
  | signal _ _ => exact execSignal_keeps (hs := hs) ..
  | lock _ _ => exact execLock_keeps (hs := hs) ..
  | adapt _ _ _ _ => exact execAdapt_keeps (hs := hs) ..
  | ffe _ _ => exact execFfe_keeps (hs := hs) ..
  | trainingTimeout _ _ => exact execTrainingTimeout_keeps (hs := hs) ..
  | los _ _ => exact execLos_keeps (hs := hs) ..
  | lostLock _ _ => exact execLostLock_keeps (hs := hs) ..
  | seekRetry _ _ _ => exact execSeekRetry_keeps (hs := hs) ..
  | retrain _ _ _ => exact execRetrain_keeps (hs := hs) ..
  | eyeMeasurement _ _ _ _ => exact execEyeMeasurement_keeps (hs := hs) ..
  | adaptationUpdate _ _ _ => exact execAdaptationUpdate_keeps (hs := hs) ..
  | adaptationFreeze _ _ => exact execAdaptationFreeze_keeps (hs := hs) ..
  | slip _ _ _ => exact execSlip_keeps (hs := hs) ..
  | laneRetire _ _ _ => exact execLaneRetire_keeps (hs := hs) ..
  | laneReturn _ _ _ => exact execLaneReturn_keeps (hs := hs) ..
  | p1Req _ _ _ _ => exact execP1Req_keeps (hs := hs) ..
  | p2 _ _ _ => exact execP2_keeps (hs := hs) ..
  | p2Exit _ _ _ => exact execP2Exit_keeps (hs := hs) ..
  | p2ExitTimeout _ _ => exact execP2ExitTimeout_keeps (hs := hs) ..
  | linkUp _ _ _ _ => exact execLinkUp_keeps (hs := hs) ..
  | alignSlot _ _ => exact execAlignSlot_keeps (hs := hs) ..
  | align _ _ _ => exact execAlign_keeps (hs := hs) ..
  | data _ _ _ => exact execData_keeps (hs := hs) ..
  | stream _ _ _ => exact execStream_keeps (hs := hs) ..
  | credit _ _ _ => exact execCredit_keeps (hs := hs) ..
  | creditRepeat _ _ _ => exact execCreditRepeat_keeps (hs := hs) ..
  | start _ _ _ => exact execStart_keeps (hs := hs) ..
  | timeSet _ _ _ => exact execTimeSet_keeps (hs := hs) ..
  | leap _ _ _ => exact execLeap_keeps (hs := hs) ..
  | linkTrigger _ _ _ => exact execLinkTrigger_keeps (hs := hs) ..
  | train _ _ _ => exact execTrain_keeps (hs := hs) ..
  | p1 _ _ _ => exact execP1_keeps (hs := hs) ..
  | unknownBlock _ _ _ => exact execUnknownBlock_keeps (hs := hs) ..
  | read _ _ _ => exact execRead_keeps (hs := hs) ..
  | writePacket _ _ _ => exact execWritePacket_keeps (hs := hs) ..
  | read8 _ _ _ => exact execRead8_keeps (hs := hs) ..
  | read16 _ _ _ => exact execRead16_keeps (hs := hs) ..
  | read32 _ _ _ => exact execRead32_keeps (hs := hs) ..
  | write32 _ _ _ _ => exact execWrite32_keeps (hs := hs) ..
  | phase _ => exact execPhase_keeps (hs := hs) ..
  | spiCutShort _ _ _ _ _ => exact execSpiCutShort_keeps (hs := hs) ..
  | regacc _ _ => exact execRegacc_keeps (hs := hs) ..
  | captureDr _ => exact execCaptureDr_keeps (hs := hs) ..
  | idcode _ => exact execIdcode_keeps (hs := hs) ..
  | bypass _ => exact execBypass_keeps (hs := hs) ..
  | samplePreload _ _ _ => exact execSamplePreload_keeps (hs := hs) ..
  | extest _ _ => exact execExtest_keeps (hs := hs) ..
  | registerWrite _ _ _ _ => exact execRegisterWrite_keeps (hs := hs) ..
  | eventWriteBack _ _ _ _ => exact execEventWriteBack_keeps (hs := hs) ..
  | tideGate _ _ _ => exact execTideGate_keeps (hs := hs) ..
  | harvest _ _ => exact execHarvest_keeps (hs := hs) ..
  | harvestInstant _ => exact execHarvestInstant_keeps (hs := hs) ..
  | harvestDone _ => exact execHarvestDone_keeps (hs := hs) ..
  | enterTest _ _ => exact execEnterTest_keeps (hs := hs) ..
  | leaveTest _ _ => exact execLeaveTest_keeps (hs := hs) ..
  | hbmTrained _ => exact execHbmTrained_keeps (hs := hs) ..
  | lifeHour _ _ => exact execLifeHour_keeps (hs := hs) ..
  | hourly _ => exact execHourly_keeps (hs := hs) ..
  | ledgerSync _ _ => exact execLedgerSync_keeps (hs := hs) ..
  | ledgerWrite _ _ => exact execLedgerWrite_keeps (hs := hs) ..
  | patrolRead _ _ _ _ _ => exact execPatrolRead_keeps (hs := hs) ..
  | refreshDue _ => exact execRefreshDue_keeps (hs := hs) ..
  | refresh _ _ => exact execRefresh_keeps (hs := hs) ..
  | refreshAutoStart _ => exact execRefreshAutoStart_keeps (hs := hs) ..
  | refreshSector _ _ _ _ => exact execRefreshSector_keeps (hs := hs) ..
  | unitRetire _ _ _ _ => exact execUnitRetire_keeps (hs := hs) ..
  | unitReturn _ _ _ _ => exact execUnitReturn_keeps (hs := hs) ..
  | migrationDone _ => exact execMigrationDone_keeps (hs := hs) ..
  | engineMoveDone _ => exact execEngineMoveDone_keeps (hs := hs) ..
  | embLock _ _ => exact execEmbLock_keeps (hs := hs) ..
  | laneQuadFault _ _ => exact execLaneQuadFault_keeps (hs := hs) ..
  | hbmTrainingStart _ => exact execHbmTrainingStart_keeps (hs := hs) ..
  | hbmRetrainingFail _ => exact execHbmRetrainingFail_keeps (hs := hs) ..
  | p2ExitComplete _ _ => exact execP2ExitComplete_keeps (hs := hs) ..
  | p1SignalReturn _ _ => exact execP1SignalReturn_keeps (hs := hs) ..

end Sys2Proof.Machine
end

