-- ==== Sys2Proof/Laws/SameDev.lean ====
section
/-!
SUPPORT. Parts of a command that leave the state of the device as it stands: the relation, and the named operations that have it.
-/

namespace Sys2Proof.Machine

/-- Two states with the same device state (R28), and the same one to return to. -/
def SameDev (s0 s : State) : Prop := s.dev = s0.dev ∧ s.prev = s0.prev

/-- The same of the state in a pair, and of an outcome that is a next state. -/
def SameDevP {α : Type} (s0 : State) (x : α × State) : Prop := SameDev s0 x.2
def SameDevF {α : Type} (s0 : State) (x : State × α) : Prop := SameDev s0 x.1
def SameDevO (s0 : State) (x : Host.Outcome State Fault Refusal) : Prop :=
  match x with
  | .next s => SameDev s0 s
  | .fault _ => True
  | .refused _ => True

theorem SameDev.refl (s : State) : SameDev s s := ⟨rfl, rfl⟩

theorem SameDevP.snd {α : Type} {s0 s : State} {a : α} {p : α × State} (e : p = (a, s)) (h : SameDevP s0 p) :
    SameDev s0 s := by
  subst e; exact h

theorem SameDevF.fst {α : Type} {s0 s : State} {a : α} {p : State × α} (e : p = (s, a)) (h : SameDevF s0 p) :
    SameDev s0 s := by
  subst e; exact h

theorem SameDevP.proj {α : Type} {s0 : State} {p : α × State} (h : SameDevP s0 p) : SameDev s0 p.2 := h
theorem SameDevF.proj {α : Type} {s0 : State} {p : State × α} (h : SameDevF s0 p) : SameDev s0 p.1 := h
theorem sameDevP_mk {α : Type} {s0 s : State} {a : α} : SameDevP s0 (a, s) ↔ SameDev s0 s := Iff.rfl
theorem sameDevF_mk {α : Type} {s0 s : State} {a : α} : SameDevF s0 (s, a) ↔ SameDev s0 s := Iff.rfl
theorem sameDevO_next {s0 s : State} (h : SameDev s0 s) : SameDevO s0 (.next s) := h
theorem sameDevO_fault {s0 : State} {e : Fault} : SameDevO s0 (.fault e) := trivial

theorem sameDev_mk {s0 s : State} {now' : Nat} {devAt' : Nat} {pkts' : List (Nat × Nat)} {share' : Share} {regs' : SMap Nat}
    {force' : SMap Nat} {ports' : SMap Port} {seqNo' : Nat} {mem' : List Host.Cell} {time' : TimeBase} {power' :
    Power} {boot' : BootCtl} {gov' : Gov} {islands' : SMap Island} {restore' : SMap Restore} {sources' : SMap
    Source} {ends' : SMap BackEnd} {chans' : SMap Chan} {waves' : SMap Wave} {slots' : SMap Slot} {ctxs' : SMap Ctx}
    {stabs' : SMap Stab} {engines' : SMap Engine} {acqs' : SMap Acq} {pans' : SMap Pan} {crys' : SMap Cry} {masks' :
    SMap Mask} {rules' : SMap Rule} {markers' : SMap Marker} {trips' : SMap TripOut} {slus' : SMap Slu} {slu' :
    SluEngine} {lanes' : SMap Lane} {quads' : SMap Quad} {links' : SMap Link} {life' : Life} {hbm' : Hbm} {bank' :
    Bank} {jtag' : Jtag} {pending' : List Instr} : SameDev s0 (State.mk now' s.dev s.prev devAt' pkts' regs' force'
    ports' seqNo' mem' time' power' boot' gov' islands' restore' sources' ends' chans' waves' slots' ctxs' stabs'
    engines' acqs' share' pans' crys' masks' rules' markers' trips' slus' slu' lanes' quads' links' life' hbm' bank'
    jtag' pending') ↔ SameDev s0 s := Iff.rfl

theorem State.setPort_sameDev {s0 s : State} (h : SameDev s0 s) (n : Nat) (v : Port) : SameDev s0 (s.setPort n v) := h
theorem State.setSrc_sameDev {s0 s : State} (h : SameDev s0 s) (n : Nat) (v : Source) : SameDev s0 (s.setSrc n v) := h
theorem State.setBe_sameDev {s0 s : State} (h : SameDev s0 s) (n : Nat) (v : BackEnd) : SameDev s0 (s.setBe n v) := h
theorem State.setChan_sameDev {s0 s : State} (h : SameDev s0 s) (n : Nat) (v : Chan) : SameDev s0 (s.setChan n v) := h
theorem State.setWave_sameDev {s0 s : State} (h : SameDev s0 s) (n : Nat) (v : Wave) : SameDev s0 (s.setWave n v) := h
theorem State.setSlot_sameDev {s0 s : State} (h : SameDev s0 s) (n : Nat) (v : Slot) : SameDev s0 (s.setSlot n v) := h
theorem State.setCtx_sameDev {s0 s : State} (h : SameDev s0 s) (n : Nat) (v : Ctx) : SameDev s0 (s.setCtx n v) := h
theorem State.setStab_sameDev {s0 s : State} (h : SameDev s0 s) (n : Nat) (v : Stab) : SameDev s0 (s.setStab n v) := h
theorem State.setEngine_sameDev {s0 s : State} (h : SameDev s0 s) (n : Nat) (v : Engine) : SameDev s0 (s.setEngine n
    v) := h
theorem State.setAcq_sameDev {s0 s : State} (h : SameDev s0 s) (n : Nat) (v : Acq) : SameDev s0 (s.setAcq n v) := h
theorem State.setPan_sameDev {s0 s : State} (h : SameDev s0 s) (n : Nat) (v : Pan) : SameDev s0 (s.setPan n v) := h
theorem State.setCry_sameDev {s0 s : State} (h : SameDev s0 s) (n : Nat) (v : Cry) : SameDev s0 (s.setCry n v) := h
theorem State.setMask_sameDev {s0 s : State} (h : SameDev s0 s) (n : Nat) (v : Mask) : SameDev s0 (s.setMask n v) := h
theorem State.setRule_sameDev {s0 s : State} (h : SameDev s0 s) (n : Nat) (v : Rule) : SameDev s0 (s.setRule n v) := h
theorem State.setMarker_sameDev {s0 s : State} (h : SameDev s0 s) (n : Nat) (v : Marker) : SameDev s0 (s.setMarker n
    v) := h
theorem State.setTrip_sameDev {s0 s : State} (h : SameDev s0 s) (n : Nat) (v : TripOut) : SameDev s0 (s.setTrip n v)
    := h
theorem State.setSl_sameDev {s0 s : State} (h : SameDev s0 s) (n : Nat) (v : Slu) : SameDev s0 (s.setSl n v) := h
theorem State.setLane_sameDev {s0 s : State} (h : SameDev s0 s) (n : Nat) (v : Lane) : SameDev s0 (s.setLane n v) := h
theorem State.setQuad_sameDev {s0 s : State} (h : SameDev s0 s) (n : Nat) (v : Quad) : SameDev s0 (s.setQuad n v) := h
theorem State.setLink_sameDev {s0 s : State} (h : SameDev s0 s) (n : Nat) (v : Link) : SameDev s0 (s.setLink n v) := h
theorem State.setIsland_sameDev {s0 s : State} (h : SameDev s0 s) (n : Nat) (v : Island) : SameDev s0 (s.setIsland n
    v) := h
theorem State.setRest_sameDev {s0 s : State} (h : SameDev s0 s) (n : Nat) (v : Restore) : SameDev s0 (s.setRest n v)
    := h
theorem State.put_sameDev {s0 s : State} (h : SameDev s0 s) (f : Fld) (i v : Nat) : SameDev s0 (s.put f i v) := h
theorem State.apply_sameDev {s0 s : State} (h : SameDev s0 s) (f : Fld) (i : Nat) : SameDev s0 (s.apply f i) := h
theorem State.at_sameDev {s0 s : State} (h : SameDev s0 s) (t : Nat) : SameDev s0 (s.at t) := h
theorem State.free_sameDev {s0 s : State} (h : SameDev s0 s) : SameDevP s0 s.free := h
theorem State.writeByte_sameDev {s0 s : State} (h : SameDev s0 s) (a : Nat) (b : BitVec 8) : SameDev s0 (s.writeByte a b) := h
theorem State.writeBytes_sameDev {s0 s : State} (h : SameDev s0 s) (a : Nat) (bs : List (BitVec 8)) : SameDev s0
    (s.writeBytes a bs) := h

/-! ## Ops -/

theorem State.applyAll_sameDev {s0 s : State} (hs : SameDev s0 s) (fs : List Fld) (i : Nat) :
    SameDev s0 (s.applyAll fs i) := by
  unfold State.applyAll
  repeat' first
    | with_reducible assumption
    | with_reducible refine foldl_pred (fun _ _ _ => ?_) ?_
    | with_reducible apply State.apply_sameDev

theorem State.bump_sameDev {s0 s : State} (hs : SameDev s0 s) (f : Fld) (i : Nat) : SameDev s0 (s.bump f i) := by
  unfold State.bump
  repeat' first | with_reducible assumption | with_reducible apply State.put_sameDev

theorem State.count_sameDev {s0 s : State} (hs : SameDev s0 s) (f : Fld) (i n : Nat) : SameDev s0 (s.count f i n) := by
  unfold State.count
  repeat' first | with_reducible assumption | with_reducible apply State.put_sameDev

theorem State.raise_sameDev {s0 s : State} (hs : SameDev s0 s) (f : Fld) (i : Nat) : SameDev s0 (s.raise f i) := by
  unfold State.raise
  repeat' first
    | with_reducible assumption
    | with_reducible apply State.put_sameDev
    | with_reducible apply State.bump_sameDev

theorem State.writeLe_sameDev {s0 s : State} (hs : SameDev s0 s) (a n v : Nat) : SameDev s0 (s.writeLe a n v) := by
  unfold State.writeLe
  repeat' first | with_reducible assumption | with_reducible apply State.writeBytes_sameDev

theorem State.writeWords_sameDev {s0 s : State} (hs : SameDev s0 s) (a : Nat) (ws : List Nat) :
    SameDev s0 (s.writeWords a ws) := by
  unfold State.writeWords
  repeat' first | with_reducible assumption | with_reducible apply State.writeBytes_sameDev

theorem State.cleanUnits_sameDev {s0 s : State} (hs : SameDev s0 s) (a n : Nat) : SameDev s0 (s.cleanUnits a n) := hs

/-! ## Blocks -/

theorem State.sendBlock_sameDev {s0 s : State} (hs : SameDev s0 s) (b w : Nat) : SameDev s0 (s.sendBlock b w) := by
  unfold State.sendBlock
  dsimp only
  repeat' first | with_reducible assumption | with_reducible apply State.setLink_sameDev

/-! ## Records -/

theorem State.noteOverflow_sameDev {s0 s : State} (hs : SameDev s0 s) (k : Nat) (buffer : Bool) :
    SameDev s0 (s.noteOverflow k buffer) := by
  unfold State.noteOverflow
  dsimp only
  repeat' first
    | with_reducible assumption
    | with_reducible apply ite_pred
    | with_reducible apply State.count_sameDev
    | with_reducible apply State.raise_sameDev

theorem State.beginCause_sameDev {s0 s : State} (hs : SameDev s0 s) (k c : Nat) (uncounted : Bool) :
    SameDev s0 (s.beginCause k c uncounted) := by
  unfold State.beginCause
  try dsimp only
  repeat' first
    | with_reducible assumption
    | with_reducible apply ite_pred
    | with_reducible apply State.setSrc_sameDev
    | with_reducible apply State.noteOverflow_sameDev
    | simp only [sameDev_mk]
    | split

theorem State.noteLost_sameDev {s0 s : State} (hs : SameDev s0 s) (k : Nat) (e : Episode) :
    SameDev s0 (s.noteLost k e) := by
  unfold State.noteLost
  repeat' first
    | with_reducible assumption
    | with_reducible apply ite_pred
    | with_reducible apply State.count_sameDev

theorem State.putAnchor_sameDev {s0 s : State} (hs : SameDev s0 s) (k reason : Nat) (t : Int) :
    SameDev s0 (s.putAnchor k reason t) := by
  unfold State.putAnchor
  dsimp only
  repeat' first | with_reducible assumption | with_reducible apply State.setSrc_sameDev

theorem State.dueAnchor_sameDev {s0 s : State} (hs : SameDev s0 s) (k reason : Nat) (t : Int) :
    SameDev s0 (s.dueAnchor k reason t) := by
  unfold State.dueAnchor
  repeat' first
    | with_reducible assumption
    | with_reducible apply ite_pred
    | with_reducible apply State.putAnchor_sameDev
    | with_reducible apply State.beginCause_sameDev

theorem State.dueMarker_sameDev {s0 s : State} (hs : SameDev s0 s) (k : Nat) (t : Int) (i : Item) :
    SameDev s0 (s.dueMarker k t i) := by
  unfold State.dueMarker
  try dsimp only
  repeat' first
    | with_reducible assumption
    | with_reducible apply ite_pred
    | with_reducible apply State.setSrc_sameDev
    | with_reducible apply State.beginCause_sameDev

theorem State.stopNow_sameDev {s0 s : State} (hs : SameDev s0 s) (k : Nat) (t : Int) (markers : List Item) :
    SameDev s0 (s.stopNow k t markers) := by
  unfold State.stopNow
  try dsimp only
  repeat' first
    | with_reducible assumption
    | with_reducible apply State.noteLost_sameDev
    | with_reducible apply State.setSrc_sameDev
    | simp only [sameDev_mk]
    | split

theorem State.endCauses_sameDev {s0 s : State} (hs : SameDev s0 s) (k : Nat) (cs : List Nat) (t : Int) (markers
    : List Item) (reason : Nat) :
    SameDev s0 (s.endCauses k cs t markers reason) := by
  unfold State.endCauses
  try dsimp only
  repeat' first
    | with_reducible assumption
    | with_reducible apply ite_pred
    | with_reducible apply State.setSrc_sameDev
    | with_reducible apply State.noteLost_sameDev
    | with_reducible apply State.putAnchor_sameDev
    | simp only [sameDev_mk]
    | split

theorem State.meet_sameDev {s0 s : State} (hs : SameDev s0 s) (k : Nat) (t : Int) : SameDev s0 (s.meet k t) := by
  unfold State.meet
  try dsimp only
  repeat' first
    | with_reducible assumption
    | with_reducible apply ite_pred
    | with_reducible refine foldl_pred (fun _ _ _ => ?_) ?_
    | with_reducible apply State.setSrc_sameDev
    | with_reducible apply State.stopNow_sameDev
    | with_reducible apply State.endCauses_sameDev
    | with_reducible apply State.dueMarker_sameDev
    | with_reducible apply State.dueAnchor_sameDev
    | simp only [sameDev_mk]
    | split

theorem State.meetAll_sameDev {s0 : State} (k : Nat) (t : Int) (n : Nat) {s : State} (hs : SameDev s0 s) :
    SameDev s0 (State.meetAll k t n s) := by
  induction n generalizing s with
  | zero => exact hs
  | succ n ih =>
    rw [State.meetAll]
    split
    · split
      · exact ih (State.meet_sameDev hs _ _)
      · exact hs
    · exact hs

theorem State.writeDue_sameDev {s0 s : State} (hs : SameDev s0 s) (k : Nat) (t : Int) :
    SameDev s0 (s.writeDue k t) := by
  unfold State.writeDue
  try dsimp only
  repeat' first | with_reducible assumption | with_reducible apply State.meetAll_sameDev

theorem State.flush_sameDev {s0 s : State} (hs : SameDev s0 s) (k : Nat) : SameDev s0 (s.flush k) := by
  unfold State.flush
  repeat' first | with_reducible assumption | with_reducible apply State.writeDue_sameDev

theorem State.pushDue_sameDev {s0 s : State} (hs : SameDev s0 s) (k : Nat) (t : Int) (w : DueWord) :
    SameDev s0 (s.pushDue k t w) := by
  unfold State.pushDue
  try dsimp only
  repeat' first
    | with_reducible assumption
    | with_reducible apply State.setSrc_sameDev
    | with_reducible apply State.flush_sameDev

theorem State.startTaking_sameDev {s0 s : State} (hs : SameDev s0 s) (k : Nat) (t : Int) (reason : Nat) :
    SameDev s0 (s.startTaking k t reason) := by
  unfold State.startTaking
  try dsimp only
  repeat' first
    | with_reducible assumption
    | with_reducible apply State.writeDue_sameDev
    | with_reducible apply State.setSrc_sameDev
    | with_reducible apply State.putAnchor_sameDev

theorem State.stopTaking_sameDev {s0 s : State} (hs : SameDev s0 s) (k : Nat) (t : Int) :
    SameDev s0 (s.stopTaking k t) := by
  unfold State.stopTaking
  repeat' first
    | with_reducible assumption
    | with_reducible apply ite_pred
    | with_reducible apply State.pushDue_sameDev

theorem State.endCause_sameDev {s0 s : State} (hs : SameDev s0 s) (k c : Nat) (t : Int) :
    SameDev s0 (s.endCause k c t) := by
  unfold State.endCause
  repeat' first
    | with_reducible assumption
    | with_reducible apply ite_pred
    | with_reducible apply State.pushDue_sameDev
    | split

theorem State.offerTap_sameDev {s0 s : State} (hs : SameDev s0 s) (k : Nat) (t : Int) (pol : Bool) (f : EdgeFlags) :
    SameDevP s0 (s.offerTap k t pol f) := by
  unfold State.offerTap
  dsimp only
  repeat' first
    | with_reducible assumption
    | with_reducible apply ite_pred
    | with_reducible apply State.setSrc_sameDev
    | simp only [sameDevP_mk]

theorem State.outsideEdge_sameDev {s0 s : State} (hs : SameDev s0 s) (k : Nat) : SameDev s0 (s.outsideEdge k) := by
  unfold State.outsideEdge
  dsimp only
  repeat' first | with_reducible assumption | with_reducible apply State.setSrc_sameDev | split

theorem State.readCounter_sameDev {s0 s : State} (hs : SameDev s0 s) (k n : Nat) : SameDev s0 (s.readCounter k n) := by
  unfold State.readCounter
  dsimp only
  repeat' first | with_reducible assumption | with_reducible apply State.setSrc_sameDev | split

theorem State.countEdge_sameDev {s0 s : State} (hs : SameDev s0 s) (k : Nat) : SameDev s0 (s.countEdge k) := by
  unfold State.countEdge
  repeat' first
    | with_reducible assumption
    | with_reducible apply ite_pred
    | with_reducible apply State.count_sameDev

theorem State.formEdge_sameDev {s0 s : State} (hs : SameDev s0 s) (k : Nat) (t : Int) (pol : Bool) (f :
    EdgeFlags) :
    SameDev s0 (s.formEdge k t pol f) := by
  unfold State.formEdge
  try dsimp only
  repeat' first
    | with_reducible assumption
    | with_reducible apply ite_pred
    | with_reducible apply State.writeDue_sameDev
    | with_reducible apply State.countEdge_sameDev
    | with_reducible apply State.setSrc_sameDev
    | with_reducible apply State.beginCause_sameDev
    | with_reducible apply State.offerTap_sameDev
    | with_reducible apply State.count_sameDev
    | with_reducible refine SameDevP.snd (by assumption) ?_
    | with_reducible apply SameDevP.proj
    | simp only [sameDevP_mk]
    | simp only [sameDev_mk]
    | split

theorem State.takeBy_sameDev {s0 s : State} (hs : SameDev s0 s) (b : Nat) : SameDev s0 (s.takeBy b) := by
  unfold State.takeBy
  repeat' first
    | with_reducible assumption
    | with_reducible apply State.setBe_sameDev

theorem State.stamp_sameDev {s0 s : State} (hs : SameDev s0 s) (k bin : Nat) : SameDevP s0 (s.stamp k bin) := by
  unfold State.stamp
  repeat' first | with_reducible assumption | with_reducible apply State.takeBy_sameDev | simp only [sameDevP_mk]

/-! ## Trips -/

theorem State.assertMarker_sameDev {s0 s : State} (hs : SameDev s0 s) (k fresh : Nat) :
    SameDev s0 (s.assertMarker k fresh) := by
  unfold State.assertMarker
  dsimp only
  repeat' first
    | with_reducible assumption
    | with_reducible apply ite_pred
    | with_reducible apply State.raise_sameDev
    | with_reducible apply State.setMarker_sameDev
    | with_reducible refine times_pred (fun _ _ => ?_) ?_

theorem State.loopEdge_sameDev {s0 s : State} (hs : SameDev s0 s) (k : Nat) (pol : Bool) (bin : Nat) :
    SameDev s0 (s.loopEdge k pol bin) := by
  unfold State.loopEdge
  dsimp only
  repeat' first
    | with_reducible assumption
    | with_reducible apply ite_pred
    | with_reducible apply State.formEdge_sameDev
    | with_reducible apply State.stamp_sameDev
    | with_reducible apply SameDevP.proj

theorem State.endMarker_sameDev {s0 s : State} (hs : SameDev s0 s) (k : Nat) : SameDev s0 (s.endMarker k) := by
  unfold State.endMarker
  try dsimp only
  repeat' first
    | with_reducible assumption
    | with_reducible apply State.stopTaking_sameDev
    | with_reducible apply State.setMarker_sameDev

theorem State.truncate_sameDev {s0 s : State} (hs : SameDev s0 s) (k : Nat) : SameDev s0 (s.truncate k) := by
  unfold State.truncate
  dsimp only
  repeat' first
    | with_reducible assumption
    | with_reducible apply ite_pred
    | with_reducible apply State.count_sameDev
    | with_reducible apply State.free_sameDev
    | with_reducible apply State.setMarker_sameDev
    | with_reducible apply State.loopEdge_sameDev
    | with_reducible apply State.endMarker_sameDev
    | with_reducible apply SameDevP.proj

theorem State.gateMarker_sameDev {s0 s : State} (hs : SameDev s0 s) (k lines : Nat) :
    SameDev s0 (s.gateMarker k lines) := by
  unfold State.gateMarker
  dsimp only
  repeat' first
    | with_reducible assumption
    | with_reducible apply ite_pred
    | with_reducible apply State.setMarker_sameDev
    | with_reducible apply State.assertMarker_sameDev
    | with_reducible apply State.truncate_sameDev

theorem State.gateTrip_sameDev {s0 s : State} (hs : SameDev s0 s) (i lines : Nat) :
    SameDev s0 (s.gateTrip i lines) := by
  unfold State.gateTrip
  try dsimp only
  repeat' first
    | with_reducible assumption
    | with_reducible apply ite_pred
    | with_reducible refine times_pred (fun _ _ => ?_) ?_
    | with_reducible apply State.raise_sameDev
    | with_reducible apply State.count_sameDev
    | with_reducible apply State.setTrip_sameDev

theorem State.settleTrips_sameDev {s0 s : State} (hs : SameDev s0 s) : SameDev s0 s.settleTrips := by
  unfold State.settleTrips
  dsimp only
  repeat' first
    | with_reducible assumption
    | with_reducible refine foldl_pred (fun _ _ _ => ?_) ?_
    | with_reducible apply State.gateMarker_sameDev
    | with_reducible apply State.gateTrip_sameDev

theorem State.startLoop_sameDev {s0 s : State} (hs : SameDev s0 s) (k : Nat) : SameDev s0 (s.startLoop k) := by
  unfold State.startLoop
  try dsimp only
  repeat' first
    | with_reducible assumption
    | with_reducible apply ite_pred
    | with_reducible apply State.startTaking_sameDev

theorem State.releaseNext_sameDev {s0 s : State} (hs : SameDev s0 s) (k : Nat) : SameDev s0 (s.releaseNext k) := by
  unfold State.releaseNext
  dsimp only
  repeat' first
    | with_reducible assumption
    | with_reducible apply ite_pred
    | with_reducible refine foldl_pred (fun _ _ _ => ?_) ?_
    | with_reducible apply State.setMarker_sameDev
    | with_reducible apply State.setTrip_sameDev

theorem State.pulse_sameDev {s0 s : State} (hs : SameDev s0 s) (k bin : Nat) (at_ : Int) :
    SameDev s0 (s.pulse k bin at_) := by
  unfold State.pulse
  dsimp only
  repeat' first
    | with_reducible assumption
    | with_reducible apply ite_pred
    | with_reducible apply State.count_sameDev
    | with_reducible apply State.free_sameDev
    | with_reducible apply State.setMarker_sameDev
    | with_reducible apply State.loopEdge_sameDev
    | with_reducible apply SameDevP.proj

theorem State.fire_sameDev {s0 s : State} (hs : SameDev s0 s) (k bin : Nat) : SameDevP s0 (s.fire k bin) := by
  unfold State.fire
  try dsimp only
  repeat' first
    | with_reducible assumption
    | with_reducible apply ite_pred
    | with_reducible apply State.setMarker_sameDev
    | with_reducible apply State.count_sameDev
    | with_reducible apply State.releaseNext_sameDev
    | with_reducible apply State.pulse_sameDev
    | with_reducible apply State.endMarker_sameDev
    | simp only [sameDevP_mk]
    | simp only [sameDev_mk]
    | split

theorem State.fall_sameDev {s0 s : State} (hs : SameDev s0 s) (k bin : Nat) : SameDev s0 (s.fall k bin) := by
  unfold State.fall
  dsimp only
  repeat' first
    | with_reducible assumption
    | with_reducible apply ite_pred
    | with_reducible apply State.setMarker_sameDev
    | with_reducible apply State.loopEdge_sameDev
    | with_reducible apply State.endMarker_sameDev
    | split

/-! ## Tasks -/

theorem State.submit_sameDev {s0 s : State} (hs : SameDev s0 s) (cls : Nat) (x : Subject) :
    SameDev s0 (s.submit cls x) := by
  unfold State.submit
  repeat' first | with_reducible assumption | simp only [sameDev_mk]

theorem State.withdraw_sameDev {s0 s : State} (hs : SameDev s0 s) (x : Subject) : SameDev s0 (s.withdraw x) := by
  unfold State.withdraw
  dsimp only
  repeat' first | with_reducible assumption | simp only [sameDev_mk]

theorem State.retract_sameDev {s0 s : State} (hs : SameDev s0 s) (x : Subject) : SameDev s0 (s.retract x) := by
  unfold State.retract
  try dsimp only
  repeat' first | with_reducible assumption | with_reducible apply State.withdraw_sameDev | simp only [sameDev_mk]

theorem State.queueWake_sameDev {s0 s : State} (hs : SameDev s0 s) (k cls : Nat) : SameDev s0 (s.queueWake k cls) := by
  unfold State.queueWake
  repeat' first
    | with_reducible assumption
    | with_reducible apply ite_pred
    | with_reducible apply State.submit_sameDev

theorem State.releaseCost_sameDev {s0 s : State} (hs : SameDev s0 s) (x : Subject) :
    SameDev s0 (s.releaseCost x) := by
  unfold State.releaseCost
  repeat' first | with_reducible assumption | simp only [sameDev_mk]

theorem State.touchIsland_sameDev {s0 s : State} (hs : SameDev s0 s) (k : Nat) : SameDev s0 (s.touchIsland k) := by
  unfold State.touchIsland
  dsimp only
  repeat' first | with_reducible assumption | with_reducible apply State.setIsland_sameDev

theorem State.commitCost_sameDev {s0 s : State} (hs : SameDev s0 s) (x : Subject) (cost : Nat) (guard : Bool) :
    SameDev s0 (s.commitCost x cost guard) := by
  unfold State.commitCost
  repeat' first | with_reducible assumption | simp only [sameDev_mk]

/-! ## Engines -/

theorem State.openAt_sameDev {s0 s : State} (hs : SameDev s0 s) (n : Nat) (t : Int) (code : Nat) :
    SameDev s0 (s.openAt n t code) := by
  unfold State.openAt
  dsimp only
  repeat' first | with_reducible assumption | with_reducible apply State.setCtx_sameDev

theorem State.shutAt_sameDev {s0 s : State} (hs : SameDev s0 s) (n : Nat) (t : Int) (code : Nat) :
    SameDev s0 (s.shutAt n t code) := by
  unfold State.shutAt
  repeat' first | with_reducible assumption | with_reducible apply State.setCtx_sameDev

theorem State.cutGates_sameDev {s0 s : State} (hs : SameDev s0 s) (n : Nat) (t : Int) (code : Nat) (renew :
    Bool) :
    SameDev s0 (s.cutGates n t code renew) := by
  unfold State.cutGates
  try dsimp only
  repeat' first
    | with_reducible assumption
    | with_reducible apply ite_pred
    | with_reducible apply State.setCtx_sameDev
    | with_reducible apply State.shutAt_sameDev
    | with_reducible apply State.openAt_sameDev

theorem State.frameGate_sameDev {s0 s : State} (hs : SameDev s0 s) (n : Nat) (t : Int) :
    SameDev s0 (s.frameGate n t) := by
  unfold State.frameGate
  try dsimp only
  repeat' first
    | with_reducible assumption
    | with_reducible apply ite_pred
    | with_reducible apply State.shutAt_sameDev
    | with_reducible apply State.openAt_sameDev
    | split

theorem State.gateEdge_sameDev {s0 s : State} (hs : SameDev s0 s) (n : Nat) (t : Int) :
    SameDev s0 (s.gateEdge n t) := by
  unfold State.gateEdge
  try dsimp only
  repeat' first
    | with_reducible assumption
    | with_reducible apply ite_pred
    | with_reducible apply State.openAt_sameDev
    | with_reducible apply State.shutAt_sameDev
    | with_reducible apply State.setCtx_sameDev
    | simp only [sameDev_mk]
    | split

theorem State.applyUpd_sameDev {s0 s : State} (hs : SameDev s0 s) (n : Nat) (u : Upd) :
    SameDev s0 (s.applyUpd n u) := by
  unfold State.applyUpd
  try dsimp only
  repeat' first
    | with_reducible assumption
    | with_reducible apply ite_pred
    | with_reducible apply State.setCtx_sameDev
    | with_reducible apply State.gateEdge_sameDev
    | with_reducible apply State.cutGates_sameDev
    | with_reducible apply State.shutAt_sameDev
    | simp only [sameDev_mk]
    | split

theorem State.offerUpd_sameDev {s0 s : State} (hs : SameDev s0 s) (n : Nat) (u : Upd) :
    SameDev s0 (s.offerUpd n u) := by
  unfold State.offerUpd
  try dsimp only
  repeat' first
    | with_reducible assumption
    | with_reducible apply ite_pred
    | with_reducible apply State.setEngine_sameDev
    | with_reducible apply State.setCtx_sameDev
    | with_reducible apply State.count_sameDev
    | with_reducible apply State.raise_sameDev

theorem State.drainCtx_sameDev {s0 s : State} (hs : SameDev s0 s) (n : Nat) : SameDev s0 (s.drainCtx n) := by
  unfold State.drainCtx
  dsimp only
  repeat' first
    | with_reducible assumption
    | with_reducible refine foldl_pred (fun _ _ _ => ?_) ?_
    | with_reducible apply State.setEngine_sameDev
    | with_reducible apply State.applyUpd_sameDev

theorem State.settle_sameDev {s0 s : State} (hs : SameDev s0 s) (l : List (Option (Nat × Bool))) :
    SameDevP s0 (s.settle l) := by
  induction l generalizing s with
  | nil => exact hs
  | cons x l ih =>
    cases x with
    | none => exact ih (State.free_sameDev hs)
    | some v => exact ih hs

theorem State.ringBlock_sameDev {s0 s : State} (hs : SameDev s0 s) (words : List Nat) : SameDev s0 (s.ringBlock words) := by
  unfold State.ringBlock
  dsimp only
  repeat' first
    | with_reducible assumption
    | with_reducible apply ite_pred
    | with_reducible apply State.put_sameDev
    | with_reducible apply State.count_sameDev
    | with_reducible apply State.raise_sameDev
    | with_reducible apply State.writeWords_sameDev

theorem State.publishGate_sameDev {s0 s : State} (hs : SameDev s0 s) (n : Nat) : SameDev s0 (s.publishGate n) := by
  unfold State.publishGate
  try dsimp only
  repeat' first
    | with_reducible assumption
    | with_reducible apply ite_pred
    | with_reducible refine foldl_pred (fun _ _ _ => ?_) ?_
    | with_reducible apply State.settle_sameDev
    | with_reducible apply State.free_sameDev
    | with_reducible apply State.setStab_sameDev
    | with_reducible apply State.put_sameDev
    | with_reducible apply State.ringBlock_sameDev
    | with_reducible apply State.setCtx_sameDev
    | with_reducible refine SameDevP.snd (by assumption) ?_
    | with_reducible apply SameDevP.proj
    | simp only [sameDevP_mk]
    | simp only [sameDev_mk]
    | split

theorem State.publishAll_sameDev {s0 s : State} (hs : SameDev s0 s) (n : Nat) : SameDev s0 (s.publishAll n) := by
  unfold State.publishAll
  repeat' first
    | with_reducible assumption
    | with_reducible apply State.publishGate_sameDev
    | with_reducible refine times_pred (fun _ _ => ?_) ?_

theorem State.engineFor_sameDev {s0 s : State} (hs : SameDev s0 s) (n : Nat) : SameDevP s0 (s.engineFor n) := by
  unfold State.engineFor
  dsimp only
  repeat' first
    | with_reducible assumption
    | with_reducible apply ite_pred
    | with_reducible apply State.free_sameDev
    | simp only [sameDevP_mk]
    | with_reducible apply SameDevP.proj

theorem State.admitContext_sameDev {s0 s : State} (hs : SameDev s0 s) (n : Nat) : SameDev s0 (s.admitContext n) := by
  unfold State.admitContext
  try dsimp only
  repeat' first
    | with_reducible assumption
    | with_reducible apply ite_pred
    | with_reducible apply State.engineFor_sameDev
    | with_reducible apply State.setStab_sameDev
    | with_reducible apply State.setCtx_sameDev
    | with_reducible apply State.put_sameDev
    | with_reducible apply State.openAt_sameDev
    | with_reducible refine SameDevP.snd (by assumption) ?_
    | with_reducible apply SameDevP.proj
    | simp only [sameDevP_mk]
    | simp only [sameDev_mk]
    | split

theorem State.endContext_sameDev {s0 s : State} (hs : SameDev s0 s) (n : Nat) : SameDev s0 (s.endContext n) := by
  unfold State.endContext
  try dsimp only
  repeat' first
    | with_reducible assumption
    | with_reducible apply State.drainCtx_sameDev
    | with_reducible apply State.shutAt_sameDev
    | with_reducible apply State.publishAll_sameDev
    | with_reducible apply State.setStab_sameDev
    | with_reducible apply State.setCtx_sameDev
    | with_reducible apply State.releaseCost_sameDev
    | split

theorem State.disarmCtx_sameDev {s0 s : State} (hs : SameDev s0 s) (n : Nat) : SameDev s0 (s.disarmCtx n) := by
  unfold State.disarmCtx
  try dsimp only
  repeat' first
    | with_reducible assumption
    | with_reducible apply ite_pred
    | with_reducible apply State.setCtx_sameDev
    | with_reducible apply State.retract_sameDev
    | with_reducible apply State.endContext_sameDev

theorem State.newFrameLen_sameDev {s0 s : State} (hs : SameDev s0 s) (n : Nat) (t : Int) :
    SameDev s0 (s.newFrameLen n t) := by
  unfold State.newFrameLen
  dsimp only
  repeat' first
    | with_reducible assumption
    | with_reducible apply ite_pred
    | with_reducible apply State.put_sameDev
    | with_reducible apply State.raise_sameDev
    | with_reducible apply State.setCtx_sameDev
    | with_reducible apply State.openAt_sameDev
    | with_reducible apply State.endContext_sameDev

theorem State.frameContexts_sameDev {s0 s : State} (hs : SameDev s0 s) (t : Int) : SameDev s0 (s.frameContexts t) := by
  unfold State.frameContexts
  dsimp only
  repeat' first
    | with_reducible assumption
    | with_reducible refine foldl_pred (fun _ _ _ => ?_) ?_
    | with_reducible apply State.setEngine_sameDev
    | with_reducible apply State.frameGate_sameDev

theorem execEngineUpdate_sameDev {s0 s : State} (t e : Nat) (hs : SameDev s0 s) :
    SameDevO s0 (execEngineUpdate t e s) := by
  unfold execEngineUpdate
  try dsimp only
  repeat' first
    | with_reducible assumption
    | with_reducible apply ite_pred
    | with_reducible apply State.at_sameDev
    | with_reducible apply State.setEngine_sameDev
    | with_reducible apply State.applyUpd_sameDev
    | with_reducible apply sameDevO_next
    | with_reducible exact sameDevO_fault
    | simp only [sameDev_mk]
    | split

theorem execGateTimeout_sameDev {s0 s : State} (t n : Nat) (hs : SameDev s0 s) : SameDevO s0 (execGateTimeout t n s) := by
  unfold execGateTimeout
  dsimp only
  repeat' first
    | with_reducible assumption
    | with_reducible apply ite_pred
    | with_reducible apply State.at_sameDev
    | with_reducible apply State.shutAt_sameDev
    | with_reducible apply sameDevO_next
    | with_reducible exact sameDevO_fault
    | split

theorem execPublish_sameDev {s0 s : State} (t n : Nat) (hs : SameDev s0 s) : SameDevO s0 (execPublish t n s) := by
  unfold execPublish
  dsimp only
  repeat' first
    | with_reducible assumption
    | with_reducible apply ite_pred
    | with_reducible apply State.at_sameDev
    | with_reducible apply State.publishGate_sameDev
    | with_reducible apply sameDevO_next
    | with_reducible exact sameDevO_fault
    | split

theorem execContextMove_sameDev {s0 s : State} (t n : Nat) (hs : SameDev s0 s) : SameDevO s0 (execContextMove t n s) := by
  unfold execContextMove
  dsimp only
  repeat' first
    | with_reducible assumption
    | with_reducible apply ite_pred
    | with_reducible apply State.at_sameDev
    | with_reducible apply State.setCtx_sameDev
    | with_reducible apply State.drainCtx_sameDev
    | with_reducible apply sameDevO_next
    | with_reducible exact sameDevO_fault
    | split

/-! ## Crystal -/

theorem State.zeroGranule_sameDev {s0 s : State} (hs : SameDev s0 s) (g : Nat) : SameDev s0 (s.zeroGranule g) := by
  unfold State.zeroGranule
  dsimp only
  repeat' first | with_reducible assumption | simp only [sameDev_mk]

theorem State.addCell_sameDev {s0 s : State} (hs : SameDev s0 s) (a w : Nat) : SameDevF s0 (s.addCell a w) := by
  unfold State.addCell
  dsimp only
  repeat' first
    | with_reducible assumption
    | with_reducible apply ite_pred
    | with_reducible apply State.writeLe_sameDev
    | simp only [sameDevF_mk]

theorem State.binValue_sameDev {s0 s : State} (hs : SameDev s0 s) (n h : Nat) (v : Int) :
    SameDev s0 (s.binValue n h v) := by
  unfold State.binValue
  try dsimp only
  repeat' first
    | with_reducible assumption
    | with_reducible apply ite_pred
    | with_reducible apply State.count_sameDev
    | with_reducible apply State.addCell_sameDev
    | with_reducible apply State.put_sameDev
    | with_reducible apply State.raise_sameDev
    | with_reducible refine SameDevF.fst (by assumption) ?_
    | with_reducible apply SameDevF.proj
    | simp only [sameDevF_mk]
    | split

theorem State.histValue_sameDev {s0 s : State} (hs : SameDev s0 s) (n h : Nat) (v : Int) (fe cv : Bool) :
    SameDev s0 (s.histValue n h v fe cv) := by
  unfold State.histValue
  try dsimp only
  repeat' first
    | with_reducible assumption
    | with_reducible apply ite_pred
    | with_reducible apply State.count_sameDev
    | with_reducible apply State.raise_sameDev
    | with_reducible apply State.setCry_sameDev
    | with_reducible apply State.binValue_sameDev

theorem State.setHist_sameDev {s0 s : State} (hs : SameDev s0 s) (n h : Nat) (v : HistState) :
    SameDev s0 (s.setHist n h v) := by
  unfold State.setHist
  dsimp only
  repeat' first | with_reducible assumption | with_reducible apply State.setCry_sameDev

theorem State.cryEdge_sameDev {s0 s : State} (hs : SameDev s0 s) (n k : Nat) (t : Int) (pol est fe cv : Bool)
    (trig : Option Int) (last : Option (Int × Int)) :
    SameDev s0 (s.cryEdge n k t pol est fe cv trig last) := by
  unfold State.cryEdge
  dsimp only
  repeat' first
    | with_reducible assumption
    | with_reducible apply ite_pred
    | with_reducible refine foldl_pred (fun _ _ _ => ?_) ?_
    | with_reducible apply State.histValue_sameDev
    | with_reducible apply State.setHist_sameDev

theorem State.cryBreak_sameDev {s0 s : State} (hs : SameDev s0 s) (n k : Nat) : SameDev s0 (s.cryBreak n k) := by
  unfold State.cryBreak
  repeat' first
    | with_reducible assumption
    | with_reducible apply ite_pred
    | with_reducible refine foldl_pred (fun _ _ _ => ?_) ?_
    | with_reducible apply State.setHist_sameDev

theorem State.mapSample_sameDev {s0 s : State} (hs : SameDev s0 s) (n col : Nat) (x : Int) :
    SameDev s0 (s.mapSample n col x) := by
  unfold State.mapSample
  dsimp only
  repeat' first
    | with_reducible assumption
    | with_reducible apply ite_pred
    | with_reducible apply State.put_sameDev
    | with_reducible apply State.count_sameDev
    | with_reducible apply State.raise_sameDev
    | with_reducible apply State.addCell_sameDev
    | with_reducible apply SameDevF.proj

theorem State.endSweep_sameDev {s0 s : State} (hs : SameDev s0 s) (n : Nat) : SameDev s0 (s.endSweep n) := by
  unfold State.endSweep
  dsimp only
  repeat' first
    | with_reducible assumption
    | with_reducible apply ite_pred
    | with_reducible apply State.count_sameDev
    | with_reducible apply State.setCry_sameDev
    | split

theorem State.dueSweeps_sameDev {s0 s : State} (hs : SameDev s0 s) (n : Nat) (t : Int) :
    SameDev s0 (s.dueSweeps n t) := by
  unfold State.dueSweeps
  try dsimp only
  repeat' first
    | with_reducible assumption
    | with_reducible apply ite_pred
    | with_reducible apply State.endSweep_sameDev
    | with_reducible apply State.setCry_sameDev
    | with_reducible apply State.count_sameDev
    | simp only [sameDev_mk]
    | split

theorem State.sweepSample_sameDev {s0 s : State} (hs : SameDev s0 s) (n : Nat) (t x : Int) (usable : Bool) :
    SameDev s0 (s.sweepSample n t x usable) := by
  unfold State.sweepSample
  try dsimp only
  repeat' first
    | with_reducible assumption
    | with_reducible apply ite_pred
    | with_reducible apply State.dueSweeps_sameDev
    | with_reducible apply State.setCry_sameDev
    | with_reducible apply State.count_sameDev
    | with_reducible apply State.mapSample_sameDev
    | simp only [sameDev_mk]
    | split

theorem State.sweepRef_sameDev {s0 s : State} (hs : SameDev s0 s) (n : Nat) (at_ : Int) (hist : List (Int × Int
    × Bool)) :
    SameDev s0 (s.sweepRef n at_ hist) := by
  unfold State.sweepRef
  try dsimp only
  repeat' first
    | with_reducible assumption
    | with_reducible apply ite_pred
    | with_reducible refine foldl_pred (fun _ _ _ => ?_) ?_
    | with_reducible apply State.count_sameDev
    | with_reducible apply State.setCry_sameDev
    | with_reducible apply State.sweepSample_sameDev

theorem State.clearCry_sameDev {s0 s : State} (hs : SameDev s0 s) (n : Nat) : SameDev s0 (s.clearCry n) := by
  unfold State.clearCry
  dsimp only
  repeat' first | with_reducible assumption | with_reducible apply State.setCry_sameDev | split

theorem State.endClear_sameDev {s0 s : State} (hs : SameDev s0 s) (n : Nat) : SameDev s0 (s.endClear n) := by
  unfold State.endClear
  dsimp only
  repeat' first
    | with_reducible assumption
    | with_reducible apply ite_pred
    | with_reducible refine foldl_pred (fun _ _ _ => ?_) ?_
    | with_reducible apply State.put_sameDev
    | with_reducible apply State.setCry_sameDev
    | with_reducible apply State.zeroGranule_sameDev
    | split

theorem State.startMerge_sameDev {s0 s : State} (hs : SameDev s0 s) (n : Nat) : SameDev s0 (s.startMerge n) := by
  unfold State.startMerge
  dsimp only
  repeat' first
    | with_reducible assumption
    | with_reducible apply ite_pred
    | with_reducible apply State.setCry_sameDev

theorem State.dropStaging_sameDev {s0 s : State} (hs : SameDev s0 s) (n : Nat) : SameDev s0 (s.dropStaging n) := by
  unfold State.dropStaging
  dsimp only
  repeat' first
    | with_reducible assumption
    | with_reducible apply ite_pred
    | with_reducible refine foldl_pred (fun _ _ _ => ?_) ?_
    | with_reducible apply State.zeroGranule_sameDev

theorem State.mergeCells_sameDev {s0 s : State} (hs : SameDev s0 s) (src dst w : Nat) :
    SameDevF s0 (s.mergeCells src dst w) := by
  unfold State.mergeCells
  dsimp only
  repeat' first
    | with_reducible assumption
    | with_reducible refine foldl_pred (fun _ _ _ => ?_) ?_
    | with_reducible apply State.writeLe_sameDev
    | with_reducible apply State.zeroGranule_sameDev
    | simp only [sameDevF_mk]
    | with_reducible apply SameDevF.proj

theorem State.endMerge_sameDev {s0 s : State} (hs : SameDev s0 s) (n : Nat) : SameDev s0 (s.endMerge n) := by
  unfold State.endMerge
  dsimp only
  repeat' first
    | with_reducible assumption
    | with_reducible apply ite_pred
    | with_reducible refine foldl_pred (fun _ _ _ => ?_) ?_
    | with_reducible apply State.put_sameDev
    | with_reducible apply State.raise_sameDev
    | with_reducible apply State.setCry_sameDev
    | with_reducible apply State.clearCry_sameDev
    | with_reducible apply State.mergeCells_sameDev
    | with_reducible apply SameDevF.proj
    | split

theorem execClearDone_sameDev {s0 s : State} (t n : Nat) (hs : SameDev s0 s) : SameDevO s0 (execClearDone t n s) := by
  unfold execClearDone
  repeat' first
    | with_reducible assumption
    | with_reducible apply ite_pred
    | with_reducible apply State.at_sameDev
    | with_reducible apply State.endClear_sameDev
    | with_reducible apply sameDevO_next
    | with_reducible exact sameDevO_fault

theorem execStagingMerge_sameDev {s0 s : State} (t n : Nat) (hs : SameDev s0 s) : SameDevO s0 (execStagingMerge t n s) := by
  unfold execStagingMerge
  repeat' first
    | with_reducible assumption
    | with_reducible apply ite_pred
    | with_reducible apply State.at_sameDev
    | with_reducible apply State.endMerge_sameDev
    | with_reducible apply sameDevO_next
    | with_reducible exact sameDevO_fault

theorem execSweepComplete_sameDev {s0 s : State} (t n : Nat) (hs : SameDev s0 s) :
    SameDevO s0 (execSweepComplete t n s) := by
  unfold execSweepComplete
  repeat' first
    | with_reducible assumption
    | with_reducible apply ite_pred
    | with_reducible apply State.at_sameDev
    | with_reducible apply State.endSweep_sameDev
    | with_reducible apply sameDevO_next
    | with_reducible exact sameDevO_fault

/-! ## Waves -/

theorem State.switchSet_sameDev {s0 s : State} (hs : SameDev s0 s) (m n : Nat) (at_ : Int) :
    SameDev s0 (s.switchSet m n at_) := by
  unfold State.switchSet
  dsimp only
  repeat' first | with_reducible assumption | with_reducible apply State.setWave_sameDev

theorem State.reuser_sameDev {s0 s : State} (hs : SameDev s0 s) (m : Nat) (at_ : Int) : SameDev s0 (s.reuser m at_) := by
  unfold State.reuser
  dsimp only
  repeat' first
    | with_reducible assumption
    | with_reducible apply ite_pred
    | with_reducible apply State.switchSet_sameDev

theorem State.beginWindow_sameDev {s0 s : State} (hs : SameDev s0 s) (n : Nat) (w : Window) :
    SameDev s0 (s.beginWindow n w) := by
  unfold State.beginWindow
  try dsimp only
  repeat' first
    | with_reducible assumption
    | with_reducible apply ite_pred
    | with_reducible apply State.startTaking_sameDev
    | with_reducible apply State.putAnchor_sameDev
    | with_reducible apply State.setWave_sameDev

theorem State.setSure_sameDev {s0 s : State} (hs : SameDev s0 s) (k : Nat) (t : Int) :
    SameDev s0 (s.setSure k t) := by
  unfold State.setSure
  repeat' first | with_reducible assumption | with_reducible apply State.setSrc_sameDev

theorem State.finishWindow_sameDev {s0 s : State} (hs : SameDev s0 s) (n : Nat) (w : Window) (c : Int) :
    SameDev s0 (s.finishWindow n w c) := by
  unfold State.finishWindow
  try dsimp only
  repeat' first
    | with_reducible assumption
    | with_reducible apply ite_pred
    | with_reducible apply State.setSure_sameDev
    | with_reducible apply State.stopTaking_sameDev
    | with_reducible apply State.count_sameDev
    | with_reducible apply State.setWave_sameDev

theorem State.windowEvent_sameDev {s0 s : State} (hs : SameDev s0 s) (n : Nat) (rec : Int) :
    SameDev s0 (s.windowEvent n rec) := by
  unfold State.windowEvent
  try dsimp only
  repeat' first
    | with_reducible assumption
    | with_reducible apply ite_pred
    | with_reducible apply State.finishWindow_sameDev
    | with_reducible apply State.beginWindow_sameDev
    | with_reducible apply State.setWave_sameDev
    | simp only [sameDev_mk]
    | split

theorem State.advance_sameDev {s0 s : State} (hs : SameDev s0 s) (n : Nat) (rec : Int) :
    SameDev s0 (s.advance n rec) := by
  unfold State.advance
  try dsimp only
  repeat' first
    | with_reducible assumption
    | with_reducible apply ite_pred
    | with_reducible refine times_pred (fun _ _ => ?_) ?_
    | with_reducible apply State.windowEvent_sameDev
    | with_reducible apply State.setSure_sameDev
    | with_reducible apply State.flush_sameDev

theorem State.idleWindows_sameDev {s0 s : State} (hs : SameDev s0 s) (n : Nat) : SameDev s0 (s.idleWindows n) := by
  unfold State.idleWindows
  try dsimp only
  repeat' first
    | with_reducible assumption
    | with_reducible refine foldl_pred (fun _ _ _ => ?_) ?_
    | with_reducible apply State.count_sameDev
    | with_reducible apply State.setWave_sameDev

theorem State.followWindows_sameDev {s0 s : State} (hs : SameDev s0 s) (n : Nat) :
    SameDev s0 (s.followWindows n) := by
  unfold State.followWindows
  repeat' first
    | with_reducible assumption
    | with_reducible apply ite_pred
    | with_reducible apply State.advance_sameDev
    | with_reducible apply State.idleWindows_sameDev

theorem State.endWindows_sameDev {s0 s : State} (hs : SameDev s0 s) (n : Nat) : SameDev s0 (s.endWindows n) := by
  unfold State.endWindows
  repeat' first
    | with_reducible assumption
    | with_reducible apply ite_pred
    | with_reducible refine times_pred (fun _ _ => ?_) ?_
    | with_reducible apply State.finishWindow_sameDev
    | split

theorem State.stopChain_sameDev {s0 s : State} (hs : SameDev s0 s) (m : Nat) : SameDev s0 (s.stopChain m) := by
  unfold State.stopChain
  try dsimp only
  repeat' first
    | with_reducible assumption
    | with_reducible apply ite_pred
    | with_reducible apply State.setWave_sameDev

theorem State.loseSample_sameDev {s0 s : State} (hs : SameDev s0 s) (n : Nat) : SameDev s0 (s.loseSample n) := by
  unfold State.loseSample
  try dsimp only
  repeat' first
    | with_reducible assumption
    | with_reducible apply ite_pred
    | with_reducible apply State.setSrc_sameDev
    | with_reducible apply State.beginCause_sameDev
    | simp only [sameDev_mk]
    | split

theorem State.preempt_sameDev {s0 s : State} (hs : SameDev s0 s) (g : Nat) (tg : Int) : SameDev s0 (s.preempt g tg) := by
  unfold State.preempt
  dsimp only
  repeat' first
    | with_reducible assumption
    | with_reducible apply ite_pred
    | with_reducible refine foldl_pred (fun _ _ _ => ?_) ?_
    | with_reducible apply State.count_sameDev
    | with_reducible apply State.raise_sameDev
    | with_reducible apply State.setWave_sameDev
    | split

theorem State.pushWindow_sameDev {s0 s : State} (hs : SameDev s0 s) (n : Nat) (o requested : Int) (restart : Bool) :
    SameDev s0 (s.pushWindow n o requested restart) := by
  unfold State.pushWindow
  dsimp only
  repeat' first | with_reducible assumption | with_reducible apply State.setWave_sameDev

theorem State.guardClosed_sameDev {s0 s : State} (hs : SameDev s0 s) (g : Nat) (tc : Int) :
    SameDev s0 (s.guardClosed g tc) := by
  unfold State.guardClosed
  dsimp only
  repeat' first
    | with_reducible assumption
    | with_reducible apply ite_pred
    | with_reducible refine foldl_pred (fun _ _ _ => ?_) ?_
    | with_reducible apply State.setWave_sameDev
    | with_reducible apply State.reuser_sameDev
    | with_reducible apply State.pushWindow_sameDev
    | split

theorem State.missWindow_sameDev {s0 s : State} (hs : SameDev s0 s) (n : Nat) : SameDev s0 (s.missWindow n) := by
  unfold State.missWindow
  repeat' first
    | with_reducible assumption
    | with_reducible apply State.count_sameDev
    | with_reducible apply State.raise_sameDev

theorem State.openWindow_sameDev {s0 s : State} (hs : SameDev s0 s) (n : Nat) (o : Int) :
    SameDev s0 (s.openWindow n o) := by
  unfold State.openWindow
  try dsimp only
  repeat' first
    | with_reducible assumption
    | with_reducible apply ite_pred
    | with_reducible apply State.missWindow_sameDev
    | with_reducible apply State.preempt_sameDev
    | with_reducible apply State.pushWindow_sameDev
    | with_reducible apply State.reuser_sameDev
    | with_reducible apply State.followWindows_sameDev
    | with_reducible apply State.setWave_sameDev
    | with_reducible apply State.count_sameDev
    | with_reducible apply State.raise_sameDev

theorem State.windowDue_sameDev {s0 s : State} (hs : SameDev s0 s) (n : Nat) : SameDev s0 (s.windowDue n) := by
  unfold State.windowDue
  dsimp only
  repeat' first
    | with_reducible assumption
    | with_reducible apply ite_pred
    | with_reducible apply State.setWave_sameDev
    | with_reducible apply State.openWindow_sameDev
    | split

theorem State.shutWindow_sameDev {s0 s : State} (hs : SameDev s0 s) (n : Nat) : SameDev s0 (s.shutWindow n) := by
  unfold State.shutWindow
  try dsimp only
  repeat' first
    | with_reducible assumption
    | with_reducible apply ite_pred
    | with_reducible apply State.followWindows_sameDev
    | with_reducible apply State.setWave_sameDev
    | with_reducible apply State.guardClosed_sameDev
    | with_reducible apply State.stopChain_sameDev
    | simp only [sameDev_mk]
    | split

theorem State.waveMarker_sameDev {s0 s : State} (hs : SameDev s0 s) (k : Nat) (at_ : Int) :
    SameDev s0 (s.waveMarker k at_) := by
  unfold State.waveMarker
  dsimp only
  repeat' first
    | with_reducible assumption
    | with_reducible apply ite_pred
    | with_reducible refine foldl_pred (fun _ _ _ => ?_) ?_
    | with_reducible apply State.setWave_sameDev

theorem State.admitWave_sameDev {s0 s : State} (hs : SameDev s0 s) (n : Nat) : SameDev s0 (s.admitWave n) := by
  unfold State.admitWave
  dsimp only
  repeat' first | with_reducible assumption | with_reducible apply State.setWave_sameDev

theorem State.startIngest_sameDev {s0 s : State} (hs : SameDev s0 s) (n : Nat) : SameDev s0 (s.startIngest n) := by
  unfold State.startIngest
  try dsimp only
  repeat' first
    | with_reducible assumption
    | with_reducible apply ite_pred
    | with_reducible apply State.setWave_sameDev
    | with_reducible apply State.setSure_sameDev
    | with_reducible apply State.reuser_sameDev
    | with_reducible apply State.openWindow_sameDev
    | with_reducible apply State.missWindow_sameDev
    | simp only [sameDev_mk]
    | split

theorem State.keepCorr_sameDev {s0 s : State} (hs : SameDev s0 s) (m : Nat) : SameDev s0 (s.keepCorr m) := by
  unfold State.keepCorr
  dsimp only
  repeat' first
    | with_reducible assumption
    | with_reducible apply ite_pred
    | with_reducible apply State.setWave_sameDev

theorem State.disarmWave_sameDev {s0 s : State} (hs : SameDev s0 s) (n : Nat) : SameDev s0 (s.disarmWave n) := by
  unfold State.disarmWave
  try dsimp only
  repeat' first
    | with_reducible assumption
    | with_reducible apply ite_pred
    | with_reducible apply State.setWave_sameDev
    | with_reducible apply State.retract_sameDev
    | with_reducible apply State.shutWindow_sameDev
    | with_reducible apply State.raise_sameDev
    | with_reducible apply State.keepCorr_sameDev
    | with_reducible apply State.guardClosed_sameDev
    | with_reducible apply State.reuser_sameDev
    | with_reducible apply State.followWindows_sameDev
    | with_reducible apply State.endWindows_sameDev
    | with_reducible apply State.stopChain_sameDev
    | with_reducible apply State.releaseCost_sameDev

theorem State.applyWave_sameDev {s0 s : State} (hs : SameDev s0 s) (n inst : Nat) :
    SameDev s0 (s.applyWave n inst) := by
  unfold State.applyWave
  try dsimp only
  repeat' first
    | with_reducible assumption
    | with_reducible apply ite_pred
    | with_reducible apply State.applyAll_sameDev
    | with_reducible apply State.bump_sameDev
    | with_reducible apply State.setWave_sameDev
    | with_reducible apply State.switchSet_sameDev

theorem State.frameWaves_sameDev {s0 s : State} (hs : SameDev s0 s) (inst : Nat) :
    SameDev s0 (s.frameWaves inst) := by
  unfold State.frameWaves
  repeat' first
    | with_reducible assumption
    | with_reducible apply ite_pred
    | with_reducible refine foldl_pred (fun _ _ _ => ?_) ?_
    | with_reducible apply State.applyWave_sameDev
    | split

theorem State.earlyWave_sameDev {s0 s : State} (hs : SameDev s0 s) (n : Nat) : SameDev s0 (s.earlyWave n) := by
  unfold State.earlyWave
  repeat' first
    | with_reducible assumption
    | with_reducible apply ite_pred
    | with_reducible apply State.applyWave_sameDev
    | split

theorem State.alignSlots_sameDev {s0 s : State} (hs : SameDev s0 s) : SameDev s0 s.alignSlots := by
  unfold State.alignSlots
  repeat' first
    | with_reducible assumption
    | with_reducible apply ite_pred
    | with_reducible refine foldl_pred (fun _ _ _ => ?_) ?_
    | with_reducible apply State.setSlot_sameDev

theorem execIngestStart_sameDev {s0 s : State} (t n : Nat) (hs : SameDev s0 s) : SameDevO s0 (execIngestStart t n s) := by
  unfold execIngestStart
  repeat' first
    | with_reducible assumption
    | with_reducible apply ite_pred
    | with_reducible apply State.at_sameDev
    | with_reducible apply State.startIngest_sameDev
    | with_reducible apply sameDevO_next
    | with_reducible exact sameDevO_fault

theorem execWaveformSettleEnd_sameDev {s0 s : State} (t n : Nat) (hs : SameDev s0 s) :
    SameDevO s0 (execWaveformSettleEnd t n s) := by
  unfold execWaveformSettleEnd
  repeat' first
    | with_reducible assumption
    | with_reducible apply ite_pred
    | with_reducible apply State.at_sameDev
    | with_reducible apply State.followWindows_sameDev
    | with_reducible apply sameDevO_next
    | with_reducible exact sameDevO_fault

theorem execConvEnd_sameDev {s0 s : State} (t n : Nat) (hs : SameDev s0 s) : SameDevO s0 (execConvEnd t n s) := by
  unfold execConvEnd
  dsimp only
  repeat' first
    | with_reducible assumption
    | with_reducible apply ite_pred
    | with_reducible apply State.at_sameDev
    | with_reducible apply State.setWave_sameDev
    | with_reducible apply sameDevO_next
    | with_reducible exact sameDevO_fault

theorem execWindowOpen_sameDev {s0 s : State} (t n : Nat) (hs : SameDev s0 s) : SameDevO s0 (execWindowOpen t n s) := by
  unfold execWindowOpen
  repeat' first
    | with_reducible assumption
    | with_reducible apply ite_pred
    | with_reducible apply State.at_sameDev
    | with_reducible apply State.windowDue_sameDev
    | with_reducible apply sameDevO_next
    | with_reducible exact sameDevO_fault

theorem execWindowClose_sameDev {s0 s : State} (t n : Nat) (hs : SameDev s0 s) : SameDevO s0 (execWindowClose t n s) := by
  unfold execWindowClose
  repeat' first
    | with_reducible assumption
    | with_reducible apply ite_pred
    | with_reducible apply State.at_sameDev
    | with_reducible apply State.shutWindow_sameDev
    | with_reducible apply sameDevO_next
    | with_reducible exact sameDevO_fault

/-! ## SluiceCfg -/

theorem State.sluEvent_sameDev {s0 s : State} (hs : SameDev s0 s) (f : Fld) (c : Nat) : SameDev s0 (s.sluEvent f c) := by
  unfold State.sluEvent
  repeat' first
    | with_reducible assumption
    | with_reducible apply State.count_sameDev
    | with_reducible apply State.raise_sameDev

theorem State.startSlu_sameDev {s0 s : State} (hs : SameDev s0 s) (c : Nat) : SameDev s0 (s.startSlu c) := by
  unfold State.startSlu
  dsimp only
  repeat' first
    | with_reducible assumption
    | with_reducible apply State.put_sameDev
    | with_reducible apply State.setSl_sameDev

theorem State.freeSlu_sameDev {s0 s : State} (hs : SameDev s0 s) (c : Nat) (done : Bool) :
    SameDev s0 (s.freeSlu c done) := by
  unfold State.freeSlu
  dsimp only
  repeat' first
    | with_reducible assumption
    | with_reducible apply ite_pred
    | with_reducible apply State.setSl_sameDev
    | with_reducible apply State.sluEvent_sameDev

/-! ## Verdict -/

theorem State.dropVerdict_sameDev {s0 s : State} (hs : SameDev s0 s) (w : Nat) : SameDev s0 (s.dropVerdict w) := by
  unfold State.dropVerdict
  repeat' first
    | with_reducible assumption
    | with_reducible apply State.count_sameDev
    | with_reducible apply State.raise_sameDev

theorem State.decideRule_sameDev {s0 s : State} (hs : SameDev s0 s) (v outcome detail : Nat) (time : Int) :
    SameDev s0 (s.decide_ v outcome detail time) := by
  unfold State.decide_
  try dsimp only
  repeat' first
    | with_reducible assumption
    | with_reducible apply ite_pred
    | with_reducible refine foldl_pred (fun _ _ _ => ?_) ?_
    | with_reducible apply State.setRule_sameDev
    | with_reducible apply State.put_sameDev
    | with_reducible apply State.setLink_sameDev
    | with_reducible apply State.dropVerdict_sameDev

theorem State.endPresence_sameDev {s0 s : State} (hs : SameDev s0 s) (v : Nat) : SameDev s0 (s.endPresence v) := by
  unfold State.endPresence
  try dsimp only
  repeat' first
    | with_reducible assumption
    | with_reducible apply ite_pred
    | with_reducible apply State.setRule_sameDev
    | with_reducible apply State.decideRule_sameDev
    | simp only [sameDev_mk]
    | split

theorem State.presenceEdge_sameDev {s0 s : State} (hs : SameDev s0 s) (v k : Nat) (t : Int) (pol : Bool) (detail
    : Nat) :
    SameDev s0 (s.presenceEdge v k t pol detail) := by
  unfold State.presenceEdge
  try dsimp only
  repeat' first
    | with_reducible assumption
    | with_reducible apply ite_pred
    | with_reducible apply State.endPresence_sameDev
    | with_reducible apply State.count_sameDev
    | with_reducible apply State.setRule_sameDev
    | with_reducible apply State.decideRule_sameDev
    | simp only [sameDev_mk]
    | split

theorem State.intervalEdge_sameDev {s0 s : State} (hs : SameDev s0 s) (v k : Nat) (t : Int) (pol : Bool) (detail
    : Nat) :
    SameDev s0 (s.intervalEdge v k t pol detail) := by
  unfold State.intervalEdge
  try dsimp only
  repeat' first
    | with_reducible assumption
    | with_reducible apply ite_pred
    | with_reducible apply State.decideRule_sameDev
    | with_reducible apply State.setRule_sameDev
    | simp only [sameDev_mk]
    | split

theorem State.rulesEdge_sameDev {s0 s : State} (hs : SameDev s0 s) (k : Nat) (t : Int) (pol est fe cal late :
    Bool) :
    SameDev s0 (s.rulesEdge k t pol est fe cal late) := by
  unfold State.rulesEdge
  try dsimp only
  repeat' first
    | with_reducible assumption
    | with_reducible apply ite_pred
    | with_reducible refine foldl_pred (fun _ _ _ => ?_) ?_
    | with_reducible apply State.decideRule_sameDev
    | with_reducible apply State.presenceEdge_sameDev
    | with_reducible apply State.intervalEdge_sameDev
    | split

theorem State.rulesBreak_sameDev {s0 s : State} (hs : SameDev s0 s) (k : Nat) (t : Int) :
    SameDev s0 (s.rulesBreak k t) := by
  unfold State.rulesBreak
  dsimp only
  repeat' first
    | with_reducible assumption
    | with_reducible apply ite_pred
    | with_reducible refine foldl_pred (fun _ _ _ => ?_) ?_
    | with_reducible apply State.setRule_sameDev
    | split

theorem State.rulesTrip_sameDev {s0 s : State} (hs : SameDev s0 s) (n : Nat) (t : Int) : SameDev s0 (s.rulesTrip n t) := by
  unfold State.rulesTrip
  repeat' first
    | with_reducible assumption
    | with_reducible apply ite_pred
    | with_reducible refine foldl_pred (fun _ _ _ => ?_) ?_
    | with_reducible apply State.decideRule_sameDev

theorem State.rulesMask_sameDev {s0 s : State} (hs : SameDev s0 s) (unit : Nat) (pass : Bool) (primary : Nat)
    (ref : Int) :
    SameDev s0 (s.rulesMask unit pass primary ref) := by
  unfold State.rulesMask
  repeat' first
    | with_reducible assumption
    | with_reducible apply ite_pred
    | with_reducible refine foldl_pred (fun _ _ _ => ?_) ?_
    | with_reducible apply State.decideRule_sameDev

theorem State.endInterval_sameDev {s0 s : State} (hs : SameDev s0 s) (v : Nat) : SameDev s0 (s.endInterval v) := by
  unfold State.endInterval
  try dsimp only
  repeat' first
    | with_reducible assumption
    | with_reducible apply ite_pred
    | with_reducible apply State.setRule_sameDev
    | with_reducible apply State.decideRule_sameDev
    | simp only [sameDev_mk]
    | split

theorem execPresenceWindowEnd_sameDev {s0 s : State} (t v : Nat) (hs : SameDev s0 s) :
    SameDevO s0 (execPresenceWindowEnd t v s) := by
  unfold execPresenceWindowEnd
  repeat' first
    | with_reducible assumption
    | with_reducible apply ite_pred
    | with_reducible apply State.at_sameDev
    | with_reducible apply State.endPresence_sameDev
    | with_reducible apply sameDevO_next
    | with_reducible exact sameDevO_fault

theorem execTargetEdgeExpiry_sameDev {s0 s : State} (t v : Nat) (hs : SameDev s0 s) :
    SameDevO s0 (execTargetEdgeExpiry t v s) := by
  unfold execTargetEdgeExpiry
  try dsimp only
  repeat' first
    | with_reducible assumption
    | with_reducible apply ite_pred
    | with_reducible apply State.at_sameDev
    | with_reducible apply State.setRule_sameDev
    | with_reducible apply sameDevO_next
    | with_reducible exact sameDevO_fault

/-! ## Capture -/

theorem State.grantRound_sameDev {s0 : State} (guard : Bool) (fuel words turn : Nat) {s : State} (hs : SameDev s0 s) :
    SameDevP s0 (State.grantRound guard fuel words turn s) := by
  induction fuel generalizing s words turn with
  | zero => exact hs
  | succ fuel ih =>
    rw [State.grantRound]
    split
    · exact hs
    · exact ite_pred hs (ih _ _ (State.setAcq_sameDev hs _ _))

theorem State.grantOwn_sameDev {s0 s : State} (hs : SameDev s0 s) (words : Nat) : SameDevP s0 (s.grantOwn words) :=
  foldl_pred (P := SameDevP s0) (fun _ _ h => sameDevP_mk.2 (ite_pred h (State.setAcq_sameDev h _ _))) hs

theorem State.drainQueues_sameDev {s0 s : State} (hs : SameDev s0 s) : SameDev s0 s.drainQueues := by
  have h := State.grantOwn_sameDev hs (8 * (surveyGrants s.now - s.share.survey))
  unfold State.drainQueues
  dsimp only
  simp only [sameDev_mk]
  exact State.grantRound_sameDev _ _ _ _ (State.grantRound_sameDev _ _ _ _ h)

theorem State.panWrite_sameDev {s0 s : State} (hs : SameDev s0 s) (p i : Nat) (ws : List Nat) :
    SameDev s0 (s.panWrite p i ws) := by
  induction ws generalizing s i with
  | nil => exact hs
  | cons w ws ih =>
    rw [State.panWrite]
    exact ih (State.cleanUnits_sameDev (State.writeLe_sameDev hs _ _ _) _ _) _

theorem State.handBlocks_sameDev {s0 s : State} (hs : SameDev s0 s) (n upTo : Nat) (close : Bool) :
    SameDev s0 (s.handBlocks n upTo close) := by
  unfold State.handBlocks
  dsimp only
  repeat' first
    | with_reducible assumption
    | with_reducible apply State.setAcq_sameDev
    | with_reducible apply State.setSl_sameDev

theorem State.noPan_sameDev {s0 s : State} (hs : SameDev s0 s) (n : Nat) : SameDev s0 (s.noPan n) := by
  unfold State.noPan
  repeat' first
    | with_reducible assumption
    | with_reducible apply ite_pred
    | with_reducible apply State.raise_sameDev

theorem State.waitFill_sameDev {s0 s : State} (hs : SameDev s0 s) (n : Nat) : SameDev s0 (s.waitFill n) := by
  unfold State.waitFill
  repeat' first
    | with_reducible assumption
    | with_reducible apply State.setAcq_sameDev
    | with_reducible apply State.noPan_sameDev

theorem State.fillNow_sameDev {s0 s : State} (hs : SameDev s0 s) (n : Nat) : SameDev s0 (s.fillNow n) := by
  have h := State.drainQueues_sameDev hs
  unfold State.fillNow
  generalize s.drainQueues = s1 at h ⊢
  dsimp only
  repeat' first
    | with_reducible assumption
    | with_reducible apply ite_pred
    | with_reducible refine foldl_pred (fun _ _ _ => ?_) ?_
    | with_reducible apply State.put_sameDev
    | with_reducible apply State.setAcq_sameDev
    | with_reducible apply State.setPan_sameDev
    | with_reducible apply State.startSlu_sameDev
    | with_reducible apply State.panWrite_sameDev
    | split

theorem State.fillStart_sameDev {s0 s : State} (hs : SameDev s0 s) (n : Nat) : SameDev s0 (s.fillStart n) := by
  unfold State.fillStart
  dsimp only
  repeat' first
    | with_reducible assumption
    | with_reducible apply ite_pred
    | with_reducible apply State.fillNow_sameDev

theorem State.leaveArm_sameDev {s0 s : State} (hs : SameDev s0 s) (n : Nat) : SameDev s0 (s.leaveArm n) := by
  unfold State.leaveArm
  try dsimp only
  repeat' first
    | with_reducible assumption
    | with_reducible apply ite_pred
    | with_reducible apply State.setAcq_sameDev
    | with_reducible apply State.setMask_sameDev
    | with_reducible apply State.setCry_sameDev
    | with_reducible apply State.put_sameDev
    | with_reducible apply State.freeSlu_sameDev
    | with_reducible apply State.releaseCost_sameDev

theorem State.closeAcq_sameDev {s0 s : State} (hs : SameDev s0 s) (n stop : Nat) (mark : Option Nat) (late :
    Bool) :
    SameDev s0 (s.closeAcq n stop mark late) := by
  unfold State.closeAcq
  try dsimp only
  repeat' first
    | with_reducible assumption
    | with_reducible apply ite_pred
    | with_reducible apply State.drainQueues_sameDev
    | with_reducible apply State.panWrite_sameDev
    | with_reducible apply State.setAcq_sameDev
    | with_reducible apply State.handBlocks_sameDev
    | with_reducible apply State.setPan_sameDev
    | with_reducible apply State.put_sameDev
    | with_reducible apply State.raise_sameDev
    | with_reducible apply State.count_sameDev
    | with_reducible apply State.leaveArm_sameDev
    | with_reducible apply State.waitFill_sameDev

theorem State.storeItem_sameDev {s0 s : State} (hs : SameDev s0 s) (n k : Nat) (i : Item) (time : Int) :
    SameDev s0 (s.storeItem n k i time) := by
  unfold State.storeItem
  try dsimp only
  repeat' first
    | with_reducible assumption
    | with_reducible apply ite_pred
    | with_reducible refine foldl_pred (fun _ _ _ => ?_) ?_
    | with_reducible apply State.closeAcq_sameDev
    | with_reducible apply State.setAcq_sameDev
    | with_reducible apply State.panWrite_sameDev
    | with_reducible apply State.put_sameDev
    | with_reducible apply State.handBlocks_sameDev

theorem State.ignored_sameDev {s0 s : State} (hs : SameDev s0 s) (n : Nat) : SameDev s0 (s.ignored n) := by
  unfold State.ignored
  try dsimp only
  repeat' first
    | with_reducible assumption
    | with_reducible apply ite_pred
    | with_reducible apply State.setAcq_sameDev
    | with_reducible apply State.count_sameDev

theorem State.trigger_sameDev {s0 s : State} (hs : SameDev s0 s) (n cause met : Nat) (t : Int) (forced : Bool) :
    SameDev s0 (s.trigger n cause met t forced) := by
  unfold State.trigger
  try dsimp only
  repeat' first
    | with_reducible assumption
    | with_reducible apply State.setAcq_sameDev
    | with_reducible apply State.put_sameDev

theorem State.condsMet_sameDev {s0 s : State} (hs : SameDev s0 s) (n : Nat) (mets : List (Nat × Int)) :
    SameDev s0 (s.condsMet n mets) := by
  unfold State.condsMet
  try dsimp only
  repeat' first
    | with_reducible assumption
    | with_reducible apply ite_pred
    | with_reducible apply State.trigger_sameDev
    | with_reducible apply State.ignored_sameDev
    | with_reducible apply State.setAcq_sameDev
    | simp only [sameDev_mk]
    | split

theorem State.aqEvent_sameDev {s0 s : State} (hs : SameDev s0 s) (n : Nat) (ev : TrgEvent) :
    SameDev s0 (s.aqEvent n ev) := by
  unfold State.aqEvent
  dsimp only
  repeat' first
    | with_reducible assumption
    | with_reducible apply ite_pred
    | with_reducible refine foldl_pred (fun _ _ _ => ?_) ?_
    | with_reducible apply State.setAcq_sameDev
    | with_reducible apply State.sweepRef_sameDev
    | with_reducible apply State.condsMet_sameDev
    | simp only [sameDevF_mk]
    | with_reducible apply SameDevF.proj

theorem State.aqEvents_sameDev {s0 s : State} (hs : SameDev s0 s) (ev : TrgEvent) : SameDev s0 (s.aqEvents ev) := by
  unfold State.aqEvents
  repeat' first
    | with_reducible assumption
    | with_reducible refine foldl_pred (fun _ _ _ => ?_) ?_
    | with_reducible apply State.aqEvent_sameDev

theorem State.condTimeout_sameDev {s0 s : State} (hs : SameDev s0 s) (n c : Nat) :
    SameDev s0 (s.condTimeout n c) := by
  unfold State.condTimeout
  try dsimp only
  repeat' first
    | with_reducible assumption
    | with_reducible apply ite_pred
    | with_reducible apply State.setAcq_sameDev
    | with_reducible apply State.sweepRef_sameDev
    | with_reducible apply State.condsMet_sameDev
    | simp only [sameDev_mk]
    | split

theorem State.admitAcq_sameDev {s0 s : State} (hs : SameDev s0 s) (n : Nat) : SameDev s0 (s.admitAcq n) := by
  unfold State.admitAcq
  dsimp only
  repeat' first
    | with_reducible assumption
    | with_reducible apply State.setAcq_sameDev
    | with_reducible apply State.waitFill_sameDev

theorem State.disarmAcq_sameDev {s0 s : State} (hs : SameDev s0 s) (n : Nat) : SameDev s0 (s.disarmAcq n) := by
  unfold State.disarmAcq
  try dsimp only
  repeat' first
    | with_reducible assumption
    | with_reducible apply ite_pred
    | with_reducible apply State.setAcq_sameDev
    | with_reducible apply State.retract_sameDev
    | with_reducible apply State.freeSlu_sameDev
    | with_reducible apply State.closeAcq_sameDev
    | with_reducible apply State.leaveArm_sameDev

theorem State.closeDue_sameDev {s0 s : State} (hs : SameDev s0 s) (n : Nat) : SameDev s0 (s.closeDue n) := by
  unfold State.closeDue
  try dsimp only
  repeat' first
    | with_reducible assumption
    | with_reducible apply ite_pred
    | with_reducible apply State.closeAcq_sameDev
    | split

theorem State.readyDue_sameDev {s0 s : State} (hs : SameDev s0 s) (n : Nat) : SameDev s0 (s.readyDue n) := by
  unfold State.readyDue
  dsimp only
  repeat' first
    | with_reducible assumption
    | with_reducible apply ite_pred
    | with_reducible apply State.setAcq_sameDev

theorem State.autoDue_sameDev {s0 s : State} (hs : SameDev s0 s) (n : Nat) : SameDev s0 (s.autoDue n) := by
  unfold State.autoDue
  try dsimp only
  repeat' first
    | with_reducible assumption
    | with_reducible apply ite_pred
    | with_reducible apply State.trigger_sameDev

theorem execFillStart_sameDev {s0 s : State} (t n : Nat) (hs : SameDev s0 s) : SameDevO s0 (execFillStart t n s) := by
  unfold execFillStart
  repeat' first
    | with_reducible assumption
    | with_reducible apply ite_pred
    | with_reducible apply State.at_sameDev
    | with_reducible apply State.fillStart_sameDev
    | with_reducible apply sameDevO_next
    | with_reducible exact sameDevO_fault

theorem execReady_sameDev {s0 s : State} (t n : Nat) (hs : SameDev s0 s) : SameDevO s0 (execReady t n s) := by
  unfold execReady
  repeat' first
    | with_reducible assumption
    | with_reducible apply ite_pred
    | with_reducible apply State.at_sameDev
    | with_reducible apply State.readyDue_sameDev
    | with_reducible apply sameDevO_next
    | with_reducible exact sameDevO_fault

theorem execAutoTimeout_sameDev {s0 s : State} (t n : Nat) (hs : SameDev s0 s) : SameDevO s0 (execAutoTimeout t n s) := by
  unfold execAutoTimeout
  repeat' first
    | with_reducible assumption
    | with_reducible apply ite_pred
    | with_reducible apply State.at_sameDev
    | with_reducible apply State.autoDue_sameDev
    | with_reducible apply sameDevO_next
    | with_reducible exact sameDevO_fault

theorem execIntervalTimeout_sameDev {s0 s : State} (t n c : Nat) (hs : SameDev s0 s) :
    SameDevO s0 (execIntervalTimeout t n c s) := by
  unfold execIntervalTimeout
  repeat' first
    | with_reducible assumption
    | with_reducible apply ite_pred
    | with_reducible apply State.at_sameDev
    | with_reducible apply State.endInterval_sameDev
    | with_reducible apply State.condTimeout_sameDev
    | with_reducible apply sameDevO_next
    | with_reducible exact sameDevO_fault

theorem execCaptureClose_sameDev {s0 s : State} (t n : Nat) (hs : SameDev s0 s) : SameDevO s0 (execCaptureClose t n s) := by
  unfold execCaptureClose
  repeat' first
    | with_reducible assumption
    | with_reducible apply ite_pred
    | with_reducible apply State.at_sameDev
    | with_reducible apply State.closeDue_sameDev
    | with_reducible apply sameDevO_next
    | with_reducible exact sameDevO_fault

/-! ## MaskTest -/

theorem State.violate_sameDev {s0 s : State} (hs : SameDev s0 s) (n : Nat) (i : Instance) (multi : Bool) :
    SameDev s0 (s.violate n i multi) := by
  unfold State.violate
  dsimp only
  repeat' first
    | with_reducible assumption
    | with_reducible apply ite_pred
    | with_reducible apply State.count_sameDev
    | with_reducible apply State.raise_sameDev
    | with_reducible apply State.setAcq_sameDev
    | with_reducible apply State.setMask_sameDev
    | with_reducible apply State.rulesMask_sameDev
    | with_reducible apply State.closeAcq_sameDev

theorem State.settleMask_sameDev {s0 s : State} (hs : SameDev s0 s) (n : Nat) : SameDev s0 (s.settleMask n) := by
  unfold State.settleMask
  try dsimp only
  repeat' first
    | with_reducible assumption
    | with_reducible apply ite_pred
    | with_reducible refine foldl_pred (fun _ _ _ => ?_) ?_
    | with_reducible apply State.count_sameDev
    | with_reducible apply State.rulesMask_sameDev
    | with_reducible apply State.setMask_sameDev
    | with_reducible apply State.violate_sameDev
    | simp only [sameDev_mk]
    | split

theorem State.maskRef_sameDev {s0 s : State} (hs : SameDev s0 s) (n : Nat) (t : Int) :
    SameDev s0 (s.maskRef n t) := by
  unfold State.maskRef
  try dsimp only
  repeat' first
    | with_reducible assumption
    | with_reducible apply ite_pred
    | with_reducible refine foldl_pred (fun _ _ _ => ?_) ?_
    | with_reducible apply State.put_sameDev
    | with_reducible apply State.setMask_sameDev
    | with_reducible apply State.raise_sameDev
    | with_reducible apply State.violate_sameDev
    | with_reducible apply State.settleMask_sameDev

theorem State.maskEvent_sameDev {s0 s : State} (hs : SameDev s0 s) (n : Nat) (x : MaskEvent) :
    SameDev s0 (s.maskEvent n x) := by
  unfold State.maskEvent
  try dsimp only
  repeat' first
    | with_reducible assumption
    | with_reducible apply ite_pred
    | with_reducible apply State.setMask_sameDev
    | with_reducible apply State.settleMask_sameDev

theorem State.masksEdge_sameDev {s0 s : State} (hs : SameDev s0 s) (k : Nat) (t : Int) (pol est fe cal late :
    Bool) :
    SameDev s0 (s.masksEdge k t pol est fe cal late) := by
  unfold State.masksEdge
  try dsimp only
  repeat' first
    | with_reducible assumption
    | with_reducible apply ite_pred
    | with_reducible refine foldl_pred (fun _ _ _ => ?_) ?_
    | with_reducible apply State.maskRef_sameDev
    | with_reducible apply State.maskEvent_sameDev

theorem State.masksMarker_sameDev {s0 s : State} (hs : SameDev s0 s) (k : Nat) (t : Int) :
    SameDev s0 (s.masksMarker k t) := by
  unfold State.masksMarker
  repeat' first
    | with_reducible assumption
    | with_reducible apply ite_pred
    | with_reducible refine foldl_pred (fun _ _ _ => ?_) ?_
    | with_reducible apply State.maskRef_sameDev

theorem State.masksTrip_sameDev {s0 s : State} (hs : SameDev s0 s) (ch : Nat) (t : Int) :
    SameDev s0 (s.masksTrip ch t) := by
  unfold State.masksTrip
  repeat' first
    | with_reducible assumption
    | with_reducible refine foldl_pred (fun _ _ _ => ?_) ?_
    | with_reducible apply State.maskEvent_sameDev

theorem State.maskPassed_sameDev {s0 s : State} (hs : SameDev s0 s) (n : Nat) : SameDev s0 (s.maskPassed n) := by
  unfold State.maskPassed
  try dsimp only
  repeat' first
    | with_reducible assumption
    | with_reducible apply ite_pred
    | with_reducible apply State.setMask_sameDev
    | with_reducible apply State.settleMask_sameDev

theorem execMaskSpanPassed_sameDev {s0 s : State} (t n : Nat) (hs : SameDev s0 s) :
    SameDevO s0 (execMaskSpanPassed t n s) := by
  unfold execMaskSpanPassed
  repeat' first
    | with_reducible assumption
    | with_reducible apply ite_pred
    | with_reducible apply State.at_sameDev
    | with_reducible apply State.maskPassed_sameDev
    | with_reducible apply sameDevO_next
    | with_reducible exact sameDevO_fault

/-! ## Fabric -/

theorem State.storeAll_sameDev {s0 s : State} (hs : SameDev s0 s) (k : Nat) (i : Item) (time : Int) :
    SameDev s0 (s.storeAll k i time) := by
  unfold State.storeAll
  repeat' first
    | with_reducible assumption
    | with_reducible refine foldl_pred (fun _ _ _ => ?_) ?_
    | with_reducible apply State.storeItem_sameDev

theorem State.fabricEdge_sameDev {s0 s : State} (hs : SameDev s0 s) (k : Nat) (e : EdgeRec) (x : Entry) :
    SameDev s0 (s.fabricEdge k e x) := by
  unfold State.fabricEdge
  dsimp only
  repeat' first
    | with_reducible assumption
    | with_reducible apply ite_pred
    | with_reducible refine foldl_pred (fun _ _ _ => ?_) ?_
    | with_reducible apply State.setSrc_sameDev
    | with_reducible apply State.offerUpd_sameDev
    | with_reducible apply State.cryEdge_sameDev
    | with_reducible apply State.rulesEdge_sameDev
    | with_reducible apply State.aqEvents_sameDev
    | with_reducible apply State.masksEdge_sameDev
    | with_reducible apply State.storeAll_sameDev

theorem State.fabricBreak_sameDev {s0 s : State} (hs : SameDev s0 s) (k : Nat) (t : Int) :
    SameDev s0 (s.fabricBreak k t) := by
  unfold State.fabricBreak
  dsimp only
  repeat' first
    | with_reducible assumption
    | with_reducible refine foldl_pred (fun _ _ _ => ?_) ?_
    | with_reducible apply State.cryBreak_sameDev
    | with_reducible apply State.rulesBreak_sameDev
    | with_reducible apply State.aqEvents_sameDev

theorem State.fabricMark_sameDev {s0 s : State} (hs : SameDev s0 s) (k cause lost : Nat) (x : Entry) :
    SameDev s0 (s.fabricMark k cause lost x) := by
  unfold State.fabricMark
  dsimp only
  repeat' first
    | with_reducible assumption
    | with_reducible refine foldl_pred (fun _ _ _ => ?_) ?_
    | with_reducible apply State.setSrc_sameDev
    | with_reducible apply State.offerUpd_sameDev
    | with_reducible apply State.storeAll_sameDev
    | with_reducible apply State.fabricBreak_sameDev

theorem State.stagedClose_sameDev {s0 s : State} (hs : SameDev s0 s) (k : Nat) (t : Int) :
    SameDev s0 (s.stagedClose k t) := by
  unfold State.stagedClose
  dsimp only
  repeat' first
    | with_reducible assumption
    | with_reducible apply ite_pred
    | with_reducible refine foldl_pred (fun _ _ _ => ?_) ?_
    | with_reducible apply State.setWave_sameDev
    | with_reducible apply State.startMerge_sameDev
    | with_reducible apply State.dropStaging_sameDev

theorem State.fabricAnchor_sameDev {s0 s : State} (hs : SameDev s0 s) (k seq reason time : Nat) (x : Entry) :
    SameDev s0 (s.fabricAnchor k seq reason time x) := by
  unfold State.fabricAnchor
  try dsimp only
  repeat' first
    | with_reducible assumption
    | with_reducible apply ite_pred
    | with_reducible refine foldl_pred (fun _ _ _ => ?_) ?_
    | with_reducible apply State.free_sameDev
    | with_reducible apply State.setSrc_sameDev
    | with_reducible apply State.storeAll_sameDev
    | with_reducible apply State.offerUpd_sameDev
    | with_reducible apply State.fabricBreak_sameDev
    | with_reducible apply State.stagedClose_sameDev
    | with_reducible refine SameDevP.snd (by assumption) ?_
    | with_reducible apply SameDevP.proj
    | simp only [sameDevP_mk]

theorem State.deliver_sameDev {s0 s : State} (hs : SameDev s0 s) (k : Nat) : SameDev s0 (s.deliver k) := by
  unfold State.deliver
  try dsimp only
  repeat' first
    | with_reducible assumption
    | with_reducible apply ite_pred
    | with_reducible refine foldl_pred (fun _ _ _ => ?_) ?_
    | with_reducible apply State.setSrc_sameDev
    | with_reducible apply State.fabricEdge_sameDev
    | with_reducible apply State.fabricMark_sameDev
    | with_reducible apply State.fabricAnchor_sameDev
    | with_reducible apply State.storeAll_sameDev
    | with_reducible apply State.offerUpd_sameDev
    | simp only [sameDev_mk]
    | split

theorem State.retryLoop_sameDev {s0 s : State} (hs : SameDev s0 s) (k : Nat) : SameDev s0 (s.retryLoop k) := by
  unfold State.retryLoop
  repeat' first
    | with_reducible assumption
    | with_reducible apply ite_pred
    | with_reducible apply State.startLoop_sameDev

theorem execRecordToFabric_sameDev {s0 s : State} (t src : Nat) (hs : SameDev s0 s) :
    SameDevO s0 (execRecordToFabric t src s) := by
  unfold execRecordToFabric
  try dsimp only
  repeat' first
    | with_reducible assumption
    | with_reducible apply ite_pred
    | with_reducible apply State.at_sameDev
    | with_reducible apply State.drainQueues_sameDev
    | with_reducible apply State.flush_sameDev
    | with_reducible apply State.deliver_sameDev
    | with_reducible apply State.retryLoop_sameDev
    | with_reducible apply sameDevO_next
    | with_reducible exact sameDevO_fault

theorem execTapEdge_sameDev {s0 s : State} (t src : Nat) (hs : SameDev s0 s) : SameDevO s0 (execTapEdge t src s) := by
  unfold execTapEdge
  try dsimp only
  repeat' first
    | with_reducible assumption
    | with_reducible apply ite_pred
    | with_reducible apply State.at_sameDev
    | with_reducible apply State.setSrc_sameDev
    | with_reducible apply State.rulesBreak_sameDev
    | with_reducible apply State.masksEdge_sameDev
    | with_reducible apply State.rulesEdge_sameDev
    | with_reducible apply sameDevO_next
    | with_reducible exact sameDevO_fault
    | simp only [sameDev_mk]
    | split

/-! ## Ledger -/

theorem State.ledger_sameDev {s0 s : State} (hs : SameDev s0 s) (kind cause detail : Nat) :
    SameDev s0 (s.ledger kind cause detail) := by
  unfold State.ledger
  dsimp only
  repeat' first | with_reducible assumption | simp only [sameDev_mk]

theorem State.unitDone_sameDev {s0 s : State} (hs : SameDev s0 s) : SameDev s0 s.unitDone := by
  unfold State.unitDone
  repeat' first
    | with_reducible assumption
    | with_reducible apply State.raise_sameDev
    | with_reducible apply State.ledger_sameDev

theorem State.ageing_sameDev {s0 s : State} (hs : SameDev s0 s) (detail : Nat) : SameDev s0 (s.ageing detail) := by
  unfold State.ageing
  repeat' first
    | with_reducible assumption
    | with_reducible apply State.raise_sameDev
    | with_reducible apply State.ledger_sameDev

/-! ## Spares -/

theorem State.startEnd_sameDev {s0 s : State} (hs : SameDev s0 s) (b : Nat) : SameDev s0 (s.startEnd b) := by
  unfold State.startEnd
  repeat' first | with_reducible assumption | with_reducible apply State.setBe_sameDev

theorem State.stopEnd_sameDev {s0 s : State} (hs : SameDev s0 s) (b : Nat) : SameDev s0 (s.stopEnd b) := by
  unfold State.stopEnd
  dsimp only
  repeat' first | with_reducible assumption | with_reducible apply State.setBe_sameDev

theorem State.retire_sameDev {s0 s : State} (hs : SameDev s0 s) (n : Nat) (now : Bool) : SameDev s0 (s.retire n now) := by
  unfold State.retire
  dsimp only
  repeat' first
    | with_reducible assumption
    | with_reducible apply State.setChan_sameDev
    | with_reducible apply State.startEnd_sameDev

theorem State.changeOver_sameDev {s0 s : State} (hs : SameDev s0 s) (n b reason : Nat) (t : Int) (markers : List
    Item) :
    SameDev s0 (s.changeOver n b reason t markers) := by
  unfold State.changeOver
  try dsimp only
  repeat' first
    | with_reducible assumption
    | with_reducible apply ite_pred
    | with_reducible refine foldl_pred (fun _ _ _ => ?_) ?_
    | with_reducible apply State.pushDue_sameDev
    | with_reducible apply State.writeDue_sameDev
    | with_reducible apply State.beginCause_sameDev
    | with_reducible apply State.setSrc_sameDev

theorem State.switchAt_sameDev {s0 s : State} (hs : SameDev s0 s) (n count : Nat) (t : Int) :
    SameDev s0 (s.switchAt n count t) := by
  unfold State.switchAt
  try dsimp only
  repeat' first
    | with_reducible assumption
    | with_reducible apply ite_pred
    | with_reducible apply State.readCounter_sameDev
    | with_reducible apply State.changeOver_sameDev
    | with_reducible apply State.setChan_sameDev
    | with_reducible apply State.stopEnd_sameDev
    | with_reducible apply State.raise_sameDev
    | with_reducible apply State.unitDone_sameDev
    | simp only [sameDev_mk]
    | split

theorem State.rejoinAt_sameDev {s0 s : State} (hs : SameDev s0 s) (n : Nat) (t : Int) :
    SameDev s0 (s.rejoinAt n t) := by
  unfold State.rejoinAt
  try dsimp only
  repeat' first
    | with_reducible assumption
    | with_reducible apply State.changeOver_sameDev
    | with_reducible apply State.setChan_sameDev
    | with_reducible apply State.stopEnd_sameDev
    | with_reducible apply State.raise_sameDev
    | with_reducible apply State.unitDone_sameDev
    | simp only [sameDev_mk]

theorem State.switchOver_sameDev {s0 s : State} (hs : SameDev s0 s) (n count : Nat) :
    SameDev s0 (s.switchOver n count) := by
  unfold State.switchOver
  try dsimp only
  repeat' first
    | with_reducible assumption
    | with_reducible apply ite_pred
    | with_reducible apply State.switchAt_sameDev
    | split

theorem State.rejoin_sameDev {s0 s : State} (hs : SameDev s0 s) (n : Nat) : SameDev s0 (s.rejoin n) := by
  unfold State.rejoin
  try dsimp only
  repeat' first
    | with_reducible assumption
    | with_reducible apply ite_pred
    | with_reducible apply State.rejoinAt_sameDev
    | split

theorem State.changeBefore_sameDev {s0 s : State} (hs : SameDev s0 s) (n : Nat) (t : Int) :
    SameDev s0 (s.changeBefore n t) := by
  unfold State.changeBefore
  try dsimp only
  repeat' first
    | with_reducible assumption
    | with_reducible apply ite_pred
    | with_reducible apply State.switchAt_sameDev
    | with_reducible apply State.rejoinAt_sameDev
    | split

/-! ## FrontEnd -/

theorem State.compEdge_sameDev {s0 s : State} (hs : SameDev s0 s) (n : Nat) (pol : Bool) (bin : Nat) :
    SameDev s0 (s.compEdge n pol bin) := by
  unfold State.compEdge
  try dsimp only
  repeat' first
    | with_reducible assumption
    | with_reducible apply ite_pred
    | with_reducible apply State.setChan_sameDev
    | with_reducible apply State.changeBefore_sameDev
    | with_reducible apply State.takeBy_sameDev
    | with_reducible apply State.formEdge_sameDev
    | with_reducible apply State.outsideEdge_sameDev

theorem State.compareNew_sameDev {s0 s : State} (hs : SameDev s0 s) (n : Nat) (v : Input) (bin : Nat) :
    SameDev s0 (s.compareNew n v bin) := by
  unfold State.compareNew
  try dsimp only
  repeat' first
    | with_reducible assumption
    | with_reducible apply ite_pred
    | with_reducible apply State.compEdge_sameDev
    | with_reducible apply State.setChan_sameDev

theorem State.applyFe_sameDev {s0 s : State} (hs : SameDev s0 s) (n at_ : Nat) (input : Option (Input × Nat)) :
    SameDev s0 (s.applyFe n at_ input) := by
  unfold State.applyFe
  try dsimp only
  repeat' first
    | with_reducible assumption
    | with_reducible apply ite_pred
    | with_reducible apply State.applyAll_sameDev
    | with_reducible apply State.bump_sameDev
    | with_reducible apply State.setChan_sameDev
    | with_reducible apply State.pushDue_sameDev
    | with_reducible apply State.compareNew_sameDev
    | simp only [sameDev_mk]
    | split

theorem State.frameFronts_sameDev {s0 s : State} (hs : SameDev s0 s) (inst : Nat) (inputs : List (Nat × Input ×
    Nat)) :
    SameDev s0 (s.frameFronts inst inputs) := by
  unfold State.frameFronts
  repeat' first
    | with_reducible assumption
    | with_reducible apply ite_pred
    | with_reducible refine foldl_pred (fun _ _ _ => ?_) ?_
    | with_reducible apply State.applyFe_sameDev
    | split

theorem State.frameLatches_sameDev {s0 s : State} (hs : SameDev s0 s) : SameDev s0 s.frameLatches := by
  unfold State.frameLatches
  dsimp only
  repeat' first
    | with_reducible assumption
    | with_reducible apply ite_pred
    | with_reducible refine foldl_pred (fun _ _ _ => ?_) ?_
    | with_reducible apply State.setChan_sameDev
    | with_reducible apply State.settleTrips_sameDev

theorem State.deliverTrip_sameDev {s0 s : State} (hs : SameDev s0 s) (n : Nat) (t : Int) :
    SameDev s0 (s.deliverTrip n t) := by
  unfold State.deliverTrip
  repeat' first
    | with_reducible assumption
    | with_reducible apply ite_pred
    | with_reducible apply State.rulesTrip_sameDev
    | with_reducible apply State.aqEvents_sameDev
    | with_reducible apply State.masksTrip_sameDev

theorem State.winSample_sameDev {s0 s : State} (hs : SameDev s0 s) (n : Nat) (v : Input) (back : Nat) :
    SameDev s0 (s.winSample n v back) := by
  unfold State.winSample
  try dsimp only
  repeat' first
    | with_reducible assumption
    | with_reducible apply ite_pred
    | with_reducible apply State.setChan_sameDev
    | with_reducible apply State.settleTrips_sameDev
    | with_reducible apply State.raise_sameDev
    | with_reducible apply State.count_sameDev
    | with_reducible apply State.deliverTrip_sameDev

theorem State.winSamples_sameDev {s0 s : State} (hs : SameDev s0 s) (n : Nat) (vs : List Input) :
    SameDev s0 (s.winSamples n vs) := by
  induction vs generalizing s with
  | nil => exact hs
  | cons x xs ih =>
    rw [State.winSamples]
    exact ih (State.winSample_sameDev hs _ _ _)

theorem State.startWin_sameDev {s0 s : State} (hs : SameDev s0 s) (n : Nat) : SameDev s0 (s.startWin n) := by
  unfold State.startWin
  try dsimp only
  repeat' first
    | with_reducible assumption
    | with_reducible apply State.setChan_sameDev
    | with_reducible apply State.settleTrips_sameDev

theorem State.admitChan_sameDev {s0 s : State} (hs : SameDev s0 s) (n : Nat) : SameDev s0 (s.admitChan n) := by
  unfold State.admitChan
  try dsimp only
  repeat' first
    | with_reducible assumption
    | with_reducible apply ite_pred
    | with_reducible apply State.setChan_sameDev

theorem State.startChan_sameDev {s0 s : State} (hs : SameDev s0 s) (n : Nat) (v : Input) (bin : Nat) :
    SameDev s0 (s.startChan n v bin) := by
  unfold State.startChan
  try dsimp only
  repeat' first
    | with_reducible assumption
    | with_reducible apply ite_pred
    | with_reducible apply State.flush_sameDev
    | with_reducible apply State.setChan_sameDev
    | with_reducible apply State.startTaking_sameDev
    | with_reducible apply State.pushDue_sameDev
    | with_reducible apply State.beginCause_sameDev
    | with_reducible apply State.takeBy_sameDev
    | with_reducible apply State.formEdge_sameDev
    | simp only [sameDev_mk]
    | split

theorem State.withdrawWake_sameDev {s0 s : State} (hs : SameDev s0 s) (n : Nat) : SameDev s0 (s.withdrawWake n) := by
  unfold State.withdrawWake
  try dsimp only
  repeat' first
    | with_reducible assumption
    | with_reducible apply ite_pred
    | with_reducible apply State.retract_sameDev

theorem State.disarmChan_sameDev {s0 s : State} (hs : SameDev s0 s) (n : Nat) : SameDev s0 (s.disarmChan n) := by
  unfold State.disarmChan
  try dsimp only
  repeat' first
    | with_reducible assumption
    | with_reducible apply ite_pred
    | with_reducible apply State.setChan_sameDev
    | with_reducible apply State.retract_sameDev
    | with_reducible apply State.withdrawWake_sameDev
    | with_reducible apply State.stopTaking_sameDev
    | with_reducible apply State.touchIsland_sameDev
    | with_reducible apply State.releaseCost_sameDev

theorem execChannelStart_sameDev {s0 s : State} (t n : Nat) (input : Input) (bin : Nat) (hs : SameDev s0 s) :
    SameDevO s0 (execChannelStart t n input bin s) := by
  unfold execChannelStart
  repeat' first
    | with_reducible assumption
    | with_reducible apply ite_pred
    | with_reducible apply State.at_sameDev
    | with_reducible apply State.startChan_sameDev
    | with_reducible apply sameDevO_next
    | with_reducible exact sameDevO_fault

theorem execEdge_sameDev {s0 s : State} (t n : Nat) (pol : Bool) (bin : Nat) (hs : SameDev s0 s) :
    SameDevO s0 (execEdge t n pol bin s) := by
  unfold execEdge
  try dsimp only
  repeat' first
    | with_reducible assumption
    | with_reducible apply ite_pred
    | with_reducible apply State.at_sameDev
    | with_reducible apply State.flush_sameDev
    | with_reducible apply State.compEdge_sameDev
    | with_reducible apply State.setChan_sameDev
    | with_reducible apply sameDevO_next
    | with_reducible exact sameDevO_fault

theorem State.pulseIn_sameDev {s0 s : State} (hs : SameDev s0 s) (n width bin endBin : Nat) :
    SameDev s0 (s.pulseIn n width bin endBin) := by
  unfold State.pulseIn
  dsimp only
  repeat' first
    | with_reducible assumption
    | with_reducible apply ite_pred
    | with_reducible apply State.count_sameDev
    | with_reducible apply State.compEdge_sameDev
    | with_reducible apply State.free_sameDev
    | simp only [sameDev_mk]
    | with_reducible apply SameDevP.proj

theorem execRuntPulse_sameDev {s0 s : State} (t n width bin endBin : Nat) (hs : SameDev s0 s) :
    SameDevO s0 (execRuntPulse t n width bin endBin s) := by
  unfold execRuntPulse
  try dsimp only
  repeat' first
    | with_reducible assumption
    | with_reducible apply ite_pred
    | with_reducible apply State.at_sameDev
    | with_reducible apply State.flush_sameDev
    | with_reducible apply State.pulseIn_sameDev
    | with_reducible apply sameDevO_next
    | with_reducible exact sameDevO_fault

theorem execCommitApplyEarly_sameDev {s0 s : State} (t n : Nat) (input : Input) (bin : Nat) (hs : SameDev s0 s) :
    SameDevO s0 (execCommitApplyEarly t n input bin s) := by
  unfold execCommitApplyEarly
  try dsimp only
  repeat' first
    | with_reducible assumption
    | with_reducible apply ite_pred
    | with_reducible apply State.at_sameDev
    | with_reducible apply State.applyFe_sameDev
    | with_reducible apply State.earlyWave_sameDev
    | with_reducible apply sameDevO_next
    | with_reducible exact sameDevO_fault
    | split

theorem execSettleEnd_sameDev {s0 s : State} (t n : Nat) (hs : SameDev s0 s) : SameDevO s0 (execSettleEnd t n s) := by
  unfold execSettleEnd
  repeat' first
    | with_reducible assumption
    | with_reducible apply ite_pred
    | with_reducible apply State.at_sameDev
    | with_reducible apply State.flush_sameDev
    | with_reducible apply sameDevO_next
    | with_reducible exact sameDevO_fault

theorem State.detects_sameDev {s0 s : State} (hs : SameDev s0 s) (peak : Nat) : SameDevP s0 (s.detects peak) := by
  unfold State.detects
  try dsimp only
  repeat' first
    | with_reducible assumption
    | with_reducible apply ite_pred
    | with_reducible apply State.free_sameDev
    | with_reducible refine SameDevP.snd (by assumption) ?_
    | with_reducible apply SameDevP.proj
    | simp only [sameDevP_mk]

theorem State.overdrive_sameDev {s0 s : State} (hs : SameDev s0 s) (n cls : Nat) :
    SameDev s0 (s.overdrive n cls) := by
  unfold State.overdrive
  try dsimp only
  repeat' first
    | with_reducible assumption
    | with_reducible apply ite_pred
    | with_reducible apply State.count_sameDev
    | with_reducible apply State.setChan_sameDev

theorem execOverdriveStart_sameDev {s0 s : State} (t n : Nat) (peak : Input) (hs : SameDev s0 s) :
    SameDevO s0 (execOverdriveStart t n peak s) := by
  unfold execOverdriveStart
  try dsimp only
  repeat' first
    | with_reducible assumption
    | with_reducible apply ite_pred
    | with_reducible apply State.at_sameDev
    | with_reducible apply State.detects_sameDev
    | with_reducible apply State.overdrive_sameDev
    | with_reducible refine SameDevP.snd (by assumption) ?_
    | with_reducible apply SameDevP.proj
    | with_reducible apply sameDevO_next
    | with_reducible exact sameDevO_fault

theorem execOverdriveEnd_sameDev {s0 s : State} (t n : Nat) (hs : SameDev s0 s) : SameDevO s0 (execOverdriveEnd t n s) := by
  unfold execOverdriveEnd
  dsimp only
  repeat' first
    | with_reducible assumption
    | with_reducible apply ite_pred
    | with_reducible apply State.at_sameDev
    | with_reducible apply State.setChan_sameDev
    | with_reducible apply sameDevO_next
    | with_reducible exact sameDevO_fault

theorem execWindowAssert_sameDev {s0 s : State} (t n : Nat) (samples : List Input) (hs : SameDev s0 s) :
    SameDevO s0 (execWindowAssert t n samples s) := by
  unfold execWindowAssert
  repeat' first
    | with_reducible assumption
    | with_reducible apply ite_pred
    | with_reducible apply State.at_sameDev
    | with_reducible apply State.winSamples_sameDev
    | with_reducible apply sameDevO_next
    | with_reducible exact sameDevO_fault

theorem execWindowDeassert_sameDev {s0 s : State} (t n : Nat) (samples : List Input) (hs : SameDev s0 s) :
    SameDevO s0 (execWindowDeassert t n samples s) := by
  unfold execWindowDeassert
  repeat' first
    | with_reducible assumption
    | with_reducible apply ite_pred
    | with_reducible apply State.at_sameDev
    | with_reducible apply State.winSamples_sameDev
    | with_reducible apply sameDevO_next
    | with_reducible exact sameDevO_fault

theorem execWindowHoldEnd_sameDev {s0 s : State} (t n : Nat) (hs : SameDev s0 s) :
    SameDevO s0 (execWindowHoldEnd t n s) := by
  unfold execWindowHoldEnd
  try dsimp only
  repeat' first
    | with_reducible assumption
    | with_reducible apply ite_pred
    | with_reducible apply State.at_sameDev
    | with_reducible apply State.setChan_sameDev
    | with_reducible apply sameDevO_next
    | with_reducible exact sameDevO_fault
    | simp only [sameDev_mk]
    | split

/-! ## BackEnd -/

theorem State.overflowEnds_sameDev {s0 s : State} (hs : SameDev s0 s) (k : Nat) : SameDev s0 (s.overflowEnds k) := by
  unfold State.overflowEnds
  repeat' first
    | with_reducible assumption
    | with_reducible apply ite_pred
    | with_reducible apply State.endCause_sameDev

theorem State.calHit_sameDev {s0 s : State} (hs : SameDev s0 s) (b bin : Nat) : SameDev s0 (s.calHit b bin) := by
  unfold State.calHit
  dsimp only
  repeat' first
    | with_reducible assumption
    | with_reducible apply ite_pred
    | with_reducible apply State.setBe_sameDev

theorem State.buildTables_sameDev {s0 s : State} (hs : SameDev s0 s) (b : Nat) : SameDev s0 (s.buildTables b) := by
  unfold State.buildTables
  try dsimp only
  repeat' first
    | with_reducible assumption
    | with_reducible apply ite_pred
    | with_reducible apply State.setBe_sameDev
    | with_reducible apply State.setChan_sameDev
    | with_reducible apply State.ageing_sameDev
    | with_reducible apply State.raise_sameDev
    | simp only [sameDev_mk]
    | split

theorem State.warmupOver_sameDev {s0 s : State} (hs : SameDev s0 s) (n : Nat) : SameDev s0 (s.warmupOver n) := by
  unfold State.warmupOver
  dsimp only
  repeat' first
    | with_reducible assumption
    | with_reducible apply ite_pred
    | with_reducible apply State.raise_sameDev
    | with_reducible apply State.setChan_sameDev

theorem State.beFault_sameDev {s0 s : State} (hs : SameDev s0 s) (b : Nat) : SameDev s0 (s.beFault b) := by
  unfold State.beFault
  try dsimp only
  repeat' first
    | with_reducible assumption
    | with_reducible apply ite_pred
    | with_reducible apply State.setBe_sameDev
    | with_reducible apply State.raise_sameDev
    | with_reducible apply State.beginCause_sameDev
    | with_reducible apply State.retire_sameDev
    | simp only [sameDev_mk]
    | split

theorem execOverflowEnd_sameDev {s0 s : State} (t src : Nat) (hs : SameDev s0 s) :
    SameDevO s0 (execOverflowEnd t src s) := by
  unfold execOverflowEnd
  repeat' first
    | with_reducible assumption
    | with_reducible apply ite_pred
    | with_reducible apply State.at_sameDev
    | with_reducible apply State.overflowEnds_sameDev
    | with_reducible apply sameDevO_next
    | with_reducible exact sameDevO_fault

theorem execPeriodicAnchor_sameDev {s0 s : State} (t src : Nat) (hs : SameDev s0 s) :
    SameDevO s0 (execPeriodicAnchor t src s) := by
  unfold execPeriodicAnchor
  repeat' first
    | with_reducible assumption
    | with_reducible apply ite_pred
    | with_reducible apply State.at_sameDev
    | with_reducible apply State.flush_sameDev
    | with_reducible apply sameDevO_next
    | with_reducible exact sameDevO_fault

theorem execGapAnchor_sameDev {s0 s : State} (t src : Nat) (hs : SameDev s0 s) :
    SameDevO s0 (execGapAnchor t src s) := by
  unfold execGapAnchor
  repeat' first
    | with_reducible assumption
    | with_reducible apply ite_pred
    | with_reducible apply State.at_sameDev
    | with_reducible apply State.flush_sameDev
    | with_reducible apply sameDevO_next
    | with_reducible exact sameDevO_fault

theorem execCalibrationHit_sameDev {s0 s : State} (t be bin : Nat) (hs : SameDev s0 s) :
    SameDevO s0 (execCalibrationHit t be bin s) := by
  unfold execCalibrationHit
  repeat' first
    | with_reducible assumption
    | with_reducible apply ite_pred
    | with_reducible apply State.at_sameDev
    | with_reducible apply State.calHit_sameDev
    | with_reducible apply sameDevO_next
    | with_reducible exact sameDevO_fault

theorem execCalTableBuild_sameDev {s0 s : State} (t be : Nat) (hs : SameDev s0 s) :
    SameDevO s0 (execCalTableBuild t be s) := by
  unfold execCalTableBuild
  repeat' first
    | with_reducible assumption
    | with_reducible apply ite_pred
    | with_reducible apply State.at_sameDev
    | with_reducible apply State.buildTables_sameDev
    | with_reducible apply sameDevO_next
    | with_reducible exact sameDevO_fault

theorem execSwitch_sameDev {s0 s : State} (t n count : Nat) (hs : SameDev s0 s) : SameDevO s0 (execSwitch t n count s) := by
  unfold execSwitch
  repeat' first
    | with_reducible assumption
    | with_reducible apply ite_pred
    | with_reducible apply State.at_sameDev
    | with_reducible apply State.switchOver_sameDev
    | with_reducible apply sameDevO_next
    | with_reducible exact sameDevO_fault

theorem execSpareWarmupTimeout_sameDev {s0 s : State} (t n : Nat) (hs : SameDev s0 s) :
    SameDevO s0 (execSpareWarmupTimeout t n s) := by
  unfold execSpareWarmupTimeout
  repeat' first
    | with_reducible assumption
    | with_reducible apply ite_pred
    | with_reducible apply State.at_sameDev
    | with_reducible apply State.warmupOver_sameDev
    | with_reducible apply sameDevO_next
    | with_reducible exact sameDevO_fault

theorem execRejoin_sameDev {s0 s : State} (t n : Nat) (hs : SameDev s0 s) : SameDevO s0 (execRejoin t n s) := by
  unfold execRejoin
  repeat' first
    | with_reducible assumption
    | with_reducible apply ite_pred
    | with_reducible apply State.at_sameDev
    | with_reducible apply State.rejoin_sameDev
    | with_reducible apply sameDevO_next
    | with_reducible exact sameDevO_fault

theorem execBackendFault_sameDev {s0 s : State} (t be : Nat) (hs : SameDev s0 s) :
    SameDevO s0 (execBackendFault t be s) := by
  unfold execBackendFault
  repeat' first
    | with_reducible assumption
    | with_reducible apply ite_pred
    | with_reducible apply State.at_sameDev
    | with_reducible apply State.beFault_sameDev
    | with_reducible apply sameDevO_next
    | with_reducible exact sameDevO_fault

theorem execInterpolatorNoHits_sameDev {s0 s : State} (t be : Nat) (hs : SameDev s0 s) :
    SameDevO s0 (execInterpolatorNoHits t be s) := by
  unfold execInterpolatorNoHits
  try dsimp only
  repeat' first
    | with_reducible assumption
    | with_reducible apply ite_pred
    | with_reducible apply State.at_sameDev
    | with_reducible apply State.beFault_sameDev
    | with_reducible apply sameDevO_next
    | with_reducible exact sameDevO_fault

/-! ## Lifecycle -/

theorem State.mark_sameDev {s0 s : State} (hs : SameDev s0 s) (n : Nat) : SameDev s0 (s.mark n) := by
  unfold State.mark
  repeat' first
    | with_reducible assumption
    | with_reducible apply ite_pred
    | with_reducible apply State.put_sameDev

theorem State.noteBoot_sameDev {s0 s : State} (hs : SameDev s0 s) : SameDev s0 s.noteBoot := by
  unfold State.noteBoot
  dsimp only
  repeat' first
    | with_reducible assumption
    | with_reducible apply ite_pred
    | with_reducible apply State.mark_sameDev
    | simp only [sameDev_mk]

theorem State.restoreHeld_sameDev {s0 s : State} (hs : SameDev s0 s) (k : Nat) : SameDev s0 (s.restoreHeld k) := by
  unfold State.restoreHeld
  dsimp only
  repeat' first
    | with_reducible assumption
    | with_reducible apply ite_pred
    | with_reducible apply State.setRest_sameDev
    | split

/-! ## Lanes -/

theorem State.enqueue_sameDev {s0 s : State} (hs : SameDev s0 s) (l : Nat) (keep : Bool) :
    SameDev s0 (s.enqueue l keep) := by
  unfold State.enqueue
  dsimp only
  repeat' first
    | with_reducible assumption
    | with_reducible apply ite_pred
    | with_reducible apply State.setLane_sameDev
    | with_reducible apply State.setQuad_sameDev

theorem State.wakeLanes_sameDev {s0 s : State} (hs : SameDev s0 s) : SameDev s0 s.wakeLanes := by
  unfold State.wakeLanes
  try dsimp only
  repeat' first
    | with_reducible assumption
    | with_reducible apply ite_pred
    | with_reducible refine foldl_pred (fun _ _ _ => ?_) ?_
    | with_reducible apply State.setLane_sameDev
    | with_reducible apply State.enqueue_sameDev
    | simp only [sameDev_mk]

theorem State.noteEnable_sameDev {s0 s : State} (hs : SameDev s0 s) (l : Nat) : SameDev s0 (s.noteEnable l) := by
  unfold State.noteEnable
  dsimp only
  repeat' first
    | with_reducible assumption
    | with_reducible apply ite_pred
    | with_reducible apply State.setLane_sameDev

theorem State.loseBlocks_sameDev {s0 s : State} (hs : SameDev s0 s) (l : Nat) : SameDev s0 (s.loseBlocks l) := by
  unfold State.loseBlocks
  dsimp only
  repeat' first
    | with_reducible assumption
    | with_reducible apply ite_pred
    | with_reducible apply State.raise_sameDev
    | with_reducible apply State.setLane_sameDev

theorem State.stopLane_sameDev {s0 s : State} (hs : SameDev s0 s) (l : Nat) (lock : Bool) :
    SameDev s0 (s.stopLane l lock) := by
  unfold State.stopLane
  dsimp only
  repeat' first
    | with_reducible assumption
    | with_reducible apply ite_pred
    | with_reducible apply State.setLane_sameDev
    | with_reducible apply State.loseBlocks_sameDev

theorem State.toSeek_sameDev {s0 s : State} (hs : SameDev s0 s) (l : Nat) : SameDev s0 (s.toSeek l) := by
  unfold State.toSeek
  dsimp only
  repeat' first
    | with_reducible assumption
    | with_reducible apply State.setLane_sameDev
    | with_reducible apply State.noteBoot_sameDev
    | with_reducible apply State.stopLane_sameDev

theorem State.retireNow_sameDev {s0 s : State} (hs : SameDev s0 s) (l : Nat) : SameDev s0 (s.retireNow l) := by
  unfold State.retireNow
  dsimp only
  repeat' first
    | with_reducible assumption
    | with_reducible apply State.setLane_sameDev
    | with_reducible apply State.releaseCost_sameDev
    | with_reducible apply State.unitDone_sameDev
    | with_reducible apply State.noteBoot_sameDev
    | with_reducible apply State.stopLane_sameDev
    | simp only [sameDev_mk]

theorem State.unuse_sameDev {s0 s : State} (hs : SameDev s0 s) (l : Nat) : SameDev s0 (s.unuse l) := by
  unfold State.unuse
  try dsimp only
  repeat' first
    | with_reducible assumption
    | with_reducible apply State.stopLane_sameDev
    | with_reducible apply State.setLane_sameDev
    | with_reducible apply State.noteBoot_sameDev

theorem State.trainedLane_sameDev {s0 s : State} (hs : SameDev s0 s) (l : Nat) : SameDev s0 (s.trainedLane l) := by
  unfold State.trainedLane
  dsimp only
  repeat' first
    | with_reducible assumption
    | with_reducible apply ite_pred
    | with_reducible apply State.count_sameDev
    | with_reducible apply State.setSlot_sameDev
    | with_reducible apply State.setLane_sameDev
    | with_reducible apply State.unitDone_sameDev
    | with_reducible apply State.noteBoot_sameDev
    | with_reducible apply State.retireNow_sameDev
    | simp only [sameDev_mk]

theorem State.startRetrain_sameDev {s0 s : State} (hs : SameDev s0 s) (l : Nat) : SameDev s0 (s.startRetrain l) := by
  unfold State.startRetrain
  try dsimp only
  repeat' first
    | with_reducible assumption
    | with_reducible apply ite_pred
    | with_reducible apply State.stopLane_sameDev
    | with_reducible apply State.setSlot_sameDev
    | with_reducible apply State.setLane_sameDev
    | with_reducible apply State.enqueue_sameDev

theorem State.takePlace_sameDev {s0 s : State} (hs : SameDev s0 s) (l : Nat) : SameDev s0 (s.takePlace l) := by
  unfold State.takePlace
  try dsimp only
  repeat' first
    | with_reducible assumption
    | with_reducible apply ite_pred
    | with_reducible apply State.setLane_sameDev

theorem State.nextPhase_sameDev {s0 s : State} (hs : SameDev s0 s) (l state : Nat) : SameDev s0 (s.nextPhase l state) := by
  unfold State.nextPhase
  dsimp only
  repeat' first | with_reducible assumption | with_reducible apply State.setLane_sameDev

theorem State.signalDone_sameDev {s0 s : State} (hs : SameDev s0 s) (l : Nat) : SameDev s0 (s.signalDone l) := by
  unfold State.signalDone
  dsimp only
  repeat' first
    | with_reducible assumption
    | with_reducible apply ite_pred
    | with_reducible apply State.setLane_sameDev
    | with_reducible apply State.setQuad_sameDev
    | with_reducible apply State.nextPhase_sameDev

theorem State.lockDone_sameDev {s0 s : State} (hs : SameDev s0 s) (l : Nat) : SameDev s0 (s.lockDone l) := by
  unfold State.lockDone
  try dsimp only
  repeat' first
    | with_reducible assumption
    | with_reducible apply ite_pred
    | with_reducible apply State.free_sameDev
    | with_reducible apply State.count_sameDev
    | with_reducible apply State.setLane_sameDev
    | with_reducible apply State.nextPhase_sameDev
    | with_reducible refine SameDevP.snd (by assumption) ?_
    | with_reducible apply SameDevP.proj

theorem State.sendTrain_sameDev {s0 s : State} (hs : SameDev s0 s) (l : Nat) : SameDev s0 (s.sendTrain l) := by
  unfold State.sendTrain
  try dsimp only
  repeat' first | with_reducible assumption | with_reducible apply State.sendBlock_sameDev

theorem State.adaptDone_sameDev {s0 s : State} (hs : SameDev s0 s) (l ctle : Nat) (dfe : List Int) :
    SameDev s0 (s.adaptDone l ctle dfe) := by
  unfold State.adaptDone
  try dsimp only
  repeat' first
    | with_reducible assumption
    | with_reducible apply ite_pred
    | with_reducible apply State.setLane_sameDev
    | with_reducible apply State.trainedLane_sameDev
    | with_reducible apply State.nextPhase_sameDev
    | with_reducible apply State.sendTrain_sameDev

theorem State.ffeDone_sameDev {s0 s : State} (hs : SameDev s0 s) (l : Nat) : SameDev s0 (s.ffeDone l) := by
  unfold State.ffeDone
  repeat' first
    | with_reducible assumption
    | with_reducible apply ite_pred
    | with_reducible apply State.trainedLane_sameDev

theorem State.timeoutLane_sameDev {s0 s : State} (hs : SameDev s0 s) (l : Nat) : SameDev s0 (s.timeoutLane l) := by
  unfold State.timeoutLane
  dsimp only
  repeat' first
    | with_reducible assumption
    | with_reducible apply ite_pred
    | with_reducible apply State.raise_sameDev
    | with_reducible apply State.toSeek_sameDev

theorem State.retrySeek_sameDev {s0 s : State} (hs : SameDev s0 s) (l : Nat) (signal : Bool) :
    SameDev s0 (s.retrySeek l signal) := by
  unfold State.retrySeek
  try dsimp only
  repeat' first
    | with_reducible assumption
    | with_reducible apply ite_pred
    | with_reducible apply State.setLane_sameDev
    | with_reducible apply State.enqueue_sameDev

theorem State.exitDone_sameDev {s0 s : State} (hs : SameDev s0 s) (q : Nat) : SameDev s0 (s.exitDone q) := by
  unfold State.exitDone
  dsimp only
  repeat' first
    | with_reducible assumption
    | with_reducible apply ite_pred
    | with_reducible refine foldl_pred (fun _ _ _ => ?_) ?_
    | with_reducible apply State.setLane_sameDev
    | with_reducible apply State.setQuad_sameDev
    | with_reducible apply State.wakeLanes_sameDev

theorem State.exitLate_sameDev {s0 s : State} (hs : SameDev s0 s) (l : Nat) : SameDev s0 (s.exitLate l) := by
  unfold State.exitLate
  dsimp only
  repeat' first
    | with_reducible assumption
    | with_reducible apply ite_pred
    | with_reducible apply State.setLane_sameDev
    | with_reducible apply State.setQuad_sameDev
    | with_reducible apply State.enqueue_sameDev
    | with_reducible apply State.wakeLanes_sameDev
    | with_reducible apply State.stopLane_sameDev

theorem State.measureEye_sameDev {s0 s : State} (hs : SameDev s0 s) (l vm hm : Nat) :
    SameDev s0 (s.measureEye l vm hm) := by
  unfold State.measureEye
  dsimp only
  repeat' first
    | with_reducible assumption
    | with_reducible apply ite_pred
    | with_reducible apply State.put_sameDev
    | with_reducible apply State.raise_sameDev
    | with_reducible apply State.setLane_sameDev
    | with_reducible apply State.startRetrain_sameDev

theorem State.adaptLane_sameDev {s0 s : State} (hs : SameDev s0 s) (l : Nat) (steps : List Int) :
    SameDev s0 (s.adaptLane l steps) := by
  unfold State.adaptLane
  dsimp only
  repeat' first
    | with_reducible assumption
    | with_reducible apply ite_pred
    | with_reducible refine foldl_pred (fun _ _ _ => ?_) ?_
    | with_reducible apply State.count_sameDev
    | with_reducible apply State.raise_sameDev
    | with_reducible apply State.setLane_sameDev

theorem execLaneStartTime_sameDev {s0 s : State} (t : Nat) (hs : SameDev s0 s) : SameDevO s0 (execLaneStartTime t s) := by
  unfold execLaneStartTime
  repeat' first
    | with_reducible assumption
    | with_reducible apply State.at_sameDev
    | with_reducible apply State.wakeLanes_sameDev
    | with_reducible apply sameDevO_next

theorem execAttempt_sameDev {s0 s : State} (t l : Nat) (hs : SameDev s0 s) : SameDevO s0 (execAttempt t l s) := by
  unfold execAttempt
  repeat' first
    | with_reducible assumption
    | with_reducible apply ite_pred
    | with_reducible apply State.at_sameDev
    | with_reducible apply State.takePlace_sameDev
    | with_reducible apply sameDevO_next
    | with_reducible exact sameDevO_fault

theorem execSignal_sameDev {s0 s : State} (t l : Nat) (hs : SameDev s0 s) : SameDevO s0 (execSignal t l s) := by
  unfold execSignal
  repeat' first
    | with_reducible assumption
    | with_reducible apply ite_pred
    | with_reducible apply State.at_sameDev
    | with_reducible apply State.signalDone_sameDev
    | with_reducible apply sameDevO_next
    | with_reducible exact sameDevO_fault

theorem execLock_sameDev {s0 s : State} (t l : Nat) (hs : SameDev s0 s) : SameDevO s0 (execLock t l s) := by
  unfold execLock
  repeat' first
    | with_reducible assumption
    | with_reducible apply ite_pred
    | with_reducible apply State.at_sameDev
    | with_reducible apply State.lockDone_sameDev
    | with_reducible apply sameDevO_next
    | with_reducible exact sameDevO_fault

theorem execAdapt_sameDev {s0 s : State} (t l ctle : Nat) (dfe : List Int) (hs : SameDev s0 s) :
    SameDevO s0 (execAdapt t l ctle dfe s) := by
  unfold execAdapt
  repeat' first
    | with_reducible assumption
    | with_reducible apply ite_pred
    | with_reducible apply State.at_sameDev
    | with_reducible apply State.adaptDone_sameDev
    | with_reducible apply sameDevO_next
    | with_reducible exact sameDevO_fault

theorem execFfe_sameDev {s0 s : State} (t l : Nat) (hs : SameDev s0 s) : SameDevO s0 (execFfe t l s) := by
  unfold execFfe
  repeat' first
    | with_reducible assumption
    | with_reducible apply ite_pred
    | with_reducible apply State.at_sameDev
    | with_reducible apply State.ffeDone_sameDev
    | with_reducible apply sameDevO_next
    | with_reducible exact sameDevO_fault

theorem execTrainingTimeout_sameDev {s0 s : State} (t l : Nat) (hs : SameDev s0 s) :
    SameDevO s0 (execTrainingTimeout t l s) := by
  unfold execTrainingTimeout
  repeat' first
    | with_reducible assumption
    | with_reducible apply ite_pred
    | with_reducible apply State.at_sameDev
    | with_reducible apply State.timeoutLane_sameDev
    | with_reducible apply sameDevO_next
    | with_reducible exact sameDevO_fault

theorem execSeekRetry_sameDev {s0 s : State} (t l : Nat) (signal : Bool) (hs : SameDev s0 s) :
    SameDevO s0 (execSeekRetry t l signal s) := by
  unfold execSeekRetry
  repeat' first
    | with_reducible assumption
    | with_reducible apply ite_pred
    | with_reducible apply State.at_sameDev
    | with_reducible apply State.retrySeek_sameDev
    | with_reducible apply sameDevO_next
    | with_reducible exact sameDevO_fault

theorem execEyeMeasurement_sameDev {s0 s : State} (t l vm hm : Nat) (hs : SameDev s0 s) :
    SameDevO s0 (execEyeMeasurement t l vm hm s) := by
  unfold execEyeMeasurement
  repeat' first
    | with_reducible assumption
    | with_reducible apply ite_pred
    | with_reducible apply State.at_sameDev
    | with_reducible apply State.measureEye_sameDev
    | with_reducible apply sameDevO_next
    | with_reducible exact sameDevO_fault

theorem execAdaptationUpdate_sameDev {s0 s : State} (t l : Nat) (steps : List Int) (hs : SameDev s0 s) :
    SameDevO s0 (execAdaptationUpdate t l steps s) := by
  unfold execAdaptationUpdate
  repeat' first
    | with_reducible assumption
    | with_reducible apply ite_pred
    | with_reducible apply State.at_sameDev
    | with_reducible apply State.adaptLane_sameDev
    | with_reducible apply sameDevO_next
    | with_reducible exact sameDevO_fault

theorem execAdaptationFreeze_sameDev {s0 s : State} (t l : Nat) (hs : SameDev s0 s) :
    SameDevO s0 (execAdaptationFreeze t l s) := by
  unfold execAdaptationFreeze
  dsimp only
  repeat' first
    | with_reducible assumption
    | with_reducible apply ite_pred
    | with_reducible apply State.at_sameDev
    | with_reducible apply State.setLane_sameDev
    | with_reducible apply sameDevO_next
    | with_reducible exact sameDevO_fault

theorem execP2ExitComplete_sameDev {s0 s : State} (t q : Nat) (hs : SameDev s0 s) :
    SameDevO s0 (execP2ExitComplete t q s) := by
  unfold execP2ExitComplete
  repeat' first
    | with_reducible assumption
    | with_reducible apply ite_pred
    | with_reducible apply State.at_sameDev
    | with_reducible apply State.exitDone_sameDev
    | with_reducible apply sameDevO_next
    | with_reducible exact sameDevO_fault

theorem execP2ExitTimeout_sameDev {s0 s : State} (t l : Nat) (hs : SameDev s0 s) :
    SameDevO s0 (execP2ExitTimeout t l s) := by
  unfold execP2ExitTimeout
  repeat' first
    | with_reducible assumption
    | with_reducible apply ite_pred
    | with_reducible apply State.at_sameDev
    | with_reducible apply State.exitLate_sameDev
    | with_reducible apply sameDevO_next
    | with_reducible exact sameDevO_fault

theorem execP1SignalReturn_sameDev {s0 s : State} (t l : Nat) (hs : SameDev s0 s) :
    SameDevO s0 (execP1SignalReturn t l s) := by
  unfold execP1SignalReturn
  try dsimp only
  repeat' first
    | with_reducible assumption
    | with_reducible apply ite_pred
    | with_reducible apply State.at_sameDev
    | with_reducible apply State.setLane_sameDev
    | with_reducible apply sameDevO_next
    | with_reducible exact sameDevO_fault

/-! ## TimeBase -/

theorem State.rescaleMarker_sameDev {s0 s : State} (hs : SameDev s0 s) (k : Nat) (delta from_ : Int) :
    SameDev s0 (s.rescaleMarker k delta from_) := by
  unfold State.rescaleMarker
  dsimp only
  repeat' first
    | with_reducible assumption
    | with_reducible apply ite_pred
    | with_reducible apply State.count_sameDev
    | with_reducible apply State.setMarker_sameDev
    | split

theorem State.stopAt_sameDev {s0 s : State} (hs : SameDev s0 s) (k : Nat) (b : Int) : SameDev s0 (s.stopAt k b) := by
  unfold State.stopAt
  try dsimp only
  repeat' first
    | with_reducible assumption
    | with_reducible apply State.stopTaking_sameDev
    | with_reducible apply State.writeDue_sameDev
    | with_reducible apply State.setSrc_sameDev

theorem State.stepOut_sameDev {s0 s : State} (hs : SameDev s0 s) (k : Nat) : SameDev s0 (s.stepOut k) := by
  unfold State.stepOut
  try dsimp only
  repeat' first
    | with_reducible assumption
    | with_reducible apply ite_pred
    | with_reducible apply State.setSrc_sameDev
    | with_reducible apply State.stopAt_sameDev

theorem State.stepIn_sameDev {s0 s : State} (hs : SameDev s0 s) (k : Nat) : SameDev s0 (s.stepIn k) := by
  unfold State.stepIn
  repeat' first | with_reducible assumption | with_reducible apply State.startTaking_sameDev

theorem State.moveOrigin_sameDev {s0 s : State} (hs : SameDev s0 s) (origin : Int) (aligned : Bool) :
    SameDev s0 (s.moveOrigin origin aligned) := by
  unfold State.moveOrigin
  dsimp only
  repeat' first
    | with_reducible assumption
    | with_reducible refine foldl_pred (fun _ _ _ => ?_) ?_
    | with_reducible apply State.rescaleMarker_sameDev
    | with_reducible apply State.stepOut_sameDev
    | with_reducible apply State.stepIn_sameDev
    | simp only [sameDev_mk]

theorem State.startTime_sameDev {s0 s : State} (hs : SameDev s0 s) (x : Nat) (at_ pps : Int) (aligned : Bool) :
    SameDev s0 (s.startTime x at_ pps aligned) := by
  unfold State.startTime
  try dsimp only
  repeat' first
    | with_reducible assumption
    | with_reducible apply ite_pred
    | with_reducible refine foldl_pred (fun _ _ _ => ?_) ?_
    | with_reducible apply State.startTaking_sameDev
    | with_reducible apply State.rescaleMarker_sameDev
    | with_reducible apply State.startLoop_sameDev
    | with_reducible apply State.mark_sameDev
    | with_reducible apply State.noteBoot_sameDev
    | simp only [sameDev_mk]

theorem State.startPlain_sameDev {s0 s : State} (hs : SameDev s0 s) (x : Nat) : SameDev s0 (s.startPlain x) := by
  unfold State.startPlain
  try dsimp only
  repeat' first | with_reducible assumption | with_reducible apply State.startTime_sameDev

theorem State.beginTime_sameDev {s0 s : State} (hs : SameDev s0 s) : SameDev s0 s.beginTime := by
  unfold State.beginTime
  try dsimp only
  repeat' first
    | with_reducible assumption
    | with_reducible apply ite_pred
    | with_reducible apply State.startPlain_sameDev
    | simp only [sameDev_mk]

theorem State.lockRef_sameDev {s0 s : State} (hs : SameDev s0 s) (hz since phase refOut : Nat) :
    SameDev s0 (s.lockRef hz since phase refOut) := by
  unfold State.lockRef
  try dsimp only
  repeat' first
    | with_reducible assumption
    | with_reducible apply ite_pred
    | with_reducible apply State.put_sameDev
    | with_reducible apply State.mark_sameDev
    | with_reducible apply State.beginTime_sameDev
    | simp only [sameDev_mk]
    | split

theorem State.holdRef_sameDev {s0 s : State} (hs : SameDev s0 s) (hz missed : Nat) :
    SameDev s0 (s.holdRef hz missed) := by
  unfold State.holdRef
  repeat' first | with_reducible assumption | with_reducible apply ite_pred | simp only [sameDev_mk]

theorem State.ppsPulse_sameDev {s0 s : State} (hs : SameDev s0 s) (good : Bool) : SameDev s0 (s.ppsPulse good) := by
  unfold State.ppsPulse
  dsimp only
  repeat' first | with_reducible assumption | simp only [sameDev_mk]

theorem State.checkPps_sameDev {s0 s : State} (hs : SameDev s0 s) (t : Int) : SameDev s0 (s.checkPps t) := by
  unfold State.checkPps
  dsimp only
  repeat' first
    | with_reducible assumption
    | with_reducible apply ite_pred
    | with_reducible apply State.put_sameDev
    | with_reducible apply State.count_sameDev
    | with_reducible apply State.free_sameDev
    | with_reducible apply State.ppsPulse_sameDev
    | with_reducible apply SameDevP.proj
    | simp only [sameDev_mk]

theorem State.ppsForm_sameDev {s0 s : State} (hs : SameDev s0 s) (t : Int) (pol : Bool) :
    SameDev s0 (s.ppsForm t pol) := by
  unfold State.ppsForm
  repeat' first
    | with_reducible assumption
    | with_reducible apply State.takeBy_sameDev
    | with_reducible apply State.formEdge_sameDev

theorem State.ppsRecord_sameDev {s0 s : State} (hs : SameDev s0 s) (pol : Bool) (bin : Nat) (check : Bool) :
    SameDev s0 (s.ppsRecord pol bin check) := by
  unfold State.ppsRecord
  try dsimp only
  repeat' first
    | with_reducible assumption
    | with_reducible apply ite_pred
    | with_reducible apply State.ppsForm_sameDev
    | with_reducible apply State.checkPps_sameDev

theorem State.alignFirst_sameDev {s0 s : State} (hs : SameDev s0 s) (pol : Bool) (refOut : Nat) :
    SameDev s0 (s.alignFirst pol refOut) := by
  unfold State.alignFirst
  try dsimp only
  repeat' first
    | with_reducible assumption
    | with_reducible apply State.free_sameDev
    | with_reducible apply State.startTime_sameDev
    | with_reducible apply State.put_sameDev
    | with_reducible apply State.ppsForm_sameDev
    | with_reducible refine SameDevP.snd (by assumption) ?_
    | with_reducible apply SameDevP.proj

theorem State.realignTo_sameDev {s0 s : State} (hs : SameDev s0 s) (n : Int) (pol : Bool) (refOut : Nat) :
    SameDev s0 (s.realignTo n pol refOut) := by
  unfold State.realignTo
  try dsimp only
  repeat' first
    | with_reducible assumption
    | with_reducible apply State.moveOrigin_sameDev
    | with_reducible apply State.put_sameDev
    | with_reducible apply State.ppsForm_sameDev
    | simp only [sameDev_mk]

theorem State.ppsEdge_sameDev {s0 s : State} (hs : SameDev s0 s) (pol : Bool) (bin refOut : Nat) :
    SameDev s0 (s.ppsEdge pol bin refOut) := by
  unfold State.ppsEdge
  try dsimp only
  repeat' first
    | with_reducible assumption
    | with_reducible apply ite_pred
    | with_reducible apply State.alignFirst_sameDev
    | with_reducible apply State.realignTo_sameDev
    | with_reducible apply State.ppsRecord_sameDev
    | split

theorem State.ppsMissing_sameDev {s0 s : State} (hs : SameDev s0 s) : SameDev s0 s.ppsMissing := by
  unfold State.ppsMissing
  dsimp only
  repeat' first
    | with_reducible assumption
    | with_reducible apply ite_pred
    | with_reducible apply State.ppsPulse_sameDev
    | simp only [sameDev_mk]

theorem State.waitOver_sameDev {s0 s : State} (hs : SameDev s0 s) : SameDev s0 s.waitOver := by
  unfold State.waitOver
  try dsimp only
  repeat' first
    | with_reducible assumption
    | with_reducible apply ite_pred
    | with_reducible apply State.startPlain_sameDev
    | split

theorem State.realignOver_sameDev {s0 s : State} (hs : SameDev s0 s) : SameDev s0 s.realignOver := by
  unfold State.realignOver
  dsimp only
  repeat' first
    | with_reducible assumption
    | with_reducible apply ite_pred
    | with_reducible apply State.raise_sameDev
    | simp only [sameDev_mk]
    | split

theorem State.acceptSec_sameDev {s0 s : State} (hs : SameDev s0 s) (v : Nat) (link : Bool) :
    SameDev s0 (s.acceptSec v link) := by
  unfold State.acceptSec
  dsimp only
  repeat' first | with_reducible assumption | with_reducible apply ite_pred | simp only [sameDev_mk]

theorem State.announce_sameDev {s0 s : State} (hs : SameDev s0 s) (sec : Nat) : SameDev s0 (s.announce sec) := by
  unfold State.announce
  dsimp only
  repeat' first | with_reducible assumption | with_reducible apply ite_pred | simp only [sameDev_mk]

theorem State.announceLink_sameDev {s0 s : State} (hs : SameDev s0 s) (sec dir : Nat) :
    SameDev s0 (s.announceLink sec dir) := by
  unfold State.announceLink
  repeat' first
    | with_reducible assumption
    | with_reducible apply State.put_sameDev
    | with_reducible apply State.announce_sameDev

theorem State.applySec_sameDev {s0 s : State} (hs : SameDev s0 s) : SameDev s0 s.applySec := by
  unfold State.applySec
  dsimp only
  repeat' first
    | with_reducible assumption
    | with_reducible apply ite_pred
    | with_reducible apply State.moveOrigin_sameDev
    | simp only [sameDev_mk]
    | split

theorem State.applyFrameLen_sameDev {s0 s : State} (hs : SameDev s0 s) : SameDev s0 s.applyFrameLen := by
  unfold State.applyFrameLen
  dsimp only
  repeat' first
    | with_reducible assumption
    | with_reducible apply State.apply_sameDev
    | with_reducible apply State.bump_sameDev
    | simp only [sameDev_mk]

theorem State.secondDue_sameDev {s0 s : State} (hs : SameDev s0 s) : SameDev s0 s.secondDue := by
  unfold State.secondDue
  dsimp only
  repeat' first
    | with_reducible assumption
    | with_reducible apply ite_pred
    | with_reducible refine foldl_pred (fun _ _ _ => ?_) ?_
    | with_reducible apply State.newFrameLen_sameDev
    | with_reducible apply State.applySec_sameDev
    | with_reducible apply State.applyFrameLen_sameDev
    | simp only [sameDev_mk]
    | split

theorem State.frameDue_sameDev {s0 s : State} (hs : SameDev s0 s) (inputs : List (Nat × Input × Nat)) :
    SameDev s0 (s.frameDue inputs) := by
  unfold State.frameDue
  try dsimp only
  repeat' first
    | with_reducible assumption
    | with_reducible apply ite_pred
    | with_reducible apply State.frameFronts_sameDev
    | with_reducible apply State.frameWaves_sameDev
    | with_reducible apply State.frameLatches_sameDev
    | with_reducible apply State.frameContexts_sameDev
    | simp only [sameDev_mk]

theorem State.sysrefEdge_sameDev {s0 s : State} (hs : SameDev s0 s) (t : Int) (pol : Bool) (bin : Nat) :
    SameDev s0 (s.sysrefEdge t pol bin) := by
  unfold State.sysrefEdge
  try dsimp only
  repeat' first
    | with_reducible assumption
    | with_reducible apply State.setBe_sameDev
    | with_reducible apply State.formEdge_sameDev

theorem State.sysrefDue_sameDev {s0 s : State} (hs : SameDev s0 s) (bin fallBin : Nat) :
    SameDev s0 (s.sysrefDue bin fallBin) := by
  unfold State.sysrefDue
  try dsimp only
  repeat' first
    | with_reducible assumption
    | with_reducible apply ite_pred
    | with_reducible apply State.sysrefEdge_sameDev
    | with_reducible apply State.alignSlots_sameDev
    | simp only [sameDev_mk]
    | split

theorem State.flagUnlock_sameDev {s0 s : State} (hs : SameDev s0 s) (k : Nat) : SameDev s0 (s.flagUnlock k) := by
  unfold State.flagUnlock
  repeat' first
    | with_reducible assumption
    | with_reducible apply State.put_sameDev
    | with_reducible apply State.bump_sameDev

theorem State.loseIsland_sameDev {s0 s : State} (hs : SameDev s0 s) (k : Nat) : SameDev s0 (s.loseIsland k) := by
  unfold State.loseIsland
  dsimp only
  repeat' first
    | with_reducible assumption
    | with_reducible apply ite_pred
    | with_reducible refine foldl_pred (fun _ _ _ => ?_) ?_
    | with_reducible apply State.setChan_sameDev
    | with_reducible apply State.setIsland_sameDev
    | with_reducible apply State.beginCause_sameDev
    | with_reducible apply State.settleTrips_sameDev
    | with_reducible apply State.flagUnlock_sameDev

theorem State.islandBack_sameDev {s0 s : State} (hs : SameDev s0 s) (k : Nat) (counts : List Nat) :
    SameDev s0 (s.islandBack k counts) := by
  unfold State.islandBack
  try dsimp only
  repeat' first
    | with_reducible assumption
    | with_reducible apply ite_pred
    | with_reducible refine foldl_pred (fun _ _ _ => ?_) ?_
    | with_reducible apply State.setIsland_sameDev
    | with_reducible apply State.readCounter_sameDev
    | with_reducible apply State.endCause_sameDev
    | with_reducible apply State.startWin_sameDev
    | with_reducible apply State.settleTrips_sameDev

theorem State.haltWave_sameDev {s0 s : State} (hs : SameDev s0 s) (n : Nat) : SameDev s0 (s.haltWave n) := by
  unfold State.haltWave
  try dsimp only
  repeat' first
    | with_reducible assumption
    | with_reducible apply ite_pred
    | with_reducible apply State.setWave_sameDev
    | with_reducible apply State.loseSample_sameDev

theorem execRefLock_sameDev {s0 s : State} (t hz since phase refOut : Nat) (hs : SameDev s0 s) :
    SameDevO s0 (execRefLock t hz since phase refOut s) := by
  unfold execRefLock
  repeat' first
    | with_reducible assumption
    | with_reducible apply State.at_sameDev
    | with_reducible apply State.lockRef_sameDev
    | with_reducible apply sameDevO_next

theorem execHoldover_sameDev {s0 s : State} (t hz missed : Nat) (hs : SameDev s0 s) :
    SameDevO s0 (execHoldover t hz missed s) := by
  unfold execHoldover
  repeat' first
    | with_reducible assumption
    | with_reducible apply State.at_sameDev
    | with_reducible apply State.holdRef_sameDev
    | with_reducible apply sameDevO_next

theorem execPpsEdge_sameDev {s0 s : State} (t : Nat) (pol : Bool) (bin refOut : Nat) (hs : SameDev s0 s) :
    SameDevO s0 (execPpsEdge t pol bin refOut s) := by
  unfold execPpsEdge
  repeat' first
    | with_reducible assumption
    | with_reducible apply State.at_sameDev
    | with_reducible apply State.ppsEdge_sameDev
    | with_reducible apply sameDevO_next

theorem execPpsMissing_sameDev {s0 s : State} (t : Nat) (hs : SameDev s0 s) : SameDevO s0 (execPpsMissing t s) := by
  unfold execPpsMissing
  repeat' first
    | with_reducible assumption
    | with_reducible apply State.at_sameDev
    | with_reducible apply State.ppsMissing_sameDev
    | with_reducible apply sameDevO_next

theorem execAlignWaitTimeout_sameDev {s0 s : State} (t : Nat) (hs : SameDev s0 s) :
    SameDevO s0 (execAlignWaitTimeout t s) := by
  unfold execAlignWaitTimeout
  repeat' first
    | with_reducible assumption
    | with_reducible apply State.at_sameDev
    | with_reducible apply State.waitOver_sameDev
    | with_reducible apply sameDevO_next

theorem execRealignTimeout_sameDev {s0 s : State} (t : Nat) (hs : SameDev s0 s) : SameDevO s0 (execRealignTimeout t s) := by
  unfold execRealignTimeout
  repeat' first
    | with_reducible assumption
    | with_reducible apply State.at_sameDev
    | with_reducible apply State.realignOver_sameDev
    | with_reducible apply sameDevO_next

theorem execSecondBoundary_sameDev {s0 s : State} (t : Nat) (hs : SameDev s0 s) : SameDevO s0 (execSecondBoundary t s) := by
  unfold execSecondBoundary
  repeat' first
    | with_reducible assumption
    | with_reducible apply State.at_sameDev
    | with_reducible apply State.secondDue_sameDev
    | with_reducible apply sameDevO_next

theorem execFrameBoundary_sameDev {s0 s : State} (t : Nat) (inputs : List (Nat × Input × Nat)) (hs : SameDev s0
    s) :
    SameDevO s0 (execFrameBoundary t inputs s) := by
  unfold execFrameBoundary
  repeat' first
    | with_reducible assumption
    | with_reducible apply State.at_sameDev
    | with_reducible apply State.frameDue_sameDev
    | with_reducible apply sameDevO_next

theorem execSysrefPulse_sameDev {s0 s : State} (t bin fallBin : Nat) (hs : SameDev s0 s) :
    SameDevO s0 (execSysrefPulse t bin fallBin s) := by
  unfold execSysrefPulse
  repeat' first
    | with_reducible assumption
    | with_reducible apply State.at_sameDev
    | with_reducible apply State.sysrefDue_sameDev
    | with_reducible apply sameDevO_next

theorem execIslandUnlock_sameDev {s0 s : State} (t k : Nat) (hs : SameDev s0 s) : SameDevO s0 (execIslandUnlock t k s) := by
  unfold execIslandUnlock
  repeat' first
    | with_reducible assumption
    | with_reducible apply ite_pred
    | with_reducible apply State.at_sameDev
    | with_reducible apply State.loseIsland_sameDev
    | with_reducible apply sameDevO_next
    | with_reducible exact sameDevO_fault

theorem execIslandRelock_sameDev {s0 s : State} (t k : Nat) (counts : List Nat) (hs : SameDev s0 s) :
    SameDevO s0 (execIslandRelock t k counts s) := by
  unfold execIslandRelock
  repeat' first
    | with_reducible assumption
    | with_reducible apply ite_pred
    | with_reducible apply State.at_sameDev
    | with_reducible apply State.islandBack_sameDev
    | with_reducible apply sameDevO_next
    | with_reducible exact sameDevO_fault

/-! ## Sluice -/

theorem State.applyList_sameDev {s0 s : State} (hs : SameDev s0 s) (c : Nat) : SameDev s0 (s.applyList c) := by
  unfold State.applyList
  dsimp only
  repeat' first
    | with_reducible assumption
    | with_reducible apply State.apply_sameDev
    | with_reducible apply State.bump_sameDev
    | with_reducible apply State.setSl_sameDev

theorem State.handOver_sameDev {s0 s : State} (hs : SameDev s0 s) (c : Nat) : SameDev s0 (s.handOver c) := by
  unfold State.handOver
  repeat' first
    | with_reducible assumption
    | with_reducible apply ite_pred
    | with_reducible apply State.applyList_sameDev
    | split

theorem State.dropCommit_sameDev {s0 s : State} (hs : SameDev s0 s) (c : Nat) : SameDev s0 (s.dropCommit c) := by
  unfold State.dropCommit
  repeat' first
    | with_reducible assumption
    | with_reducible apply ite_pred
    | with_reducible apply State.applyList_sameDev

theorem State.completeSlu_sameDev {s0 s : State} (hs : SameDev s0 s) (c : Nat) : SameDev s0 (s.completeSlu c) := by
  unfold State.completeSlu
  dsimp only
  repeat' first
    | with_reducible assumption
    | with_reducible apply ite_pred
    | with_reducible apply State.setSl_sameDev
    | with_reducible apply State.sluEvent_sameDev
    | with_reducible apply State.handOver_sameDev
    | with_reducible apply State.dropCommit_sameDev
    | split

theorem State.grantCredits_sameDev {s0 s : State} (hs : SameDev s0 s) (c : Nat) : SameDev s0 (s.grantCredits c) := by
  unfold State.grantCredits
  dsimp only
  repeat' first
    | with_reducible assumption
    | with_reducible apply ite_pred
    | with_reducible apply State.setSl_sameDev
    | with_reducible apply State.setLink_sameDev
    | with_reducible apply State.sendBlock_sameDev
    | with_reducible refine times_pred (fun _ _ => ?_) ?_
    | split

theorem State.beginSlu_sameDev {s0 s : State} (hs : SameDev s0 s) (c : Nat) (request : Bool) :
    SameDev s0 (s.beginSlu c request) := by
  unfold State.beginSlu
  try dsimp only
  repeat' first
    | with_reducible assumption
    | with_reducible apply State.startSlu_sameDev
    | with_reducible apply State.setSl_sameDev
    | with_reducible apply State.grantCredits_sameDev

theorem State.startRequest_sameDev {s0 s : State} (hs : SameDev s0 s) (b stream : Nat) :
    SameDev s0 (s.startRequest b stream) := by
  unfold State.startRequest
  repeat' first
    | with_reducible assumption
    | with_reducible apply ite_pred
    | with_reducible apply State.count_sameDev
    | with_reducible apply State.beginSlu_sameDev
    | split

theorem State.takeCredits_sameDev {s0 s : State} (hs : SameDev s0 s) (b stream n : Nat) :
    SameDev s0 (s.takeCredits b stream n) := by
  unfold State.takeCredits
  try dsimp only
  repeat' first
    | with_reducible assumption
    | with_reducible apply ite_pred
    | with_reducible apply State.count_sameDev
    | with_reducible apply State.setSl_sameDev
    | with_reducible apply State.put_sameDev
    | with_reducible apply State.raise_sameDev
    | simp only [sameDev_mk]
    | split

theorem execPauseDrained_sameDev {s0 s : State} (t c : Nat) (hs : SameDev s0 s) : SameDevO s0 (execPauseDrained t c s) := by
  unfold execPauseDrained
  dsimp only
  repeat' first
    | with_reducible assumption
    | with_reducible apply ite_pred
    | with_reducible apply State.at_sameDev
    | with_reducible apply State.setSl_sameDev
    | with_reducible apply sameDevO_next
    | with_reducible exact sameDevO_fault

theorem execDescriptorComplete_sameDev {s0 s : State} (t c : Nat) (hs : SameDev s0 s) :
    SameDevO s0 (execDescriptorComplete t c s) := by
  unfold execDescriptorComplete
  repeat' first
    | with_reducible assumption
    | with_reducible apply ite_pred
    | with_reducible apply State.at_sameDev
    | with_reducible apply State.completeSlu_sameDev
    | with_reducible apply sameDevO_next
    | with_reducible exact sameDevO_fault

/-! ## Power -/

theorem State.riseVin_sameDev {s0 s : State} (hs : SameDev s0 s) : SameDev s0 s.riseVin := by
  unfold State.riseVin
  dsimp only
  repeat' first | with_reducible assumption | with_reducible apply ite_pred | simp only [sameDev_mk]

theorem State.lowVin_sameDev {s0 s : State} (hs : SameDev s0 s) (low : Bool) : SameDev s0 (s.lowVin low) := by
  unfold State.lowVin
  dsimp only
  repeat' first
    | with_reducible assumption
    | with_reducible apply ite_pred
    | with_reducible apply State.put_sameDev
    | with_reducible apply State.raise_sameDev

theorem State.fetStart_sameDev {s0 s : State} (hs : SameDev s0 s) : SameDev s0 s.fetStart := by
  unfold State.fetStart
  repeat' first | with_reducible assumption | with_reducible apply ite_pred | simp only [sameDev_mk]

theorem State.retryFet_sameDev {s0 s : State} (hs : SameDev s0 s) : SameDev s0 s.retryFet := by
  unfold State.retryFet
  repeat' first
    | with_reducible assumption
    | with_reducible apply ite_pred
    | with_reducible apply State.fetStart_sameDev
    | split

theorem State.causeGone_sameDev {s0 s : State} (hs : SameDev s0 s) : SameDev s0 s.causeGone := by
  unfold State.causeGone
  dsimp only
  repeat' first | with_reducible assumption | with_reducible apply ite_pred | simp only [sameDev_mk]

theorem State.assertBus_sameDev {s0 s : State} (hs : SameDev s0 s) (mv : Nat) : SameDev s0 (s.assertBus mv) := by
  unfold State.assertBus
  repeat' first | with_reducible assumption | with_reducible apply ite_pred | simp only [sameDev_mk]

theorem State.setRegulator_sameDev {s0 s : State} (hs : SameDev s0 s) (j : Nat) (r : Regulator) :
    SameDev s0 (s.setRegulator j r) := by
  unfold State.setRegulator
  repeat' first | with_reducible assumption | simp only [sameDev_mk]

theorem State.programRail_sameDev {s0 s : State} (hs : SameDev s0 s) (j : Nat) : SameDev s0 (s.programRail j) := by
  unfold State.programRail
  repeat' first
    | with_reducible assumption
    | with_reducible apply State.setRegulator_sameDev
    | simp only [sameDev_mk]
    | split

theorem State.enableRail_sameDev {s0 s : State} (hs : SameDev s0 s) : SameDev s0 s.enableRail := by
  unfold State.enableRail
  try dsimp only
  repeat' first
    | with_reducible assumption
    | with_reducible apply ite_pred
    | with_reducible apply State.bump_sameDev
    | with_reducible apply State.programRail_sameDev
    | with_reducible apply State.put_sameDev
    | with_reducible apply State.settleTrips_sameDev
    | simp only [sameDev_mk]
    | split

theorem State.stopMonitors_sameDev {s0 s : State} (hs : SameDev s0 s) (k : Nat) : SameDev s0 (s.stopMonitors k) := by
  unfold State.stopMonitors
  dsimp only
  repeat' first
    | with_reducible assumption
    | with_reducible refine foldl_pred (fun _ _ _ => ?_) ?_
    | with_reducible apply State.setChan_sameDev

theorem State.dropHits_sameDev {s0 s : State} (hs : SameDev s0 s) (n : Nat) : SameDev s0 (s.dropHits n) := by
  unfold State.dropHits
  try dsimp only
  repeat' first
    | with_reducible assumption
    | with_reducible apply ite_pred
    | with_reducible apply State.setBe_sameDev

theorem State.lowerIsland_sameDev {s0 s : State} (hs : SameDev s0 s) (k st : Nat) :
    SameDev s0 (s.lowerIsland k st) := by
  unfold State.lowerIsland
  try dsimp only
  repeat' first
    | with_reducible assumption
    | with_reducible apply ite_pred
    | with_reducible refine foldl_pred (fun _ _ _ => ?_) ?_
    | with_reducible apply State.setIsland_sameDev
    | with_reducible apply State.dropHits_sameDev
    | with_reducible apply State.stopMonitors_sameDev
    | with_reducible apply State.settleTrips_sameDev
    | simp only [sameDev_mk]

theorem State.rewake_sameDev {s0 s : State} (hs : SameDev s0 s) (n : Nat) : SameDev s0 (s.rewake n) := by
  unfold State.rewake
  repeat' first
    | with_reducible assumption
    | with_reducible apply ite_pred
    | with_reducible apply State.queueWake_sameDev

theorem State.drainedIsland_sameDev {s0 s : State} (hs : SameDev s0 s) (k : Nat) :
    SameDev s0 (s.drainedIsland k) := by
  unfold State.drainedIsland
  try dsimp only
  repeat' first
    | with_reducible assumption
    | with_reducible apply ite_pred
    | with_reducible refine foldl_pred (fun _ _ _ => ?_) ?_
    | with_reducible apply State.setIsland_sameDev
    | with_reducible apply State.lowerIsland_sameDev
    | with_reducible apply State.rewake_sameDev
    | simp only [sameDev_mk]
    | split

theorem State.wakeChannel_sameDev {s0 s : State} (hs : SameDev s0 s) (n : Nat) : SameDev s0 (s.wakeChannel n) := by
  unfold State.wakeChannel
  try dsimp only
  repeat' first
    | with_reducible assumption
    | with_reducible apply ite_pred
    | with_reducible apply State.setBe_sameDev
    | with_reducible apply State.dropHits_sameDev
    | with_reducible apply State.setChan_sameDev
    | with_reducible apply State.startEnd_sameDev
    | with_reducible apply State.endCause_sameDev
    | simp only [sameDev_mk]
    | split

theorem State.wokenIsland_sameDev {s0 s : State} (hs : SameDev s0 s) (k : Nat) : SameDev s0 (s.wokenIsland k) := by
  unfold State.wokenIsland
  dsimp only
  repeat' first
    | with_reducible assumption
    | with_reducible apply ite_pred
    | with_reducible refine foldl_pred (fun _ _ _ => ?_) ?_
    | with_reducible apply State.setIsland_sameDev
    | with_reducible apply State.settleTrips_sameDev
    | with_reducible apply State.startWin_sameDev
    | with_reducible apply State.wakeChannel_sameDev
    | split

theorem execUvloRise_sameDev {s0 s : State} (t : Nat) (hs : SameDev s0 s) : SameDevO s0 (execUvloRise t s) := by
  unfold execUvloRise
  repeat' first
    | with_reducible assumption
    | with_reducible apply State.at_sameDev
    | with_reducible apply State.riseVin_sameDev
    | with_reducible apply sameDevO_next

theorem execLowInput_sameDev {s0 s : State} (t : Nat) (low : Bool) (hs : SameDev s0 s) :
    SameDevO s0 (execLowInput t low s) := by
  unfold execLowInput
  repeat' first
    | with_reducible assumption
    | with_reducible apply State.at_sameDev
    | with_reducible apply State.lowVin_sameDev
    | with_reducible apply sameDevO_next

theorem execFetRetry_sameDev {s0 s : State} (t : Nat) (hs : SameDev s0 s) : SameDevO s0 (execFetRetry t s) := by
  unfold execFetRetry
  repeat' first
    | with_reducible assumption
    | with_reducible apply State.at_sameDev
    | with_reducible apply State.retryFet_sameDev
    | with_reducible apply sameDevO_next

theorem execBusEn_sameDev {s0 s : State} (t mv : Nat) (hs : SameDev s0 s) : SameDevO s0 (execBusEn t mv s) := by
  unfold execBusEn
  repeat' first
    | with_reducible assumption
    | with_reducible apply State.at_sameDev
    | with_reducible apply State.assertBus_sameDev
    | with_reducible apply sameDevO_next

theorem execRailEnable_sameDev {s0 s : State} (t : Nat) (hs : SameDev s0 s) : SameDevO s0 (execRailEnable t s) := by
  unfold execRailEnable
  repeat' first
    | with_reducible assumption
    | with_reducible apply State.at_sameDev
    | with_reducible apply State.enableRail_sameDev
    | with_reducible apply sameDevO_next

theorem execProtectiveRestart_sameDev {s0 s : State} (t : Nat) (hs : SameDev s0 s) :
    SameDevO s0 (execProtectiveRestart t s) := by
  unfold execProtectiveRestart
  repeat' first
    | with_reducible assumption
    | with_reducible apply State.at_sameDev
    | with_reducible apply State.causeGone_sameDev
    | with_reducible apply sameDevO_next

theorem execWakeIsland_sameDev {s0 s : State} (t k : Nat) (hs : SameDev s0 s) : SameDevO s0 (execWakeIsland t k s) := by
  unfold execWakeIsland
  repeat' first
    | with_reducible assumption
    | with_reducible apply ite_pred
    | with_reducible apply State.at_sameDev
    | with_reducible apply State.wokenIsland_sameDev
    | with_reducible apply sameDevO_next
    | with_reducible exact sameDevO_fault

theorem execIslandDrained_sameDev {s0 s : State} (t k : Nat) (hs : SameDev s0 s) :
    SameDevO s0 (execIslandDrained t k s) := by
  unfold execIslandDrained
  repeat' first
    | with_reducible assumption
    | with_reducible apply ite_pred
    | with_reducible apply State.at_sameDev
    | with_reducible apply State.drainedIsland_sameDev
    | with_reducible apply sameDevO_next
    | with_reducible exact sameDevO_fault

theorem execRestorationHeld_sameDev {s0 s : State} (t : Nat) (sub : Subsystem) (hs : SameDev s0 s) :
    SameDevO s0 (execRestorationHeld t sub s) := by
  unfold execRestorationHeld
  repeat' first
    | with_reducible assumption
    | with_reducible apply State.at_sameDev
    | with_reducible apply State.restoreHeld_sameDev
    | with_reducible apply sameDevO_next

/-! ## Life -/

theorem State.showLife_sameDev {s0 s : State} (hs : SameDev s0 s) : SameDev s0 s.showLife := by
  unfold State.showLife
  dsimp only
  repeat' first
    | with_reducible assumption
    | with_reducible apply ite_pred
    | with_reducible apply State.put_sameDev

theorem State.lifeHour_sameDev {s0 s : State} (hs : SameDev s0 s) (rings : List (Nat × Int)) :
    SameDev s0 (s.lifeHour rings) := by
  unfold State.lifeHour
  dsimp only
  repeat' first
    | with_reducible assumption
    | with_reducible apply ite_pred
    | with_reducible refine foldl_pred (fun _ _ _ => ?_) ?_
    | with_reducible apply State.put_sameDev
    | with_reducible apply State.count_sameDev
    | with_reducible apply State.setIsland_sameDev
    | with_reducible apply State.ageing_sameDev
    | with_reducible apply State.showLife_sameDev
    | simp only [sameDev_mk]
    | split

theorem State.changeHalf_sameDev {s0 s : State} (hs : SameDev s0 s) : SameDev s0 s.changeHalf := by
  unfold State.changeHalf
  dsimp only
  repeat' first | with_reducible assumption | simp only [sameDev_mk]

theorem State.after63_sameDev {s0 s : State} (hs : SameDev s0 s) (kind n : Nat) : SameDev s0 (s.after63 kind n) := by
  unfold State.after63
  repeat' first
    | with_reducible assumption
    | with_reducible apply ite_pred
    | with_reducible apply State.ledger_sameDev

theorem State.writeLedger_sameDev {s0 s : State} (hs : SameDev s0 s) (good : Bool) : SameDev s0 (s.writeLedger good) := by
  unfold State.writeLedger
  dsimp only
  repeat' first
    | with_reducible assumption
    | with_reducible apply ite_pred
    | with_reducible apply State.count_sameDev
    | with_reducible apply State.raise_sameDev
    | with_reducible apply State.changeHalf_sameDev
    | with_reducible apply State.after63_sameDev
    | simp only [sameDev_mk]
    | split

theorem State.hourlyDue_sameDev {s0 s : State} (hs : SameDev s0 s) : SameDev s0 s.hourlyDue := by
  unfold State.hourlyDue
  dsimp only
  repeat' first
    | with_reducible assumption
    | with_reducible apply ite_pred
    | with_reducible apply State.ledger_sameDev
    | simp only [sameDev_mk]

theorem State.repairRow_sameDev {s0 s : State} (hs : SameDev s0 s) (addr : Nat) (spareRow : Bool) :
    SameDev s0 (s.repairRow addr spareRow) := by
  unfold State.repairRow
  dsimp only
  repeat' first
    | with_reducible assumption
    | with_reducible apply ite_pred
    | with_reducible apply State.count_sameDev
    | with_reducible apply State.raise_sameDev
    | with_reducible apply State.ledger_sameDev
    | simp only [sameDev_mk]

theorem State.patrol_sameDev {s0 s : State} (hs : SameDev s0 s) (addr result : Nat) (spareRow lastUnit : Bool) :
    SameDev s0 (s.patrol addr result spareRow lastUnit) := by
  unfold State.patrol
  try dsimp only
  repeat' first
    | with_reducible assumption
    | with_reducible apply ite_pred
    | with_reducible apply State.count_sameDev
    | with_reducible apply State.repairRow_sameDev
    | with_reducible apply State.raise_sameDev
    | with_reducible apply State.ledger_sameDev
    | simp only [sameDev_mk]
    | split

theorem State.startRefresh_sameDev {s0 s : State} (hs : SameDev s0 s) : SameDev s0 s.startRefresh := by
  unfold State.startRefresh
  dsimp only
  repeat' first | with_reducible assumption | with_reducible apply State.put_sameDev | simp only [sameDev_mk]

theorem State.refreshFalls_sameDev {s0 s : State} (hs : SameDev s0 s) : SameDev s0 s.refreshFalls := by
  unfold State.refreshFalls
  dsimp only
  repeat' first
    | with_reducible assumption
    | with_reducible apply ite_pred
    | with_reducible apply State.put_sameDev
    | simp only [sameDev_mk]

theorem State.autoRefresh_sameDev {s0 s : State} (hs : SameDev s0 s) : SameDev s0 s.autoRefresh := by
  unfold State.autoRefresh
  dsimp only
  repeat' first
    | with_reducible assumption
    | with_reducible apply ite_pred
    | with_reducible apply State.startRefresh_sameDev

theorem State.endRefresh_sameDev {s0 s : State} (hs : SameDev s0 s) (done : Bool) : SameDev s0 (s.endRefresh done) := by
  unfold State.endRefresh
  dsimp only
  repeat' first
    | with_reducible assumption
    | with_reducible apply ite_pred
    | with_reducible apply State.put_sameDev
    | with_reducible apply State.raise_sameDev
    | with_reducible apply State.free_sameDev
    | with_reducible apply State.ledger_sameDev
    | with_reducible apply SameDevP.proj
    | simp only [sameDev_mk]

theorem State.nextRefreshSlot_sameDev {s0 s : State} (hs : SameDev s0 s) : SameDev s0 s.nextRefreshSlot := by
  unfold State.nextRefreshSlot
  dsimp only
  repeat' first
    | with_reducible assumption
    | with_reducible apply ite_pred
    | with_reducible apply State.changeHalf_sameDev
    | with_reducible apply State.endRefresh_sameDev
    | simp only [sameDev_mk]

theorem State.refreshSector_sameDev {s0 s : State} (hs : SameDev s0 s) (good lastOfSlot slotOk : Bool) :
    SameDev s0 (s.refreshSector good lastOfSlot slotOk) := by
  unfold State.refreshSector
  dsimp only
  repeat' first
    | with_reducible assumption
    | with_reducible apply ite_pred
    | with_reducible apply State.endRefresh_sameDev
    | with_reducible apply State.nextRefreshSlot_sameDev
    | simp only [sameDev_mk]

theorem State.migrated_sameDev {s0 s : State} (hs : SameDev s0 s) : SameDev s0 s.migrated := by
  unfold State.migrated
  dsimp only
  repeat' first
    | with_reducible assumption
    | with_reducible apply State.put_sameDev
    | with_reducible apply State.unitDone_sameDev
    | simp only [sameDev_mk]
    | split

theorem State.engineMoved_sameDev {s0 s : State} (hs : SameDev s0 s) : SameDev s0 s.engineMoved := by
  unfold State.engineMoved
  dsimp only
  repeat' first
    | with_reducible assumption
    | with_reducible apply ite_pred
    | with_reducible apply State.put_sameDev
    | with_reducible apply State.unitDone_sameDev
    | simp only [sameDev_mk]
    | split

theorem execLifeHour_sameDev {s0 s : State} (t : Nat) (rings : List (Nat × Int)) (hs : SameDev s0 s) :
    SameDevO s0 (execLifeHour t rings s) := by
  unfold execLifeHour
  repeat' first
    | with_reducible assumption
    | with_reducible apply State.at_sameDev
    | with_reducible apply State.lifeHour_sameDev
    | with_reducible apply sameDevO_next

theorem execHourly_sameDev {s0 s : State} (t : Nat) (hs : SameDev s0 s) : SameDevO s0 (execHourly t s) := by
  unfold execHourly
  repeat' first
    | with_reducible assumption
    | with_reducible apply State.at_sameDev
    | with_reducible apply State.hourlyDue_sameDev
    | with_reducible apply sameDevO_next

theorem execLedgerWrite_sameDev {s0 s : State} (t : Nat) (good : Bool) (hs : SameDev s0 s) :
    SameDevO s0 (execLedgerWrite t good s) := by
  unfold execLedgerWrite
  repeat' first
    | with_reducible assumption
    | with_reducible apply State.at_sameDev
    | with_reducible apply State.writeLedger_sameDev
    | with_reducible apply sameDevO_next

theorem execPatrolRead_sameDev {s0 s : State} (t addr result : Nat) (spareRow lastUnit : Bool) (hs : SameDev s0 s) :
    SameDevO s0 (execPatrolRead t addr result spareRow lastUnit s) := by
  unfold execPatrolRead
  repeat' first
    | with_reducible assumption
    | with_reducible apply State.at_sameDev
    | with_reducible apply State.patrol_sameDev
    | with_reducible apply sameDevO_next

theorem execRefreshDue_sameDev {s0 s : State} (t : Nat) (hs : SameDev s0 s) : SameDevO s0 (execRefreshDue t s) := by
  unfold execRefreshDue
  repeat' first
    | with_reducible assumption
    | with_reducible apply State.at_sameDev
    | with_reducible apply State.refreshFalls_sameDev
    | with_reducible apply sameDevO_next

theorem execRefreshAutoStart_sameDev {s0 s : State} (t : Nat) (hs : SameDev s0 s) :
    SameDevO s0 (execRefreshAutoStart t s) := by
  unfold execRefreshAutoStart
  repeat' first
    | with_reducible assumption
    | with_reducible apply State.at_sameDev
    | with_reducible apply State.autoRefresh_sameDev
    | with_reducible apply sameDevO_next

theorem execRefreshSector_sameDev {s0 s : State} (t : Nat) (good lastOfSlot slotOk : Bool) (hs : SameDev s0 s) :
    SameDevO s0 (execRefreshSector t good lastOfSlot slotOk s) := by
  unfold execRefreshSector
  repeat' first
    | with_reducible assumption
    | with_reducible apply State.at_sameDev
    | with_reducible apply State.refreshSector_sameDev
    | with_reducible apply sameDevO_next

theorem execMigrationDone_sameDev {s0 s : State} (t : Nat) (hs : SameDev s0 s) : SameDevO s0 (execMigrationDone t s) := by
  unfold execMigrationDone
  repeat' first
    | with_reducible assumption
    | with_reducible apply State.at_sameDev
    | with_reducible apply State.migrated_sameDev
    | with_reducible apply sameDevO_next

theorem execEngineMoveDone_sameDev {s0 s : State} (t : Nat) (hs : SameDev s0 s) : SameDevO s0 (execEngineMoveDone t s) := by
  unfold execEngineMoveDone
  repeat' first
    | with_reducible assumption
    | with_reducible apply State.at_sameDev
    | with_reducible apply State.engineMoved_sameDev
    | with_reducible apply sameDevO_next

theorem execHbmTrainingStart_sameDev {s0 s : State} (t : Nat) (hs : SameDev s0 s) :
    SameDevO s0 (execHbmTrainingStart t s) := by
  unfold execHbmTrainingStart
  dsimp only
  repeat' first
    | with_reducible assumption
    | with_reducible apply ite_pred
    | with_reducible apply State.at_sameDev
    | with_reducible apply sameDevO_next
    | simp only [sameDev_mk]

/-! ## RegWrite -/

theorem State.enableLink_sameDev {s0 s : State} (hs : SameDev s0 s) (b en was : Nat) :
    SameDev s0 (s.enableLink b en was) := by
  unfold State.enableLink
  try dsimp only
  repeat' first
    | with_reducible assumption
    | with_reducible apply ite_pred
    | with_reducible refine foldl_pred (fun _ _ _ => ?_) ?_
    | with_reducible apply State.noteEnable_sameDev
    | with_reducible apply State.setLink_sameDev
    | with_reducible apply State.submit_sameDev
    | with_reducible apply State.retract_sameDev
    | with_reducible apply State.releaseCost_sameDev
    | with_reducible apply State.noteBoot_sameDev

/-! ## Windows -/

theorem State.afterBank_sameDev {s0 s : State} (hs : SameDev s0 s) : SameDev s0 s.afterBank := by
  unfold State.afterBank
  repeat' first
    | with_reducible assumption
    | with_reducible apply ite_pred
    | with_reducible apply State.free_sameDev
    | with_reducible apply SameDevP.proj

/-! ## Access -/

theorem State.busError_sameDev {s0 s : State} (hs : SameDev s0 s) (p : Nat) (wr : Bool) (a code : Nat) :
    SameDev s0 (s.busError p wr a code) := by
  unfold State.busError
  dsimp only
  repeat' first
    | with_reducible assumption
    | with_reducible apply State.put_sameDev
    | with_reducible apply State.count_sameDev
    | with_reducible apply State.raise_sameDev

theorem State.dropPair_sameDev {s0 s : State} (hs : SameDev s0 s) (p : Nat) : SameDev s0 (s.dropPair p) := by
  unfold State.dropPair
  dsimp only
  repeat' first
    | with_reducible assumption
    | with_reducible apply State.raise_sameDev
    | with_reducible apply State.setPort_sameDev
    | with_reducible apply State.busError_sameDev
    | split

theorem State.readAccess_sameDev {s0 s : State} (hs : SameDev s0 s) (p a w : Nat) : SameDevP s0 (s.readAccess p a w) := by
  unfold State.readAccess
  dsimp only
  repeat' first
    | with_reducible assumption
    | with_reducible apply ite_pred
    | with_reducible apply State.setPort_sameDev
    | with_reducible apply State.afterBank_sameDev
    | with_reducible apply State.busError_sameDev
    | with_reducible apply State.dropPair_sameDev
    | simp only [sameDevP_mk]
    | split

theorem State.closeGate_sameDev {s0 s : State} (hs : SameDev s0 s) (p : Nat) : SameDev s0 (s.closeGate p) := by
  unfold State.closeGate
  dsimp only
  repeat' first | with_reducible assumption | with_reducible apply State.setPort_sameDev

theorem State.trailer_sameDev {s0 s : State} (hs : SameDev s0 s) (p : Nat) (data : List Nat) (err done : Nat)
    (unserved : Bool) :
    SameDev s0 (s.trailer p data err done unserved) := by
  unfold State.trailer
  dsimp only
  repeat' first | with_reducible assumption | with_reducible apply State.setPort_sameDev

theorem State.readRun_sameDev {s0 s : State} (hs : SameDev s0 s) (p w a n : Nat) : SameDev s0 (s.readRun p w a n).2.2.2.2 := by
  induction n generalizing s a with
  | zero => exact hs
  | succ n ih =>
    have h := State.readAccess_sameDev hs p (a % 2 ^ 32) w
    rw [State.readRun]
    generalize s.readAccess p (a % 2 ^ 32) w = q at h ⊢
    obtain ⟨x, s1⟩ := q
    dsimp only
    split
    · exact h
    · exact ih h _

theorem State.badCount_sameDev {s0 s : State} (hs : SameDev s0 s) (p : Nat) (wr : Bool) (a : Nat) :
    SameDev s0 (s.badCount p wr a) := by
  unfold State.badCount
  repeat' first
    | with_reducible assumption
    | with_reducible apply State.busError_sameDev
    | with_reducible apply State.trailer_sameDev

theorem State.spiRead_sameDev {s0 s : State} (hs : SameDev s0 s) (w count a : Nat) : SameDev s0 (s.spiRead w count a) := by
  unfold State.spiRead
  dsimp only
  repeat' first
    | with_reducible assumption
    | with_reducible apply ite_pred
    | with_reducible apply State.trailer_sameDev
    | with_reducible apply State.readRun_sameDev
    | with_reducible apply State.badCount_sameDev

theorem State.captureReg_sameDev {s0 s : State} (hs : SameDev s0 s) : SameDev s0 s.captureReg := by
  unfold State.captureReg
  dsimp only
  repeat' first | with_reducible assumption | simp only [sameDev_mk]

theorem execRead8_sameDev {s0 s : State} (t count addr : Nat) (hs : SameDev s0 s) :
    SameDevO s0 (execRead8 t count addr s) := by
  unfold execRead8
  repeat' first
    | with_reducible assumption
    | with_reducible apply State.at_sameDev
    | with_reducible apply State.spiRead_sameDev
    | with_reducible apply sameDevO_next

theorem execRead16_sameDev {s0 s : State} (t count addr : Nat) (hs : SameDev s0 s) :
    SameDevO s0 (execRead16 t count addr s) := by
  unfold execRead16
  repeat' first
    | with_reducible assumption
    | with_reducible apply State.at_sameDev
    | with_reducible apply State.spiRead_sameDev
    | with_reducible apply sameDevO_next

theorem execRead32_sameDev {s0 s : State} (t count addr : Nat) (hs : SameDev s0 s) :
    SameDevO s0 (execRead32 t count addr s) := by
  unfold execRead32
  repeat' first
    | with_reducible assumption
    | with_reducible apply State.at_sameDev
    | with_reducible apply State.spiRead_sameDev
    | with_reducible apply sameDevO_next

theorem execPhase_sameDev {s0 s : State} (t : Nat) (hs : SameDev s0 s) : SameDevO s0 (execPhase t s) := by
  unfold execPhase
  dsimp only
  repeat' first
    | with_reducible assumption
    | with_reducible apply ite_pred
    | with_reducible apply State.at_sameDev
    | with_reducible apply State.setPort_sameDev
    | with_reducible apply sameDevO_next

theorem execCaptureDr_sameDev {s0 s : State} (t : Nat) (hs : SameDev s0 s) : SameDevO s0 (execCaptureDr t s) := by
  unfold execCaptureDr
  dsimp only
  repeat' first
    | with_reducible assumption
    | with_reducible apply ite_pred
    | with_reducible apply State.at_sameDev
    | with_reducible apply State.captureReg_sameDev
    | with_reducible apply sameDevO_next

theorem execIdcode_sameDev {s0 s : State} (t : Nat) (hs : SameDev s0 s) : SameDevO s0 (execIdcode t s) := by
  unfold execIdcode
  dsimp only
  repeat' first
    | with_reducible assumption
    | with_reducible apply ite_pred
    | with_reducible apply State.at_sameDev
    | with_reducible apply sameDevO_next
    | simp only [sameDev_mk]

theorem execBypass_sameDev {s0 s : State} (t : Nat) (hs : SameDev s0 s) : SameDevO s0 (execBypass t s) := by
  unfold execBypass
  dsimp only
  repeat' first
    | with_reducible assumption
    | with_reducible apply ite_pred
    | with_reducible apply State.at_sameDev
    | with_reducible apply sameDevO_next
    | simp only [sameDev_mk]

theorem execSamplePreload_sameDev {s0 s : State} (t balls load : Nat) (hs : SameDev s0 s) :
    SameDevO s0 (execSamplePreload t balls load s) := by
  unfold execSamplePreload
  dsimp only
  repeat' first
    | with_reducible assumption
    | with_reducible apply ite_pred
    | with_reducible apply State.at_sameDev
    | with_reducible apply sameDevO_next
    | simp only [sameDev_mk]

theorem execExtest_sameDev {s0 s : State} (t balls : Nat) (hs : SameDev s0 s) : SameDevO s0 (execExtest t balls s) := by
  unfold execExtest
  dsimp only
  repeat' first
    | with_reducible assumption
    | with_reducible apply ite_pred
    | with_reducible apply State.at_sameDev
    | with_reducible apply sameDevO_next
    | simp only [sameDev_mk]

/-! ## Events -/

theorem State.harvestAt_sameDev {s0 s : State} (hs : SameDev s0 s) : SameDev s0 s.harvestAt := by
  unfold State.harvestAt
  dsimp only
  repeat' first | with_reducible assumption | with_reducible apply ite_pred | simp only [sameDev_mk] | split

theorem State.harvestEnd_sameDev {s0 s : State} (hs : SameDev s0 s) : SameDev s0 s.harvestEnd := by
  unfold State.harvestEnd
  dsimp only
  repeat' first
    | with_reducible assumption
    | with_reducible apply ite_pred
    | with_reducible apply State.put_sameDev
    | with_reducible apply State.bump_sameDev
    | with_reducible apply State.raise_sameDev
    | simp only [sameDev_mk]

theorem execEmbLock_sameDev {s0 s : State} (t slot : Nat) (hs : SameDev s0 s) : SameDevO s0 (execEmbLock t slot s) := by
  unfold execEmbLock
  dsimp only
  repeat' first
    | with_reducible assumption
    | with_reducible apply ite_pred
    | with_reducible apply State.at_sameDev
    | with_reducible apply State.setSlot_sameDev
    | with_reducible apply sameDevO_next
    | with_reducible exact sameDevO_fault

theorem execFiring_sameDev {s0 s : State} (t k bin : Nat) (hs : SameDev s0 s) : SameDevO s0 (execFiring t k bin s) := by
  unfold execFiring
  repeat' first
    | with_reducible assumption
    | with_reducible apply ite_pred
    | with_reducible apply State.at_sameDev
    | with_reducible apply State.fire_sameDev
    | with_reducible apply State.waveMarker_sameDev
    | with_reducible apply State.masksMarker_sameDev
    | with_reducible apply sameDevO_next
    | with_reducible exact sameDevO_fault
    | with_reducible refine SameDevP.snd (by assumption) ?_
    | split

theorem execPulseEnd_sameDev {s0 s : State} (t k bin : Nat) (hs : SameDev s0 s) : SameDevO s0 (execPulseEnd t k bin s) := by
  unfold execPulseEnd
  repeat' first
    | with_reducible assumption
    | with_reducible apply ite_pred
    | with_reducible apply State.at_sameDev
    | with_reducible apply State.fall_sameDev
    | with_reducible apply sameDevO_next
    | with_reducible exact sameDevO_fault

theorem execHarvestInstant_sameDev {s0 s : State} (t : Nat) (hs : SameDev s0 s) : SameDevO s0 (execHarvestInstant t s) := by
  unfold execHarvestInstant
  repeat' first
    | with_reducible assumption
    | with_reducible apply State.at_sameDev
    | with_reducible apply State.harvestAt_sameDev
    | with_reducible apply sameDevO_next

theorem execHarvestDone_sameDev {s0 s : State} (t : Nat) (hs : SameDev s0 s) : SameDevO s0 (execHarvestDone t s) := by
  unfold execHarvestDone
  repeat' first
    | with_reducible assumption
    | with_reducible apply State.at_sameDev
    | with_reducible apply State.harvestEnd_sameDev
    | with_reducible apply sameDevO_next

/-! ## Governor -/

theorem State.shedChans_sameDev {s0 s : State} (hs : SameDev s0 s) (ns : List Nat) : SameDev s0 (s.shedChans ns) := by
  unfold State.shedChans
  repeat' first
    | with_reducible assumption
    | with_reducible refine foldl_pred (fun _ _ _ => ?_) ?_
    | with_reducible apply State.put_sameDev
    | with_reducible apply State.count_sameDev
    | with_reducible apply State.disarmChan_sameDev

theorem State.shedWaves_sameDev {s0 s : State} (hs : SameDev s0 s) (ns : List Nat) : SameDev s0 (s.shedWaves ns) := by
  unfold State.shedWaves
  repeat' first
    | with_reducible assumption
    | with_reducible refine foldl_pred (fun _ _ _ => ?_) ?_
    | with_reducible apply State.put_sameDev
    | with_reducible apply State.count_sameDev
    | with_reducible apply State.disarmWave_sameDev

theorem State.shedContexts_sameDev {s0 s : State} (hs : SameDev s0 s) (ns : List Nat) : SameDev s0 (s.shedContexts ns) := by
  unfold State.shedContexts
  repeat' first
    | with_reducible assumption
    | with_reducible refine foldl_pred (fun _ _ _ => ?_) ?_
    | with_reducible apply State.put_sameDev
    | with_reducible apply State.count_sameDev
    | with_reducible apply State.disarmCtx_sameDev

theorem State.shedAcqs_sameDev {s0 s : State} (hs : SameDev s0 s) (ns : List Nat) : SameDev s0 (s.shedAcqs ns) := by
  unfold State.shedAcqs
  repeat' first
    | with_reducible assumption
    | with_reducible refine foldl_pred (fun _ _ _ => ?_) ?_
    | with_reducible apply State.put_sameDev
    | with_reducible apply State.count_sameDev
    | with_reducible apply State.disarmAcq_sameDev

theorem State.shedStep_sameDev {s0 s : State} (hs : SameDev s0 s) : SameDev s0 s.shedStep := by
  unfold State.shedStep
  dsimp only
  repeat' first
    | with_reducible assumption
    | with_reducible apply ite_pred
    | with_reducible apply State.put_sameDev
    | with_reducible apply State.shedChans_sameDev
    | with_reducible apply State.shedWaves_sameDev
    | with_reducible apply State.shedContexts_sameDev
    | with_reducible apply State.shedAcqs_sameDev
    | split

theorem State.defer_sameDev {s0 s : State} (hs : SameDev s0 s) (t : Int) : SameDev s0 (s.defer t) := by
  unfold State.defer
  repeat' first
    | with_reducible assumption
    | with_reducible apply ite_pred
    | with_reducible apply State.put_sameDev
    | with_reducible apply State.raise_sameDev

theorem State.shed_sameDev {s0 s : State} (hs : SameDev s0 s) (t : Int) : SameDev s0 (s.shed t) := by
  unfold State.shed
  dsimp only
  repeat' first
    | with_reducible assumption
    | with_reducible apply ite_pred
    | with_reducible apply State.put_sameDev
    | with_reducible apply State.raise_sameDev
    | with_reducible apply State.shedStep_sameDev

theorem State.rechargeIslands_sameDev {s0 s : State} (hs : SameDev s0 s) : SameDev s0 s.rechargeIslands := by
  unfold State.rechargeIslands
  dsimp only
  repeat' first | with_reducible assumption | simp only [sameDev_mk]

theorem State.admitWake_sameDev {s0 s : State} (hs : SameDev s0 s) (k : Nat) (guard : Bool) (cost : Nat) :
    SameDev s0 (s.admitWake k guard cost) := by
  unfold State.admitWake
  dsimp only
  repeat' first
    | with_reducible assumption
    | with_reducible apply ite_pred
    | with_reducible apply State.setIsland_sameDev
    | with_reducible apply State.withdraw_sameDev
    | with_reducible apply State.commitCost_sameDev

theorem State.admitUp_sameDev {s0 s : State} (hs : SameDev s0 s) (b : Nat) : SameDev s0 (s.admitUp b) := by
  unfold State.admitUp
  dsimp only
  repeat' first
    | with_reducible assumption
    | with_reducible refine foldl_pred (fun _ _ _ => ?_) ?_
    | with_reducible apply State.setLink_sameDev
    | with_reducible apply State.commitCost_sameDev
    | with_reducible apply State.wakeLanes_sameDev

theorem State.admitTask_sameDev {s0 s : State} (hs : SameDev s0 s) (x : Subject) (guard : Bool) :
    SameDev s0 (s.admitTask x guard) := by
  unfold State.admitTask
  try dsimp only
  repeat' first
    | with_reducible assumption
    | with_reducible apply ite_pred
    | with_reducible apply State.admitWake_sameDev
    | with_reducible apply State.admitChan_sameDev
    | with_reducible apply State.commitCost_sameDev
    | with_reducible apply State.admitWave_sameDev
    | with_reducible apply State.admitContext_sameDev
    | with_reducible apply State.admitAcq_sameDev
    | with_reducible apply State.admitUp_sameDev
    | split

theorem State.admitGuards_sameDev {s0 s : State} (hs : SameDev s0 s) (n : Nat) : SameDevP s0 (s.admitGuards n) := by
  induction n generalizing s with
  | zero => exact hs
  | succ n ih =>
    rw [State.admitGuards]
    split
    · exact hs
    · exact ih (State.admitTask_sameDev (State.withdraw_sameDev hs _) _ _)

theorem State.admitQueue_sameDev {s0 s : State} (hs : SameDev s0 s) (cls n : Nat) (avail : Int) :
    SameDev s0 (s.admitQueue cls n avail).2.2 := by
  induction n generalizing s avail with
  | zero => exact hs
  | succ n ih =>
    rw [State.admitQueue]
    split
    · exact hs
    · dsimp only
      split
      · exact hs
      · exact ih (State.admitTask_sameDev (State.withdraw_sameDev hs _) _ _) _

theorem State.markPending_sameDev {s0 s : State} (hs : SameDev s0 s) (x1 : Subject) :
    SameDev s0 (s.markPending x1) := by
  unfold State.markPending
  try dsimp only
  repeat' first
    | with_reducible assumption
    | with_reducible apply State.setChan_sameDev
    | with_reducible apply State.setWave_sameDev
    | with_reducible apply State.setCtx_sameDev
    | with_reducible apply State.setAcq_sameDev
    | with_reducible apply State.setLink_sameDev
    | simp only [sameDev_mk]
    | split

theorem State.revive_sameDev {s0 s : State} (hs : SameDev s0 s) (gone : List (Nat × Nat × Task)) :
    SameDev s0 (s.revive gone) := by
  unfold State.revive
  try dsimp only
  repeat' first
    | with_reducible assumption
    | with_reducible refine foldl_pred (fun _ _ _ => ?_) ?_
    | with_reducible apply State.markPending_sameDev
    | simp only [sameDev_mk]

theorem State.disarmLate_sameDev {s0 s : State} (hs : SameDev s0 s) (gone : List (Nat × Nat × Task)) :
    SameDev s0 (s.disarmLate gone) := by
  unfold State.disarmLate
  try dsimp only
  repeat' first
    | with_reducible assumption
    | with_reducible refine foldl_pred (fun _ _ _ => ?_) ?_
    | with_reducible apply State.disarmChan_sameDev
    | with_reducible apply State.disarmWave_sameDev
    | with_reducible apply State.disarmCtx_sameDev
    | with_reducible apply State.disarmAcq_sameDev
    | with_reducible apply State.enableLink_sameDev
    | simp only [sameDev_mk]
    | split

theorem State.admitTasks_sameDev {s0 s : State} (hs : SameDev s0 s) (t : Int) : SameDev s0 (s.admitTasks t) := by
  unfold State.admitTasks
  try dsimp only
  repeat' first
    | with_reducible assumption
    | with_reducible apply ite_pred
    | with_reducible apply State.rechargeIslands_sameDev
    | with_reducible apply State.put_sameDev
    | with_reducible apply State.revive_sameDev
    | with_reducible apply State.admitGuards_sameDev
    | with_reducible apply State.admitQueue_sameDev
    | with_reducible apply State.disarmLate_sameDev
    | with_reducible refine SameDevP.snd (by assumption) ?_
    | with_reducible apply SameDevP.proj

theorem State.heatTick_sameDev {s0 s : State} (hs : SameDev s0 s) : SameDev s0 s.heatTick := by
  unfold State.heatTick
  try dsimp only
  repeat' first
    | with_reducible assumption
    | with_reducible apply State.defer_sameDev
    | with_reducible apply State.shed_sameDev
    | with_reducible apply State.admitTasks_sameDev

/-! ## Links -/

theorem State.admitLink_sameDev {s0 s : State} (hs : SameDev s0 s) (b : Nat) : SameDev s0 (s.admitLink b) := by
  unfold State.admitLink
  dsimp only
  repeat' first
    | with_reducible assumption
    | with_reducible apply ite_pred
    | with_reducible refine foldl_pred (fun _ _ _ => ?_) ?_
    | with_reducible apply State.raise_sameDev
    | with_reducible apply State.setLink_sameDev
    | with_reducible apply State.grantCredits_sameDev
    | split

theorem State.endLink_sameDev {s0 s : State} (hs : SameDev s0 s) (b : Nat) : SameDev s0 (s.endLink b) := by
  unfold State.endLink
  try dsimp only
  repeat' first
    | with_reducible assumption
    | with_reducible refine foldl_pred (fun _ _ _ => ?_) ?_
    | with_reducible apply State.dropVerdict_sameDev
    | with_reducible apply State.setLink_sameDev
    | with_reducible apply State.closeGate_sameDev
    | with_reducible apply State.raise_sameDev

theorem State.enterP1_sameDev {s0 s : State} (hs : SameDev s0 s) (b l : Nat) : SameDev s0 (s.enterP1 b l) := by
  unfold State.enterP1
  dsimp only
  repeat' first
    | with_reducible assumption
    | with_reducible apply ite_pred
    | with_reducible apply State.setLane_sameDev
    | with_reducible apply State.sendBlock_sameDev

theorem State.takeService_sameDev {s0 s : State} (hs : SameDev s0 s) (l : Nat) : SameDev s0 (s.takeService l) := by
  unfold State.takeService
  dsimp only
  repeat' first
    | with_reducible assumption
    | with_reducible apply ite_pred
    | with_reducible apply State.setLane_sameDev
    | with_reducible apply State.retireNow_sameDev
    | with_reducible apply State.unuse_sameDev

theorem State.missAlign_sameDev {s0 s : State} (hs : SameDev s0 s) (b l : Nat) : SameDev s0 (s.missAlign b l) := by
  unfold State.missAlign
  dsimp only
  repeat' first
    | with_reducible assumption
    | with_reducible apply ite_pred
    | with_reducible apply State.raise_sameDev
    | with_reducible apply State.setLane_sameDev

theorem State.sendAligns_sameDev {s0 s : State} (hs : SameDev s0 s) (b : Nat) : SameDev s0 (s.sendAligns b) := by
  unfold State.sendAligns
  dsimp only
  repeat' first
    | with_reducible assumption
    | with_reducible refine foldl_pred (fun _ _ _ => ?_) ?_
    | with_reducible apply State.free_sameDev
    | with_reducible apply State.sendBlock_sameDev
    | with_reducible apply SameDevP.proj

theorem State.alignSlot_sameDev {s0 s : State} (hs : SameDev s0 s) (b : Nat) : SameDev s0 (s.alignSlot b) := by
  unfold State.alignSlot
  try dsimp only
  repeat' first
    | with_reducible assumption
    | with_reducible apply ite_pred
    | with_reducible refine foldl_pred (fun _ _ _ => ?_) ?_
    | with_reducible apply State.endLink_sameDev
    | with_reducible apply State.setLink_sameDev
    | with_reducible apply State.enterP1_sameDev
    | with_reducible apply State.missAlign_sameDev
    | with_reducible apply State.takeService_sameDev
    | with_reducible apply State.admitLink_sameDev
    | with_reducible apply State.sendAligns_sameDev
    | with_reducible apply State.sendBlock_sameDev

theorem State.countLost_sameDev {s0 s : State} (hs : SameDev s0 s) (b l : Nat) : SameDev s0 (s.countLost b l) := by
  unfold State.countLost
  dsimp only
  repeat' first
    | with_reducible assumption
    | with_reducible apply ite_pred
    | with_reducible apply State.count_sameDev
    | with_reducible apply State.free_sameDev
    | with_reducible apply State.setLane_sameDev
    | with_reducible apply SameDevP.proj
    | split

theorem State.takeAlign_sameDev {s0 s : State} (hs : SameDev s0 s) (b l payload d : Nat) :
    SameDev s0 (s.takeAlign b l payload d) := by
  unfold State.takeAlign
  dsimp only
  repeat' first
    | with_reducible assumption
    | with_reducible apply ite_pred
    | with_reducible refine foldl_pred (fun _ _ _ => ?_) ?_
    | with_reducible apply State.setLane_sameDev
    | with_reducible apply State.setLink_sameDev
    | with_reducible apply State.countLost_sameDev

theorem State.recvAlign_sameDev {s0 s : State} (hs : SameDev s0 s) (l payload : Nat) :
    SameDev s0 (s.recvAlign l payload) := by
  unfold State.recvAlign
  dsimp only
  repeat' first
    | with_reducible assumption
    | with_reducible apply ite_pred
    | with_reducible apply State.count_sameDev
    | with_reducible apply State.raise_sameDev
    | with_reducible apply State.free_sameDev
    | with_reducible apply State.setLane_sameDev
    | with_reducible apply State.takeAlign_sameDev
    | with_reducible apply SameDevP.proj
    | split

theorem State.breakPacket_sameDev {s0 s : State} (hs : SameDev s0 s) (b : Nat) : SameDev s0 (s.breakPacket b) := by
  unfold State.breakPacket
  dsimp only
  repeat' first
    | with_reducible assumption
    | with_reducible apply State.count_sameDev
    | with_reducible apply State.setLink_sameDev
    | split

theorem State.sendAck_sameDev {s0 s : State} (hs : SameDev s0 s) (b sub tag resp err : Nat) :
    SameDev s0 (s.sendAck b sub tag resp err) := by
  unfold State.sendAck
  dsimp only
  repeat' first
    | with_reducible assumption
    | with_reducible apply ite_pred
    | with_reducible apply State.setLink_sameDev
    | with_reducible apply State.sendBlock_sameDev

theorem State.timeCommand_sameDev {s0 s : State} (hs : SameDev s0 s) (b sub payload : Nat) :
    SameDev s0 (s.timeCommand b sub payload) := by
  unfold State.timeCommand
  try dsimp only
  repeat' first
    | with_reducible assumption
    | with_reducible apply ite_pred
    | with_reducible apply State.sendBlock_sameDev
    | with_reducible apply State.sendAck_sameDev
    | with_reducible apply State.announceLink_sameDev
    | with_reducible apply State.acceptSec_sameDev
    | simp only [sameDev_mk]
    | split

theorem State.linkTrigger_sameDev {s0 s : State} (hs : SameDev s0 s) (b payload : Nat) :
    SameDev s0 (s.linkTrigger b payload) := by
  unfold State.linkTrigger
  try dsimp only
  repeat' first
    | with_reducible assumption
    | with_reducible apply ite_pred
    | with_reducible apply State.count_sameDev
    | with_reducible apply State.aqEvents_sameDev
    | simp only [sameDev_mk]

theorem State.recvCredit_sameDev {s0 s : State} (hs : SameDev s0 s) (b payload : Nat) :
    SameDev s0 (s.recvCredit b payload) := by
  unfold State.recvCredit
  dsimp only
  repeat' first
    | with_reducible assumption
    | with_reducible apply ite_pred
    | with_reducible apply State.setLink_sameDev
    | with_reducible apply State.takeCredits_sameDev

theorem State.recvCtrl_sameDev {s0 s : State} (hs : SameDev s0 s) (b payload : Nat) :
    SameDev s0 (s.recvCtrl b payload) := by
  unfold State.recvCtrl
  dsimp only
  repeat' first
    | with_reducible assumption
    | with_reducible apply ite_pred
    | with_reducible apply State.count_sameDev
    | with_reducible apply State.setLink_sameDev
    | with_reducible apply State.startRequest_sameDev
    | with_reducible apply State.timeCommand_sameDev
    | with_reducible apply State.linkTrigger_sameDev
    | with_reducible apply State.recvCredit_sameDev

theorem State.recvBlock_sameDev {s0 s : State} (hs : SameDev s0 s) (b payload : Nat) :
    SameDev s0 (s.recvBlock b payload) := by
  unfold State.recvBlock
  dsimp only
  repeat' first
    | with_reducible assumption
    | with_reducible apply ite_pred
    | with_reducible apply State.count_sameDev
    | with_reducible apply State.breakPacket_sameDev
    | with_reducible apply State.recvCtrl_sameDev

theorem State.repeatCredit_sameDev {s0 s : State} (hs : SameDev s0 s) (b stream : Nat) :
    SameDev s0 (s.repeatCredit b stream) := by
  unfold State.repeatCredit
  dsimp only
  repeat' first
    | with_reducible assumption
    | with_reducible apply ite_pred
    | with_reducible apply State.setLink_sameDev
    | with_reducible apply State.sendBlock_sameDev

theorem State.sendVerdict_sameDev {s0 s : State} (hs : SameDev s0 s) (b : Nat) : SameDev s0 (s.sendVerdict b) := by
  unfold State.sendVerdict
  try dsimp only
  repeat' first
    | with_reducible assumption
    | with_reducible apply ite_pred
    | with_reducible apply State.setLink_sameDev
    | with_reducible apply State.sendBlock_sameDev
    | with_reducible apply State.count_sameDev
    | simp only [sameDev_mk]
    | split

theorem State.recvTrain_sameDev {s0 s : State} (hs : SameDev s0 s) (l payload : Nat) :
    SameDev s0 (s.recvTrain l payload) := by
  unfold State.recvTrain
  try dsimp only
  repeat' first
    | with_reducible assumption
    | with_reducible apply ite_pred
    | with_reducible apply State.count_sameDev
    | with_reducible apply State.setLane_sameDev
    | with_reducible apply State.sendTrain_sameDev
    | with_reducible apply State.ffeDone_sameDev

theorem State.recvP1_sameDev {s0 s : State} (hs : SameDev s0 s) (l payload : Nat) : SameDev s0 (s.recvP1 l payload) := by
  unfold State.recvP1
  dsimp only
  repeat' first
    | with_reducible assumption
    | with_reducible apply ite_pred
    | with_reducible apply State.count_sameDev
    | with_reducible apply State.setLane_sameDev

theorem execVerdict_sameDev {s0 s : State} (t link : Nat) (hs : SameDev s0 s) : SameDevO s0 (execVerdict t link s) := by
  unfold execVerdict
  repeat' first
    | with_reducible assumption
    | with_reducible apply ite_pred
    | with_reducible apply State.at_sameDev
    | with_reducible apply State.sendVerdict_sameDev
    | with_reducible apply sameDevO_next
    | with_reducible exact sameDevO_fault

theorem execAlignSlot_sameDev {s0 s : State} (t b : Nat) (hs : SameDev s0 s) : SameDevO s0 (execAlignSlot t b s) := by
  unfold execAlignSlot
  repeat' first
    | with_reducible assumption
    | with_reducible apply ite_pred
    | with_reducible apply State.at_sameDev
    | with_reducible apply State.alignSlot_sameDev
    | with_reducible apply sameDevO_next
    | with_reducible exact sameDevO_fault

theorem execAlign_sameDev {s0 s : State} (t lane payload : Nat) (hs : SameDev s0 s) :
    SameDevO s0 (execAlign t lane payload s) := by
  unfold execAlign
  repeat' first
    | with_reducible assumption
    | with_reducible apply ite_pred
    | with_reducible apply State.at_sameDev
    | with_reducible apply State.recvAlign_sameDev
    | with_reducible apply sameDevO_next
    | with_reducible exact sameDevO_fault

theorem execStream_sameDev {s0 s : State} (t b payload : Nat) (hs : SameDev s0 s) :
    SameDevO s0 (execStream t b payload s) := by
  unfold execStream
  repeat' first
    | with_reducible assumption
    | with_reducible apply ite_pred
    | with_reducible apply State.at_sameDev
    | with_reducible apply State.recvBlock_sameDev
    | with_reducible apply sameDevO_next
    | with_reducible exact sameDevO_fault

theorem execCredit_sameDev {s0 s : State} (t b payload : Nat) (hs : SameDev s0 s) :
    SameDevO s0 (execCredit t b payload s) := by
  unfold execCredit
  repeat' first
    | with_reducible assumption
    | with_reducible apply ite_pred
    | with_reducible apply State.at_sameDev
    | with_reducible apply State.recvBlock_sameDev
    | with_reducible apply sameDevO_next
    | with_reducible exact sameDevO_fault

theorem execCreditRepeat_sameDev {s0 s : State} (t b stream : Nat) (hs : SameDev s0 s) :
    SameDevO s0 (execCreditRepeat t b stream s) := by
  unfold execCreditRepeat
  repeat' first
    | with_reducible assumption
    | with_reducible apply ite_pred
    | with_reducible apply State.at_sameDev
    | with_reducible apply State.repeatCredit_sameDev
    | with_reducible apply sameDevO_next
    | with_reducible exact sameDevO_fault

theorem execStart_sameDev {s0 s : State} (t b payload : Nat) (hs : SameDev s0 s) :
    SameDevO s0 (execStart t b payload s) := by
  unfold execStart
  repeat' first
    | with_reducible assumption
    | with_reducible apply ite_pred
    | with_reducible apply State.at_sameDev
    | with_reducible apply State.recvBlock_sameDev
    | with_reducible apply sameDevO_next
    | with_reducible exact sameDevO_fault

theorem execTimeSet_sameDev {s0 s : State} (t b payload : Nat) (hs : SameDev s0 s) :
    SameDevO s0 (execTimeSet t b payload s) := by
  unfold execTimeSet
  repeat' first
    | with_reducible assumption
    | with_reducible apply ite_pred
    | with_reducible apply State.at_sameDev
    | with_reducible apply State.recvBlock_sameDev
    | with_reducible apply sameDevO_next
    | with_reducible exact sameDevO_fault

theorem execLeap_sameDev {s0 s : State} (t b payload : Nat) (hs : SameDev s0 s) : SameDevO s0 (execLeap t b payload s) := by
  unfold execLeap
  repeat' first
    | with_reducible assumption
    | with_reducible apply ite_pred
    | with_reducible apply State.at_sameDev
    | with_reducible apply State.recvBlock_sameDev
    | with_reducible apply sameDevO_next
    | with_reducible exact sameDevO_fault

theorem execLinkTrigger_sameDev {s0 s : State} (t b payload : Nat) (hs : SameDev s0 s) :
    SameDevO s0 (execLinkTrigger t b payload s) := by
  unfold execLinkTrigger
  repeat' first
    | with_reducible assumption
    | with_reducible apply ite_pred
    | with_reducible apply State.at_sameDev
    | with_reducible apply State.recvBlock_sameDev
    | with_reducible apply sameDevO_next
    | with_reducible exact sameDevO_fault

theorem execTrain_sameDev {s0 s : State} (t lane payload : Nat) (hs : SameDev s0 s) :
    SameDevO s0 (execTrain t lane payload s) := by
  unfold execTrain
  repeat' first
    | with_reducible assumption
    | with_reducible apply ite_pred
    | with_reducible apply State.at_sameDev
    | with_reducible apply State.recvTrain_sameDev
    | with_reducible apply sameDevO_next
    | with_reducible exact sameDevO_fault

theorem execP1_sameDev {s0 s : State} (t lane payload : Nat) (hs : SameDev s0 s) :
    SameDevO s0 (execP1 t lane payload s) := by
  unfold execP1
  repeat' first
    | with_reducible assumption
    | with_reducible apply ite_pred
    | with_reducible apply State.at_sameDev
    | with_reducible apply State.recvP1_sameDev
    | with_reducible apply sameDevO_next
    | with_reducible exact sameDevO_fault

theorem execUnknownBlock_sameDev {s0 s : State} (t b payload : Nat) (hs : SameDev s0 s) :
    SameDevO s0 (execUnknownBlock t b payload s) := by
  unfold execUnknownBlock
  repeat' first
    | with_reducible assumption
    | with_reducible apply ite_pred
    | with_reducible apply State.at_sameDev
    | with_reducible apply State.recvBlock_sameDev
    | with_reducible apply sameDevO_next
    | with_reducible exact sameDevO_fault

end Sys2Proof.Machine
end

