-- ==== Sys2Proof/Laws/SameMem.lean ====
section
/-!
SUPPORT. Parts of a command that leave memory as it stands: the relation, and the named operations that have it.
-/

namespace Sys2Proof.Machine

/-- Two states with the same memory. -/
def SameMem (s0 s : State) : Prop := s.mem = s0.mem

/-- The same of the state in a pair, and of an outcome that is a next state. -/
def SameMemP {α : Type} (s0 : State) (x : α × State) : Prop := SameMem s0 x.2
def SameMemF {α : Type} (s0 : State) (x : State × α) : Prop := SameMem s0 x.1
def SameMemO (s0 : State) (x : Host.Outcome State Fault Refusal) : Prop :=
  match x with
  | .next s => SameMem s0 s
  | .fault _ => True
  | .refused _ => True

theorem SameMem.refl (s : State) : SameMem s s := rfl

theorem SameMemP.snd {α : Type} {s0 s : State} {a : α} {p : α × State} (e : p = (a, s)) (h : SameMemP s0 p) :
    SameMem s0 s := by
  subst e; exact h

theorem SameMemF.fst {α : Type} {s0 s : State} {a : α} {p : State × α} (e : p = (s, a)) (h : SameMemF s0 p) :
    SameMem s0 s := by
  subst e; exact h

theorem SameMemP.proj {α : Type} {s0 : State} {p : α × State} (h : SameMemP s0 p) : SameMem s0 p.2 := h
theorem SameMemF.proj {α : Type} {s0 : State} {p : State × α} (h : SameMemF s0 p) : SameMem s0 p.1 := h
theorem sameMemP_mk {α : Type} {s0 s : State} {a : α} : SameMemP s0 (a, s) ↔ SameMem s0 s := Iff.rfl
theorem sameMemF_mk {α : Type} {s0 s : State} {a : α} : SameMemF s0 (s, a) ↔ SameMem s0 s := Iff.rfl
theorem sameMemO_next {s0 s : State} (h : SameMem s0 s) : SameMemO s0 (.next s) := h
theorem sameMemO_fault {s0 : State} {e : Fault} : SameMemO s0 (.fault e) := trivial

theorem sameMem_mk {s0 s : State} {now' : Nat} {devAt' : Nat} {pkts' : List (Nat × Nat)} {share' : Share} {dev' prev' :
    DevState} {regs' : SMap Nat} {force' : SMap Nat} {ports' : SMap Port} {seqNo' : Nat} {time' : TimeBase} {power'
    : Power} {boot' : BootCtl} {gov' : Gov} {islands' : SMap Island} {restore' : SMap Restore} {sources' : SMap
    Source} {ends' : SMap BackEnd} {chans' : SMap Chan} {waves' : SMap Wave} {slots' : SMap Slot} {ctxs' : SMap Ctx}
    {stabs' : SMap Stab} {engines' : SMap Engine} {acqs' : SMap Acq} {pans' : SMap Pan} {crys' : SMap Cry} {masks' :
    SMap Mask} {rules' : SMap Rule} {markers' : SMap Marker} {trips' : SMap TripOut} {slus' : SMap Slu} {slu' :
    SluEngine} {lanes' : SMap Lane} {quads' : SMap Quad} {links' : SMap Link} {life' : Life} {hbm' : Hbm} {bank' :
    Bank} {jtag' : Jtag} {pending' : List Instr} : SameMem s0 (State.mk now' dev' prev' devAt' pkts' regs' force'
    ports' seqNo' s.mem time' power' boot' gov' islands' restore' sources' ends' chans' waves' slots' ctxs' stabs'
    engines' acqs' share' pans' crys' masks' rules' markers' trips' slus' slu' lanes' quads' links' life' hbm' bank'
    jtag' pending') ↔ SameMem s0 s := Iff.rfl

theorem State.setPort_sameMem {s0 s : State} (h : SameMem s0 s) (n : Nat) (v : Port) : SameMem s0 (s.setPort n v) := h
theorem State.setSrc_sameMem {s0 s : State} (h : SameMem s0 s) (n : Nat) (v : Source) : SameMem s0 (s.setSrc n v) := h
theorem State.setBe_sameMem {s0 s : State} (h : SameMem s0 s) (n : Nat) (v : BackEnd) : SameMem s0 (s.setBe n v) := h
theorem State.setChan_sameMem {s0 s : State} (h : SameMem s0 s) (n : Nat) (v : Chan) : SameMem s0 (s.setChan n v) := h
theorem State.setWave_sameMem {s0 s : State} (h : SameMem s0 s) (n : Nat) (v : Wave) : SameMem s0 (s.setWave n v) := h
theorem State.setSlot_sameMem {s0 s : State} (h : SameMem s0 s) (n : Nat) (v : Slot) : SameMem s0 (s.setSlot n v) := h
theorem State.setCtx_sameMem {s0 s : State} (h : SameMem s0 s) (n : Nat) (v : Ctx) : SameMem s0 (s.setCtx n v) := h
theorem State.setStab_sameMem {s0 s : State} (h : SameMem s0 s) (n : Nat) (v : Stab) : SameMem s0 (s.setStab n v) := h
theorem State.setEngine_sameMem {s0 s : State} (h : SameMem s0 s) (n : Nat) (v : Engine) : SameMem s0 (s.setEngine n
    v) := h
theorem State.setAcq_sameMem {s0 s : State} (h : SameMem s0 s) (n : Nat) (v : Acq) : SameMem s0 (s.setAcq n v) := h
theorem State.setPan_sameMem {s0 s : State} (h : SameMem s0 s) (n : Nat) (v : Pan) : SameMem s0 (s.setPan n v) := h
theorem State.setCry_sameMem {s0 s : State} (h : SameMem s0 s) (n : Nat) (v : Cry) : SameMem s0 (s.setCry n v) := h
theorem State.setMask_sameMem {s0 s : State} (h : SameMem s0 s) (n : Nat) (v : Mask) : SameMem s0 (s.setMask n v) := h
theorem State.setRule_sameMem {s0 s : State} (h : SameMem s0 s) (n : Nat) (v : Rule) : SameMem s0 (s.setRule n v) := h
theorem State.setMarker_sameMem {s0 s : State} (h : SameMem s0 s) (n : Nat) (v : Marker) : SameMem s0 (s.setMarker n
    v) := h
theorem State.setTrip_sameMem {s0 s : State} (h : SameMem s0 s) (n : Nat) (v : TripOut) : SameMem s0 (s.setTrip n v)
    := h
theorem State.setSl_sameMem {s0 s : State} (h : SameMem s0 s) (n : Nat) (v : Slu) : SameMem s0 (s.setSl n v) := h
theorem State.setLane_sameMem {s0 s : State} (h : SameMem s0 s) (n : Nat) (v : Lane) : SameMem s0 (s.setLane n v) := h
theorem State.setQuad_sameMem {s0 s : State} (h : SameMem s0 s) (n : Nat) (v : Quad) : SameMem s0 (s.setQuad n v) := h
theorem State.setLink_sameMem {s0 s : State} (h : SameMem s0 s) (n : Nat) (v : Link) : SameMem s0 (s.setLink n v) := h
theorem State.setIsland_sameMem {s0 s : State} (h : SameMem s0 s) (n : Nat) (v : Island) : SameMem s0 (s.setIsland n
    v) := h
theorem State.setRest_sameMem {s0 s : State} (h : SameMem s0 s) (n : Nat) (v : Restore) : SameMem s0 (s.setRest n v)
    := h
theorem State.put_sameMem {s0 s : State} (h : SameMem s0 s) (f : Fld) (i v : Nat) : SameMem s0 (s.put f i v) := h
theorem State.apply_sameMem {s0 s : State} (h : SameMem s0 s) (f : Fld) (i : Nat) : SameMem s0 (s.apply f i) := h
theorem State.at_sameMem {s0 s : State} (h : SameMem s0 s) (t : Nat) : SameMem s0 (s.at t) := h
theorem State.free_sameMem {s0 s : State} (h : SameMem s0 s) : SameMemP s0 s.free := h

/-! ## Ops -/

theorem State.applyAll_sameMem {s0 s : State} (hs : SameMem s0 s) (fs : List Fld) (i : Nat) :
    SameMem s0 (s.applyAll fs i) := by
  unfold State.applyAll
  repeat' first
    | with_reducible assumption
    | with_reducible refine foldl_pred (fun _ _ _ => ?_) ?_
    | with_reducible apply State.apply_sameMem

theorem State.bump_sameMem {s0 s : State} (hs : SameMem s0 s) (f : Fld) (i : Nat) : SameMem s0 (s.bump f i) := by
  unfold State.bump
  repeat' first | with_reducible assumption | with_reducible apply State.put_sameMem

theorem State.count_sameMem {s0 s : State} (hs : SameMem s0 s) (f : Fld) (i n : Nat) : SameMem s0 (s.count f i n) := by
  unfold State.count
  repeat' first | with_reducible assumption | with_reducible apply State.put_sameMem

theorem State.raise_sameMem {s0 s : State} (hs : SameMem s0 s) (f : Fld) (i : Nat) : SameMem s0 (s.raise f i) := by
  unfold State.raise
  repeat' first
    | with_reducible assumption
    | with_reducible apply State.put_sameMem
    | with_reducible apply State.bump_sameMem

/-! ## Blocks -/

theorem State.sendBlock_sameMem {s0 s : State} (hs : SameMem s0 s) (b w : Nat) : SameMem s0 (s.sendBlock b w) := by
  unfold State.sendBlock
  dsimp only
  repeat' first | with_reducible assumption | with_reducible apply State.setLink_sameMem

/-! ## Records -/

theorem State.noteOverflow_sameMem {s0 s : State} (hs : SameMem s0 s) (k : Nat) (buffer : Bool) :
    SameMem s0 (s.noteOverflow k buffer) := by
  unfold State.noteOverflow
  dsimp only
  repeat' first
    | with_reducible assumption
    | with_reducible apply ite_pred
    | with_reducible apply State.count_sameMem
    | with_reducible apply State.raise_sameMem

theorem State.beginCause_sameMem {s0 s : State} (hs : SameMem s0 s) (k c : Nat) (uncounted : Bool) :
    SameMem s0 (s.beginCause k c uncounted) := by
  unfold State.beginCause
  try dsimp only
  repeat' first
    | with_reducible assumption
    | with_reducible apply ite_pred
    | with_reducible apply State.setSrc_sameMem
    | with_reducible apply State.noteOverflow_sameMem
    | simp only [sameMem_mk]
    | split

theorem State.noteLost_sameMem {s0 s : State} (hs : SameMem s0 s) (k : Nat) (e : Episode) :
    SameMem s0 (s.noteLost k e) := by
  unfold State.noteLost
  repeat' first
    | with_reducible assumption
    | with_reducible apply ite_pred
    | with_reducible apply State.count_sameMem

theorem State.putAnchor_sameMem {s0 s : State} (hs : SameMem s0 s) (k reason : Nat) (t : Int) :
    SameMem s0 (s.putAnchor k reason t) := by
  unfold State.putAnchor
  dsimp only
  repeat' first | with_reducible assumption | with_reducible apply State.setSrc_sameMem

theorem State.dueAnchor_sameMem {s0 s : State} (hs : SameMem s0 s) (k reason : Nat) (t : Int) :
    SameMem s0 (s.dueAnchor k reason t) := by
  unfold State.dueAnchor
  repeat' first
    | with_reducible assumption
    | with_reducible apply ite_pred
    | with_reducible apply State.putAnchor_sameMem
    | with_reducible apply State.beginCause_sameMem

theorem State.dueMarker_sameMem {s0 s : State} (hs : SameMem s0 s) (k : Nat) (t : Int) (i : Item) :
    SameMem s0 (s.dueMarker k t i) := by
  unfold State.dueMarker
  try dsimp only
  repeat' first
    | with_reducible assumption
    | with_reducible apply ite_pred
    | with_reducible apply State.setSrc_sameMem
    | with_reducible apply State.beginCause_sameMem

theorem State.stopNow_sameMem {s0 s : State} (hs : SameMem s0 s) (k : Nat) (t : Int) (markers : List Item) :
    SameMem s0 (s.stopNow k t markers) := by
  unfold State.stopNow
  try dsimp only
  repeat' first
    | with_reducible assumption
    | with_reducible apply State.noteLost_sameMem
    | with_reducible apply State.setSrc_sameMem
    | simp only [sameMem_mk]
    | split

theorem State.endCauses_sameMem {s0 s : State} (hs : SameMem s0 s) (k : Nat) (cs : List Nat) (t : Int) (markers
    : List Item) (reason : Nat) :
    SameMem s0 (s.endCauses k cs t markers reason) := by
  unfold State.endCauses
  try dsimp only
  repeat' first
    | with_reducible assumption
    | with_reducible apply ite_pred
    | with_reducible apply State.setSrc_sameMem
    | with_reducible apply State.noteLost_sameMem
    | with_reducible apply State.putAnchor_sameMem
    | simp only [sameMem_mk]
    | split

theorem State.meet_sameMem {s0 s : State} (hs : SameMem s0 s) (k : Nat) (t : Int) : SameMem s0 (s.meet k t) := by
  unfold State.meet
  try dsimp only
  repeat' first
    | with_reducible assumption
    | with_reducible apply ite_pred
    | with_reducible refine foldl_pred (fun _ _ _ => ?_) ?_
    | with_reducible apply State.setSrc_sameMem
    | with_reducible apply State.stopNow_sameMem
    | with_reducible apply State.endCauses_sameMem
    | with_reducible apply State.dueMarker_sameMem
    | with_reducible apply State.dueAnchor_sameMem
    | simp only [sameMem_mk]
    | split

theorem State.meetAll_sameMem {s0 : State} (k : Nat) (t : Int) (n : Nat) {s : State} (hs : SameMem s0 s) :
    SameMem s0 (State.meetAll k t n s) := by
  induction n generalizing s with
  | zero => exact hs
  | succ n ih =>
    rw [State.meetAll]
    split
    · split
      · exact ih (State.meet_sameMem hs _ _)
      · exact hs
    · exact hs

theorem State.writeDue_sameMem {s0 s : State} (hs : SameMem s0 s) (k : Nat) (t : Int) :
    SameMem s0 (s.writeDue k t) := by
  unfold State.writeDue
  try dsimp only
  repeat' first | with_reducible assumption | with_reducible apply State.meetAll_sameMem

theorem State.flush_sameMem {s0 s : State} (hs : SameMem s0 s) (k : Nat) : SameMem s0 (s.flush k) := by
  unfold State.flush
  repeat' first | with_reducible assumption | with_reducible apply State.writeDue_sameMem

theorem State.pushDue_sameMem {s0 s : State} (hs : SameMem s0 s) (k : Nat) (t : Int) (w : DueWord) :
    SameMem s0 (s.pushDue k t w) := by
  unfold State.pushDue
  try dsimp only
  repeat' first
    | with_reducible assumption
    | with_reducible apply State.setSrc_sameMem
    | with_reducible apply State.flush_sameMem

theorem State.startTaking_sameMem {s0 s : State} (hs : SameMem s0 s) (k : Nat) (t : Int) (reason : Nat) :
    SameMem s0 (s.startTaking k t reason) := by
  unfold State.startTaking
  try dsimp only
  repeat' first
    | with_reducible assumption
    | with_reducible apply State.writeDue_sameMem
    | with_reducible apply State.setSrc_sameMem
    | with_reducible apply State.putAnchor_sameMem

theorem State.stopTaking_sameMem {s0 s : State} (hs : SameMem s0 s) (k : Nat) (t : Int) :
    SameMem s0 (s.stopTaking k t) := by
  unfold State.stopTaking
  repeat' first
    | with_reducible assumption
    | with_reducible apply ite_pred
    | with_reducible apply State.pushDue_sameMem

theorem State.endCause_sameMem {s0 s : State} (hs : SameMem s0 s) (k c : Nat) (t : Int) :
    SameMem s0 (s.endCause k c t) := by
  unfold State.endCause
  repeat' first
    | with_reducible assumption
    | with_reducible apply ite_pred
    | with_reducible apply State.pushDue_sameMem
    | split

theorem State.offerTap_sameMem {s0 s : State} (hs : SameMem s0 s) (k : Nat) (t : Int) (pol : Bool) (f : EdgeFlags) :
    SameMemP s0 (s.offerTap k t pol f) := by
  unfold State.offerTap
  dsimp only
  repeat' first
    | with_reducible assumption
    | with_reducible apply ite_pred
    | with_reducible apply State.setSrc_sameMem
    | simp only [sameMemP_mk]

theorem State.outsideEdge_sameMem {s0 s : State} (hs : SameMem s0 s) (k : Nat) : SameMem s0 (s.outsideEdge k) := by
  unfold State.outsideEdge
  dsimp only
  repeat' first | with_reducible assumption | with_reducible apply State.setSrc_sameMem | split

theorem State.readCounter_sameMem {s0 s : State} (hs : SameMem s0 s) (k n : Nat) : SameMem s0 (s.readCounter k n) := by
  unfold State.readCounter
  dsimp only
  repeat' first | with_reducible assumption | with_reducible apply State.setSrc_sameMem | split

theorem State.countEdge_sameMem {s0 s : State} (hs : SameMem s0 s) (k : Nat) : SameMem s0 (s.countEdge k) := by
  unfold State.countEdge
  repeat' first
    | with_reducible assumption
    | with_reducible apply ite_pred
    | with_reducible apply State.count_sameMem

theorem State.formEdge_sameMem {s0 s : State} (hs : SameMem s0 s) (k : Nat) (t : Int) (pol : Bool) (f :
    EdgeFlags) :
    SameMem s0 (s.formEdge k t pol f) := by
  unfold State.formEdge
  try dsimp only
  repeat' first
    | with_reducible assumption
    | with_reducible apply ite_pred
    | with_reducible apply State.writeDue_sameMem
    | with_reducible apply State.countEdge_sameMem
    | with_reducible apply State.setSrc_sameMem
    | with_reducible apply State.beginCause_sameMem
    | with_reducible apply State.offerTap_sameMem
    | with_reducible apply State.count_sameMem
    | with_reducible refine SameMemP.snd (by assumption) ?_
    | with_reducible apply SameMemP.proj
    | simp only [sameMemP_mk]
    | simp only [sameMem_mk]
    | split

theorem State.takeBy_sameMem {s0 s : State} (hs : SameMem s0 s) (b : Nat) : SameMem s0 (s.takeBy b) := by
  unfold State.takeBy
  repeat' first
    | with_reducible assumption
    | with_reducible apply State.setBe_sameMem

theorem State.stamp_sameMem {s0 s : State} (hs : SameMem s0 s) (k bin : Nat) : SameMemP s0 (s.stamp k bin) := by
  unfold State.stamp
  repeat' first | with_reducible assumption | with_reducible apply State.takeBy_sameMem | simp only [sameMemP_mk]

/-! ## Trips -/

theorem State.assertMarker_sameMem {s0 s : State} (hs : SameMem s0 s) (k fresh : Nat) :
    SameMem s0 (s.assertMarker k fresh) := by
  unfold State.assertMarker
  dsimp only
  repeat' first
    | with_reducible assumption
    | with_reducible apply ite_pred
    | with_reducible apply State.raise_sameMem
    | with_reducible apply State.setMarker_sameMem
    | with_reducible refine times_pred (fun _ _ => ?_) ?_

theorem State.loopEdge_sameMem {s0 s : State} (hs : SameMem s0 s) (k : Nat) (pol : Bool) (bin : Nat) :
    SameMem s0 (s.loopEdge k pol bin) := by
  unfold State.loopEdge
  dsimp only
  repeat' first
    | with_reducible assumption
    | with_reducible apply ite_pred
    | with_reducible apply State.formEdge_sameMem
    | with_reducible apply State.stamp_sameMem
    | with_reducible apply SameMemP.proj

theorem State.endMarker_sameMem {s0 s : State} (hs : SameMem s0 s) (k : Nat) : SameMem s0 (s.endMarker k) := by
  unfold State.endMarker
  try dsimp only
  repeat' first
    | with_reducible assumption
    | with_reducible apply State.stopTaking_sameMem
    | with_reducible apply State.setMarker_sameMem

theorem State.truncate_sameMem {s0 s : State} (hs : SameMem s0 s) (k : Nat) : SameMem s0 (s.truncate k) := by
  unfold State.truncate
  dsimp only
  repeat' first
    | with_reducible assumption
    | with_reducible apply ite_pred
    | with_reducible apply State.count_sameMem
    | with_reducible apply State.free_sameMem
    | with_reducible apply State.setMarker_sameMem
    | with_reducible apply State.loopEdge_sameMem
    | with_reducible apply State.endMarker_sameMem
    | with_reducible apply SameMemP.proj

theorem State.gateMarker_sameMem {s0 s : State} (hs : SameMem s0 s) (k lines : Nat) :
    SameMem s0 (s.gateMarker k lines) := by
  unfold State.gateMarker
  dsimp only
  repeat' first
    | with_reducible assumption
    | with_reducible apply ite_pred
    | with_reducible apply State.setMarker_sameMem
    | with_reducible apply State.assertMarker_sameMem
    | with_reducible apply State.truncate_sameMem

theorem State.gateTrip_sameMem {s0 s : State} (hs : SameMem s0 s) (i lines : Nat) :
    SameMem s0 (s.gateTrip i lines) := by
  unfold State.gateTrip
  try dsimp only
  repeat' first
    | with_reducible assumption
    | with_reducible apply ite_pred
    | with_reducible refine times_pred (fun _ _ => ?_) ?_
    | with_reducible apply State.raise_sameMem
    | with_reducible apply State.count_sameMem
    | with_reducible apply State.setTrip_sameMem

theorem State.settleTrips_sameMem {s0 s : State} (hs : SameMem s0 s) : SameMem s0 s.settleTrips := by
  unfold State.settleTrips
  dsimp only
  repeat' first
    | with_reducible assumption
    | with_reducible refine foldl_pred (fun _ _ _ => ?_) ?_
    | with_reducible apply State.gateMarker_sameMem
    | with_reducible apply State.gateTrip_sameMem

theorem State.startLoop_sameMem {s0 s : State} (hs : SameMem s0 s) (k : Nat) : SameMem s0 (s.startLoop k) := by
  unfold State.startLoop
  try dsimp only
  repeat' first
    | with_reducible assumption
    | with_reducible apply ite_pred
    | with_reducible apply State.startTaking_sameMem

theorem State.fall_sameMem {s0 s : State} (hs : SameMem s0 s) (k bin : Nat) : SameMem s0 (s.fall k bin) := by
  unfold State.fall
  dsimp only
  repeat' first
    | with_reducible assumption
    | with_reducible apply ite_pred
    | with_reducible apply State.setMarker_sameMem
    | with_reducible apply State.loopEdge_sameMem
    | with_reducible apply State.endMarker_sameMem
    | split

/-! ## Tasks -/

theorem State.submit_sameMem {s0 s : State} (hs : SameMem s0 s) (cls : Nat) (x : Subject) :
    SameMem s0 (s.submit cls x) := by
  unfold State.submit
  repeat' first | with_reducible assumption | simp only [sameMem_mk]

theorem State.queueWake_sameMem {s0 s : State} (hs : SameMem s0 s) (k cls : Nat) : SameMem s0 (s.queueWake k cls) := by
  unfold State.queueWake
  repeat' first
    | with_reducible assumption
    | with_reducible apply ite_pred
    | with_reducible apply State.submit_sameMem

theorem State.releaseCost_sameMem {s0 s : State} (hs : SameMem s0 s) (x : Subject) :
    SameMem s0 (s.releaseCost x) := by
  unfold State.releaseCost
  repeat' first | with_reducible assumption | simp only [sameMem_mk]

/-! ## Engines -/

theorem State.openAt_sameMem {s0 s : State} (hs : SameMem s0 s) (n : Nat) (t : Int) (code : Nat) :
    SameMem s0 (s.openAt n t code) := by
  unfold State.openAt
  dsimp only
  repeat' first | with_reducible assumption | with_reducible apply State.setCtx_sameMem

theorem State.shutAt_sameMem {s0 s : State} (hs : SameMem s0 s) (n : Nat) (t : Int) (code : Nat) :
    SameMem s0 (s.shutAt n t code) := by
  unfold State.shutAt
  repeat' first | with_reducible assumption | with_reducible apply State.setCtx_sameMem

theorem State.cutGates_sameMem {s0 s : State} (hs : SameMem s0 s) (n : Nat) (t : Int) (code : Nat) (renew :
    Bool) :
    SameMem s0 (s.cutGates n t code renew) := by
  unfold State.cutGates
  try dsimp only
  repeat' first
    | with_reducible assumption
    | with_reducible apply ite_pred
    | with_reducible apply State.setCtx_sameMem
    | with_reducible apply State.shutAt_sameMem
    | with_reducible apply State.openAt_sameMem

theorem State.frameGate_sameMem {s0 s : State} (hs : SameMem s0 s) (n : Nat) (t : Int) :
    SameMem s0 (s.frameGate n t) := by
  unfold State.frameGate
  try dsimp only
  repeat' first
    | with_reducible assumption
    | with_reducible apply ite_pred
    | with_reducible apply State.shutAt_sameMem
    | with_reducible apply State.openAt_sameMem
    | split

theorem State.gateEdge_sameMem {s0 s : State} (hs : SameMem s0 s) (n : Nat) (t : Int) :
    SameMem s0 (s.gateEdge n t) := by
  unfold State.gateEdge
  try dsimp only
  repeat' first
    | with_reducible assumption
    | with_reducible apply ite_pred
    | with_reducible apply State.openAt_sameMem
    | with_reducible apply State.shutAt_sameMem
    | with_reducible apply State.setCtx_sameMem
    | simp only [sameMem_mk]
    | split

theorem State.applyUpd_sameMem {s0 s : State} (hs : SameMem s0 s) (n : Nat) (u : Upd) :
    SameMem s0 (s.applyUpd n u) := by
  unfold State.applyUpd
  try dsimp only
  repeat' first
    | with_reducible assumption
    | with_reducible apply ite_pred
    | with_reducible apply State.setCtx_sameMem
    | with_reducible apply State.gateEdge_sameMem
    | with_reducible apply State.cutGates_sameMem
    | with_reducible apply State.shutAt_sameMem
    | simp only [sameMem_mk]
    | split

theorem State.drainCtx_sameMem {s0 s : State} (hs : SameMem s0 s) (n : Nat) : SameMem s0 (s.drainCtx n) := by
  unfold State.drainCtx
  dsimp only
  repeat' first
    | with_reducible assumption
    | with_reducible refine foldl_pred (fun _ _ _ => ?_) ?_
    | with_reducible apply State.setEngine_sameMem
    | with_reducible apply State.applyUpd_sameMem

theorem State.frameContexts_sameMem {s0 s : State} (hs : SameMem s0 s) (t : Int) : SameMem s0 (s.frameContexts t) := by
  unfold State.frameContexts
  dsimp only
  repeat' first
    | with_reducible assumption
    | with_reducible refine foldl_pred (fun _ _ _ => ?_) ?_
    | with_reducible apply State.setEngine_sameMem
    | with_reducible apply State.frameGate_sameMem

theorem execEngineUpdate_sameMem {s0 s : State} (t e : Nat) (hs : SameMem s0 s) :
    SameMemO s0 (execEngineUpdate t e s) := by
  unfold execEngineUpdate
  try dsimp only
  repeat' first
    | with_reducible assumption
    | with_reducible apply ite_pred
    | with_reducible apply State.at_sameMem
    | with_reducible apply State.setEngine_sameMem
    | with_reducible apply State.applyUpd_sameMem
    | with_reducible apply sameMemO_next
    | with_reducible exact sameMemO_fault
    | simp only [sameMem_mk]
    | split

theorem execGateTimeout_sameMem {s0 s : State} (t n : Nat) (hs : SameMem s0 s) : SameMemO s0 (execGateTimeout t n s) := by
  unfold execGateTimeout
  dsimp only
  repeat' first
    | with_reducible assumption
    | with_reducible apply ite_pred
    | with_reducible apply State.at_sameMem
    | with_reducible apply State.shutAt_sameMem
    | with_reducible apply sameMemO_next
    | with_reducible exact sameMemO_fault
    | split

theorem execContextMove_sameMem {s0 s : State} (t n : Nat) (hs : SameMem s0 s) : SameMemO s0 (execContextMove t n s) := by
  unfold execContextMove
  dsimp only
  repeat' first
    | with_reducible assumption
    | with_reducible apply ite_pred
    | with_reducible apply State.at_sameMem
    | with_reducible apply State.setCtx_sameMem
    | with_reducible apply State.drainCtx_sameMem
    | with_reducible apply sameMemO_next
    | with_reducible exact sameMemO_fault
    | split

/-! ## Crystal -/

theorem State.endSweep_sameMem {s0 s : State} (hs : SameMem s0 s) (n : Nat) : SameMem s0 (s.endSweep n) := by
  unfold State.endSweep
  dsimp only
  repeat' first
    | with_reducible assumption
    | with_reducible apply ite_pred
    | with_reducible apply State.count_sameMem
    | with_reducible apply State.setCry_sameMem
    | split

theorem execSweepComplete_sameMem {s0 s : State} (t n : Nat) (hs : SameMem s0 s) :
    SameMemO s0 (execSweepComplete t n s) := by
  unfold execSweepComplete
  repeat' first
    | with_reducible assumption
    | with_reducible apply ite_pred
    | with_reducible apply State.at_sameMem
    | with_reducible apply State.endSweep_sameMem
    | with_reducible apply sameMemO_next
    | with_reducible exact sameMemO_fault

/-! ## Waves -/

theorem State.switchSet_sameMem {s0 s : State} (hs : SameMem s0 s) (m n : Nat) (at_ : Int) :
    SameMem s0 (s.switchSet m n at_) := by
  unfold State.switchSet
  dsimp only
  repeat' first | with_reducible assumption | with_reducible apply State.setWave_sameMem

theorem State.reuser_sameMem {s0 s : State} (hs : SameMem s0 s) (m : Nat) (at_ : Int) : SameMem s0 (s.reuser m at_) := by
  unfold State.reuser
  dsimp only
  repeat' first
    | with_reducible assumption
    | with_reducible apply ite_pred
    | with_reducible apply State.switchSet_sameMem

theorem State.beginWindow_sameMem {s0 s : State} (hs : SameMem s0 s) (n : Nat) (w : Window) :
    SameMem s0 (s.beginWindow n w) := by
  unfold State.beginWindow
  try dsimp only
  repeat' first
    | with_reducible assumption
    | with_reducible apply ite_pred
    | with_reducible apply State.startTaking_sameMem
    | with_reducible apply State.putAnchor_sameMem
    | with_reducible apply State.setWave_sameMem

theorem State.setSure_sameMem {s0 s : State} (hs : SameMem s0 s) (k : Nat) (t : Int) :
    SameMem s0 (s.setSure k t) := by
  unfold State.setSure
  repeat' first | with_reducible assumption | with_reducible apply State.setSrc_sameMem

theorem State.finishWindow_sameMem {s0 s : State} (hs : SameMem s0 s) (n : Nat) (w : Window) (c : Int) :
    SameMem s0 (s.finishWindow n w c) := by
  unfold State.finishWindow
  try dsimp only
  repeat' first
    | with_reducible assumption
    | with_reducible apply ite_pred
    | with_reducible apply State.setSure_sameMem
    | with_reducible apply State.stopTaking_sameMem
    | with_reducible apply State.count_sameMem
    | with_reducible apply State.setWave_sameMem

theorem State.windowEvent_sameMem {s0 s : State} (hs : SameMem s0 s) (n : Nat) (rec : Int) :
    SameMem s0 (s.windowEvent n rec) := by
  unfold State.windowEvent
  try dsimp only
  repeat' first
    | with_reducible assumption
    | with_reducible apply ite_pred
    | with_reducible apply State.finishWindow_sameMem
    | with_reducible apply State.beginWindow_sameMem
    | with_reducible apply State.setWave_sameMem
    | simp only [sameMem_mk]
    | split

theorem State.advance_sameMem {s0 s : State} (hs : SameMem s0 s) (n : Nat) (rec : Int) :
    SameMem s0 (s.advance n rec) := by
  unfold State.advance
  try dsimp only
  repeat' first
    | with_reducible assumption
    | with_reducible apply ite_pred
    | with_reducible refine times_pred (fun _ _ => ?_) ?_
    | with_reducible apply State.windowEvent_sameMem
    | with_reducible apply State.setSure_sameMem
    | with_reducible apply State.flush_sameMem

theorem State.idleWindows_sameMem {s0 s : State} (hs : SameMem s0 s) (n : Nat) : SameMem s0 (s.idleWindows n) := by
  unfold State.idleWindows
  try dsimp only
  repeat' first
    | with_reducible assumption
    | with_reducible refine foldl_pred (fun _ _ _ => ?_) ?_
    | with_reducible apply State.count_sameMem
    | with_reducible apply State.setWave_sameMem

theorem State.followWindows_sameMem {s0 s : State} (hs : SameMem s0 s) (n : Nat) :
    SameMem s0 (s.followWindows n) := by
  unfold State.followWindows
  repeat' first
    | with_reducible assumption
    | with_reducible apply ite_pred
    | with_reducible apply State.advance_sameMem
    | with_reducible apply State.idleWindows_sameMem

theorem State.stopChain_sameMem {s0 s : State} (hs : SameMem s0 s) (m : Nat) : SameMem s0 (s.stopChain m) := by
  unfold State.stopChain
  try dsimp only
  repeat' first
    | with_reducible assumption
    | with_reducible apply ite_pred
    | with_reducible apply State.setWave_sameMem

theorem State.preempt_sameMem {s0 s : State} (hs : SameMem s0 s) (g : Nat) (tg : Int) : SameMem s0 (s.preempt g tg) := by
  unfold State.preempt
  dsimp only
  repeat' first
    | with_reducible assumption
    | with_reducible apply ite_pred
    | with_reducible refine foldl_pred (fun _ _ _ => ?_) ?_
    | with_reducible apply State.count_sameMem
    | with_reducible apply State.raise_sameMem
    | with_reducible apply State.setWave_sameMem
    | split

theorem State.pushWindow_sameMem {s0 s : State} (hs : SameMem s0 s) (n : Nat) (o requested : Int) (restart : Bool) :
    SameMem s0 (s.pushWindow n o requested restart) := by
  unfold State.pushWindow
  dsimp only
  repeat' first | with_reducible assumption | with_reducible apply State.setWave_sameMem

theorem State.guardClosed_sameMem {s0 s : State} (hs : SameMem s0 s) (g : Nat) (tc : Int) :
    SameMem s0 (s.guardClosed g tc) := by
  unfold State.guardClosed
  dsimp only
  repeat' first
    | with_reducible assumption
    | with_reducible apply ite_pred
    | with_reducible refine foldl_pred (fun _ _ _ => ?_) ?_
    | with_reducible apply State.setWave_sameMem
    | with_reducible apply State.reuser_sameMem
    | with_reducible apply State.pushWindow_sameMem
    | split

theorem State.missWindow_sameMem {s0 s : State} (hs : SameMem s0 s) (n : Nat) : SameMem s0 (s.missWindow n) := by
  unfold State.missWindow
  repeat' first
    | with_reducible assumption
    | with_reducible apply State.count_sameMem
    | with_reducible apply State.raise_sameMem

theorem State.openWindow_sameMem {s0 s : State} (hs : SameMem s0 s) (n : Nat) (o : Int) :
    SameMem s0 (s.openWindow n o) := by
  unfold State.openWindow
  try dsimp only
  repeat' first
    | with_reducible assumption
    | with_reducible apply ite_pred
    | with_reducible apply State.missWindow_sameMem
    | with_reducible apply State.preempt_sameMem
    | with_reducible apply State.pushWindow_sameMem
    | with_reducible apply State.reuser_sameMem
    | with_reducible apply State.followWindows_sameMem
    | with_reducible apply State.setWave_sameMem
    | with_reducible apply State.count_sameMem
    | with_reducible apply State.raise_sameMem

theorem State.windowDue_sameMem {s0 s : State} (hs : SameMem s0 s) (n : Nat) : SameMem s0 (s.windowDue n) := by
  unfold State.windowDue
  dsimp only
  repeat' first
    | with_reducible assumption
    | with_reducible apply ite_pred
    | with_reducible apply State.setWave_sameMem
    | with_reducible apply State.openWindow_sameMem
    | split

theorem State.shutWindow_sameMem {s0 s : State} (hs : SameMem s0 s) (n : Nat) : SameMem s0 (s.shutWindow n) := by
  unfold State.shutWindow
  try dsimp only
  repeat' first
    | with_reducible assumption
    | with_reducible apply ite_pred
    | with_reducible apply State.followWindows_sameMem
    | with_reducible apply State.setWave_sameMem
    | with_reducible apply State.guardClosed_sameMem
    | with_reducible apply State.stopChain_sameMem
    | simp only [sameMem_mk]
    | split

theorem State.startIngest_sameMem {s0 s : State} (hs : SameMem s0 s) (n : Nat) : SameMem s0 (s.startIngest n) := by
  unfold State.startIngest
  try dsimp only
  repeat' first
    | with_reducible assumption
    | with_reducible apply ite_pred
    | with_reducible apply State.setWave_sameMem
    | with_reducible apply State.setSure_sameMem
    | with_reducible apply State.reuser_sameMem
    | with_reducible apply State.openWindow_sameMem
    | with_reducible apply State.missWindow_sameMem
    | simp only [sameMem_mk]
    | split

theorem State.applyWave_sameMem {s0 s : State} (hs : SameMem s0 s) (n inst : Nat) :
    SameMem s0 (s.applyWave n inst) := by
  unfold State.applyWave
  try dsimp only
  repeat' first
    | with_reducible assumption
    | with_reducible apply ite_pred
    | with_reducible apply State.applyAll_sameMem
    | with_reducible apply State.bump_sameMem
    | with_reducible apply State.setWave_sameMem
    | with_reducible apply State.switchSet_sameMem

theorem State.frameWaves_sameMem {s0 s : State} (hs : SameMem s0 s) (inst : Nat) :
    SameMem s0 (s.frameWaves inst) := by
  unfold State.frameWaves
  repeat' first
    | with_reducible assumption
    | with_reducible apply ite_pred
    | with_reducible refine foldl_pred (fun _ _ _ => ?_) ?_
    | with_reducible apply State.applyWave_sameMem
    | split

theorem State.earlyWave_sameMem {s0 s : State} (hs : SameMem s0 s) (n : Nat) : SameMem s0 (s.earlyWave n) := by
  unfold State.earlyWave
  repeat' first
    | with_reducible assumption
    | with_reducible apply ite_pred
    | with_reducible apply State.applyWave_sameMem
    | split

theorem State.alignSlots_sameMem {s0 s : State} (hs : SameMem s0 s) : SameMem s0 s.alignSlots := by
  unfold State.alignSlots
  repeat' first
    | with_reducible assumption
    | with_reducible apply ite_pred
    | with_reducible refine foldl_pred (fun _ _ _ => ?_) ?_
    | with_reducible apply State.setSlot_sameMem

theorem execIngestStart_sameMem {s0 s : State} (t n : Nat) (hs : SameMem s0 s) : SameMemO s0 (execIngestStart t n s) := by
  unfold execIngestStart
  repeat' first
    | with_reducible assumption
    | with_reducible apply ite_pred
    | with_reducible apply State.at_sameMem
    | with_reducible apply State.startIngest_sameMem
    | with_reducible apply sameMemO_next
    | with_reducible exact sameMemO_fault

theorem execWaveformSettleEnd_sameMem {s0 s : State} (t n : Nat) (hs : SameMem s0 s) :
    SameMemO s0 (execWaveformSettleEnd t n s) := by
  unfold execWaveformSettleEnd
  repeat' first
    | with_reducible assumption
    | with_reducible apply ite_pred
    | with_reducible apply State.at_sameMem
    | with_reducible apply State.followWindows_sameMem
    | with_reducible apply sameMemO_next
    | with_reducible exact sameMemO_fault

theorem execConvEnd_sameMem {s0 s : State} (t n : Nat) (hs : SameMem s0 s) : SameMemO s0 (execConvEnd t n s) := by
  unfold execConvEnd
  dsimp only
  repeat' first
    | with_reducible assumption
    | with_reducible apply ite_pred
    | with_reducible apply State.at_sameMem
    | with_reducible apply State.setWave_sameMem
    | with_reducible apply sameMemO_next
    | with_reducible exact sameMemO_fault

theorem execWindowOpen_sameMem {s0 s : State} (t n : Nat) (hs : SameMem s0 s) : SameMemO s0 (execWindowOpen t n s) := by
  unfold execWindowOpen
  repeat' first
    | with_reducible assumption
    | with_reducible apply ite_pred
    | with_reducible apply State.at_sameMem
    | with_reducible apply State.windowDue_sameMem
    | with_reducible apply sameMemO_next
    | with_reducible exact sameMemO_fault

theorem execWindowClose_sameMem {s0 s : State} (t n : Nat) (hs : SameMem s0 s) : SameMemO s0 (execWindowClose t n s) := by
  unfold execWindowClose
  repeat' first
    | with_reducible assumption
    | with_reducible apply ite_pred
    | with_reducible apply State.at_sameMem
    | with_reducible apply State.shutWindow_sameMem
    | with_reducible apply sameMemO_next
    | with_reducible exact sameMemO_fault

/-! ## SluiceCfg -/

theorem State.sluEvent_sameMem {s0 s : State} (hs : SameMem s0 s) (f : Fld) (c : Nat) : SameMem s0 (s.sluEvent f c) := by
  unfold State.sluEvent
  repeat' first
    | with_reducible assumption
    | with_reducible apply State.count_sameMem
    | with_reducible apply State.raise_sameMem

/-! ## Verdict -/

theorem State.dropVerdict_sameMem {s0 s : State} (hs : SameMem s0 s) (w : Nat) : SameMem s0 (s.dropVerdict w) := by
  unfold State.dropVerdict
  repeat' first
    | with_reducible assumption
    | with_reducible apply State.count_sameMem
    | with_reducible apply State.raise_sameMem

theorem State.decideRule_sameMem {s0 s : State} (hs : SameMem s0 s) (v outcome detail : Nat) (time : Int) :
    SameMem s0 (s.decide_ v outcome detail time) := by
  unfold State.decide_
  try dsimp only
  repeat' first
    | with_reducible assumption
    | with_reducible apply ite_pred
    | with_reducible refine foldl_pred (fun _ _ _ => ?_) ?_
    | with_reducible apply State.setRule_sameMem
    | with_reducible apply State.put_sameMem
    | with_reducible apply State.setLink_sameMem
    | with_reducible apply State.dropVerdict_sameMem

theorem State.endPresence_sameMem {s0 s : State} (hs : SameMem s0 s) (v : Nat) : SameMem s0 (s.endPresence v) := by
  unfold State.endPresence
  try dsimp only
  repeat' first
    | with_reducible assumption
    | with_reducible apply ite_pred
    | with_reducible apply State.setRule_sameMem
    | with_reducible apply State.decideRule_sameMem
    | simp only [sameMem_mk]
    | split

theorem execPresenceWindowEnd_sameMem {s0 s : State} (t v : Nat) (hs : SameMem s0 s) :
    SameMemO s0 (execPresenceWindowEnd t v s) := by
  unfold execPresenceWindowEnd
  repeat' first
    | with_reducible assumption
    | with_reducible apply ite_pred
    | with_reducible apply State.at_sameMem
    | with_reducible apply State.endPresence_sameMem
    | with_reducible apply sameMemO_next
    | with_reducible exact sameMemO_fault

theorem execTargetEdgeExpiry_sameMem {s0 s : State} (t v : Nat) (hs : SameMem s0 s) :
    SameMemO s0 (execTargetEdgeExpiry t v s) := by
  unfold execTargetEdgeExpiry
  try dsimp only
  repeat' first
    | with_reducible assumption
    | with_reducible apply ite_pred
    | with_reducible apply State.at_sameMem
    | with_reducible apply State.setRule_sameMem
    | with_reducible apply sameMemO_next
    | with_reducible exact sameMemO_fault

/-! ## Capture -/

theorem State.noPan_sameMem {s0 s : State} (hs : SameMem s0 s) (n : Nat) : SameMem s0 (s.noPan n) := by
  unfold State.noPan
  repeat' first
    | with_reducible assumption
    | with_reducible apply ite_pred
    | with_reducible apply State.raise_sameMem

theorem State.trigger_sameMem {s0 s : State} (hs : SameMem s0 s) (n cause met : Nat) (t : Int) (forced : Bool) :
    SameMem s0 (s.trigger n cause met t forced) := by
  unfold State.trigger
  try dsimp only
  repeat' first
    | with_reducible assumption
    | with_reducible apply State.setAcq_sameMem
    | with_reducible apply State.put_sameMem

theorem State.readyDue_sameMem {s0 s : State} (hs : SameMem s0 s) (n : Nat) : SameMem s0 (s.readyDue n) := by
  unfold State.readyDue
  dsimp only
  repeat' first
    | with_reducible assumption
    | with_reducible apply ite_pred
    | with_reducible apply State.setAcq_sameMem

theorem State.autoDue_sameMem {s0 s : State} (hs : SameMem s0 s) (n : Nat) : SameMem s0 (s.autoDue n) := by
  unfold State.autoDue
  try dsimp only
  repeat' first
    | with_reducible assumption
    | with_reducible apply ite_pred
    | with_reducible apply State.trigger_sameMem

theorem execReady_sameMem {s0 s : State} (t n : Nat) (hs : SameMem s0 s) : SameMemO s0 (execReady t n s) := by
  unfold execReady
  repeat' first
    | with_reducible assumption
    | with_reducible apply ite_pred
    | with_reducible apply State.at_sameMem
    | with_reducible apply State.readyDue_sameMem
    | with_reducible apply sameMemO_next
    | with_reducible exact sameMemO_fault

theorem execAutoTimeout_sameMem {s0 s : State} (t n : Nat) (hs : SameMem s0 s) : SameMemO s0 (execAutoTimeout t n s) := by
  unfold execAutoTimeout
  repeat' first
    | with_reducible assumption
    | with_reducible apply ite_pred
    | with_reducible apply State.at_sameMem
    | with_reducible apply State.autoDue_sameMem
    | with_reducible apply sameMemO_next
    | with_reducible exact sameMemO_fault

/-! ## Ledger -/

theorem State.ledger_sameMem {s0 s : State} (hs : SameMem s0 s) (kind cause detail : Nat) :
    SameMem s0 (s.ledger kind cause detail) := by
  unfold State.ledger
  dsimp only
  repeat' first | with_reducible assumption | simp only [sameMem_mk]

theorem State.unitDone_sameMem {s0 s : State} (hs : SameMem s0 s) : SameMem s0 s.unitDone := by
  unfold State.unitDone
  repeat' first
    | with_reducible assumption
    | with_reducible apply State.raise_sameMem
    | with_reducible apply State.ledger_sameMem

theorem State.ageing_sameMem {s0 s : State} (hs : SameMem s0 s) (detail : Nat) : SameMem s0 (s.ageing detail) := by
  unfold State.ageing
  repeat' first
    | with_reducible assumption
    | with_reducible apply State.raise_sameMem
    | with_reducible apply State.ledger_sameMem

/-! ## Spares -/

theorem State.startEnd_sameMem {s0 s : State} (hs : SameMem s0 s) (b : Nat) : SameMem s0 (s.startEnd b) := by
  unfold State.startEnd
  repeat' first | with_reducible assumption | with_reducible apply State.setBe_sameMem

theorem State.stopEnd_sameMem {s0 s : State} (hs : SameMem s0 s) (b : Nat) : SameMem s0 (s.stopEnd b) := by
  unfold State.stopEnd
  dsimp only
  repeat' first | with_reducible assumption | with_reducible apply State.setBe_sameMem

theorem State.retire_sameMem {s0 s : State} (hs : SameMem s0 s) (n : Nat) (now : Bool) : SameMem s0 (s.retire n now) := by
  unfold State.retire
  dsimp only
  repeat' first
    | with_reducible assumption
    | with_reducible apply State.setChan_sameMem
    | with_reducible apply State.startEnd_sameMem

theorem State.changeOver_sameMem {s0 s : State} (hs : SameMem s0 s) (n b reason : Nat) (t : Int) (markers : List
    Item) :
    SameMem s0 (s.changeOver n b reason t markers) := by
  unfold State.changeOver
  try dsimp only
  repeat' first
    | with_reducible assumption
    | with_reducible apply ite_pred
    | with_reducible refine foldl_pred (fun _ _ _ => ?_) ?_
    | with_reducible apply State.pushDue_sameMem
    | with_reducible apply State.writeDue_sameMem
    | with_reducible apply State.beginCause_sameMem
    | with_reducible apply State.setSrc_sameMem

theorem State.switchAt_sameMem {s0 s : State} (hs : SameMem s0 s) (n count : Nat) (t : Int) :
    SameMem s0 (s.switchAt n count t) := by
  unfold State.switchAt
  try dsimp only
  repeat' first
    | with_reducible assumption
    | with_reducible apply ite_pred
    | with_reducible apply State.readCounter_sameMem
    | with_reducible apply State.changeOver_sameMem
    | with_reducible apply State.setChan_sameMem
    | with_reducible apply State.stopEnd_sameMem
    | with_reducible apply State.raise_sameMem
    | with_reducible apply State.unitDone_sameMem
    | simp only [sameMem_mk]
    | split

theorem State.rejoinAt_sameMem {s0 s : State} (hs : SameMem s0 s) (n : Nat) (t : Int) :
    SameMem s0 (s.rejoinAt n t) := by
  unfold State.rejoinAt
  try dsimp only
  repeat' first
    | with_reducible assumption
    | with_reducible apply State.changeOver_sameMem
    | with_reducible apply State.setChan_sameMem
    | with_reducible apply State.stopEnd_sameMem
    | with_reducible apply State.raise_sameMem
    | with_reducible apply State.unitDone_sameMem
    | simp only [sameMem_mk]

theorem State.switchOver_sameMem {s0 s : State} (hs : SameMem s0 s) (n count : Nat) :
    SameMem s0 (s.switchOver n count) := by
  unfold State.switchOver
  try dsimp only
  repeat' first
    | with_reducible assumption
    | with_reducible apply ite_pred
    | with_reducible apply State.switchAt_sameMem
    | split

theorem State.rejoin_sameMem {s0 s : State} (hs : SameMem s0 s) (n : Nat) : SameMem s0 (s.rejoin n) := by
  unfold State.rejoin
  try dsimp only
  repeat' first
    | with_reducible assumption
    | with_reducible apply ite_pred
    | with_reducible apply State.rejoinAt_sameMem
    | split

theorem State.changeBefore_sameMem {s0 s : State} (hs : SameMem s0 s) (n : Nat) (t : Int) :
    SameMem s0 (s.changeBefore n t) := by
  unfold State.changeBefore
  try dsimp only
  repeat' first
    | with_reducible assumption
    | with_reducible apply ite_pred
    | with_reducible apply State.switchAt_sameMem
    | with_reducible apply State.rejoinAt_sameMem
    | split

/-! ## FrontEnd -/

theorem State.compEdge_sameMem {s0 s : State} (hs : SameMem s0 s) (n : Nat) (pol : Bool) (bin : Nat) :
    SameMem s0 (s.compEdge n pol bin) := by
  unfold State.compEdge
  try dsimp only
  repeat' first
    | with_reducible assumption
    | with_reducible apply ite_pred
    | with_reducible apply State.setChan_sameMem
    | with_reducible apply State.changeBefore_sameMem
    | with_reducible apply State.takeBy_sameMem
    | with_reducible apply State.formEdge_sameMem
    | with_reducible apply State.outsideEdge_sameMem

theorem State.compareNew_sameMem {s0 s : State} (hs : SameMem s0 s) (n : Nat) (v : Input) (bin : Nat) :
    SameMem s0 (s.compareNew n v bin) := by
  unfold State.compareNew
  try dsimp only
  repeat' first
    | with_reducible assumption
    | with_reducible apply ite_pred
    | with_reducible apply State.compEdge_sameMem
    | with_reducible apply State.setChan_sameMem

theorem State.applyFe_sameMem {s0 s : State} (hs : SameMem s0 s) (n at_ : Nat) (input : Option (Input × Nat)) :
    SameMem s0 (s.applyFe n at_ input) := by
  unfold State.applyFe
  try dsimp only
  repeat' first
    | with_reducible assumption
    | with_reducible apply ite_pred
    | with_reducible apply State.applyAll_sameMem
    | with_reducible apply State.bump_sameMem
    | with_reducible apply State.setChan_sameMem
    | with_reducible apply State.pushDue_sameMem
    | with_reducible apply State.compareNew_sameMem
    | simp only [sameMem_mk]
    | split

theorem State.frameFronts_sameMem {s0 s : State} (hs : SameMem s0 s) (inst : Nat) (inputs : List (Nat × Input ×
    Nat)) :
    SameMem s0 (s.frameFronts inst inputs) := by
  unfold State.frameFronts
  repeat' first
    | with_reducible assumption
    | with_reducible apply ite_pred
    | with_reducible refine foldl_pred (fun _ _ _ => ?_) ?_
    | with_reducible apply State.applyFe_sameMem
    | split

theorem State.frameLatches_sameMem {s0 s : State} (hs : SameMem s0 s) : SameMem s0 s.frameLatches := by
  unfold State.frameLatches
  dsimp only
  repeat' first
    | with_reducible assumption
    | with_reducible apply ite_pred
    | with_reducible refine foldl_pred (fun _ _ _ => ?_) ?_
    | with_reducible apply State.setChan_sameMem
    | with_reducible apply State.settleTrips_sameMem

theorem State.startWin_sameMem {s0 s : State} (hs : SameMem s0 s) (n : Nat) : SameMem s0 (s.startWin n) := by
  unfold State.startWin
  try dsimp only
  repeat' first
    | with_reducible assumption
    | with_reducible apply State.setChan_sameMem
    | with_reducible apply State.settleTrips_sameMem

theorem State.startChan_sameMem {s0 s : State} (hs : SameMem s0 s) (n : Nat) (v : Input) (bin : Nat) :
    SameMem s0 (s.startChan n v bin) := by
  unfold State.startChan
  try dsimp only
  repeat' first
    | with_reducible assumption
    | with_reducible apply ite_pred
    | with_reducible apply State.flush_sameMem
    | with_reducible apply State.setChan_sameMem
    | with_reducible apply State.startTaking_sameMem
    | with_reducible apply State.pushDue_sameMem
    | with_reducible apply State.beginCause_sameMem
    | with_reducible apply State.takeBy_sameMem
    | with_reducible apply State.formEdge_sameMem
    | simp only [sameMem_mk]
    | split

theorem execChannelStart_sameMem {s0 s : State} (t n : Nat) (input : Input) (bin : Nat) (hs : SameMem s0 s) :
    SameMemO s0 (execChannelStart t n input bin s) := by
  unfold execChannelStart
  repeat' first
    | with_reducible assumption
    | with_reducible apply ite_pred
    | with_reducible apply State.at_sameMem
    | with_reducible apply State.startChan_sameMem
    | with_reducible apply sameMemO_next
    | with_reducible exact sameMemO_fault

theorem execEdge_sameMem {s0 s : State} (t n : Nat) (pol : Bool) (bin : Nat) (hs : SameMem s0 s) :
    SameMemO s0 (execEdge t n pol bin s) := by
  unfold execEdge
  try dsimp only
  repeat' first
    | with_reducible assumption
    | with_reducible apply ite_pred
    | with_reducible apply State.at_sameMem
    | with_reducible apply State.flush_sameMem
    | with_reducible apply State.compEdge_sameMem
    | with_reducible apply State.setChan_sameMem
    | with_reducible apply sameMemO_next
    | with_reducible exact sameMemO_fault

theorem State.pulseIn_sameMem {s0 s : State} (hs : SameMem s0 s) (n width bin endBin : Nat) :
    SameMem s0 (s.pulseIn n width bin endBin) := by
  unfold State.pulseIn
  dsimp only
  repeat' first
    | with_reducible assumption
    | with_reducible apply ite_pred
    | with_reducible apply State.count_sameMem
    | with_reducible apply State.compEdge_sameMem
    | with_reducible apply State.free_sameMem
    | simp only [sameMem_mk]
    | with_reducible apply SameMemP.proj

theorem execRuntPulse_sameMem {s0 s : State} (t n width bin endBin : Nat) (hs : SameMem s0 s) :
    SameMemO s0 (execRuntPulse t n width bin endBin s) := by
  unfold execRuntPulse
  try dsimp only
  repeat' first
    | with_reducible assumption
    | with_reducible apply ite_pred
    | with_reducible apply State.at_sameMem
    | with_reducible apply State.flush_sameMem
    | with_reducible apply State.pulseIn_sameMem
    | with_reducible apply sameMemO_next
    | with_reducible exact sameMemO_fault

theorem execCommitApplyEarly_sameMem {s0 s : State} (t n : Nat) (input : Input) (bin : Nat) (hs : SameMem s0 s) :
    SameMemO s0 (execCommitApplyEarly t n input bin s) := by
  unfold execCommitApplyEarly
  try dsimp only
  repeat' first
    | with_reducible assumption
    | with_reducible apply ite_pred
    | with_reducible apply State.at_sameMem
    | with_reducible apply State.applyFe_sameMem
    | with_reducible apply State.earlyWave_sameMem
    | with_reducible apply sameMemO_next
    | with_reducible exact sameMemO_fault
    | split

theorem execSettleEnd_sameMem {s0 s : State} (t n : Nat) (hs : SameMem s0 s) : SameMemO s0 (execSettleEnd t n s) := by
  unfold execSettleEnd
  repeat' first
    | with_reducible assumption
    | with_reducible apply ite_pred
    | with_reducible apply State.at_sameMem
    | with_reducible apply State.flush_sameMem
    | with_reducible apply sameMemO_next
    | with_reducible exact sameMemO_fault

theorem State.detects_sameMem {s0 s : State} (hs : SameMem s0 s) (peak : Nat) : SameMemP s0 (s.detects peak) := by
  unfold State.detects
  try dsimp only
  repeat' first
    | with_reducible assumption
    | with_reducible apply ite_pred
    | with_reducible apply State.free_sameMem
    | with_reducible refine SameMemP.snd (by assumption) ?_
    | with_reducible apply SameMemP.proj
    | simp only [sameMemP_mk]

theorem State.overdrive_sameMem {s0 s : State} (hs : SameMem s0 s) (n cls : Nat) :
    SameMem s0 (s.overdrive n cls) := by
  unfold State.overdrive
  try dsimp only
  repeat' first
    | with_reducible assumption
    | with_reducible apply ite_pred
    | with_reducible apply State.count_sameMem
    | with_reducible apply State.setChan_sameMem

theorem execOverdriveStart_sameMem {s0 s : State} (t n : Nat) (peak : Input) (hs : SameMem s0 s) :
    SameMemO s0 (execOverdriveStart t n peak s) := by
  unfold execOverdriveStart
  try dsimp only
  repeat' first
    | with_reducible assumption
    | with_reducible apply ite_pred
    | with_reducible apply State.at_sameMem
    | with_reducible apply State.detects_sameMem
    | with_reducible apply State.overdrive_sameMem
    | with_reducible refine SameMemP.snd (by assumption) ?_
    | with_reducible apply SameMemP.proj
    | with_reducible apply sameMemO_next
    | with_reducible exact sameMemO_fault

theorem execOverdriveEnd_sameMem {s0 s : State} (t n : Nat) (hs : SameMem s0 s) : SameMemO s0 (execOverdriveEnd t n s) := by
  unfold execOverdriveEnd
  dsimp only
  repeat' first
    | with_reducible assumption
    | with_reducible apply ite_pred
    | with_reducible apply State.at_sameMem
    | with_reducible apply State.setChan_sameMem
    | with_reducible apply sameMemO_next
    | with_reducible exact sameMemO_fault

theorem execWindowHoldEnd_sameMem {s0 s : State} (t n : Nat) (hs : SameMem s0 s) :
    SameMemO s0 (execWindowHoldEnd t n s) := by
  unfold execWindowHoldEnd
  try dsimp only
  repeat' first
    | with_reducible assumption
    | with_reducible apply ite_pred
    | with_reducible apply State.at_sameMem
    | with_reducible apply State.setChan_sameMem
    | with_reducible apply sameMemO_next
    | with_reducible exact sameMemO_fault
    | simp only [sameMem_mk]
    | split

/-! ## BackEnd -/

theorem State.overflowEnds_sameMem {s0 s : State} (hs : SameMem s0 s) (k : Nat) : SameMem s0 (s.overflowEnds k) := by
  unfold State.overflowEnds
  repeat' first
    | with_reducible assumption
    | with_reducible apply ite_pred
    | with_reducible apply State.endCause_sameMem

theorem State.calHit_sameMem {s0 s : State} (hs : SameMem s0 s) (b bin : Nat) : SameMem s0 (s.calHit b bin) := by
  unfold State.calHit
  dsimp only
  repeat' first
    | with_reducible assumption
    | with_reducible apply ite_pred
    | with_reducible apply State.setBe_sameMem

theorem State.buildTables_sameMem {s0 s : State} (hs : SameMem s0 s) (b : Nat) : SameMem s0 (s.buildTables b) := by
  unfold State.buildTables
  try dsimp only
  repeat' first
    | with_reducible assumption
    | with_reducible apply ite_pred
    | with_reducible apply State.setBe_sameMem
    | with_reducible apply State.setChan_sameMem
    | with_reducible apply State.ageing_sameMem
    | with_reducible apply State.raise_sameMem
    | simp only [sameMem_mk]
    | split

theorem State.endBypass_sameMem {s0 s : State} (hs : SameMem s0 s) (n : Nat) : SameMem s0 (s.endBypass n) := by
  unfold State.endBypass
  repeat' first | with_reducible assumption | with_reducible apply State.setBe_sameMem

theorem State.warmupOver_sameMem {s0 s : State} (hs : SameMem s0 s) (n : Nat) : SameMem s0 (s.warmupOver n) := by
  unfold State.warmupOver
  dsimp only
  repeat' first
    | with_reducible assumption
    | with_reducible apply ite_pred
    | with_reducible apply State.raise_sameMem
    | with_reducible apply State.setChan_sameMem

theorem State.beFault_sameMem {s0 s : State} (hs : SameMem s0 s) (b : Nat) : SameMem s0 (s.beFault b) := by
  unfold State.beFault
  try dsimp only
  repeat' first
    | with_reducible assumption
    | with_reducible apply ite_pred
    | with_reducible apply State.setBe_sameMem
    | with_reducible apply State.raise_sameMem
    | with_reducible apply State.beginCause_sameMem
    | with_reducible apply State.retire_sameMem
    | simp only [sameMem_mk]
    | split

theorem execOverflowEnd_sameMem {s0 s : State} (t src : Nat) (hs : SameMem s0 s) :
    SameMemO s0 (execOverflowEnd t src s) := by
  unfold execOverflowEnd
  repeat' first
    | with_reducible assumption
    | with_reducible apply ite_pred
    | with_reducible apply State.at_sameMem
    | with_reducible apply State.overflowEnds_sameMem
    | with_reducible apply sameMemO_next
    | with_reducible exact sameMemO_fault

theorem execPeriodicAnchor_sameMem {s0 s : State} (t src : Nat) (hs : SameMem s0 s) :
    SameMemO s0 (execPeriodicAnchor t src s) := by
  unfold execPeriodicAnchor
  repeat' first
    | with_reducible assumption
    | with_reducible apply ite_pred
    | with_reducible apply State.at_sameMem
    | with_reducible apply State.flush_sameMem
    | with_reducible apply sameMemO_next
    | with_reducible exact sameMemO_fault

theorem execGapAnchor_sameMem {s0 s : State} (t src : Nat) (hs : SameMem s0 s) :
    SameMemO s0 (execGapAnchor t src s) := by
  unfold execGapAnchor
  repeat' first
    | with_reducible assumption
    | with_reducible apply ite_pred
    | with_reducible apply State.at_sameMem
    | with_reducible apply State.flush_sameMem
    | with_reducible apply sameMemO_next
    | with_reducible exact sameMemO_fault

theorem execCalibrationHit_sameMem {s0 s : State} (t be bin : Nat) (hs : SameMem s0 s) :
    SameMemO s0 (execCalibrationHit t be bin s) := by
  unfold execCalibrationHit
  repeat' first
    | with_reducible assumption
    | with_reducible apply ite_pred
    | with_reducible apply State.at_sameMem
    | with_reducible apply State.calHit_sameMem
    | with_reducible apply sameMemO_next
    | with_reducible exact sameMemO_fault

theorem execCalTableBuild_sameMem {s0 s : State} (t be : Nat) (hs : SameMem s0 s) :
    SameMemO s0 (execCalTableBuild t be s) := by
  unfold execCalTableBuild
  repeat' first
    | with_reducible assumption
    | with_reducible apply ite_pred
    | with_reducible apply State.at_sameMem
    | with_reducible apply State.buildTables_sameMem
    | with_reducible apply sameMemO_next
    | with_reducible exact sameMemO_fault

theorem execSwitch_sameMem {s0 s : State} (t n count : Nat) (hs : SameMem s0 s) : SameMemO s0 (execSwitch t n count s) := by
  unfold execSwitch
  repeat' first
    | with_reducible assumption
    | with_reducible apply ite_pred
    | with_reducible apply State.at_sameMem
    | with_reducible apply State.switchOver_sameMem
    | with_reducible apply sameMemO_next
    | with_reducible exact sameMemO_fault

theorem execSpareWarmupTimeout_sameMem {s0 s : State} (t n : Nat) (hs : SameMem s0 s) :
    SameMemO s0 (execSpareWarmupTimeout t n s) := by
  unfold execSpareWarmupTimeout
  repeat' first
    | with_reducible assumption
    | with_reducible apply ite_pred
    | with_reducible apply State.at_sameMem
    | with_reducible apply State.warmupOver_sameMem
    | with_reducible apply sameMemO_next
    | with_reducible exact sameMemO_fault

theorem execRejoin_sameMem {s0 s : State} (t n : Nat) (hs : SameMem s0 s) : SameMemO s0 (execRejoin t n s) := by
  unfold execRejoin
  repeat' first
    | with_reducible assumption
    | with_reducible apply ite_pred
    | with_reducible apply State.at_sameMem
    | with_reducible apply State.rejoin_sameMem
    | with_reducible apply sameMemO_next
    | with_reducible exact sameMemO_fault

theorem execBackendFault_sameMem {s0 s : State} (t be : Nat) (hs : SameMem s0 s) :
    SameMemO s0 (execBackendFault t be s) := by
  unfold execBackendFault
  repeat' first
    | with_reducible assumption
    | with_reducible apply ite_pred
    | with_reducible apply State.at_sameMem
    | with_reducible apply State.beFault_sameMem
    | with_reducible apply sameMemO_next
    | with_reducible exact sameMemO_fault

theorem execInterpolatorNoHits_sameMem {s0 s : State} (t be : Nat) (hs : SameMem s0 s) :
    SameMemO s0 (execInterpolatorNoHits t be s) := by
  unfold execInterpolatorNoHits
  try dsimp only
  repeat' first
    | with_reducible assumption
    | with_reducible apply ite_pred
    | with_reducible apply State.at_sameMem
    | with_reducible apply State.beFault_sameMem
    | with_reducible apply sameMemO_next
    | with_reducible exact sameMemO_fault

/-! ## Lifecycle -/

theorem State.endBypasses_sameMem {s0 s : State} (hs : SameMem s0 s) : SameMem s0 s.endBypasses := by
  unfold State.endBypasses
  repeat' first
    | with_reducible assumption
    | with_reducible apply ite_pred
    | with_reducible refine foldl_pred (fun _ _ _ => ?_) ?_
    | with_reducible apply State.endBypass_sameMem

theorem State.setDev_sameMem {s0 s : State} (hs : SameMem s0 s) (d : DevState) : SameMem s0 (s.setDev d) := by
  unfold State.setDev
  try dsimp only
  repeat' first
    | with_reducible assumption
    | with_reducible apply ite_pred
    | with_reducible apply State.endBypasses_sameMem
    | with_reducible apply State.raise_sameMem
    | simp only [sameMem_mk]

theorem State.mark_sameMem {s0 s : State} (hs : SameMem s0 s) (n : Nat) : SameMem s0 (s.mark n) := by
  unfold State.mark
  repeat' first
    | with_reducible assumption
    | with_reducible apply ite_pred
    | with_reducible apply State.put_sameMem

theorem State.noteBoot_sameMem {s0 s : State} (hs : SameMem s0 s) : SameMem s0 s.noteBoot := by
  unfold State.noteBoot
  dsimp only
  repeat' first
    | with_reducible assumption
    | with_reducible apply ite_pred
    | with_reducible apply State.mark_sameMem
    | simp only [sameMem_mk]

theorem State.endRestore_sameMem {s0 s : State} (hs : SameMem s0 s) (k : Nat) : SameMem s0 (s.endRestore k) := by
  unfold State.endRestore
  dsimp only
  repeat' first
    | with_reducible assumption
    | with_reducible apply ite_pred
    | with_reducible apply State.setRest_sameMem
    | with_reducible apply State.setDev_sameMem

theorem State.restoreHeld_sameMem {s0 s : State} (hs : SameMem s0 s) (k : Nat) : SameMem s0 (s.restoreHeld k) := by
  unfold State.restoreHeld
  dsimp only
  repeat' first
    | with_reducible assumption
    | with_reducible apply ite_pred
    | with_reducible apply State.setRest_sameMem
    | split

/-! ## Lanes -/

theorem State.enqueue_sameMem {s0 s : State} (hs : SameMem s0 s) (l : Nat) (keep : Bool) :
    SameMem s0 (s.enqueue l keep) := by
  unfold State.enqueue
  dsimp only
  repeat' first
    | with_reducible assumption
    | with_reducible apply ite_pred
    | with_reducible apply State.setLane_sameMem
    | with_reducible apply State.setQuad_sameMem

theorem State.wakeLanes_sameMem {s0 s : State} (hs : SameMem s0 s) : SameMem s0 s.wakeLanes := by
  unfold State.wakeLanes
  try dsimp only
  repeat' first
    | with_reducible assumption
    | with_reducible apply ite_pred
    | with_reducible refine foldl_pred (fun _ _ _ => ?_) ?_
    | with_reducible apply State.setLane_sameMem
    | with_reducible apply State.enqueue_sameMem
    | simp only [sameMem_mk]

theorem State.loseBlocks_sameMem {s0 s : State} (hs : SameMem s0 s) (l : Nat) : SameMem s0 (s.loseBlocks l) := by
  unfold State.loseBlocks
  dsimp only
  repeat' first
    | with_reducible assumption
    | with_reducible apply ite_pred
    | with_reducible apply State.raise_sameMem
    | with_reducible apply State.setLane_sameMem

theorem State.stopLane_sameMem {s0 s : State} (hs : SameMem s0 s) (l : Nat) (lock : Bool) :
    SameMem s0 (s.stopLane l lock) := by
  unfold State.stopLane
  dsimp only
  repeat' first
    | with_reducible assumption
    | with_reducible apply ite_pred
    | with_reducible apply State.setLane_sameMem
    | with_reducible apply State.loseBlocks_sameMem

theorem State.toSeek_sameMem {s0 s : State} (hs : SameMem s0 s) (l : Nat) : SameMem s0 (s.toSeek l) := by
  unfold State.toSeek
  dsimp only
  repeat' first
    | with_reducible assumption
    | with_reducible apply State.setLane_sameMem
    | with_reducible apply State.noteBoot_sameMem
    | with_reducible apply State.stopLane_sameMem

theorem State.retireNow_sameMem {s0 s : State} (hs : SameMem s0 s) (l : Nat) : SameMem s0 (s.retireNow l) := by
  unfold State.retireNow
  dsimp only
  repeat' first
    | with_reducible assumption
    | with_reducible apply State.setLane_sameMem
    | with_reducible apply State.releaseCost_sameMem
    | with_reducible apply State.unitDone_sameMem
    | with_reducible apply State.noteBoot_sameMem
    | with_reducible apply State.stopLane_sameMem
    | simp only [sameMem_mk]

theorem State.unuse_sameMem {s0 s : State} (hs : SameMem s0 s) (l : Nat) : SameMem s0 (s.unuse l) := by
  unfold State.unuse
  try dsimp only
  repeat' first
    | with_reducible assumption
    | with_reducible apply State.stopLane_sameMem
    | with_reducible apply State.setLane_sameMem
    | with_reducible apply State.noteBoot_sameMem

theorem State.trainedLane_sameMem {s0 s : State} (hs : SameMem s0 s) (l : Nat) : SameMem s0 (s.trainedLane l) := by
  unfold State.trainedLane
  dsimp only
  repeat' first
    | with_reducible assumption
    | with_reducible apply ite_pred
    | with_reducible apply State.count_sameMem
    | with_reducible apply State.setSlot_sameMem
    | with_reducible apply State.setLane_sameMem
    | with_reducible apply State.unitDone_sameMem
    | with_reducible apply State.noteBoot_sameMem
    | with_reducible apply State.retireNow_sameMem
    | simp only [sameMem_mk]

theorem State.startRetrain_sameMem {s0 s : State} (hs : SameMem s0 s) (l : Nat) : SameMem s0 (s.startRetrain l) := by
  unfold State.startRetrain
  try dsimp only
  repeat' first
    | with_reducible assumption
    | with_reducible apply ite_pred
    | with_reducible apply State.stopLane_sameMem
    | with_reducible apply State.setSlot_sameMem
    | with_reducible apply State.setLane_sameMem
    | with_reducible apply State.enqueue_sameMem

theorem State.takePlace_sameMem {s0 s : State} (hs : SameMem s0 s) (l : Nat) : SameMem s0 (s.takePlace l) := by
  unfold State.takePlace
  try dsimp only
  repeat' first
    | with_reducible assumption
    | with_reducible apply ite_pred
    | with_reducible apply State.setLane_sameMem

theorem State.nextPhase_sameMem {s0 s : State} (hs : SameMem s0 s) (l state : Nat) : SameMem s0 (s.nextPhase l state) := by
  unfold State.nextPhase
  dsimp only
  repeat' first | with_reducible assumption | with_reducible apply State.setLane_sameMem

theorem State.signalDone_sameMem {s0 s : State} (hs : SameMem s0 s) (l : Nat) : SameMem s0 (s.signalDone l) := by
  unfold State.signalDone
  dsimp only
  repeat' first
    | with_reducible assumption
    | with_reducible apply ite_pred
    | with_reducible apply State.setLane_sameMem
    | with_reducible apply State.setQuad_sameMem
    | with_reducible apply State.nextPhase_sameMem

theorem State.lockDone_sameMem {s0 s : State} (hs : SameMem s0 s) (l : Nat) : SameMem s0 (s.lockDone l) := by
  unfold State.lockDone
  try dsimp only
  repeat' first
    | with_reducible assumption
    | with_reducible apply ite_pred
    | with_reducible apply State.free_sameMem
    | with_reducible apply State.count_sameMem
    | with_reducible apply State.setLane_sameMem
    | with_reducible apply State.nextPhase_sameMem
    | with_reducible refine SameMemP.snd (by assumption) ?_
    | with_reducible apply SameMemP.proj

theorem State.sendTrain_sameMem {s0 s : State} (hs : SameMem s0 s) (l : Nat) : SameMem s0 (s.sendTrain l) := by
  unfold State.sendTrain
  try dsimp only
  repeat' first | with_reducible assumption | with_reducible apply State.sendBlock_sameMem

theorem State.adaptDone_sameMem {s0 s : State} (hs : SameMem s0 s) (l ctle : Nat) (dfe : List Int) :
    SameMem s0 (s.adaptDone l ctle dfe) := by
  unfold State.adaptDone
  try dsimp only
  repeat' first
    | with_reducible assumption
    | with_reducible apply ite_pred
    | with_reducible apply State.setLane_sameMem
    | with_reducible apply State.trainedLane_sameMem
    | with_reducible apply State.nextPhase_sameMem
    | with_reducible apply State.sendTrain_sameMem

theorem State.ffeDone_sameMem {s0 s : State} (hs : SameMem s0 s) (l : Nat) : SameMem s0 (s.ffeDone l) := by
  unfold State.ffeDone
  repeat' first
    | with_reducible assumption
    | with_reducible apply ite_pred
    | with_reducible apply State.trainedLane_sameMem

theorem State.timeoutLane_sameMem {s0 s : State} (hs : SameMem s0 s) (l : Nat) : SameMem s0 (s.timeoutLane l) := by
  unfold State.timeoutLane
  dsimp only
  repeat' first
    | with_reducible assumption
    | with_reducible apply ite_pred
    | with_reducible apply State.raise_sameMem
    | with_reducible apply State.toSeek_sameMem

theorem State.retrySeek_sameMem {s0 s : State} (hs : SameMem s0 s) (l : Nat) (signal : Bool) :
    SameMem s0 (s.retrySeek l signal) := by
  unfold State.retrySeek
  try dsimp only
  repeat' first
    | with_reducible assumption
    | with_reducible apply ite_pred
    | with_reducible apply State.setLane_sameMem
    | with_reducible apply State.enqueue_sameMem

theorem State.exitDone_sameMem {s0 s : State} (hs : SameMem s0 s) (q : Nat) : SameMem s0 (s.exitDone q) := by
  unfold State.exitDone
  dsimp only
  repeat' first
    | with_reducible assumption
    | with_reducible apply ite_pred
    | with_reducible refine foldl_pred (fun _ _ _ => ?_) ?_
    | with_reducible apply State.setLane_sameMem
    | with_reducible apply State.setQuad_sameMem
    | with_reducible apply State.wakeLanes_sameMem

theorem State.exitLate_sameMem {s0 s : State} (hs : SameMem s0 s) (l : Nat) : SameMem s0 (s.exitLate l) := by
  unfold State.exitLate
  dsimp only
  repeat' first
    | with_reducible assumption
    | with_reducible apply ite_pred
    | with_reducible apply State.setLane_sameMem
    | with_reducible apply State.setQuad_sameMem
    | with_reducible apply State.enqueue_sameMem
    | with_reducible apply State.wakeLanes_sameMem
    | with_reducible apply State.stopLane_sameMem

theorem State.measureEye_sameMem {s0 s : State} (hs : SameMem s0 s) (l vm hm : Nat) :
    SameMem s0 (s.measureEye l vm hm) := by
  unfold State.measureEye
  dsimp only
  repeat' first
    | with_reducible assumption
    | with_reducible apply ite_pred
    | with_reducible apply State.put_sameMem
    | with_reducible apply State.raise_sameMem
    | with_reducible apply State.setLane_sameMem
    | with_reducible apply State.startRetrain_sameMem

theorem State.adaptLane_sameMem {s0 s : State} (hs : SameMem s0 s) (l : Nat) (steps : List Int) :
    SameMem s0 (s.adaptLane l steps) := by
  unfold State.adaptLane
  dsimp only
  repeat' first
    | with_reducible assumption
    | with_reducible apply ite_pred
    | with_reducible refine foldl_pred (fun _ _ _ => ?_) ?_
    | with_reducible apply State.count_sameMem
    | with_reducible apply State.raise_sameMem
    | with_reducible apply State.setLane_sameMem

theorem execLaneStartTime_sameMem {s0 s : State} (t : Nat) (hs : SameMem s0 s) : SameMemO s0 (execLaneStartTime t s) := by
  unfold execLaneStartTime
  repeat' first
    | with_reducible assumption
    | with_reducible apply State.at_sameMem
    | with_reducible apply State.wakeLanes_sameMem
    | with_reducible apply sameMemO_next

theorem execAttempt_sameMem {s0 s : State} (t l : Nat) (hs : SameMem s0 s) : SameMemO s0 (execAttempt t l s) := by
  unfold execAttempt
  repeat' first
    | with_reducible assumption
    | with_reducible apply ite_pred
    | with_reducible apply State.at_sameMem
    | with_reducible apply State.takePlace_sameMem
    | with_reducible apply sameMemO_next
    | with_reducible exact sameMemO_fault

theorem execSignal_sameMem {s0 s : State} (t l : Nat) (hs : SameMem s0 s) : SameMemO s0 (execSignal t l s) := by
  unfold execSignal
  repeat' first
    | with_reducible assumption
    | with_reducible apply ite_pred
    | with_reducible apply State.at_sameMem
    | with_reducible apply State.signalDone_sameMem
    | with_reducible apply sameMemO_next
    | with_reducible exact sameMemO_fault

theorem execLock_sameMem {s0 s : State} (t l : Nat) (hs : SameMem s0 s) : SameMemO s0 (execLock t l s) := by
  unfold execLock
  repeat' first
    | with_reducible assumption
    | with_reducible apply ite_pred
    | with_reducible apply State.at_sameMem
    | with_reducible apply State.lockDone_sameMem
    | with_reducible apply sameMemO_next
    | with_reducible exact sameMemO_fault

theorem execAdapt_sameMem {s0 s : State} (t l ctle : Nat) (dfe : List Int) (hs : SameMem s0 s) :
    SameMemO s0 (execAdapt t l ctle dfe s) := by
  unfold execAdapt
  repeat' first
    | with_reducible assumption
    | with_reducible apply ite_pred
    | with_reducible apply State.at_sameMem
    | with_reducible apply State.adaptDone_sameMem
    | with_reducible apply sameMemO_next
    | with_reducible exact sameMemO_fault

theorem execFfe_sameMem {s0 s : State} (t l : Nat) (hs : SameMem s0 s) : SameMemO s0 (execFfe t l s) := by
  unfold execFfe
  repeat' first
    | with_reducible assumption
    | with_reducible apply ite_pred
    | with_reducible apply State.at_sameMem
    | with_reducible apply State.ffeDone_sameMem
    | with_reducible apply sameMemO_next
    | with_reducible exact sameMemO_fault

theorem execTrainingTimeout_sameMem {s0 s : State} (t l : Nat) (hs : SameMem s0 s) :
    SameMemO s0 (execTrainingTimeout t l s) := by
  unfold execTrainingTimeout
  repeat' first
    | with_reducible assumption
    | with_reducible apply ite_pred
    | with_reducible apply State.at_sameMem
    | with_reducible apply State.timeoutLane_sameMem
    | with_reducible apply sameMemO_next
    | with_reducible exact sameMemO_fault

theorem execSeekRetry_sameMem {s0 s : State} (t l : Nat) (signal : Bool) (hs : SameMem s0 s) :
    SameMemO s0 (execSeekRetry t l signal s) := by
  unfold execSeekRetry
  repeat' first
    | with_reducible assumption
    | with_reducible apply ite_pred
    | with_reducible apply State.at_sameMem
    | with_reducible apply State.retrySeek_sameMem
    | with_reducible apply sameMemO_next
    | with_reducible exact sameMemO_fault

theorem execEyeMeasurement_sameMem {s0 s : State} (t l vm hm : Nat) (hs : SameMem s0 s) :
    SameMemO s0 (execEyeMeasurement t l vm hm s) := by
  unfold execEyeMeasurement
  repeat' first
    | with_reducible assumption
    | with_reducible apply ite_pred
    | with_reducible apply State.at_sameMem
    | with_reducible apply State.measureEye_sameMem
    | with_reducible apply sameMemO_next
    | with_reducible exact sameMemO_fault

theorem execAdaptationUpdate_sameMem {s0 s : State} (t l : Nat) (steps : List Int) (hs : SameMem s0 s) :
    SameMemO s0 (execAdaptationUpdate t l steps s) := by
  unfold execAdaptationUpdate
  repeat' first
    | with_reducible assumption
    | with_reducible apply ite_pred
    | with_reducible apply State.at_sameMem
    | with_reducible apply State.adaptLane_sameMem
    | with_reducible apply sameMemO_next
    | with_reducible exact sameMemO_fault

theorem execAdaptationFreeze_sameMem {s0 s : State} (t l : Nat) (hs : SameMem s0 s) :
    SameMemO s0 (execAdaptationFreeze t l s) := by
  unfold execAdaptationFreeze
  dsimp only
  repeat' first
    | with_reducible assumption
    | with_reducible apply ite_pred
    | with_reducible apply State.at_sameMem
    | with_reducible apply State.setLane_sameMem
    | with_reducible apply sameMemO_next
    | with_reducible exact sameMemO_fault

theorem execP2ExitComplete_sameMem {s0 s : State} (t q : Nat) (hs : SameMem s0 s) :
    SameMemO s0 (execP2ExitComplete t q s) := by
  unfold execP2ExitComplete
  repeat' first
    | with_reducible assumption
    | with_reducible apply ite_pred
    | with_reducible apply State.at_sameMem
    | with_reducible apply State.exitDone_sameMem
    | with_reducible apply sameMemO_next
    | with_reducible exact sameMemO_fault

theorem execP2ExitTimeout_sameMem {s0 s : State} (t l : Nat) (hs : SameMem s0 s) :
    SameMemO s0 (execP2ExitTimeout t l s) := by
  unfold execP2ExitTimeout
  repeat' first
    | with_reducible assumption
    | with_reducible apply ite_pred
    | with_reducible apply State.at_sameMem
    | with_reducible apply State.exitLate_sameMem
    | with_reducible apply sameMemO_next
    | with_reducible exact sameMemO_fault

theorem execP1SignalReturn_sameMem {s0 s : State} (t l : Nat) (hs : SameMem s0 s) :
    SameMemO s0 (execP1SignalReturn t l s) := by
  unfold execP1SignalReturn
  try dsimp only
  repeat' first
    | with_reducible assumption
    | with_reducible apply ite_pred
    | with_reducible apply State.at_sameMem
    | with_reducible apply State.setLane_sameMem
    | with_reducible apply sameMemO_next
    | with_reducible exact sameMemO_fault

/-! ## TimeBase -/

theorem State.rescaleMarker_sameMem {s0 s : State} (hs : SameMem s0 s) (k : Nat) (delta from_ : Int) :
    SameMem s0 (s.rescaleMarker k delta from_) := by
  unfold State.rescaleMarker
  dsimp only
  repeat' first
    | with_reducible assumption
    | with_reducible apply ite_pred
    | with_reducible apply State.count_sameMem
    | with_reducible apply State.setMarker_sameMem
    | split

theorem State.stopAt_sameMem {s0 s : State} (hs : SameMem s0 s) (k : Nat) (b : Int) : SameMem s0 (s.stopAt k b) := by
  unfold State.stopAt
  try dsimp only
  repeat' first
    | with_reducible assumption
    | with_reducible apply State.stopTaking_sameMem
    | with_reducible apply State.writeDue_sameMem
    | with_reducible apply State.setSrc_sameMem

theorem State.stepOut_sameMem {s0 s : State} (hs : SameMem s0 s) (k : Nat) : SameMem s0 (s.stepOut k) := by
  unfold State.stepOut
  try dsimp only
  repeat' first
    | with_reducible assumption
    | with_reducible apply ite_pred
    | with_reducible apply State.setSrc_sameMem
    | with_reducible apply State.stopAt_sameMem

theorem State.stepIn_sameMem {s0 s : State} (hs : SameMem s0 s) (k : Nat) : SameMem s0 (s.stepIn k) := by
  unfold State.stepIn
  repeat' first | with_reducible assumption | with_reducible apply State.startTaking_sameMem

theorem State.moveOrigin_sameMem {s0 s : State} (hs : SameMem s0 s) (origin : Int) (aligned : Bool) :
    SameMem s0 (s.moveOrigin origin aligned) := by
  unfold State.moveOrigin
  dsimp only
  repeat' first
    | with_reducible assumption
    | with_reducible refine foldl_pred (fun _ _ _ => ?_) ?_
    | with_reducible apply State.rescaleMarker_sameMem
    | with_reducible apply State.stepOut_sameMem
    | with_reducible apply State.stepIn_sameMem
    | simp only [sameMem_mk]

theorem State.startTime_sameMem {s0 s : State} (hs : SameMem s0 s) (x : Nat) (at_ pps : Int) (aligned : Bool) :
    SameMem s0 (s.startTime x at_ pps aligned) := by
  unfold State.startTime
  try dsimp only
  repeat' first
    | with_reducible assumption
    | with_reducible apply ite_pred
    | with_reducible refine foldl_pred (fun _ _ _ => ?_) ?_
    | with_reducible apply State.startTaking_sameMem
    | with_reducible apply State.rescaleMarker_sameMem
    | with_reducible apply State.startLoop_sameMem
    | with_reducible apply State.mark_sameMem
    | with_reducible apply State.noteBoot_sameMem
    | simp only [sameMem_mk]

theorem State.startPlain_sameMem {s0 s : State} (hs : SameMem s0 s) (x : Nat) : SameMem s0 (s.startPlain x) := by
  unfold State.startPlain
  try dsimp only
  repeat' first | with_reducible assumption | with_reducible apply State.startTime_sameMem

theorem State.beginTime_sameMem {s0 s : State} (hs : SameMem s0 s) : SameMem s0 s.beginTime := by
  unfold State.beginTime
  try dsimp only
  repeat' first
    | with_reducible assumption
    | with_reducible apply ite_pred
    | with_reducible apply State.startPlain_sameMem
    | simp only [sameMem_mk]

theorem State.lockRef_sameMem {s0 s : State} (hs : SameMem s0 s) (hz since phase refOut : Nat) :
    SameMem s0 (s.lockRef hz since phase refOut) := by
  unfold State.lockRef
  try dsimp only
  repeat' first
    | with_reducible assumption
    | with_reducible apply ite_pred
    | with_reducible apply State.put_sameMem
    | with_reducible apply State.mark_sameMem
    | with_reducible apply State.beginTime_sameMem
    | simp only [sameMem_mk]
    | split

theorem State.holdRef_sameMem {s0 s : State} (hs : SameMem s0 s) (hz missed : Nat) :
    SameMem s0 (s.holdRef hz missed) := by
  unfold State.holdRef
  repeat' first | with_reducible assumption | with_reducible apply ite_pred | simp only [sameMem_mk]

theorem State.ppsPulse_sameMem {s0 s : State} (hs : SameMem s0 s) (good : Bool) : SameMem s0 (s.ppsPulse good) := by
  unfold State.ppsPulse
  dsimp only
  repeat' first | with_reducible assumption | simp only [sameMem_mk]

theorem State.checkPps_sameMem {s0 s : State} (hs : SameMem s0 s) (t : Int) : SameMem s0 (s.checkPps t) := by
  unfold State.checkPps
  dsimp only
  repeat' first
    | with_reducible assumption
    | with_reducible apply ite_pred
    | with_reducible apply State.put_sameMem
    | with_reducible apply State.count_sameMem
    | with_reducible apply State.free_sameMem
    | with_reducible apply State.ppsPulse_sameMem
    | with_reducible apply SameMemP.proj
    | simp only [sameMem_mk]

theorem State.ppsForm_sameMem {s0 s : State} (hs : SameMem s0 s) (t : Int) (pol : Bool) :
    SameMem s0 (s.ppsForm t pol) := by
  unfold State.ppsForm
  repeat' first
    | with_reducible assumption
    | with_reducible apply State.takeBy_sameMem
    | with_reducible apply State.formEdge_sameMem

theorem State.ppsRecord_sameMem {s0 s : State} (hs : SameMem s0 s) (pol : Bool) (bin : Nat) (check : Bool) :
    SameMem s0 (s.ppsRecord pol bin check) := by
  unfold State.ppsRecord
  try dsimp only
  repeat' first
    | with_reducible assumption
    | with_reducible apply ite_pred
    | with_reducible apply State.ppsForm_sameMem
    | with_reducible apply State.checkPps_sameMem

theorem State.alignFirst_sameMem {s0 s : State} (hs : SameMem s0 s) (pol : Bool) (refOut : Nat) :
    SameMem s0 (s.alignFirst pol refOut) := by
  unfold State.alignFirst
  try dsimp only
  repeat' first
    | with_reducible assumption
    | with_reducible apply State.free_sameMem
    | with_reducible apply State.startTime_sameMem
    | with_reducible apply State.put_sameMem
    | with_reducible apply State.ppsForm_sameMem
    | with_reducible refine SameMemP.snd (by assumption) ?_
    | with_reducible apply SameMemP.proj

theorem State.realignTo_sameMem {s0 s : State} (hs : SameMem s0 s) (n : Int) (pol : Bool) (refOut : Nat) :
    SameMem s0 (s.realignTo n pol refOut) := by
  unfold State.realignTo
  try dsimp only
  repeat' first
    | with_reducible assumption
    | with_reducible apply State.moveOrigin_sameMem
    | with_reducible apply State.put_sameMem
    | with_reducible apply State.ppsForm_sameMem
    | simp only [sameMem_mk]

theorem State.ppsEdge_sameMem {s0 s : State} (hs : SameMem s0 s) (pol : Bool) (bin refOut : Nat) :
    SameMem s0 (s.ppsEdge pol bin refOut) := by
  unfold State.ppsEdge
  try dsimp only
  repeat' first
    | with_reducible assumption
    | with_reducible apply ite_pred
    | with_reducible apply State.alignFirst_sameMem
    | with_reducible apply State.realignTo_sameMem
    | with_reducible apply State.ppsRecord_sameMem
    | split

theorem State.ppsMissing_sameMem {s0 s : State} (hs : SameMem s0 s) : SameMem s0 s.ppsMissing := by
  unfold State.ppsMissing
  dsimp only
  repeat' first
    | with_reducible assumption
    | with_reducible apply ite_pred
    | with_reducible apply State.ppsPulse_sameMem
    | simp only [sameMem_mk]

theorem State.waitOver_sameMem {s0 s : State} (hs : SameMem s0 s) : SameMem s0 s.waitOver := by
  unfold State.waitOver
  try dsimp only
  repeat' first
    | with_reducible assumption
    | with_reducible apply ite_pred
    | with_reducible apply State.startPlain_sameMem
    | split

theorem State.realignOver_sameMem {s0 s : State} (hs : SameMem s0 s) : SameMem s0 s.realignOver := by
  unfold State.realignOver
  dsimp only
  repeat' first
    | with_reducible assumption
    | with_reducible apply ite_pred
    | with_reducible apply State.raise_sameMem
    | simp only [sameMem_mk]
    | split

theorem State.frameDue_sameMem {s0 s : State} (hs : SameMem s0 s) (inputs : List (Nat × Input × Nat)) :
    SameMem s0 (s.frameDue inputs) := by
  unfold State.frameDue
  try dsimp only
  repeat' first
    | with_reducible assumption
    | with_reducible apply ite_pred
    | with_reducible apply State.frameFronts_sameMem
    | with_reducible apply State.frameWaves_sameMem
    | with_reducible apply State.frameLatches_sameMem
    | with_reducible apply State.frameContexts_sameMem
    | simp only [sameMem_mk]

theorem State.sysrefEdge_sameMem {s0 s : State} (hs : SameMem s0 s) (t : Int) (pol : Bool) (bin : Nat) :
    SameMem s0 (s.sysrefEdge t pol bin) := by
  unfold State.sysrefEdge
  try dsimp only
  repeat' first
    | with_reducible assumption
    | with_reducible apply State.setBe_sameMem
    | with_reducible apply State.formEdge_sameMem

theorem State.sysrefDue_sameMem {s0 s : State} (hs : SameMem s0 s) (bin fallBin : Nat) :
    SameMem s0 (s.sysrefDue bin fallBin) := by
  unfold State.sysrefDue
  try dsimp only
  repeat' first
    | with_reducible assumption
    | with_reducible apply ite_pred
    | with_reducible apply State.sysrefEdge_sameMem
    | with_reducible apply State.alignSlots_sameMem
    | simp only [sameMem_mk]
    | split

theorem State.flagUnlock_sameMem {s0 s : State} (hs : SameMem s0 s) (k : Nat) : SameMem s0 (s.flagUnlock k) := by
  unfold State.flagUnlock
  repeat' first
    | with_reducible assumption
    | with_reducible apply State.put_sameMem
    | with_reducible apply State.bump_sameMem

theorem State.loseIsland_sameMem {s0 s : State} (hs : SameMem s0 s) (k : Nat) : SameMem s0 (s.loseIsland k) := by
  unfold State.loseIsland
  dsimp only
  repeat' first
    | with_reducible assumption
    | with_reducible apply ite_pred
    | with_reducible refine foldl_pred (fun _ _ _ => ?_) ?_
    | with_reducible apply State.setChan_sameMem
    | with_reducible apply State.setIsland_sameMem
    | with_reducible apply State.beginCause_sameMem
    | with_reducible apply State.settleTrips_sameMem
    | with_reducible apply State.flagUnlock_sameMem

theorem State.islandBack_sameMem {s0 s : State} (hs : SameMem s0 s) (k : Nat) (counts : List Nat) :
    SameMem s0 (s.islandBack k counts) := by
  unfold State.islandBack
  try dsimp only
  repeat' first
    | with_reducible assumption
    | with_reducible apply ite_pred
    | with_reducible refine foldl_pred (fun _ _ _ => ?_) ?_
    | with_reducible apply State.setIsland_sameMem
    | with_reducible apply State.readCounter_sameMem
    | with_reducible apply State.endCause_sameMem
    | with_reducible apply State.startWin_sameMem
    | with_reducible apply State.settleTrips_sameMem

theorem State.is8Back_sameMem {s0 s : State} (hs : SameMem s0 s) : SameMem s0 s.is8Back := by
  unfold State.is8Back
  try dsimp only
  repeat' first
    | with_reducible assumption
    | with_reducible apply ite_pred
    | with_reducible refine foldl_pred (fun _ _ _ => ?_) ?_
    | with_reducible apply State.endCause_sameMem
    | with_reducible apply State.endRestore_sameMem
    | simp only [sameMem_mk]

theorem execRefLock_sameMem {s0 s : State} (t hz since phase refOut : Nat) (hs : SameMem s0 s) :
    SameMemO s0 (execRefLock t hz since phase refOut s) := by
  unfold execRefLock
  repeat' first
    | with_reducible assumption
    | with_reducible apply State.at_sameMem
    | with_reducible apply State.lockRef_sameMem
    | with_reducible apply sameMemO_next

theorem execHoldover_sameMem {s0 s : State} (t hz missed : Nat) (hs : SameMem s0 s) :
    SameMemO s0 (execHoldover t hz missed s) := by
  unfold execHoldover
  repeat' first
    | with_reducible assumption
    | with_reducible apply State.at_sameMem
    | with_reducible apply State.holdRef_sameMem
    | with_reducible apply sameMemO_next

theorem execPpsEdge_sameMem {s0 s : State} (t : Nat) (pol : Bool) (bin refOut : Nat) (hs : SameMem s0 s) :
    SameMemO s0 (execPpsEdge t pol bin refOut s) := by
  unfold execPpsEdge
  repeat' first
    | with_reducible assumption
    | with_reducible apply State.at_sameMem
    | with_reducible apply State.ppsEdge_sameMem
    | with_reducible apply sameMemO_next

theorem execPpsMissing_sameMem {s0 s : State} (t : Nat) (hs : SameMem s0 s) : SameMemO s0 (execPpsMissing t s) := by
  unfold execPpsMissing
  repeat' first
    | with_reducible assumption
    | with_reducible apply State.at_sameMem
    | with_reducible apply State.ppsMissing_sameMem
    | with_reducible apply sameMemO_next

theorem execAlignWaitTimeout_sameMem {s0 s : State} (t : Nat) (hs : SameMem s0 s) :
    SameMemO s0 (execAlignWaitTimeout t s) := by
  unfold execAlignWaitTimeout
  repeat' first
    | with_reducible assumption
    | with_reducible apply State.at_sameMem
    | with_reducible apply State.waitOver_sameMem
    | with_reducible apply sameMemO_next

theorem execRealignTimeout_sameMem {s0 s : State} (t : Nat) (hs : SameMem s0 s) : SameMemO s0 (execRealignTimeout t s) := by
  unfold execRealignTimeout
  repeat' first
    | with_reducible assumption
    | with_reducible apply State.at_sameMem
    | with_reducible apply State.realignOver_sameMem
    | with_reducible apply sameMemO_next

theorem execFrameBoundary_sameMem {s0 s : State} (t : Nat) (inputs : List (Nat × Input × Nat)) (hs : SameMem s0
    s) :
    SameMemO s0 (execFrameBoundary t inputs s) := by
  unfold execFrameBoundary
  repeat' first
    | with_reducible assumption
    | with_reducible apply State.at_sameMem
    | with_reducible apply State.frameDue_sameMem
    | with_reducible apply sameMemO_next

theorem execSysrefPulse_sameMem {s0 s : State} (t bin fallBin : Nat) (hs : SameMem s0 s) :
    SameMemO s0 (execSysrefPulse t bin fallBin s) := by
  unfold execSysrefPulse
  repeat' first
    | with_reducible assumption
    | with_reducible apply State.at_sameMem
    | with_reducible apply State.sysrefDue_sameMem
    | with_reducible apply sameMemO_next

theorem execIslandUnlock_sameMem {s0 s : State} (t k : Nat) (hs : SameMem s0 s) : SameMemO s0 (execIslandUnlock t k s) := by
  unfold execIslandUnlock
  repeat' first
    | with_reducible assumption
    | with_reducible apply ite_pred
    | with_reducible apply State.at_sameMem
    | with_reducible apply State.loseIsland_sameMem
    | with_reducible apply sameMemO_next
    | with_reducible exact sameMemO_fault

theorem execIslandRelock_sameMem {s0 s : State} (t k : Nat) (counts : List Nat) (hs : SameMem s0 s) :
    SameMemO s0 (execIslandRelock t k counts s) := by
  unfold execIslandRelock
  repeat' first
    | with_reducible assumption
    | with_reducible apply ite_pred
    | with_reducible apply State.at_sameMem
    | with_reducible apply State.islandBack_sameMem
    | with_reducible apply sameMemO_next
    | with_reducible exact sameMemO_fault

theorem execIs8Relock_sameMem {s0 s : State} (t : Nat) (hs : SameMem s0 s) : SameMemO s0 (execIs8Relock t s) := by
  unfold execIs8Relock
  repeat' first
    | with_reducible assumption
    | with_reducible apply State.at_sameMem
    | with_reducible apply State.is8Back_sameMem
    | with_reducible apply sameMemO_next

/-! ## Sluice -/

theorem State.applyList_sameMem {s0 s : State} (hs : SameMem s0 s) (c : Nat) : SameMem s0 (s.applyList c) := by
  unfold State.applyList
  dsimp only
  repeat' first
    | with_reducible assumption
    | with_reducible apply State.apply_sameMem
    | with_reducible apply State.bump_sameMem
    | with_reducible apply State.setSl_sameMem

theorem State.handOver_sameMem {s0 s : State} (hs : SameMem s0 s) (c : Nat) : SameMem s0 (s.handOver c) := by
  unfold State.handOver
  repeat' first
    | with_reducible assumption
    | with_reducible apply ite_pred
    | with_reducible apply State.applyList_sameMem
    | split

theorem State.dropCommit_sameMem {s0 s : State} (hs : SameMem s0 s) (c : Nat) : SameMem s0 (s.dropCommit c) := by
  unfold State.dropCommit
  repeat' first
    | with_reducible assumption
    | with_reducible apply ite_pred
    | with_reducible apply State.applyList_sameMem

theorem State.completeSlu_sameMem {s0 s : State} (hs : SameMem s0 s) (c : Nat) : SameMem s0 (s.completeSlu c) := by
  unfold State.completeSlu
  dsimp only
  repeat' first
    | with_reducible assumption
    | with_reducible apply ite_pred
    | with_reducible apply State.setSl_sameMem
    | with_reducible apply State.sluEvent_sameMem
    | with_reducible apply State.handOver_sameMem
    | with_reducible apply State.dropCommit_sameMem
    | split

theorem State.grantCredits_sameMem {s0 s : State} (hs : SameMem s0 s) (c : Nat) : SameMem s0 (s.grantCredits c) := by
  unfold State.grantCredits
  dsimp only
  repeat' first
    | with_reducible assumption
    | with_reducible apply ite_pred
    | with_reducible apply State.setSl_sameMem
    | with_reducible apply State.setLink_sameMem
    | with_reducible apply State.sendBlock_sameMem
    | with_reducible refine times_pred (fun _ _ => ?_) ?_
    | split

theorem execPauseDrained_sameMem {s0 s : State} (t c : Nat) (hs : SameMem s0 s) : SameMemO s0 (execPauseDrained t c s) := by
  unfold execPauseDrained
  dsimp only
  repeat' first
    | with_reducible assumption
    | with_reducible apply ite_pred
    | with_reducible apply State.at_sameMem
    | with_reducible apply State.setSl_sameMem
    | with_reducible apply sameMemO_next
    | with_reducible exact sameMemO_fault

theorem execDescriptorComplete_sameMem {s0 s : State} (t c : Nat) (hs : SameMem s0 s) :
    SameMemO s0 (execDescriptorComplete t c s) := by
  unfold execDescriptorComplete
  repeat' first
    | with_reducible assumption
    | with_reducible apply ite_pred
    | with_reducible apply State.at_sameMem
    | with_reducible apply State.completeSlu_sameMem
    | with_reducible apply sameMemO_next
    | with_reducible exact sameMemO_fault

/-! ## Power -/

theorem State.riseVin_sameMem {s0 s : State} (hs : SameMem s0 s) : SameMem s0 s.riseVin := by
  unfold State.riseVin
  dsimp only
  repeat' first | with_reducible assumption | with_reducible apply ite_pred | simp only [sameMem_mk]

theorem State.toAux_sameMem {s0 s : State} (hs : SameMem s0 s) : SameMem s0 s.toAux := by
  unfold State.toAux
  repeat' first | with_reducible assumption | with_reducible apply ite_pred | simp only [sameMem_mk]

theorem State.lowVin_sameMem {s0 s : State} (hs : SameMem s0 s) (low : Bool) : SameMem s0 (s.lowVin low) := by
  unfold State.lowVin
  dsimp only
  repeat' first
    | with_reducible assumption
    | with_reducible apply ite_pred
    | with_reducible apply State.put_sameMem
    | with_reducible apply State.raise_sameMem

theorem State.fetStart_sameMem {s0 s : State} (hs : SameMem s0 s) : SameMem s0 s.fetStart := by
  unfold State.fetStart
  repeat' first | with_reducible assumption | with_reducible apply ite_pred | simp only [sameMem_mk]

theorem State.retryFet_sameMem {s0 s : State} (hs : SameMem s0 s) : SameMem s0 s.retryFet := by
  unfold State.retryFet
  repeat' first
    | with_reducible assumption
    | with_reducible apply ite_pred
    | with_reducible apply State.fetStart_sameMem
    | split

theorem State.causeGone_sameMem {s0 s : State} (hs : SameMem s0 s) : SameMem s0 s.causeGone := by
  unfold State.causeGone
  dsimp only
  repeat' first | with_reducible assumption | with_reducible apply ite_pred | simp only [sameMem_mk]

theorem State.assertBus_sameMem {s0 s : State} (hs : SameMem s0 s) (mv : Nat) : SameMem s0 (s.assertBus mv) := by
  unfold State.assertBus
  repeat' first | with_reducible assumption | with_reducible apply ite_pred | simp only [sameMem_mk]

theorem State.setRegulator_sameMem {s0 s : State} (hs : SameMem s0 s) (j : Nat) (r : Regulator) :
    SameMem s0 (s.setRegulator j r) := by
  unfold State.setRegulator
  repeat' first | with_reducible assumption | simp only [sameMem_mk]

theorem State.programRail_sameMem {s0 s : State} (hs : SameMem s0 s) (j : Nat) : SameMem s0 (s.programRail j) := by
  unfold State.programRail
  repeat' first
    | with_reducible assumption
    | with_reducible apply State.setRegulator_sameMem
    | simp only [sameMem_mk]
    | split

theorem State.enableRail_sameMem {s0 s : State} (hs : SameMem s0 s) : SameMem s0 s.enableRail := by
  unfold State.enableRail
  try dsimp only
  repeat' first
    | with_reducible assumption
    | with_reducible apply ite_pred
    | with_reducible apply State.bump_sameMem
    | with_reducible apply State.programRail_sameMem
    | with_reducible apply State.put_sameMem
    | with_reducible apply State.settleTrips_sameMem
    | simp only [sameMem_mk]
    | split

theorem State.stopMonitors_sameMem {s0 s : State} (hs : SameMem s0 s) (k : Nat) : SameMem s0 (s.stopMonitors k) := by
  unfold State.stopMonitors
  dsimp only
  repeat' first
    | with_reducible assumption
    | with_reducible refine foldl_pred (fun _ _ _ => ?_) ?_
    | with_reducible apply State.setChan_sameMem

theorem State.dropHits_sameMem {s0 s : State} (hs : SameMem s0 s) (n : Nat) : SameMem s0 (s.dropHits n) := by
  unfold State.dropHits
  try dsimp only
  repeat' first
    | with_reducible assumption
    | with_reducible apply ite_pred
    | with_reducible apply State.setBe_sameMem

theorem State.lowerIsland_sameMem {s0 s : State} (hs : SameMem s0 s) (k st : Nat) :
    SameMem s0 (s.lowerIsland k st) := by
  unfold State.lowerIsland
  try dsimp only
  repeat' first
    | with_reducible assumption
    | with_reducible apply ite_pred
    | with_reducible refine foldl_pred (fun _ _ _ => ?_) ?_
    | with_reducible apply State.setIsland_sameMem
    | with_reducible apply State.dropHits_sameMem
    | with_reducible apply State.stopMonitors_sameMem
    | with_reducible apply State.settleTrips_sameMem
    | simp only [sameMem_mk]

theorem State.rewake_sameMem {s0 s : State} (hs : SameMem s0 s) (n : Nat) : SameMem s0 (s.rewake n) := by
  unfold State.rewake
  repeat' first
    | with_reducible assumption
    | with_reducible apply ite_pred
    | with_reducible apply State.queueWake_sameMem

theorem State.drainedIsland_sameMem {s0 s : State} (hs : SameMem s0 s) (k : Nat) :
    SameMem s0 (s.drainedIsland k) := by
  unfold State.drainedIsland
  try dsimp only
  repeat' first
    | with_reducible assumption
    | with_reducible apply ite_pred
    | with_reducible refine foldl_pred (fun _ _ _ => ?_) ?_
    | with_reducible apply State.setIsland_sameMem
    | with_reducible apply State.lowerIsland_sameMem
    | with_reducible apply State.rewake_sameMem
    | simp only [sameMem_mk]
    | split

theorem State.wakeChannel_sameMem {s0 s : State} (hs : SameMem s0 s) (n : Nat) : SameMem s0 (s.wakeChannel n) := by
  unfold State.wakeChannel
  try dsimp only
  repeat' first
    | with_reducible assumption
    | with_reducible apply ite_pred
    | with_reducible apply State.setBe_sameMem
    | with_reducible apply State.dropHits_sameMem
    | with_reducible apply State.setChan_sameMem
    | with_reducible apply State.startEnd_sameMem
    | with_reducible apply State.endCause_sameMem
    | simp only [sameMem_mk]
    | split

theorem State.wokenIsland_sameMem {s0 s : State} (hs : SameMem s0 s) (k : Nat) : SameMem s0 (s.wokenIsland k) := by
  unfold State.wokenIsland
  dsimp only
  repeat' first
    | with_reducible assumption
    | with_reducible apply ite_pred
    | with_reducible refine foldl_pred (fun _ _ _ => ?_) ?_
    | with_reducible apply State.setIsland_sameMem
    | with_reducible apply State.settleTrips_sameMem
    | with_reducible apply State.startWin_sameMem
    | with_reducible apply State.wakeChannel_sameMem
    | split

theorem execUvloRise_sameMem {s0 s : State} (t : Nat) (hs : SameMem s0 s) : SameMemO s0 (execUvloRise t s) := by
  unfold execUvloRise
  repeat' first
    | with_reducible assumption
    | with_reducible apply State.at_sameMem
    | with_reducible apply State.riseVin_sameMem
    | with_reducible apply sameMemO_next

theorem execAuxEntry_sameMem {s0 s : State} (t : Nat) (hs : SameMem s0 s) : SameMemO s0 (execAuxEntry t s) := by
  unfold execAuxEntry
  repeat' first
    | with_reducible assumption
    | with_reducible apply State.at_sameMem
    | with_reducible apply State.toAux_sameMem
    | with_reducible apply sameMemO_next

theorem execLowInput_sameMem {s0 s : State} (t : Nat) (low : Bool) (hs : SameMem s0 s) :
    SameMemO s0 (execLowInput t low s) := by
  unfold execLowInput
  repeat' first
    | with_reducible assumption
    | with_reducible apply State.at_sameMem
    | with_reducible apply State.lowVin_sameMem
    | with_reducible apply sameMemO_next

theorem execFetRetry_sameMem {s0 s : State} (t : Nat) (hs : SameMem s0 s) : SameMemO s0 (execFetRetry t s) := by
  unfold execFetRetry
  repeat' first
    | with_reducible assumption
    | with_reducible apply State.at_sameMem
    | with_reducible apply State.retryFet_sameMem
    | with_reducible apply sameMemO_next

theorem execBusEn_sameMem {s0 s : State} (t mv : Nat) (hs : SameMem s0 s) : SameMemO s0 (execBusEn t mv s) := by
  unfold execBusEn
  repeat' first
    | with_reducible assumption
    | with_reducible apply State.at_sameMem
    | with_reducible apply State.assertBus_sameMem
    | with_reducible apply sameMemO_next

theorem execRailEnable_sameMem {s0 s : State} (t : Nat) (hs : SameMem s0 s) : SameMemO s0 (execRailEnable t s) := by
  unfold execRailEnable
  repeat' first
    | with_reducible assumption
    | with_reducible apply State.at_sameMem
    | with_reducible apply State.enableRail_sameMem
    | with_reducible apply sameMemO_next

theorem execProtectiveRestart_sameMem {s0 s : State} (t : Nat) (hs : SameMem s0 s) :
    SameMemO s0 (execProtectiveRestart t s) := by
  unfold execProtectiveRestart
  repeat' first
    | with_reducible assumption
    | with_reducible apply State.at_sameMem
    | with_reducible apply State.causeGone_sameMem
    | with_reducible apply sameMemO_next

theorem execWakeIsland_sameMem {s0 s : State} (t k : Nat) (hs : SameMem s0 s) : SameMemO s0 (execWakeIsland t k s) := by
  unfold execWakeIsland
  repeat' first
    | with_reducible assumption
    | with_reducible apply ite_pred
    | with_reducible apply State.at_sameMem
    | with_reducible apply State.wokenIsland_sameMem
    | with_reducible apply sameMemO_next
    | with_reducible exact sameMemO_fault

theorem execIslandDrained_sameMem {s0 s : State} (t k : Nat) (hs : SameMem s0 s) :
    SameMemO s0 (execIslandDrained t k s) := by
  unfold execIslandDrained
  repeat' first
    | with_reducible assumption
    | with_reducible apply ite_pred
    | with_reducible apply State.at_sameMem
    | with_reducible apply State.drainedIsland_sameMem
    | with_reducible apply sameMemO_next
    | with_reducible exact sameMemO_fault

theorem execRestorationHeld_sameMem {s0 s : State} (t : Nat) (sub : Subsystem) (hs : SameMem s0 s) :
    SameMemO s0 (execRestorationHeld t sub s) := by
  unfold execRestorationHeld
  repeat' first
    | with_reducible assumption
    | with_reducible apply State.at_sameMem
    | with_reducible apply State.restoreHeld_sameMem
    | with_reducible apply sameMemO_next

/-! ## Life -/

theorem State.showLife_sameMem {s0 s : State} (hs : SameMem s0 s) : SameMem s0 s.showLife := by
  unfold State.showLife
  dsimp only
  repeat' first
    | with_reducible assumption
    | with_reducible apply ite_pred
    | with_reducible apply State.put_sameMem

theorem State.lifeHour_sameMem {s0 s : State} (hs : SameMem s0 s) (rings : List (Nat × Int)) :
    SameMem s0 (s.lifeHour rings) := by
  unfold State.lifeHour
  dsimp only
  repeat' first
    | with_reducible assumption
    | with_reducible apply ite_pred
    | with_reducible refine foldl_pred (fun _ _ _ => ?_) ?_
    | with_reducible apply State.put_sameMem
    | with_reducible apply State.count_sameMem
    | with_reducible apply State.setIsland_sameMem
    | with_reducible apply State.ageing_sameMem
    | with_reducible apply State.showLife_sameMem
    | simp only [sameMem_mk]
    | split

theorem State.changeHalf_sameMem {s0 s : State} (hs : SameMem s0 s) : SameMem s0 s.changeHalf := by
  unfold State.changeHalf
  dsimp only
  repeat' first | with_reducible assumption | simp only [sameMem_mk]

theorem State.after63_sameMem {s0 s : State} (hs : SameMem s0 s) (kind n : Nat) : SameMem s0 (s.after63 kind n) := by
  unfold State.after63
  repeat' first
    | with_reducible assumption
    | with_reducible apply ite_pred
    | with_reducible apply State.ledger_sameMem

theorem State.writeLedger_sameMem {s0 s : State} (hs : SameMem s0 s) (good : Bool) : SameMem s0 (s.writeLedger good) := by
  unfold State.writeLedger
  dsimp only
  repeat' first
    | with_reducible assumption
    | with_reducible apply ite_pred
    | with_reducible apply State.count_sameMem
    | with_reducible apply State.raise_sameMem
    | with_reducible apply State.changeHalf_sameMem
    | with_reducible apply State.after63_sameMem
    | simp only [sameMem_mk]
    | split

theorem State.hourlyDue_sameMem {s0 s : State} (hs : SameMem s0 s) : SameMem s0 s.hourlyDue := by
  unfold State.hourlyDue
  dsimp only
  repeat' first
    | with_reducible assumption
    | with_reducible apply ite_pred
    | with_reducible apply State.ledger_sameMem
    | simp only [sameMem_mk]

theorem State.repairRow_sameMem {s0 s : State} (hs : SameMem s0 s) (addr : Nat) (spareRow : Bool) :
    SameMem s0 (s.repairRow addr spareRow) := by
  unfold State.repairRow
  dsimp only
  repeat' first
    | with_reducible assumption
    | with_reducible apply ite_pred
    | with_reducible apply State.count_sameMem
    | with_reducible apply State.raise_sameMem
    | with_reducible apply State.ledger_sameMem
    | simp only [sameMem_mk]

theorem State.patrol_sameMem {s0 s : State} (hs : SameMem s0 s) (addr result : Nat) (spareRow lastUnit : Bool) :
    SameMem s0 (s.patrol addr result spareRow lastUnit) := by
  unfold State.patrol
  try dsimp only
  repeat' first
    | with_reducible assumption
    | with_reducible apply ite_pred
    | with_reducible apply State.count_sameMem
    | with_reducible apply State.repairRow_sameMem
    | with_reducible apply State.raise_sameMem
    | with_reducible apply State.ledger_sameMem
    | simp only [sameMem_mk]
    | split

theorem State.startRefresh_sameMem {s0 s : State} (hs : SameMem s0 s) : SameMem s0 s.startRefresh := by
  unfold State.startRefresh
  dsimp only
  repeat' first | with_reducible assumption | with_reducible apply State.put_sameMem | simp only [sameMem_mk]

theorem State.refreshFalls_sameMem {s0 s : State} (hs : SameMem s0 s) : SameMem s0 s.refreshFalls := by
  unfold State.refreshFalls
  dsimp only
  repeat' first
    | with_reducible assumption
    | with_reducible apply ite_pred
    | with_reducible apply State.put_sameMem
    | simp only [sameMem_mk]

theorem State.autoRefresh_sameMem {s0 s : State} (hs : SameMem s0 s) : SameMem s0 s.autoRefresh := by
  unfold State.autoRefresh
  dsimp only
  repeat' first
    | with_reducible assumption
    | with_reducible apply ite_pred
    | with_reducible apply State.startRefresh_sameMem

theorem State.endRefresh_sameMem {s0 s : State} (hs : SameMem s0 s) (done : Bool) : SameMem s0 (s.endRefresh done) := by
  unfold State.endRefresh
  dsimp only
  repeat' first
    | with_reducible assumption
    | with_reducible apply ite_pred
    | with_reducible apply State.put_sameMem
    | with_reducible apply State.raise_sameMem
    | with_reducible apply State.free_sameMem
    | with_reducible apply State.ledger_sameMem
    | with_reducible apply SameMemP.proj
    | simp only [sameMem_mk]

theorem State.nextRefreshSlot_sameMem {s0 s : State} (hs : SameMem s0 s) : SameMem s0 s.nextRefreshSlot := by
  unfold State.nextRefreshSlot
  dsimp only
  repeat' first
    | with_reducible assumption
    | with_reducible apply ite_pred
    | with_reducible apply State.changeHalf_sameMem
    | with_reducible apply State.endRefresh_sameMem
    | simp only [sameMem_mk]

theorem State.refreshSector_sameMem {s0 s : State} (hs : SameMem s0 s) (good lastOfSlot slotOk : Bool) :
    SameMem s0 (s.refreshSector good lastOfSlot slotOk) := by
  unfold State.refreshSector
  dsimp only
  repeat' first
    | with_reducible assumption
    | with_reducible apply ite_pred
    | with_reducible apply State.endRefresh_sameMem
    | with_reducible apply State.nextRefreshSlot_sameMem
    | simp only [sameMem_mk]

theorem State.migrated_sameMem {s0 s : State} (hs : SameMem s0 s) : SameMem s0 s.migrated := by
  unfold State.migrated
  dsimp only
  repeat' first
    | with_reducible assumption
    | with_reducible apply State.put_sameMem
    | with_reducible apply State.unitDone_sameMem
    | simp only [sameMem_mk]
    | split

theorem State.engineMoved_sameMem {s0 s : State} (hs : SameMem s0 s) : SameMem s0 s.engineMoved := by
  unfold State.engineMoved
  dsimp only
  repeat' first
    | with_reducible assumption
    | with_reducible apply ite_pred
    | with_reducible apply State.put_sameMem
    | with_reducible apply State.unitDone_sameMem
    | simp only [sameMem_mk]
    | split

theorem execLifeHour_sameMem {s0 s : State} (t : Nat) (rings : List (Nat × Int)) (hs : SameMem s0 s) :
    SameMemO s0 (execLifeHour t rings s) := by
  unfold execLifeHour
  repeat' first
    | with_reducible assumption
    | with_reducible apply State.at_sameMem
    | with_reducible apply State.lifeHour_sameMem
    | with_reducible apply sameMemO_next

theorem execHourly_sameMem {s0 s : State} (t : Nat) (hs : SameMem s0 s) : SameMemO s0 (execHourly t s) := by
  unfold execHourly
  repeat' first
    | with_reducible assumption
    | with_reducible apply State.at_sameMem
    | with_reducible apply State.hourlyDue_sameMem
    | with_reducible apply sameMemO_next

theorem execLedgerWrite_sameMem {s0 s : State} (t : Nat) (good : Bool) (hs : SameMem s0 s) :
    SameMemO s0 (execLedgerWrite t good s) := by
  unfold execLedgerWrite
  repeat' first
    | with_reducible assumption
    | with_reducible apply State.at_sameMem
    | with_reducible apply State.writeLedger_sameMem
    | with_reducible apply sameMemO_next

theorem execPatrolRead_sameMem {s0 s : State} (t addr result : Nat) (spareRow lastUnit : Bool) (hs : SameMem s0 s) :
    SameMemO s0 (execPatrolRead t addr result spareRow lastUnit s) := by
  unfold execPatrolRead
  repeat' first
    | with_reducible assumption
    | with_reducible apply State.at_sameMem
    | with_reducible apply State.patrol_sameMem
    | with_reducible apply sameMemO_next

theorem execRefreshDue_sameMem {s0 s : State} (t : Nat) (hs : SameMem s0 s) : SameMemO s0 (execRefreshDue t s) := by
  unfold execRefreshDue
  repeat' first
    | with_reducible assumption
    | with_reducible apply State.at_sameMem
    | with_reducible apply State.refreshFalls_sameMem
    | with_reducible apply sameMemO_next

theorem execRefreshAutoStart_sameMem {s0 s : State} (t : Nat) (hs : SameMem s0 s) :
    SameMemO s0 (execRefreshAutoStart t s) := by
  unfold execRefreshAutoStart
  repeat' first
    | with_reducible assumption
    | with_reducible apply State.at_sameMem
    | with_reducible apply State.autoRefresh_sameMem
    | with_reducible apply sameMemO_next

theorem execRefreshSector_sameMem {s0 s : State} (t : Nat) (good lastOfSlot slotOk : Bool) (hs : SameMem s0 s) :
    SameMemO s0 (execRefreshSector t good lastOfSlot slotOk s) := by
  unfold execRefreshSector
  repeat' first
    | with_reducible assumption
    | with_reducible apply State.at_sameMem
    | with_reducible apply State.refreshSector_sameMem
    | with_reducible apply sameMemO_next

theorem execMigrationDone_sameMem {s0 s : State} (t : Nat) (hs : SameMem s0 s) : SameMemO s0 (execMigrationDone t s) := by
  unfold execMigrationDone
  repeat' first
    | with_reducible assumption
    | with_reducible apply State.at_sameMem
    | with_reducible apply State.migrated_sameMem
    | with_reducible apply sameMemO_next

theorem execEngineMoveDone_sameMem {s0 s : State} (t : Nat) (hs : SameMem s0 s) : SameMemO s0 (execEngineMoveDone t s) := by
  unfold execEngineMoveDone
  repeat' first
    | with_reducible assumption
    | with_reducible apply State.at_sameMem
    | with_reducible apply State.engineMoved_sameMem
    | with_reducible apply sameMemO_next

theorem execHbmTrainingStart_sameMem {s0 s : State} (t : Nat) (hs : SameMem s0 s) :
    SameMemO s0 (execHbmTrainingStart t s) := by
  unfold execHbmTrainingStart
  dsimp only
  repeat' first
    | with_reducible assumption
    | with_reducible apply ite_pred
    | with_reducible apply State.at_sameMem
    | with_reducible apply sameMemO_next
    | simp only [sameMem_mk]

/-! ## Windows -/

theorem State.afterBank_sameMem {s0 s : State} (hs : SameMem s0 s) : SameMem s0 s.afterBank := by
  unfold State.afterBank
  repeat' first
    | with_reducible assumption
    | with_reducible apply ite_pred
    | with_reducible apply State.free_sameMem
    | with_reducible apply SameMemP.proj

/-! ## Access -/

theorem State.busError_sameMem {s0 s : State} (hs : SameMem s0 s) (p : Nat) (wr : Bool) (a code : Nat) :
    SameMem s0 (s.busError p wr a code) := by
  unfold State.busError
  dsimp only
  repeat' first
    | with_reducible assumption
    | with_reducible apply State.put_sameMem
    | with_reducible apply State.count_sameMem
    | with_reducible apply State.raise_sameMem

theorem State.dropPair_sameMem {s0 s : State} (hs : SameMem s0 s) (p : Nat) : SameMem s0 (s.dropPair p) := by
  unfold State.dropPair
  dsimp only
  repeat' first
    | with_reducible assumption
    | with_reducible apply State.raise_sameMem
    | with_reducible apply State.setPort_sameMem
    | with_reducible apply State.busError_sameMem
    | split

theorem State.readAccess_sameMem {s0 s : State} (hs : SameMem s0 s) (p a w : Nat) : SameMemP s0 (s.readAccess p a w) := by
  unfold State.readAccess
  dsimp only
  repeat' first
    | with_reducible assumption
    | with_reducible apply ite_pred
    | with_reducible apply State.setPort_sameMem
    | with_reducible apply State.afterBank_sameMem
    | with_reducible apply State.busError_sameMem
    | with_reducible apply State.dropPair_sameMem
    | simp only [sameMemP_mk]
    | split

theorem State.closeGate_sameMem {s0 s : State} (hs : SameMem s0 s) (p : Nat) : SameMem s0 (s.closeGate p) := by
  unfold State.closeGate
  dsimp only
  repeat' first | with_reducible assumption | with_reducible apply State.setPort_sameMem

theorem State.trailer_sameMem {s0 s : State} (hs : SameMem s0 s) (p : Nat) (data : List Nat) (err done : Nat)
    (unserved : Bool) :
    SameMem s0 (s.trailer p data err done unserved) := by
  unfold State.trailer
  dsimp only
  repeat' first | with_reducible assumption | with_reducible apply State.setPort_sameMem

theorem State.readRun_sameMem {s0 s : State} (hs : SameMem s0 s) (p w a n : Nat) : SameMem s0 (s.readRun p w a n).2.2.2.2 := by
  induction n generalizing s a with
  | zero => exact hs
  | succ n ih =>
    have h := State.readAccess_sameMem hs p (a % 2 ^ 32) w
    rw [State.readRun]
    generalize s.readAccess p (a % 2 ^ 32) w = q at h ⊢
    obtain ⟨x, s1⟩ := q
    dsimp only
    split
    · exact h
    · exact ih h _

theorem State.badCount_sameMem {s0 s : State} (hs : SameMem s0 s) (p : Nat) (wr : Bool) (a : Nat) :
    SameMem s0 (s.badCount p wr a) := by
  unfold State.badCount
  repeat' first
    | with_reducible assumption
    | with_reducible apply State.busError_sameMem
    | with_reducible apply State.trailer_sameMem

theorem State.spiRead_sameMem {s0 s : State} (hs : SameMem s0 s) (w count a : Nat) : SameMem s0 (s.spiRead w count a) := by
  unfold State.spiRead
  dsimp only
  repeat' first
    | with_reducible assumption
    | with_reducible apply ite_pred
    | with_reducible apply State.trailer_sameMem
    | with_reducible apply State.readRun_sameMem
    | with_reducible apply State.badCount_sameMem

theorem State.captureReg_sameMem {s0 s : State} (hs : SameMem s0 s) : SameMem s0 s.captureReg := by
  unfold State.captureReg
  dsimp only
  repeat' first | with_reducible assumption | simp only [sameMem_mk]

theorem execRead8_sameMem {s0 s : State} (t count addr : Nat) (hs : SameMem s0 s) :
    SameMemO s0 (execRead8 t count addr s) := by
  unfold execRead8
  repeat' first
    | with_reducible assumption
    | with_reducible apply State.at_sameMem
    | with_reducible apply State.spiRead_sameMem
    | with_reducible apply sameMemO_next

theorem execRead16_sameMem {s0 s : State} (t count addr : Nat) (hs : SameMem s0 s) :
    SameMemO s0 (execRead16 t count addr s) := by
  unfold execRead16
  repeat' first
    | with_reducible assumption
    | with_reducible apply State.at_sameMem
    | with_reducible apply State.spiRead_sameMem
    | with_reducible apply sameMemO_next

theorem execRead32_sameMem {s0 s : State} (t count addr : Nat) (hs : SameMem s0 s) :
    SameMemO s0 (execRead32 t count addr s) := by
  unfold execRead32
  repeat' first
    | with_reducible assumption
    | with_reducible apply State.at_sameMem
    | with_reducible apply State.spiRead_sameMem
    | with_reducible apply sameMemO_next

theorem execPhase_sameMem {s0 s : State} (t : Nat) (hs : SameMem s0 s) : SameMemO s0 (execPhase t s) := by
  unfold execPhase
  dsimp only
  repeat' first
    | with_reducible assumption
    | with_reducible apply ite_pred
    | with_reducible apply State.at_sameMem
    | with_reducible apply State.setPort_sameMem
    | with_reducible apply sameMemO_next

theorem execCaptureDr_sameMem {s0 s : State} (t : Nat) (hs : SameMem s0 s) : SameMemO s0 (execCaptureDr t s) := by
  unfold execCaptureDr
  dsimp only
  repeat' first
    | with_reducible assumption
    | with_reducible apply ite_pred
    | with_reducible apply State.at_sameMem
    | with_reducible apply State.captureReg_sameMem
    | with_reducible apply sameMemO_next

theorem execIdcode_sameMem {s0 s : State} (t : Nat) (hs : SameMem s0 s) : SameMemO s0 (execIdcode t s) := by
  unfold execIdcode
  dsimp only
  repeat' first
    | with_reducible assumption
    | with_reducible apply ite_pred
    | with_reducible apply State.at_sameMem
    | with_reducible apply sameMemO_next
    | simp only [sameMem_mk]

theorem execBypass_sameMem {s0 s : State} (t : Nat) (hs : SameMem s0 s) : SameMemO s0 (execBypass t s) := by
  unfold execBypass
  dsimp only
  repeat' first
    | with_reducible assumption
    | with_reducible apply ite_pred
    | with_reducible apply State.at_sameMem
    | with_reducible apply sameMemO_next
    | simp only [sameMem_mk]

theorem execSamplePreload_sameMem {s0 s : State} (t balls load : Nat) (hs : SameMem s0 s) :
    SameMemO s0 (execSamplePreload t balls load s) := by
  unfold execSamplePreload
  dsimp only
  repeat' first
    | with_reducible assumption
    | with_reducible apply ite_pred
    | with_reducible apply State.at_sameMem
    | with_reducible apply sameMemO_next
    | simp only [sameMem_mk]

theorem execExtest_sameMem {s0 s : State} (t balls : Nat) (hs : SameMem s0 s) : SameMemO s0 (execExtest t balls s) := by
  unfold execExtest
  dsimp only
  repeat' first
    | with_reducible assumption
    | with_reducible apply ite_pred
    | with_reducible apply State.at_sameMem
    | with_reducible apply sameMemO_next
    | simp only [sameMem_mk]

/-! ## Events -/

theorem State.harvestAt_sameMem {s0 s : State} (hs : SameMem s0 s) : SameMem s0 s.harvestAt := by
  unfold State.harvestAt
  dsimp only
  repeat' first | with_reducible assumption | with_reducible apply ite_pred | simp only [sameMem_mk] | split

theorem State.harvestEnd_sameMem {s0 s : State} (hs : SameMem s0 s) : SameMem s0 s.harvestEnd := by
  unfold State.harvestEnd
  dsimp only
  repeat' first
    | with_reducible assumption
    | with_reducible apply ite_pred
    | with_reducible apply State.put_sameMem
    | with_reducible apply State.bump_sameMem
    | with_reducible apply State.raise_sameMem
    | simp only [sameMem_mk]

theorem execEmbLock_sameMem {s0 s : State} (t slot : Nat) (hs : SameMem s0 s) : SameMemO s0 (execEmbLock t slot s) := by
  unfold execEmbLock
  dsimp only
  repeat' first
    | with_reducible assumption
    | with_reducible apply ite_pred
    | with_reducible apply State.at_sameMem
    | with_reducible apply State.setSlot_sameMem
    | with_reducible apply sameMemO_next
    | with_reducible exact sameMemO_fault

theorem execPulseEnd_sameMem {s0 s : State} (t k bin : Nat) (hs : SameMem s0 s) : SameMemO s0 (execPulseEnd t k bin s) := by
  unfold execPulseEnd
  repeat' first
    | with_reducible assumption
    | with_reducible apply ite_pred
    | with_reducible apply State.at_sameMem
    | with_reducible apply State.fall_sameMem
    | with_reducible apply sameMemO_next
    | with_reducible exact sameMemO_fault

theorem execHarvestInstant_sameMem {s0 s : State} (t : Nat) (hs : SameMem s0 s) : SameMemO s0 (execHarvestInstant t s) := by
  unfold execHarvestInstant
  repeat' first
    | with_reducible assumption
    | with_reducible apply State.at_sameMem
    | with_reducible apply State.harvestAt_sameMem
    | with_reducible apply sameMemO_next

theorem execHarvestDone_sameMem {s0 s : State} (t : Nat) (hs : SameMem s0 s) : SameMemO s0 (execHarvestDone t s) := by
  unfold execHarvestDone
  repeat' first
    | with_reducible assumption
    | with_reducible apply State.at_sameMem
    | with_reducible apply State.harvestEnd_sameMem
    | with_reducible apply sameMemO_next

/-! ## Links -/

theorem State.admitLink_sameMem {s0 s : State} (hs : SameMem s0 s) (b : Nat) : SameMem s0 (s.admitLink b) := by
  unfold State.admitLink
  dsimp only
  repeat' first
    | with_reducible assumption
    | with_reducible apply ite_pred
    | with_reducible refine foldl_pred (fun _ _ _ => ?_) ?_
    | with_reducible apply State.raise_sameMem
    | with_reducible apply State.setLink_sameMem
    | with_reducible apply State.grantCredits_sameMem
    | split

theorem State.endLink_sameMem {s0 s : State} (hs : SameMem s0 s) (b : Nat) : SameMem s0 (s.endLink b) := by
  unfold State.endLink
  try dsimp only
  repeat' first
    | with_reducible assumption
    | with_reducible refine foldl_pred (fun _ _ _ => ?_) ?_
    | with_reducible apply State.dropVerdict_sameMem
    | with_reducible apply State.setLink_sameMem
    | with_reducible apply State.closeGate_sameMem
    | with_reducible apply State.raise_sameMem

theorem State.enterP1_sameMem {s0 s : State} (hs : SameMem s0 s) (b l : Nat) : SameMem s0 (s.enterP1 b l) := by
  unfold State.enterP1
  dsimp only
  repeat' first
    | with_reducible assumption
    | with_reducible apply ite_pred
    | with_reducible apply State.setLane_sameMem
    | with_reducible apply State.sendBlock_sameMem

theorem State.takeService_sameMem {s0 s : State} (hs : SameMem s0 s) (l : Nat) : SameMem s0 (s.takeService l) := by
  unfold State.takeService
  dsimp only
  repeat' first
    | with_reducible assumption
    | with_reducible apply ite_pred
    | with_reducible apply State.setLane_sameMem
    | with_reducible apply State.retireNow_sameMem
    | with_reducible apply State.unuse_sameMem

theorem State.missAlign_sameMem {s0 s : State} (hs : SameMem s0 s) (b l : Nat) : SameMem s0 (s.missAlign b l) := by
  unfold State.missAlign
  dsimp only
  repeat' first
    | with_reducible assumption
    | with_reducible apply ite_pred
    | with_reducible apply State.raise_sameMem
    | with_reducible apply State.setLane_sameMem

theorem State.sendAligns_sameMem {s0 s : State} (hs : SameMem s0 s) (b : Nat) : SameMem s0 (s.sendAligns b) := by
  unfold State.sendAligns
  dsimp only
  repeat' first
    | with_reducible assumption
    | with_reducible refine foldl_pred (fun _ _ _ => ?_) ?_
    | with_reducible apply State.free_sameMem
    | with_reducible apply State.sendBlock_sameMem
    | with_reducible apply SameMemP.proj

theorem State.alignSlot_sameMem {s0 s : State} (hs : SameMem s0 s) (b : Nat) : SameMem s0 (s.alignSlot b) := by
  unfold State.alignSlot
  try dsimp only
  repeat' first
    | with_reducible assumption
    | with_reducible apply ite_pred
    | with_reducible refine foldl_pred (fun _ _ _ => ?_) ?_
    | with_reducible apply State.endLink_sameMem
    | with_reducible apply State.setLink_sameMem
    | with_reducible apply State.enterP1_sameMem
    | with_reducible apply State.missAlign_sameMem
    | with_reducible apply State.takeService_sameMem
    | with_reducible apply State.admitLink_sameMem
    | with_reducible apply State.sendAligns_sameMem
    | with_reducible apply State.sendBlock_sameMem

theorem State.countLost_sameMem {s0 s : State} (hs : SameMem s0 s) (b l : Nat) : SameMem s0 (s.countLost b l) := by
  unfold State.countLost
  dsimp only
  repeat' first
    | with_reducible assumption
    | with_reducible apply ite_pred
    | with_reducible apply State.count_sameMem
    | with_reducible apply State.free_sameMem
    | with_reducible apply State.setLane_sameMem
    | with_reducible apply SameMemP.proj
    | split

theorem State.takeAlign_sameMem {s0 s : State} (hs : SameMem s0 s) (b l payload d : Nat) :
    SameMem s0 (s.takeAlign b l payload d) := by
  unfold State.takeAlign
  dsimp only
  repeat' first
    | with_reducible assumption
    | with_reducible apply ite_pred
    | with_reducible refine foldl_pred (fun _ _ _ => ?_) ?_
    | with_reducible apply State.setLane_sameMem
    | with_reducible apply State.setLink_sameMem
    | with_reducible apply State.countLost_sameMem

theorem State.recvAlign_sameMem {s0 s : State} (hs : SameMem s0 s) (l payload : Nat) :
    SameMem s0 (s.recvAlign l payload) := by
  unfold State.recvAlign
  dsimp only
  repeat' first
    | with_reducible assumption
    | with_reducible apply ite_pred
    | with_reducible apply State.count_sameMem
    | with_reducible apply State.raise_sameMem
    | with_reducible apply State.free_sameMem
    | with_reducible apply State.setLane_sameMem
    | with_reducible apply State.takeAlign_sameMem
    | with_reducible apply SameMemP.proj
    | split

theorem State.repeatCredit_sameMem {s0 s : State} (hs : SameMem s0 s) (b stream : Nat) :
    SameMem s0 (s.repeatCredit b stream) := by
  unfold State.repeatCredit
  dsimp only
  repeat' first
    | with_reducible assumption
    | with_reducible apply ite_pred
    | with_reducible apply State.setLink_sameMem
    | with_reducible apply State.sendBlock_sameMem

theorem State.sendVerdict_sameMem {s0 s : State} (hs : SameMem s0 s) (b : Nat) : SameMem s0 (s.sendVerdict b) := by
  unfold State.sendVerdict
  try dsimp only
  repeat' first
    | with_reducible assumption
    | with_reducible apply ite_pred
    | with_reducible apply State.setLink_sameMem
    | with_reducible apply State.sendBlock_sameMem
    | with_reducible apply State.count_sameMem
    | simp only [sameMem_mk]
    | split

theorem State.recvTrain_sameMem {s0 s : State} (hs : SameMem s0 s) (l payload : Nat) :
    SameMem s0 (s.recvTrain l payload) := by
  unfold State.recvTrain
  try dsimp only
  repeat' first
    | with_reducible assumption
    | with_reducible apply ite_pred
    | with_reducible apply State.count_sameMem
    | with_reducible apply State.setLane_sameMem
    | with_reducible apply State.sendTrain_sameMem
    | with_reducible apply State.ffeDone_sameMem

theorem State.recvP1_sameMem {s0 s : State} (hs : SameMem s0 s) (l payload : Nat) : SameMem s0 (s.recvP1 l payload) := by
  unfold State.recvP1
  dsimp only
  repeat' first
    | with_reducible assumption
    | with_reducible apply ite_pred
    | with_reducible apply State.count_sameMem
    | with_reducible apply State.setLane_sameMem

theorem execVerdict_sameMem {s0 s : State} (t link : Nat) (hs : SameMem s0 s) : SameMemO s0 (execVerdict t link s) := by
  unfold execVerdict
  repeat' first
    | with_reducible assumption
    | with_reducible apply ite_pred
    | with_reducible apply State.at_sameMem
    | with_reducible apply State.sendVerdict_sameMem
    | with_reducible apply sameMemO_next
    | with_reducible exact sameMemO_fault

theorem execAlignSlot_sameMem {s0 s : State} (t b : Nat) (hs : SameMem s0 s) : SameMemO s0 (execAlignSlot t b s) := by
  unfold execAlignSlot
  repeat' first
    | with_reducible assumption
    | with_reducible apply ite_pred
    | with_reducible apply State.at_sameMem
    | with_reducible apply State.alignSlot_sameMem
    | with_reducible apply sameMemO_next
    | with_reducible exact sameMemO_fault

theorem execAlign_sameMem {s0 s : State} (t lane payload : Nat) (hs : SameMem s0 s) :
    SameMemO s0 (execAlign t lane payload s) := by
  unfold execAlign
  repeat' first
    | with_reducible assumption
    | with_reducible apply ite_pred
    | with_reducible apply State.at_sameMem
    | with_reducible apply State.recvAlign_sameMem
    | with_reducible apply sameMemO_next
    | with_reducible exact sameMemO_fault

theorem execCreditRepeat_sameMem {s0 s : State} (t b stream : Nat) (hs : SameMem s0 s) :
    SameMemO s0 (execCreditRepeat t b stream s) := by
  unfold execCreditRepeat
  repeat' first
    | with_reducible assumption
    | with_reducible apply ite_pred
    | with_reducible apply State.at_sameMem
    | with_reducible apply State.repeatCredit_sameMem
    | with_reducible apply sameMemO_next
    | with_reducible exact sameMemO_fault

theorem execTrain_sameMem {s0 s : State} (t lane payload : Nat) (hs : SameMem s0 s) :
    SameMemO s0 (execTrain t lane payload s) := by
  unfold execTrain
  repeat' first
    | with_reducible assumption
    | with_reducible apply ite_pred
    | with_reducible apply State.at_sameMem
    | with_reducible apply State.recvTrain_sameMem
    | with_reducible apply sameMemO_next
    | with_reducible exact sameMemO_fault

theorem execP1_sameMem {s0 s : State} (t lane payload : Nat) (hs : SameMem s0 s) :
    SameMemO s0 (execP1 t lane payload s) := by
  unfold execP1
  repeat' first
    | with_reducible assumption
    | with_reducible apply ite_pred
    | with_reducible apply State.at_sameMem
    | with_reducible apply State.recvP1_sameMem
    | with_reducible apply sameMemO_next
    | with_reducible exact sameMemO_fault

end Sys2Proof.Machine
end

