-- ==== Sys2Proof/Machine/Outputs.lean ====
section
/-!
DEFINITION. What the output balls show (R122, R318, R453, R69): outputs on the I/O high rail are undriven while it is down.
-/

namespace Sys2Proof.Machine

/-- The state of an output ball. -/
inductive Level where
  | undriven | low | high
  deriving DecidableEq, Repr

/-- R122, R453, R84: whether the outputs on the I/O high rail, rail 4, are driven: it has been found good since its enable and is
in no fault, and the device is in BOOT, RUN, TEST or RECOVERY. -/
def State.ioDriven (s : State) : Bool := s.governs && s.railOn 4 && s.power.good.contains 4

/-- A driven output at a level. -/
def State.ball (s : State) (level : Bool) : Level := if s.ioDriven then (if level then .high else .low) else .undriven

/-- R122, R318: TP, whose tripped level is TP_P above TP_N. -/
def State.tripBall (s : State) (i : Nat) : Level := s.ball (s.tripOut i)

/-- R122, R314, R453: MK. -/
def State.markerBall (s : State) (k : Nat) : Level := s.ball (s.marker k).ball

/-- R122, R69: PPS_OUT and SYSREF_OUT_0 to SYSREF_OUT_3. -/
def State.ppsBall (s : State) : Level := s.ball s.ppsOut
def State.sysrefBall (s : State) (n : Nat) : Level := s.ball (s.sysrefOut n)

/-- R69, R122: whether REF_OUT runs: from the later of CLOCKS_TIME applied and the I/O high rail good. -/
def State.refOutRuns (s : State) : Bool := s.ioDriven && s.boot.clocksOn

end Sys2Proof.Machine
end

