-- ==== Sys2Proof/Tests/Slice0.lean ====
section
/-!
SUPPORT. Tests: commands that name a unit which does not exist; the checks of the image on published vectors, and a header; for every
statement with conditions, states and operands that meet them, with units at the ends of their ranges; and the worked example of R443.
-/

namespace Sys2Proof.Tests

open Machine

-- one theorem at a time: their threads together would exceed the memory of a check
set_option Elab.async false

/-! ## Commands that name what does not exist (R27, R397) -/

theorem test_wf_ports : (Instr.peakClear 0 3).wf = false ∧ (Instr.harvest 0 15).wf = false ∧ (Instr.clear 0 32 0).wf = false := by decide

theorem test_wf_rail : (Instr.pmbusAlert 0 10 ⟨true, true, 0, 0, 0⟩ ⟨true, true, 0, 0, 0⟩).wf = false := by decide

theorem test_wf_power : (Instr.thermalShutdown 0 24).wf = false ∧ (Instr.islandFloor 0 0 8 1).wf = false ∧
    (Instr.islandUnlock 0 8).wf = false := by decide

theorem test_wf_sources : (Instr.periodicAnchor 0 194).wf = false ∧ (Instr.edge 0 144 true 0).wf = false ∧
    (Instr.calibrationHit 0 268 0).wf = false ∧ (Instr.calTableBuild 0 159).wf = false ∧
    (Instr.commitApplyEarly 0 160 ⟨0, 0⟩ 0).wf = false := by decide

theorem test_wf_waves : (Instr.ingestStart 0 16).wf = false ∧ (Instr.jesdCrcError 0 32).wf = false := by decide

theorem test_wf_units : (Instr.publish 0 8192).wf = false ∧ (Instr.engineUpdate 0 24).wf = false ∧ (Instr.ready 0 16).wf = false ∧
    (Instr.intervalTimeout 0 0 8).wf = false ∧ (Instr.intervalTimeout 0 16 256).wf = false ∧ (Instr.panRelease 0 0 256).wf = false ∧
    (Instr.presenceWindowEnd 0 256).wf = false := by decide

theorem test_wf_outputs : (Instr.firing 0 32 0).wf = false ∧ (Instr.tripCfg 0 0 16 0).wf = false ∧ (Instr.go 0 0 32).wf = false ∧
    (Instr.attempt 0 64).wf = false ∧ (Instr.laneQuadFault 0 16).wf = false ∧ (Instr.alignSlot 0 16).wf = false := by decide

theorem test_no_unit_faults : exec (.publish 0 8192) State.reset = .fault .noSuchUnit := by rfl

/-! ## The checks of the image (R108) -/

/-- The hash of "abc" (FIPS 180-4, the first example of its test file). -/
theorem test_sha256_abc : fromBe (sha256 [97, 98, 99]) =
    0xba7816bf8f01cfea414140de5dae2223b00361a396177a9cb410ff61f20015ad := by
  decide +kernel

/-- The first test vector of RFC 8032, 7.1: the empty message. -/
theorem test_ed25519 : edVerify
    (toBe 32 0xd75a980182b10ab7d54bfed3c964073a0ee172f3daa62325af021a68f707511a)
    (toBe 64 0xe5564300c360ac729086e2cc806e828a84877f1eb8e5d974d873e065224901555fb8821590a33bacc61e39701cf9b46bd25bf5f0595bbe24655141438e7a100b) [] = true := by
  decide +kernel

/-! ## Bytes of an image -/

/-- Little-endian bytes of a number. -/
def le (n x : Nat) : List Byte := (List.range n).map fun i => BitVec.ofNat 8 (x / 256 ^ i)

/-- The table entry of a mandatory section with a body (R104). -/
def sectionFor (typ offset : Nat) (body : List Byte) : SectionHdr :=
  { typ, mandatory := true, offset, length := body.length, crc := crc32c (body.map (·.toNat))
    digest := (sha256 (body.map (·.toNat))).map (BitVec.ofNat 8) }

theorem sha256_bytes (msg : List Nat) : ((sha256 msg).map (BitVec.ofNat 8)).map (·.toNat) = sha256 msg := by
  have h : ∀ x ∈ sha256 msg, x < 256 := by
    simp only [sha256, Sha.hash, List.mem_flatten, List.mem_map, toBe]
    rintro x ⟨l, ⟨v, -, rfl⟩, hx⟩
    obtain ⟨j, -, rfl⟩ := List.mem_map.1 hx
    exact Nat.mod_lt _ (by decide)
  rw [List.map_map]
  conv => rhs; rw [← List.map_id (sha256 msg)]
  exact List.map_congr_left fun x hx => by simpa using Nat.mod_eq_of_lt (h x hx)

/-- A section whose body is as its entry says passes its verification (R105, R108). -/
theorem sectionFor_good (typ offset : Nat) (body : List Byte) : sectionFault (sectionFor typ offset body) body = none := by
  unfold sectionFault
  rw [if_neg (by simp [sectionFor]), if_neg (by intro h; exact h.2 (sha256_bytes _).symm)]

/-- The body of one entry that writes 0 at address 0. -/
def body0 : List Byte := List.replicate 16 0

theorem fault0 (typ o : Nat) : sectionFault (sectionFor typ o body0) [] = some bSectionCrc := by
  unfold sectionFault
  exact if_pos (.inl (by simp [sectionFor, body0]))

/-- The start of a header with the three sections that every image has (R103, R104, R109). -/
def hdrFront : List Byte :=
  le 4 0x49584C46 ++ le 2 1 ++ le 2 0x0144 ++ le 1 0xC0 ++ le 1 3 ++ le 2 0 ++ le 4 1 ++ le 4 0x2000 ++ le 2 3 ++ le 42 0 ++
    ((List.range 3).map fun i => le 4 (i + 1 + 256) ++ le 4 (0x1000 + 256 * i) ++ le 4 16 ++ le 36 0).flatten

/-- The rest of it up to its CRC. -/
def hdrPad : List Byte := List.replicate 3884 0

/-- The header. -/
def goodHdr : List Byte := hdrFront ++ (hdrPad ++ le 4 (crc32c ((hdrFront ++ hdrPad).map (·.toNat))))

theorem hdrFront_length : hdrFront.length = 208 := by decide +kernel
theorem hdrPad_length : hdrPad.length = 3884 := List.length_replicate

theorem goodHdr_take (off n : Nat) (h : off + n ≤ 208) : (goodHdr.drop off).take n = (hdrFront.drop off).take n := by
  rw [goodHdr, List.drop_append_of_le_length (by rw [hdrFront_length]; omega),
    List.take_append_of_le_length (by rw [List.length_drop, hdrFront_length]; omega)]

theorem goodHdr_num (off n : Nat) (h : off + n ≤ 208) : numAt goodHdr off n = numAt hdrFront off n := by
  simp only [numAt, bytesAt, goodHdr_take off n h]

theorem goodHdr_zero (off n : Nat) (h : 208 ≤ off) (h' : off + n ≤ 4092) : zeroAt goodHdr off n = true := by
  rw [zeroAt, bytesAt, goodHdr, List.drop_append, List.drop_eq_nil_of_le (by rw [hdrFront_length]; exact h), List.nil_append,
    hdrFront_length, List.drop_append_of_le_length (by rw [hdrPad_length]; omega),
    List.take_append_of_le_length (by rw [List.length_drop, hdrPad_length]; omega), List.all_map, List.all_eq_true]
  intro x hx
  rw [List.eq_of_mem_replicate (List.mem_of_mem_drop (List.mem_of_mem_take hx) : x ∈ List.replicate 3884 (0 : Byte))]
  rfl

theorem crcBit_lt (c : Nat) (h : c < 2 ^ 32) : crcBit c < 2 ^ 32 := by
  unfold crcBit
  split
  · exact Nat.xor_lt_two_pow (by omega) (by decide)
  · omega

theorem crc32c_lt (l : List Nat) : crc32c l < 2 ^ 32 := by
  have h : ∀ c, c < 2 ^ 32 → l.foldl crcByte c < 2 ^ 32 := by
    induction l with
    | nil => exact fun c h => h
    | cons b l ih =>
      intro c hc
      refine ih _ ?_
      iterate 8 refine crcBit_lt _ ?_
      exact Nat.xor_lt_two_pow hc (by have := Nat.mod_lt b (show 256 > 0 by decide); omega)
  exact Nat.xor_lt_two_pow (h _ (by decide)) (by decide)

theorem num_le4 (x : Nat) (h : x < 2 ^ 32) : fromLe ((le 4 x).map (·.toNat)) = x := by
  simp [le, fromLe, fromBe, List.range_succ]
  omega

theorem goodHdr_crc : numAt goodHdr 0xFFC 4 = crc32c (bytesAt goodHdr 0 0xFFC) := by
  have hl : (hdrFront ++ hdrPad).length = 4092 := by rw [List.length_append, hdrFront_length, hdrPad_length]
  rw [numAt, bytesAt, bytesAt, goodHdr, ← List.append_assoc, List.drop_append, List.drop_eq_nil_of_le (by omega), hl,
    List.nil_append, List.drop_zero, List.drop_zero, List.take_append_of_le_length (by omega), List.take_of_length_le (by simp [le]),
    List.take_of_length_le (by rw [hl])]
  exact num_le4 _ (crc32c_lt _)

theorem goodHdr_count : hdrCount goodHdr = 3 := by
  rw [hdrCount, goodHdr_num _ _ (by decide)]; decide +kernel

theorem goodHdr_sections : hdrSections goodHdr = (List.range 3).map (sectionAt hdrFront) := by
  rw [hdrSections, goodHdr_count]
  refine List.map_congr_left fun i hi => ?_
  have hi : i < 3 := by simpa using hi
  simp only [sectionAt]
  rw [goodHdr_num _ _ (by omega), goodHdr_num _ _ (by omega), goodHdr_num _ _ (by omega), goodHdr_num _ _ (by omega),
    goodHdr_num _ _ (by omega), goodHdr_take _ _ (by omega)]

theorem goodHdr_length : hdrLength goodHdr = 0x2000 := by
  rw [hdrLength, goodHdr_num _ _ (by decide)]; decide +kernel

theorem goodHdr_start : hdrStart goodHdr = 3 := by
  rw [hdrStart, goodHdr_num _ _ (by decide)]; decide +kernel

theorem goodHdr_form : headerForm goodHdr = true := by
  have hz : ∀ off n, off + n ≤ 208 → zeroAt goodHdr off n = zeroAt hdrFront off n := fun off n h => by
    simp only [zeroAt, bytesAt, goodHdr_take off n h]
  have ht : ((List.range 3).all fun i => decide (numAt goodHdr (0x41 + 48 * i) 1 < 2) && zeroAt goodHdr (0x42 + 48 * i) 2) = true := by
    rw [List.all_eq_true]
    intro i hi
    have hi : i < 3 := by simpa using hi
    rw [goodHdr_num _ _ (by omega), hz _ _ (by omega)]
    match i, hi with
    | 0, _ | 1, _ | 2, _ => decide +kernel
  simp only [headerForm, goodHdr_count, goodHdr_length, Bool.and_eq_true, decide_eq_true_eq]
  rw [ht, goodHdr_num _ _ (by decide), hz _ _ (by decide), hz _ _ (by decide),
    goodHdr_zero _ _ (by decide) (by decide), goodHdr_zero _ _ (by decide) (by decide), goodHdr_zero _ _ (by decide) (by decide)]
  decide +kernel

theorem goodHdr_ok : headerOk goodHdr = true := by
  have hl : goodHdr.length = 4096 := by
    rw [goodHdr, List.length_append, List.length_append, hdrFront_length, hdrPad_length]; rfl
  simp only [headerOk, goodHdr_start, goodHdr_length, goodHdr_form, goodHdr_sections, goodHdr_crc, Bool.and_eq_true, Bool.or_eq_true,
    decide_eq_true_eq, beq_iff_eq]
  rw [hl, goodHdr_num _ _ (by decide), goodHdr_num _ _ (by decide), goodHdr_num _ _ (by decide), goodHdr_num _ _ (by decide)]
  decide +kernel

/-- Without fuses a good header needs no signature (R108). -/
theorem goodHdr_valid (h : fused = false) : headerValid goodHdr = true := by
  simp only [headerValid, goodHdr_ok, signFault, h]; rfl

/-! ## States that meet the conditions of the statements -/

/-- RUN, with the gate of the SPI port open (R414). -/
def runGate : State := { State.reset with dev := .run, ports := [(0, { gate := true })] }

/-- BOOT, in a phase. -/
def booting (b : BootCtl) : State := { State.reset with dev := .boot, boot := b }

theorem runGate_sound : Sound runGate := ⟨rfl, rfl, rfl, rfl⟩

theorem test_StepIdlesOnEmptyQueue_meets : State.reset.pending = [] := rfl

theorem test_StepKeepsSound_meets : Sound { State.reset with pending := [.holdover 0 0 0] } ∧
    step { State.reset with pending := [.holdover 0 0 0] } = .next State.reset := ⟨⟨rfl, rfl, rfl, rfl⟩, rfl⟩

theorem test_CommandsAnswer_meets : (Instr.holdover 0 0 0).wf = true ∧ (Instr.publish 0 8191).wf = true ∧ (Instr.publish 0 8192).wf = false := by
  decide

/-- The rails of an image at their nominal voltages (R110). -/
def goodRails : List Byte := ((List.range 10).map fun j =>
  let v := railNominal j * 4096 / 1000
  le 1 j ++ le 1 (0x20 + j) ++ le 2 0 ++ le 2 v ++ le 2 (v * 106 / 100) ++ le 2 (v * 94 / 100) ++ le 1 0 ++ le 1 (256 - 12) ++ le 4 0).flatten

/-- Pass 1 with a section table. -/
def verifying (b : List SectionHdr) (k : Nat) (second : Bool) : State := booting { phase := 3, secs := b, index := k, second, hdrB := [] }

/-- The first three sections with the right RAILS, and one more. -/
def secs4 (typ : Nat) : List SectionHdr := [sectionFor 1 0x1000 goodRails, sectionFor 2 0x1100 body0, sectionFor 3 0x1200 body0, sectionFor typ 0x1300 body0]

/-- BOOT after pass 1, every rail good. -/
def railsGood : State :=
  (List.range 10).foldl (fun s j => s.put .PWR_RAIL_PG j 1) { booting { phase := 3, pass1 := true, secs := secs4 12 } with
    power := { fet := true, bus := true, enabled := List.range 10 } }

theorem railsGood_boot : railsGood.boot = { phase := 3, pass1 := true, secs := secs4 12 } := rfl

theorem test_BootPassesTakeEffect_meets :
    (Sound (booting { phase := 1 }) ∧ (booting { phase := 1 }).dev = .boot ∧ (25 : Nat) ≤ 25 ∧ 25 < 32) ∧
    ((booting { phase := 2 }).get .BOOT_CFG_FORCE = 0 ∧ slotChoice 0 [] [] = none ∧
      (fused = false → slotChoice 0 goodHdr [] = some (0, goodHdr) ∧ headerValid goodHdr = true)) ∧
    ((verifying (secs4 12) 0 false).boot.secs[0]? = some (sectionFor 1 0x1000 goodRails) ∧
      sectionFault (sectionFor 1 0x1000 goodRails) goodRails = none ∧ badRails goodRails = none ∧ badRails body0 ≠ none ∧
      sectionFault (sectionFor 1 0x1000 body0) body0 = none ∧
      (verifying (secs4 12) 3 false).boot.secs[3]? = some (sectionFor 12 0x1300 body0) ∧ sectionFault (sectionFor 12 0x1300 body0) body0 = none ∧
      sectionFault (sectionFor 1 0x1000 body0) [] = some 6 ∧ (verifying (secs4 12) 3 true).boot.second = true) ∧
    (Sound railsGood ∧ (∀ j, j < 10 → (railsGood.at 0).railOn j = true ∧ railsGood.get .PWR_RAIL_PG j = 1) ∧
      railsGood.boot.secs[3]? = some (sectionFor 12 0x1300 body0) ∧ sectionFault (sectionFor 12 0x1300 body0) [] ≠ none) := by
  refine ⟨⟨⟨rfl, rfl, rfl, rfl⟩, rfl, by decide, by decide⟩, ⟨rfl, rfl, fun h => ⟨?_, goodHdr_valid h⟩⟩,
    ⟨rfl, sectionFor_good .., by decide +kernel, by decide +kernel, sectionFor_good .., rfl, sectionFor_good .., fault0 .., rfl⟩,
    ⟨⟨by decide +kernel, by decide +kernel, rfl, by decide +kernel⟩, ?_, rfl, by rw [fault0]; simp⟩⟩
  · rw [slotChoice, if_neg (by decide), if_neg (by decide), goodHdr_valid h]; rfl
  · decide +kernel

/-- BOOT in pass 2, at the first entry of a section with this body. -/
def inSection (typ : Nat) (body : List Byte) (polling : Option Nat := none) : State :=
  booting { phase := 4, secs := [sectionFor 1 0 body0, sectionFor 2 0 body0, sectionFor 3 0 body0, sectionFor typ 0 body], index := 3, section_ := 3,
            pass1 := true, body, polling }

/-- An entry of OP with an address, a value, a mask and a time-out. -/
def entryBytes (a v mask op timeout : Nat) : List Byte := le 4 a ++ le 4 v ++ le 4 mask ++ le 2 op ++ le 2 timeout

/-- A list block of 16 bytes at the lowest address of the pool. -/
def listBody (a : Nat) : List Byte := le 8 a ++ le 4 16 ++ le 4 0 ++ le 16 7

/-- The threshold register of TC143. -/
def thr : Nat := Reg.addr .TCH_THRESH 143

/-- A register that the spec does not have. -/
def noReg : Nat := 0x0FFFFFFC

theorem test_ImageEntriesTakeEffect_meets :
    (let s := inSection 12 (entryBytes thr 5 0 0 0);
      (s.at 0).dueEntry = some (12, entryAt s.boot.body 0) ∧ s.boot.clocks = none ∧ badEntry 12 (entryAt s.boot.body 0) = false ∧
        (entryAt s.boot.body 0).op = 0 ∧ (∃ x : State, (s.at 0).writeAccess 2 thr 5 = (({}, x) : Reply × State) ∧ x.dev = .boot)) ∧
    (let s := inSection 12 (entryBytes noReg 5 0 0 0);
      (s.at 0).dueEntry = some (12, entryAt s.boot.body 0) ∧ badEntry 12 (entryAt s.boot.body 0) = false ∧
        ((s.at 0).writeAccess 2 noReg 5).1.err ≠ 0 ∧ ((s.at 0).writeAccess 2 noReg 5).2.dev = .boot) ∧
    (let s := inSection 5 (entryBytes thr 5 5 1 0);
      (s.at 0).dueEntry = some (5, entryAt s.boot.body 0) ∧ badEntry 5 (entryAt s.boot.body 0) = false ∧ (entryAt s.boot.body 0).op = 1 ∧
        ((s.at 0).readAccess 2 thr 4).1.err = 0 ∧ (∃ y : State, ((s.at 0).readAccess 2 thr 4).2.writeAccess 2 thr
          ((((s.at 0).readAccess 2 thr 4).1.data - (((s.at 0).readAccess 2 thr 4).1.data &&& 5)) ||| (5 &&& 5)) = (({}, y) : Reply × State) ∧ y.dev = .boot)) ∧
    (let s := inSection 5 (entryBytes thr 0 0 2 65535);
      (s.at 0).dueEntry = some (5, entryAt s.boot.body 0) ∧ badEntry 5 (entryAt s.boot.body 0) = false ∧ (entryAt s.boot.body 0).op = 2 ∧
        ((s.at 0).readAccess 2 thr 4).1.err = 0 ∧ ((s.at 0).readAccess 2 thr 4).1.data &&& 0 = 0 ∧
        ((s.at 0).readAccess 2 thr 4).1.data &&& 0 ≠ 1 ∧ ((s.at 0).readAccess 2 thr 4).2.now ≤ (s.at 0).now + 65535 * qUs) ∧
    (let s := inSection 5 (entryBytes thr 0 0 2 1) (some 0);
      s.boot.polling = some 0 ∧ 0 + 1 * qUs ≤ (s.at qUs).now) ∧
    (let s := inSection 12 (entryBytes 0 0 0 3 65535);
      (s.at 0).dueEntry = some (12, entryAt s.boot.body 0) ∧ badEntry 12 (entryAt s.boot.body 0) = false ∧ (entryAt s.boot.body 0).op = 3) ∧
    (let s := inSection 4 (entryBytes thr 0 0 255 0);
      (s.at 0).dueEntry = some (4, entryAt s.boot.body 0) ∧ badEntry 4 (entryAt s.boot.body 0) = true ∧
        s.boot.secs[3]? = some (sectionFor 4 0 s.boot.body)) ∧
    (let s := inSection 11 (listBody poolBase);
      (s.at 0).dueSection = some (sectionFor 11 0 s.boot.body) ∧ (s.at 0).listHead = (poolBase, 16, true)) ∧
    (let s := inSection 11 (listBody (listTop - 8));
      (s.at 0).dueSection = some (sectionFor 11 0 s.boot.body) ∧ (s.at 0).listHead = (listTop - 8, 16, false)) := by
  refine ⟨⟨?_, rfl, ?_, ?_, _, Prod.ext (by decide +kernel) rfl, ?_⟩, ⟨?_, ?_, ?_, ?_⟩, ⟨?_, ?_, ?_, ?_, _, Prod.ext (by decide +kernel) rfl, ?_⟩,
    ⟨?_, ?_, ?_, ?_, ?_, ?_, ?_⟩, ⟨rfl, ?_⟩, ⟨?_, ?_, ?_⟩, ⟨?_, ?_, rfl⟩, ⟨rfl, ?_⟩, ⟨rfl, ?_⟩⟩ <;> first | rfl | decide +kernel

/-- OFF without and with VIN above the lockout. -/
def offAt (vin : Bool) : State := { dev := .off, power := { vin } }

theorem test_PowerEntryTakesEffect_meets :
    ((offAt false).dev = .off ∧ (offAt false).power.vin = false) ∧
    ((offAt true).dev = .off ∧ (offAt true).power.vinAt + 8 * qMs ≤ max (offAt true).now (8 * qMs)) ∧
    State.reset.dev ≠ .off ∧ State.reset.get .HVS_STATUS_LOW = 0 ∧ (State.reset.put .HVS_STATUS_LOW 0 1).get .HVS_STATUS_LOW = 1 := by
  decide +kernel

/-- RUN with the FET on. -/
def fetOnS : State := { runGate with power := { fet := true } }

theorem test_ProtectiveEntriesTakeEffect_meets :
    fetOnS.logicState = true ∧ fetOnS.power.above = false ∧ fetOnS.power.vin = true ∧ (fetOnS.at 0).fetOn = true ∧
    fetOnS.get .HVS_CFG_ILIM * 50 ≤ 2 ^ 20 ∧ 0 + fetOnS.get .HVS_CFG_FAULT_MS * qMs ≤ max fetOnS.now (2 ^ 90) ∧
    3 * (fetOnS.get .HVS_CFG_ILIM * 50) ≤ 2 ^ 20 ∧ fetOnS.gov.valid.getD 23 false = true := by
  decide +kernel

theorem test_ReturnsTakeEffect_meets :
    (State.reset.dev = .aux ∧ State.reset.vinValid = true ∧ State.reset.power.vinAt + 10 * qMs ≤ max State.reset.now (10 * qMs) ∧
      State.reset.power.thermal = false ∧ State.reset.power.protect = false ∧ State.reset.get .BOOT_STATUS_LOCKOUT = 0 ∧
      State.reset.power.reboot = false) ∧
    (∃ s : State, s.gov.cool = some 0 ∧ 0 + 10 * qSec ≤ max s.now (10 * qSec) ∧ s.dev = .aux ∧ s.power.thermal = true ∧
      s.power.protect = false ∧ s.vinValid = true ∧ s.get .BOOT_STATUS_LOCKOUT = 0 ∧ s.power.heat.length < 3) ∧
    (∃ s : State, s.dev = .aux ∧ s.power.protect = true ∧ s.vinValid = true ∧ s.get .BOOT_STATUS_LOCKOUT = 0 ∧
      s.power.fetOffAt = none ∧ s.power.latched = false ∧ s.power.downAt = none) ∧
    (∃ s : State, s.power.fetOffAt = some 0 ∧ 0 + qSec ≤ max s.now qSec ∧ s.vinValid = true ∧ s.power.beat = true) :=
  ⟨by decide +kernel,
    ⟨{ State.reset with gov := { cool := some 0 }, power := { thermal := true, heat := [0, 0] } }, by decide +kernel⟩,
    ⟨{ State.reset with power := { protect := true } }, by decide +kernel⟩,
    ⟨{ State.reset with power := { fetOffAt := some 0 } }, by decide +kernel⟩⟩

theorem test_PowerHostCommandsTakeEffect_meets :
    takesWrite (runGate.at 0) 0 .HVS_CMD 0 2 ∧ takesWrite (runGate.at 0) 0 .HVS_CMD 0 1 ∧ takesWrite (runGate.at 0) 0 .PWR_CMD 0 1 ∧
    (takesWrite ({ runGate with dev := .hold }.at 0) 0 .BOOT_CMD 0 1) ∧
    (takesWrite (({ runGate with dev := .aux }.put .BOOT_STATUS_LOCKOUT 0 1).at 0) 0 .BOOT_CMD 0 1 ∧ runGate.vinValid = true ∧ runGate.allBelow 100 = true) ∧
    takesWrite (runGate.at 0) 0 .PWR_ISLAND 7 (3 + runGate.get .PWR_ISLAND_HOLD_MS 7 % 65536 * 256) := by
  unfold takesWrite; decide +kernel

/-- A regulator's answer. -/
def answer (status : Nat) (ack : Bool) : PmbReply := { ack, pec := false, mv := 0, status, ma := 0 }

theorem test_RailsAndTelemetryTakeEffect_meets :
    (State.reset.power.vin = true ∧ State.reset.dev ≠ .off ∧ State.reset.power.reboot = false) ∧
    (∃ s : State, Sound s ∧ s.dev = .boot ∧ s.power.fet = true ∧ s.power.bus = false ∧ s.power.t0 + 70 * qMs ≤ max s.now (70 * qMs) ∧
      s.out95 48000 ≤ max s.now (70 * qMs)) ∧
    (∃ s : State, Sound s ∧ s.power.seq.find? (fun x => decide (x.2 ≤ max s.now 0)) = some (9, 0) ∧ (s.at 0).busOn = true ∧
      (s.dev = .boot → s.boot.rails ≠ [])) ∧
    (∃ s : State, Sound s ∧ (s.at 0).railWatched 9 = true ∧ (s.at 0).railWatched 1 = true ∧ s.dev ≠ .boot ∧
      (s.at 0).pmbAnswer 9 (answer 0 false, answer 0 false) = none ∧
      (s.at 0).pmbAnswer 9 (answer 0 false, answer 32 true) = some (answer 32 true) ∧ statusCause 32 ≠ 0 ∧
      (s.at 0).pmbAnswer 9 (answer 0 true, answer 0 false) = some (answer 0 true) ∧ statusCause 0 = 0) ∧
    (∃ s : State, Sound s ∧ (s.at 0).railWatched 9 = true ∧ s.dev = .boot) :=
  ⟨by decide, ⟨{ booting {} with power := { fet := true } }, ⟨rfl, rfl, rfl, rfl⟩, by decide +kernel⟩,
    ⟨{ booting { phase := 3, rails := (List.range 10).map (railAt goodRails) } with power := { bus := true, seq := [(9, 0)] } },
      ⟨rfl, rfl, rfl, rfl⟩, by decide +kernel⟩,
    ⟨{ runGate with power := { enabled := [1, 9] } }, ⟨rfl, rfl, rfl, rfl⟩, by decide +kernel⟩,
    ⟨{ booting {} with power := { enabled := [1, 9] } }, ⟨rfl, rfl, rfl, rfl⟩, by decide +kernel⟩⟩

theorem test_GovernorTickTakesEffect_meets :
    (State.reset.dev = .aux ∧ State.reset.gov.valid.getD 23 false = true) ∧ (offAt true).dev = .off ∧
    (({ runGate with gov := { costs := true } }).governs = true ∧ (960 : Int) ≤ [960].getD 0 0) ∧
    ((({ runGate with gov := { costs := true } } : State).at 0).senseTick (List.replicate 24 400)).overheated.1 = none ∧
    ((booting {}).governs = true ∧ (booting {}).boot.clocks = none ∧ (booting {}).boot.cost = none) := by
  decide +kernel

/-- An island. -/
def withIsland (i : Island) (p : Power := { fet := true, bus := true, enabled := List.range 10, good := List.range 10 }) : State :=
  { runGate with islands := [(7, i)], power := p }

theorem test_IslandEventsTakeEffect_meets :
    (∃ i : Island, ∃ t, i.wakeAt = some 0 ∧ 0 + wakeTime i.state ≤ max (withIsland i).now t ∧ i.state ≤ 1 ∧
      (withIsland i).power.feDown = false ∧ (withIsland i).dieUp = true ∧ (withIsland i).island 7 = i) ∧
    (∃ i : Island, i.target = some 1 ∧ i.forced = false ∧ (withIsland i).islandEmpty 7 = true ∧ (withIsland i).islandArmed 7 = false ∧
      i.state ≤ 1 ∧ i.unlock = false ∧ (withIsland i).island 7 = i) ∧
    (∃ s : State, (s.island 7).target = some 2 ∧ (s.island 7).forced = false ∧ s.islandEmpty 7 = true ∧ s.islandArmed 7 = true) ∧
    (∃ i : Island, i.target = some 3 ∧ i.forced = true ∧ (withIsland i).islandEmpty 7 = true ∧ (withIsland i).island 7 = i ∧
      (((withIsland i).at 0).lowerIsland 7 3).power.feDown = false) ∧
    (∃ i : Island, i.target = some 3 ∧ i.forced = true ∧ (withIsland i { feDown := true }).islandEmpty 7 = true ∧
      (((withIsland i { feDown := true }).at 0).lowerIsland 7 3).power.feDown = true) ∧
    (∃ i : Island, i.unlock = true ∧ (withIsland i).island 7 = i) :=
  ⟨⟨{ state := 1, wakeAt := some 0 }, qSec, by decide +kernel⟩, ⟨{ state := 0, target := some 1 }, by decide +kernel⟩,
    ⟨{ withIsland { state := 0, target := some 2 } with chans := [(143, { armed := true })] }, by decide +kernel⟩,
    ⟨{ state := 0, target := some 3, forced := true }, by decide +kernel⟩,
    ⟨{ state := 0, target := some 3, forced := true }, by decide +kernel⟩,
    ⟨{ state := 0, unlock := true }, by decide +kernel⟩⟩

theorem test_RestorationEventsTakeEffect_meets :
    (Sound runGate ∧ runGate.governs = true ∧ runGate.time.halted = false ∧ runGate.dev = .run ∧ (runGate.rest kIs8).declared = none) ∧
    (∃ s : State, s.governs = true ∧ s.time.halted = true) ∧ State.reset.governs = false ∧
    (∀ k ∈ [kIs8, kSluice, kHbm, kLanes, kIngest], ∃ s : State, Sound s ∧ s.time.halted = false ∧ s.slu.halted = false ∧ s.hbm.trained = true ∧
      (s.rest k).declared.isSome = true ∧ (s.rest k).second.isSome = true ∧ s.dev = .recovery ∧ s.prev ≠ .recovery ∧
      (∀ j, j < 5 → j ≠ k → (s.rest j).declared = none) ∧ ((List.range 32).any fun x => (s.slot x).failed) = false) ∧
    (∃ s : State, s.time.halted = true ∧ (s.rest kIs8).second.isSome = true) ∧
    (∃ s : State, Sound s ∧ (s.at (100 * qSec)).restoreLate kIngest = true ∧ (s.rest kIngest).fails = 2 ∧ s.dev = .recovery) ∧
    (∃ s : State, Sound s ∧ (s.at (100 * qSec)).restoreLate kIngest = true ∧ (s.rest kIngest).fails = 1) ∧
    runGate.restoreLate kIngest = false ∧
    (∃ s : State, (s.rest kIs8).ended = some 0 ∧ 0 + qSec ≤ max s.now qSec ∧ (s.rest kIs8).declared = none) := by
  refine ⟨⟨runGate_sound, by decide +kernel⟩, ⟨{ runGate with time := { halted := true } }, by decide +kernel⟩, by decide +kernel, ?_,
    ⟨{ time := { halted := true }, restore := [(kIs8, { second := some 0 })] }, by decide +kernel⟩,
    ⟨{ State.reset with dev := .recovery, restore := [(kIngest, { declared := some 0, began := some 0, second := some 0, fails := 2 })] },
      ⟨rfl, rfl, rfl, rfl⟩, by decide +kernel⟩,
    ⟨{ State.reset with dev := .recovery, restore := [(kIngest, { declared := some 0, began := some 0, second := some 0, fails := 1 })] },
      ⟨rfl, rfl, rfl, rfl⟩, by decide +kernel⟩, by decide +kernel,
    ⟨{ restore := [(kIs8, { ended := some 0 })] }, by decide +kernel⟩⟩
  intro k hk
  refine ⟨{ State.reset with dev := .recovery, prev := .run, hbm := { trained := true },
                             restore := [(k, { declared := some 0, began := some 0, second := some 0 })] }, ?_⟩
  simp only [List.mem_cons, List.not_mem_nil, or_false] at hk
  rcases hk with rfl | rfl | rfl | rfl | rfl <;> exact ⟨⟨rfl, rfl, rfl, rfl⟩, by decide +kernel⟩

/-- RUN with a time base, 1 s after the device origin. -/
def timed (x : TimeBase) : State := { runGate with now := tSec * qTick, time := x }

theorem test_TimeBaseEventsTakeEffect_meets :
    (((timed { acquire := some 0 }).at 0).time.acquire = some 0 ∧ ((timed { acquire := some 0 }).at 0).time.refLock = false ∧
      0 + 100 * qMs ≤ ((timed { acquire := some 0 }).at 0).now ∧
      acceptedHz (((timed { acquire := some 0 }).at 0).get .TB_REF_CFG_FREQ) 10001000 = some 10000000 ∧
      acceptedHz (((timed { acquire := some 0 }).at 0).get .TB_REF_CFG_FREQ) 99990000 = some 100000000 ∧
      (timed { acquire := some 0 }).time.holdover = false ∧
      (timed { acquire := some 0, holdover := true, valid := true }).time.holdover = true ∧
      (timed { refLock := true, refHz := 10000000 }).time.refLock = true ∧ within100 10001001 10000000 = false) ∧
    ((timed {}).time.halted = false ∧ (true != ((timed {}).at 0).flag .TB_PPS_CFG_EDGE) = true ∧ (false != ((timed {}).at 0).flag .TB_PPS_CFG_EDGE) = false ∧
      (((timed { lockAt := some 0 }).put .TB_PPS_CFG_MODE 0 1).at 0).alignsFirst = true ∧ ((timed { valid := true }).at 0).alignsFirst = false ∧
      ((timed { valid := true, realign := some (tSec * qTick) }).at 0).realigns ≠ none ∧ ((timed { valid := true }).at 0).realigns = none) ∧
    (let u := (timed { valid := true, checks := true }).at (2 * tSec * qTick);
      u.time.ppsSec < (u.recTick srcPps - 5242880000) / (tSec : Int) ∧ u.time.ppsMiss < (u.recTick srcPps - 5242880000) / (tSec : Int)) ∧
    (((timed { lockAt := some 0 }).put .TB_PPS_CFG_MODE 0 1).get .TB_PPS_CFG_MODE = 1 ∧
      0 + ((timed { lockAt := some 0 }).put .TB_PPS_CFG_MODE 0 1).get .TB_PPS_CFG_WAIT * qSec ≤ 2 ^ 80) ∧
    ((timed { realign := some 0 }).time.realign = some 0 ∧
      0 + (timed { realign := some 0 }).get .TB_PPS_CFG_WAIT * qSec ≤ ((timed { realign := some 0 }).at (2 ^ 80)).now) := by
  decide +kernel

theorem test_TimeBaseHostCommandsTakeEffect_meets :
    takesWrite ((timed { valid := true, refLock := true, aligned := true }).at 0) 0 .TB_CMD 0 1 ∧
    takesWrite ((timed { valid := true }).at 0) 0 .TB_CMD 0 2 ∧ takesWrite ((timed {}).at 0) 0 .TB_CMD 0 2 ∧
    (takesPair ((timed { valid := true }).at 0) 0 .TB_LEAP 0 (2 + 1 * 2 ^ 32) ∧ secOf ((timed { valid := true }).at 0).tick ≤ 2) ∧
    takesWrite (((timed {}).put .TB_SYSREF_MODE 0 2).at 0) 0 .TB_CMD 0 4 ∧
    takesWrite ((timed { valid := true }).at 0) 0 .TB_FRAME_COMMIT 0 1 := by
  unfold takesPair takesWrite; decide +kernel

theorem test_BoundariesTakeEffect_meets :
    ((timed { valid := true, second := 0 }).time.second < ((timed { valid := true, second := 0 }).at 0).tick / (tSec : Int) ∧
      ((timed { valid := true, second := 0, frameCom := some 0 }).at 0).armedContexts = [] ∧
      0 < ((timed { valid := true, frameCom := some 0 }).at 0).instOf (1 * tSec) ∧
      ((timed { valid := true }).at 0).instOf (1 * tSec) ≤ tSec * qTick) ∧
    ((timed { valid := true, frame := 0 }).time.frame < ((timed { valid := true, frame := 0 }).at 0).tick /
      (((timed { valid := true, frame := 0 }).at 0).frameTicks : Int) * ((timed { valid := true, frame := 0 }).at 0).frameTicks) ∧
    (let u := ((timed { valid := true, sysref := 0 }).put .TB_SYSREF_MODE 0 1).at 0;
      u.get .TB_SYSREF_MODE = 1 ∧ 0 < (u.get .TB_SYSREF_PERIOD : Int) * tPer ∧ u.sysrefNext (u.sysrefSkew 0) ≠ none ∧
        u.time.sysref < (u.tick - u.sysrefSkew 0) / ((u.get .TB_SYSREF_PERIOD : Int) * tPer) * ((u.get .TB_SYSREF_PERIOD : Int) * tPer) ∧
        u.time.validAt ≤ (u.tick - u.sysrefSkew 0) / ((u.get .TB_SYSREF_PERIOD : Int) * tPer) * ((u.get .TB_SYSREF_PERIOD : Int) * tPer) ∧
        (u.src srcSysref).taking = false) := by
  decide +kernel

/-- One source, 2 s after the origin. -/
def withSrc (k : Nat) (r : Source) : State := { timed { valid := true } with now := 2 * tSec * qTick, sources := [(k, r)] }

/-- An overflow episode of the buffer. -/
def bufferEp : Episode := { active := [4], causes := [4] }

theorem test_AnchorEventsTakeEffect_meets :
    (let u := ({ withSrc 193 { taking := true } with now := (2 ^ 39 + 2 ^ 30) * qTick } : State).at 0;
      Sound { withSrc 193 { taking := true } with now := (2 ^ 39 + 2 ^ 30) * qTick } ∧ (u.src 193).due = [] ∧ (u.src 193).room 2 = true ∧
      min (lastPeriodic (u.src 193).gov + tSec) ((u.src 193).gov + 2 ^ 39) ≤ u.sureTick 193 ∧
      min (lastPeriodic (u.src 193).gov + tSec) ((u.src 193).gov + 2 ^ 39) = (2 ^ 39 : Int) ∧ u.sureTick 193 < 2 ^ 39 + 2 ^ 39) ∧
    (let u := ({ withSrc 193 { taking := true, gov := tSec / 2 - 2048 } with now := (tSec / 2 + 2 ^ 30) * qTick } : State).at 0;
      min (lastPeriodic (u.src 193).gov + tSec) ((u.src 193).gov + 2 ^ 39) = (tSec / 2 : Nat) ∧ (tSec / 2 : Nat) ≤ u.sureTick 193 ∧
        u.sureTick 193 < (tSec / 2 : Nat) + 2 ^ 39) ∧
    ((withSrc 193 {}).src 193).taking = false ∧ ((withSrc 193 { taking := true, ovf := some bufferEp }).src 193).ovf ≠ none ∧
    bufferEp.active.contains fullCause = true ∧ ((withSrc 193 { taking := true, ovf := some bufferEp }).src 193).level ≤ 3072 ∧
    bufferEp.active.filter (· ≠ fullCause) = [] ∧ ([0, 4].filter (· ≠ fullCause) ≠ []) ∧
    (let u := (withSrc 193 { taking := true, ovf := some bufferEp }).at 0;
      ceilCoarse (max (u.recTick 193) ((u.src 193).lastAt + 1)) = u.sureTick 193) ∧
    (let u := ({ withSrc 193 { taking := true, ovf := some bufferEp } with now := 2 * tSec * qTick + qTick }).at 0;
      u.sureTick 193 < ceilCoarse (max (u.recTick 193) ((u.src 193).lastAt + 1))) ∧
    (let u := (withSrc 159 { taking := true, ovf := some bufferEp }).at 0;
      ceilCoarse (u.src 159).sure = u.sureTick 159) :=
  ⟨⟨⟨rfl, rfl, rfl, rfl⟩, by decide +kernel⟩, by decide +kernel, by decide +kernel, by decide +kernel, by decide +kernel, by decide +kernel,
    by decide +kernel, by decide +kernel, by decide +kernel, by decide +kernel, by decide +kernel⟩

/-- One source, with the fabric clock running (R26, R32). -/
def fabSrc (k : Nat) (r : Source) : State := { withSrc k r with quads := [(15, { pwr := 0, pll := true })] }

/-- A word of TC0 before a survey unit that stores it and whose write queue is full. -/
def fullQueue : State :=
  ({ fabSrc 0 { buf := [{ item := .anchor 0 0 0 0, time := 0 }] } with
    acqs := [(15, { armed := true, state := 3, queued := 2048 })]
    share := { survey := surveyGrants (2 * tSec * qTick) } } : State).put .AQ_SRC_ENABLE (srcKey 15 31) 1

theorem test_FabricEventsTakeEffect_meets :
    (∃ s : State, (s.at 0).fabricRuns = false ∧ 0 < numSources) ∧
    (∃ s : State, (s.at 0).fabricRuns = true ∧
      (((s.at 0).drainQueues.flush 193).src 193).old ++ (((s.at 0).drainQueues.flush 193).src 193).buf = []) ∧
    (∀ i ∈ [Item.edge ⟨193, true, 0, false, false, false, false, false, 0, 0⟩, .overflow 193 0 4 1, .anchor 193 0 0 0, .settle 193 0 3 0,
        .rejoin 193 0 0 0 1],
      ∃ s : State, ∃ e, (s.at 0).fabricRuns = true ∧ (((s.at 0).drainQueues.flush 193).src 193).old ++
        (((s.at 0).drainQueues.flush 193).src 193).buf = [e] ∧ e.item = i ∧ ((s.at 0).drainQueues.flush 193).accepts 193 e.item.len = true) ∧
    (∃ s : State, ∃ e, (s.at 0).fabricRuns = true ∧ e.stored = true ∧ (((s.at 0).drainQueues.flush 0).src 0).old ++
      (((s.at 0).drainQueues.flush 0).src 0).buf = [e] ∧ ((s.at 0).drainQueues.flush 0).accepts 0 e.item.len = false) ∧
    (∃ s : State, ∃ e, (s.at 0).fabricRuns = true ∧ (s.src 0).tap = [e] ∧ e.brk = false) := by
  refine ⟨⟨timed { halted := true }, by decide +kernel⟩, ⟨fabSrc 193 {}, by decide +kernel⟩, fun i hi => ?_, ?_, ?_⟩
  · refine ⟨fabSrc 193 { buf := [{ item := i, time := 0 }] }, { item := i, time := 0 }, ?_⟩
    simp only [List.mem_cons, List.not_mem_nil, or_false] at hi
    rcases hi with rfl | rfl | rfl | rfl | rfl <;> decide +kernel
  · exact ⟨fullQueue, { item := .anchor 0 0 0 0, time := 0 }, by decide +kernel⟩
  · exact ⟨fabSrc 0 { tap := [⟨true, 0, false, 0, false, false⟩] }, ⟨true, 0, false, 0, false, false⟩, by decide +kernel⟩

/-- RUN with rails, the island of TC143 in ON and a timing channel 143. -/
def withChan (c : Chan) (r : Source := {}) : State :=
  { withSrc 143 r with islands := [(7, { state := 0 })], chans := [(143, c)],
                       power := { fet := true, bus := true, enabled := List.range 10, good := List.range 10 } }

/-- The state in which the start of a channel finds its first level. -/
def started (s : State) : State :=
  ((s.at 0).setChan 143 { s.chan 143 with startAt := none, level := false, known := false, edgeAt := none, chgAt := none }).startTaking 143
    (ceilCoarse ((s.at 0).recTick 143))

/-- 2 V, and -2 V, at the P ball. -/
def high : Input := ⟨2000000000, 0⟩
def low : Input := ⟨-2000000000, 0⟩

theorem test_ChannelEventsTakeEffect_meets :
    (let s := withChan { armed := true, startAt := some 0 };
      (s.at 0).flush 143 = s.at 0 ∧ (s.chan 143).startAt = some 0 ∧ (s.src 143).taking = false ∧ 0 ≤ (s.at 0).now ∧
      (s.at 0).time.valid = true ∧ (s.at 0).startsHeld = false ∧ (s.island (islandOf 143)).state = 0 ∧
      (s.island (islandOf 143)).unlock = false ∧ (s.at 0).dieUp = true ∧ (s.src 143).owed = [] ∧ (s.src 143).room 2 = true ∧
      (s.chan 143).thsFrom = none ∧ ((started s).be ((started s).beOf 143)).fault = none ∧ (started s).beRuns 143 = true ∧
      (started s).aboveUpper 143 high = true ∧ (started s).belowLower 143 low = true ∧ (started s).aboveUpper 143 low = false ∧
      ((started s).aboveUpper 143 ⟨0, 0⟩ = false ∧ (started s).belowLower 143 ⟨0, 0⟩ = false ∨
        (started s).aboveUpper 143 ⟨1, 0⟩ = false ∧ (started s).belowLower 143 ⟨1, 0⟩ = false)) ∧
    (let s := withChan { armed := true, startAt := some 0, thsFrom := some 0 };
      (started s).settleTime 143 0 ≤ ceilCoarse ((s.at 0).recTick 143)) ∧
    (let s := withChan { armed := true, startAt := some 0, thsFrom := some (2 * tSec * qTick) };
      ceilCoarse ((s.at 0).recTick 143) < (started s).settleTime 143 (2 * tSec * qTick)) ∧
    (let s := withChan { armed := true } { taking := true, gov := 2 * tSec - 4096 };
      ((s.at 0).flush 143).compRuns 143 = true ∧ ((s.at 0).flush 143).spaced 143 = true ∧ ((s.at 0).flush 143).beRuns 143 = true ∧
        (((s.at 0).flush 143).chan 143).level = false ∧ (((s.at 0).flush 143).chan 143).known = false) ∧
    ((withChan {}).compRuns 143 = false) ∧
    (let s := ({ withChan { armed := true } { taking := true, gov := 2 * tSec - 4096 } with islands := [(7, { state := 0, unlock := true })] } : State);
      ((s.at 0).flush 143).compRuns 143 = true ∧ ((s.at 0).flush 143).beRuns 143 = false) := by
  decide +kernel

/-- 512 hits in every bin of the four interpolators. -/
def evenHits (a : Nat) : Nat → SMap Nat
  | 0 => []
  | n + 1 => (a, 512) :: evenHits (a + 1) n

theorem evenHits_get (n : Nat) : ∀ a k, a ≤ k → k < a + n → SMap.get (fun _ => 0) (evenHits a n) k = 512 := by
  induction n with
  | zero => intro a k h1 h2; omega
  | succ n ih =>
    intro a k h1 h2
    simp only [evenHits, SMap.get]
    by_cases h : k = a
    · simp [h]
    · simp only [h, if_false, show ¬ k < a by omega]
      exact ih _ _ (by omega) (by omega)

theorem evenHits_accepted (cal : Nat) : ({ hits := evenHits 0 8192 } : BackEnd).accepts cal = true := by
  have h : ∀ i < 4, ∀ c < 2048, hitsOf (evenHits 0 8192) i c = 512 := fun i hi c hc => evenHits_get _ _ _ (by omega) (by omega)
  simp only [BackEnd.accepts, allBins, List.all_eq_true, List.mem_range, decide_eq_true_eq, Bool.and_eq_true, Bool.and_true]
  refine ⟨fun i hi => ?_, fun i hi c hc => by rw [h i hi c hc]; decide⟩
  have : (List.range 2048).filter (fun c => hitsOf (evenHits 0 8192) i c == 0) = [] := by
    simp only [List.filter_eq_nil_iff, List.mem_range]
    intro c hc; rw [h i hi c hc]; decide
  rw [this]; decide

/-- A round with all its hits in one bin of each interpolator. -/
def lumpHits : SMap Nat := [(0, 2 ^ 20), (2048, 2 ^ 20), (4096, 2 ^ 20), (6144, 2 ^ 20)]

theorem test_CalibrationEventsTakeEffect_meets :
    (isBackEnd 267 = true ∧ ((withChan {}).be 143).powered = true ∧ ((withChan {}).be 143).fault = none ∧
      ((withChan {}).at 0).hitsFire 143 = true ∧ (∀ x ∈ ((withChan {}).be 143).lastHit, x + 420 * 16384 ≤ (withChan {}).now ∨ x = 0)) ∧
    (({ hits := evenHits 0 8192 } : BackEnd).accepts 2 = true ∧ ∀ i < 4, 2 ^ 20 ≤ hitTotal (evenHits 0 8192) i) ∧
    (({ hits := lumpHits, fails := 1 } : BackEnd).accepts 2 = false ∧ (1 + 1) % 3 ≠ 0 ∧ (∀ i < 4, 2 ^ 20 ≤ hitTotal lumpHits i)) ∧
    (2 + 1) % 3 = 0 ∧ runGate.beChannel 143 = some 143 ∧ runGate.spareUser (267 - 256) = none ∧
    (({ runGate with chans := [(143, { sub := 1 })] } : State).spareUser (267 - 256) = some 143) :=
  ⟨by decide +kernel, ⟨evenHits_accepted _, by decide +kernel⟩, ⟨by decide +kernel, by decide, by decide +kernel⟩, by decide +kernel⟩

theorem test_FrontEndEventsTakeEffect_meets :
    (((timed {}).at 0).time.valid = false ∧ 0 + qUs ≤ ((timed {}).at 0).now) ∧
    (let s := withChan { armed := true } { taking := true, start := 0, gov := 2 * tSec - 4096, due := [{ at_ := 2 * tSec - 2048, word := .anchor 6 }] };
      Sound s ∧ (2 * tSec - 2048 : Int) ≤ (s.at 0).sureTick 143 ∧ (s.src 143).ovf = none ∧ (s.src 143).room 2 = true ∧
        (2 * tSec - 2048 : Int) < lastPeriodic (s.src 143).gov + tSec ∧ (2 * tSec - 2048 : Int) < (s.src 143).gov + 2 ^ 39 ∧
        (s.at 0).sureTick 143 < lastPeriodic (2 * tSec - 2048) + tSec ∧ (s.at 0).sureTick 143 < (2 * tSec - 2048) + 2 ^ 39) ∧
    (let s := withChan {} { taking := true, due := [{ at_ := 2 * tSec + 4096, word := .anchor 6 }] };
      (s.at 0).sureTick 143 < 2 * tSec + 4096) ∧
    (let s := withChan {};
      (s.at 0).dieUp = true ∧ ((s.at 0).signal 143 high).natAbs = 2000000000 ∧ ((s.at 0).signal 143 ⟨1525000000, 0⟩).natAbs = 1525000000 ∧
        ((s.at 0).signal 143 ⟨-1575000000, 0⟩).natAbs = 1575000000 ∧ (s.chan 143).above = false ∧ (s.chan 143).ownEnd ≤ (s.at 0).now ∧
        (s.chan 143).nbrEnd ≤ (s.at 0).now) ∧
    (∃ s : State, (s.chan 143).above = true) ∧ (∃ s : State, (s.chan 143).limAt = some 0 ∧ 0 + 60 * qNs ≤ (s.at (2 ^ 40)).now) ∧
    (let s := withChan { win := { active := true } } { taking := true };
      Sound s ∧ (s.chan 143).win.active = true ∧ (s.at 0).heldIn 143 (s.at 0).now = false ∧ (s.chan 143).win.out = false ∧
        s.get .TCH_WIN_CFG_M 143 ≤ (((s.at 0).violates 143 high :: (s.chan 143).win.hist).take (s.get .TCH_WIN_CFG_N 143) |>.filter id).length) ∧
    (let s := withChan { win := { active := true, out := true, hist := [true] } };
      (s.chan 143).win.out = true ∧
        (((s.at 0).violates 143 ⟨0, 0⟩ :: (s.chan 143).win.hist).take (s.get .TCH_WIN_CFG_N 143) |>.filter id).length < s.get .TCH_WIN_CFG_M 143 ∧
        (((s.at 0).violates 143 ⟨0, 0⟩ :: (s.chan 143).win.hist).take (s.get .TCH_WIN_CFG_N 143) |>.filter id).length ≤
          s.get .TCH_WIN_CFG_N 143 - s.get .TCH_WIN_CFG_M 143) :=
  ⟨by decide +kernel, ⟨⟨rfl, rfl, rfl, rfl⟩, by decide +kernel⟩, by decide +kernel, by decide +kernel, ⟨withChan { above := true }, by decide +kernel⟩,
    ⟨withChan { limAt := some 0 }, by decide +kernel⟩, ⟨⟨rfl, rfl, rfl, rfl⟩, by decide +kernel⟩, by decide +kernel⟩

theorem test_SubstitutionEventsTakeEffect_meets :
    (let u := (withChan { armed := true, sub := 1, subDue := some 0 }).at 0;
      ∃ x, u.switchTime 143 = some x ∧ x ≤ u.recTick 143) ∧
    (let u := (withChan { armed := true, sub := 1, subDue := some (2 * tSec * qTick) }).at 0;
      ∃ x, u.switchTime 143 = some x ∧ u.recTick 143 < x) ∧
    (let u := (withChan { sub := 1 }).at 0;
      u.switchTime 143 = none ∧ (u.chan 143).armed = false ∧ (u.chan 143).subAt + 10 * qUs ≤ u.now ∧ (u.src 143).ovf = none) ∧
    ((withChan {}).switchTime 143 = none ∧ ((withChan {}).chan 143).sub ≠ 1) ∧
    (let u := (withChan { sub := 1 } { taking := true, ovf := some { active := [2], causes := [2] } }).at 0;
      u.switchTime 143 = none ∧ (u.src 143).ovf = some { active := [2], causes := [2] }) ∧
    (∃ s : State, (s.chan 143).sub = 1 ∧ (s.chan 143).subNow = false ∧ (s.chan 143).subDue = none ∧ (s.chan 143).subAt + 4 * qSec ≤ (s.at (4 * qSec)).now) ∧
    (let u := (withChan { armed := true, sub := 2, back := some 0 }).at 0;
      ∃ x, u.rejoinTime 143 = some x ∧ x ≤ u.recTick 143) ∧
    (let u := (withChan { sub := 2, back := some 0 }).at 0;
      u.rejoinTime 143 = none ∧ (u.chan 143).back = some 0 ∧ (u.chan 143).armed = false ∧ 0 + 10 * qUs ≤ u.now) ∧
    (let u := ((withChan { armed := true } { taking := true }).put .TCH_SPARE_CFG_AUTO 143 1).at 0;
      (u.be 143).fault = none ∧ u.endPowered 143 = true ∧ u.serves 143 = some 143 ∧ u.noHits 143 = true ∧ (u.src 143).taking = true ∧
        u.spareUser 11 = none ∧ u.flag .TCH_SPARE_CFG_AUTO 143 = true) ∧
    (let u := (withChan { sub := 1 }).at 0;
      u.endPowered 267 = true ∧ u.serves 267 = none ∧ u.beChannel 267 = some 143) ∧
    ((withChan {}).endPowered 255 = true ∧ (withChan {}).serves 255 = none ∧ (withChan {}).beChannel 255 = none ∧ isBackEnd 255 = true ∨
      (withChan {}).endPowered 193 = true ∧ (withChan {}).serves 193 = none ∧ (withChan {}).beChannel 193 = none ∧ isBackEnd 193 = true) ∧
    ((withChan {}).endPowered 267 = false ∧ (withChan {}).noHits 267 = false) := by
  refine ⟨⟨_, rfl, ?_⟩, ⟨_, rfl, ?_⟩, ?_, ?_, ?_, ⟨withChan { sub := 1 }, ?_⟩, ⟨_, rfl, ?_⟩, ?_, ?_, ?_, ?_, ?_⟩ <;> decide +kernel

theorem test_ChannelHostCommandsTakeEffect_meets :
    takesWrite (runGate.at 0) 0 .TCH_ARM 143 0 ∧ takesWrite (runGate.at 0) 0 .TCH_BE_CMD 143 8 ∧
    takesWrite (runGate.at 0) 0 .TCH_FE_COMMIT 143 1 ∧ takesWrite (runGate.at 0) 0 .TCH_WIN_CTL 143 1 ∧
    takesWrite (runGate.at 0) 0 .TCH_WIN_CTL 143 0 ∧ takesWrite (runGate.at 0) 0 .TCH_BE_CMD 143 1 ∧
    takesWrite (runGate.at 0) 0 .TCH_BE_CMD 143 5 ∧ takesWrite (runGate.at 0) 0 .TCH_ARM 143 1 ∧
    takesWrite (({ runGate with chans := [(143, { sub := 1 })] } : State).at 0) 0 .TCH_BE_CMD 143 2 ∧
    takesWrite (({ runGate with chans := [(143, { sub := 2 })] } : State).at 0) 0 .TCH_BE_CMD 143 2 := by
  refine ⟨?_, ?_, ?_, ?_, ?_, ?_, ?_, ?_, ?_, ?_⟩ <;> unfold takesWrite <;> decide +kernel

/-- One waveform channel. -/
def withWave (c : Wave) : State := { timed { valid := true } with waves := [(15, c)] }

theorem test_WaveformHostCommandsTakeEffect_meets :
    takesWrite ((withWave {}).at 0) 0 .WCH_ARM 15 1 ∧ takesWrite ((withWave { armed := true }).at 0) 0 .WCH_ARM 15 0 ∧
    takesWrite ((withWave {}).at 0) 0 .WCH_COMMIT 15 1 := by
  unfold takesWrite; decide +kernel

/-- The converter slots 30 and 31, aligned, feeding the chain of WC15. -/
def fedWave (c : Wave) (r : Source := {}) : State :=
  { withWave c with slots := [(30, { state := 3, margins := [(0, 9)] }), (31, { state := 3, margins := [(0, 9)] })], sources := [(159, r)] }

theorem test_IngestEventsTakeEffect_meets :
    (∃ s : State, (s.at 0).startsHeld = false ∧ (s.at 0).slotsAligned ((s.at 0).chainOf 15) = true ∧ (s.wave 15).armed = true ∧
      (s.wave 15).startAt = none ∧ s.time.valid = true ∧ s.get .WCH_WIN_CFG_MODE 15 = 0) ∧
    (let v := (((fedWave { armed := true, startAt := some 0 }).at 0).checkMargin 30 5).checkMargin 31 5;
      v.flowing 15 = true ∧ v.time.halted = false ∧ v.get .WCH_SOURCE_PAIR 15 = 0 ∧ (v.slot 31).state = 3) ∧
    (let v := (((withWave {}).at 0).checkMargin 30 5).checkMargin 31 5; v.flowing 15 = false) ∧
    (let v := ((((fedWave { armed := true, startAt := some 0 }).put .WCH_SOURCE_PAIR 15 2).at 0).checkMargin 30 5).checkMargin 31 5;
      v.flowing 15 = true ∧ v.get .WCH_SOURCE_PAIR 15 = 2) ∧
    (let u := (fedWave { armed := true, startAt := some 0 }).at 0;
      (u.slot 31).state = 3 ∧ u.slotFeeds 31 = true ∧
        (((u.crcError 31).now :: (((u.crcError 31).slot 31).bad.filter fun x => decide ((u.crcError 31).now < x + qMs)).take 15).length < 16)) ∧
    (let u := ({ fedWave { armed := true, startAt := some 0 } with
        slots := [(30, { state := 3 }), (31, { state := 3, bad := List.replicate 15 (tSec * qTick) })] } : State).at 0;
      u.slotFeeds 31 = true ∧
        (((u.crcError 31).now :: (((u.crcError 31).slot 31).bad.filter fun x => decide ((u.crcError 31).now < x + qMs)).take 15).length = 16)) ∧
    (∃ s : State, 2 ≤ (s.slot 31).state ∧ ¬ ((s.slot 31).state = 3 ∧ (s.at 0).slotFeeds 31 = true)) ∧
    (∃ s : State, (s.slot 31).state = 1) :=
  ⟨⟨fedWave { armed := true }, by decide +kernel⟩, by decide +kernel, by decide +kernel, by decide +kernel, by decide +kernel,
    by decide +kernel, ⟨fedWave {}, by decide +kernel⟩, ⟨{ slots := [(31, { state := 1 })] }, by decide +kernel⟩⟩

/-- A window that closes at tick 9. -/
def win9 : Window := { opened := 0, requested := 0, closes := some 9 }

/-- A window that the stream has reached. -/
def winB : Window := { opened := 0, requested := 0, closes := none, begun := true }

theorem test_WaveformWindowEventsTakeEffect_meets :
    (∃ s : State, (s.at 0).nextOpening 15 = some 5 ∧ (s.wave 15).armed = true ∧ (s.wave 15).startAt ≠ none ∧
      5 ≤ (s.at 0).recTick 159 ∧ (s.wave 15).waiting = none ∧ (∀ w ∈ (s.wave 15).wins, w.shut = true ∨ w.before 5 = false)) ∧
    (∃ s : State, (s.at 0).nextOpening 15 = some 5 ∧ (s.wave 15).waiting ≠ none) ∧
    (∃ s : State, (s.wave 15).wins.find? (fun v => !v.shut) = some win9 ∧ win9.closes = some 9 ∧ 9 ≤ (s.at 0).recTick 159) ∧
    (∃ s : State, (s.at 0).chainOf 15 = 15 ∧ (s.at 0).flowing 15 = true ∧ (s.wave 15).wins = [winB] ∧ winB.begun = true ∧ winB.shut = false ∧
      (s.src 159).sure = 4096) ∧
    (∃ s : State, (s.at 0).flowing ((s.at 0).chainOf 15) = false) ∧
    (∃ s : State, (s.wave ((s.at 0).chainOf 15)).conv = 0) :=
  ⟨⟨(fedWave { armed := true, startAt := some 0, due := [5] }).put .WCH_WIN_CFG_MODE 15 2, by decide +kernel⟩,
    ⟨(fedWave { armed := true, startAt := some 0, due := [5], waiting := some win9 }).put .WCH_WIN_CFG_MODE 15 2, by decide +kernel⟩,
    ⟨withWave { wins := [win9] }, by decide +kernel⟩,
    ⟨fedWave { armed := true, startAt := some 0, wins := [winB] } { taking := true, sure := 4096 }, by decide +kernel⟩,
    ⟨withWave {}, by decide +kernel⟩, ⟨withWave {}, by decide +kernel⟩⟩

/-- One context. -/
def withCtx (c : Ctx) (arm : Nat := 0) : State := ({ timed { valid := true } with ctxs := [(8191, c)] } : State).put .MC_CTL_ARM 8191 arm

/-- A gate that opened at tick 0. -/
def gate0 : Gate := { opened := 0, closes := none }

theorem test_ContextCommandsTakeEffect_meets :
    takesWrite ((withCtx {}).at 0) 0 .MC_CTL 8191 1 ∧ takesWrite ((withCtx { armed := true } 1).at 0) 0 .MC_CTL 8191 0 ∧
    (takesWrite ((withCtx { armed := true, gate := some gate0 } 1).at 0) 0 .MC_CTL 8191 3 ∧ fabCycle ((withCtx {}).instOf gate0.opened) < fabCycle (withCtx {}).now ∧
      (withCtx { gate := some gate0 }).closeNow 8191 = none) ∧
    (takesWrite ((withCtx { armed := true, gate := some { gate0 with closes := some 0 } } 1).at 0) 0 .MC_CTL 8191 3 ∧
      (withCtx { gate := some { gate0 with closes := some 0 } }).closeNow 8191 ≠ none) ∧
    takesWrite ((withCtx { armed := true, slot := some 0 } 1).at 0) 0 .MC_CTL 8191 5 ∧
    takesWrite ((withCtx {}).at 0) 0 .MC_CTL 8191 2 ∧ takesWrite ((withCtx {}).at 0) 0 .MC_CTL 8191 4 ∧
    (∃ s : State, (s.engine 23).queue = [(8191, .settle 1 0)] ∧ (s.at 0).fabricRuns = true ∧ (s.ctx 8191).moving = false) ∧
    (∃ s : State, (s.ctx 8191).gate = some gate0 ∧ s.get .MC_CFG_GMODE 8191 = 1 ∧
      (s.at (16 * tSec * qTick)).instOf (gate0.opened + 16 * tSec) ≤ (s.at (16 * tSec * qTick)).now) ∧
    (∃ s : State, s.time.halted = false ∧ (s.ctx 8191).closed = [gate0, gate0]) ∧
    (∃ s : State, s.time.halted = false ∧ (s.ctx 8191).move = some 23 ∧ (s.ctx 8191).moving = true) :=
  ⟨by unfold takesWrite; decide +kernel, by unfold takesWrite; decide +kernel, by unfold takesWrite; decide +kernel,
    by unfold takesWrite; decide +kernel, by unfold takesWrite; decide +kernel, by unfold takesWrite; decide +kernel,
    by unfold takesWrite; decide +kernel, ⟨{ runGate with engines := [(23, { queue := [(8191, .settle 1 0)] })], quads := [(15, { pwr := 0 })] }, by decide +kernel⟩,
    ⟨(withCtx { gate := some gate0 }).put .MC_CFG_GMODE 8191 1, by decide +kernel⟩,
    ⟨withCtx { closed := [gate0, gate0] }, by decide +kernel⟩, ⟨withCtx { move := some 23, moving := true }, by decide +kernel⟩⟩

/-- One acquisition unit. -/
def withAcq (c : Acq) (arm : Nat := 0) : State :=
  ({ timed { valid := true } with acqs := [(15, c)], hbm := { trained := true } } : State).put .AQ_ARM_ARM 15 arm

/-- A trigger at tick 0. -/
def trig0 : Trig := { cause := 8, met := 0, time := 0, qual := 0, word := 0 }

theorem test_CaptureHostCommandsTakeEffect_meets :
    takesWrite (((withAcq {}).put .AQ_CFG_STORE 15 0).at 0) 0 .AQ_ARM 15 1 ∧
    takesWrite ((withAcq { armed := true, state := 7 } 1).at 0) 0 .AQ_ARM 15 1 ∧
    takesWrite ((withAcq { armed := true, state := 5 } 1).at 0) 0 .AQ_ARM 15 0 ∧
    takesWrite ((withAcq { armed := true, state := 4 } 1).at 0) 0 .AQ_CMD 15 1 ∧
    takesWrite ((withAcq { armed := true, state := 3 } 1).at 0) 0 .AQ_CMD 15 2 ∧
    (takesWrite ((withAcq { armed := true, state := 5, trig := some trig0 } 1).at 0) 0 .AQ_CMD 15 2 ∧
      ((withAcq { armed := true, state := 5, trig := some trig0 } 1).at 0).sameCycle trig0 = false) ∧
    (takesWrite ((withAcq { armed := true, state := 5, trig := some { trig0 with at_ := tSec * qTick } } 1).at 0) 0 .AQ_CMD 15 2 ∧
      ((withAcq {} 1).at 0).sameCycle { trig0 with at_ := tSec * qTick } = true) ∧
    takesWrite (({ runGate with pans := [(255, { state := 2 })] } : State).at 0) 0 .PAN_STATUS 255 256 := by
  unfold takesWrite; decide +kernel

theorem test_CaptureEventsTakeEffect_meets :
    (∃ s : State, (s.acq 15).armed = true ∧ (s.acq 15).state = 2 ∧ (s.at 0).startsHeld = false ∧ s.hbm.trained = true ∧
      ((s.at 0).aqStores 15 = false ∨ (s.at 0).nextPan 15 ≠ none)) ∧
    (∃ s : State, (s.acq 15).state = 3 ∧ (s.acq 15).holdEnd = none ∧ (s.at 0).flag .AQ_CFG_PRE_WAIT 15 = false) ∧
    (∃ s : State, s.time.halted = true) ∧
    (∃ s : State, s.time.halted = false ∧ (s.acq 15).state = 4 ∧ (s.acq 15).trig = none ∧ s.get .AQ_CFG_MODE 15 = 2 ∧
      (s.acq 15).readyAt + s.get .AQ_AUTO_TIMEOUT 15 * 100 * qNs ≤ (s.at (2 ^ 90)).now) ∧
    (∃ s : State, s.time.halted = false ∧ (SMap.get (fun _ => {}) (s.acq 15).conds 7).a = some 0 ∧ (s.acq 15).armed = true ∧ (s.acq 15).began = true ∧
      s.get .AQ_TRG_CTL_TYPE (trgKey 15 7) = 3 ∧ (s.at 0).instOf (0 + s.get .AQ_TRG_HI_VALUE (trgKey 15 7)) ≤ (s.at 0).now) ∧
    (∃ s : State, s.time.halted = false ∧ (s.rule 255).window = some 0 ∧ s.flag .VD_CFG_ENABLE 255 = true ∧ s.get .VD_CFG_TYPE 255 = 3 ∧
      (s.at (2 ^ 90)).instOf (0 + (s.at 0).ruleHi 255) ≤ (s.at (2 ^ 90)).now) ∧
    (∃ s : State, (s.acq 15).state = 6 ∧ (s.acq 15).viol = some (0, []) ∧ (s.at 0).caughtUp 15 0 = true) ∧
    (∃ s : State, (s.acq 15).state = 5 ∧ (s.at 0).captureDone 15 = true) :=
  ⟨⟨(withAcq { armed := true, state := 2 }).put .AQ_CFG_STORE 15 0, by decide +kernel⟩, ⟨withAcq { state := 3 }, by decide +kernel⟩,
    ⟨{ time := { halted := true } }, rfl⟩, ⟨(withAcq { state := 4 }).put .AQ_CFG_MODE 15 2, by decide +kernel⟩,
    ⟨(withAcq { armed := true, began := true, conds := [(7, { a := some 0 })] }).put .AQ_TRG_CTL_TYPE (trgKey 15 7) 3, by decide +kernel⟩,
    ⟨({ timed { valid := true } with rules := [(255, { window := some 0 })] }.put .VD_CFG_ENABLE 255 1).put .VD_CFG_TYPE 255 3,
      by decide +kernel⟩,
    ⟨withAcq { state := 6, viol := some (0, []) }, by decide +kernel⟩,
    ⟨withAcq { state := 5, trig := some trig0 }, by decide +kernel⟩⟩

/-- One crystalliser. -/
def withCry (c : Cry) (frz : Nat := 0) : State := ({ timed { valid := true } with crys := [(15, c)] } : State).put .CRY_CTL_FREEZE 15 frz

theorem test_CrystalliserCommandsTakeEffect_meets :
    takesWrite ((withCry { kind := 1 }).at 0) 0 .CRY_CTL 15 1 ∧ takesWrite ((withCry { kind := 1, frozen := true } 1).at 0) 0 .CRY_CTL 15 0 ∧
    takesWrite ((withCry { kind := 1, nhist := 1, granules := [0] }).at 0) 0 .CRY_CMD 15 1 ∧
    takesWrite (((withCry { kind := 1, nhist := 1, granules := [0] }).put .CRY_STATUS_HELD 15 1).at 0) 0 .CRY_CMD 15 2 ∧
    (∃ s : State, (s.cry 15).clearEnd = some 0 ∧ 0 ≤ (s.at 0).now) ∧
    (∃ s : State, (s.cry 15).mergeEnd = some 0 ∧ (s.cry 15).staging = [] ∧ (s.cry 15).clearReq = false) ∧
    (∃ s : State, (s.cry 15).mergeEnd = some 0 ∧ (s.cry 15).staging = [1] ∧ (s.cry 15).granules = [0]) ∧
    (∃ s : State, (s.cry 15).sweep = some (0, 2 ^ 22) ∧ 1024 * max 1 (s.get .CRY_MAP_CFG_COLW 15) ≤ 2 ^ 22) :=
  ⟨by unfold takesWrite; decide +kernel, by unfold takesWrite; decide +kernel, by unfold takesWrite; decide +kernel,
    by unfold takesWrite; decide +kernel, ⟨withCry { clearEnd := some 0 }, by decide +kernel⟩,
    ⟨withCry { mergeEnd := some 0 }, by decide +kernel⟩, ⟨withCry { mergeEnd := some 0, staging := [1], granules := [0] }, by decide +kernel⟩,
    ⟨withCry { sweep := some (0, 2 ^ 22) }, by decide +kernel⟩⟩

theorem test_VerdictCommandsTakeEffect_meets :
    (∃ s : State, (s.at 0).maskRuns 15 = true) ∧
    (takesWrite (runGate.at 0) 0 .VD_CFG 255 (runGate.wordWith .VD_CFG 255 [(.VD_CFG_ENABLE, 0)] % 2 ^ 32)) ∧
    (∃ s : State, (s.rule 255).window = some 0 ∧ s.flag .VD_CFG_ENABLE 255 = true ∧ s.get .VD_CFG_TYPE 255 = 2 ∧
      (s.at 0).spanPassed (s.get .VD_SRC_SRC 255) (0 + (s.at 0).ruleHi 255) = true) ∧
    (∃ s : State, (s.link 15).verdicts = [(255, 0)] ∧ (s.link 15).admitted = true ∧ (s.link 15).tx ≠ 0) :=
  ⟨⟨(withAcq { armed := true, guard := true, state := 3 }).put .MSK_CFG_ENABLE 15 1, by decide +kernel⟩, by unfold takesWrite; decide +kernel,
    ⟨({ timed { valid := true } with now := 2 * tSec * qTick, rules := [(255, { window := some 0 })], sources := [(0, { fabLast := 1 })] }.put .VD_CFG_ENABLE 255 1).put .VD_CFG_TYPE 255 2,
      by decide +kernel⟩,
    ⟨{ links := [(15, { verdicts := [(255, 0)], admitted := true, tx := 1 })] }, by decide +kernel⟩⟩

/-- One marker. -/
def withMarker (m : Marker) (arm : Nat := 0) : State := ({ timed { valid := true } with markers := [(31, m)] } : State).put .MRK_CTL_ARM 31 arm

theorem test_MarkerHostCommandsTakeEffect_meets :
    takesWrite ((withMarker {}).at 0) 0 .MRK_CTL 31 1 ∧ takesWrite ((withMarker { armed := true } 1).at 0) 0 .MRK_CTL 31 0 ∧
    (takesWrite (({ withMarker { armed := true, next := some 0 } 1 with now := 0 } : State).at 0) 0 .MRK_CTL 31 0 ∧
      ({ withMarker { armed := true, next := some 0 } 1 with now := 0 } : State).firesNow 31 = true ∧
      (withMarker { armed := true } 1).firesNow 31 = false) ∧
    (Sound runGate ∧ takesPair (runGate.at 0) 0 .MRK_TRIPSEL 31 (2 ^ 64 - 1) ∧ takesPair (runGate.at 0) 0 .TRIP_SEL 15 (2 ^ 64 - 1)) ∧
    takesWrite (runGate.at 0) 0 .TRIP_CFG 15 (2 + 1 * 4 + 31 * 256) :=
  ⟨by unfold takesWrite; decide +kernel, by unfold takesWrite; decide +kernel, by unfold takesWrite; decide +kernel,
    ⟨⟨rfl, rfl, rfl, rfl⟩, by unfold takesPair takesWrite; decide +kernel, by unfold takesPair takesWrite; decide +kernel⟩,
    by unfold takesWrite; decide +kernel⟩

theorem test_MarkerEventsTakeEffect_meets :
    (∃ s : State, (s.marker 31).next = some 0 ∧ (s.at 0).firingTime 31 0 = some 0 ∧ (s.marker 31).armed = true ∧
      s.time.valid = true ∧ (s.at 0).instOf 0 ≤ (s.at 0).now ∧ (s.marker 31).armAt + 5242880 ≤ 0 ∧ s.time.validAt ≤ 0 ∧
      s.time.halted = false ∧ (s.at 0).markerTripped 31 = false) ∧
    (∃ s : State, (s.marker 31).next = some 0 ∧ (s.at 0).firingTime 31 0 = some 0 ∧ 0 < (s.marker 31).armAt + 5242880) ∧
    (∃ s : State, (s.marker 31).last = true ∧ (s.marker 31).next = some 0 ∧ (s.at 0).firingTime 31 0 = some 0) ∧
    (∃ s : State, (s.marker 31).high = some 0 ∧ (s.at 0).instOf 0 ≤ (s.at 0).now) :=
  ⟨⟨withMarker { armed := true, armAt := -5242880, next := some 0 }, by decide +kernel⟩,
    ⟨withMarker { armed := true, next := some 0 }, by decide +kernel⟩, ⟨withMarker { last := true, next := some 0 }, by decide +kernel⟩,
    ⟨withMarker { high := some 0, ball := true }, by decide +kernel⟩⟩

/-- One Sluice channel. -/
def withSlu (x : Slu) : State := { timed { valid := true } with slus := [(31, x)], hbm := { trained := true } }

/-- A REGISTER transfer of 64 bytes from HBM to HBM. -/
def sluMove (x : Slu) : State :=
  ((((withSlu x).put .SLU_SRC_ADDR 31 0).put .SLU_DST_ADDR 31 4096).put .SLU_COUNT_BYTES 31 64)

/-- A descriptor that is the last of its list. -/
def desc0 : Desc :=
  { addr := 0, len := 0, last := true, jump := false, irq := true, half := true, waitAck := false, link := 0, self := 0 }

theorem test_SluiceHostCommandsTakeEffect_meets :
    (takesWrite ((sluMove {}).at 0) 0 .SLU_CTL 31 1 ∧ ((sluMove {}).at 0).startedNow 31 = false) ∧
    (∀ b ∈ [true, false], takesWrite ((sluMove { state := 1, startAt := some (tSec * qTick, b) }).at 0) 0 .SLU_CTL 31 1 ∧
      ((sluMove { state := 1, startAt := some (tSec * qTick, b) }).at 0).startedNow 31 = true) ∧
    takesWrite ((withSlu { state := 1 }).at 0) 0 .SLU_CTL 31 2 ∧
    takesWrite ({ withSlu { state := 1 } with dev := .test }.at 0) 0 .SLU_CTL 31 4 ∧
    takesWrite ({ withSlu { state := 3 } with dev := .test }.at 0) 0 .SLU_CTL 31 8 ∧
    takesWrite ((withSlu {}).at 0) 0 .SLU_COMMIT 31 1 ∧ takesWrite (({ withSlu {} with slu := { halted := true } }).at 0) 0 .SLU_ENGINE_CTL 0 2 ∧
    takesWrite ((withSlu {}).at 0) 0 .SLU_ENGINE_CTL 0 1 ∧
    ((accepted ((withSlu {}).at 0) 0 .SLU_ENGINE_CTL 0 1).resetSluice.rest kSluice).declared = none ∧
    ((accepted (({ withSlu {} with restore := [(kSluice, { declared := some 5 })] } : State).at 0) 0 .SLU_ENGINE_CTL 0 1).resetSluice.rest kSluice).declared = some 5 := by
  unfold takesWrite; (repeat' apply And.intro) <;> decide +kernel

theorem test_SluiceEventsTakeEffect_meets :
    (∃ s : State, (s.sl 31).state = 2) ∧
    (∃ s : State, (s.at 0).sluRuns = true ∧ (s.sl 31).state = 1 ∧ (s.at 0).sluList 31 = false ∧
      (((s.at 0).grantCredits 31).sl 31).desc = none ∧ ((s.at 0).grantCredits 31).sluTurn 31 = true ∧
      ((s.at 0).grantCredits 31).waitsAck 31 = false ∧ (s.at 0).waitsAck 31 = false ∧ ((s.at 0).grantCredits 31).waitsMem 31 = false ∧ ((s.at 0).grantCredits 31).waitsCredit 31 = false ∧
      ((s.at 0).grantCredits 31).sluFrom 31 = some 0 ∧ ((s.at 0).grantCredits 31).sluTo 31 = some 4096 ∧
      ((s.at 0).grantCredits 31).portAt (some 4096) = none) ∧
    (∃ s : State, (s.at 0).sluDue 31 = true ∧ (s.at 0).sluList 31 = false) ∧
    (∃ s : State, (s.at 0).sluDue 31 = true ∧ (s.at 0).sluList 31 = true ∧ (s.sl 31).desc = some desc0) ∧
    (∃ s : State, s.slu.halted = true ∧ s.flag .SLU_ENGINE_CFG_AUTO_RESTORE = true ∧ s.slu.haltAt + qMs ≤ (s.at 0).now) :=
  ⟨⟨withSlu { state := 2 }, by decide +kernel⟩, ⟨{ sluMove { state := 1, goCount := 64 } with chans := [(143, { armed := true })] }, by decide +kernel⟩,
    ⟨((sluMove { state := 1, goCount := 64 }).put .SLU_DONE_BYTES 31 64).put .SLU_COUNT_BYTES 31 0, by decide +kernel⟩,
    ⟨(withSlu { state := 1, desc := some desc0, going := true }).put .SLU_CFG_MODE 31 1, by decide +kernel⟩,
    ⟨({ withSlu {} with slu := { halted := true } } : State).put .SLU_ENGINE_CFG_AUTO_RESTORE 0 1, by decide +kernel⟩⟩

/-- One lane of a Borgor quad. -/
def withLane (x : Lane) (q : Quad := { pwr := 0, pll := true }) : State :=
  { timed { valid := true } with lanes := [(63, x)], quads := [(15, q)] }

theorem test_LaneHostCommandsTakeEffect_meets :
    takesWrite ((withLane {}).at 0) 0 .LNK_LANE_CTL 63 1 ∧ takesWrite ((withLane { state := 7 }).at 0) 0 .LNK_LANE_CMD 63 1 ∧
    takesWrite (({ withLane { state := 3 } with dev := .test }.put .LNK_LANE_CTL_MANUAL_SLIP 63 1).at 0) 0 .LNK_LANE_CMD 63 2 ∧
    takesWrite ((withLane { state := 6 }).at 0) 0 .LNK_LANE_CMD 63 4 ∧ takesWrite ((withLane { state := 8 }).at 0) 0 .LNK_LANE_CMD 63 8 ∧
    takesWrite (runGate.at 0) 0 .LNK_LANE_CTL 63 (0 + 1 * 2 + 0 * 4) := by
  unfold takesWrite; decide +kernel

theorem test_QuadAndLinkHostCommandsTakeEffect_meets :
    takesWrite ((withLane {}).at 0) 0 .LNK_QUAD_CTL 15 2 ∧ takesWrite (((withLane {} { pwr := 2 }).put .LNK_QUAD_CTL_PWR 15 2).at 0) 0 .LNK_QUAD_CTL 15 0 ∧
    takesWrite (((withLane { cfg := true }).put .LNK_LANE_CFG_LINK 63 15).at 0) 0 .LNK_LINK_CTL 15 1 ∧ takesWrite (((withLane {}).put .LNK_LINK_CTL_ENABLE 15 1).at 0) 0 .LNK_LINK_CTL 15 0 := by
  unfold takesWrite; decide +kernel

theorem test_LaneTrainingTakesEffect_meets :
    (∃ s : State, (s.lane 63).state = 1 ∧ (s.at 0).quadTrains 15 = true ∧ (s.lane 63).service = false ∧ (s.at 0).places < 8 ∧
      s.power.t0 + 300 * qMs ≤ (s.at 0).now ∧
      (∀ m, m < 64 → (s.lane m).state = 1 → (s.at 0).quadTrains (m / 4) = true → (s.lane m).service = false → (s.lane 63).order ≤ (s.lane m).order)) ∧
    (∃ s : State, (s.lane 63).state = 1 ∧ (s.lane 63).early = true) ∧
    (∀ x ∈ [2, 3, 4, 5], ((withLane { state := x, phaseAt := tSec * qTick, tryAt := tSec * qTick }).at 0).inTime 63 = true) ∧
    (∃ s : State, (s.lane 63).state = 5 ∧ (s.lane 63).tryAt + (s.at (2 ^ 90)).tryLimit 63 ≤ (s.at (2 ^ 90)).now) :=
  ⟨⟨withLane { state := 1, order := 1 }, by decide +kernel⟩, ⟨withLane { state := 1, early := true }, by decide +kernel⟩, by decide +kernel, ⟨withLane { state := 5 }, by decide +kernel⟩⟩

theorem test_LaneEventsTakeEffect_meets :
    ((withLane { state := 2 }).at 0).listens 63 = true ∧ ((withLane { state := 1, lock := true }).lane 63).state < 4 ∧
    ((withLane { state := 6, p1 := true }).at 0).listens 63 = false ∧
    (((withLane { state := 6, lock := true }).lane 63).lock = true ∧ ((withLane { state := 6, lock := true }).at 0).listens 63 = true) ∧
    (((withLane { state := 7 }).quad 15).pwr = 0 ∧ ((withLane { state := 7 }).lane 63).seekAt + 500 * 2 ^ 0 * qMs ≤ ((withLane { state := 7 }).at 0).now) ∧
    ((withLane { state := 6, lows := 15 }).lane 63).lows = 15 ∧ ((withLane {}).at 0).isJesd 63 = false ∧
    ((withLane {} { pwr := 1 }).quad 15).pwr = 1 ∧ (withLane {} { pwr := 1, exitAt := tSec * qTick }).now ≤ tSec * qTick + 1200 * qUs ∧
    (1 + 1200 * qUs ≤ ((withLane { state := 6 } { pwr := 1, exitAt := 1 }).at 0).now) ∧ ((withLane {}).quad 15).pwr ≠ 2 := by
  decide +kernel

/-- BL15 on L63, which hears its partner. -/
def linked (k : Link) (x : Lane := {}) : State :=
  ({ timed { valid := true } with
    lanes := [(63, { x with cfg := true, state := 6, lock := true })], quads := [(15, { pwr := 0, pll := true })], links := [(15, { k with rx := 8 })] } : State).put
      .LNK_LANE_CFG_LINK 63 15

theorem test_ControlBlocksTakeEffect_meets :
    ((linked {}).at 0).linkHears 15 = true ∧ ((linked { admitted := true }).link 15).admitted = true ∧
    (∀ sub ∈ [subStream, subCredit, subStart, subTimeSet, subLeap, subTrigger, subAck],
      ctrlWord sub 0 0 % 256 = 0x78 ∧ checkOk (ctrlWord sub 0 0) = true ∧ bits (ctrlWord sub 0 0) 8 4 = sub) ∧
    ((0x78 : Nat) % 256 = 0x78 ∧ checkOk 0x78 = false) ∧
    ((linked {}).link 15).kept.find? (fun r => r.tag == 0 && r.crc == 2 ^ 32 + subTimeSet) = none ∧
    ((linked {}).at 0).setByLower 15 = false ∧ (({ linked {} with time := { setBy := some (tSec * qTick, 14) } } : State).at 0).setByLower 15 = true ∧
    (linked {}).quiet = true ∧ ({ linked {} with chans := [(143, { armed := true })] } : State).quiet = false ∧
    ((linked {}).put .LNK_LINK_CFG_TIME 15 1).get .LNK_LINK_CFG_TIME 15 ≠ 0 ∧ (linked {}).get .LNK_LINK_CFG_TIME 15 = 0 ∧
    ((linked {}).put .LNK_LINK_CFG_TRIG 15 0).get .LNK_LINK_CFG_TRIG 15 = 0 ∧ (linked {}).get .LNK_LINK_CFG_TRIG 15 ≠ 0 ∧
    ((linked {}).at 0).startedNow 31 = false ∧ ((linked {}).at 0).goError 31 ≠ none ∧ ((sluMove {}).at 0).goError 31 = none ∧
    bits (ctrlWord subTrigger 0 0xFF00) 24 8 = bits (ctrlWord subTrigger 0 0xFF00) 16 8 ^^^ 0xFF := by
  decide +kernel

theorem test_AlignmentTakesEffect_meets :
    (∀ m ∈ State.reset.linkLanes 15, (State.reset.lane m).state ≠ 6 ∧ (State.reset.lane m).service = false) ∧
    (∃ m ∈ (linked {}).linkLanes 15, ((linked {}).lane m).state = 6 ∨ ((linked {}).lane m).service = true) ∧
    ((linked {}).isJesd 63 = false ∧ ((linked {}).lane 63).cfg = true ∧ ((linked {}).lane 63).lock = true ∧ (0x33 : Nat) % 256 = 0x33 ∧
      checkOk 0x33 = false ∧ checkOk (withCheck 0x33) = true ∧ ((linked {}).at 0).alignFits 15 63 0 = some 0) ∧
    (checkOk (ctrlWord subTrain 0 0) = true ∧ bits (ctrlWord subTrain 0 0) 8 4 = subTrain ∧ bits (ctrlWord subP1 0 0) 8 4 = subP1) := by
  decide +kernel

/-- A register packet in progress. -/
def inPacket (n : Nat) : State := linked { packet := some (n, [0]), admitted := true }

theorem test_DataBlocksTakeEffect_meets :
    (((inPacket 3).at 0).linkHears 15 = true ∧ ((inPacket 3).link 15).packet = some (3, [0]) ∧ [0].length + 1 < 3) ∧
    (((inPacket 2).link 15).packet = some (2, [0]) ∧ 2 ≤ [0].length + 1) ∧
    (((linked { admitted := true }).link 15).stream = none ∧ ((linked { admitted := true, stream := some 63 }).link 15).stream = some 63) := by
  decide +kernel

/-- READ of one word of DEV_STATE. -/
def readPkt (ad : Nat) : List Nat := [2 ^ 16 + ad * 2 ^ 32, crcWords [2 ^ 16 + ad * 2 ^ 32]]

theorem test_PacketsTakeEffect_meets :
    packetBad (readPkt 0) = false ∧ packetBad [0, 0] = true ∧ inDevBoot 0 = true ∧ inDevBoot 0x10000 = false ∧
    ((linked { admitted := true }).link 15).kept.find? (fun r => r.tag == 0 && r.crc == 0) = none ∧
    ((linked { admitted := true }).put .LNK_LINK_CFG_REG 15 0).get .LNK_LINK_CFG_REG 15 = 0 ∧
    ((linked { admitted := true }).put .LNK_LINK_CFG_REG 15 1).get .LNK_LINK_CFG_REG 15 = 1 ∧
    (linked { admitted := true }).get .LNK_LINK_CFG_REG 15 ≠ 0 ∧ (linked {}).dev ≠ .boot ∧
    (linked {}).restoring 0 = false ∧ (linked { admitted := true }).pktsPending.length < 64 ∧
    64 ≤ ({ linked { admitted := true } with pkts := List.replicate 64 (15, 2 ^ 90) } : State).pktsPending.length := by
  decide +kernel

theorem test_SpiTransactionsTakeEffect_meets :
    (Sound runGate ∧ (runGate.at 0).dev ≠ .off) ∧
    (∀ w ∈ [1, 2, 4], takesRead (runGate.at 0) 0 (Reg.addr .TCH_THRESH 143) w .TCH_THRESH 143) ∧
    (Command .TCH_ARM 143 ∧ takesWrite (runGate.at 0) 0 .TCH_ARM 143 0) :=
  ⟨⟨⟨rfl, rfl, rfl, rfl⟩, by decide⟩, by unfold takesRead; decide +kernel, ⟨Command.TCH_ARM (by decide), by unfold takesWrite; decide +kernel⟩⟩

/-- The word of REGACC that writes 0 to TCH_ARM of TC143. -/
def regaccWrite : Nat := Reg.addr .TCH_ARM 143 * 2 ^ 32 + 2 ^ 64

theorem test_JtagTakesEffect_meets :
    ((runGate.at 0).jtagServed = true ∧ bits regaccWrite 64 2 = 1 ∧ bits regaccWrite 32 32 = Reg.addr .TCH_ARM 143 ∧
      takesWrite (runGate.at 0) 1 .TCH_ARM 143 (bits regaccWrite 0 32)) ∧
    (bits (Reg.addr .TCH_THRESH 143 * 2 ^ 32) 64 2 ≠ 1 ∧ takesRead (runGate.at 0) 1 (Reg.addr .TCH_THRESH 143) 4 .TCH_THRESH 143) ∧
    (∃ s : State, s.jtag.doneAt = some (s.now + 1) ∧ s.now < s.now + 1) :=
  ⟨by unfold takesWrite; decide +kernel, by unfold takesRead; decide +kernel, ⟨{ jtag := { doneAt := some 1 } }, rfl, by decide⟩⟩

theorem test_CrossingCommandsTakeEffect_meets :
    (Command .HVS_CMD 0 ∧ takesWrite (runGate.at 0) 0 .HVS_CMD 0 1) ∧
    (takesWrite (runGate.at 0) 0 .PWR_EVENT 0 (2 ^ 32 - 1) ∧ takesWrite (runGate.at 0) 0 .MRK_EVENT 31 (2 ^ 32 - 1)) ∧
    (takesWrite (runGate.at 0) 0 .DEV_TIDEGATE 0 0x5A17 ∧ takesWrite (runGate.at 0) 0 .DEV_TIDEGATE 0 0) ∧
    (takesWrite (runGate.at 0) 0 .DEV_CMD 0 1 ∧ takesWrite (runGate.at 0) 0 .DEV_CMD 0 2 ∧
      takesWrite (({ runGate with dev := .test } : State).at 0) 0 .DEV_CMD 0 4) ∧
    (∃ s : State, s.bank.due = some 0 ∧ 0 ≤ (s.at 0).now) ∧ (∃ s : State, s.bank.busy = true ∧ s.bank.due = none) :=
  ⟨⟨Command.HVS_CMD, by unfold takesWrite; decide +kernel⟩, by unfold takesWrite; decide +kernel, by unfold takesWrite; decide +kernel,
    by unfold takesWrite; decide +kernel, ⟨{ bank := { due := some 0 } }, by decide⟩, ⟨{ bank := { busy := true } }, by decide⟩⟩

/-- RUN with a valid time and service functions. -/
def inLife (l : Life) : State := { timed { valid := true } with life := l, hbm := { trained := true } }

theorem test_LifeHostCommandsTakeEffect_meets :
    (takesWrite ((inLife {}).at 0) 0 .LIFE_CMD 0 2 ∧ takesWrite ((inLife {}).at 0) 0 .LIFE_CMD 0 1 ∧
      takesWrite ((inLife { refStage := 1 }).at 0) 0 .LIFE_CMD 0 1 ∧ (accepted ((inLife {}).at 0) 0 .LIFE_CMD 0 1).refreshRuns = true ∧
      (accepted (({ inLife {} with time := {} } : State).at 0) 0 .LIFE_CMD 0 1).refreshRuns = false) ∧
    (takesWrite ((inLife {}).at 0) 0 .LIFE_UNIT_CMD 0 (0 + 23 * 2 ^ 8 + 2 ^ 16) ∧
      takesWrite ((inLife {}).at 0) 0 .LIFE_UNIT_CMD 0 (1 + 63 * 2 ^ 8 + 2 ^ 16) ∧
      takesWrite ((inLife {}).at 0) 0 .LIFE_UNIT_CMD 0 (2 + 31 * 2 ^ 8 + 2 ^ 16)) ∧
    (takesWrite (((inLife {}).put .LIFE_ENG_RETIRED_BITS 0 (2 ^ 23)).at 0) 0 .LIFE_UNIT_CMD 0 (0 + 23 * 2 ^ 8 + 2 ^ 17) ∧
      takesWrite (((inLife {}).put .LIFE_PCH_RETIRED_BITS 0 (2 ^ 63)).at 0) 0 .LIFE_UNIT_CMD 0 (1 + 63 * 2 ^ 8 + 2 ^ 17) ∧
      takesWrite ((({ inLife {} with slus := [(31, { state := 6 })] } : State).put .LIFE_SLU_RETIRED_BITS 0 (2 ^ 31)).at 0) 0 .LIFE_UNIT_CMD 0
        (2 + 31 * 2 ^ 8 + 2 ^ 17)) := by
  unfold takesWrite; decide +kernel

theorem test_LedgerEventsTakeEffect_meets :
    ((inLife {}).dev ≠ .off ∧ (inLife {}).life.wholeAt + 3600 * qSec ≤ ((inLife {}).at (3600 * qSec)).now ∧
      (inLife {}).life.hoursAt + 3600 * qSec ≤ ((inLife {}).at (3600 * qSec)).now) ∧
    (((inLife { jobs := [{ kind := kHourly }] }).at 0).ledgerFree = true ∧ (inLife { jobs := [{ kind := kHourly }] }).life.jobs ≠ [] ∧
      (8192 ≤ (inLife { slots := 8192 }).life.slots) ∧ 2 ≤ (inLife { tries := 2 }).life.tries) ∧
    ((inLife { pchBusy := some (63, true) }).life.pchBusy = some (63, true) ∧ (inLife { pchBusy := some (63, false) }).life.pchBusy = some (63, false)) ∧
    ((inLife { engBusy := some (23, true) }).life.engBusy = some (23, true) ∧ (∀ x ∈ (inLife {}).ctxs, x.2.move = none) ∧
      (inLife { engBusy := some (23, false) }).life.engBusy = some (23, false)) := by
  decide +kernel

theorem test_ScrubbingAndRefreshTakeEffect_meets :
    ((inLife {}).hbm.trained = true ∧ ((inLife {}).at 0).patrolled (2 ^ 35 - 64) = true ∧
      (inLife { patrolBad := [((inLife {}).at 0).rowOf 0] }).life.patrolBad.contains (((inLife {}).at 0).rowOf 0) = true) ∧
    ((inLife {}).time.valid = true ∧ (inLife {}).life.refDueAt = none ∧
      ((inLife {}).put .LIFE_REFRESH_NEXT_SEC 0 1).get .LIFE_REFRESH_NEXT_SEC ≤ secOf (inLife {}).tick ∧ (inLife {}).life.refStage = 0) ∧
    ((inLife { refDueAt := some 0 }).refreshRuns = true ∧ 0 + 86400 * qSec ≤ ((inLife { refDueAt := some 0 }).at (86400 * qSec)).now) ∧
    ((inLife { refWant := true }).life.refWant = true ∧ (inLife { refStage := 1, refFails := 2 }).life.refStage ≠ 0) ∧
    (∃ s : State, (s.at 0).logicState = true ∧ s.dev ≠ .hold ∧ (s.rest kHbm).declared = none ∧ s.hbm.training = none ∧ s.hbm.trained = false ∧
      (∀ j, j < 10 → (s.at 0).railOn j = true ∧ s.get .PWR_RAIL_PG j = 1)) ∧
    (∃ s : State, s.hbm.training = some 0) :=
  ⟨by decide +kernel, by decide +kernel, by decide +kernel, by decide +kernel,
    ⟨(List.range 10).foldl (fun s j => s.put .PWR_RAIL_PG j 1) { runGate with power := { enabled := List.range 10 } }, by decide +kernel⟩,
    ⟨{ hbm := { training := some 0 } }, rfl⟩⟩

theorem test_OtherCommandsLeaveMemory_meets :
    mayWriteMemory (.holdover 0 0 0) = false ∧ exec (.holdover 0 0 0) State.reset = .next State.reset := ⟨rfl, rfl⟩

theorem test_OtherCommandsLeaveDeviceState_meets :
    mayChangeDevice (.edge 0 143 true 0) = false ∧ exec (.edge 0 143 true 0) State.reset = .next State.reset := ⟨rfl, rfl⟩

theorem test_ReadsFollowWrites_meets : Sound State.reset ∧ Sound runGate := ⟨⟨rfl, rfl, rfl, rfl⟩, ⟨rfl, rfl, rfl, rfl⟩⟩

theorem test_EventRegistersFollowSeq_meets :
    (Fld.LIFE_EVENT_UNIT_DONE ∈ Reg.fields .LIFE_EVENT ∧ Fld.LIFE_EVENT_UNIT_DONE.desc.acc = .EV) ∧
    (255 * 2 ^ 24 / 2 ^ 24 % 256 = (runGate.put .LIFE_EVENT_SEQ 0 255).get (Fld.seqOf .LIFE_EVENT_UNIT_DONE) 0) ∧
    (254 * 2 ^ 24 / 2 ^ 24 % 256 ≠ (runGate.put .LIFE_EVENT_SEQ 0 255).get (Fld.seqOf .LIFE_EVENT_UNIT_DONE) 0) := by
  decide +kernel

/-- RUN, with the gates of two ports open. -/
def runGates : State := { State.reset with dev := .run, ports := [(0, { gate := true }), (1, { gate := true })] }

/-- R418, R420: Harvests of two ports in one cycle start one Harvest, and both writes are accepted. -/
theorem test_harvests_of_one_cycle :
    let y := (runGates.portWrite 0 (Reg.addr .DEV_CMD 0) 1).portWrite 1 (Reg.addr .DEV_CMD 0) 1
    (y.port 0).resp.err = 0 ∧ (y.port 1).resp.err = 0 ∧ y.bank.busy = true := by decide +kernel

/-- R420: an RW field that two ports write in one cycle keeps the value of the port with the lower number. -/
theorem test_lower_port_wins :
    let y := (runGates.portWrite 0 (Reg.addr .DEV_IRQ_ENABLE 0) 3).portWrite 1 (Reg.addr .DEV_IRQ_ENABLE 0) 5
    (y.port 1).resp.err = 0 ∧ y.get .DEV_IRQ_ENABLE_BLOCKS = 3 := by decide +kernel

theorem test_RefusedWritesChangeNothingElse_meets :
    Command .DEV_CMD 0 ∧ (runGate.at 0).servedAt 0 (Reg.addr .DEV_CMD 0) true = true ∧ (runGate.at 0).holdServes (.reg .DEV_CMD 0 false) = true ∧
    ((runGate.at 0).port 0).wr = none ∧ (readFalls (runGate.at 0) 0).writeError 0 .DEV_CMD 0 ((readFalls (runGate.at 0) 0).settledWord 0 .DEV_CMD 0 4) = some eState ∧ eState ≠ 0 ∧ eState ≠ eBudget :=
  ⟨.of_ok (by decide), by decide +kernel⟩

theorem test_PatrolSkipsWhatItMust_meets :
    (State.reset.at 0).hbmTop ≤ 2 ^ 35 ∧
    (({ State.reset with life := { pchBusy := some (0, true) } } : State).at 0).life.pchBusy =
      some (((({ State.reset with life := { pchBusy := some (0, true) } } : State).at 0).placeOf (0 / 4096)).1, true) ∧
    bit (State.reset.get .LIFE_PCH_RETIRED_BITS) 63 = false := by
  decide +kernel

/-- The worked example of R443: granule 1,192,997 with PCH37 retired. -/
theorem test_R443_example : (State.reset.put .LIFE_PCH_RETIRED_BITS 0 (2 ^ 37)).placeOf 1192997 = (56, 129319) ∧
    1192997 * 4096 < (State.reset.put .LIFE_PCH_RETIRED_BITS 0 (2 ^ 37)).hbmTop := by decide +kernel

theorem test_GranulesHavePlacesOfTheirOwn_meets : 0 * 4096 < State.reset.hbmTop ∧ 8388607 * 4096 < State.reset.hbmTop := by decide +kernel

/-- R58 at the ends of the ranges. -/
theorem test_TimeWordsAndTicksAgree_meets : secOf (ticksOf (2 ^ 32 - 1) 9999999 524287 : Nat) = 2 ^ 32 - 1 ∧
    perOf (ticksOf (2 ^ 32 - 1) 9999999 524287 : Nat) = 9999999 ∧ fracOf (ticksOf (2 ^ 32 - 1) 9999999 524287 : Nat) = 524287 := by
  decide +kernel

end Sys2Proof.Tests
end

section
/-!
The whole-machine rules of the architecture family: soundness of every step and of the reset state, the answer of every
command, and the frames of memory and of the device state.
-/

namespace Sys2Proof.Machine

/-- A command keeps what it keeps of the state with the rest of the queue; soundness does not speak of the queue. -/
theorem sound_withPending {s : State} (h : Sound s) (rest : List Instr) : Sound { s with pending := rest } :=
  ⟨h.regs, h.force, h.mem, h.groups⟩

/-- What every next state of a command keeps. -/
theorem keeps_of_exec_next {c : Instr} {s x : State} (h : exec c s = .next x) : Keeps s x := by
  have hk := exec_keeps c (Keeps.refl s)
  rw [h] at hk
  exact hk

/-- Settles O3: a step either idles or is one command, and every command keeps soundness. -/
theorem stepKeepsSound : Obligations.StepKeepsSound := by
  intro s t hs h
  cases hp : s.pending with
  | nil =>
    simp only [step, hp, Host.Outcome.next.injEq] at h
    exact h ▸ hs
  | cons c rest =>
    simp only [step, hp] at h
    exact (keeps_of_exec_next h).sound (sound_withPending hs rest)

/-- Settles O5: the outcome is decided by the check of the operands alone (R27), and every command keeps the queue's rest
and the course of time. -/
theorem commandsAnswer : Obligations.CommandsAnswer := by
  intro c s
  obtain ⟨hnext, hfault⟩ := exec_answers c s
  refine ⟨fun hw => ?_, hfault⟩
  obtain ⟨x, hx⟩ := hnext hw
  have hk := keeps_of_exec_next hx
  exact ⟨x, hx, hk.pending, hk.now⟩

/-- Settles O4. -/
theorem resetSound : Obligations.ResetSound := ⟨⟨rfl, rfl, rfl, rfl⟩, rfl, rfl⟩

/-! ## Frames of the whole machine -/

/-- No command but those of `mayWriteMemory` changes the memory. -/
theorem exec_sameMem {s0 s : State} (c : Instr) (hc : mayWriteMemory c = false) (hs : SameMem s0 s) :
    SameMemO s0 (exec c s) := by
  cases c with
  | uvloRise _ => exact execUvloRise_sameMem (hs := hs) ..
  | auxEntry _ => exact execAuxEntry_sameMem (hs := hs) ..
  | lowInput _ _ => exact execLowInput_sameMem (hs := hs) ..
  | fetRetry _ => exact execFetRetry_sameMem (hs := hs) ..
  | busEn _ _ => exact execBusEn_sameMem (hs := hs) ..
  | railEnable _ => exact execRailEnable_sameMem (hs := hs) ..
  | protectiveRestart _ => exact execProtectiveRestart_sameMem (hs := hs) ..
  | wakeIsland _ _ => exact execWakeIsland_sameMem (hs := hs) ..
  | islandDrained _ _ => exact execIslandDrained_sameMem (hs := hs) ..
  | islandUnlock _ _ => exact execIslandUnlock_sameMem (hs := hs) ..
  | islandRelock _ _ _ => exact execIslandRelock_sameMem (hs := hs) ..
  | is8Relock _ => exact execIs8Relock_sameMem (hs := hs) ..
  | restorationHeld _ _ => exact execRestorationHeld_sameMem (hs := hs) ..
  | refLock _ _ _ _ _ => exact execRefLock_sameMem (hs := hs) ..
  | holdover _ _ _ => exact execHoldover_sameMem (hs := hs) ..
  | ppsEdge _ _ _ _ => exact execPpsEdge_sameMem (hs := hs) ..
  | ppsMissing _ => exact execPpsMissing_sameMem (hs := hs) ..
  | alignWaitTimeout _ => exact execAlignWaitTimeout_sameMem (hs := hs) ..
  | realignTimeout _ => exact execRealignTimeout_sameMem (hs := hs) ..
  | frameBoundary _ _ => exact execFrameBoundary_sameMem (hs := hs) ..
  | sysrefPulse _ _ _ => exact execSysrefPulse_sameMem (hs := hs) ..
  | periodicAnchor _ _ => exact execPeriodicAnchor_sameMem (hs := hs) ..
  | gapAnchor _ _ => exact execGapAnchor_sameMem (hs := hs) ..
  | channelStart _ _ _ _ => exact execChannelStart_sameMem (hs := hs) ..
  | edge _ _ _ _ => exact execEdge_sameMem (hs := hs) ..
  | runtPulse _ _ _ _ _ => exact execRuntPulse_sameMem (hs := hs) ..
  | overflowEnd _ _ => exact execOverflowEnd_sameMem (hs := hs) ..
  | calibrationHit _ _ _ => exact execCalibrationHit_sameMem (hs := hs) ..
  | calTableBuild _ _ => exact execCalTableBuild_sameMem (hs := hs) ..
  | commitApplyEarly _ _ _ _ => exact execCommitApplyEarly_sameMem (hs := hs) ..
  | settleEnd _ _ => exact execSettleEnd_sameMem (hs := hs) ..
  | overdriveStart _ _ _ => exact execOverdriveStart_sameMem (hs := hs) ..
  | overdriveEnd _ _ => exact execOverdriveEnd_sameMem (hs := hs) ..
  | windowHoldEnd _ _ => exact execWindowHoldEnd_sameMem (hs := hs) ..
  | switch _ _ _ => exact execSwitch_sameMem (hs := hs) ..
  | spareWarmupTimeout _ _ => exact execSpareWarmupTimeout_sameMem (hs := hs) ..
  | rejoin _ _ => exact execRejoin_sameMem (hs := hs) ..
  | backendFault _ _ => exact execBackendFault_sameMem (hs := hs) ..
  | interpolatorNoHits _ _ => exact execInterpolatorNoHits_sameMem (hs := hs) ..
  | ingestStart _ _ => exact execIngestStart_sameMem (hs := hs) ..
  | waveformSettleEnd _ _ => exact execWaveformSettleEnd_sameMem (hs := hs) ..
  | convEnd _ _ => exact execConvEnd_sameMem (hs := hs) ..
  | windowOpen _ _ => exact execWindowOpen_sameMem (hs := hs) ..
  | windowClose _ _ => exact execWindowClose_sameMem (hs := hs) ..
  | engineUpdate _ _ => exact execEngineUpdate_sameMem (hs := hs) ..
  | gateTimeout _ _ => exact execGateTimeout_sameMem (hs := hs) ..
  | contextMove _ _ => exact execContextMove_sameMem (hs := hs) ..
  | ready _ _ => exact execReady_sameMem (hs := hs) ..
  | autoTimeout _ _ => exact execAutoTimeout_sameMem (hs := hs) ..
  | sweepComplete _ _ => exact execSweepComplete_sameMem (hs := hs) ..
  | presenceWindowEnd _ _ => exact execPresenceWindowEnd_sameMem (hs := hs) ..
  | targetEdgeExpiry _ _ => exact execTargetEdgeExpiry_sameMem (hs := hs) ..
  | verdict _ _ => exact execVerdict_sameMem (hs := hs) ..
  | pulseEnd _ _ _ => exact execPulseEnd_sameMem (hs := hs) ..
  | pauseDrained _ _ => exact execPauseDrained_sameMem (hs := hs) ..
  | descriptorComplete _ _ => exact execDescriptorComplete_sameMem (hs := hs) ..
  | laneStartTime _ => exact execLaneStartTime_sameMem (hs := hs) ..
  | attempt _ _ => exact execAttempt_sameMem (hs := hs) ..
  | signal _ _ => exact execSignal_sameMem (hs := hs) ..
  | lock _ _ => exact execLock_sameMem (hs := hs) ..
  | adapt _ _ _ _ => exact execAdapt_sameMem (hs := hs) ..
  | ffe _ _ => exact execFfe_sameMem (hs := hs) ..
  | trainingTimeout _ _ => exact execTrainingTimeout_sameMem (hs := hs) ..
  | seekRetry _ _ _ => exact execSeekRetry_sameMem (hs := hs) ..
  | eyeMeasurement _ _ _ _ => exact execEyeMeasurement_sameMem (hs := hs) ..
  | adaptationUpdate _ _ _ => exact execAdaptationUpdate_sameMem (hs := hs) ..
  | adaptationFreeze _ _ => exact execAdaptationFreeze_sameMem (hs := hs) ..
  | p2ExitTimeout _ _ => exact execP2ExitTimeout_sameMem (hs := hs) ..
  | alignSlot _ _ => exact execAlignSlot_sameMem (hs := hs) ..
  | align _ _ _ => exact execAlign_sameMem (hs := hs) ..
  | creditRepeat _ _ _ => exact execCreditRepeat_sameMem (hs := hs) ..
  | train _ _ _ => exact execTrain_sameMem (hs := hs) ..
  | p1 _ _ _ => exact execP1_sameMem (hs := hs) ..
  | read8 _ _ _ => exact execRead8_sameMem (hs := hs) ..
  | read16 _ _ _ => exact execRead16_sameMem (hs := hs) ..
  | read32 _ _ _ => exact execRead32_sameMem (hs := hs) ..
  | phase _ => exact execPhase_sameMem (hs := hs) ..
  | captureDr _ => exact execCaptureDr_sameMem (hs := hs) ..
  | idcode _ => exact execIdcode_sameMem (hs := hs) ..
  | bypass _ => exact execBypass_sameMem (hs := hs) ..
  | samplePreload _ _ _ => exact execSamplePreload_sameMem (hs := hs) ..
  | extest _ _ => exact execExtest_sameMem (hs := hs) ..
  | harvestInstant _ => exact execHarvestInstant_sameMem (hs := hs) ..
  | harvestDone _ => exact execHarvestDone_sameMem (hs := hs) ..
  | lifeHour _ _ => exact execLifeHour_sameMem (hs := hs) ..
  | hourly _ => exact execHourly_sameMem (hs := hs) ..
  | ledgerWrite _ _ => exact execLedgerWrite_sameMem (hs := hs) ..
  | patrolRead _ _ _ _ _ => exact execPatrolRead_sameMem (hs := hs) ..
  | refreshDue _ => exact execRefreshDue_sameMem (hs := hs) ..
  | refreshAutoStart _ => exact execRefreshAutoStart_sameMem (hs := hs) ..
  | refreshSector _ _ _ _ => exact execRefreshSector_sameMem (hs := hs) ..
  | migrationDone _ => exact execMigrationDone_sameMem (hs := hs) ..
  | engineMoveDone _ => exact execEngineMoveDone_sameMem (hs := hs) ..
  | embLock _ _ => exact execEmbLock_sameMem (hs := hs) ..
  | hbmTrainingStart _ => exact execHbmTrainingStart_sameMem (hs := hs) ..
  | p2ExitComplete _ _ => exact execP2ExitComplete_sameMem (hs := hs) ..
  | p1SignalReturn _ _ => exact execP1SignalReturn_sameMem (hs := hs) ..
  | _ => exact nomatch hc

/-- No command but those of `mayChangeDevice` changes the device state or the one it came from. -/
theorem exec_sameDev {s0 s : State} (c : Instr) (hc : mayChangeDevice c = false) (hs : SameDev s0 s) :
    SameDevO s0 (exec c s) := by
  cases c with
  | uvloRise _ => exact execUvloRise_sameDev (hs := hs) ..
  | lowInput _ _ => exact execLowInput_sameDev (hs := hs) ..
  | fetRetry _ => exact execFetRetry_sameDev (hs := hs) ..
  | busEn _ _ => exact execBusEn_sameDev (hs := hs) ..
  | railEnable _ => exact execRailEnable_sameDev (hs := hs) ..
  | protectiveRestart _ => exact execProtectiveRestart_sameDev (hs := hs) ..
  | wakeIsland _ _ => exact execWakeIsland_sameDev (hs := hs) ..
  | islandDrained _ _ => exact execIslandDrained_sameDev (hs := hs) ..
  | islandUnlock _ _ => exact execIslandUnlock_sameDev (hs := hs) ..
  | islandRelock _ _ _ => exact execIslandRelock_sameDev (hs := hs) ..
  | restorationHeld _ _ => exact execRestorationHeld_sameDev (hs := hs) ..
  | refLock _ _ _ _ _ => exact execRefLock_sameDev (hs := hs) ..
  | holdover _ _ _ => exact execHoldover_sameDev (hs := hs) ..
  | ppsEdge _ _ _ _ => exact execPpsEdge_sameDev (hs := hs) ..
  | ppsMissing _ => exact execPpsMissing_sameDev (hs := hs) ..
  | alignWaitTimeout _ => exact execAlignWaitTimeout_sameDev (hs := hs) ..
  | realignTimeout _ => exact execRealignTimeout_sameDev (hs := hs) ..
  | secondBoundary _ => exact execSecondBoundary_sameDev (hs := hs) ..
  | frameBoundary _ _ => exact execFrameBoundary_sameDev (hs := hs) ..
  | sysrefPulse _ _ _ => exact execSysrefPulse_sameDev (hs := hs) ..
  | periodicAnchor _ _ => exact execPeriodicAnchor_sameDev (hs := hs) ..
  | gapAnchor _ _ => exact execGapAnchor_sameDev (hs := hs) ..
  | channelStart _ _ _ _ => exact execChannelStart_sameDev (hs := hs) ..
  | edge _ _ _ _ => exact execEdge_sameDev (hs := hs) ..
  | runtPulse _ _ _ _ _ => exact execRuntPulse_sameDev (hs := hs) ..
  | overflowEnd _ _ => exact execOverflowEnd_sameDev (hs := hs) ..
  | recordToFabric _ _ => exact execRecordToFabric_sameDev (hs := hs) ..
  | calibrationHit _ _ _ => exact execCalibrationHit_sameDev (hs := hs) ..
  | calTableBuild _ _ => exact execCalTableBuild_sameDev (hs := hs) ..
  | commitApplyEarly _ _ _ _ => exact execCommitApplyEarly_sameDev (hs := hs) ..
  | settleEnd _ _ => exact execSettleEnd_sameDev (hs := hs) ..
  | overdriveStart _ _ _ => exact execOverdriveStart_sameDev (hs := hs) ..
  | overdriveEnd _ _ => exact execOverdriveEnd_sameDev (hs := hs) ..
  | windowAssert _ _ _ => exact execWindowAssert_sameDev (hs := hs) ..
  | windowDeassert _ _ _ => exact execWindowDeassert_sameDev (hs := hs) ..
  | windowHoldEnd _ _ => exact execWindowHoldEnd_sameDev (hs := hs) ..
  | switch _ _ _ => exact execSwitch_sameDev (hs := hs) ..
  | spareWarmupTimeout _ _ => exact execSpareWarmupTimeout_sameDev (hs := hs) ..
  | rejoin _ _ => exact execRejoin_sameDev (hs := hs) ..
  | backendFault _ _ => exact execBackendFault_sameDev (hs := hs) ..
  | interpolatorNoHits _ _ => exact execInterpolatorNoHits_sameDev (hs := hs) ..
  | ingestStart _ _ => exact execIngestStart_sameDev (hs := hs) ..
  | waveformSettleEnd _ _ => exact execWaveformSettleEnd_sameDev (hs := hs) ..
  | convEnd _ _ => exact execConvEnd_sameDev (hs := hs) ..
  | windowOpen _ _ => exact execWindowOpen_sameDev (hs := hs) ..
  | windowClose _ _ => exact execWindowClose_sameDev (hs := hs) ..
  | engineUpdate _ _ => exact execEngineUpdate_sameDev (hs := hs) ..
  | gateTimeout _ _ => exact execGateTimeout_sameDev (hs := hs) ..
  | publish _ _ => exact execPublish_sameDev (hs := hs) ..
  | contextMove _ _ => exact execContextMove_sameDev (hs := hs) ..
  | fillStart _ _ => exact execFillStart_sameDev (hs := hs) ..
  | ready _ _ => exact execReady_sameDev (hs := hs) ..
  | autoTimeout _ _ => exact execAutoTimeout_sameDev (hs := hs) ..
  | intervalTimeout _ _ _ => exact execIntervalTimeout_sameDev (hs := hs) ..
  | captureClose _ _ => exact execCaptureClose_sameDev (hs := hs) ..
  | clearDone _ _ => exact execClearDone_sameDev (hs := hs) ..
  | stagingMerge _ _ => exact execStagingMerge_sameDev (hs := hs) ..
  | sweepComplete _ _ => exact execSweepComplete_sameDev (hs := hs) ..
  | tapEdge _ _ => exact execTapEdge_sameDev (hs := hs) ..
  | maskSpanPassed _ _ => exact execMaskSpanPassed_sameDev (hs := hs) ..
  | presenceWindowEnd _ _ => exact execPresenceWindowEnd_sameDev (hs := hs) ..
  | targetEdgeExpiry _ _ => exact execTargetEdgeExpiry_sameDev (hs := hs) ..
  | verdict _ _ => exact execVerdict_sameDev (hs := hs) ..
  | firing _ _ _ => exact execFiring_sameDev (hs := hs) ..
  | pulseEnd _ _ _ => exact execPulseEnd_sameDev (hs := hs) ..
  | pauseDrained _ _ => exact execPauseDrained_sameDev (hs := hs) ..
  | descriptorComplete _ _ => exact execDescriptorComplete_sameDev (hs := hs) ..
  | laneStartTime _ => exact execLaneStartTime_sameDev (hs := hs) ..
  | attempt _ _ => exact execAttempt_sameDev (hs := hs) ..
  | signal _ _ => exact execSignal_sameDev (hs := hs) ..
  | lock _ _ => exact execLock_sameDev (hs := hs) ..
  | adapt _ _ _ _ => exact execAdapt_sameDev (hs := hs) ..
  | ffe _ _ => exact execFfe_sameDev (hs := hs) ..
  | trainingTimeout _ _ => exact execTrainingTimeout_sameDev (hs := hs) ..
  | seekRetry _ _ _ => exact execSeekRetry_sameDev (hs := hs) ..
  | eyeMeasurement _ _ _ _ => exact execEyeMeasurement_sameDev (hs := hs) ..
  | adaptationUpdate _ _ _ => exact execAdaptationUpdate_sameDev (hs := hs) ..
  | adaptationFreeze _ _ => exact execAdaptationFreeze_sameDev (hs := hs) ..
  | p2ExitTimeout _ _ => exact execP2ExitTimeout_sameDev (hs := hs) ..
  | alignSlot _ _ => exact execAlignSlot_sameDev (hs := hs) ..
  | align _ _ _ => exact execAlign_sameDev (hs := hs) ..
  | stream _ _ _ => exact execStream_sameDev (hs := hs) ..
  | credit _ _ _ => exact execCredit_sameDev (hs := hs) ..
  | creditRepeat _ _ _ => exact execCreditRepeat_sameDev (hs := hs) ..
  | start _ _ _ => exact execStart_sameDev (hs := hs) ..
  | timeSet _ _ _ => exact execTimeSet_sameDev (hs := hs) ..
  | leap _ _ _ => exact execLeap_sameDev (hs := hs) ..
  | linkTrigger _ _ _ => exact execLinkTrigger_sameDev (hs := hs) ..
  | train _ _ _ => exact execTrain_sameDev (hs := hs) ..
  | p1 _ _ _ => exact execP1_sameDev (hs := hs) ..
  | unknownBlock _ _ _ => exact execUnknownBlock_sameDev (hs := hs) ..
  | read8 _ _ _ => exact execRead8_sameDev (hs := hs) ..
  | read16 _ _ _ => exact execRead16_sameDev (hs := hs) ..
  | read32 _ _ _ => exact execRead32_sameDev (hs := hs) ..
  | phase _ => exact execPhase_sameDev (hs := hs) ..
  | captureDr _ => exact execCaptureDr_sameDev (hs := hs) ..
  | idcode _ => exact execIdcode_sameDev (hs := hs) ..
  | bypass _ => exact execBypass_sameDev (hs := hs) ..
  | samplePreload _ _ _ => exact execSamplePreload_sameDev (hs := hs) ..
  | extest _ _ => exact execExtest_sameDev (hs := hs) ..
  | harvestInstant _ => exact execHarvestInstant_sameDev (hs := hs) ..
  | harvestDone _ => exact execHarvestDone_sameDev (hs := hs) ..
  | lifeHour _ _ => exact execLifeHour_sameDev (hs := hs) ..
  | hourly _ => exact execHourly_sameDev (hs := hs) ..
  | ledgerWrite _ _ => exact execLedgerWrite_sameDev (hs := hs) ..
  | patrolRead _ _ _ _ _ => exact execPatrolRead_sameDev (hs := hs) ..
  | refreshDue _ => exact execRefreshDue_sameDev (hs := hs) ..
  | refreshAutoStart _ => exact execRefreshAutoStart_sameDev (hs := hs) ..
  | refreshSector _ _ _ _ => exact execRefreshSector_sameDev (hs := hs) ..
  | migrationDone _ => exact execMigrationDone_sameDev (hs := hs) ..
  | engineMoveDone _ => exact execEngineMoveDone_sameDev (hs := hs) ..
  | embLock _ _ => exact execEmbLock_sameDev (hs := hs) ..
  | hbmTrainingStart _ => exact execHbmTrainingStart_sameDev (hs := hs) ..
  | p2ExitComplete _ _ => exact execP2ExitComplete_sameDev (hs := hs) ..
  | p1SignalReturn _ _ => exact execP1SignalReturn_sameDev (hs := hs) ..
  | _ => exact nomatch hc

/-- Settles O52: the memory is the same data, so every byte reads alike. -/
theorem otherCommandsLeaveMemory : Obligations.OtherCommandsLeaveMemory := by
  intro c s x hc h a
  have hm := exec_sameMem c hc (SameMem.refl s)
  rw [h] at hm
  exact congrArg (fun m => SMap.get memDefault m a) hm

/-- Settles O53. -/
theorem otherCommandsLeaveDeviceState : Obligations.OtherCommandsLeaveDeviceState := by
  intro c s x hc h
  have hd := exec_sameDev c hc (SameDev.refl s)
  rw [h] at hd
  exact hd

end Sys2Proof.Machine
end

section
/-!
The events of the power-entry side (R29, R72-R76, R80, R86, R96): what brings the device to AUX, and what brings it back.
-/

namespace Sys2Proof.Machine

/-! ## What these events read of the state -/

/-- A change of other power controls leaves the device down. -/
theorem wentDown_withPower {x : State} (h : WentDown x) (pw : Power) (h1 : pw.fet = x.power.fet) (h2 : pw.bus = x.power.bus)
    (h3 : pw.enabled = x.power.enabled) : WentDown { x with power := pw } :=
  ⟨h.dev, h1.trans h.fet, h2.trans h.bus, h3.trans h.enabled, h.mem, h.chans, h.time⟩

/-! ## Power entry -/

theorem State.riseVin_of_off {s : State} (hd : s.dev = .off) (hv : s.power.vin = false) :
    s.riseVin = { s with
      power := { s.power with vin := true, vinAt := s.now }, life := { s.life with hoursAt := s.now, wholeAt := s.now } } := by
  simp [State.riseVin, hd, hv]

theorem State.toAux_of_due {s : State} (hd : s.dev = .off) (hv : s.power.vin = true) (ht : s.power.vinAt + 8 * qMs ≤ s.now) :
    s.toAux = { s with dev := .aux } := by
  simp [State.toAux, hd, hv, ht]

/-- Settles O8. -/
theorem powerEntryTakesEffect : Obligations.PowerEntryTakesEffect := by
  intro s t
  refine ⟨fun hd hv => ?_, fun hd hv ht => ?_, ?_, fun hd => ?_, fun hd hl => ?_, fun hd hl => ?_⟩
  · refine ⟨_, congrArg Host.Outcome.next (State.riseVin_of_off (s := s.at t) hd hv), rfl, hd, rfl, rfl⟩
  · exact congrArg Host.Outcome.next (State.toAux_of_due (s := s.at t) hd hv ht)
  · exact ⟨_, rfl, rfl, rfl, rfl, rfl, rfl, rfl, rfl, rfl, rfl, rfl, rfl⟩
  · simp [exec, execLowInput, State.lowVin, hd, b2n]
  · simp [exec, execLowInput, State.lowVin, hd, hl, State.flag, b2n]
  · simp [exec, execLowInput, State.lowVin, hd, hl, State.flag, b2n]

/-! ## Protective entries -/

/-- R74: turning the FET off changes nothing but the power controls. -/
theorem State.protectNow_fetOff_down {s : State} (h : s.logicState = true) (c : Nat) :
    WentDown (s.fetOff.protectNow c) ∧ (s.fetOff.protectNow c).power.protect = true := by
  obtain ⟨hw, hp, -, -⟩ := State.protectNow_down (u := s.fetOff) h c
  exact ⟨hw, hp⟩

theorem State.overVin_down {s : State} (h : s.logicState = true) (hv : s.power.vin = true) (ha : s.power.above = false) :
    WentDown s.overVin ∧ s.overVin.power.above = true ∧ s.overVin.power.protect = true := by
  have e : s.overVin = { (State.protectNow ({ s with power := { s.power with above := true } }.raise .HVS_EVENT_OVER_SEEN) evOver) with
      power := { (State.protectNow ({ s with power := { s.power with above := true } }.raise .HVS_EVENT_OVER_SEEN) evOver).power with
        protect := true } } := by
    simp [State.overVin, hv, ha, h]
  obtain ⟨hw, -, hab, -⟩ := State.protectNow_down
    (u := { s with power := { s.power with above := true } }.raise .HVS_EVENT_OVER_SEEN) h evOver
  rw [e]
  exact ⟨wentDown_withPower hw _ rfl rfl rfl, hab, rfl⟩

theorem State.tripFet_down {s : State} (h : s.logicState = true) (hf : s.fetOn = true) :
    WentDown s.tripFet ∧ s.tripFet.power.protect = true := by
  rw [State.tripFet, if_pos hf]
  exact State.protectNow_fetOff_down (s := (s.count .HVS_TRIPS_COUNT).raise .HVS_EVENT_LIMIT_TRIP) h evHotSwap

theorem State.loseHeartbeat_down {s : State} (h : s.logicState = true) (hf : s.fetOn = true) :
    WentDown s.loseHeartbeat ∧ s.loseHeartbeat.power.protect = true := by
  rw [State.loseHeartbeat, if_neg (State.logicState_ne_off h), if_pos hf]
  exact State.protectNow_fetOff_down
    (s := { s with power := { s.power with beat := false } }.raise .HVS_EVENT_HEARTBEAT_LOST) h evHotSwap

/-- Settles O9: each of the five is a protective entry of a device in a logic state. -/
theorem protectiveEntriesTakeEffect : Obligations.ProtectiveEntriesTakeEffect := by
  intro s t i hl hi
  refine ⟨fun hv ha => ⟨_, rfl, State.overVin_down (s := s.at t) hl hv ha⟩, fun since ma hf hma ht => ?_, fun ma hf hma => ?_,
    fun hf => ⟨_, rfl, State.loseHeartbeat_down (s := s.at t) hl hf⟩, fun hv => ?_⟩
  · have hft : (s.at t).faultTimer since ma = true := by
      simp only [State.faultTimer, Bool.and_eq_true, decide_eq_true_eq]
      exact ⟨hma, ht⟩
    refine ⟨_, ?_, State.tripFet_down (s := s.at t) hl hf⟩
    simp [exec, execHotSwapTrip, hft]
  · have hlim : 3 * (s.at t).limitMa ≤ ma := hma
    refine ⟨_, ?_, State.tripFet_down (s := s.at t) hl hf⟩
    simp [exec, execFastTrip, hlim]
  · refine ⟨_, ?_, State.thermalDown_down (s := s.at t) i hl⟩
    simp only [exec, execThermalShutdown, numSensors, hi, State.at_gov, hv, if_true]

/-! ## Returns -/

theorem State.release_of_due {s : State} (hd : s.dev = .aux) (hv : s.vinValid = true) (ht : s.power.vinAt + 10 * qMs ≤ s.now)
    (hth : s.power.thermal = false) (hp : s.power.protect = false) (hl : s.get .BOOT_STATUS_LOCKOUT = 0)
    (hr : s.power.reboot = false) : s.release = s.enterBoot := by
  simp [State.release, hd, hv, ht, hth, hp, State.flag, hl, hr]

theorem State.cooled_of_due {s : State} {c : Nat} (hc : s.gov.cool = some c) (ht : c + 10 * qSec ≤ s.now) (hd : s.dev = .aux)
    (hth : s.power.thermal = true) (hp : s.power.protect = false) (hv : s.vinValid = true)
    (hl : s.get .BOOT_STATUS_LOCKOUT = 0) (hn : s.power.heat.length < 3) : s.cooled = s.enterBoot := by
  have hf : (s.power.heat.filter fun y => decide (s.now < y + 3600 * qSec)).length < 3 :=
    Nat.lt_of_le_of_lt (List.length_filter_le _ _) hn
  simp [State.cooled, hc, hd, hth, hp, ht, hv, State.flag, hl, hf]

/-- Settles O10. -/
theorem returnsTakeEffect : Obligations.ReturnsTakeEffect := by
  intro s t
  refine ⟨fun hd hv ht hth hp hl hr => ?_, fun c hc ht hd hth hp hv hl hn => ?_, fun hd hp hv hl hf hla hdn => ?_,
    fun c hc ht hv hb => ?_⟩
  · exact ⟨_, congrArg Host.Outcome.next (State.release_of_due (s := s.at t) hd hv ht hth hp hl hr), State.enterBoot_began⟩
  · exact ⟨_, congrArg Host.Outcome.next (State.cooled_of_due (s := s.at t) hc ht hd hth hp hv hl hn), State.enterBoot_began⟩
  · have hv' : (s.at t).vinValid = true := hv
    simp [exec, execProtectiveRestart, State.causeGone, hd, hp, hv', State.flag, hl, hf, hla, hdn]
  · have hv' : (s.at t).vinValid = true := hv
    simp [exec, execFetRetry, State.retryFet, State.fetStart, hc, ht, hv', hb]

end Sys2Proof.Machine
end

section
/-!
The events of the islands (R25, R61, R62, R87, R88): wakes, drains, unlocks and relocks.
-/

namespace Sys2Proof.Machine

/-- R61, R87, R88: a wake from IDLE or ON that is due puts the island in ON, or in IDLE where only a monitor or its floor
keeps it awake, and starts its monitors. -/
theorem State.wokenIsland_of_due {s : State} {k x : Nat} (hw : (s.island k).wakeAt = some x)
    (hx : x + wakeTime (s.island k).state ≤ s.now) (hst : (s.island k).state ≤ 1) (hf : s.power.feDown = false)
    (hd : s.dieUp = true) :
    s.wokenIsland k = ((islandChans k).foldl (fun s n =>
        if s.flag .TCH_WIN_CTL_ENABLE n ∧ (s.chan n).win.active = false then s.startWin n else s)
      (s.setIsland k { s.island k with
        state := if !((islandChans k).any fun n => (s.chan n).armed) && s.get .PWR_ISLAND_FLOOR k != 0 &&
          (s.islandWatched k || s.get .PWR_ISLAND_FLOOR k == 1) then 1 else 0
        wakeAt := none, target := none, unused := s.now, onAt := s.now })).settleTrips := by
  have h2 : ¬ 2 ≤ (s.island k).state := by omega
  have hdue : x + wakeTime (s.island k).state ≤ s.now ∧ s.power.feDown = false ∧ s.dieUp = true := ⟨hx, hf, hd⟩
  simp only [State.wokenIsland, hw, if_pos hdue, if_neg h2]

/-- R25, R88: an island that is armed again gives up its target, unless a rail fault forces it. -/
theorem State.drainedIsland_of_armed {s : State} {k st : Nat} (ht : (s.island k).target = some st) (he : s.islandEmpty k = true)
    (hf : (s.island k).forced = false) (ha : s.islandArmed k = true) :
    s.drainedIsland k = s.setIsland k { s.island k with target := none } := by
  simp [State.drainedIsland, ht, he, hf, ha]

/-- R25: an island that nothing arms enters its lower state. -/
theorem State.drainedIsland_of_unarmed {s : State} {k st : Nat} (ht : (s.island k).target = some st)
    (he : s.islandEmpty k = true) (hf : (s.island k).forced = false) (ha : s.islandArmed k = false) :
    s.drainedIsland k = s.lowerIsland k st := by
  simp [State.drainedIsland, ht, he, hf, ha]

/-- R84: an island that a rail fault forces enters its lower state, and wakes again if the rails are good by now. -/
theorem State.drainedIsland_of_forced {s : State} {k st : Nat} (ht : (s.island k).target = some st)
    (he : s.islandEmpty k = true) (hf : (s.island k).forced = true) :
    s.drainedIsland k = if (s.lowerIsland k st).power.feDown = true then s.lowerIsland k st
      else (islandChans k).foldl State.rewake (s.lowerIsland k st) := by
  simp only [State.drainedIsland, ht, he, hf, Bool.not_true, Bool.false_and, Bool.true_and, Bool.false_eq_true, if_false]
  cases (s.lowerIsland k st).power.feDown <;> rfl

/-- R87: the entry to IDLE changes the island's state and nothing else. -/
theorem State.lowerIsland_idle {s : State} {k : Nat} (hf : (s.island k).forced = false) :
    s.lowerIsland k 1 = s.setIsland k { s.island k with state := 1, target := none } := by
  simp [State.lowerIsland, ← hf]

/-- Settles O14. -/
theorem islandEventsTakeEffect : Obligations.IslandEventsTakeEffect := by
  intro s t k hk
  refine ⟨fun x hw hx hst hf hd => ?_, fun st ht he => ⟨fun hf ha => ?_, fun hf ha => ?_, fun hf hl => ?_, fun hf hl => ?_⟩,
    fun ht he ha hf => ?_, fun hst hu => ?_, fun counts hu => ?_⟩
  · exact (if_pos hk).trans (congrArg Host.Outcome.next (State.wokenIsland_of_due (s := s.at t) hw hx hst hf hd))
  · exact (if_pos hk).trans (congrArg Host.Outcome.next (State.drainedIsland_of_unarmed (s := s.at t) ht he hf ha))
  · exact (if_pos hk).trans (congrArg Host.Outcome.next (State.drainedIsland_of_armed (s := s.at t) ht he hf ha))
  · exact (if_pos hk).trans (congrArg Host.Outcome.next ((State.drainedIsland_of_forced (s := s.at t) ht he hf).trans (if_pos hl)))
  · exact (if_pos hk).trans (congrArg Host.Outcome.next ((State.drainedIsland_of_forced (s := s.at t) ht he hf).trans (if_neg (by simp [hl]))))
  · exact (if_pos hk).trans (congrArg Host.Outcome.next ((State.drainedIsland_of_unarmed (s := s.at t) ht he hf ha).trans
      (State.lowerIsland_idle (s := s.at t) hf)))
  · exact (if_pos hk).trans (congrArg Host.Outcome.next (if_pos (And.intro hst hu)))
  · exact (if_pos hk).trans (congrArg Host.Outcome.next (if_pos hu))

end Sys2Proof.Machine
end

section
/-!
The events of restorations (R29, R63, R468): the loss and the return of IS8, and the end of a restoration, done or failed.
-/

namespace Sys2Proof.Machine

/-! ## Device states and the records of restorations -/

theorem State.setDev_dev (s : State) (d : DevState) : (s.setDev d).dev = d := by
  obtain ⟨p, a, e, r, h⟩ := s.setDev_frame d
  rw [h]

/-- R29: RUN and TEST give way to RECOVERY. -/
theorem State.toRecovery_dev {s : State} (h : s.dev = .run ∨ s.dev = .test) : s.toRecovery.dev = .recovery := by
  unfold State.toRecovery
  by_cases hm : s.hostMoved = true
  · rw [if_pos hm]
  · rw [if_neg hm, if_pos h, State.setDev_dev]

theorem State.rest_setRest_same {s : State} (h : Sound s) (k : Nat) (r : Restore) : (s.setRest k r).rest k = r := by
  rw [State.rest_setRest (State.wf_restore h), if_pos rfl]

theorem State.rest_setRest_ne {s : State} (h : Sound s) {j k : Nat} (hj : j ≠ k) (r : Restore) :
    (s.setRest k r).rest j = s.rest j := by
  rw [State.rest_setRest (State.wf_restore h), if_neg hj]

/-- R468: outside RECOVERY, and before the third time in a row, a failed restoration is counted and goes on. -/
theorem State.failRestore_of_again {s : State} {k : Nat} (h : (s.rest k).fails < 2 ∨ s.dev ≠ .recovery) :
    s.failRestore k = s.setRest k { s.rest k with
      fails := (s.rest k).fails + 1, began := if k = kIs8 then some s.now else none
      second := if k = kIs8 then some s.now else none, ended := none, declared := some ((s.rest k).declared.getD s.now) } := by
  have hn : ¬ (3 ≤ (s.rest k).fails + 1 ∧ s.dev = .recovery) := by
    rintro ⟨h1, h2⟩
    rcases h with h | h
    · omega
    · exact h h2
  exact if_neg hn

/-- R29, R468: the third failure in a row takes RECOVERY to HOLD. -/
theorem State.failRestore_held {s : State} {k : Nat} (h1 : 2 ≤ (s.rest k).fails) (h2 : s.dev = .recovery) :
    (s.failRestore k).dev = .hold ∧ (s.failRestore k).restore = [] := by
  have hc : 3 ≤ (s.rest k).fails + 1 ∧ s.dev = .recovery := ⟨by omega, h2⟩
  have e : ∃ y : State, s.failRestore k = y.enterHold := ⟨_, if_pos hc⟩
  obtain ⟨y, e⟩ := e
  rw [e]
  exact ⟨y.enterHold_held.1, y.enterHold_held.2.1⟩

theorem State.failRestore_dev {s : State} {k : Nat} (h : s.dev ≠ .recovery) : (s.failRestore k).dev = s.dev := by
  rw [State.failRestore_of_again (.inr h)]
  rfl

/-- R29: a failure declared in RUN or TEST takes the device to RECOVERY. -/
theorem State.declare_dev {s : State} (h : s.dev = .run ∨ s.dev = .test) (k : Nat) (rails : Bool) :
    (s.declare k rails).dev = .recovery := by
  have hg : s.governs = true := by rcases h with h | h <;> simp [State.governs, h]
  have hr : s.dev ≠ .recovery := by rcases h with h | h <;> simp [h]
  have hf : ∀ y : State, y.dev = s.dev → (y.failRestore k).dev = s.dev := fun y e => by
    rw [State.failRestore_dev (e ▸ hr), e]
  simp only [State.declare, hg, Bool.not_true, Bool.false_eq_true, if_false]
  refine State.toRecovery_dev ?_
  have key : ∀ b : Bool, ∀ y : State, y.dev = s.dev → (if b = true then y.failRestore k else y).dev = s.dev := by
    intro b y e
    split
    · exact hf y e
    · exact e
  rw [key _ _ (by split <;> rfl)]
  exact h

/-- R468: a declared failure of no other subsystem keeps the device in RECOVERY. -/
theorem State.endRestore_dev {s : State} (hs : Sound s) {k : Nat} (h1 : s.dev = .recovery)
    (h2 : ∀ j, j < 5 → j ≠ k → (s.rest j).declared = none) : (s.endRestore k).dev = s.prev := by
  have hd : (s.setRest k { fails := (s.rest k).fails, ended := some s.now }).anyDeclared = false := by
    simp only [State.anyDeclared, List.any_eq_false, List.mem_range]
    intro j hj
    by_cases e : j = k
    · subst e; simp [State.rest_setRest_same hs]
    · simp [State.rest_setRest_ne hs e, h2 j hj e]
  have e : s.endRestore k = (s.setRest k { fails := (s.rest k).fails, ended := some s.now }).setDev s.prev :=
    if_pos ⟨h1, hd⟩
  rw [e, State.setDev_dev]

/-! ## IS8 -/

/-- R63: what stops with IS8, before its failure is declared: its sources are in a gap, the markers are low, and the ingest chains
lose their samples. -/
def State.is8Stopped (s : State) : State :=
  (List.range 16).foldl State.haltWave ((List.range 32).foldl (fun (s : State) m =>
      let s' := s.setMarker m { s.marker m with ball := false, high := none }
      if (s.marker m).ending then s'.endMarker m else s')
    (is8Sources.foldl (fun s k => if (s.src k).taking then s.beginCause k 1 true else s)
      { s.flagUnlock 8 with time := { (s.flagUnlock 8).time with halted := true, pulses := [], sysPulse := none } }))

theorem State.is8Stopped_sameDev (s : State) : SameDev s s.is8Stopped := by
  unfold State.is8Stopped
  refine foldl_pred (fun y n h => State.haltWave_sameDev h n) (foldl_pred (fun y m h => ?_) (foldl_pred (fun y k h => ?_) ?_))
  · exact ite_pred (State.endMarker_sameDev (State.setMarker_sameDev h m _) m) (State.setMarker_sameDev h m _)
  · exact ite_pred (State.beginCause_sameDev h k 1 true) h
  · exact ⟨rfl, rfl⟩

theorem State.loseIs8_of_running {s : State} (hg : s.governs = true) (hh : s.time.halted = false) :
    s.loseIs8 = s.is8Stopped.declare kIs8 false := by
  have hh' : (s.flagUnlock 8).time.halted = false := hh
  simp only [State.loseIs8, hg, Bool.not_true, Bool.false_eq_true, if_false, hh']
  rfl

theorem State.loseIs8_of_halted {s : State} (hg : s.governs = true) (hh : s.time.halted = true) :
    s.loseIs8 = s.flagUnlock 8 := by
  have hh' : (s.flagUnlock 8).time.halted = true := hh
  simp only [State.loseIs8, hg, Bool.not_true, Bool.false_eq_true, if_false, hh', if_true]

theorem State.loseIs8_of_down {s : State} (hg : s.governs = false) : s.loseIs8 = s := by
  simp only [State.loseIs8, hg, Bool.not_false, if_true]

/-- R29, R63: in RUN or TEST the loss of IS8 is followed by RECOVERY. -/
theorem State.loseIs8_dev {s : State} (h : s.dev = .run ∨ s.dev = .test) (hh : s.time.halted = false) :
    s.loseIs8.dev = .recovery := by
  have hg : s.governs = true := by rcases h with h | h <;> simp [State.governs, h]
  rw [State.loseIs8_of_running hg hh]
  exact State.declare_dev (by rw [s.is8Stopped_sameDev.1]; exact h) kIs8 false

/-! ## Restorations that are over -/

/-- Restoring the quads touches the quads alone. -/
theorem State.restoreQuads_frame (s : State) : ∃ q, s.restoreQuads = { s with quads := q } := by
  refine foldl_pred (P := fun y : State => ∃ q, y = { s with quads := q }) (fun y n h => ?_) ⟨_, rfl⟩
  obtain ⟨q, rfl⟩ := h
  split <;> exact ⟨_, rfl⟩

/-- R468: whether what a subsystem restores works again. -/
def State.works (s : State) : Subsystem → Bool
  | .is8 => !s.time.halted
  | .sluice => !s.slu.halted
  | .hbmTraining | .hbmRails => s.hbm.trained
  | .laneQuads | .laneRails => true
  | .ingest => !(List.range 32).any fun x => (s.slot x).failed

/-- R468: a restoration that has not begun its last stage, or whose subsystem does not work yet, goes on. -/
theorem State.restored_of_early {s : State} {sub : Subsystem}
    (h : (s.rest (subsystemKey sub).1).declared = none ∨ (s.rest (subsystemKey sub).1).second = none ∨ s.works sub = false) :
    s.restored (subsystemKey sub).1 = s := by
  unfold State.restored
  by_cases h1 : ((s.rest (subsystemKey sub).1).declared.isNone || (s.rest (subsystemKey sub).1).second.isNone) = true
  · exact if_pos h1
  · have hw : s.works sub = false := by
      rcases h with h | h | h
      · simp [h] at h1
      · simp [h] at h1
      · exact h
    simp only [h1]
    cases sub <;> simp_all [State.works, subsystemKey, kIs8, kSluice, kHbm, kLanes, kIngest]

/-- R29, R468: a restoration that is over ends with its image sections applied again, where the device is in RECOVERY. -/
theorem State.finishRestore_of_declared {s : State} {k : Nat} (h : (s.rest k).declared.isSome = true) :
    s.finishRestore k = (if s.dev = .recovery then s.reapply k else s).endRestore k := if_pos h

/-- The quads play no part in what follows their restoration. -/
theorem State.finishRestore_restoreQuads {s : State} {k : Nat} (h : (s.rest k).declared.isSome = true) :
    s.restoreQuads.finishRestore k = (if s.dev = .recovery then s.restoreQuads.reapply k else s.restoreQuads).endRestore k := by
  obtain ⟨q, e⟩ := s.restoreQuads_frame
  have hd : (s.restoreQuads.rest k).declared.isSome = true := by rw [e]; exact h
  have hv : s.restoreQuads.dev = s.dev := by rw [e]
  rw [State.finishRestore_of_declared hd, hv]

/-- R468: what a restoration does whose last stage has begun and whose subsystem works. -/
theorem State.restored_of_due {s : State} {sub : Subsystem} {k : Nat} (hk : k = (subsystemKey sub).1)
    (h1 : (s.rest k).declared.isSome = true) (h2 : (s.rest k).second.isSome = true) (h3 : s.works sub = true) :
    s.restored k = if k = kIs8 ∨ k = kSluice then s.endRestore k
      else if k = kLanes then s.restoreQuads.finishRestore k else s.finishRestore k := by
  have hn : ((s.rest k).declared.isNone || (s.rest k).second.isNone) = false := by
    rw [Bool.or_eq_false_iff, Option.isNone_eq_false_iff, Option.isNone_eq_false_iff]
    exact ⟨h1, h2⟩
  subst hk
  unfold State.restored
  simp only [hn]
  cases sub <;> simp_all [State.works, subsystemKey, kIs8, kSluice, kHbm, kLanes, kIngest]

/-! ## Restorations that fail, and those that hold -/

/-- R468: a restoration whose limit has passed fails; HBM's training ends with it. -/
theorem State.restoreOver_of_late {s : State} {k : Nat} (h : s.restoreLate k = true) :
    ∃ hb, s.restoreOver k = ({ s with hbm := hb } : State).failRestore k := by
  rw [State.restoreOver, if_pos h]
  by_cases e : k = kHbm
  · exact ⟨_, by rw [if_pos e]⟩
  · exact ⟨s.hbm, by rw [if_neg e]⟩

theorem State.restoreOver_of_early {s : State} {k : Nat} (h : s.restoreLate k = false) : s.restoreOver k = s := by
  simp [State.restoreOver, h]

theorem State.restoreHeld_of_due {s : State} {k x : Nat} (h1 : (s.rest k).ended = some x) (h2 : x + qSec ≤ s.now)
    (h3 : (s.rest k).declared = none) : s.restoreHeld k = s.setRest k {} := by
  simp [State.restoreHeld, h1, h2, h3]

theorem State.restoreHeld_of_early {s : State} {k : Nat}
    (h : ∀ x, (s.rest k).ended = some x → x + qSec ≤ s.now → (s.rest k).declared ≠ none) : s.restoreHeld k = s := by
  cases e : (s.rest k).ended with
  | none => simp only [State.restoreHeld, e]
  | some x =>
    have hn : ¬ (x + qSec ≤ s.now ∧ (s.rest k).declared = none) := fun hx => h x e hx.1 hx.2
    simp only [State.restoreHeld, e, if_neg hn]

/-- Settles O15. -/
theorem restorationEventsTakeEffect : Obligations.RestorationEventsTakeEffect := by
  intro s t sub hs
  have hu : Sound (s.at t) := (State.at_keeps (Keeps.refl s) t).sound hs
  have hworks : (match sub with
      | .is8 => !s.time.halted
      | .sluice => !s.slu.halted
      | .hbmTraining | .hbmRails => s.hbm.trained
      | .laneQuads | .laneRails => true
      | .ingest => !(List.range 32).any fun x => (s.slot x).failed) = (s.at t).works sub := by cases sub <;> rfl
  refine ⟨fun hg hh => ?_, fun hd hh => ?_, fun hg hh => ?_, fun hg => ?_, fun hh => ?_, fun hh => ?_, fun h1 h2 h3 => ?_,
    fun h => ?_, fun hd hp ho => ?_, fun hl => ?_, fun hl => ?_, fun x hx hn hd => ?_, fun h => ?_⟩
  · exact congrArg Host.Outcome.next (State.loseIs8_of_running (s := s.at t) hg hh)
  · exact ⟨_, rfl, State.loseIs8_dev (s := s.at t) hd hh⟩
  · exact congrArg Host.Outcome.next (State.loseIs8_of_halted (s := s.at t) hg hh)
  · exact congrArg Host.Outcome.next (State.loseIs8_of_down (s := s.at t) hg)
  · exact congrArg Host.Outcome.next (if_pos hh)
  · exact congrArg Host.Outcome.next (if_neg (by simp [hh]))
  · have hr := State.restored_of_due (s := s.at t) (sub := sub) rfl h1 h2 (hworks ▸ h3)
    refine ⟨fun hk => ?_, fun hk => ?_, fun hk => ?_⟩
    · refine congrArg Host.Outcome.next (hr.trans (if_pos ?_))
      rcases hk with rfl | rfl
      · exact .inl rfl
      · exact .inr rfl
    · refine congrArg Host.Outcome.next (hr.trans ?_)
      rw [if_neg (by rcases hk with hk | hk <;> rw [hk] <;> decide), if_neg (by rcases hk with hk | hk <;> rw [hk] <;> decide),
        State.finishRestore_of_declared (s := s.at t) h1]
      rfl
    · refine congrArg Host.Outcome.next (hr.trans ?_)
      rw [if_neg (by rw [hk]; decide), if_pos hk, State.finishRestore_restoreQuads (s := s.at t) h1]
      rfl
  · exact congrArg Host.Outcome.next (State.restored_of_early (s := s.at t) (h.imp id (Or.imp id fun h3 => hworks ▸ h3)))
  · exact State.endRestore_dev hu hd ho
  · obtain ⟨hb, e⟩ := State.restoreOver_of_late hl
    refine ⟨_, congrArg Host.Outcome.next e, fun h => ?_, fun h2 hd => State.failRestore_held (s := { s.at t with hbm := hb }) h2 hd⟩
    rw [State.failRestore_of_again (s := { s.at t with hbm := hb }) h]
    have hsame := State.rest_setRest_same (s := { s.at t with hbm := hb }) ⟨hu.regs, hu.force, hu.mem, hu.groups⟩
    exact ⟨rfl, by rw [hsame]; rfl, by rw [hsame]; rfl⟩
  · exact congrArg Host.Outcome.next (State.restoreOver_of_early hl)
  · exact congrArg Host.Outcome.next (State.restoreHeld_of_due (s := s.at t) hx hn hd)
  · exact congrArg Host.Outcome.next (State.restoreHeld_of_early (s := s.at t) h)

end Sys2Proof.Machine
end

section
/-!
The fabric (R19, R222, R270, R304): how the first word of a source's buffers, and the edge at the front of a tap, reach it.
-/

namespace Sys2Proof.Machine

/-- What RECORD_TO_FABRIC does while the fabric runs. -/
theorem exec_recordToFabric_of_runs {s v : State} {t k : Nat} (hk : k < numSources) (h : (s.at t).fabricRuns = true)
    (hv : v = (s.at t).drainQueues.flush k) : exec (.recordToFabric t k) s = .next ((v.deliver k).retryLoop k) := by
  rw [hv]
  exact (if_pos hk).trans (congrArg Host.Outcome.next (if_pos h))

theorem exec_recordToFabric_of_stands {s : State} {t k : Nat} (hk : k < numSources) (h : (s.at t).fabricRuns = false) :
    exec (.recordToFabric t k) s = .next (s.at t) :=
  (if_pos hk).trans (congrArg Host.Outcome.next (if_neg (by simp [h])))

theorem State.deliver_of_empty {s : State} {k : Nat} (h : (s.src k).old ++ (s.src k).buf = []) : s.deliver k = s := by
  simp only [State.deliver, h]

/-- R270: a stored word that the fabric does not accept stays where it is. -/
theorem State.deliver_of_held {s : State} {k : Nat} {x : Entry} {rest : List Entry}
    (h : (s.src k).old ++ (s.src k).buf = x :: rest) (hx : x.stored = true) (ha : s.accepts k x.item.len = false) :
    s.deliver k = s := by
  simp only [State.deliver, h, hx, ha, Bool.not_false, Bool.and_self, if_true]

/-- The source once its first word has left the buffers (R155, R263, R471). -/
def State.withoutFirst (s : State) (k : Nat) (x : Entry) : State :=
  s.setSrc k ((s.src k).noteEmpty x.time (s.recTick k)).drop.payOwed

/-- R19: what a word that leaves the buffers does in the fabric. -/
def State.routed (s : State) (k : Nat) (x : Entry) : State :=
  match x.item with
  | .edge e => s.fabricEdge k e x
  | .overflow _ _ cause lost => s.fabricMark k cause lost x
  | .anchor _ seq reason time => s.fabricAnchor k seq reason time x
  | .settle .. =>
    let s := (s.setSrc k { s.src k with fabLast := x.time }).storeAll k x.item x.time
    (s.ctxsOf k).foldl (fun s n => s.offerUpd n (.settle ((s.mcf n).roles k) x.time)) s
  | _ => (s.setSrc k { s.src k with fabLast := x.time }).storeAll k x.item x.time

theorem State.deliver_of_taken {s : State} {k : Nat} {x : Entry} {rest : List Entry}
    (h : (s.src k).old ++ (s.src k).buf = x :: rest) (ha : x.stored = false ∨ s.accepts k x.item.len = true) :
    s.deliver k = (s.withoutFirst k x).routed k x := by
  have hn : (x.stored && !s.accepts k x.item.len) = false := by
    rcases ha with ha | ha <;> simp [ha]
  simp only [State.deliver, h, hn, Bool.false_eq_true, if_false]
  rfl

/-- R304: a tap without an edge, or a fabric that stands, leaves the tap as it is. -/
theorem exec_tapEdge_of_stands {s : State} {t k : Nat} (hk : k < numSources) (h : (s.at t).fabricRuns = false) :
    exec (.tapEdge t k) s = .next (s.at t) := by
  refine (if_pos hk).trans ?_
  cases e : ((s.at t).src k).tap with
  | nil => simp only
  | cons x rest => simp only [h, Bool.not_false, if_true]

/-- R304, R305: the edge at the front of a tap, after the break that it may bring, reaches the mask units and the rules. -/
theorem exec_tapEdge_of_runs {s : State} {t k : Nat} {e : TapEdge} {rest : List TapEdge} (hk : k < numSources)
    (h : (s.at t).fabricRuns = true) (he : ((s.at t).src k).tap = e :: rest) :
    exec (.tapEdge t k) s = .next
      (((if e.brk then ((s.at t).setSrc k { (s.at t).src k with tap := rest }).rulesBreak k e.time
          else (s.at t).setSrc k { (s.at t).src k with tap := rest }).masksEdge
        k e.time e.pol e.est e.fe (e.cal != 0) false).rulesEdge k e.time e.pol e.est e.fe (e.cal != 0) false) := by
  refine (if_pos hk).trans ?_
  simp only [he, h, Bool.not_true, Bool.false_eq_true, if_false]

/-- Settles O20. -/
theorem fabricEventsTakeEffect : Obligations.FabricEventsTakeEffect := by
  intro s u v t k r hu hk hv hr
  subst hu hr
  refine ⟨fun h => ⟨exec_recordToFabric_of_stands hk h, exec_tapEdge_of_stands hk h⟩, fun h hb => ?_, fun x rest h hb hx ha => ?_,
    fun x rest y h hb ha hy => ?_, fun e rest w h he hw => ?_⟩
  · rw [exec_recordToFabric_of_runs hk h hv, State.deliver_of_empty hb]
  · rw [exec_recordToFabric_of_runs hk h hv, State.deliver_of_held hb hx ha]
  · have hd := exec_recordToFabric_of_runs hk h hv
    rw [State.deliver_of_taken hb ha, State.withoutFirst, ← hy] at hd
    refine ⟨fun e hi => ?_, fun a b cause lost hi => ?_, fun a seq reason time hi => ?_, fun a b c n z hi hz => ?_,
      fun a b c d n hi => ?_⟩
    · simpa only [State.routed, hi] using hd
    · simpa only [State.routed, hi] using hd
    · simpa only [State.routed, hi] using hd
    · subst hz
      simpa only [State.routed, hi] using hd
    · simpa only [State.routed, hi] using hd
  · subst hw
    exact exec_tapEdge_of_runs hk h he

end Sys2Proof.Machine
end

section
/-!
The events of a timing channel (R42, R130, R136, R152, R173, R185): its start, the edges of its comparator, and pulses.
-/

namespace Sys2Proof.Machine

/-! ## The start -/

/-- R173: the settling of the threshold that goes on at a start `t0`. -/
def State.settling (s : State) (n : Nat) (c : Chan) (t0 : Int) : State :=
  match c.thsFrom with
  | some a => if t0 < s.settleTime n a then s.pushDue n (s.settleTime n a) (.anchor rSettleEnd) else s
  | none => s

/-- R185: a channel whose back-end has faulted starts in a gap. -/
def State.faultGap (s : State) (n : Nat) : State :=
  if ((s.be (s.beOf n)).fault).isSome then s.beginCause n 2 false else s

/-- R130: the first level of the comparator at a start `t0`: high with an edge, low and known, or low and unknown. -/
def State.firstLevel (s : State) (n : Nat) (t0 : Int) (v : Input) (bin : Nat) : State :=
  if s.aboveUpper n v then
    let s := s.setChan n { s.chan n with level := true, known := true, edgeAt := some s.now }
    let b := s.beOf n
    let e := s.be b
    let t := t0 + e.fine b (s.calBy n b) (longestFree e.free) bin % 2048
    if s.beRuns n then (s.takeBy b).formEdge n t true (s.flagsOf n b t true) else s
  else if s.belowLower n v then s.setChan n { s.chan n with known := true }
  else s

/-- R42, R53: a start that is due: the source takes edges from the coarse boundary on. -/
theorem exec_channelStart_of_due {s v : State} {t n : Nat} {inp : Input} {bin x : Nat} (hv : v = (s.at t).flush n)
    (hn : n < numChannels) (hx : (v.chan n).startAt = some x) (ha : (v.chan n).armed = true) (hr : (v.src n).taking = false)
    (hd : x ≤ v.now) (ht : v.time.valid = true) (hh : v.startsHeld = false) (hi : (v.island (islandOf n)).state = 0)
    (hu : (v.island (islandOf n)).unlock = false) (hp : v.dieUp = true) (ho : (v.src n).owed = [])
    (hm : (v.src n).room 2 = true) :
    exec (.channelStart t n inp bin) s = .next ((State.faultGap (State.settling
      ((v.setChan n { v.chan n with startAt := none, level := false, known := false, edgeAt := none, chgAt := none }).startTaking n
        (ceilCoarse (v.recTick n))) n (v.chan n) (ceilCoarse (v.recTick n))) n).firstLevel n (ceilCoarse (v.recTick n)) inp bin) := by
  refine (if_pos hn).trans (congrArg Host.Outcome.next ?_)
  simp only [State.startChan, ← hv, hx, ha, hr, hd, ht, hh, hi, hu, hp, ho, hm, Bool.not_false, Bool.and_self, decide_true,
    beq_self_eq_true, List.isEmpty_nil, if_true]
  rfl

theorem State.settling_none {s : State} {n : Nat} {c : Chan} {t0 : Int} (h : c.thsFrom = none) : s.settling n c t0 = s := by
  simp only [State.settling, h]

theorem State.settling_over {s : State} {n a : Nat} {c : Chan} {t0 : Int} (h : c.thsFrom = some a) (ha : s.settleTime n a ≤ t0) :
    s.settling n c t0 = s := by
  simp only [State.settling, h, if_neg (not_lt.mpr ha)]

theorem State.settling_on {s : State} {n a : Nat} {c : Chan} {t0 : Int} (h : c.thsFrom = some a) (ha : t0 < s.settleTime n a) :
    s.settling n c t0 = s.pushDue n (s.settleTime n a) (.anchor rSettleEnd) := by
  simp only [State.settling, h, if_pos ha]

theorem State.faultGap_none {s : State} {n : Nat} (h : (s.be (s.beOf n)).fault = none) : s.faultGap n = s := by
  simp [State.faultGap, h]

theorem State.faultGap_some {s : State} {n : Nat} (h : (s.be (s.beOf n)).fault ≠ none) :
    s.faultGap n = s.beginCause n 2 false := if_pos (Option.isSome_iff_ne_none.mpr h)

theorem State.firstLevel_between {s : State} {n bin : Nat} {t0 : Int} {v : Input} (ha : s.aboveUpper n v = false)
    (hb : s.belowLower n v = false) : s.firstLevel n t0 v bin = s := by
  simp [State.firstLevel, ha, hb]

theorem State.firstLevel_below {s : State} {n bin : Nat} {t0 : Int} {v : Input} (ha : s.aboveUpper n v = false)
    (hb : s.belowLower n v = true) : s.firstLevel n t0 v bin = s.setChan n { s.chan n with known := true } := by
  simp [State.firstLevel, ha, hb]

/-- R130, R152: a start above the upper threshold forms a rising edge within the first coarse period. -/
theorem State.firstLevel_above {s w : State} {n b bin : Nat} {e : BackEnd} {t0 p : Int} {v : Input}
    (ha : s.aboveUpper n v = true) (hw : w = s.setChan n { s.chan n with level := true, known := true, edgeAt := some s.now })
    (hb : b = w.beOf n) (he : e = w.be b) (hp : p = t0 + e.fine b (w.calBy n b) (longestFree e.free) bin % 2048)
    (hr : w.beRuns n = true) : s.firstLevel n t0 v bin = (w.takeBy b).formEdge n p true (w.flagsOf n b p true) := by
  subst hp he hb
  simp only [State.firstLevel, ha, if_true, ← hw, hr]

/-! ## Edges -/

/-- R136: what the comparator does not deliver changes nothing. -/
theorem exec_edge_of_barred {s v : State} {t n bin : Nat} {pol : Bool} (hv : v = (s.at t).flush n) (hn : n < numChannels)
    (h : v.compRuns n = false ∨ v.spaced n = false) : exec (.edge t n pol bin) s = .next v := by
  refine (if_pos hn).trans (congrArg Host.Outcome.next ?_)
  rw [← hv]
  exact if_pos (by rcases h with h | h <;> simp [h])

/-- R152: an edge that is delivered and changes the comparator's output. -/
theorem exec_edge_of_change {s v : State} {t n bin : Nat} {pol : Bool} (hv : v = (s.at t).flush n) (hn : n < numChannels)
    (hc : v.compRuns n = true) (hs : v.spaced n = true) (hp : pol ≠ (v.chan n).level) :
    exec (.edge t n pol bin) s = .next (v.compEdge n pol bin) := by
  refine (if_pos hn).trans (congrArg Host.Outcome.next ?_)
  rw [← hv]
  simp [hc, hs, hp]

/-- R130: before the first rising edge a fall is silent. -/
theorem exec_edge_of_firstFall {s v : State} {t n bin : Nat} (hv : v = (s.at t).flush n) (hn : n < numChannels)
    (hc : v.compRuns n = true) (hs : v.spaced n = true) (hl : (v.chan n).level = false) (hk : (v.chan n).known = false) :
    exec (.edge t n false bin) s = .next (v.setChan n { v.chan n with known := true }) := by
  refine (if_pos hn).trans (congrArg Host.Outcome.next ?_)
  rw [← hv]
  simp [hc, hs, hl, hk]

theorem State.compEdge_formed {v y z : State} {n bin b : Nat} {pol : Bool} {p : Int}
    (hy : y = v.setChan n { v.chan n with level := pol, known := true, edgeAt := some v.now })
    (hz : z = y.changeBefore n (y.stampBy n (y.beOf n) bin)) (hr : z.beRuns n = true) (hs : z.stampChan n bin = (b, p)) :
    v.compEdge n pol bin = (z.takeBy b).formEdge n p pol (z.flagsOf n b p (pol && !(v.chan n).known)) := by
  simp only [State.compEdge, ← hy, ← hz, hr, if_true, hs]

theorem State.compEdge_outside {v y z : State} {n bin : Nat} {pol : Bool}
    (hy : y = v.setChan n { v.chan n with level := pol, known := true, edgeAt := some v.now })
    (hz : z = y.changeBefore n (y.stampBy n (y.beOf n) bin)) (hr : z.beRuns n = false) :
    v.compEdge n pol bin = z.outsideEdge n := by
  simp only [State.compEdge, ← hy, ← hz, hr, Bool.false_eq_true, if_false]

/-! ## Pulses -/

/-- R136: a pulse that is delivered: its two edges. -/
def State.twoEdges (s : State) (n width bin endBin : Nat) : State :=
  let y := s.compEdge n (!(s.chan n).level) bin
  ({ y with now := y.now + width } : State).compEdge n (s.chan n).level endBin

theorem State.pulseIn_short {s : State} {n width bin endBin : Nat} (h : width < 140 * 16384) :
    s.pulseIn n width bin endBin = s.count .TCH_RUNT_COUNT n := if_pos h

theorem State.pulseIn_long {s : State} {n width bin endBin : Nat} (h : 160 * 16384 ≤ width) (hs : s.spaced n = true) :
    s.pulseIn n width bin endBin = s.twoEdges n width bin endBin := by
  have h1 : ¬ width < 140 * 16384 := by omega
  have h2 : ¬ width < 160 * 16384 := by omega
  simp only [State.pulseIn, if_neg h1, if_neg h2, hs, if_true, Bool.not_not]
  rfl

/-- R136: between the two widths a free value decides. -/
theorem State.pulseIn_middle {s : State} {n width bin endBin : Nat} (h1 : 140 * 16384 ≤ width) (h2 : width < 160 * 16384)
    (hs : s.spaced n = true) :
    s.pulseIn n width bin endBin = s.free.2.count .TCH_RUNT_COUNT n ∨
      s.pulseIn n width bin endBin = s.free.2.twoEdges n width bin endBin := by
  have hs' : s.free.2.spaced n = true := hs
  simp only [State.pulseIn, if_neg (not_lt.mpr h1), if_pos h2, hs', if_true, Bool.not_not]
  by_cases hv : s.free.1 % 2 = 1
  · exact .inl (if_pos hv)
  · exact .inr (if_neg hv)

theorem exec_runtPulse_of_runs {s v : State} {t n width bin endBin : Nat} (hv : v = (s.at t).flush n) (hn : n < numChannels)
    (hc : v.compRuns n = true) : exec (.runtPulse t n width bin endBin) s = .next (v.pulseIn n width bin endBin) := by
  refine (if_pos hn).trans (congrArg Host.Outcome.next ?_)
  rw [← hv]
  exact if_pos hc

/-- Settles O21. -/
theorem channelEventsTakeEffect : Obligations.ChannelEventsTakeEffect := by
  intro s v y z t n c hv hn hc
  subst hc
  refine ⟨fun inp bin x t0 hx ha hr hd ht hh hi hu hp ho hm ht0 hy hz => ?_, fun pol bin hc hs hp hy hz => ⟨fun b p hr hst => ?_,
    fun hr => ?_⟩, fun bin hc hs hl hk => exec_edge_of_firstFall hv hn hc hs hl hk,
    fun pol bin h => exec_edge_of_barred hv hn h, fun width bin endBin hc => ⟨fun hw => ?_, fun hw hs hy => ?_,
      fun h1 h2 hs hy hz => ?_⟩⟩
  · have hst := exec_channelStart_of_due (inp := inp) (bin := bin) hv hn hx ha hr hd ht hh hi hu hp ho hm
    rw [← ht0, ← hy] at hst
    have hsz : y.settling n (v.chan n) t0 = z := by
      rcases hz with ⟨h, rfl⟩ | ⟨a, h, hle, rfl⟩ | ⟨a, h, hlt, rfl⟩
      · exact State.settling_none h
      · exact State.settling_over h hle
      · exact State.settling_on h hlt
    rw [hsz] at hst
    refine ⟨fun hf hab hbe => ?_, fun hf hab hbe => ?_, fun w b e p hf hab hw hb he hp hr => ?_, fun hf hab hbe => ?_⟩
    · rw [hst, State.faultGap_none hf, State.firstLevel_between hab hbe]
    · rw [hst, State.faultGap_none hf, State.firstLevel_below hab hbe]
    · rw [hst, State.faultGap_none hf, State.firstLevel_above hab hw hb he hp hr]
    · rw [hst, State.faultGap_some hf, State.firstLevel_between hab hbe]
  · rw [exec_edge_of_change hv hn hc hs hp, State.compEdge_formed hy hz hr hst]
  · rw [exec_edge_of_change hv hn hc hs hp, State.compEdge_outside hy hz hr]
  · rw [exec_runtPulse_of_runs hv hn hc, State.pulseIn_short hw]
  · subst hy
    rw [exec_runtPulse_of_runs hv hn hc, State.pulseIn_long hw hs]
    rfl
  · subst hy hz
    rw [exec_runtPulse_of_runs hv hn hc]
    exact (State.pulseIn_middle h1 h2 hs).imp (congrArg _) (congrArg _)

end Sys2Proof.Machine
end

section
/-!
The commands of a host to a timing channel and to a waveform channel (R43, R132, R142, R162, R182, R183, R187, R201, R213,
R218): what each register write does, and with it what each command does.
-/

namespace Sys2Proof.Machine

/-! ## Commands as register writes -/

/-- R401, R407: a command that is a register write, with the word that it writes and the effect of the register. -/
theorem State.hostWrite_effect {u a x : State} {p : Nat} {r : Reg} {i v : Nat} {fs : List (Fld × Nat)} (c : Command r i)
    (e : u.wordWith r i fs % 2 ^ 32 = v) (hx : a.writeReg p r i v = x) (h : takesWriteIn u p r i v a) :
    u.hostWrite p r i fs = reported x p := by
  rw [State.hostWrite_word c e h, hx]

/-! ## The commands of a timing channel -/

section
variable {s a : State} {t p n : Nat}

theorem exec_armChannel (hp : isPort p = true) (hn : n < numChannels) (h : takesWriteIn (s.at t) p .TCH_ARM n 1 a) :
    exec (.armChannel t p n) s = .next (reported ((a.put .TCH_ARM_ARM n 1).armChan n) p) :=
  (if_pos ⟨hn, hp⟩).trans (congrArg Host.Outcome.next (State.hostWrite_effect (Command.TCH_ARM hn) (by rfl) (by rfl) h))

theorem exec_disarmChannel (hp : isPort p = true) (hn : n < numChannels) (h : takesWriteIn (s.at t) p .TCH_ARM n 0 a) :
    exec (.disarmChannel t p n) s = .next (reported ((a.put .TCH_ARM_ARM n 0).disarmChan n) p) :=
  (if_pos ⟨hn, hp⟩).trans (congrArg Host.Outcome.next (State.hostWrite_effect (Command.TCH_ARM hn) (by rfl) (by rfl) h))

theorem exec_calRestart (hp : isPort p = true) (hn : n < numChannels) (h : takesWriteIn (s.at t) p .TCH_BE_CMD n 8 a) :
    exec (.calRestart t p n) s = .next (reported (a.calRestart n) p) :=
  (if_pos ⟨hn, hp⟩).trans (congrArg Host.Outcome.next (State.hostWrite_effect (Command.TCH_BE_CMD hn) (by rfl) (by rfl) h))

theorem exec_feCommit (hp : isPort p = true) (hn : n < numChannels) (h : takesWriteIn (s.at t) p .TCH_FE_COMMIT n 1 a) :
    exec (.feCommit t p n) s = .next (reported (a.commitFe n) p) :=
  (if_pos ⟨hn, hp⟩).trans (congrArg Host.Outcome.next (State.hostWrite_effect (Command.TCH_FE_COMMIT hn) (by rfl) (by rfl) h))

theorem exec_windowEnable_one (hp : isPort p = true) (hn : n < numChannels) (h : takesWriteIn (s.at t) p .TCH_WIN_CTL n 1 a) :
    exec (.windowEnable t p n 1) s = .next (reported (a.enableWin n 1) p) :=
  (if_pos ⟨hn, hp⟩).trans (congrArg Host.Outcome.next (State.hostWrite_effect (Command.TCH_WIN_CTL hn) (by rfl) (by rfl) h))

theorem exec_windowEnable_zero (hp : isPort p = true) (hn : n < numChannels) (h : takesWriteIn (s.at t) p .TCH_WIN_CTL n 0 a) :
    exec (.windowEnable t p n 0) s = .next (reported (a.enableWin n 0) p) :=
  (if_pos ⟨hn, hp⟩).trans (congrArg Host.Outcome.next (State.hostWrite_effect (Command.TCH_WIN_CTL hn) (by rfl) (by rfl) h))

theorem exec_beRetire (hp : isPort p = true) (hn : n < numChannels) (h : takesWriteIn (s.at t) p .TCH_BE_CMD n 1 a) :
    exec (.beRetire t p n) s = .next (reported (a.retire n false) p) :=
  (if_pos ⟨hn, hp⟩).trans (congrArg Host.Outcome.next (State.hostWrite_effect (Command.TCH_BE_CMD hn) (by rfl) (by rfl) h))

theorem exec_retireNow (hp : isPort p = true) (hn : n < numChannels) (h : takesWriteIn (s.at t) p .TCH_BE_CMD n 5 a) :
    exec (.retireNow t p n) s = .next (reported (a.retire n true) p) :=
  (if_pos ⟨hn, hp⟩).trans (congrArg Host.Outcome.next (State.hostWrite_effect (Command.TCH_BE_CMD hn) (by rfl) (by rfl) h))

theorem exec_beReturn (hp : isPort p = true) (hn : n < numChannels) (h : takesWriteIn (s.at t) p .TCH_BE_CMD n 2 a) :
    exec (.beReturn t p n) s = .next (reported (a.beBack n) p) :=
  (if_pos ⟨hn, hp⟩).trans (congrArg Host.Outcome.next (State.hostWrite_effect (Command.TCH_BE_CMD hn) (by rfl) (by rfl) h))

end

/-! ## What they do to the channel -/

theorem State.armChan_of_stopped {s : State} {n : Nat} (ha : (s.chan n).armed = false) (hp : (s.chan n).pend = false) :
    s.armChan n = ((s.setChan n { s.chan n with pend := true }).queueWake (islandOf n) (s.chanCls n)).submit (s.chanCls n) (.chan n) := by
  simp only [State.armChan, ha, hp, Bool.or_self, Bool.false_eq_true, if_false]

/-- R187: an arm of a channel that is armed or pending changes nothing. -/
theorem State.armChan_of_busy {s : State} {n : Nat} (h : (s.chan n).armed = true ∨ (s.chan n).pend = true) :
    s.armChan n = s := if_pos (by rcases h with h | h <;> simp [h])

theorem State.disarmChan_of_pend {s : State} {n : Nat} (hp : (s.chan n).pend = true) :
    s.disarmChan n = ((s.setChan n { s.chan n with pend := false }).retract (.chan n)).withdrawWake n := if_pos hp

theorem State.disarmChan_of_armed {s y : State} {n : Nat} (hp : (s.chan n).pend = false) (ha : (s.chan n).armed = true)
    (hy : y = s.stopTaking n (s.nextBound n)) :
    s.disarmChan n = State.releaseCost
      (((y.setChan n { y.chan n with armed := false, startAt := none }).withdrawWake n).touchIsland (islandOf n)) (.chan n) := by
  simp only [State.disarmChan, hp, ha, Bool.not_true, Bool.false_eq_true, if_false, ← hy]

theorem State.disarmChan_of_stopped {s : State} {n : Nat} (hp : (s.chan n).pend = false) (ha : (s.chan n).armed = false) :
    s.disarmChan n = s := by
  simp only [State.disarmChan, hp, ha, Bool.not_false, Bool.false_eq_true, if_false, if_true]

/-- R113, R132: in BOOT a commit of a stopped channel applies at once. -/
theorem State.commitFe_of_boot {s : State} {n : Nat} (h : s.dev = .boot ∧ s.chanStopped n = true ∧ s.winStopped n = true) :
    s.commitFe n = s.applyFe n s.now none := if_pos h

theorem State.commitFe_of_waits {s : State} {n : Nat} (h : ¬ (s.dev = .boot ∧ s.chanStopped n = true ∧ s.winStopped n = true))
    (hc : (s.chan n).commit = none) : s.commitFe n = s.setChan n { s.chan n with commit := some s.now } := by
  simp only [State.commitFe, if_neg h, hc, Option.isSome_none, Bool.false_eq_true, if_false]

theorem State.enableWin_starts {s y : State} {n : Nat} (hf : s.flag .TCH_WIN_CTL_ENABLE n = false)
    (hy : y = s.put .TCH_WIN_CTL_ENABLE n 1)
    (h : (y.island (islandOf n)).state ≤ 1 ∧ (y.island (islandOf n)).unlock = false ∧ y.dieUp = true) :
    s.enableWin n 1 = y.startWin n := by
  simp only [State.enableWin, hf, ← hy, Bool.false_eq_true, if_false, if_true, if_pos h]

/-- R89, R142: a monitor whose island does not run waits for its wake. -/
theorem State.enableWin_waits {s y : State} {n : Nat} (hf : s.flag .TCH_WIN_CTL_ENABLE n = false)
    (hy : y = s.put .TCH_WIN_CTL_ENABLE n 1)
    (h : ¬ ((y.island (islandOf n)).state ≤ 1 ∧ (y.island (islandOf n)).unlock = false ∧ y.dieUp = true)) :
    s.enableWin n 1 = State.queueWake
      (y.setChan n { y.chan n with win := { (y.chan n).win with wait := true } }) (islandOf n) (y.chanCls n) := by
  simp only [State.enableWin, hf, ← hy, Bool.false_eq_true, if_false, if_true, if_neg h]

theorem State.enableWin_stops {s y : State} {n : Nat} (hf : s.flag .TCH_WIN_CTL_ENABLE n = true)
    (hy : y = s.put .TCH_WIN_CTL_ENABLE n 0) : s.enableWin n 0 = y.stopWin n := by
  simp only [State.enableWin, hf, ← hy, Nat.zero_ne_one, if_false, if_true]

theorem State.enableWin_stays {s y : State} {n : Nat} (hf : s.flag .TCH_WIN_CTL_ENABLE n = false)
    (hy : y = s.put .TCH_WIN_CTL_ENABLE n 0) : s.enableWin n 0 = y := by
  simp only [State.enableWin, hf, ← hy, Nat.zero_ne_one, if_false, Bool.false_eq_true]

/-- Settles O25. -/
theorem channelHostCommandsTakeEffect : Obligations.ChannelHostCommandsTakeEffect := by
  intro s u a y t p n c hu hp hn hc
  subst hu hc
  refine ⟨fun b h hb => ⟨fun ha hpe => ?_, fun hbusy => ?_⟩, fun b h hb => ⟨fun hpe => ?_, fun hpe ha hy => ?_, fun hpe ha => ?_⟩,
    fun h => exec_calRestart hp hn h, fun h => ⟨fun hd h1 h2 => ?_, fun hno hcn => ?_⟩,
    fun h hf hy => ⟨fun h1 h2 h3 => ?_, fun hno => ?_⟩, fun h hy => ⟨fun hf => ?_, fun hf => ?_⟩, fun h => exec_beRetire hp hn h,
    fun h => exec_retireNow hp hn h, fun h => ⟨fun hsub => ?_, fun hsub hback => ?_⟩⟩
  · subst hb
    rw [exec_armChannel hp hn h, State.armChan_of_stopped (s := a.put .TCH_ARM_ARM n 1) ha hpe]
    rfl
  · rw [exec_armChannel hp hn h, State.armChan_of_busy (s := a.put .TCH_ARM_ARM n 1) hbusy, hb]
  · subst hb
    rw [exec_disarmChannel hp hn h, State.disarmChan_of_pend (s := a.put .TCH_ARM_ARM n 0) hpe]
    rfl
  · subst hb
    rw [exec_disarmChannel hp hn h, State.disarmChan_of_armed (s := a.put .TCH_ARM_ARM n 0) hpe ha hy]
  · rw [exec_disarmChannel hp hn h, State.disarmChan_of_stopped (s := a.put .TCH_ARM_ARM n 0) hpe ha, hb]
  · rw [exec_feCommit hp hn h, State.commitFe_of_boot ⟨hd, h1, h2⟩]
  · rw [exec_feCommit hp hn h, State.commitFe_of_waits hno hcn]
  · rw [exec_windowEnable_one hp hn h, State.enableWin_starts hf hy ⟨h1, h2, h3⟩]
  · rw [exec_windowEnable_one hp hn h, State.enableWin_waits hf hy hno]
  · rw [exec_windowEnable_zero hp hn h, State.enableWin_stops hf hy]
  · rw [exec_windowEnable_zero hp hn h, State.enableWin_stays hf hy]
  · rw [exec_beReturn hp hn h, State.beBack, if_pos hsub]
  · rw [exec_beReturn hp hn h, State.beBack, if_neg (by rw [hsub]; decide), if_pos ⟨hsub, hback⟩]

/-! ## The commands of a waveform channel -/

section
variable {s a : State} {t p n : Nat}

theorem exec_startWaveform (hp : isPort p = true) (hn : n < numWaves) (h : takesWriteIn (s.at t) p .WCH_ARM n 1 a) :
    exec (.startWaveform t p n) s = .next (reported ((a.put .WCH_ARM_ARM n 1).armWave n) p) :=
  (if_pos ⟨hn, hp⟩).trans (congrArg Host.Outcome.next (State.hostWrite_effect (Command.WCH_ARM hn) (by rfl) (by rfl) h))

theorem exec_disarmWaveform (hp : isPort p = true) (hn : n < numWaves) (h : takesWriteIn (s.at t) p .WCH_ARM n 0 a) :
    exec (.disarmWaveform t p n) s = .next (reported ((a.put .WCH_ARM_ARM n 0).disarmWave n) p) :=
  (if_pos ⟨hn, hp⟩).trans (congrArg Host.Outcome.next (State.hostWrite_effect (Command.WCH_ARM hn) (by rfl) (by rfl) h))

theorem exec_waveformCommit (hp : isPort p = true) (hn : n < numWaves) (h : takesWriteIn (s.at t) p .WCH_COMMIT n 1 a) :
    exec (.waveformCommit t p n) s = .next (reported (a.commitWave n) p) :=
  (if_pos ⟨hn, hp⟩).trans (congrArg Host.Outcome.next (State.hostWrite_effect (Command.WCH_COMMIT hn) (by rfl) (by rfl) h))

end

theorem State.armWave_of_stopped {s : State} {n : Nat} (ha : (s.wave n).armed = false) (hp : (s.wave n).pend = false) :
    s.armWave n = State.submit (s.setWave n { s.wave n with pend := true }) (if s.flag .WCH_SOURCE_CLASS n then 0 else 2) (.wave n) := by
  simp only [State.armWave, ha, hp, Bool.or_self, Bool.false_eq_true, if_false]

/-- R218: an arm of a channel that is armed or pending changes nothing. -/
theorem State.armWave_of_busy {s : State} {n : Nat} (h : (s.wave n).armed = true ∨ (s.wave n).pend = true) :
    s.armWave n = s := if_pos (by rcases h with h | h <;> simp [h])

theorem State.disarmWave_of_pend {s : State} {n : Nat} (hp : (s.wave n).pend = true) :
    s.disarmWave n = (s.setWave n { s.wave n with pend := false }).retract (.wave n) := if_pos hp

theorem State.disarmWave_of_stopped {s : State} {n : Nat} (hp : (s.wave n).pend = false) (ha : (s.wave n).armed = false) :
    s.disarmWave n = s := by
  simp only [State.disarmWave, hp, ha, Bool.not_false, Bool.false_eq_true, if_false, if_true]

/-- R43, R213: the disarm of an armed channel: a window that is due shuts at its own instant, one that is open at the next coarse
boundary. -/
theorem State.disarmWave_of_armed {b z w y : State} {n m : Nat} {x : Int} (hp : (b.wave n).pend = false)
    (ha : (b.wave n).armed = true) (hm : m = b.chainOf n) (hx : x = ceilCoarse (b.recTick (144 + n)))
    (hz : z = (if (b.wave n).wins.any (fun v => !v.shut && !v.before (b.recTick (144 + n))) then
      (b.shutWindow n).raise .WCH_EVENT_ABORT_LATE n else b))
    (hw : w = z.keepCorr m)
    (hy : y = w.setWave n { w.wave n with
      armed := false, startAt := none, due := [], waiting := none
      wins := (w.wave n).wins.map fun v => if v.shut then v else { v with shut := true, closes := some x, how := 2 } }) :
    b.disarmWave n = ((((if (w.wave n).isOpen && y.flag .WCH_SOURCE_CLASS n then y.guardClosed n x else y.reuser m y.tick).followWindows
      n).endWindows n).stopChain m).releaseCost (.wave n) := by
  subst hm hx
  simp only [State.disarmWave, hp, ha, Bool.not_true, Bool.false_eq_true, if_false, ← hz, ← hw, ← hy]

/-- R113, R201: in BOOT a commit of a stopped channel applies at once. -/
theorem State.commitWave_of_boot {s : State} {n : Nat} (h : s.dev = .boot ∧ s.waveStopped n = true) :
    s.commitWave n = s.applyWave n s.now := if_pos h

theorem State.commitWave_of_waits {s : State} {n : Nat} (h : ¬ (s.dev = .boot ∧ s.waveStopped n = true))
    (hc : (s.wave n).commit = none) : s.commitWave n = s.setWave n { s.wave n with commit := some s.now } := by
  simp only [State.commitWave, if_neg h, hc, Option.isSome_none, Bool.false_eq_true, if_false]

/-- Settles O26. -/
theorem waveformHostCommandsTakeEffect : Obligations.WaveformHostCommandsTakeEffect := by
  intro s u a y t p n c hu hp hn hc
  subst hu hc
  refine ⟨fun b h hb => ⟨fun ha hpe => ?_, fun hbusy => ?_⟩, fun b h hb => ⟨fun hpe => ?_, fun hpe ha => ?_,
    fun m x z w hpe ha hm hx hz hw hy => ?_⟩, fun h => ⟨fun hd hs => ?_, fun hno hcn => ?_⟩⟩
  · subst hb
    rw [exec_startWaveform hp hn h, State.armWave_of_stopped (s := a.put .WCH_ARM_ARM n 1) ha hpe]
    rfl
  · rw [exec_startWaveform hp hn h, State.armWave_of_busy (s := a.put .WCH_ARM_ARM n 1) hbusy, hb]
  · subst hb
    rw [exec_disarmWaveform hp hn h, State.disarmWave_of_pend (s := a.put .WCH_ARM_ARM n 0) hpe]
    rfl
  · rw [exec_disarmWaveform hp hn h, State.disarmWave_of_stopped (s := a.put .WCH_ARM_ARM n 0) hpe ha, hb]
  · subst hb
    rw [exec_disarmWaveform hp hn h, State.disarmWave_of_armed (b := a.put .WCH_ARM_ARM n 0) hpe ha hm hx hz hw hy]
  · rw [exec_waveformCommit hp hn h, State.commitWave_of_boot ⟨hd, hs⟩]
  · rw [exec_waveformCommit hp hn h, State.commitWave_of_waits hno hcn]

end Sys2Proof.Machine
end

section
/-!
Measurement contexts (R220, R226, R241, R242, R246, R247, R248): the commands of a host, and the updates, closes, publications
and moves of their engines.
-/

namespace Sys2Proof.Machine

/-! ## The word of a context's control register -/

/-- RESTART leaves ARM as it stands. -/
theorem State.wordWith_restart {u : State} {n x : Nat} (h : u.get .MC_CTL_ARM n = x) (hx : x < 2) :
    u.wordWith .MC_CTL n [(.MC_CTL_RESTART, 1)] % 2 ^ 32 = x + 2 := by
  have e : u.wordWith .MC_CTL n [(.MC_CTL_RESTART, 1)] = u.get .MC_CTL_ARM n % 2 ^ 1 * 2 ^ 0 + 2 := by rfl
  omega

/-- STAB_CLEAR leaves ARM as it stands. -/
theorem State.wordWith_stabClear {u : State} {n x : Nat} (h : u.get .MC_CTL_ARM n = x) (hx : x < 2) :
    u.wordWith .MC_CTL n [(.MC_CTL_STAB_CLEAR, 1)] % 2 ^ 32 = x + 4 := by
  have e : u.wordWith .MC_CTL n [(.MC_CTL_STAB_CLEAR, 1)] = u.get .MC_CTL_ARM n % 2 ^ 1 * 2 ^ 0 + 4 := by rfl
  omega

/-! ## The commands as register writes -/

section
variable {s a : State} {t p n : Nat}

theorem exec_startContext (hp : isPort p = true) (hn : n < numContexts) (h : takesWriteIn (s.at t) p .MC_CTL n 1 a) :
    exec (.startContext t p n) s = .next (reported ((a.put .MC_CTL_ARM n 1).armCtx n) p) :=
  (if_pos ⟨hn, hp⟩).trans (congrArg Host.Outcome.next (State.hostWrite_effect (Command.MC_CTL hn) (by rfl) (by rfl) h))

theorem exec_disarmContext (hp : isPort p = true) (hn : n < numContexts) (h : takesWriteIn (s.at t) p .MC_CTL n 0 a) :
    exec (.disarmContext t p n) s = .next (reported ((a.put .MC_CTL_ARM n 0).disarmCtx n) p) :=
  (if_pos ⟨hn, hp⟩).trans (congrArg Host.Outcome.next (State.hostWrite_effect (Command.MC_CTL hn) (by rfl) (by rfl) h))

/-- A RESTART writes ARM = 1 again where it stands at 1. -/
theorem exec_contextRestart_of_armed (hp : isPort p = true) (hn : n < numContexts) (ha : (s.at t).get .MC_CTL_ARM n = 1)
    (h : takesWriteIn (s.at t) p .MC_CTL n 3 a) :
    exec (.contextRestart t p n) s = .next (reported (((a.put .MC_CTL_ARM n 1).armCtx n).restartCtx n) p) :=
  (if_pos ⟨hn, hp⟩).trans (congrArg Host.Outcome.next
    (State.hostWrite_effect (Command.MC_CTL hn) (State.wordWith_restart ha (by decide)) (by rfl) h))

theorem exec_contextRestart_of_stopped (hp : isPort p = true) (hn : n < numContexts) (ha : (s.at t).get .MC_CTL_ARM n = 0)
    (h : takesWriteIn (s.at t) p .MC_CTL n 2 a) :
    exec (.contextRestart t p n) s = .next (reported (((a.put .MC_CTL_ARM n 0).disarmCtx n).restartCtx n) p) :=
  (if_pos ⟨hn, hp⟩).trans (congrArg Host.Outcome.next
    (State.hostWrite_effect (Command.MC_CTL hn) (State.wordWith_restart ha (by decide)) (by rfl) h))

theorem exec_stabClear_of_armed (hp : isPort p = true) (hn : n < numContexts) (ha : (s.at t).get .MC_CTL_ARM n = 1)
    (h : takesWriteIn (s.at t) p .MC_CTL n 5 a) :
    exec (.stabClear t p n) s = .next (reported (((a.put .MC_CTL_ARM n 1).armCtx n).clearStab n) p) :=
  (if_pos ⟨hn, hp⟩).trans (congrArg Host.Outcome.next
    (State.hostWrite_effect (Command.MC_CTL hn) (State.wordWith_stabClear ha (by decide)) (by rfl) h))

theorem exec_stabClear_of_stopped (hp : isPort p = true) (hn : n < numContexts) (ha : (s.at t).get .MC_CTL_ARM n = 0)
    (h : takesWriteIn (s.at t) p .MC_CTL n 4 a) :
    exec (.stabClear t p n) s = .next (reported (((a.put .MC_CTL_ARM n 0).disarmCtx n).clearStab n) p) :=
  (if_pos ⟨hn, hp⟩).trans (congrArg Host.Outcome.next
    (State.hostWrite_effect (Command.MC_CTL hn) (State.wordWith_stabClear ha (by decide)) (by rfl) h))

end

/-! ## What they do to the context -/

section
variable {s : State} {n : Nat}

theorem State.armCtx_of_stopped (ha : (s.ctx n).armed = false) (hp : (s.ctx n).pend = false) :
    s.armCtx n = State.submit (s.setCtx n { s.ctx n with pend := true }) (if s.ctxGuard n then 0 else 2) (.ctx n) := by
  simp only [State.armCtx, ha, hp, Bool.or_self, Bool.false_eq_true, if_false]

/-- R220: an arm of a context that is armed or pending changes nothing. -/
theorem State.armCtx_of_busy (h : (s.ctx n).armed = true ∨ (s.ctx n).pend = true) : s.armCtx n = s :=
  if_pos (by rcases h with h | h <;> simp [h])

theorem State.disarmCtx_of_pend (hp : (s.ctx n).pend = true) :
    s.disarmCtx n = (s.setCtx n { s.ctx n with pend := false }).retract (.ctx n) := if_pos hp

theorem State.disarmCtx_of_armed (hp : (s.ctx n).pend = false) (ha : (s.ctx n).armed = true) :
    s.disarmCtx n = s.endContext n := by
  simp only [State.disarmCtx, hp, ha, Bool.false_eq_true, if_false, if_true]

theorem State.disarmCtx_of_stopped (hp : (s.ctx n).pend = false) (ha : (s.ctx n).armed = false) : s.disarmCtx n = s := by
  simp only [State.disarmCtx, hp, ha, Bool.false_eq_true, if_false]

theorem State.restartCtx_of_open {y : State} {g : Gate} (hg : (s.ctx n).gate = some g) (ha : (s.ctx n).armed = true)
    (ho : fabCycle (s.instOf g.opened) < fabCycle s.now) (hc : s.closeNow n = none) (hy : y = s.shutAt n s.tick cShort) :
    s.restartCtx n =
      (y.setCtx n { y.ctx n with frames := [] }).openAt n s.tick (if (s.mcf n).gmode = 1 then cShort else 0) := by
  simp only [State.restartCtx, hg, if_pos (show (s.ctx n).armed = true ∧ _ ∧ _ from ⟨ha, ho, hc⟩), ← hy]

/-- R248: in the cycle of a gate close a RESTART has no effect. -/
theorem State.restartCtx_of_closing (hc : s.closeNow n ≠ none) : s.restartCtx n = s := by
  cases hg : (s.ctx n).gate with
  | none => simp only [State.restartCtx, hg]
  | some g =>
    simp only [State.restartCtx, hg]
    exact if_neg fun h => hc h.2.2

theorem State.restartCtx_of_shut (hg : (s.ctx n).gate = none) : s.restartCtx n = s := by simp only [State.restartCtx, hg]

theorem State.clearStab_of_slot {j : Nat} (h : (s.ctx n).slot = some j) : s.clearStab n = s.setStab j (s.stab j).clear := by
  simp only [State.clearStab, h]

theorem State.clearStab_of_none (h : (s.ctx n).slot = none) : s.clearStab n = s := by simp only [State.clearStab, h]

end

/-! ## The events of the engines -/

section
variable {s : State} {t n : Nat}

theorem exec_engineUpdate {e m : Nat} {x : Upd} {rest : List (Nat × Upd)} (he : e < numEngines)
    (hf : (s.at t).fabricRuns = true) (hq : ((s.at t).engine e).queue = (m, x) :: rest)
    (hm : ¬ (((s.at t).ctx m).moving = true ∧ (s.at t).engineOf m ≠ e)) :
    exec (.engineUpdate t e) s = .next (((s.at t).setEngine e
      { (s.at t).engine e with queue := rest, applied := ((s.at t).engine e).applied + 1 }).applyUpd m x) := by
  refine (if_pos he).trans ?_
  simp only [hq]
  exact if_neg (by simpa [hf] using hm)

theorem exec_gateTimeout {g : Gate} (hn : n < numContexts) (hg : ((s.at t).ctx n).gate = some g)
    (hm : (s.at t).get .MC_CFG_GMODE n = 1) (hd : (s.at t).instOf (g.opened + 16 * tSec) ≤ (s.at t).now) :
    exec (.gateTimeout t n) s = .next ((s.at t).shutAt n (g.opened + 16 * tSec) cShort) := by
  refine (if_pos hn).trans ?_
  simp only [hg]
  exact if_pos ⟨hm, hd⟩

theorem exec_publish {g : Gate} {rest : List Gate} (hn : n < numContexts) (hr : (s.at t).time.halted = false)
    (hc : ((s.at t).ctx n).closed = g :: rest) (hw : rest ≠ [] ∨ ((s.at t).ctx n).gateWaits ((s.at t).mcf n) g = false) :
    exec (.publish t n) s = .next ((s.at t).publishGate n) := by
  refine (if_pos hn).trans ?_
  simp only [hc, hr]
  exact if_neg (by rcases hw with hw | hw <;> simp [hw])

theorem exec_contextMove {y : State} {e : Nat} (hn : n < numContexts) (hr : (s.at t).time.halted = false)
    (hm : ((s.at t).ctx n).move = some e) (hw : ((s.at t).ctx n).moving = true ∨ ((s.at t).ctx n).armed = false)
    (hy : y = (s.at t).drainCtx n) :
    exec (.contextMove t n) s = .next (y.setCtx n
      { y.ctx n with engine := if e = n % 24 then none else some e, move := none, moving := false }) := by
  refine (if_pos hn).trans ?_
  simp only [hm, hr, ← hy]
  exact if_pos (by rcases hw with hw | hw <;> simp [hw])

end

/-- A write that is taken, and a field that it stores, leave the contexts. -/
theorem State.ctx_of_taken {u a b : State} {p n i j v w : Nat} {r : Reg} {f : Fld} (h : takesWriteIn u p r i v a)
    (hb : b = a.put f j w) : b.ctx n = u.ctx n := by
  obtain ⟨-, rfl⟩ := h
  subst hb
  rfl

/-- Settles O29. -/
theorem contextCommandsTakeEffect : Obligations.ContextCommandsTakeEffect := by
  intro s u a t p n c hu hn hc
  subst hu
  refine ⟨fun b hp h hb => ?_, fun b hp h hb => ?_,
    fun b y g hp h1 h hb ha hg ho hcl hy => ?_, fun b g hp h1 h hb ha hg hcl => ?_, fun b j hp h1 h hb ha hj => ?_,
    fun b hp h0 hb hz => ⟨fun h => ?_, fun h => ?_⟩, fun e m x rest he hf hq hm => exec_engineUpdate he hf hq hm,
    fun g hg hm hd => exec_gateTimeout hn (hc ▸ hg) hm hd, fun g rest hr hcl hw => exec_publish hn hr (hc ▸ hcl) (hc ▸ hw),
    fun e y hr hm hw hy => exec_contextMove hn hr (hc ▸ hm) (hc ▸ hw) hy⟩
  · obtain rfl : c = b.ctx n := hc.trans (State.ctx_of_taken h hb).symm
    rw [exec_startContext hp hn h, ← hb]
    exact ⟨fun ha hpe => by rw [State.armCtx_of_stopped ha hpe], fun hbusy => by rw [State.armCtx_of_busy hbusy]⟩
  · obtain rfl : c = b.ctx n := hc.trans (State.ctx_of_taken h hb).symm
    rw [exec_disarmContext hp hn h, ← hb]
    exact ⟨fun hpe => by rw [State.disarmCtx_of_pend hpe], fun hpe ha => by rw [State.disarmCtx_of_armed hpe ha],
      fun hpe ha => by rw [State.disarmCtx_of_stopped hpe ha]⟩
  · obtain rfl : c = b.ctx n := hc.trans (State.ctx_of_taken h hb).symm
    rw [exec_contextRestart_of_armed hp hn h1 h, ← hb, State.armCtx_of_busy (.inl ha), State.restartCtx_of_open hg ha ho hcl hy]
  · obtain rfl : c = b.ctx n := hc.trans (State.ctx_of_taken h hb).symm
    rw [exec_contextRestart_of_armed hp hn h1 h, ← hb, State.armCtx_of_busy (.inl ha), State.restartCtx_of_closing hcl]
  · obtain rfl : c = b.ctx n := hc.trans (State.ctx_of_taken h hb).symm
    rw [exec_stabClear_of_armed hp hn h1 h, ← hb, State.armCtx_of_busy (.inl ha), State.clearStab_of_slot hj]
  · have hbc : b.ctx n = {} := (State.ctx_of_taken h hb).trans (hc.symm.trans hz)
    rw [exec_contextRestart_of_stopped hp hn h0 h, ← hb, State.disarmCtx_of_stopped (by rw [hbc]) (by rw [hbc]),
      State.restartCtx_of_shut (by rw [hbc])]
  · have hbc : b.ctx n = {} := (State.ctx_of_taken h hb).trans (hc.symm.trans hz)
    rw [exec_stabClear_of_stopped hp hn h0 h, ← hb, State.disarmCtx_of_stopped (by rw [hbc]) (by rw [hbc]),
      State.clearStab_of_none (by rw [hbc])]

end Sys2Proof.Machine
end

section
/-!
The commands of a host to a capture unit and to a pan (R254, R256, R258, R262, R276, R278).
-/

namespace Sys2Proof.Machine

/-! ## The commands as register writes -/

section
variable {s a : State} {t p n : Nat}

theorem exec_armAcquisition (hp : isPort p = true) (hn : n < numUnits) (h : takesWriteIn (s.at t) p .AQ_ARM n 1 a) :
    exec (.armAcquisition t p n) s = .next (reported ((a.put .AQ_ARM_ARM n 1).armAcq n) p) :=
  (if_pos ⟨hn, hp⟩).trans (congrArg Host.Outcome.next (State.hostWrite_effect (Command.AQ_ARM hn) (by rfl) (by rfl) h))

theorem exec_disarmAcquisition (hp : isPort p = true) (hn : n < numUnits) (h : takesWriteIn (s.at t) p .AQ_ARM n 0 a) :
    exec (.disarmAcquisition t p n) s = .next (reported ((a.put .AQ_ARM_ARM n 0).disarmAcq n) p) :=
  (if_pos ⟨hn, hp⟩).trans (congrArg Host.Outcome.next (State.hostWrite_effect (Command.AQ_ARM hn) (by rfl) (by rfl) h))

theorem exec_force (hp : isPort p = true) (hn : n < numUnits) (h : takesWriteIn (s.at t) p .AQ_CMD n 1 a) :
    exec (.force t p n) s = .next (reported (a.forceAcq n) p) :=
  (if_pos ⟨hn, hp⟩).trans (congrArg Host.Outcome.next (State.hostWrite_effect (Command.AQ_CMD hn) (by rfl) (by rfl) h))

theorem exec_abort (hp : isPort p = true) (hn : n < numUnits) (h : takesWriteIn (s.at t) p .AQ_CMD n 2 a) :
    exec (.abort t p n) s = .next (reported (a.abortAcq n) p) :=
  (if_pos ⟨hn, hp⟩).trans (congrArg Host.Outcome.next (State.hostWrite_effect (Command.AQ_CMD hn) (by rfl) (by rfl) h))

theorem State.wordWith_panRelease {u : State} {k : Nat} :
    u.wordWith .PAN_STATUS k [(.PAN_STATUS_RELEASE, 1)] % 2 ^ 32 = 256 := by
  have e : u.wordWith .PAN_STATUS k [(.PAN_STATUS_RELEASE, 1)] = [0, 0, Fld.PAN_STATUS_RELEASE.place 1, 0].sum := by rfl
  have h : Fld.PAN_STATUS_RELEASE.place 1 = 256 := by decide
  rw [e, h]
  rfl

theorem exec_panRelease (hp : isPort p = true) (hn : n < numPans) (h : takesWriteIn (s.at t) p .PAN_STATUS n 256 a) :
    exec (.panRelease t p n) s = .next (reported (a.releasePan n) p) :=
  (if_pos ⟨hn, hp⟩).trans
    (congrArg Host.Outcome.next (State.hostWrite_effect (Command.PAN_STATUS hn) State.wordWith_panRelease (by rfl) h))

end

/-- A write that is taken, and a field that it stores, leave the capture units. -/
theorem State.acq_of_taken {u a b : State} {p n i j v w : Nat} {r : Reg} {f : Fld} (h : takesWriteIn u p r i v a)
    (hb : b = a.put f j w) : b.acq n = u.acq n := by
  obtain ⟨-, rfl⟩ := h
  subst hb
  rfl

/-! ## What they do to the unit -/

section
variable {s : State} {n : Nat}

theorem State.armAcq_of_stopped {y : State} (ha : (s.acq n).armed = false) (hp : (s.acq n).pend = false)
    (hy : y = (s.setAcq n { s.acq n with pend := true, guard := s.aqGuard n }).armCry n) :
    s.armAcq n = (if y.aqStream n then y.holdSlu (y.get .AQ_STREAM_SL n) n else y).submit
      (if s.aqGuard n then 0 else 2) (.acq n) := by
  subst hy
  simp only [State.armAcq, ha, hp, Bool.false_eq_true, if_false]

/-- R258: an arm of a unit in DONE takes the next capture. -/
theorem State.armAcq_of_done (ha : (s.acq n).armed = true) (h7 : (s.acq n).state = 7) : s.armAcq n = s.waitFill n := by
  simp only [State.armAcq, ha, h7, if_true]

/-- R256: an arm of a unit that captures or waits to changes nothing. -/
theorem State.armAcq_of_busy
    (h : (s.acq n).armed = true ∧ (s.acq n).state ≠ 7 ∨ (s.acq n).armed = false ∧ (s.acq n).pend = true) : s.armAcq n = s := by
  rcases h with ⟨ha, h7⟩ | ⟨ha, hp⟩
  · simp only [State.armAcq, ha, if_neg h7, if_true]
  · simp only [State.armAcq, ha, hp, Bool.false_eq_true, if_false, if_true]

theorem State.disarmAcq_of_pend {y : State} (hp : (s.acq n).pend = true)
    (hy : y = (s.setAcq n { s.acq n with pend := false }).retract (.acq n)) :
    s.disarmAcq n = if y.aqStream n then y.freeSlu (y.get .AQ_STREAM_SL n) false else y := by
  simp only [State.disarmAcq, hp, if_true, ← hy]

theorem State.disarmAcq_of_stopped (hp : (s.acq n).pend = false) (ha : (s.acq n).armed = false) : s.disarmAcq n = s := by
  simp only [State.disarmAcq, hp, ha, Bool.not_false, Bool.false_eq_true, if_false, if_true]

theorem State.disarmAcq_of_armed (hp : (s.acq n).pend = false) (ha : (s.acq n).armed = true) :
    s.disarmAcq n =
      if 3 ≤ (s.acq n).state ∧ (s.acq n).state ≤ 5 then
        if s.captureDone n then (s.closeAcq n 1 none true).leaveArm n else s.closeAcq n 3 none false
      else if (s.acq n).state = 6 then (s.closeAcq n 6 none false).leaveArm n
      else s.leaveArm n := by
  simp only [State.disarmAcq, hp, ha, Bool.not_true, Bool.false_eq_true, if_false]

/-- R258, R262: FORCE in READY decides a trigger with cause 8, whose T is the present tick. -/
theorem State.forceAcq_of_ready (h4 : (s.acq n).state = 4) (ht : (s.acq n).trig = none) :
    s.forceAcq n = (s.setAcq n { s.acq n with
      state := 5, trig := some {
        cause := 8, met := 0, time := s.tick, qual := s.qual, word := (s.acq n).stored, at_ := s.now, forced := false
        before := s.get .AQ_LAST_T_TIME n } }).put .AQ_LAST_T_TIME n (time64 s.tick) := by
  simp only [State.forceAcq, h4, State.trigger, ht]

theorem State.forceAcq_of_other (h4 : (s.acq n).state ≠ 4) (h5 : (s.acq n).state ≠ 5) : s.forceAcq n = s := by
  unfold State.forceAcq
  simp only
  split
  case h_1 h => exact absurd h h4
  case h_2 h _ => exact absurd h h5
  case h_3 => rfl

theorem State.undoTrigger_of_earlier (h : ∀ x, (s.acq n).trig = some x → s.sameCycle x = false) : s.undoTrigger n = s := by
  cases hx : (s.acq n).trig with
  | none => simp only [State.undoTrigger, hx]
  | some x => simp only [State.undoTrigger, hx, h x hx, Bool.false_eq_true, if_false]

theorem State.undoTrigger_of_sameCycle {x : Trig} {y : State} (hx : (s.acq n).trig = some x) (hs : s.sameCycle x = true)
    (hy : y = (s.setAcq n { s.acq n with state := 4, trig := none }).put .AQ_LAST_T_TIME n x.before) :
    s.undoTrigger n = if x.met = 0 then y else y.ignored n := by
  simp only [State.undoTrigger, hx, hs, if_true, ← hy]

theorem State.abortAcq_of_capturing (h3 : 3 ≤ (s.acq n).state) (h5 : (s.acq n).state ≤ 5) :
    s.abortAcq n = if s.captureDone n then s.closeAcq n 1 none true else (s.undoTrigger n).closeAcq n 2 none false := by
  simp only [State.abortAcq, h3, h5, decide_true, Bool.and_self, Bool.not_true, Bool.false_eq_true, if_false]

theorem State.abortAcq_of_other (h : (s.acq n).state < 3 ∨ 5 < (s.acq n).state) : s.abortAcq n = s :=
  if_pos (by simp only [Bool.not_eq_true', Bool.and_eq_false_iff, decide_eq_false_iff_not]; omega)

theorem State.releasePan_of_held (h : (s.pan n).state = 2) : s.releasePan n = s.setPan n { s.pan n with state := 0 } := if_pos h

end

/-- Settles O30. -/
theorem captureHostCommandsTakeEffect : Obligations.CaptureHostCommandsTakeEffect := by
  intro s u a t p n c hu hp hn hc
  subst hu
  refine ⟨fun b y h hb => ?_, fun b y h hb => ?_, fun h => ?_, fun h => ?_, fun k hk h h2 => ?_⟩
  · obtain rfl : c = b.acq n := hc.trans (State.acq_of_taken h hb).symm
    rw [exec_armAcquisition hp hn h, ← hb]
    exact ⟨fun ha hpe hy => by rw [State.armAcq_of_stopped ha hpe hy], fun ha h7 => by rw [State.armAcq_of_done ha h7],
      fun hbusy => by rw [State.armAcq_of_busy hbusy]⟩
  · obtain rfl : c = b.acq n := hc.trans (State.acq_of_taken h hb).symm
    rw [exec_disarmAcquisition hp hn h, ← hb]
    refine ⟨fun hpe hy => by rw [State.disarmAcq_of_pend hpe hy], fun hpe ha h3 h5 => ?_, fun hpe ha h6 => ?_,
      fun hpe ha ho => ?_, fun hpe ha => by rw [State.disarmAcq_of_stopped hpe ha]⟩
    · rw [State.disarmAcq_of_armed hpe ha, if_pos ⟨h3, h5⟩]
      exact ⟨fun hd => by rw [if_pos hd], fun hd => by rw [if_neg (by rw [hd]; decide)]⟩
    · rw [State.disarmAcq_of_armed hpe ha, if_neg (by omega), if_pos h6]
    · rw [State.disarmAcq_of_armed hpe ha, if_neg (by omega), if_neg (by omega)]
  · rw [exec_force hp hn h]
    obtain rfl : c = a.acq n := hc.trans (by obtain ⟨-, rfl⟩ := h; rfl)
    exact ⟨fun h4 ht => by rw [State.forceAcq_of_ready h4 ht], fun h4 h5 => by rw [State.forceAcq_of_other h4 h5]⟩
  · rw [exec_abort hp hn h]
    obtain rfl : c = a.acq n := hc.trans (by obtain ⟨-, rfl⟩ := h; rfl)
    refine ⟨fun h3 h5 => ?_, fun ho => by rw [State.abortAcq_of_other ho]⟩
    rw [State.abortAcq_of_capturing h3 h5]
    exact ⟨fun hd => by rw [if_pos hd],
      fun hd he => by rw [if_neg (by rw [hd]; decide), State.undoTrigger_of_earlier he],
      fun x y hd hx hs hy => by rw [if_neg (by rw [hd]; decide), State.undoTrigger_of_sameCycle hx hs hy]⟩
  · rw [exec_panRelease hp hk h]
    have ha : a.pan k = (s.at t).pan k := by obtain ⟨-, rfl⟩ := h; rfl
    rw [← ha] at h2 ⊢
    rw [State.releasePan_of_held h2]

end Sys2Proof.Machine
end

section
/-!
The commands of the crossing itself (R29, R401, R407, R410, R414, R417, R422): a register write, the write-back of events, the
tide gate, a Harvest, and TEST.
-/

namespace Sys2Proof.Machine

/-! ## Register writes -/

theorem State.portWrite_taken {u a : State} {p v : Nat} {r : Reg} {i : Nat} (c : Command r i) (hv : v < 2 ^ 32)
    (h : takesWriteIn u p r i v a) : u.portWrite p (r.addr i) v = reported (a.writeReg p r i v) p := by
  obtain ⟨h, rfl⟩ := h
  rw [← Nat.mod_eq_of_lt hv] at h
  rw [State.portWrite, State.portWrites_taken c h, Nat.mod_eq_of_lt hv]

section
variable {s a : State} {t p : Nat}

theorem exec_registerWrite {r : Reg} {i v : Nat} (hp : isPort p = true) (c : Command r i) (hv : v < 2 ^ 32)
    (h : takesWriteIn (s.at t) p r i v a) :
    exec (.registerWrite t p (r.addr i) v) s = .next (reported (a.writeReg p r i v) p) :=
  (if_pos hp).trans (congrArg Host.Outcome.next (State.portWrite_taken c hv h))

theorem exec_eventWriteBack {r : Reg} {i v : Nat} (hp : isPort p = true) (c : Command r i) (hv : v < 2 ^ 32)
    (h : takesWriteIn (s.at t) p r i v a) :
    exec (.eventWriteBack t p (r.addr i) v) s = .next (reported (a.writeReg p r i v) p) :=
  (if_pos hp).trans (congrArg Host.Outcome.next (State.portWrite_taken c hv h))

end

/-- The event registers that hold no latch besides their flags (R410). -/
def plainEvents : List Reg := [.PWR_EVENT, .HVS_EVENT, .BOOT_EVENT, .TB_STATUS, .TB_ISLAND_UNLOCK, .TCH_BE_EVENT, .WCH_EVENT,
  .MC_EVENT, .AQ_EVENT, .CRY_EVENT, .MSK_EVENT, .SLU_EVENT, .SLU_ENGINE_EVENT, .LNK_LANE_EVENT, .LNK_LINK_EVENT, .DEV_EVENT,
  .LIFE_EVENT, .VD_EVENT]

/-- R410: a write of such a register stores no field and has no effect besides the write-back of its flags. -/
theorem State.writeReg_of_plainEvent {s : State} {p i v : Nat} {r : Reg} (h : r ∈ plainEvents) :
    s.writeReg p r i v = s.writeBack r i v := by
  simp only [plainEvents, List.mem_cons, List.not_mem_nil, or_false] at h
  rcases h with rfl | rfl | rfl | rfl | rfl | rfl | rfl | rfl | rfl | rfl | rfl | rfl | rfl | rfl | rfl | rfl | rfl | rfl <;> rfl

/-- R320, R472: a write of MRK_EVENT with TRIPPED releases the latch of the output too. -/
theorem State.writeReg_mrkEvent (s : State) (p i v : Nat) :
    s.writeReg p .MRK_EVENT i v =
      if s.releases .MRK_EVENT_TRIPPED i v then (s.writeBack .MRK_EVENT i v).releaseMarker i else s.writeBack .MRK_EVENT i v := rfl

/-! ## The tide gate -/

theorem State.wordWith_tideGate {u : State} {key : Nat} (hk : key < 2 ^ 16) :
    u.wordWith .DEV_TIDEGATE 0 [(.DEV_TIDEGATE_KEY, key)] % 2 ^ 32 = key := by
  have e : u.wordWith .DEV_TIDEGATE 0 [(.DEV_TIDEGATE_KEY, key)] = key % 2 ^ 16 * 2 ^ 0 + 0 := by rfl
  omega

theorem State.writeReg_tideGate (s : State) (p : Nat) {key : Nat} (hk : key < 2 ^ 16) :
    s.writeReg p .DEV_TIDEGATE 0 key = s.setPort p { s.port p with gate := decide (key = 0x5A17) } := by
  have e : s.writeReg p .DEV_TIDEGATE 0 key = s.setPort p { s.port p with gate := key / 2 ^ 0 % 2 ^ 16 == 0x5A17 } := by rfl
  have hm : key / 2 ^ 0 % 2 ^ 16 = key := by omega
  rw [e, hm]
  rfl

/-! ## Harvest, TEST and the return from it -/

/-- What a write of DEV_CMD without HARVEST does (R422). -/
theorem State.writeReg_devCmd {s : State} {v : Nat} (p : Nat) (h : wants .DEV_CMD_HARVEST v = false) :
    s.writeReg p .DEV_CMD 0 v =
      if wants .DEV_CMD_ENTER_TEST v ∧ s.dev = .run then s.setDev .test
      else if wants .DEV_CMD_LEAVE_TEST v ∧ s.dev = .test then s.setDev .run
      else s := by
  have e : s.writeReg p .DEV_CMD 0 v = s.effectAo s p .DEV_CMD 0 v := rfl
  simp only [e, State.effectAo, h, Bool.false_eq_true, if_false]

theorem State.writeReg_enterTest {s : State} (p : Nat) (h : s.dev = .run) : s.writeReg p .DEV_CMD 0 2 = s.setDev .test := by
  rw [State.writeReg_devCmd p (by rfl), if_pos ⟨by rfl, h⟩]

theorem State.writeReg_leaveTest {s : State} (p : Nat) (h : s.dev = .test) : s.writeReg p .DEV_CMD 0 4 = s.setDev .run := by
  rw [State.writeReg_devCmd p (by rfl), if_neg (by rw [h]; simp), if_pos ⟨by rfl, h⟩]

section
variable {s a : State} {t p : Nat}

theorem exec_tideGate {key : Nat} (hp : isPort p = true) (hk : key < 2 ^ 16)
    (h : takesWriteIn (s.at t) p .DEV_TIDEGATE 0 key a) :
    exec (.tideGate t p key) s = .next (reported (a.setPort p { a.port p with gate := decide (key = 0x5A17) }) p) :=
  (if_pos hp).trans (congrArg Host.Outcome.next
    (State.hostWrite_effect Command.DEV_TIDEGATE (State.wordWith_tideGate hk) (State.writeReg_tideGate a p hk) h))

theorem exec_harvest (hp : isPort p = true) (h : takesWriteIn (s.at t) p .DEV_CMD 0 1 a) :
    exec (.harvest t p) s = .next (reported a.startHarvest p) :=
  (if_pos hp).trans (congrArg Host.Outcome.next (State.hostWrite_effect Command.DEV_CMD (by rfl) (by rfl) h))

theorem exec_enterTest (hp : isPort p = true) (h : takesWriteIn (s.at t) p .DEV_CMD 0 2 a) (hd : a.dev = .run) :
    exec (.enterTest t p) s = .next (reported (a.setDev .test) p) :=
  (if_pos hp).trans (congrArg Host.Outcome.next
    (State.hostWrite_effect Command.DEV_CMD (by rfl) (State.writeReg_enterTest p hd) h))

theorem exec_leaveTest (hp : isPort p = true) (h : takesWriteIn (s.at t) p .DEV_CMD 0 4 a) (hd : a.dev = .test) :
    exec (.leaveTest t p) s = .next (reported (a.setDev .run) p) :=
  (if_pos hp).trans (congrArg Host.Outcome.next
    (State.hostWrite_effect Command.DEV_CMD (by rfl) (State.writeReg_leaveTest p hd) h))

end

/-- R417: in valid time a Harvest falls due at the first 100 ns boundary at least 1 µs later, which is its tag. -/
theorem State.startHarvest_of_valid {s : State} {h : Int} (hv : s.time.valid = true)
    (hh : h = (s.time.origin + (((s.now + qUs + qTick - 1) / qTick : Nat) : Int) + tPer - 1) / (tPer : Int) * tPer) :
    s.startHarvest = { s with bank := { s.bank with busy := true, due := some (s.instOf h), time := time64 h } } := by
  simp only [State.startHarvest, hv, if_true, ← hh]

theorem State.startHarvest_of_invalid {s : State} (hv : s.time.valid = false) :
    s.startHarvest = { s with bank := { s.bank with busy := true, due := some (s.now + qUs), time := 0 } } := by
  simp only [State.startHarvest, hv, Bool.false_eq_true, if_false]

theorem State.harvestAt_of_due {s : State} {x : Nat} (hd : s.bank.due = some x) (hx : x ≤ s.now) :
    s.harvestAt = { s with bank := { s.bank with due := none, next := s.harvestRegs, nextStabs := s.stabs, qual := s.qual } } := by
  simp only [State.harvestAt, hd, if_pos hx]

theorem State.harvestEnd_of_copied {s y : State} (hb : s.bank.busy = true) (hd : s.bank.due = none)
    (hy : y = { s with bank := { s.bank with
      regs := s.bank.next, stabs := s.bank.nextStabs, next := [], nextStabs := [], busy := false } }) :
    s.harvestEnd = ((((y.put .DEV_HARVEST_TIME_TIME 0 s.bank.time).put .DEV_HARVEST_QUAL 0 s.bank.qual).bump
      .DEV_HARVEST_HSEQ).raise .DEV_EVENT_HARVEST_DONE) := by
  subst hy
  exact if_pos ⟨hb, hd⟩

theorem State.setDev_test_of_run {s : State} (h : s.dev = .run) :
    s.setDev .test = { s with prev := .run, dev := .test, devAt := s.now }.raise .DEV_EVENT_STATE := by
  simp only [State.setDev, h, reduceCtorEq, if_false]

/-- R162, R422: the return from TEST ends the bypasses of calibration. -/
theorem State.setDev_run_of_test {s : State} (h : s.dev = .test) :
    s.setDev .run = { s.endBypasses with prev := .test, dev := .run, devAt := s.now }.raise .DEV_EVENT_STATE := by
  obtain ⟨e, he⟩ := State.endBypasses_frame s
  simp only [State.setDev, h, reduceCtorEq, if_false, if_true, he]

/-- Settles O48. -/
theorem crossingCommandsTakeEffect : Obligations.CrossingCommandsTakeEffect := by
  intro s u a t p hu hp
  subst hu
  refine ⟨fun r i v c hv h => ⟨exec_registerWrite hp c hv h, exec_eventWriteBack hp c hv h⟩, fun r i v hr c hv h => ?_,
    fun i v y c hv h hy => ?_, fun key hk h => exec_tideGate hp hk h,
    fun x h => ?_, fun x hd hx => ?_, fun y hb hd hy => ?_, fun h hd => ?_, fun h hd => ?_⟩
  · rw [exec_eventWriteBack hp c hv h, State.writeReg_of_plainEvent hr]
  · rw [exec_eventWriteBack hp c hv h, State.writeReg_mrkEvent, hy]
  · rw [exec_harvest hp h]
    exact ⟨fun hv hx => by rw [State.startHarvest_of_valid hv hx], fun hv => by rw [State.startHarvest_of_invalid hv]⟩
  · exact congrArg Host.Outcome.next (State.harvestAt_of_due hd hx)
  · exact congrArg Host.Outcome.next (State.harvestEnd_of_copied hb hd hy)
  · rw [exec_enterTest hp h hd, State.setDev_test_of_run hd]
  · rw [exec_leaveTest hp h hd, State.setDev_run_of_test hd]

end Sys2Proof.Machine
end

section
/-!
Time words and tick counts (R58): the parts of a time word from its tick count, and the tick count from the parts.
-/

namespace Sys2Proof.Machine

theorem ticksOf_cast (sec per frac : Nat) : ((ticksOf sec per frac : Nat) : Int) = (sec * 10000000 + per) * 524288 + frac := by
  simp only [ticksOf, Nat.cast_add, Nat.cast_mul, Nat.cast_ofNat]

section
variable {sec per frac : Nat}

theorem fracOf_ticksOf (hf : frac < 524288) : fracOf (ticksOf sec per frac : Nat) = frac := by
  rw [fracOf, ticksOf_cast]
  omega

/-- The coarse part of a tick count is its number of 100 ns periods. -/
theorem ticksOf_div (hf : frac < 524288) : ((ticksOf sec per frac : Nat) : Int) / 524288 = sec * 10000000 + per := by
  rw [ticksOf_cast]
  omega

theorem perOf_ticksOf (hp : per < 10000000) (hf : frac < 524288) : perOf (ticksOf sec per frac : Nat) = per := by
  rw [perOf, ticksOf_div hf]
  omega

theorem secOf_ticksOf (hs : sec < 2 ^ 32) (hp : per < 10000000) (hf : frac < 524288) :
    secOf (ticksOf sec per frac : Nat) = sec := by
  rw [secOf, ticksOf_div hf]
  omega

end

theorem secOf_lt (t : Int) : secOf t < 2 ^ 32 := by
  simp only [secOf]
  omega

theorem perOf_lt (t : Int) : perOf t < 10000000 := by
  simp only [perOf]
  omega

theorem fracOf_lt (t : Int) : fracOf t < 524288 := by
  simp only [fracOf]
  omega

/-- R58: SEC counts modulo 2^32, so a time word holds its tick count modulo 2^32 s. -/
theorem ticksOf_parts (t : Int) :
    ((ticksOf (secOf t) (perOf t) (fracOf t) : Nat) : Int) = t % (2 ^ 32 * 10000000 * 524288) := by
  rw [ticksOf_cast]
  simp only [secOf, perOf, fracOf]
  omega

theorem secOf_add_wrap (t : Int) : secOf (t + 2 ^ 32 * 10000000 * 524288) = secOf t := by
  simp only [secOf]
  omega

/-- Settles O59. -/
theorem timeWordsAndTicksAgree : Obligations.TimeWordsAndTicksAgree :=
  ⟨fun _ _ _ hs hp hf => ⟨secOf_ticksOf hs hp hf, perOf_ticksOf hp hf, fracOf_ticksOf hf⟩,
    fun t => ⟨secOf_lt t, perOf_lt t, fracOf_lt t, ticksOf_parts t⟩, secOf_add_wrap, by decide, by decide, by decide⟩

end Sys2Proof.Machine
end

section
/-!
The events of the time base (R47, R48, R51, R52, R54, R55, R69): the reference, PPS_IN, and the waits of both alignments.
-/

namespace Sys2Proof.Machine

/-! ## The reference -/

theorem State.mark_time (s : State) (n : Nat) : (s.mark n).time = s.time := by
  unfold State.mark
  split <;> rfl

theorem State.beginTime_of_valid {s : State} (h : s.time.valid = true) : s.beginTime = s := if_pos (by simp [h])

section
variable {s y : State} {hz since phase refOut nominal a : Nat}

/-- R47: once the phase error has stayed small for 100 ms since the acquisition began, the frequency alone decides. -/
theorem State.locksTo_of_stable (ha : s.time.acquire = some a) (hl : s.time.refLock = false) (h1 : a ≤ since)
    (h2 : since + 100 * qMs ≤ s.now) : s.locksTo hz since = acceptedHz (s.get .TB_REF_CFG_FREQ) hz := by
  simp only [State.locksTo, ha, hl, h1, h2, decide_true, Bool.not_false, Bool.and_self, if_true]

theorem State.lockRef_first (h : s.locksTo hz since = some nominal) (hh : s.time.holdover = false)
    (hy : y = { s with time := { s.time with refLock := true, holdover := false, refHz := nominal } }) :
    s.lockRef hz since phase refOut = (y.mark 4).beginTime := by
  subst hy
  simp only [State.lockRef, h, hh, Bool.false_eq_true, if_false]

/-- R49, R69: a relock in valid time keeps the time word, and reports the phases. -/
theorem State.lockRef_again (h : s.locksTo hz since = some nominal) (hh : s.time.holdover = true) (hv : s.time.valid = true)
    (hy : y = { s with time := { s.time with refLock := true, holdover := false, refHz := nominal } }) :
    s.lockRef hz since phase refOut =
      ((y.put .TB_HOLD_PHASE_TICKS 0 (quot (phase % (qSec / nominal)) qTick)).put .TB_REF_OUT_PHASE_TICKS 0
        (refOut % tPer)).mark 4 := by
  subst hy
  simp only [State.lockRef, h, hh, if_true]
  exact State.beginTime_of_valid (by rw [State.mark_time]; exact hv)

end

theorem State.holdRef_of_lost {s : State} {hz missed : Nat} (hl : s.time.refLock = true)
    (h : 4 ≤ missed ∨ within100 hz s.time.refHz = false) :
    s.holdRef hz missed = { s with time := { s.time with refLock := false, holdover := true } } :=
  if_pos (by rcases h with h | h <;> simp [hl, h])

/-! ## PPS_IN -/

section
variable {s : State} {pol : Bool} {bin refOut : Nat}

theorem State.ppsEdge_aligns (hh : s.time.halted = false) (hp : (pol != s.flag .TB_PPS_CFG_EDGE) = true)
    (ha : s.alignsFirst = true) : s.ppsEdge pol bin refOut = s.alignFirst pol refOut := by
  simp only [State.ppsEdge, hh, hp, ha, Bool.false_eq_true, if_false, Bool.and_self, if_true]

theorem State.ppsEdge_realigns {n : Int} (hh : s.time.halted = false) (hp : (pol != s.flag .TB_PPS_CFG_EDGE) = true)
    (ha : s.alignsFirst = false) (hr : s.realigns = some n) : s.ppsEdge pol bin refOut = s.realignTo n pol refOut := by
  simp only [State.ppsEdge, hh, hp, ha, hr, Bool.false_eq_true, if_false, Bool.and_false, if_true]

theorem State.ppsEdge_checks (hh : s.time.halted = false) (hp : (pol != s.flag .TB_PPS_CFG_EDGE) = true)
    (ha : s.alignsFirst = false) (hr : s.realigns = none) : s.ppsEdge pol bin refOut = s.ppsRecord pol bin true := by
  simp only [State.ppsEdge, hh, hp, ha, hr, Bool.false_eq_true, if_false, Bool.and_false, if_true]

/-- R54: the edge of the other polarity is recorded alone. -/
theorem State.ppsEdge_inactive (hh : s.time.halted = false) (hp : (pol != s.flag .TB_PPS_CFG_EDGE) = false) :
    s.ppsEdge pol bin refOut = s.ppsRecord pol bin false := by
  simp only [State.ppsEdge, hh, hp, Bool.false_eq_true, if_false, Bool.false_and]

end

/-- R54: three pulses out of tolerance or missing in a row end ALIGNED. -/
theorem State.ppsPulse_bad (s : State) : s.ppsPulse false = { s with time := { s.time with
    ppsGood := 0, ppsBad := min (s.time.ppsBad + 1) 3
    aligned := if 3 ≤ s.time.ppsBad + 1 then false else s.time.aligned } } := rfl

theorem State.ppsMissing_of_due {s : State} {n : Int} (hn : n = (s.recTick srcPps - 5242880000) / (tSec : Int))
    (hv : s.time.valid = true) (hc : s.time.checks = true) (hh : s.time.halted = false) (h1 : s.time.ppsSec < n)
    (h2 : s.time.ppsMiss < n) : s.ppsMissing = { s with time := { s.time with
      ppsMiss := n, ppsGood := 0, ppsBad := min (s.time.ppsBad + 1) 3
      aligned := if 3 ≤ s.time.ppsBad + 1 then false else s.time.aligned } } := by
  simp only [State.ppsMissing, ← hn, hv, hc, hh, h1, h2, decide_true, Bool.not_false, Bool.and_self, if_true,
    State.ppsPulse_bad]

theorem State.waitOver_of_due {s : State} {x : Nat} (hx : s.time.lockAt = some x) (hv : s.time.valid = false)
    (hm : s.get .TB_PPS_CFG_MODE = 1) (h : x + s.get .TB_PPS_CFG_WAIT * qSec ≤ s.now) :
    s.waitOver = s.startPlain (x + s.get .TB_PPS_CFG_WAIT * qSec) := by
  simp only [State.waitOver, hx, hv, hm, h, decide_true, Bool.not_false, beq_self_eq_true, Bool.and_self, if_true]

theorem State.realignOver_of_due {s : State} {x : Nat} (hx : s.time.realign = some x)
    (h : x + s.get .TB_PPS_CFG_WAIT * qSec ≤ s.now) :
    s.realignOver = State.raise { s with time := { s.time with realign := none } } .TB_STATUS_REALIGN_FAIL := by
  simp only [State.realignOver, hx, if_pos h]

/-- Settles O16. -/
theorem timeBaseEventsTakeEffect : Obligations.TimeBaseEventsTakeEffect := by
  intro s u t hu
  subst hu
  refine ⟨fun hz since phase refOut nominal a y hy ha hl h1 h2 hf => ?_, fun hz missed hl h => ?_,
    fun pol bin refOut hh => ⟨fun hp ha => ?_, fun n hp ha hr => ?_, fun hp ha hr => ?_, fun hp => ?_⟩,
    fun n hn hv hc hh h1 h2 => ?_, fun x hx hv hm h => ?_, fun x hx h => ?_⟩
  · have hlock : (s.at t).locksTo hz since = some nominal := (State.locksTo_of_stable ha hl h1 h2).trans hf
    exact ⟨fun hh => congrArg Host.Outcome.next (State.lockRef_first hlock hh hy),
      fun hh hv => congrArg Host.Outcome.next (State.lockRef_again hlock hh hv hy)⟩
  · exact congrArg Host.Outcome.next (State.holdRef_of_lost hl h)
  · exact congrArg Host.Outcome.next (State.ppsEdge_aligns hh hp ha)
  · exact congrArg Host.Outcome.next (State.ppsEdge_realigns hh hp ha hr)
  · exact congrArg Host.Outcome.next (State.ppsEdge_checks hh hp ha hr)
  · exact congrArg Host.Outcome.next (State.ppsEdge_inactive hh hp)
  · exact congrArg Host.Outcome.next (State.ppsMissing_of_due hn hv hc hh h1 h2)
  · exact congrArg Host.Outcome.next (State.waitOver_of_due hx hv hm h)
  · exact congrArg Host.Outcome.next (State.realignOver_of_due hx h)

end Sys2Proof.Machine
end

section
/-!
The commands of a host to the time base (R55, R59, R60, R65, R69, R423): what each register write does.
-/

namespace Sys2Proof.Machine

section
variable {s a : State} {t p : Nat}

theorem exec_realign (hp : isPort p = true) (h : takesWriteIn (s.at t) p .TB_CMD 0 1 a) :
    exec (.realign t p) s = .next (reported { a with time := { a.time with realign := some a.now } } p) :=
  (if_pos hp).trans (congrArg Host.Outcome.next (State.hostWrite_effect Command.TB_CMD (by rfl) (by rfl) h))

theorem exec_setSec (hp : isPort p = true) (h : takesWriteIn (s.at t) p .TB_CMD 0 2 a) :
    exec (.setSec t p) s = .next (reported (a.acceptSec (a.get .TB_SEC_SET_SEC) false) p) :=
  (if_pos hp).trans (congrArg Host.Outcome.next (State.hostWrite_effect Command.TB_CMD (by rfl) (by rfl) h))

theorem exec_sysrefBurst (hp : isPort p = true) (h : takesWriteIn (s.at t) p .TB_CMD 0 4 a) :
    exec (.sysrefBurst t p) s = .next (reported a.burstSysref p) :=
  (if_pos hp).trans (congrArg Host.Outcome.next (State.hostWrite_effect Command.TB_CMD (by rfl) (by rfl) h))

theorem exec_frameCommit (hp : isPort p = true) (h : takesWriteIn (s.at t) p .TB_FRAME_COMMIT 0 1 a) :
    exec (.frameCommit t p) s = .next (reported a.commitFrame p) :=
  (if_pos hp).trans (congrArg Host.Outcome.next (State.hostWrite_effect Command.TB_FRAME_COMMIT (by rfl) (by rfl) h))

/-! ## The leap second -/

theorem State.wordWith_leap {u : State} {sec dir : Nat} (hs : sec < 2 ^ 32) (hd : dir < 2) :
    u.wordWith .TB_LEAP 0 [(.TB_LEAP_SEC, sec), (.TB_LEAP_DIR, dir)] = sec + dir * 2 ^ 32 := by
  have e1 : Fld.TB_LEAP_SEC.place sec = sec * 2 ^ 0 := Fld.place_fits hs
  have e2 : Fld.TB_LEAP_DIR.place dir = dir * 2 ^ 32 := Fld.place_fits hd
  rw [State.wordWith_two u (by rfl) (by decide), e1, e2]
  omega

/-- R423: the two words of TB_LEAP announce the second and the direction that they hold. -/
theorem State.writeReg_leap {sec dir : Nat} (hf : a.Fits) (hs : sec < 2 ^ 32) (hd : dir < 2) :
    a.writeReg p .TB_LEAP 0 (sec + dir * 2 ^ 32) = a.announceLink sec dir := by
  have e1 : (sec + dir * 2 ^ 32) / 2 ^ 0 % 2 ^ 32 = sec := by omega
  have e2 : (sec + dir * 2 ^ 32) / 2 ^ 32 % 2 ^ 1 = dir := by omega
  have e : a.writeReg p .TB_LEAP 0 (sec + dir * 2 ^ 32) =
      State.announce ((a.put .TB_LEAP_SEC 0 ((sec + dir * 2 ^ 32) / 2 ^ 0 % 2 ^ 32)).put .TB_LEAP_DIR 0
        ((sec + dir * 2 ^ 32) / 2 ^ 32 % 2 ^ 1))
      (State.get ((a.put .TB_LEAP_SEC 0 ((sec + dir * 2 ^ 32) / 2 ^ 0 % 2 ^ 32)).put .TB_LEAP_DIR 0
        ((sec + dir * 2 ^ 32) / 2 ^ 32 % 2 ^ 1)) .TB_LEAP_SEC) := by rfl
  have hm : sec % 2 ^ Fld.TB_LEAP_SEC.desc.w = sec := Nat.mod_eq_of_lt hs
  rw [e, e1, e2, State.get_put_fits (State.fits_put hf _ _ _), if_neg (by decide), State.get_put_fits hf,
    if_pos ⟨rfl, rfl⟩, hm]
  rfl

theorem exec_leapAnnounce {sec dir : Nat} (hu : Sound s) (hp : isPort p = true) (hs : sec < 2 ^ 32) (hd : dir < 2)
    (h : takesPairIn (s.at t) p .TB_LEAP 0 (sec + dir * 2 ^ 32) a) :
    exec (.leapAnnounce t p sec dir) s = .next (reportedPair (a.announceLink sec dir) p) := by
  have hf : a.Fits := by
    obtain ⟨-, rfl⟩ := h
    exact State.fits_at (State.fits_of_sound hu) t
  have hw := State.hostWrite_pair (u := s.at t) PairCommand.TB_LEAP (State.wf_ports (s := s) hu)
    (State.wordWith_leap hs hd) (by omega) h
  rw [State.writeReg_leap hf hs hd] at hw
  exact (if_pos hp).trans (congrArg Host.Outcome.next hw)

end

section
variable {s : State}

theorem State.leapPassed_of_coming {sec : Nat} (h1 : sec ≤ s.time.leapSec)
    (h2 : ¬ (s.time.leapSec = 2 ^ 32 - 1 ∧ sec = 0)) : s.leapPassed sec = false := by
  have h3 : ¬ (s.time.leapSec = 0xFFFFFFFF ∧ sec = 0) := h2
  rw [State.leapPassed, ← Bool.decide_and, ← Bool.decide_or, decide_eq_false_iff_not]
  omega

/-- R60: an announced second that has not passed, or that comes before the time word runs, stays announced. -/
theorem State.announce_of_coming {sec : Nat}
    (h : s.time.valid = true → secOf s.tick ≤ sec ∧ ¬ (sec = 2 ^ 32 - 1 ∧ secOf s.tick = 0)) :
    s.announce sec = { s with time := { s.time with leap := true, leapSec := sec } } := by
  refine if_neg fun hx => ?_
  obtain ⟨hv, hl⟩ := Bool.and_eq_true_iff.mp hx
  obtain ⟨h1, h2⟩ := h hv
  have hn := State.leapPassed_of_coming (s := { s with time := { s.time with leap := true, leapSec := sec } }) h1 h2
  exact Bool.false_ne_true (hn.symm.trans hl)

/-! ## SEC, SYSREF and frames -/

theorem State.acceptSec_of_valid {v : Nat} {link : Bool} (hv : s.time.valid = true) :
    s.acceptSec v link = { s with time := { s.time with setSec := some (v, (s.tick / (tSec : Int) + 1) * tSec) } } := if_pos hv

/-- R59: before time valid a host's set of SEC goes before one that came from a link. -/
theorem State.acceptSec_of_invalid {v : Nat} (hv : s.time.valid = false) :
    s.acceptSec v false = { s with time := { s.time with timeSet := true, linkSec := none } } := if_neg (by simp [hv])

theorem State.burstSysref_of_mode (h : s.get .TB_SYSREF_MODE = 2) : s.burstSysref =
    { s with time := { s.time with burst := s.get .TB_SYSREF_COUNT, sysref := max s.time.sysref s.tick } } := if_pos h

/-- R113: in BOOT before time valid a commit applies at once. -/
theorem State.commitFrame_of_boot (hd : s.dev = .boot) (hv : s.time.valid = false) : s.commitFrame = s.applyFrameLen :=
  if_pos ⟨hd, hv⟩

theorem State.commitFrame_of_waits (h : ¬ (s.dev = .boot ∧ s.time.valid = false)) (hc : s.time.frameCom = none) :
    s.commitFrame = { s with time := { s.time with frameCom := some s.now } } := by
  simp only [State.commitFrame, if_neg h, hc, Option.isSome_none, Bool.false_eq_true, if_false]

end

/-- Settles O17. -/
theorem timeBaseHostCommandsTakeEffect : Obligations.TimeBaseHostCommandsTakeEffect := by
  intro s u a t p hu hp
  subst hu
  refine ⟨fun h => exec_realign hp h, fun h hv => ?_, fun h hv => ?_, fun sec dir y hs hsec hdir h hy hc => ?_, fun h hm => ?_,
    fun h hb hc => ?_, fun h hd hv => ?_⟩
  · rw [exec_setSec hp h, State.acceptSec_of_valid hv]
  · rw [exec_setSec hp h, State.acceptSec_of_invalid hv]
  · have hann : a.announceLink sec dir = y.announce sec := by rw [hy]; rfl
    have hcy : y.time.valid = true → secOf y.tick ≤ sec ∧ ¬ (sec = 2 ^ 32 - 1 ∧ secOf y.tick = 0) := by rw [hy]; exact hc
    rw [exec_leapAnnounce hs hp hsec hdir h, hann, State.announce_of_coming hcy]
  · rw [exec_sysrefBurst hp h, State.burstSysref_of_mode hm]
  · rw [exec_frameCommit hp h, State.commitFrame_of_waits hb hc]
  · rw [exec_frameCommit hp h, State.commitFrame_of_boot hd hv]

end Sys2Proof.Machine
end

section
/-!
The boundaries of the time word (R53, R60, R64, R65, R69, R191): seconds, frames, and the periods of SYSREF.
-/

namespace Sys2Proof.Machine

/-! ## Seconds -/

/-- R53, R60: second `n` is dealt with, and ends the announcement of a leap second that has passed. -/
def State.passSecond (s : State) (n : Int) : State :=
  { s with time := { s.time with second := n, leap := s.time.leap && !s.leapPassed (secOf (n * tSec)) } }

/-- R65: a frame length committed before an instant is applied, for the armed contexts from a time on. -/
def State.passFrameCom (s : State) (inst : Nat) (at_ : Int) : State :=
  match s.time.frameCom with
  | some x => if x < inst then s.applyFrameLen.armedContexts.foldl (fun s c => s.newFrameLen c at_) s.applyFrameLen else s
  | none => s

/-- R69: a pulse of PPS_OUT follows a second boundary. -/
def State.pulsePps (s : State) (at_ : Int) : State :=
  let rise := s.instOf (if 0 ≤ s.ppsOffset then at_ + s.ppsOffset else at_ + tSec + s.ppsOffset)
  { s with time := { s.time with pulses := (rise, rise + s.get .TB_PPS_OUT_WIDTH * 100 * qNs) :: s.time.pulses.take 1 } }

section
variable {s : State} {n at_ : Int} {inst x r : Nat}

theorem State.passFrameCom_of_none (h : s.time.frameCom = none) : s.passFrameCom inst at_ = s := by
  simp only [State.passFrameCom, h]

/-- R65: a commit at or after the boundary waits for the next one. -/
theorem State.passFrameCom_of_later (h : s.time.frameCom = some x) (hx : inst ≤ x) : s.passFrameCom inst at_ = s := by
  simp only [State.passFrameCom, h, if_neg (not_lt.mpr hx)]

theorem State.passFrameCom_of_earlier (h : s.time.frameCom = some x) (hx : x < inst) (hc : s.armedContexts = []) :
    s.passFrameCom inst at_ = s.applyFrameLen := by
  have hc' : s.applyFrameLen.armedContexts = [] := hc
  simp only [State.passFrameCom, h, if_pos hx, hc', List.foldl_nil]

/-- R69: a negative OFFSET counts from the next boundary. -/
theorem State.pulsePps_eq (hr : r = s.instOf (at_ + (if 0 ≤ s.ppsOffset then s.ppsOffset else tSec + s.ppsOffset))) :
    s.pulsePps at_ = { s with time := { s.time with
      pulses := (r, r + s.get .TB_PPS_OUT_WIDTH * 100 * qNs) :: s.time.pulses.take 1 } } := by
  rw [add_ite, ← add_assoc] at hr
  subst hr
  rfl

theorem State.applySec_of_none (h : s.time.setSec = none) : s.applySec = s := by
  simp only [State.applySec, h]

/-- The same as the model writes it: a leap second that has not passed leaves the announcement as it is. -/
theorem State.passSecond_eq_ite : s.passSecond n =
    if s.time.leap && s.leapPassed (secOf (n * tSec)) then
      ({ s with time := { s.time with second := n, leap := false } } : State)
    else { s with time := { s.time with second := n } } := by
  unfold State.passSecond
  by_cases h : (s.time.leap && s.leapPassed (secOf (n * tSec))) = true
  · have hl : (s.time.leap && !s.leapPassed (secOf (n * tSec))) = false := by
      rw [(Bool.and_eq_true_iff.mp h).2, Bool.not_true, Bool.and_false]
    rw [if_pos h, hl]
  · have hl : (s.time.leap && !s.leapPassed (secOf (n * tSec))) = s.time.leap := by
      revert h
      cases s.time.leap <;> simp
    rw [if_neg h, hl]

/-- R53, R60, R65, R69: what falls due at second `n`, in this order. -/
theorem State.secondDue_of_reached {z : State} (hn : n = s.tick / (tSec : Int)) (hv : s.time.valid = true)
    (hset : s.time.setSec = none) (hs : s.time.second < n)
    (hz : (s.passSecond n).passFrameCom (s.instOf (n * tSec)) (n * tSec) = z) (hh : z.time.halted = false) :
    s.secondDue = z.pulsePps (n * tSec) := by
  subst hz
  have hd : (s.time.valid && decide (s.time.second < n)) = true := by rw [hv, decide_eq_true hs]; rfl
  rw [State.passSecond_eq_ite] at hh ⊢
  have hset' : (if s.time.valid = true then s.applySec else s) = s := (if_pos hv).trans (State.applySec_of_none hset)
  simp only [State.secondDue, hset', ← hn]
  exact (if_pos hd).trans (if_neg (ne_true_of_eq_false hh))

end

/-! ## Frames and SYSREF -/

section
variable {s : State} {b : Int}

theorem State.frameDue_of_reached {inputs : List (Nat × Input × Nat)}
    (hb : b = s.tick / (s.frameTicks : Int) * s.frameTicks) (hv : s.time.valid = true) (hf : s.time.frame < b) :
    s.frameDue inputs = (((({ s with time := { s.time with frame := b } } : State).frameFronts (s.instOf b) inputs).frameWaves
      (s.instOf b)).frameLatches).frameContexts b := by
  simp only [State.frameDue, ← hb, hv, hf, decide_true, Bool.and_self, if_true]

/-- R69, R191: the pulse begins, and the loop-back records both edges of SYSREF_OUT_0. -/
theorem State.sysrefDue_of_next {y : State} {bin fallBin : Nat} (hb : s.sysrefNext (s.sysrefSkew 0) = some b)
    (hh : s.time.halted = false) (hy : y = { s with time := { s.time with
      sysref := b, burst := if s.get .TB_SYSREF_MODE = 2 then s.time.burst - 1 else s.time.burst
      sysPulse := some (s.instOf b) } }) :
    s.sysrefDue bin fallBin = State.alignSlots (if (s.src srcSysref).taking = true then
      (y.sysrefEdge (b + s.sysrefSkew 0) true bin).sysrefEdge (b + s.sysrefSkew 0 + tPer) false fallBin else y) := by
  subst hy
  simp only [State.sysrefDue, hb, hh, Bool.false_eq_true, if_false]
  rfl

theorem State.sysrefNext_of_reached {per skew : Int} (hp : per = (s.get .TB_SYSREF_PERIOD : Int) * tPer)
    (hb : b = (s.tick - skew) / per * per) (hv : s.time.valid = true) (h0 : 0 < per) (hs : s.time.sysref < b)
    (ha : s.time.validAt ≤ b) (hm : s.get .TB_SYSREF_MODE = 1 ∨ s.get .TB_SYSREF_MODE = 2 ∧ 0 < s.time.burst) :
    s.sysrefNext skew = some b := by
  have he : s.sysrefPeriod = per := (Nat.cast_mul _ _).trans hp.symm
  have hon : (s.get .TB_SYSREF_MODE == 1 || (s.get .TB_SYSREF_MODE == 2 && decide (0 < s.time.burst))) = true := by
    rcases hm with hm | ⟨hm, hq⟩
    · simp [hm]
    · simp [hm, hq]
  simp only [State.sysrefNext, he, ← hb, hv, h0, hon, hs, ha, decide_true, Bool.and_self, if_true]

end

/-- Settles O18. -/
theorem boundariesTakeEffect : Obligations.BoundariesTakeEffect := by
  intro s u t hu
  subst hu
  refine ⟨fun n y z r hn hv hset hh hs hy hz hr => ?_, fun inputs b hb hv hf => ?_, fun b bin fallBin y hb hh hy => ?_,
    fun per skew b hp hb hv h0 hs ha hm => State.sysrefNext_of_reached hp hb hv h0 hs ha hm⟩
  · replace hy : y = (s.at t).passSecond n := hy
    subst hy
    obtain ⟨hpass, hzh⟩ : ((s.at t).passSecond n).passFrameCom ((s.at t).instOf (n * tSec)) (n * tSec) = z ∧
        z.time.halted = false := by
      rcases hz with ⟨h, rfl⟩ | ⟨⟨x, h, hx⟩, rfl⟩ | ⟨⟨x, h, hx⟩, hc, rfl⟩
      · exact ⟨State.passFrameCom_of_none h, hh⟩
      · exact ⟨State.passFrameCom_of_later h hx, hh⟩
      · exact ⟨State.passFrameCom_of_earlier h hx hc, hh⟩
    have hdue := State.secondDue_of_reached hn hv hset hs hpass hzh
    rw [State.pulsePps_eq hr] at hdue
    exact congrArg Host.Outcome.next hdue
  · exact congrArg Host.Outcome.next (State.frameDue_of_reached hb hv hf)
  · exact congrArg Host.Outcome.next (State.sysrefDue_of_next hb hh hy)

end Sys2Proof.Machine
end

section
/-!
The events of a capture unit (R63, R256-R259, R262, R263, R301, R305), and the second edge that does not come to a verdict rule.
-/

namespace Sys2Proof.Machine

/-! ## Fill and READY -/

section
variable {s : State} {n : Nat}

theorem State.fillStart_of_due (ha : (s.acq n).armed = true) (h2 : (s.acq n).state = 2)
    (hb : (s.acq n).began = true ∨ s.startsHeld = false) (ht : s.hbm.trained = true)
    (hp : s.aqStores n = false ∨ s.nextPan n ≠ none) : s.fillStart n = s.fillNow n := by
  have hb' : ((s.acq n).began || !s.startsHeld) = true := by
    rcases hb with hb | hb <;> simp [hb]
  have hp' : (!s.aqStores n || (s.nextPan n).isSome) = true := by
    rcases hp with hp | hp
    · simp [hp]
    · simp [Option.isSome_iff_ne_none.mpr hp]
  exact if_pos (by simp only [ha, h2, hb', ht, hp', beq_self_eq_true, Bool.and_self])

/-- R257: READY follows the end of holdoff, and of PRE_WAIT where the unit stores. -/
theorem State.readyDue_of_filled (h3 : (s.acq n).state = 3) (hh : ∀ h, (s.acq n).holdEnd = some h → h ≤ s.tick)
    (hf : s.flag .AQ_CFG_PRE_WAIT n = false ∨ s.aqSrcs n = [] ∨ s.get .AQ_PRE_WORDS n ≤ (s.acq n).stored - (s.acq n).head) :
    s.readyDue n = s.setAcq n { s.acq n with state := 4, readyAt := s.now } := by
  have hpast : (match (s.acq n).holdEnd with
      | some h => decide (h ≤ s.tick)
      | none => true) = true := by
    cases e : (s.acq n).holdEnd with
    | none => rfl
    | some h => exact decide_eq_true (hh h e)
  have hfill : (!s.flag .AQ_CFG_PRE_WAIT n || decide (s.aqSrcs n = []) ||
      decide (s.get .AQ_PRE_WORDS n ≤ (s.acq n).stored - (s.acq n).head)) = true := by
    rcases hf with hf | hf | hf <;> simp [hf]
  refine if_pos ?_
  rw [h3, hfill]
  simp only [beq_self_eq_true, Bool.true_and, Bool.and_true]
  exact hpast

/-! ## Timeouts -/

theorem State.autoDue_of_due {x : Nat} (hx : x = (s.acq n).readyAt + s.get .AQ_AUTO_TIMEOUT n * 100 * qNs)
    (hh : s.time.halted = false) (h4 : (s.acq n).state = 4) (ht : (s.acq n).trig = none) (hm : s.get .AQ_CFG_MODE n = 2)
    (hd : x ≤ s.now) :
    s.autoDue n = (s.setAcq n { s.acq n with
      state := 5, trig := some {
        cause := 9, met := 0, time := s.ticksAt x, qual := s.qual, word := (s.acq n).stored, at_ := s.now, forced := false
        before := s.get .AQ_LAST_T_TIME n } }).put .AQ_LAST_T_TIME n (time64 (s.ticksAt x)) := by
  have hdue : !s.time.halted ∧ (s.acq n).state = 4 ∧ s.get .AQ_CFG_MODE n = 2 ∧
      (s.acq n).readyAt + s.get .AQ_AUTO_TIMEOUT n * 100 * qNs ≤ s.now := ⟨by simp [hh], h4, hm, hx ▸ hd⟩
  refine (if_pos hdue).trans ?_
  simp only [← hx, State.trigger, ht]

theorem State.condTimeout_of_due {k : Nat} {ta x : Int} {y z : State}
    (ha : (SMap.get (fun _ => {}) (s.acq n).conds k).a = some ta) (hx : x = ta + s.get .AQ_TRG_HI_VALUE (trgKey n k))
    (hh : s.time.halted = false) (harm : (s.acq n).armed = true) (hb : (s.acq n).began = true)
    (h3 : s.get .AQ_TRG_CTL_TYPE (trgKey n k) = 3) (hd : s.instOf x ≤ s.now)
    (hy : y = s.setAcq n { s.acq n with
      conds := SMap.set (fun _ => {}) (s.acq n).conds k { SMap.get (fun _ => {}) (s.acq n).conds k with a := none, bs := [] } })
    (hz : z = (if y.get .CRY_CFG_KIND n = 2 ∧ y.get .CRY_MAP_CFG_COND n = k then
      y.sweepRef n x (y.waveHist n (y.get .CRY_MAP_CFG_SRC n)) else y)) :
    s.condTimeout n k = z.condsMet n [(k, x)] := by
  have hdue : (!s.time.halted && (s.acq n).armed && (s.acq n).began && s.get .AQ_TRG_CTL_TYPE (trgKey n k) == 3 &&
      decide (s.instOf x ≤ s.now)) = true := by
    simp only [hh, harm, hb, h3, hd, Bool.not_false, beq_self_eq_true, decide_true, Bool.and_self]
  subst hz hy
  simp only [State.condTimeout, ha, ← hx]
  exact if_pos hdue

/-- R305: a rule without its second edge is out of range, or lost where its pair met a break. -/
theorem State.endInterval_of_due {v : Nat} {w x : Int} (hw : (s.rule v).window = some w) (hx : x = w + s.ruleHi v)
    (hh : s.time.halted = false) (he : s.flag .VD_CFG_ENABLE v = true) (h3 : s.get .VD_CFG_TYPE v = 3)
    (hd : s.instOf x ≤ s.now) :
    s.endInterval v = (s.setRule v { s.rule v with window := none, lost := false }).decide_ v
      (if (s.rule v).lost = true ∨ s.metBreak (s.get .VD_SRC_SRC v) w x = true ∨ s.metBreak (s.get .VD_SRC_SRC_B v) w x = true
        then vLost else vOutRange) 0 x := by
  simp only [State.endInterval, hw, ← hx, hh, he, h3, hd, Bool.not_false, beq_self_eq_true, decide_true, Bool.and_self, if_true]

/-! ## The close -/

theorem State.closeDue_of_caughtUp {v : Int × List Nat} (hh : s.time.halted = false) (h6 : (s.acq n).state = 6)
    (hv : (s.acq n).viol = some v) (hc : s.caughtUp n v.1 = true) : s.closeDue n = s.closeAcq n 6 none false := by
  simp only [State.closeDue, hh, h6, hv, hc, Bool.false_eq_true, if_false, if_true]

theorem State.closeDue_of_done (hh : s.time.halted = false) (h5 : (s.acq n).state = 5) (hc : s.captureDone n = true) :
    s.closeDue n = s.closeAcq n 1 none false := by
  simp only [State.closeDue, hh, h5, hc, Bool.false_eq_true, if_false, if_true]

/-! ## While the fabric stands -/

theorem State.autoDue_of_halted (hh : s.time.halted = true) : s.autoDue n = s := if_neg (by simp [hh])

theorem State.closeDue_of_halted (hh : s.time.halted = true) : s.closeDue n = s := if_pos hh

theorem State.condTimeout_of_halted {k : Nat} (hh : s.time.halted = true) : s.condTimeout n k = s := by
  cases ha : (SMap.get (fun _ => {}) (s.acq n).conds k).a with
  | none => simp only [State.condTimeout, ha]
  | some ta => simp only [State.condTimeout, ha, hh, Bool.not_true, Bool.false_and, Bool.false_eq_true, if_false]

theorem State.endInterval_of_halted {v : Nat} (hh : s.time.halted = true) : s.endInterval v = s := by
  cases hw : (s.rule v).window with
  | none => simp only [State.endInterval, hw]
  | some w => simp only [State.endInterval, hw, hh, Bool.not_true, Bool.false_and, Bool.false_eq_true, if_false]

end

/-! ## The commands -/

theorem exec_intervalTimeout_cond {s : State} {t n k : Nat} (hn : n < numUnits) (hk : k < 8) :
    exec (.intervalTimeout t n k) s = .next ((s.at t).condTimeout n k) := if_pos ⟨hn, hk⟩

/-- R305: unit 16 names the verdict rules. -/
theorem exec_intervalTimeout_rule {s : State} {t v : Nat} (hv : v < numRules) :
    exec (.intervalTimeout t numUnits v) s = .next ((s.at t).endInterval v) := by
  have hn : ¬ (numUnits < numUnits ∧ v < 8) := fun h => Nat.lt_irrefl _ h.1
  have he : exec (.intervalTimeout t numUnits v) s = execIntervalTimeout t numUnits v s := rfl
  rw [he, execIntervalTimeout, if_neg hn, if_pos ⟨rfl, hv⟩]

theorem exec_autoTimeout {s : State} {t n : Nat} (hn : n < numUnits) :
    exec (.autoTimeout t n) s = .next ((s.at t).autoDue n) := if_pos hn

theorem exec_captureClose {s : State} {t n : Nat} (hn : n < numUnits) :
    exec (.captureClose t n) s = .next ((s.at t).closeDue n) := if_pos hn

/-- Settles O31. -/
theorem captureEventsTakeEffect : Obligations.CaptureEventsTakeEffect := by
  intro s u t n c hu hn hc
  subst hu hc
  refine ⟨fun ha h2 hb ht hp => ?_, fun h3 hh hf => ?_, fun x hx hh h4 ht hm hd => ?_,
    fun k ta x y z hk ha hx hh harm hb h3 hd hy hz => ?_, fun v w x hv hw hx hh he h3 hd => ?_, fun v hh h6 hv hcu => ?_,
    fun hh h5 hd => ?_, fun hh => ⟨?_, ?_, fun k hk => ?_, fun v hv => ?_⟩⟩
  · exact (if_pos hn).trans (congrArg Host.Outcome.next (State.fillStart_of_due ha h2 hb ht hp))
  · exact (if_pos hn).trans (congrArg Host.Outcome.next (State.readyDue_of_filled h3 hh hf))
  · rw [exec_autoTimeout hn, State.autoDue_of_due hx hh h4 ht hm hd]
  · rw [exec_intervalTimeout_cond hn hk, State.condTimeout_of_due ha hx hh harm hb h3 hd hy hz]
  · rw [exec_intervalTimeout_rule hv, State.endInterval_of_due hw hx hh he h3 hd]
  · rw [exec_captureClose hn, State.closeDue_of_caughtUp hh h6 hv hcu]
  · rw [exec_captureClose hn, State.closeDue_of_done hh h5 hd]
  · rw [exec_autoTimeout hn, State.autoDue_of_halted hh]
  · rw [exec_captureClose hn, State.closeDue_of_halted hh]
  · rw [exec_intervalTimeout_cond hn hk, State.condTimeout_of_halted hh]
  · rw [exec_intervalTimeout_rule hv, State.endInterval_of_halted hh]

end Sys2Proof.Machine
end

section
/-!
The power commands of a host (R74, R84, R89, R99, R119): what each register write does, and with it what each command does.
-/

namespace Sys2Proof.Machine

section
variable {s a : State} {t p : Nat}

/-! ## The commands -/

theorem exec_fetRestart (hp : isPort p = true) (h : takesWriteIn (s.at t) p .HVS_CMD 0 2 a) :
    exec (.fetRestart t p) s = .next (reported a.restartFet p) :=
  (if_pos hp).trans (congrArg Host.Outcome.next (State.hostWrite_effect Command.HVS_CMD (by rfl) (by rfl) h))

theorem exec_peakClear (hp : isPort p = true) (h : takesWriteIn (s.at t) p .HVS_CMD 0 1 a) :
    exec (.peakClear t p) s = .next (reported (a.put .HVS_PEAK_MW 0 0) p) :=
  (if_pos hp).trans (congrArg Host.Outcome.next (State.hostWrite_effect Command.HVS_CMD (by rfl) (by rfl) h))

theorem exec_railRetry (hp : isPort p = true) (h : takesWriteIn (s.at t) p .PWR_CMD 0 1 a) :
    exec (.railRetry t p) s = .next (reported a.retryRails p) :=
  (if_pos hp).trans (congrArg Host.Outcome.next (State.hostWrite_effect Command.PWR_CMD (by rfl) (by rfl) h))

theorem exec_reboot (hp : isPort p = true) (h : takesWriteIn (s.at t) p .BOOT_CMD 0 1 a) :
    exec (.reboot t p) s = .next (reported a.reboot p) :=
  (if_pos hp).trans (congrArg Host.Outcome.next (State.hostWrite_effect Command.BOOT_CMD (by rfl) (by rfl) h))

/-- R407: a write of FLOOR writes HOLD_MS, the other field of the register, as it stands. -/
theorem State.wordWith_floor {u : State} {k v : Nat} (hv : v < 4) :
    u.wordWith .PWR_ISLAND k [(.PWR_ISLAND_FLOOR, v)] % 2 ^ 32 = v + u.get .PWR_ISLAND_HOLD_MS k % 65536 * 256 := by
  have e : u.wordWith .PWR_ISLAND k [(.PWR_ISLAND_FLOOR, v)] =
      v % 2 ^ 2 * 2 ^ 0 + (0 + (u.get .PWR_ISLAND_HOLD_MS k % 2 ^ 16 * 2 ^ 8 + 0)) := by rfl
  omega

theorem State.writeReg_floor (s : State) (p k : Nat) {v n : Nat} (hv : v < 4) :
    s.writeReg p .PWR_ISLAND k (v + n % 65536 * 256) = (s.put .PWR_ISLAND_HOLD_MS k n).setFloor k v := by
  have e : s.writeReg p .PWR_ISLAND k (v + n % 65536 * 256) =
      (s.put .PWR_ISLAND_HOLD_MS k ((v + n % 65536 * 256) / 2 ^ 8 % 2 ^ 16)).setFloor k
        ((v + n % 65536 * 256) / 2 ^ 0 % 2 ^ 2) := by rfl
  have eh : (v + n % 65536 * 256) / 2 ^ 8 % 2 ^ 16 = n % 2 ^ 16 := by omega
  have ef : (v + n % 65536 * 256) / 2 ^ 0 % 2 ^ 2 = v := by omega
  have em : s.put .PWR_ISLAND_HOLD_MS k (n % 2 ^ 16) = s.put .PWR_ISLAND_HOLD_MS k n := by
    have ew : Fld.PWR_ISLAND_HOLD_MS.desc.w = 16 := rfl
    simp only [State.put, ew, Nat.mod_mod]
  rw [e, eh, ef, em]

theorem exec_islandFloor {k v : Nat} (hp : isPort p = true) (hk : k < numIslands) (hv : v < 4)
    (h : takesWriteIn (s.at t) p .PWR_ISLAND k (v + s.get .PWR_ISLAND_HOLD_MS k % 65536 * 256) a) :
    exec (.islandFloor t p k v) s =
      .next (reported ((a.put .PWR_ISLAND_HOLD_MS k (s.get .PWR_ISLAND_HOLD_MS k)).setFloor k v) p) :=
  (if_pos ⟨hk, hp⟩).trans (congrArg Host.Outcome.next
    (State.hostWrite_effect (Command.PWR_ISLAND hk) (State.wordWith_floor hv) (State.writeReg_floor a p k hv) h))

end

/-! ## What they do -/

/-- R74, R75, R80: a restart works after a latch-off, with a valid VIN and the heartbeat present. -/
theorem State.restartFet_eq (s : State) :
    s.restartFet = if s.power.latched && s.vinValid && s.power.beat then
      { s with power := { s.power with fet := true, fetAt := s.now, fetOffAt := none, latched := false } } else s := by
  simp only [State.restartFet, State.fetStart]
  cases s.power.latched <;> simp

/-- BOOT begins at an instant; what the state held before does not matter. -/
theorem beganBoot_of_now {u v x : State} (h : BeganBoot v x) (hn : v.now = u.now) : BeganBoot u x :=
  { h with bootAt := h.bootAt.trans hn }

/-- R29, R119: a REBOOT leaves HOLD. -/
theorem State.reboot_of_hold {s : State} (h : s.dev = .hold) : BeganBoot s s.reboot := by
  rw [State.reboot, if_pos h]
  exact beganBoot_of_now State.enterBoot_began rfl

/-- R119: a REBOOT ends the lockout, and leaves AUX where VIN is valid and every sensor is cool. -/
theorem State.reboot_of_lockout {s : State} (hd : s.dev = .aux) (hl : s.get .BOOT_STATUS_LOCKOUT = 1) (hv : s.vinValid = true)
    (hc : s.allBelow 100 = true) : BeganBoot s s.reboot := by
  have hh : ¬ s.dev = .hold := by rw [hd]; decide
  have hf : s.dev = .aux ∧ s.flag .BOOT_STATUS_LOCKOUT = true := ⟨hd, by simp [State.flag, hl]⟩
  rw [State.reboot, if_neg hh, if_pos hf, State.rebootDue, if_pos ⟨hd, rfl, hv, hc⟩]
  exact beganBoot_of_now State.enterBoot_began rfl

/-- Settles O11: each command is its register write, with the effect of that register. -/
theorem powerHostCommandsTakeEffect : Obligations.PowerHostCommandsTakeEffect := by
  intro s u a t p k v hu hp
  subst hu
  refine ⟨fun h => ?_, fun h => exec_peakClear hp h, fun h => ?_, fun h hd => ?_, fun h hd hl hv hc => ?_,
    fun hk hv h => exec_islandFloor hp hk hv h⟩
  · rw [exec_fetRestart hp h, State.restartFet_eq, h.2]
    rfl
  · rw [exec_railRetry hp h, h.2]
    rfl
  · refine ⟨_, exec_reboot hp h, ?_⟩
    obtain ⟨-, rfl⟩ := h
    exact beganBoot_of_now (State.reboot_of_hold hd) rfl
  · refine ⟨_, exec_reboot hp h, ?_⟩
    obtain ⟨-, rfl⟩ := h
    exact beganBoot_of_now (State.reboot_of_lockout hd hl hv hc) rfl

end Sys2Proof.Machine
end

section
/-!
Telemetry and the rails (R72, R73, R75, R77, R80, R83, R84): what a frame shows, how BUS_EN and the rails come up, and what an alert
of a regulator leads to.
-/

namespace Sys2Proof.Machine

/-! ## Telemetry frames -/

/-- A step in which VIN may have become valid changes the instant of that alone. -/
theorem State.noteValid_frame (was s : State) :
    ∃ v, State.noteValid was s = { s with power := { s.power with vinAt := v } } := by
  unfold State.noteValid
  split <;> exact ⟨_, rfl⟩

/-- R72, R73, R77: the state once the content of a telemetry frame has been taken, before the registers show it. -/
def State.takeFrame (s : State) (mv ma : Nat) (beat : Bool) : State :=
  State.noteValid s { s.addEnergy (mv * ma) with power := { (s.addEnergy (mv * ma)).power with
    watts := (mv * ma :: s.power.watts).take 10, frameAt := some s.now, beat := beat
    above := s.power.above && decide (76000 ≤ mv), under := decide (mv ≤ 34000) } }

/-- R77: the registers show a telemetry frame that has been taken. -/
def State.showFrame (s : State) (mv ma : Nat) (limiting : Bool) : State :=
  let s := ((s.put .HVS_VIN_MV 0 mv).put .HVS_IIN_MA 0 ma).put .HVS_PIN_MW 0 s.power.meanMw
  let s := s.put .HVS_PEAK_MW 0 (max (s.get .HVS_PEAK_MW) (s.get .HVS_PIN_MW))
  s.put .HVS_STATUS_LIMITING 0 (b2n limiting)

theorem State.showFrame_power (s : State) (mv ma : Nat) (limiting : Bool) : (s.showFrame mv ma limiting).power = s.power := by
  simp only [State.showFrame, State.put_power]

theorem State.showFrame_linkOk (s : State) (mv ma : Nat) (limiting : Bool) : (s.showFrame mv ma limiting).linkOk = s.linkOk := by
  have hn : (s.showFrame mv ma limiting).now = s.now := by simp only [State.showFrame, State.put_now]
  simp only [State.linkOk, State.showFrame_power, hn]

theorem State.takeFrame_frame (s : State) (mv ma : Nat) (beat : Bool) :
    ∃ v, s.takeFrame mv ma beat = { s.addEnergy (mv * ma) with power := { (s.addEnergy (mv * ma)).power with
      watts := (mv * ma :: s.power.watts).take 10, frameAt := some s.now, beat := beat
      above := s.power.above && decide (76000 ≤ mv), under := decide (mv ≤ 34000), vinAt := v } } :=
  State.noteValid_frame _ _

/-- R77: of the registers a frame that is taken changes the energy. -/
theorem State.takeFrame_regs (s : State) (mv ma : Nat) (beat : Bool) :
    (s.takeFrame mv ma beat).regs = (s.addEnergy (mv * ma)).regs := by
  obtain ⟨v, e⟩ := s.takeFrame_frame mv ma beat
  rw [e]

theorem State.telemetry_of_powered {s : State} {mv ma : Nat} {limiting beat : Bool} (hv : s.power.vin = true) (hd : s.dev ≠ .off) :
    s.telemetry mv ma limiting beat = (s.takeFrame mv ma beat).showFrame mv ma limiting := by
  have hy : (s.takeFrame mv ma beat).dev ≠ .off := by
    obtain ⟨v, e⟩ := s.takeFrame_frame mv ma beat
    rw [e]
    exact hd
  have e : s.telemetry mv ma limiting beat =
      if (s.takeFrame mv ma beat).dev = .off then s.takeFrame mv ma beat
      else (s.takeFrame mv ma beat).showFrame mv ma limiting := if_neg (by simp [hv])
  rw [e, if_neg hy]

/-- R77: the energy of a frame reaches HVS_ENERGY in whole mJ. -/
theorem State.addEnergy_energy {s : State} (h : s.Fits) (uw : Nat) :
    (s.addEnergy uw).get .HVS_ENERGY_MJ = min (s.get .HVS_ENERGY_MJ + (s.power.energy + uw) / 10000000) (2 ^ 64 - 1) := by
  have hw : Fld.HVS_ENERGY_MJ.desc.w = 64 := rfl
  have e := State.get_put_same (s := { s with power := { s.power with energy := (s.power.energy + uw) % 10000000 } }) h
    .HVS_ENERGY_MJ 0 (min (s.get .HVS_ENERGY_MJ + (s.power.energy + uw) / 10000000) (2 ^ 64 - 1))
  rw [hw, Nat.mod_eq_of_lt (Nat.lt_of_le_of_lt (Nat.min_le_right _ _) (by decide))] at e
  exact e

/-- Of the registers the energy alone changes. -/
theorem State.addEnergy_get {s : State} (h : s.Fits) (uw : Nat) {f : Fld} (hf : f ≠ .HVS_ENERGY_MJ) :
    (s.addEnergy uw).get f = s.get f :=
  (State.get_put_fits (s := { s with power := { s.power with energy := (s.power.energy + uw) % 10000000 } }) h
    .HVS_ENERGY_MJ f 0 0 _).trans (if_neg fun e => hf e.1)

theorem State.addEnergy_fits {s : State} (h : s.Fits) (uw : Nat) : (s.addEnergy uw).Fits :=
  State.fits_put (s := { s with power := { s.power with energy := (s.power.energy + uw) % 10000000 } }) h _ _ _

/-- What the registers show of a frame. -/
theorem State.showFrame_get {s : State} (h : s.Fits) (mv ma : Nat) (limiting : Bool) :
    (s.showFrame mv ma limiting).get .HVS_VIN_MV = mv % 2 ^ 17 ∧
    (s.showFrame mv ma limiting).get .HVS_IIN_MA = ma % 2 ^ 13 ∧
    (s.showFrame mv ma limiting).get .HVS_PIN_MW = s.power.meanMw % 2 ^ 20 ∧
    (s.showFrame mv ma limiting).get .HVS_PEAK_MW = max (s.get .HVS_PEAK_MW) (s.power.meanMw % 2 ^ 20) ∧
    (s.showFrame mv ma limiting).get .HVS_ENERGY_MJ = s.get .HVS_ENERGY_MJ ∧
    (s.showFrame mv ma limiting).get .HVS_STATUS_LIMITING = b2n limiting := by
  have hp : s.get .HVS_PEAK_MW < 2 ^ 20 := State.get_lt h .HVS_PEAK_MW 0
  have hm : max (s.get .HVS_PEAK_MW) (s.power.meanMw % 2 ^ 20) < 2 ^ 20 :=
    Nat.max_lt.mpr ⟨hp, Nat.mod_lt _ (Nat.two_pow_pos _)⟩
  have hb : b2n limiting % 2 ^ 1 = b2n limiting := by cases limiting <;> rfl
  have w1 : Fld.HVS_VIN_MV.desc.w = 17 := rfl
  have w2 : Fld.HVS_IIN_MA.desc.w = 13 := rfl
  have w3 : Fld.HVS_PIN_MW.desc.w = 20 := rfl
  have w4 : Fld.HVS_PEAK_MW.desc.w = 20 := rfl
  have w5 : Fld.HVS_STATUS_LIMITING.desc.w = 1 := rfl
  have h1 := State.fits_put h .HVS_VIN_MV 0 mv
  have h2 := State.fits_put h1 .HVS_IIN_MA 0 ma
  have h3 := State.fits_put h2 .HVS_PIN_MW 0 s.power.meanMw
  simp only [State.showFrame, State.get_put_fits (State.fits_put h3 ..), State.get_put_fits h3, State.get_put_fits h2,
    State.get_put_fits h1, State.get_put_fits h, w1, w2, w3, w4, w5, reduceCtorEq, false_and, and_self, if_false, if_true, hb,
    Nat.mod_eq_of_lt hm]

theorem State.takeFrame_fits {s : State} (h : s.Fits) (mv ma : Nat) (beat : Bool) : (s.takeFrame mv ma beat).Fits := by
  rw [State.Fits, State.takeFrame_regs]
  exact State.addEnergy_fits h (mv * ma)

/-- R77, R99: what a frame leaves of the power controls. -/
theorem State.takeFrame_power (s : State) (mv ma : Nat) (beat : Bool) :
    (s.takeFrame mv ma beat).power.energy = (s.power.energy + mv * ma) % 10000000 ∧
    (s.takeFrame mv ma beat).power.watts = (mv * ma :: s.power.watts).take 10 ∧ (s.takeFrame mv ma beat).power.beat = beat ∧
    (s.takeFrame mv ma beat).linkOk = true ∧ (s.takeFrame mv ma beat).power.reboot = s.power.reboot ∧
    (mv < 76000 → (s.takeFrame mv ma beat).power.above = false) := by
  obtain ⟨v, e⟩ := s.takeFrame_frame mv ma beat
  rw [e]
  refine ⟨rfl, rfl, rfl, decide_eq_true (Nat.le_add_right _ _), rfl, fun h => ?_⟩
  simp [h]

theorem State.rebootDue_of_none {s : State} (h : s.power.reboot = false) : s.rebootDue = s :=
  if_neg (by simp [h])

/-- R72, R77, R80: what a telemetry frame does to a powered device. -/
theorem exec_telemetryFrame {s : State} {t mv ma : Nat} {limiting beat : Bool} (hv : s.power.vin = true) (hd : s.dev ≠ .off)
    (hr : s.power.reboot = false) :
    exec (.telemetryFrame t mv ma limiting beat) s = .next (((s.at t).takeFrame mv ma beat).showFrame mv ma limiting) := by
  obtain ⟨-, -, -, -, hr', -⟩ := (s.at t).takeFrame_power mv ma beat
  refine congrArg Host.Outcome.next ?_
  rw [State.telemetry_of_powered (s := s.at t) hv hd]
  exact State.rebootDue_of_none (by rw [State.showFrame_power, hr', State.at_power, hr])

/-! ## The sequence of the rails -/

theorem State.assertBus_of_due {s : State} {mv : Nat} (hd : s.dev = .boot) (hf : s.power.fet = true) (hb : s.power.bus = false)
    (h0 : s.power.t0 + 70 * qMs ≤ s.now) (ho : s.out95 mv ≤ s.now) :
    s.assertBus mv = { s with power := { s.power with
      bus := true
      seq := if s.power.seq.isEmpty then (List.range 10).map fun j => (j, s.now + (j + 1) * 10 * qMs) else s.power.seq } } :=
  if_pos ⟨hd, hf, hb, h0, ho⟩

theorem State.programRail_frame (s : State) (j : Nat) :
    ∃ r, s.programRail j = { s with power := { s.power with pmb := r } } := by
  unfold State.programRail
  split <;> exact ⟨_, rfl⟩

/-- R83, R114: the state before a rail is enabled: the first rail applies the RAILS section. -/
def State.railsApplied (s : State) : State :=
  if s.dev = .boot ∧ s.power.enabled = [] then s.bump .BOOT_STATUS_APPLIED else s

/-- R83: a rail is switched on, and is not good yet. -/
def State.switchOn (s : State) (j : Nat) : State :=
  { s with power := { s.power with
    seq := s.power.seq.filter fun x => x.1 != j
    enabled := if s.power.enabled.contains j then s.power.enabled else s.power.enabled ++ [j]
    good := s.power.good.filter fun x => x != j
    enabledAt := s.power.enabledAt.set j s.now } }

/-- R83, R84: no fault of a rail is recorded, and its power-good is low. -/
def State.clearRail (s : State) (j : Nat) : State :=
  let s := (s.put .PWR_RAIL_FAULT j 0).put .PWR_RAIL_PG j 0
  { s with gov := { s.gov with railBad := s.gov.railBad.set j 0 } }

theorem State.enableRail_of_due {s : State} {j d : Nat}
    (hj : s.power.seq.find? (fun x => decide (x.2 ≤ s.now)) = some (j, d)) (hb : s.busOn = true)
    (hr : s.dev = .boot → s.boot.rails ≠ []) :
    s.enableRail = (((s.railsApplied.switchOn j).programRail j).clearRail j).settleTrips := by
  have hn : ¬ (s.busOn = false ∨ (s.dev = .boot ∧ s.boot.rails = [])) := by
    rintro (h | ⟨hd, h⟩)
    · rw [hb] at h; cases h
    · exact hr hd h
  simp only [State.enableRail, hj, if_neg hn]
  rfl

theorem State.railsApplied_frame (s : State) (h : s.Fits) : s.railsApplied.Fits ∧ s.railsApplied.power = s.power := by
  unfold State.railsApplied
  split
  · exact ⟨State.fits_put h _ _ _, rfl⟩
  · exact ⟨h, rfl⟩

theorem State.switchOn_enables (s : State) (j : Nat) : j ∈ (s.switchOn j).power.enabled := by
  by_cases h : j ∈ s.power.enabled
  · simp [State.switchOn, h]
  · simp [State.switchOn, h]

theorem State.clearRail_get {s : State} (h : s.Fits) (j : Nat) :
    (s.clearRail j).get .PWR_RAIL_FAULT j = 0 ∧ (s.clearRail j).get .PWR_RAIL_PG j = 0 := by
  have hf := State.fits_put h .PWR_RAIL_FAULT j 0
  have e : (s.clearRail j).regs = ((s.put .PWR_RAIL_FAULT j 0).put .PWR_RAIL_PG j 0).regs := by simp only [State.clearRail]
  refine ⟨?_, ?_⟩
  · rw [State.get_congr e, State.get_put_fits hf, if_neg (fun e => nomatch e.1), State.get_put_same h, Nat.zero_mod]
  · rw [State.get_congr e, State.get_put_same hf, Nat.zero_mod]

/-- R83: what RAIL_ENABLE leaves of the sequence and of the rail. -/
theorem State.programRail_clearRail {s : State} (h : s.Fits) (j : Nat) :
    (((s.switchOn j).programRail j).clearRail j).power.seq = s.power.seq.filter (fun y => y.1 != j) ∧
      j ∈ (((s.switchOn j).programRail j).clearRail j).power.enabled ∧
      (((s.switchOn j).programRail j).clearRail j).get .PWR_RAIL_FAULT j = 0 ∧
      (((s.switchOn j).programRail j).clearRail j).get .PWR_RAIL_PG j = 0 := by
  obtain ⟨r, e⟩ := (s.switchOn j).programRail_frame j
  rw [e]
  exact ⟨rfl, s.switchOn_enables j, State.clearRail_get (s := { s.switchOn j with power := _ }) h j⟩

/-! ## Alerts of the regulators -/

theorem State.alertRail_of_silent {s : State} {j : Nat} {x : PmbReply × PmbReply} (hw : s.railWatched j = true)
    (h : s.pmbAnswer j x = none) : s.alertRail j x = s.railFault j 5 := by
  simp only [State.alertRail, h, hw, if_true]

/-- R84: an answer after an alert is noted; a cause that STATUS_WORD reports is a fault of the rail. -/
theorem State.alertRail_of_answer {s : State} {j : Nat} {x : PmbReply × PmbReply} {r : PmbReply} (hw : s.railWatched j = true)
    (h : s.pmbAnswer j x = some r) :
    s.alertRail j x = if statusCause r.status = 0 then s.notePmb j r else (s.notePmb j r).railFault j (statusCause r.status) := by
  have hw' : (s.notePmb j r).railWatched j = true := hw
  simp only [State.alertRail, h, hw', Bool.true_and]
  by_cases hc : statusCause r.status = 0 <;> simp [hc]

/-- R84: what is recorded of a rail in fault, before what the fault leads to. -/
def State.recordFault (s : State) (j cause : Nat) : State :=
  let s := ((s.raise .PWR_EVENT_RAIL_FAULT).put .PWR_RAIL_FAULT j cause).put .PWR_RAIL_PG j 0
  { s with power := { s.power with good := s.power.good.filter fun x => x != j } }

theorem State.recordFault_dev (s : State) (j cause : Nat) : (s.recordFault j cause).dev = s.dev := by
  simp only [State.recordFault, State.put_dev, State.raise_dev]

theorem State.recordFault_now (s : State) (j cause : Nat) : (s.recordFault j cause).now = s.now := by
  simp only [State.recordFault, State.put_now, State.raise_now]

/-- R84, R119: a rail that fails in BOOT ends the boot. -/
theorem State.railFault_of_boot {s : State} (h : s.dev = .boot) (j cause : Nat) : (s.railFault j cause).dev = .hold := by
  have hd : (s.recordFault j cause).dev = .boot := by rw [State.recordFault_dev, h]
  have e : s.railFault j cause = ((s.recordFault j cause).ledger kEvent evRail j).failBoot 8
      (s.recordFault j cause).boot.section_ (s.recordFault j cause).boot.entry := if_pos hd
  rw [e]
  exact (State.failBoot_held ..).1

/-- R84, R86: after BOOT a fault of a core rail is a protective entry with the ordered power-down. -/
theorem State.railFault_of_core {s : State} {j : Nat} (h : s.dev ≠ .boot) (hj : j ≤ 1) (cause : Nat) :
    (s.railFault j cause).dev = .aux ∧ (s.railFault j cause).power.downAt = some s.now ∧
      (s.railFault j cause).power.protect = true := by
  have hd : ¬ (s.recordFault j cause).dev = .boot := by rw [State.recordFault_dev]; exact h
  have e : s.railFault j cause = (s.recordFault j cause).protect true evRail j := (if_neg hd).trans (if_pos hj)
  rw [e, ← s.recordFault_now j cause]
  exact State.protect_ordered ..

/-- Settles O12: a frame is taken and shown, a rail is switched on, and an alert is answered or not. -/
theorem railsAndTelemetryTakeEffect : Obligations.RailsAndTelemetryTakeEffect := by
  intro s t hs
  have hu : (s.at t).Fits := State.fits_at (State.fits_of_sound hs) t
  refine ⟨fun mv ma limiting beat hv hd hr => ?_, fun mv hd hf hb h0 ho => ?_, fun j d hj hb hr => ?_,
    fun j first second hj hw => ⟨fun h => ?_, fun r h => ⟨fun hc => ?_, fun hc => ?_⟩, fun hd => ?_, fun hd hj1 => ?_⟩⟩
  · obtain ⟨he, hwatts, hbeat, hl, -, habove⟩ := (s.at t).takeFrame_power mv ma beat
    have hget := State.get_congr ((s.at t).takeFrame_regs mv ma beat)
    obtain ⟨h1, h2, h3, h4, h5, h6⟩ := State.showFrame_get (State.takeFrame_fits hu mv ma beat) mv ma limiting
    rw [Power.meanMw, hwatts, State.at_power] at h3 h4
    rw [hget, State.addEnergy_get hu _ (by decide), State.get_at] at h4
    rw [hget, State.addEnergy_energy hu, State.get_at, State.at_power] at h5
    rw [State.at_power] at he
    refine ⟨_, exec_telemetryFrame hv hd hr, h1, h2, h3, h4, h5, ?_⟩
    rw [State.showFrame_power, State.showFrame_linkOk]
    exact ⟨he, h6, hbeat, hl, habove⟩
  · exact congrArg Host.Outcome.next (State.assertBus_of_due (s := s.at t) hd hf hb h0 ho)
  · obtain ⟨hfit, hp⟩ := (s.at t).railsApplied_frame hu
    obtain ⟨hseq, hen, hfault, hpg⟩ := State.programRail_clearRail hfit j
    rw [hp, State.at_power] at hseq
    exact ⟨_, congrArg Host.Outcome.next (State.enableRail_of_due (s := s.at t) hj hb hr), hseq, hen, hfault, hpg⟩
  · exact (if_pos hj).trans (congrArg Host.Outcome.next (State.alertRail_of_silent hw h))
  · exact (if_pos hj).trans (congrArg Host.Outcome.next ((State.alertRail_of_answer hw h).trans (if_neg hc)))
  · exact (if_pos hj).trans (congrArg Host.Outcome.next ((State.alertRail_of_answer hw h).trans (if_pos hc)))
  · exact State.railFault_of_boot (s := s.at t) hd j 5
  · exact State.railFault_of_core (s := s.at t) hd hj1 5

end Sys2Proof.Machine
end

section
/-!
The tick of the governor (R91, R95, R96): which course it takes outside the logic states, after a hot sensor, and otherwise.
-/

namespace Sys2Proof.Machine

/-! ## The sensors -/

/-- R96: a valid sensor at 120 °C shows in the tick, whichever of them comes first. -/
theorem State.overheated_of_hot {s : State} {i : Nat} (hi : i < 24) (hv : s.gov.valid.getD i false = true)
    (ht : 960 ≤ s.gov.temps.getD i 0) : ∃ j, s.overheated = (some j, s) := by
  have hany : s.gov.valid.any id = true := by
    rw [List.getD_eq_getElem?_getD] at hv
    cases e : s.gov.valid[i]? with
    | none => simp [e] at hv
    | some b => exact List.any_eq_true.mpr ⟨b, List.mem_of_getElem? e, by simpa [e] using hv⟩
  have hfind : ((List.range 24).find? fun j => s.gov.valid.getD j false && decide (960 ≤ s.gov.temps.getD j 0)).isSome = true :=
    List.find?_isSome.mpr ⟨i, List.mem_range.mpr hi, by rw [hv, decide_eq_true ht]; rfl⟩
  obtain ⟨j, hj⟩ := Option.isSome_iff_exists.mp hfind
  exact ⟨j, by rw [State.overheated, if_pos hany, hj]⟩

/-- R96: a tick in which no sensor is hot draws no free value. -/
theorem State.overheated_none {s w : State} (h : s.overheated = (none, w)) : w = s := by
  unfold State.overheated at h
  split at h
  · exact (congrArg Prod.snd h).symm
  · cases h

theorem State.noteCool_down {s : State} (h : WentDown s) : WentDown s.noteCool :=
  ⟨h.dev, h.fet, h.bus, h.enabled, h.mem, h.chans, h.time⟩

/-! ## The course of the tick -/

section
variable {s : State} {temps : List Int} {rails : List (PmbReply × PmbReply)}

theorem State.logicState_of_governs (h : s.governs = true) : s.logicState = true := by
  unfold State.governs at h
  unfold State.logicState
  split at h <;> simp_all

theorem State.governs_congr {x : State} (h : x.dev = s.dev) : x.governs = s.governs := by
  simp only [State.governs, h]

theorem State.governorTick_of_off (h : s.dev = .off) : s.governorTick temps rails = s := if_pos h

/-- R91, R96: the tick outside the logic states. -/
theorem State.governorTick_of_aux (h : s.dev = .aux) (hu : (s.senseTick temps).dev = .aux) :
    s.governorTick temps rails = (s.senseTick temps).heatTick.noteCool.rebootDue := by
  have hl : (s.senseTick temps).logicState = false := by simp [State.logicState, hu]
  have hg : (s.senseTick temps).heatTick.governs = false := by
    simp [State.governs, (State.heatTick_sameDev (SameDev.refl (s.senseTick temps))).1, hu]
  have hd : s.dev ≠ .off := by rw [h]; decide
  simp only [State.governorTick, if_neg hd, hl, hg, Bool.false_eq_true, if_false]

/-- R96: the shutdown ends the tick. -/
theorem State.governorTick_of_hot {j : Nat} (h : s.dev ≠ .off) (hl : (s.senseTick temps).logicState = true)
    (ho : (s.senseTick temps).overheated = (some j, s.senseTick temps)) :
    s.governorTick temps rails = ((s.senseTick temps).thermalDown j).noteCool := by
  simp only [State.governorTick, if_neg h, hl, ho, if_true]

/-- R91: the tick of a device under the governor, with no shutdown. -/
theorem State.governorTick_of_cool {w : State} (h : s.dev ≠ .off) (hg : (s.senseTick temps).governs = true)
    (ho : (s.senseTick temps).overheated = (none, w)) :
    s.governorTick temps rails = (w.heatTick.logicTick rails).noteCool.rebootDue := by
  have hw : w.heatTick.governs = true := by
    rw [State.governs_congr (State.heatTick_sameDev (SameDev.refl w)).1, State.overheated_none ho, hg]
  simp only [State.governorTick, if_neg h, State.logicState_of_governs hg, ho, hw, if_true]

end

/-- Settles O13: the readings leave the state of the device as it is, which with the sensors decides the course of the tick. -/
theorem governorTickTakesEffect : Obligations.GovernorTickTakesEffect := by
  intro s t temps rails u
  refine ⟨fun hd => ?_, fun hd => ?_, fun i hi hg hb hv hlo hhi => ?_, fun w hg hb ho => ?_⟩
  · exact congrArg Host.Outcome.next (State.governorTick_of_off (s := s.at t) hd)
  · have hboot : (s.at t).dev = .boot → (s.at t).boot.clocks = none ∧ (s.at t).boot.cost = none := fun h => by
      rw [State.at_dev, hd] at h; cases h
    obtain ⟨hdev, -, htemps, hread⟩ := State.senseTick_gov (s.at t) temps hboot
    have hu : u.dev = .aux := hdev.trans hd
    exact ⟨congrArg Host.Outcome.next (State.governorTick_of_aux (s := s.at t) hd hu), hu, htemps, hread⟩
  · obtain ⟨hdev, -, -, hread⟩ := State.senseTick_gov (s.at t) temps hb
    obtain ⟨hvalid, htemp⟩ := hread i hi hv (by omega) hhi
    have hl : u.logicState = true := State.logicState_of_governs ((State.governs_congr hdev).trans hg)
    obtain ⟨j, hj⟩ := State.overheated_of_hot hi hvalid (by rw [htemp]; exact hlo)
    obtain ⟨hdown, hthermal, -⟩ := State.thermalDown_down j hl
    have hoff : (s.at t).dev ≠ .off := State.logicState_ne_off (State.logicState_of_governs hg)
    exact ⟨_, congrArg Host.Outcome.next (State.governorTick_of_hot (s := s.at t) hoff hl hj),
      State.noteCool_down hdown, hthermal⟩
  · obtain ⟨hdev, -, -, -⟩ := State.senseTick_gov (s.at t) temps hb
    have hoff : (s.at t).dev ≠ .off := State.logicState_ne_off (State.logicState_of_governs hg)
    exact congrArg Host.Outcome.next (State.governorTick_of_cool (s := s.at t) hoff ((State.governs_congr hdev).trans hg) ho)

end Sys2Proof.Machine
end

section
/-!
CRC-32C (R105): one bit of the reflected division, a byte as eight bits, and the check value of the standard.
-/

namespace Sys2Proof.Machine

/-- The polynomial of `crcBit` is the Castagnoli polynomial read from the other end. -/
theorem castagnoli_reflected (i : Nat) (hi : i < 32) : bit 0x82F63B78 i = bit 0x1EDC6F41 (31 - i) := by
  revert i; decide

theorem crcBit_even (c : Nat) : crcBit (2 * c) = c := by
  rw [crcBit, if_neg (by omega), Nat.mul_div_cancel_left c (by decide)]

theorem crcBit_odd (c : Nat) : crcBit (2 * c + 1) = c ^^^ 0x82F63B78 := by
  have hdiv : (2 * c + 1) / 2 = c := by omega
  rw [crcBit, if_pos (by omega), hdiv]

/-- A byte is added to the lowest eight bits, which then leave one at a time. -/
theorem crcByte_eq_times (c b : Nat) : crcByte c b = times crcBit 8 (c ^^^ (b % 256)) := by
  simp only [crcByte, times]

/-- R105: the CRC-32C of the ASCII bytes "123456789". -/
theorem crc32c_checkValue : crc32c [0x31, 0x32, 0x33, 0x34, 0x35, 0x36, 0x37, 0x38, 0x39] = 0xE3069283 := by
  decide +kernel

/-- Settles O60. -/
theorem crcIsCastagnoli : Obligations.CrcIsCastagnoli :=
  ⟨castagnoli_reflected, fun c => ⟨crcBit_even c, crcBit_odd c⟩, crcByte_eq_times, fun _ => rfl, crc32c_checkValue⟩

end Sys2Proof.Machine
end

section
/-!
The entries of the image in pass 2 (R109, R111-R113): what the entry that is due does, by its OP, and what a list block does.
-/

namespace Sys2Proof.Machine

/-- Pass 2 waits for nothing of CLOCKS_TIME once that section has been applied. -/
theorem State.pumpClocks_of_applied {s : State} (h : s.boot.clocks = none) : s.pumpClocks = s := by
  simp only [State.pumpClocks, h]

section
variable {s x y : State} {typ op : Nat} {e : RegEntry} {run : State → RegEntry → Bool × State}

/-! ## The entry that is due -/

theorem State.dueEntry_dev (h : s.dueEntry = some (typ, e)) : s.dev = .boot := by
  by_contra hd
  simp [State.dueEntry, State.dueSection, hd] at h

/-- R109, R111: an entry of a wrong form or outside the section's blocks fails the section, whatever its OP. -/
theorem State.takeEntry_of_bad (h : s.dueEntry = some (typ, e)) (hb : badEntry typ e = true) :
    s.takeEntry op run = s.failSection := by
  simp only [State.takeEntry, h, if_pos hb]

/-- What an entry does whose OP is carried out, by the answer. -/
theorem State.takeEntry_of_ran {bad : Bool} (h : s.dueEntry = some (typ, e)) (hb : badEntry typ e = false) (ho : e.op = op)
    (hr : run s e = (bad, x)) (hd : x.dev = .boot) :
    s.takeEntry op run = if bad then x.failSection else (x.keepItem typ (.reg e)).nextEntry typ 16 := by
  simp only [State.takeEntry, h, hb, ho, hr, hd, Bool.false_eq_true, if_false, ne_eq, not_true_eq_false]

theorem State.applyEntry_write {r : Reply} (ho : e.op = 0) (hw : s.writeAccess 2 e.addr e.value = (r, x)) :
    s.applyEntry e = (r.err != 0, x) := by
  simp only [State.applyEntry, ho, State.entryWrite, hw]

theorem State.applyEntry_modify {r w : Reply} (ho : e.op = 1) (hr : s.readAccess 2 e.addr 4 = (r, x)) (hz : r.err = 0)
    (hw : x.writeAccess 2 e.addr ((r.data - (r.data &&& e.mask)) ||| (e.value &&& e.mask)) = (w, y)) :
    s.applyEntry e = (w.err != 0, y) := by
  simp only [State.applyEntry, ho, State.entryModify, State.entryWrite, hr, hz, hw, ne_eq, not_true_eq_false, if_false]

/-- R111: a DELAY ends at once, and what follows it waits. -/
theorem State.delayEntry_of_due (h : s.dueEntry = some (typ, e)) (hb : badEntry typ e = false) (ho : e.op = 3)
    (hx : x = { s with boot := { s.boot with wait := s.now + e.timeout * qUs } }) :
    s.delayEntry = (x.keepItem typ (.reg e)).nextEntry typ 16 := by
  have hs : s.dev = .boot := State.dueEntry_dev h
  have hd : x.dev = .boot := by rw [hx]; exact hs
  exact State.takeEntry_of_ran (bad := false) h hb ho (by rw [hx]) hd

/-! ## POLL -/

theorem State.pollEntry_of_bad (h : s.dueEntry = some (typ, e)) (hb : badEntry typ e = true) :
    s.pollEntry = s.failSection := by
  simp only [State.pollEntry, h, if_pos hb]

/-- R111: one read of a POLL that began at `start`: it fails, ends with a match, or goes on. -/
theorem State.pollEntry_of_read {r : Reply} {start : Nat} (h : s.dueEntry = some (typ, e)) (hb : badEntry typ e = false)
    (ho : e.op = 2) (hr : s.readAccess 2 e.addr 4 = (r, x)) (hs : start = s.boot.polling.getD s.now) :
    s.pollEntry =
      if r.err ≠ 0 ∨ start + e.timeout * qUs < x.now then x.failSection
      else if r.data &&& e.mask = e.value then (x.keepItem typ (.reg e)).nextEntry typ 16
      else { x with boot := { x.boot with polling := some start } } := by
  subst hs
  simp only [State.pollEntry, h, hb, ho, State.entryPoll, hr, Bool.false_eq_true, if_false, ne_eq, not_true_eq_false, beq_iff_eq]

theorem State.pollLate_of_passed {a : Nat} (h : s.dueEntry = some (typ, e)) (hp : s.boot.polling = some a)
    (ht : a + e.timeout * qUs ≤ s.now) : s.pollLate = true := by
  simp only [State.pollLate, h, hp, decide_eq_true ht]

/-! ## The failure of a section, and list blocks -/

/-- R113: the failure of a mandatory section ends the boot in HOLD. -/
theorem State.failSection_of_mandatory {h : SectionHdr} (hs : s.boot.secs[s.boot.index]? = some h) (hm : h.mandatory = true) :
    s.failSection.dev = .hold ∧ s.failSection.boot.error = bEntryFailed := by
  obtain ⟨hdev, herr, -, -, -⟩ := s.failBoot_held bEntryFailed s.boot.index s.boot.entry
  have hf : s.failSection = s.failBoot bEntryFailed s.boot.index s.boot.entry := by
    simp only [State.failSection, hs, hm, if_true]
  rw [hf]
  exact ⟨hdev, herr⟩

/-- R112: the list block that is due, by whether its head is well formed. -/
theorem State.listEntry_of_due {h : SectionHdr} {a n : Nat} {good : Bool} (hs : s.dueSection = some h) (ht : h.typ = tyLists)
    (hl : s.listHead = (a, n, good)) :
    s.listEntry = if good then
        ((s.writeBytes a ((s.boot.body.drop (s.boot.place + 16)).take n)).keepItem tyLists
          (.list a ((s.boot.body.drop (s.boot.place + 16)).take n))).nextEntry tyLists (16 + n)
      else s.failSection := by
  cases good <;>
    simp only [State.listEntry, hs, ht, hl, ne_eq, not_true_eq_false, if_false, if_true, Bool.not_true, Bool.not_false,
      Bool.false_eq_true]

/-- R112: a well-formed list block lies in the list area of the pool, in whole lines of 16 bytes. -/
theorem State.listHead_good {a n : Nat} (h : s.listHead = (a, n, true)) : poolBase ≤ a ∧ a + n ≤ listTop ∧ n % 16 = 0 := by
  simp only [State.listHead, Prod.mk.injEq, Bool.and_eq_true, decide_eq_true_eq, beq_iff_eq] at h
  obtain ⟨rfl, rfl, ⟨⟨⟨-, -⟩, hn⟩, ha⟩, ht⟩ := h
  exact ⟨ha, ht, hn⟩

end

/-- Settles O7: one lemma for each OP, by the answer of the access. -/
theorem imageEntriesTakeEffect : Obligations.ImageEntriesTakeEffect := by
  refine ⟨fun s t typ e hdue hclocks => ?_, fun s t h a n good hdue htyp hhead => ?_⟩
  · intro u applied
    have hpump : u.pumpClocks = u := State.pumpClocks_of_applied hclocks
    refine ⟨fun hb ho => ⟨fun x hw hd => ?_, fun r x hw hr hd => ?_⟩, fun hb ho r x y hr hz hw hd => ?_,
      fun hb ho r x hr => ?_, fun hb ho => ?_, fun hb => ⟨?_, ?_, ?_, ?_⟩, fun x hp ht => ?_, fun h hs hm => ?_⟩
    · exact congrArg Host.Outcome.next (State.takeEntry_of_ran hdue hb ho (State.applyEntry_write ho hw) hd)
    · refine congrArg Host.Outcome.next ((State.takeEntry_of_ran hdue hb ho (State.applyEntry_write ho hw) hd).trans ?_)
      exact if_pos (by simpa using hr)
    · exact congrArg Host.Outcome.next (State.takeEntry_of_ran hdue hb ho (State.applyEntry_modify ho hr hz hw) hd)
    · intro start
      have hpoll := (congrArg State.pollEntry hpump).trans (State.pollEntry_of_read hdue hb ho hr (start := start) rfl)
      have hgoes : r.err = 0 → x.now ≤ start + e.timeout * qUs → ¬ (r.err ≠ 0 ∨ start + e.timeout * qUs < x.now) := by
        intro hz ht
        simp only [hz, ne_eq, not_true_eq_false, false_or, Nat.not_lt, ht]
      refine ⟨fun hz ht hm => ?_, fun hz ht hm => ?_, fun hf => ?_⟩
      · exact congrArg Host.Outcome.next (hpoll.trans ((if_neg (hgoes hz ht)).trans (if_pos hm)))
      · exact congrArg Host.Outcome.next (hpoll.trans ((if_neg (hgoes hz ht)).trans (if_neg hm)))
      · exact congrArg Host.Outcome.next (hpoll.trans (if_pos hf))
    · exact congrArg Host.Outcome.next ((congrArg State.delayEntry hpump).trans (State.delayEntry_of_due hdue hb ho rfl))
    · exact congrArg Host.Outcome.next (State.takeEntry_of_bad hdue hb)
    · exact congrArg Host.Outcome.next (State.takeEntry_of_bad hdue hb)
    · exact congrArg Host.Outcome.next ((congrArg State.pollEntry hpump).trans (State.pollEntry_of_bad hdue hb))
    · exact congrArg Host.Outcome.next ((congrArg State.delayEntry hpump).trans (State.takeEntry_of_bad hdue hb))
    · have hlate : u.pollLate = true := State.pollLate_of_passed hdue hp ht
      have hexec : exec (.pollTimeout t) s = .next (if u.pollLate then u.failSection else u) :=
        congrArg (fun y : State => Host.Outcome.next (if y.pollLate then y.failSection else y)) hpump
      rw [hexec, if_pos hlate]
    · exact State.failSection_of_mandatory (s := u) hs hm
  · intro u data
    have hentry := State.listEntry_of_due hdue htyp hhead
    refine ⟨fun hg => ⟨?_, ?_⟩, fun hg => ?_⟩
    · subst hg
      exact congrArg Host.Outcome.next hentry
    · subst hg
      exact State.listHead_good hhead
    · subst hg
      exact congrArg Host.Outcome.next hentry

end Sys2Proof.Machine
end

section
/-!
The boot from the flash (R101-R121): the SFDP tables, the choice of a slot, the verification of its sections and the start of
pass 2.
-/

namespace Sys2Proof.Machine

/-- R125: a milestone changes registers alone. -/
theorem State.mark_frame (s : State) (n : Nat) : ∃ r, s.mark n = { s with regs := r } := by
  unfold State.mark
  split
  · exact ⟨_, rfl⟩
  · exact ⟨s.regs, rfl⟩

/-! ## The flash and the choice of a slot -/

theorem flashMode_lt (modes : Nat) : flashMode modes < 2 ^ 2 := by
  unfold flashMode
  repeat' split
  all_goals decide

section
variable {s : State}

/-- R101: the tables give the read mode and the density of a flash that is large enough. -/
theorem State.readSfdp_of_found {density modes : Nat} {four : Bool} (hf : s.Fits) (hd : s.dev = .boot) (hp : s.boot.phase = 1)
    (hlo : 25 ≤ density) (hhi : density < 32) :
    let x := s.readSfdp true density modes four
    x.dev = .boot ∧ x.boot.phase = 2 ∧ x.get .BOOT_FLASH_MODE = flashMode modes ∧ x.get .BOOT_FLASH_DENSITY = density := by
  have h1 : (s.put .BOOT_FLASH_MODE 0 (flashMode modes)).Fits := State.fits_put hf _ _ _
  have h2 : ((s.put .BOOT_FLASH_MODE 0 (flashMode modes)).put .BOOT_FLASH_FOUR_BYTE 0 (b2n four)).Fits := State.fits_put h1 _ _ _
  have hx : s.readSfdp true density modes four =
      { ((s.put .BOOT_FLASH_MODE 0 (flashMode modes)).put .BOOT_FLASH_FOUR_BYTE 0 (b2n four)).put .BOOT_FLASH_DENSITY 0 density with
        boot := { s.boot with phase := 2 } } := by
    simp only [State.readSfdp, hd, hp, ne_eq, not_true_eq_false, or_self, if_false, Bool.not_true, Bool.false_eq_true,
      Nat.not_lt.mpr hlo, State.put_boot]
  rw [hx]
  refine ⟨hd, rfl, ?_, ?_⟩
  · refine (State.get_put_fits h2 _ _ _ _ _).trans ((if_neg (by decide)).trans ?_)
    refine (State.get_put_fits h1 _ _ _ _ _).trans ((if_neg (by decide)).trans ?_)
    exact (State.get_put_same hf _ _ _).trans (Nat.mod_eq_of_lt (flashMode_lt modes))
  · exact (State.get_put_same h2 _ _ _).trans (Nat.mod_eq_of_lt hhi)

theorem State.readSfdp_of_missing {density modes : Nat} {four : Bool} (hd : s.dev = .boot) (hp : s.boot.phase = 1) :
    s.readSfdp false density modes four = s.failBoot bNoFlash 0 0 := by
  simp only [State.readSfdp, hd, hp, ne_eq, not_true_eq_false, or_self, if_false, Bool.not_false, if_true]

variable {a b : List Byte} {ledger : LedgerRead}

/-- R107: the header that is chosen gives the section table and the start state of the boot. -/
theorem State.selectSlot_of_choice {slot : Nat} {h : List Byte} (hd : s.dev = .boot) (hp : s.boot.phase = 2)
    (hc : slotChoice (s.get .BOOT_CFG_FORCE) a b = some (slot, h)) :
    let x := s.selectSlot a b ledger
    x.boot.phase = 3 ∧ x.boot.slot = slot ∧ x.boot.secs = hdrSections h ∧ x.boot.start = hdrStart h ∧ x.boot.index = 0 := by
  simp only [State.selectSlot, hd, hp, ne_eq, not_true_eq_false, or_self, if_false, hc, State.takeSlot, State.put_boot, and_self]

/-- R107, R121: with no header to choose the boot fails. -/
theorem State.selectSlot_of_none (hd : s.dev = .boot) (hp : s.boot.phase = 2)
    (hc : slotChoice (s.get .BOOT_CFG_FORCE) a b = none) :
    (s.selectSlot a b ledger).dev = .hold ∧
      (s.selectSlot a b ledger).boot.error = if s.get .BOOT_CFG_FORCE = 0 then noSlotCode a b else bNoSlot := by
  simp only [State.selectSlot, hd, hp, ne_eq, not_true_eq_false, or_self, if_false, hc]
  obtain ⟨hdev, herr, -, -, -⟩ := State.failBoot_held _ (if s.get .BOOT_CFG_FORCE = 0 then noSlotCode a b else bNoSlot) 0 0
  exact ⟨hdev, herr⟩

end

/-! ## Pass 1 -/

/-- The state in which pass 1 has read a section of the slot. -/
def State.verifying (s : State) (h : SectionHdr) : State :=
  { s with boot := { s.boot with readAt := slotBase s.boot.slot + h.offset, section_ := s.boot.index } }

section
variable {s : State} {h : SectionHdr} {body : List Byte} {code : Nat}

/-- R114: a section is verified as it is read, by its CRC and digest. -/
theorem State.passOne_of_read (hd : s.dev = .boot) (hp : s.boot.phase = 3) (h1 : s.boot.pass1 = false)
    (hc : s.boot.clocks = none) (hs : s.boot.secs[s.boot.index]? = some h) :
    s.passOne body = match sectionFault h body with
      | some code => (s.verifying h).slotFails code s.boot.index
      | none => ((s.verifying h).keepAo h body).nextVerified := by
  have hpump : (s.verifying h).pumpClocks = s.verifying h := State.pumpClocks_of_applied hc
  have hskip : ¬ (s.dev ≠ .boot ∨ s.boot.phase ≠ 3 ∨ s.boot.pass1 = true) := by simp [hd, hp, h1]
  rw [State.passOne, if_neg hskip]
  simp only [State.verifying] at hpump ⊢
  simp only [hs, hpump]
  exact if_neg (not_not.mpr hd)

/-- R110: RAILS fails by its first bad entry. -/
theorem State.keepAo_of_badRails {i : Nat} (ht : h.typ = 1) (hb : badRails body = some i) :
    s.keepAo h body = s.failBoot bBadSection 0 i := by
  simp only [State.keepAo, ht, if_true, hb]

theorem State.keepAo_of_rails (ht : h.typ = 1) (hb : badRails body = none) :
    s.keepAo h body = { s with boot := { s.boot with rails := (List.range 10).map (railAt body) } } := by
  simp only [State.keepAo, ht, if_true, hb]

/-- R114: AO keeps nothing of a section that pass 2 applies. -/
theorem State.keepAo_of_later (ht : 4 ≤ h.typ) : s.keepAo h body = s := by
  rw [State.keepAo, if_neg (by omega), if_neg (by omega), if_neg (by omega)]

theorem State.nextVerified_of_held (hd : s.dev ≠ .boot) : s.nextVerified = s := if_pos hd

/-- R114: the verification goes on with the next section. -/
theorem State.nextVerified_of_more (hd : s.dev = .boot) (hk : s.boot.index + 1 < s.boot.secs.length) :
    s.nextVerified.dev = .boot ∧ s.nextVerified.boot.rails = s.boot.rails ∧ s.nextVerified.boot.index = s.boot.index + 1 := by
  simp only [State.nextVerified, hd, ne_eq, not_true_eq_false, if_false, hk, if_true, and_self]

theorem State.repower_of_up (h : s.power.downAt = none) : s.repower = s := by
  simp only [State.repower, h]

/-- R114: pass 1 ends with the last section. -/
theorem State.nextVerified_of_last (hd : s.dev = .boot) (hk : s.boot.index + 1 = s.boot.secs.length)
    (hu : s.power.downAt = none) :
    s.nextVerified.dev = .boot ∧ s.nextVerified.boot.pass1 = true ∧ s.nextVerified.boot.progress = 100 := by
  obtain ⟨r, hr⟩ := State.mark_frame { s with boot := { s.boot with index := s.boot.index + 1, pass1 := true, progress := 100 } } 1
  have hx : s.nextVerified =
      { s with boot := { s.boot with index := s.boot.index + 1, pass1 := true, progress := 100 }, regs := r } := by
    simp only [State.nextVerified, hd, ne_eq, not_true_eq_false, if_false, hk, Nat.lt_irrefl] at hr ⊢
    rw [hr]
    exact State.repower_of_up hu
  rw [hx]
  exact ⟨hd, rfl, rfl⟩

/-! ## A slot that fails -/

/-- The header of the slot that is not in use. -/
def State.otherHdr (s : State) : List Byte := if s.boot.slot = 0 then s.boot.hdrB else s.boot.hdrA

/-- The last failure shown does not touch BOOT_CFG. -/
theorem State.get_force_of_failure (hf : s.Fits) (code i : Nat) :
    (((s.put .BOOT_FAIL_CODE 0 code).put .BOOT_FAIL_SECTION 0 i).put .BOOT_FAIL_ENTRY 0 0).get .BOOT_CFG_FORCE =
      s.get .BOOT_CFG_FORCE := by
  have h1 : (s.put .BOOT_FAIL_CODE 0 code).Fits := State.fits_put hf _ _ _
  have h2 : ((s.put .BOOT_FAIL_CODE 0 code).put .BOOT_FAIL_SECTION 0 i).Fits := State.fits_put h1 _ _ _
  rw [State.get_put_fits h2, if_neg (by decide), State.get_put_fits h1, if_neg (by decide), State.get_put_fits hf, if_neg (by decide)]

/-- R107: with no other slot to verify the boot fails with the code of the section. -/
theorem State.slotFails_of_last (hf : s.Fits) {i : Nat}
    (ho : s.boot.second = true ∨ s.get .BOOT_CFG_FORCE ≠ 0 ∨ headerValid s.otherHdr = false) :
    (s.slotFails code i).dev = .hold ∧ (s.slotFails code i).boot.error = code := by
  rw [← State.get_force_of_failure hf code i] at ho
  have hx : s.slotFails code i =
      (((s.put .BOOT_FAIL_CODE 0 code).put .BOOT_FAIL_SECTION 0 i).put .BOOT_FAIL_ENTRY 0 0).failBoot code i 0 := if_pos ho
  obtain ⟨hdev, herr, -, -, -⟩ := State.failBoot_held
    (((s.put .BOOT_FAIL_CODE 0 code).put .BOOT_FAIL_SECTION 0 i).put .BOOT_FAIL_ENTRY 0 0) code i 0
  rw [hx]
  exact ⟨hdev, herr⟩

/-- R107, R116: the other slot is verified from its first section on. -/
theorem State.fallBackSlot_takes (slot : Nat) (hdr : List Byte) :
    (s.fallBackSlot slot hdr).dev = s.dev ∧ (s.fallBackSlot slot hdr).boot.second = true ∧
      (s.fallBackSlot slot hdr).boot.slot = slot ∧ (s.fallBackSlot slot hdr).boot.secs = hdrSections hdr ∧
      (s.fallBackSlot slot hdr).boot.index = 0 := by
  simp only [State.fallBackSlot, State.discardAo, State.commitCost, State.takeSlot, State.put_dev, State.put_boot, State.raise_dev,
    State.raise_boot, and_self]

theorem State.slotFails_of_other (hf : s.Fits) {i : Nat} (h2 : s.boot.second = false) (h0 : s.get .BOOT_CFG_FORCE = 0)
    (hv : headerValid s.otherHdr = true) :
    ∃ y : State, y.dev = s.dev ∧ s.slotFails code i = y.fallBackSlot (1 - s.boot.slot) s.otherHdr := by
  refine ⟨((s.put .BOOT_FAIL_CODE 0 code).put .BOOT_FAIL_SECTION 0 i).put .BOOT_FAIL_ENTRY 0 0, rfl, if_neg ?_⟩
  rw [← State.get_force_of_failure hf code i] at h0
  rintro (h | h | h)
  · exact absurd (h2.symm.trans h) (by decide)
  · exact h h0
  · exact absurd (hv.symm.trans h) (by decide)

end

/-! ## Pass 2 -/

/-- R120: pass 2 begins at the first section behind the three that AO keeps. -/
def State.atPassTwo (s : State) : State :=
  { s with boot := { s.boot with phase := 4, progress := 0, index := 3, body := [], place := 0, entry := 0 } }

section
variable {s : State} {h : SectionHdr} {body again : List Byte}

theorem State.passTwo_begins (hd : s.dev = .boot) (hp : s.boot.phase = 3) (h1 : s.boot.pass1 = true)
    (hc : s.boot.clocks = none) (hg : s.allRailsGood = true) : s.passTwo body again = s.atPassTwo.readSection body again := by
  simp only [State.passTwo, State.pumpClocks_of_applied hc, hd, hp, h1, hg, ne_eq, not_true_eq_false, if_false, and_self, if_true,
    State.atPassTwo]

theorem State.allRailsGood_of_forall (h : ∀ j, j < 10 → s.railOn j = true ∧ s.get .PWR_RAIL_PG j = 1) : s.allRailsGood = true := by
  simp only [State.allRailsGood, List.all_eq_true, List.mem_range, Bool.and_eq_true, beq_iff_eq]
  exact h

/-- R115: a section of a known type that passes is applied from its first entry on. -/
theorem State.readSection_of_good (hs : s.boot.secs[s.boot.index]? = some h) (hb : sectionFault h body = none) (h1 : 1 ≤ h.typ)
    (h2 : h.typ ≤ 12) : s.readSection body again =
      { s with boot := { s.boot with readAt := slotBase s.boot.slot + h.offset, section_ := s.boot.index, body := body } } := by
  have ht : ¬ (h.typ = 0 ∨ tyWrites < h.typ) := by simp only [tyWrites]; omega
  simp only [State.readSection, hs, hb, Option.isSome_none, Bool.false_eq_true, if_false, Bool.false_and, if_neg ht]

/-- R115: a section that fails once is read again. -/
theorem State.readSection_of_retry (hs : s.boot.secs[s.boot.index]? = some h) (hb : sectionFault h body ≠ none)
    (ha : sectionFault h again = none) (h1 : 1 ≤ h.typ) (h2 : h.typ ≤ 12) :
    s.readSection body again =
      ({ s with boot := { s.boot with
        readAt := slotBase s.boot.slot + h.offset, section_ := s.boot.index, body := again } } : State).raise .BOOT_EVENT_PASS2_RETRY := by
  have ht : ¬ (h.typ = 0 ∨ tyWrites < h.typ) := by simp only [tyWrites]; omega
  simp only [State.readSection, hs, Option.isSome_iff_ne_none.mpr hb, ha, Option.isSome_none, Bool.and_false, Bool.false_eq_true, if_false, if_true,
    if_neg ht]

/-- R115, R121: a section that fails twice ends the boot. -/
theorem State.readSection_of_unstable (hs : s.boot.secs[s.boot.index]? = some h) (hb : sectionFault h body ≠ none)
    (ha : sectionFault h again ≠ none) :
    (s.readSection body again).dev = .hold ∧ (s.readSection body again).boot.error = bFlashUnstable := by
  simp only [State.readSection, hs, Option.isSome_iff_ne_none.mpr hb, Option.isSome_iff_ne_none.mpr ha, Bool.and_self, if_true]
  obtain ⟨hdev, herr, -, -, -⟩ := State.failBoot_held _ bFlashUnstable s.boot.index 0
  exact ⟨hdev, herr⟩

end

/-- Settles O6: each clause is one lemma on the pass in progress; soundness of the state gives that the fields read as written. -/
theorem bootPassesTakeEffect : Obligations.BootPassesTakeEffect := by
  intro s t hsound hd u
  have hf : u.Fits := hsound.regs
  have held : ∀ code k e, (u.failBoot code k e).dev = .hold ∧ (u.failBoot code k e).boot.error = code := fun code k e =>
    ⟨(u.failBoot_held code k e).1, (u.failBoot_held code k e).2.1⟩
  refine ⟨fun density modes four hp hlo hhi => ?_, fun density modes four hp => ?_, fun a b ledger hp => ⟨fun slot h hc => ?_, fun hc => ?_⟩,
    fun body h hp h1 hc hs => ?_, fun body again h hp h1 hc hg hs => ?_, ?_⟩
  · exact ⟨_, rfl, State.readSfdp_of_found (s := u) hf hd hp hlo hhi⟩
  · have hx : u.readSfdp false density modes four = u.failBoot bNoFlash 0 0 := State.readSfdp_of_missing hd hp
    exact ⟨_, congrArg Host.Outcome.next hx, held _ _ _⟩
  · exact ⟨_, rfl, State.selectSlot_of_choice (s := u) hd hp hc⟩
  · exact ⟨_, rfl, State.selectSlot_of_none (s := u) hd hp hc⟩
  · intro v other
    have hread := State.passOne_of_read (s := u) (body := body) hd hp h1 hc hs
    refine ⟨fun hok => ?_, fun code hbad => ?_⟩
    · rw [hok] at hread
      refine ⟨congrArg Host.Outcome.next hread, fun ht hr => ?_, fun ht hr hk => ?_, fun ht hk hup => ?_⟩
      · obtain ⟨i, hi⟩ := Option.ne_none_iff_exists'.mp hr
        obtain ⟨hdev, herr, -, -, -⟩ := v.failBoot_held bBadSection 0 i
        have hkeep : v.keepAo h body = v.failBoot bBadSection 0 i := State.keepAo_of_badRails ht hi
        have hnext : (v.keepAo h body).nextVerified = v.failBoot bBadSection 0 i := by
          rw [hkeep, State.nextVerified_of_held (by rw [hdev]; decide)]
        exact ⟨_, congrArg Host.Outcome.next (hread.trans hnext), hdev, herr⟩
      · have hkeep := State.keepAo_of_rails (s := v) ht hr
        have hnext := State.nextVerified_of_more (s := { v with boot := { v.boot with rails := (List.range 10).map (railAt body) } }) hd hk
        exact ⟨_, congrArg Host.Outcome.next (hread.trans (congrArg State.nextVerified hkeep)), hnext⟩
      · have hkeep : v.keepAo h body = v := State.keepAo_of_later ht
        exact ⟨_, congrArg Host.Outcome.next (hread.trans (congrArg State.nextVerified hkeep)),
          State.nextVerified_of_last (s := v) hd hk hup⟩
    · rw [hbad] at hread
      refine ⟨fun ho => ?_, fun h2 h0 hv => ?_⟩
      · exact ⟨_, congrArg Host.Outcome.next hread, State.slotFails_of_last (s := v) hf ho⟩
      · obtain ⟨y, hy, hslot⟩ := State.slotFails_of_other (s := v) (code := code) (i := u.boot.index) hf h2 h0 hv
        obtain ⟨hdev, hrest⟩ := State.fallBackSlot_takes (s := y) (1 - v.boot.slot) v.otherHdr
        exact ⟨_, congrArg Host.Outcome.next (hread.trans hslot), hdev.trans (hy.trans hd), hrest⟩
  · have hbegin := State.passTwo_begins (s := u) (body := body) (again := again) hd hp h1 hc (State.allRailsGood_of_forall hg)
    refine ⟨fun hb ht1 ht2 => ?_, fun hb ha ht1 ht2 => ?_, fun hb ha => ?_⟩
    · have hread := State.readSection_of_good (s := u.atPassTwo) (again := again) hs hb ht1 ht2
      exact ⟨_, congrArg Host.Outcome.next (hbegin.trans hread), hd, rfl, rfl, rfl, rfl, rfl, rfl⟩
    · have hread := State.readSection_of_retry (s := u.atPassTwo) hs hb ha ht1 ht2
      exact ⟨_, congrArg Host.Outcome.next (hbegin.trans hread), hd, rfl, rfl⟩
    · exact ⟨_, congrArg Host.Outcome.next hbegin, State.readSection_of_unstable (s := u.atPassTwo) hs hb ha⟩
  · exact ⟨_, congrArg Host.Outcome.next (if_pos hd), held _ _ _⟩

end Sys2Proof.Machine
end

section
/-!
The attempts of a lane (R118, R353-R356, R365, R392): the queue, the phases of an attempt and their limits.
-/

namespace Sys2Proof.Machine

section
variable {s y : State} {l : Nat} {x : Lane}

/-! ## The queue -/

/-- R118, R353: the lanes that wait with their conditions met enter QUEUED one after another. -/
theorem State.wakeLanes_eq (hy : y = { s with boot := { s.boot with
      lanesOn := s.boot.lanesOn || decide (s.power.t0 + 300 * qMs ≤ s.now) } }) :
    s.wakeLanes = (List.range 64).foldl (fun z m =>
      if (z.lane m).state = 9 ∧ z.laneReady m = true then (z.setLane m { z.lane m with taps := z.presets m }).enqueue m (!s.boot.lanesOn)
      else z) y := by
  rw [hy]
  rfl

/-- R353: whether a queued lane may take a place now. -/
def State.laneMayStart (s : State) (m : Nat) : Bool :=
  s.quadTrains (m / 4) && !(s.lane m).service && ((s.lane m).early || decide (s.power.t0 + 300 * qMs ≤ s.now))

theorem State.laneMayStart_iff (s : State) (m : Nat) : s.laneMayStart m = true ↔
    s.quadTrains (m / 4) = true ∧ (s.lane m).service = false ∧ ((s.lane m).early = true ∨ s.power.t0 + 300 * qMs ≤ s.now) := by
  simp only [State.laneMayStart, Bool.and_eq_true, Bool.or_eq_true, Bool.not_eq_true', decide_eq_true_eq, and_assoc]

/-- R353: the lane that comes first of those that may start takes the free place, and begins at SIGNAL or at ADAPT. -/
theorem State.takePlace_of_first (hx : x = s.lane l) (h1 : x.state = 1) (hr : s.laneMayStart l = true) (hp : s.places < 8)
    (hf : ∀ m, m < 64 → (s.lane m).state = 1 → s.laneMayStart m = true → x.order ≤ (s.lane m).order) :
    s.takePlace l = s.setLane l { x with
      state := if x.eyeTry then 4 else 2, place := true, order := 0, early := false, phaseAt := s.now, tryAt := s.now } := by
  subst hx
  have hfirst : ((s.laneQueue.filter s.laneMayStart).all fun m => decide ((s.lane l).order ≤ (s.lane m).order)) = true := by
    simp only [State.laneQueue, List.all_eq_true, List.mem_filter, List.mem_range, beq_iff_eq, decide_eq_true_eq, and_imp]
    exact hf
  exact if_pos ⟨h1, hr, hfirst, hp⟩

/-! ## The phases -/

theorem State.signalDone_of_inTime (hx : x = s.lane l) (h2 : x.state = 2) (ht : s.inTime l = true)
    (hy : y = s.setQuad (l / 4) { s.quad (l / 4) with pll := true }) :
    s.signalDone l = (y.setLane l { x with signal := true }).nextPhase l 3 := by
  subst hx hy
  exact if_pos ⟨h2, ht⟩

/-- R354, R355: the lane has slipped one bit for each invalid header, but where the host moves the sampling point. -/
theorem State.lockDone_of_inTime {bad : Nat} (hx : x = s.lane l) (h3 : x.state = 3) (ht : s.inTime l = true)
    (hb : bad = s.free.1 % 1953126) (hy : y = s.free.2.count .LNK_LANE_SHERR_COUNT l bad) :
    s.lockDone l = (y.setLane l { x with lock := true, slip :=
      if (s.flag .LNK_LANE_CTL_MANUAL_SLIP l && s.dev == .test) = true then x.slip else (x.slip + bad) % 66 }).nextPhase l 4 := by
  subst hx hb hy
  exact if_pos ⟨h3, ht⟩

/-- R349, R354: ADAPT is the last phase of a lane at the converter rate; any other one goes on to FFE. -/
theorem State.adaptDone_of_inTime {ctle : Nat} {dfe old taps : List Int} (hx : x = s.lane l) (h4 : x.state = 4)
    (ht : s.inTime l = true) (ho : old = if x.taps = [] then s.presets l else x.taps)
    (hp : taps = ((min ctle 15 : Nat) : Int) :: (old.drop 1).take 3 ++
      (List.range 12).map (fun i => max (tapLow (i + 4)) (min (tapHigh (i + 4)) (dfe.getD i 0))))
    (hy : y = s.setLane l { x with taps := taps, reject := false }) :
    s.adaptDone l ctle dfe = if s.isJesd l then y.trainedLane l else (y.nextPhase l 5).sendTrain l := by
  subst hx ho hp hy
  exact if_pos ⟨h4, ht⟩

theorem State.ffeDone_of_inTime (h5 : (s.lane l).state = 5) (ht : s.inTime l = true) : s.ffeDone l = s.trainedLane l :=
  if_pos ⟨h5, ht⟩

/-- R356: a limit that passes ends the attempt. -/
theorem State.timeoutLane_of_passed (hx : x = s.lane l) (hlo : 2 ≤ x.state) (hhi : x.state ≤ 5)
    (ht : x.phaseAt + phaseLimit x.state ≤ s.now ∨ x.tryAt + s.tryLimit l ≤ s.now) :
    s.timeoutLane l = (s.toSeek l).raise .LNK_LANE_EVENT_TIMEOUT l := by
  subst hx
  exact if_pos ⟨hlo, hhi, ht⟩

end

/-- Settles O40: each command of an attempt is one lemma on the lane's phase. -/
theorem laneTrainingTakesEffect : Obligations.LaneTrainingTakesEffect := by
  intro s u t l x hu hl hx
  subst hu
  refine ⟨fun y hy => ?_, fun h1 hq hs hp hr hf => ?_, fun ht => ⟨fun y h2 hy => ?_, fun bad y h3 hb hy => ?_,
    fun ctle dfe old taps y h4 ho hp hy => ?_, fun h5 => ?_⟩, fun hlo hhi ht => ?_⟩
  · exact congrArg Host.Outcome.next (State.wakeLanes_eq hy)
  · have hmay : (s.at t).laneMayStart l = true := ((s.at t).laneMayStart_iff l).mpr ⟨hq, hx ▸ hs, hx ▸ hr⟩
    refine (if_pos hl).trans (congrArg Host.Outcome.next (State.takePlace_of_first hx h1 hmay hp fun m hm hm1 hmm => ?_))
    obtain ⟨hmq, hms, hmr⟩ := ((s.at t).laneMayStart_iff m).mp hmm
    exact hf m hm hm1 hmq hms hmr
  · exact (if_pos hl).trans (congrArg Host.Outcome.next (State.signalDone_of_inTime hx h2 ht hy))
  · exact (if_pos hl).trans (congrArg Host.Outcome.next (State.lockDone_of_inTime hx h3 ht hb hy))
  · exact (if_pos hl).trans (congrArg Host.Outcome.next (State.adaptDone_of_inTime hx h4 ht ho hp hy))
  · exact (if_pos hl).trans (congrArg Host.Outcome.next (State.ffeDone_of_inTime (hx ▸ h5) ht))
  · exact (if_pos hl).trans (congrArg Host.Outcome.next (State.timeoutLane_of_passed hx hlo hhi ht))

end Sys2Proof.Machine
end

section
/-!
HBM and the flash (R117, R124, R434-R440, R468): the patrol, the refresh of the flash, and the training of HBM.
-/

namespace Sys2Proof.Machine

section
variable {s y : State} {ad row result : Nat} {spare : Bool}

/-! ## The patrol -/

/-- R435: what a unit that is read does, by its ECC result. -/
def State.patrolUnit (s : State) (ad result : Nat) (spare : Bool) : State :=
  match result with
  | 0 => s
  | 1 =>
    let y := s.count .LIFE_SCRUB_CE_COUNT
    if y.life.patrolBad.contains (s.rowOf ad) then y.repairRow ad spare
    else if y.life.pass.contains (s.rowOf ad) then y
    else { y with life := { y.life with pass := s.rowOf ad :: y.life.pass } }
  | _ =>
    let y := ((s.count .LIFE_SCRUB_UE_COUNT).raise .LIFE_EVENT_SCRUB_UE).ledger kEvent evScrub ad
    { y with life := { y.life with bad := (ad / 64 * 64) :: y.life.bad.filter (· != ad / 64 * 64) } }.repairRow ad spare

/-- R437: a unit that is not the last of a pass. -/
theorem State.patrol_of_read (ht : s.hbm.trained = true) (hp : s.patrolled ad = true) :
    s.patrol ad result spare false = s.patrolUnit ad result spare := by
  simp only [State.patrol, ht, hp, Bool.not_true, Bool.false_eq_true, if_false]
  rfl

/-- R435, R436: with the last unit a pass ends, and its rows are those that the next pass repairs. -/
theorem State.patrol_of_last (ht : s.hbm.trained = true) (hp : s.patrolled ad = true) (hy : y = s.patrolUnit ad result spare) :
    s.patrol ad result spare true = { y with life := { y.life with
      patrolBad := y.life.pass ++ y.life.patrolBad, pass := [] } }.count .LIFE_SCRUB_PASSES_COUNT := by
  subst hy
  simp only [State.patrol, ht, hp, Bool.not_true, Bool.false_eq_true, if_false, if_true]
  rfl

/-- R436: a row with a corrected error in two passes is repaired. -/
theorem State.patrolUnit_of_secondPass (hr : row = s.rowOf ad) (hb : s.life.patrolBad.contains row = true)
    (hy : y = s.count .LIFE_SCRUB_CE_COUNT) : s.patrolUnit ad 1 spare = y.repairRow ad spare := by
  subst hr hy
  exact if_pos hb

/-- R436: a row with a corrected error is noted for the next pass. -/
theorem State.patrolUnit_of_firstPass (hr : row = s.rowOf ad) (hb : s.life.patrolBad.contains row = false)
    (hp : s.life.pass.contains row = false) (hy : y = s.count .LIFE_SCRUB_CE_COUNT) :
    s.patrolUnit ad 1 spare = { y with life := { y.life with pass := row :: y.life.pass } } := by
  subst hr hy
  exact (if_neg (Bool.eq_false_iff.mp hb)).trans (if_neg (Bool.eq_false_iff.mp hp))

/-! ## The refresh of the flash -/

theorem State.refreshFalls_of_due (hv : s.time.valid = true) (hn : s.life.refDueAt = none)
    (ht : s.get .LIFE_REFRESH_NEXT_SEC ≤ secOf s.tick) (h0 : s.life.refStage = 0) :
    s.refreshFalls = { s with life := { s.life with refDueAt := some s.now } }.put .LIFE_STATUS_REFRESH_DUE 0 1 :=
  if_pos ⟨hv, hn, ht, h0⟩

/-- R438: a refresh starts by itself a day after it fell due. -/
theorem State.autoRefresh_of_due {x : Nat} (h0 : s.life.refStage = 0) (hr : s.refreshRuns = true) (hd : s.life.refDueAt = some x)
    (ht : x + 86400 * qSec ≤ s.now) : s.autoRefresh = s.startRefresh := by
  simp only [State.autoRefresh, h0, hr, hd, decide_eq_true ht, Bool.true_or, and_self, if_true]

/-- R438: a refresh that was asked for starts as soon as it can run. -/
theorem State.autoRefresh_of_asked (h0 : s.life.refStage = 0) (hr : s.refreshRuns = true) (hw : s.life.refWant = true) :
    s.autoRefresh = s.startRefresh := by
  simp only [State.autoRefresh, h0, hr, hw, Bool.or_true, and_self, if_true]

section
variable {good last slotOk : Bool} (h0 : s.life.refStage ≠ 0) (hr : s.refreshRuns = true)
include h0 hr

/-- R439, R440: one sector of a refresh that runs. -/
theorem State.refreshSector_of_runs : s.refreshSector good last slotOk =
    if !slotOk then (if good then s.nextRefreshSlot else s.endRefresh false)
    else if good then
      (if last then { s with life := { s.life with refFails := 0 } }.nextRefreshSlot
        else { s with life := { s.life with refFails := 0 } })
    else if 3 ≤ s.life.refFails + 1 then s.endRefresh false
    else { s with life := { s.life with refFails := s.life.refFails + 1 } } :=
  if_neg (by simp [h0, hr])

/-- R440: a sector that fails is tried again, up to the third time. -/
theorem State.refreshSector_of_again (hf : s.life.refFails < 2) :
    s.refreshSector false last true = { s with life := { s.life with refFails := s.life.refFails + 1 } } := by
  have h3 : ¬ 3 ≤ s.life.refFails + 1 := by omega
  simp only [State.refreshSector_of_runs h0 hr, h3, Bool.not_true, Bool.false_eq_true, if_false]

/-- R440: the refresh fails with the third failure of a sector, or where none can be made. -/
theorem State.refreshSector_of_failed (hf : slotOk = false ∨ 2 ≤ s.life.refFails) :
    s.refreshSector false last slotOk = s.endRefresh false := by
  refine (State.refreshSector_of_runs h0 hr).trans ?_
  cases slotOk with
  | false => rfl
  | true =>
    have h2 : 2 ≤ s.life.refFails := hf.resolve_left (by decide)
    have h3 : 3 ≤ s.life.refFails + 1 := by omega
    simp only [h3, Bool.not_true, Bool.false_eq_true, if_false, if_true]

end

/-! ## The training of HBM -/

/-- R117: the first training of HBM follows the last rail good. -/
theorem exec_hbmTrainingStart_of_due {t : Nat} (hl : (s.at t).logicState = true) (hd : (s.at t).dev ≠ .hold)
    (hn : ((s.at t).rest kHbm).declared = none) (ht : (s.at t).hbm.training = none) (hu : (s.at t).hbm.trained = false)
    (hg : ∀ j, j < 10 → (s.at t).railOn j = true ∧ (s.at t).get .PWR_RAIL_PG j = 1) :
    exec (.hbmTrainingStart t) s = .next { s.at t with hbm := { (s.at t).hbm with training := some (s.at t).now } } :=
  if_pos ⟨hl, hd, hn, ht, hu, State.allRailsGood_of_forall hg⟩

theorem State.hbmTrained_of_training {x : Nat} (ht : s.hbm.training = some x)
    (hy : y = ((List.range 16).foldl (fun (z : State) n => z.noPan n)
      { s with hbm := { training := none, trained := true }, life := { s.life with soft := [] } }).mark 5) :
    s.hbmTrained = (y.finishRestore kHbm).noteBoot := by
  simp only [State.hbmTrained, ht, Option.isSome_some, if_true, hy]

/-- R29: a training that fails is a failure of the restoration that it belongs to, or a new failure of HBM. -/
theorem exec_hbmRetrainingFail_of_training {t x : Nat} (ht : (s.at t).hbm.training = some x)
    (hy : y = { s.at t with hbm := { training := none, trained := false } }) :
    exec (.hbmRetrainingFail t) s = .next (if (y.rest kHbm).declared.isSome ∧ (y.rest kHbm).began.isSome
      then y.failRestore kHbm else y.declare kHbm false) := by
  subst hy
  exact if_pos (by rw [ht]; rfl)

end

/-- Settles O51: the patrol by the ECC result of the unit, the refresh by its stage, the training of HBM by its outcome. -/
theorem scrubbingAndRefreshTakeEffect : Obligations.ScrubbingAndRefreshTakeEffect := by
  intro s u t hu
  subst hu
  refine ⟨fun ad row spare y ht hp hrow => ⟨?_, ?_, fun hy hb => ?_, fun hy hb hn => ?_, fun hy => ?_⟩, fun hv hn ht h0 => ?_,
    fun x h0 hr hd ht => ?_, fun h0 hr hw => ?_, fun slotOk last h0 hr => ⟨?_, ?_, ?_, fun hf => ?_, fun hf => ?_⟩,
    fun hl hd hn ht hu hg => ?_, fun x y ht hy => ?_, fun x y ht hy => ?_⟩
  · exact congrArg Host.Outcome.next (State.patrol_of_read (result := 0) ht hp)
  · exact congrArg Host.Outcome.next (State.patrol_of_last (result := 0) ht hp rfl)
  · exact congrArg Host.Outcome.next ((State.patrol_of_read ht hp).trans (State.patrolUnit_of_secondPass hrow hb hy))
  · exact congrArg Host.Outcome.next ((State.patrol_of_read ht hp).trans (State.patrolUnit_of_firstPass hrow hb hn hy))
  · subst hy
    exact congrArg Host.Outcome.next (State.patrol_of_read (result := 2) ht hp)
  · exact congrArg Host.Outcome.next (State.refreshFalls_of_due hv hn ht h0)
  · exact congrArg Host.Outcome.next (State.autoRefresh_of_due h0 hr hd ht)
  · exact congrArg Host.Outcome.next (State.autoRefresh_of_asked h0 hr hw)
  · exact congrArg Host.Outcome.next (State.refreshSector_of_runs h0 hr (good := true) (slotOk := false))
  · exact congrArg Host.Outcome.next (State.refreshSector_of_runs h0 hr (good := true) (last := false) (slotOk := true))
  · exact congrArg Host.Outcome.next (State.refreshSector_of_runs h0 hr (good := true) (last := true) (slotOk := true))
  · exact congrArg Host.Outcome.next (State.refreshSector_of_again h0 hr hf)
  · exact congrArg Host.Outcome.next (State.refreshSector_of_failed h0 hr hf)
  · exact exec_hbmTrainingStart_of_due hl hd hn ht hu hg
  · exact congrArg Host.Outcome.next (State.hbmTrained_of_training ht hy)
  · exact exec_hbmRetrainingFail_of_training ht hy

end Sys2Proof.Machine
end

section
/-!
The events of the input front ends (R132, R137-R145, R173, R201): a commit before time valid, the end of a settling, overdrives,
and the samples and the hold of a window monitor.
-/

namespace Sys2Proof.Machine

section
variable {s : State} {n : Nat}

/-! ## Commits before time valid -/

theorem exec_commitApplyEarly_of_chan {t x bin : Nat} {input : Input} (hn : n < numChannels) (hv : (s.at t).time.valid = false)
    (hc : ((s.at t).chan n).commit = some x) (hx : x + qUs ≤ (s.at t).now) :
    exec (.commitApplyEarly t n input bin) s = .next ((s.at t).applyFe n (x + qUs) (some (input, bin))) := by
  refine (if_pos hn).trans (congrArg Host.Outcome.next ?_)
  simp only [hc, hv, hx, Bool.not_false, decide_true, Bool.and_self, if_true]

theorem State.earlyWave_of_due {x : Nat} (hv : s.time.valid = false) (hc : (s.wave n).commit = some x) (hx : x + qUs ≤ s.now) :
    s.earlyWave n = s.applyWave n (x + qUs) := by
  simp only [State.earlyWave, hc, hv, hx, Bool.not_false, decide_true, Bool.and_self, if_true]

/-- R201: the units from 144 on are the waveform channels. -/
theorem exec_commitApplyEarly_of_wave {t bin : Nat} {input : Input} (hn : n < numWaves) :
    exec (.commitApplyEarly t (144 + n) input bin) s = .next ((s.at t).earlyWave n) := by
  have hlo : ¬ 144 + n < numChannels := by simp [numChannels]
  have hhi : 144 + n < numChannels + numWaves := by simp only [numChannels]; omega
  have e : 144 + n - numChannels = n := by simp [numChannels]
  refine (if_neg hlo).trans ((if_pos hhi).trans ?_)
  rw [e]

/-! ## Words that fall due -/

/-- Nothing is written of what falls due later. -/
theorem State.meetAll_of_later {t x : Int} (hd : (s.src n).nextDue = some x) (hx : t < x) (fuel : Nat) :
    State.meetAll n t fuel s = s := by
  cases fuel with
  | zero => rfl
  | succ fuel => simp only [State.meetAll, hd, if_neg (not_le.mpr hx)]

theorem State.meetAll_of_due {t x : Int} (hd : (s.src n).nextDue = some x) (hx : x ≤ t) (fuel : Nat) :
    State.meetAll n t (fuel + 1) s = State.meetAll n t fuel (s.meet n x) := by
  simp only [State.meetAll, hd, if_pos hx]

theorem State.writeDue_of_later {t x : Int} (hd : (s.src n).nextDue = some x) (hx : t < x) : s.writeDue n t = s :=
  State.meetAll_of_later hd hx _

/-- One instant is met when the next one lies later. -/
theorem State.writeDue_of_one {t x y : Int} (hd : (s.src n).nextDue = some x) (hx : x ≤ t)
    (hy : ((s.meet n x).src n).nextDue = some y) (hty : t < y) : s.writeDue n t = s.meet n x :=
  (State.meetAll_of_due hd hx _).trans (State.meetAll_of_later hy hty _)

/-- R171, R175: a source that waits for nothing else has its PERIODIC or its GAP anchor next. -/
theorem Source.nextDue_of_empty {r : Source} (ht : r.timed = true) (hd : r.due = []) :
    r.nextDue = some (min r.periodicAt r.gapAt) := by
  simp [Source.nextDue, ht, hd]

/-- A word that is due before the next PERIODIC and GAP instants is the next. -/
theorem Source.nextDue_of_single {r : Source} {d : Due} (ht : r.timed = true) (hd : r.due = [d]) (hp : d.at_ < r.periodicAt)
    (hg : d.at_ < r.gapAt) : r.nextDue = some d.at_ := by
  simp [Source.nextDue, ht, hd, min_eq_left hp.le, min_eq_left hg.le]

/-- R174: a word that is due alone brings its own reason. -/
theorem Source.reasonsAt_of_single {r : Source} {a : Nat} {x : Int} (hd : r.due = [{ at_ := x, word := .anchor a }])
    (hp : x < r.periodicAt) (hg : x < r.gapAt) : r.reasonsAt x = [a] := by
  simp [Source.reasonsAt, Source.wordsAt, hd, hp.ne, hg.ne]

theorem Source.timed_of_taking {r : Source} (ht : r.taking = true) (ho : r.ovf = none) : r.timed = true := by
  simp [Source.timed, ht, ho]

/-- R157: outside an episode, with room, a control word that falls due is written. -/
theorem State.dueAnchor_of_room {a : Nat} {x : Int} (ho : (s.src n).ovf = none) (hr : (s.src n).room 2 = true) :
    s.dueAnchor n a x = s.putAnchor n a x := by
  simp only [State.dueAnchor, ho, hr, Option.isSome_none, Bool.false_eq_true, if_false, if_true]

/-- R172: the source behind a governing anchor. -/
theorem State.src_putAnchor {a : Nat} {x : Int} (hs : Sound s) (ha : a < 0x80) :
    (s.putAnchor n a x).src n = { s.src n with buf := (s.src n).buf ++ [s.anchorEntry n a x] }.governed x := by
  simp only [State.putAnchor, if_pos ha, State.src_setSrc (State.wf_sources hs), if_true]

/-! ## The end of a settling -/

section
variable {r : Source} {x : Int} (hr : r = s.src n) (ht : r.taking = true) (ho : r.ovf = none)
  (hd : r.due = [{ at_ := x, word := .anchor rSettleEnd }]) (hp : x < r.periodicAt) (hg : x < r.gapAt)
include hr ht ho hd hp hg

/-- R173: the instant of SETTLE_END writes its anchor and nothing else. -/
theorem State.meet_of_settleEnd (hs : Sound s) (hm : r.room 2 = true) :
    s.meet n x = (s.setSrc n { r with due := [] }).putAnchor n rSettleEnd x := by
  have hsrc : (s.setSrc n { r with due := [] }).src n = { r with due := [] } := by
    rw [State.src_setSrc (State.wf_sources hs), if_pos rfl]
  have hw : r.wordsAt x = [.anchor rSettleEnd] := by simp [Source.wordsAt, hd]
  have hrest : (r.due.filter fun d => d.at_ != x) = [] := by simp [hd]
  have hq : r.reasonsAt x = [rSettleEnd] := Source.reasonsAt_of_single hd hp hg
  rw [← State.dueAnchor_of_room (by rw [hsrc]; exact ho) (by rw [hsrc]; exact hm)]
  simp only [State.meet, ← hr, hw, hq, hrest, ht, ho]
  rfl

/-- R173: before its time the anchor waits. -/
theorem State.flush_of_settling (hx : s.sureTick n < x) : s.flush n = s :=
  State.writeDue_of_later (hr ▸ Source.nextDue_of_single (Source.timed_of_taking ht ho) hd hp hg) hx

/-- R171, R173: the anchor is written, and the next PERIODIC and GAP instants count from it. -/
theorem State.flush_of_settled (hs : Sound s) (hm : r.room 2 = true) (hx : x ≤ s.sureTick n)
    (hp' : s.sureTick n < lastPeriodic x + tSec)
    (hg' : s.sureTick n < x + 2 ^ 39) : s.flush n = (s.setSrc n { r with due := [] }).putAnchor n rSettleEnd x := by
  have hmeet := State.meet_of_settleEnd hr ht ho hd hp hg hs hm
  have hsrc := State.src_putAnchor (n := n) (a := rSettleEnd) (x := x)
    ((State.setSrc_keeps (Keeps.refl s) n { r with due := [] }).sound hs) (by decide)
  rw [State.src_setSrc (State.wf_sources hs), if_pos rfl] at hsrc
  have hnext := Source.nextDue_of_empty (r := ((s.setSrc n { r with due := [] }).putAnchor n rSettleEnd x).src n)
    (by rw [hsrc]; exact Source.timed_of_taking ht ho) (by rw [hsrc]; rfl)
  rw [← hmeet] at hnext
  rw [← hmeet]
  refine State.writeDue_of_one (hr ▸ Source.nextDue_of_single (Source.timed_of_taking ht ho) hd hp hg) hx hnext (lt_min ?_ ?_)
  · rw [hmeet, hsrc]; exact hp'
  · rw [hmeet, hsrc]; exact hg'

end

/-! ## Overdrives -/

theorem State.detects_below {v : Nat} (h : v ≤ 1525000000) : s.detects v = (false, s) := if_pos h

/-- R137: between the two levels a free value decides. -/
theorem State.detects_between {v : Nat} (h1 : 1525000000 < v) (h2 : v ≤ 1575000000) :
    s.detects v = (s.free.1 % 2 == 1, s.free.2) := (if_neg (not_le.mpr h1)).trans (if_neg (not_lt.mpr h2))

theorem State.detects_above {v : Nat} (h : 1575000000 < v) : s.detects v = (true, s) :=
  (if_neg (by omega)).trans (if_pos h)

/-- R137: a die that is up acts on the answer of its detector. -/
theorem exec_overdriveStart_of_detects {t v : Nat} {peak : Input} {b : Bool} {y : State} (hn : n < numChannels)
    (hu : (s.at t).dieUp = true) (hv : v = ((s.at t).signal n peak).natAbs) (hd : (s.at t).detects v = (b, y)) :
    exec (.overdriveStart t n peak) s = .next (if b then y.overdrive n (overClass v) else y) := by
  subst hv
  refine (if_pos hn).trans (congrArg Host.Outcome.next ?_)
  simp only [hu, hd, Bool.not_true, Bool.false_eq_true, if_false]

/-- R139: an overdrive outside the windows of the one before is an episode of its own. -/
theorem State.overdrive_of_first {cls : Nat} (ha : (s.chan n).above = false) (ho : (s.chan n).ownEnd ≤ s.now)
    (hb : (s.chan n).nbrEnd ≤ s.now) : s.overdrive n cls =
      (s.count .TCH_OVR_COUNT_EPISODES n).setChan n { s.chan n with above := true, ovrAt := s.now, cls := cls } := by
  simp only [State.overdrive, ha, decide_eq_false (not_lt.mpr ho), decide_eq_false (not_lt.mpr hb), Bool.or_self,
    Bool.false_eq_true, if_false, State.count_now]

/-- R139: an overdrive that goes on keeps the highest class. -/
theorem State.overdrive_of_going {cls : Nat}
    (h : (s.chan n).above = true ∨ s.now < (s.chan n).ownEnd ∨ s.now < (s.chan n).nbrEnd) :
    s.overdrive n cls = s.setChan n { s.chan n with above := true, cls := max (s.chan n).cls cls } := by
  have hg : ((s.chan n).above || decide (s.now < (s.chan n).ownEnd) || decide (s.now < (s.chan n).nbrEnd)) = true := by
    simpa [or_assoc] using h
  simp only [State.overdrive, hg, if_true]

/-! ## Window monitors -/

/-- R143: 60 ns after a change of the limits the hold is over. -/
theorem exec_windowHoldEnd_of_over {t x : Nat} (hn : n < numChannels) (hl : ((s.at t).chan n).limAt = some x)
    (hx : x + 60 * qNs ≤ (s.at t).now) :
    exec (.windowHoldEnd t n) s = .next ((s.at t).setChan n { (s.at t).chan n with limAt := none }) := by
  refine (if_pos hn).trans (congrArg Host.Outcome.next ?_)
  simp only [hl, if_pos hx]

section
variable {v : Input} {w : WinMon} {hist : List Bool} (hw : w = (s.chan n).win) (ha : w.active = true)
  (hh : s.heldIn n s.now = false) (hist_eq : hist = (s.violates n v :: w.hist).take (s.get .TCH_WIN_CFG_N n))
include hw ha hh hist_eq

/-- R141, R145: the sample that brings the filter to M violating ones asserts the monitor at the present coarse period. -/
theorem State.winSample_of_assert {y z : State} (ho : w.out = false) (hm : s.get .TCH_WIN_CFG_M n ≤ (hist.filter id).length)
    (hy : y = s.setChan n { s.chan n with win := { w with
      hist := hist, out := true, latch := w.latch || s.get .TCH_WIN_CFG_LATCH n != 0 } })
    (hz : z = (y.settleTrips.raise .TCH_WIN_EVENT_TRIPPED n).count .TCH_WIN_COUNT_ASSERTS n) :
    s.winSample n v 0 = z.deliverTrip n (floorCoarse (z.tick - ((0 * 2048 : Nat) : Int)) - z.delayOf n) := by
  subst hz hy hist_eq hw
  simp only [State.winSample, ha, hh, ho, if_pos hm, Nat.zero_mul, Nat.sub_zero, Bool.not_true, Bool.not_false, Bool.or_self,
    Bool.true_and, Bool.false_eq_true, Bool.true_eq_false, false_and, if_false, if_true]

/-- R141: the sample that brings the filter down to N - M violating ones releases the monitor; its latch stays. -/
theorem State.winSample_of_deassert (ho : w.out = true) (hm : (hist.filter id).length < s.get .TCH_WIN_CFG_M n)
    (hl : (hist.filter id).length ≤ s.get .TCH_WIN_CFG_N n - s.get .TCH_WIN_CFG_M n) :
    s.winSample n v 0 = (s.setChan n { s.chan n with win := { w with hist := hist, out := false } }).settleTrips := by
  subst hist_eq hw
  simp only [State.winSample, ha, hh, ho, if_neg (not_le.mpr hm), if_pos hl, Nat.zero_mul, Nat.sub_zero, Bool.not_true,
    Bool.false_and, Bool.or_false, Bool.false_eq_true, false_and, if_false]

end

end

/-- Settles O23: each clause is one lemma on the branch that its hypotheses choose. -/
theorem frontEndEventsTakeEffect : Obligations.FrontEndEventsTakeEffect := by
  intro s u t n c hs hu hn hc
  have hsu : Sound u := by rw [hu]; exact (State.at_keeps (Keeps.refl s) t).sound hs
  subst hu hc
  refine ⟨fun input bin x hv => ⟨fun hc hx => exec_commitApplyEarly_of_chan hn hv hc hx, fun m hm hc hx => ?_⟩,
    fun x r sure hr hsure ht ho hd hp hg => ⟨fun hx => ?_, fun hx hp' hg' hm => ?_⟩,
    fun peak v hu hv => ⟨fun h => ?_, fun h1 h2 => ?_, fun h ha ho hb => ?_, fun h hg => ?_⟩, fun ha => ?_,
    fun x hl hx => exec_windowHoldEnd_of_over hn hl hx,
    fun v len hist ha hh hlen hhist => ⟨fun y z ho hm hy hz => ?_, fun ho hm hl => ?_⟩, fun v v' vs y hy => ?_⟩
  · exact (exec_commitApplyEarly_of_wave hm).trans (congrArg Host.Outcome.next (State.earlyWave_of_due hv hc hx))
  · subst hsure
    exact (if_pos hn).trans (congrArg Host.Outcome.next (State.flush_of_settling hr ht ho hd hp hg hx))
  · subst hsure
    exact (if_pos hn).trans (congrArg Host.Outcome.next (State.flush_of_settled hr ht ho hd hp hg hsu hm hx hp' hg'))
  · exact exec_overdriveStart_of_detects hn hu hv (State.detects_below h)
  · rw [exec_overdriveStart_of_detects hn hu hv (State.detects_between h1 h2)]
    cases (s.at t).free.1 % 2 == 1 with
    | false => exact .inl rfl
    | true => exact .inr rfl
  · exact (exec_overdriveStart_of_detects hn hu hv (State.detects_above h)).trans
      (congrArg Host.Outcome.next (State.overdrive_of_first ha ho hb))
  · exact (exec_overdriveStart_of_detects hn hu hv (State.detects_above h)).trans
      (congrArg Host.Outcome.next (State.overdrive_of_going hg))
  · exact (if_pos hn).trans (congrArg Host.Outcome.next (if_pos ha))
  · subst hlen
    exact (if_pos hn).trans (congrArg Host.Outcome.next (State.winSample_of_assert rfl ha hh hhist ho hm hy hz))
  · subst hlen
    exact (if_pos hn).trans (congrArg Host.Outcome.next (State.winSample_of_deassert rfl ha hh hhist ho hm hl))
  · subst hy
    exact ⟨if_pos hn, if_pos hn⟩

end Sys2Proof.Machine
end

section
/-!
The timed anchors and the end of a full buffer (R157, R171, R174, R175): what falls due at a source that waits for nothing, and at
one whose cause of a full buffer ends.
-/

namespace Sys2Proof.Machine

section
variable {s : State} {n : Nat}

/-! ## Sources that are set again -/

theorem State.setSrc_setSrc (hs : Sound s) (v w : Source) : (s.setSrc n v).setSrc n w = s.setSrc n w := by
  simp only [State.setSrc, SMap.set_set (State.wf_sources hs)]

theorem State.setSrc_src (hs : Sound s) : s.setSrc n (s.src n) = s := by
  simp only [State.setSrc, State.src, SMap.set_get (State.wf_sources hs)]

theorem State.src_setSrc_same (hs : Sound s) (v : Source) : (s.setSrc n v).src n = v :=
  (State.src_setSrc (State.wf_sources hs) n n v).trans (if_pos rfl)

@[simp] theorem State.noteOverflow_sources (k : Nat) (b : Bool) : (s.noteOverflow k b).sources = s.sources := by
  simp only [State.noteOverflow]
  split_ifs <;> simp

/-- R157: a cause outside an episode begins one, and changes nothing else of the source. -/
theorem State.src_beginCause_first (hs : Sound s) (ho : (s.src n).ovf = none) (c : Nat) (b : Bool) :
    ∃ e, (s.beginCause n c b).src n = { s.src n with ovf := some e } := by
  simp only [State.beginCause, ho]
  exact ⟨_, (congrArg (SMap.get _ · n) (State.noteOverflow_sources n _)).trans (State.src_setSrc_same hs _)⟩

/-- R172: a governing anchor is one setting of the source. -/
theorem State.putAnchor_of_governing {a : Nat} (ha : a < 0x80) (x : Int) :
    s.putAnchor n a x = s.setSrc n (({ s.src n with buf := (s.src n).buf ++ [s.anchorEntry n a x] } : Source).governed x) := by
  simp only [State.putAnchor, if_pos ha]

/-! ## Nothing more falls due -/

theorem State.meetAll_of_none {t : Int} (hd : (s.src n).nextDue = none) (fuel : Nat) : State.meetAll n t fuel s = s := by
  cases fuel with
  | zero => rfl
  | succ fuel => simp only [State.meetAll, hd]

theorem State.writeDue_of_none {t : Int} (hd : (s.src n).nextDue = none) : s.writeDue n t = s :=
  State.meetAll_of_none hd _

/-- One instant is met when none comes after it. -/
theorem State.writeDue_of_last {t x : Int} (hd : (s.src n).nextDue = some x) (hx : x ≤ t)
    (hy : ((s.meet n x).src n).nextDue = none) : s.writeDue n t = s.meet n x :=
  (State.meetAll_of_due hd hx _).trans (State.meetAll_of_none hy _)

/-- R157: no anchor is due by its time while a source takes no edges or is in an episode. -/
theorem Source.nextDue_of_untimed {r : Source} (ht : r.timed = false) (hd : r.due = []) : r.nextDue = none := by
  simp [Source.nextDue, ht, hd]

theorem Source.timed_of_episode {r : Source} {e : Episode} (ho : r.ovf = some e) : r.timed = false := by
  simp [Source.timed, ho]

/-- R171: the next PERIODIC instant comes after the present one. -/
theorem lt_lastPeriodic_add (t : Int) : t < lastPeriodic t + tSec := by
  simp only [lastPeriodic, tSec]
  omega

/-! ## The PERIODIC and GAP anchors -/

/-- R172: PERIODIC and GAP are governing anchors. -/
theorem timedReason_governs (p g : Int) : (if p = g then rGap else rPeriodic) < 0x80 := by
  split <;> decide

section
variable {r : Source} {p : Int} (hd : r.due = []) (ht : r.taking = true) (ho : r.ovf = none)
  (hp : p = min r.periodicAt r.gapAt)
include hd ht ho hp

/-- R171, R175: at its next instant a source that waits for nothing has the anchors of that instant alone. -/
theorem Source.reasonsAt_of_timed :
    p = r.gapAt ∧ (r.reasonsAt p = [rGap] ∨ r.reasonsAt p = [rGap, rPeriodic]) ∨ p ≠ r.gapAt ∧ r.reasonsAt p = [rPeriodic] := by
  have hr : r.reasonsAt p = (if p = r.gapAt then [rGap] else []) ++ (if p = r.periodicAt then [rPeriodic] else []) := by
    simp [Source.reasonsAt, Source.wordsAt, hd, Source.timed_of_taking ht ho]
  by_cases hg : p = r.gapAt
  · refine .inl ⟨hg, ?_⟩
    rw [hr, if_pos hg]
    by_cases hq : p = r.periodicAt
    · exact .inr (by rw [if_pos hq]; rfl)
    · exact .inl (by rw [if_neg hq]; rfl)
  · have hq : p = r.periodicAt := by omega
    exact .inr ⟨hg, by rw [hr, if_neg hg, if_pos hq]; rfl⟩

/-- R174: the instant brings one anchor and nothing else; where GAP and PERIODIC fall together, GAP is written. -/
theorem State.meet_of_timed (hs : Sound s) (hr : r = s.src n) :
    s.meet n p = s.dueAnchor n (if p = r.gapAt then rGap else rPeriodic) p := by
  have hw : r.wordsAt p = [] := by simp [Source.wordsAt, hd]
  have hself : s.setSrc n { r with due := r.due.filter fun d => d.at_ != p } = s := by
    have hrest : ({ r with due := r.due.filter fun d => d.at_ != p } : Source) = r := by rw [hd, List.filter_nil, ← hd]
    rw [hrest, hr, State.setSrc_src hs]
  simp only [State.meet, ← hr, hself]
  obtain ⟨hg, hq | hq⟩ | ⟨hg, hq⟩ := Source.reasonsAt_of_timed hd ht ho hp
  · simp only [hw, hq, ht, ho, if_pos hg]; rfl
  · simp only [hw, hq, ht, ho, if_pos hg]; rfl
  · simp only [hw, hq, ht, ho, if_neg hg]; rfl

/-- R171, R175: with room the anchor is written and governs, and the next instants count from it. -/
theorem State.flush_of_timed (hs : Sound s) (hr : r = s.src n) (hm : r.room 2 = true) (hx : p ≤ s.sureTick n)
    (hp' : s.sureTick n < lastPeriodic p + tSec) (hg' : s.sureTick n < p + 2 ^ 39) :
    s.flush n = s.putAnchor n (if p = r.gapAt then rGap else rPeriodic) p := by
  have hmeet : s.meet n p = s.putAnchor n (if p = r.gapAt then rGap else rPeriodic) p :=
    (State.meet_of_timed hd ht ho hp hs hr).trans (State.dueAnchor_of_room (hr ▸ ho) (hr ▸ hm))
  have hsrc := hmeet ▸ State.src_putAnchor (n := n) (x := p) hs (timedReason_governs p r.gapAt)
  rw [← hmeet]
  refine State.writeDue_of_one (y := min (lastPeriodic p + tSec) (p + 2 ^ 39)) ?_ hx ?_ (lt_min hp' hg')
  · rw [← hr, Source.nextDue_of_empty (Source.timed_of_taking ht ho) hd, hp]
  · rw [hsrc, ← hr]
    exact Source.nextDue_of_empty (Source.timed_of_taking ht ho) hd

/-- R471: without room an episode begins, during which no anchor is due. -/
theorem State.flush_of_timed_full (hs : Sound s) (hr : r = s.src n) (hm : r.room 2 = false) (hx : p ≤ s.sureTick n) :
    s.flush n = s.beginCause n fullCause false := by
  have hmeet : s.meet n p = s.beginCause n fullCause false := by
    rw [State.meet_of_timed hd ht ho hp hs hr]
    simp only [State.dueAnchor, ← hr, ho, hm, Option.isSome_none, Bool.false_eq_true, if_false]
  obtain ⟨e, he⟩ := State.src_beginCause_first hs (hr ▸ ho) fullCause false
  rw [← hmeet]
  refine State.writeDue_of_last ?_ hx ?_
  · rw [← hr, Source.nextDue_of_empty (Source.timed_of_taking ht ho) hd, hp]
  · rw [hmeet, he, ← hr]
    exact Source.nextDue_of_untimed (Source.timed_of_episode rfl) hd

end

/-- R157: nothing falls due while a source takes no edges, is in an episode, or has its instants to come. -/
theorem State.flush_of_untimed (hd : (s.src n).due = [])
    (h : (s.src n).taking = false ∨ (s.src n).ovf ≠ none ∨ s.sureTick n < min (s.src n).periodicAt (s.src n).gapAt) :
    s.flush n = s := by
  cases ht : (s.src n).timed with
  | false => exact State.writeDue_of_none (Source.nextDue_of_untimed ht hd)
  | true =>
    have hlt : s.sureTick n < min (s.src n).periodicAt (s.src n).gapAt := by
      obtain ⟨ha, hb⟩ : (s.src n).taking = true ∧ (s.src n).ovf = none := by simpa [Source.timed] using ht
      simpa [ha, hb] using h
    exact State.writeDue_of_later (Source.nextDue_of_empty ht hd) hlt

theorem exec_periodicAnchor_of_flush {t : Nat} {y : State} (hn : n < numSources) (h : (s.at t).flush n = y) :
    exec (.periodicAnchor t n) s = .next y ∧ exec (.gapAnchor t n) s = .next y :=
  ⟨(if_pos hn).trans (congrArg Host.Outcome.next h), (if_pos hn).trans (congrArg Host.Outcome.next h)⟩

/-! ## The end of a full buffer -/

theorem State.sureTick_setSrc (hs : Sound s) {r : Source} (h : r.sure = (s.src n).sure) :
    (s.setSrc n r).sureTick n = s.sureTick n := by
  simp only [State.sureTick, State.src_setSrc_same hs, h]
  rfl

/-- R157: a source whose cause of a full buffer ends at a time. -/
def Source.fullEnds (r : Source) (b : Int) : Source := { r with due := [{ at_ := b, word := .ends fullCause }] }

theorem Source.wordsAt_fullEnds (r : Source) (b : Int) : (r.fullEnds b).wordsAt b = [.ends fullCause] := by
  simp [Source.wordsAt, Source.fullEnds]

theorem Source.reasonsAt_fullEnds {r : Source} {e : Episode} (ho : r.ovf = some e) (b : Int) :
    (r.fullEnds b).reasonsAt b = [] := by
  have ht : (r.fullEnds b).timed = false := Source.timed_of_episode ho
  simp [Source.reasonsAt, Source.wordsAt_fullEnds, ht]

theorem Source.nextDue_fullEnds {r : Source} {e : Episode} (ho : r.ovf = some e) (b : Int) :
    (r.fullEnds b).nextDue = some b := by
  have ht : (r.fullEnds b).timed = false := Source.timed_of_episode ho
  simp only [Source.nextDue, ht]
  rfl

theorem filter_not_fullCause (l : List Nat) :
    (l.filter fun c => !([fullCause] : List Nat).contains c) = l.filter (· ≠ fullCause) := by
  simp

section
variable {r : Source} {e : Episode} {b : Int} (hr : r = s.src n) (ho : r.ovf = some e)
include hr ho

/-- R157, R158: other causes go on, and so does the episode. -/
theorem State.endCauses_of_others (h : e.active.filter (· ≠ fullCause) ≠ []) :
    s.endCauses n [fullCause] b [] rOverflowEnd =
      s.setSrc n { r with ovf := some { e with active := e.active.filter (· ≠ fullCause) } } := by
  simp only [State.endCauses, ← hr, ho, filter_not_fullCause, if_pos h]

/-- R157, R171: without another cause the episode ends with its mark and the OVERFLOW_END anchor. -/
theorem State.endCauses_of_last (hl : r.level ≤ 3072) (h : e.active.filter (· ≠ fullCause) = []) :
    s.endCauses n [fullCause] b [] rOverflowEnd = ((s.noteLost n e).setSrc n { r.noteGap e.start b with
      ovf := none, tapBrk := true, buf := r.buf ++ [s.markEntry n e r.gov] }).putAnchor n rOverflowEnd b := by
  have hroom : r.room (3 + ([] : List Item).length) = true := by
    simp only [Source.room, List.length_nil, decide_eq_true_eq]
    omega
  simp only [State.endCauses, ← hr, ho, filter_not_fullCause, h, hroom, ne_eq, not_true_eq_false, if_false, if_true,
    List.map_nil, List.append_nil]

variable (hs : Sound s) (hd : r.due = [])
include hs hd

/-- R157, R174: at its boundary the cause ends, and nothing else is written. -/
theorem State.meet_fullEnds (ht : r.taking = true) :
    (s.setSrc n (r.fullEnds b)).meet n b = s.endCauses n [fullCause] b [] rOverflowEnd := by
  have hempty : ((r.fullEnds b).due.filter fun d => d.at_ != b) = r.due := by simp [Source.fullEnds, hd]
  have hrest : ({ r.fullEnds b with due := (r.fullEnds b).due.filter fun d => d.at_ != b } : Source) = r := by rw [hempty]; rfl
  have hself : s.setSrc n r = s := by rw [hr, State.setSrc_src hs]
  have ht' : (r.fullEnds b).taking = true := ht
  have ho' : (r.fullEnds b).ovf = some e := ho
  simp only [State.meet, State.src_setSrc_same hs, State.setSrc_setSrc hs, hrest, hself]
  simp only [Source.wordsAt_fullEnds, Source.reasonsAt_fullEnds ho, ht', ho']
  rfl

/-- R157: a full buffer that has drained has its end at a boundary, and what falls due until then is written. -/
theorem State.overflowEnds_of_drained (hc : e.active.contains fullCause = true) (hl : r.level ≤ 3072)
    (hb : b = if 144 ≤ n ∧ n < 160 then ceilCoarse r.sure else ceilCoarse (max (s.recTick n) (r.lastAt + 1))) :
    s.overflowEnds n = (s.setSrc n (r.fullEnds b)).writeDue n (s.sureTick n) := by
  have hw : (if isWave n then ceilCoarse r.sure else s.nextBound n) = b := by
    rw [hb]
    simp only [isWave, Bool.and_eq_true, decide_eq_true_eq, State.nextBound, hr]
  have hpush : ({ r with due := r.due ++ [{ at_ := b, word := .ends fullCause }] } : Source) = r.fullEnds b := by
    rw [hd]
    rfl
  calc s.overflowEnds n = s.pushDue n b (.ends fullCause) := by
        simp only [State.overflowEnds, State.drainedEnough, State.endCause, ← hr, ho, hc, hl, hw, decide_true, Bool.and_self,
          if_true]
    _ = (s.setSrc n (r.fullEnds b)).flush n := by simp only [State.pushDue, ← hr, hpush]
    _ = (s.setSrc n (r.fullEnds b)).writeDue n (s.sureTick n) :=
        congrArg (State.writeDue _ n) (State.sureTick_setSrc hs (by rw [← hr]; rfl))

omit hr hd in
/-- R157: before its boundary the end waits. -/
theorem State.endsDue_of_later (hx : s.sureTick n < b) :
    (s.setSrc n (r.fullEnds b)).writeDue n (s.sureTick n) = s.setSrc n (r.fullEnds b) :=
  State.writeDue_of_later (by rw [State.src_setSrc_same hs, Source.nextDue_fullEnds ho]) hx

theorem State.endsDue_of_others (ht : r.taking = true) (hx : b = s.sureTick n) (h : e.active.filter (· ≠ fullCause) ≠ []) :
    (s.setSrc n (r.fullEnds b)).writeDue n (s.sureTick n) =
      s.setSrc n { r with ovf := some { e with active := e.active.filter (· ≠ fullCause) } } := by
  have hmeet := (State.meet_fullEnds (b := b) hr ho hs hd ht).trans (State.endCauses_of_others hr ho h)
  rw [← hmeet]
  refine State.writeDue_of_last (by rw [State.src_setSrc_same hs, Source.nextDue_fullEnds ho]) hx.le ?_
  rw [hmeet, State.src_setSrc_same hs]
  exact Source.nextDue_of_untimed (Source.timed_of_episode rfl) hd

/-- R157, R171: the anchor at the end governs, so that the next PERIODIC and GAP instants come after it. -/
theorem State.endsDue_of_last (ht : r.taking = true) (hx : b = s.sureTick n) (hl : r.level ≤ 3072)
    (h : e.active.filter (· ≠ fullCause) = []) :
    (s.setSrc n (r.fullEnds b)).writeDue n (s.sureTick n) = ((s.noteLost n e).setSrc n { r.noteGap e.start b with
      ovf := none, tapBrk := true, buf := r.buf ++ [s.markEntry n e r.gov] }).putAnchor n rOverflowEnd b := by
  have hmeet := (State.meet_fullEnds (b := b) hr ho hs hd ht).trans (State.endCauses_of_last hr ho hl h)
  have hlost : Sound (s.noteLost n e) := (State.noteLost_keeps (Keeps.refl s) n e).sound hs
  rw [← hmeet]
  refine State.writeDue_of_one (y := min (lastPeriodic b + tSec) (b + 2 ^ 39))
    (by rw [State.src_setSrc_same hs, Source.nextDue_fullEnds ho]) hx.le ?_
    (lt_min (hx ▸ lt_lastPeriodic_add b) (by omega))
  rw [hmeet, State.src_putAnchor ((State.setSrc_keeps (Keeps.refl _) n _).sound hlost) (by decide), State.src_setSrc_same hlost]
  exact Source.nextDue_of_empty (Source.timed_of_taking ht rfl) hd

end

theorem exec_overflowEnd_of_eq {t : Nat} {y : State} (hn : n < numSources) (h : (s.at t).overflowEnds n = y) :
    exec (.overflowEnd t n) s = .next y := (if_pos hn).trans (congrArg Host.Outcome.next h)

end

/-- Settles O19: the due list of the source is empty, so at most one instant is met, and one lemma says what it brings. -/
theorem anchorEventsTakeEffect : Obligations.AnchorEventsTakeEffect := by
  intro s u t k r p sure hs hu hk hr hp hsure hd
  have hsu : Sound u := by rw [hu]; exact (State.at_keeps (Keeps.refl s) t).sound hs
  subst hu
  refine ⟨fun h => ?_, fun ht ho hx hp' hg' => ⟨fun hm y hy => ?_, fun hm => ?_⟩, fun e b ht ho hc hl hb =>
    ⟨fun hx => ?_, fun hx h => ?_, fun hx h => ?_⟩⟩
  · subst hr hsure hp
    exact exec_periodicAnchor_of_flush hk (State.flush_of_untimed hd h)
  · subst hy hsure
    have hflush := State.flush_of_timed hd ht ho hp hsu hr hm hx hp' hg'
    rw [State.putAnchor_of_governing (timedReason_governs _ _), ← hr] at hflush
    exact exec_periodicAnchor_of_flush hk hflush
  · subst hsure
    exact exec_periodicAnchor_of_flush hk (State.flush_of_timed_full hd ht ho hp hsu hr hm hx)
  · subst hsure
    exact exec_overflowEnd_of_eq hk
      ((State.overflowEnds_of_drained hr ho hsu hd hc hl hb).trans (State.endsDue_of_later ho hsu hx))
  · subst hsure
    exact exec_overflowEnd_of_eq hk
      ((State.overflowEnds_of_drained hr ho hsu hd hc hl hb).trans (State.endsDue_of_others hr ho hsu hd ht hx h))
  · subst hsure
    exact exec_overflowEnd_of_eq hk
      ((State.overflowEnds_of_drained hr ho hsu hd hc hl hb).trans (State.endsDue_of_last hr ho hsu hd ht hx hl h))

end Sys2Proof.Machine
end

section
/-!
Live calibration (R154, R159-R163, R433): a hit of the source, and the end of a round by the acceptance of its tables.
-/

namespace Sys2Proof.Machine

/-- R160, R163, R433: a back-end whose candidate tables go live and are stored. -/
def BackEnd.renewed (e : BackEnd) (b : Nat) : BackEnd :=
  { e with
    hits := [], live := some e.hits, stored := some e.hits, cal := 0, fails := 0, gen := e.gen + 1,
    drift := driftOf b e.hits, aged := e.aged || decide (1024 < driftOf b e.hits) }

/-- R182: the first tables of a spare that warms up make its switch due. -/
def State.spareReady (s : State) (b : Nat) : State :=
  if 256 ≤ b then (match s.spareUser (b - 256) with
    | some n => if (s.chan n).sub = 1 ∧ (s.chan n).subDue = none then s.setChan n { s.chan n with subDue := some s.now } else s
    | none => s)
  else s

section
variable {s : State} {b : Nat}

theorem State.spareReady_of_lower (h : b < 256) : s.spareReady b = s := if_neg (by omega)

theorem State.spareReady_of_idle (h : 256 ≤ b) (hu : s.spareUser (b - 256) = none) : s.spareReady b = s := by
  simp only [State.spareReady, if_pos h, hu]

theorem State.spareReady_of_user {m : Nat} (h : 256 ≤ b) (hu : s.spareUser (b - 256) = some m) :
    s.spareReady b =
      if (s.chan m).sub = 1 ∧ (s.chan m).subDue = none then s.setChan m { s.chan m with subDue := some s.now } else s := by
  simp only [State.spareReady, if_pos h, hu]

variable {e : BackEnd} (he : e = s.be b) (hp : e.powered = true) (hf : e.fault = none)
include he hp hf

/-- R154, R159: a hit fires once the hit before it is over at every interpolator. -/
theorem State.calHit_of_fires {bin i key : Nat} (h : s.hitsFire b = true)
    (hl : ∀ x ∈ e.lastHit, x + 420 * 16384 ≤ s.now ∨ x = 0) (hi : i = longestFree e.free) (hk : key = i * 2048 + bin % 2048) :
    s.calHit b bin = s.setBe b { e.take i s.now with
      hits := SMap.set (fun _ => 0) e.hits key (SMap.get (fun _ => 0) e.hits key + 1), lastHit := e.lastHit.set i s.now } := by
  have hall : (e.lastHit.all fun x => decide (x + 420 * 16384 ≤ s.now) || decide (x = 0)) = true := by
    simpa only [List.all_eq_true, Bool.or_eq_true, decide_eq_true_eq] using hl
  subst hk hi
  simp only [State.calHit, ← he, hp, hf, h, hall, Option.isNone_none, Bool.and_self, if_true]

/-! ## The end of a round -/

variable {cal : Nat} (hc : cal = s.calBy ((s.beChannel b).getD b) b) (hn : ∀ i < 4, 2 ^ 20 ≤ hitTotal e.hits i)
include hc hn

omit he hc in
/-- R160: a round with the hits of every interpolator is not cut short. -/
theorem roundGuard_full :
    (!((List.range 4).all fun i => decide (2 ^ 20 ≤ hitTotal e.hits i)) || !e.powered || e.fault.isSome) = false := by
  have hall : ((List.range 4).all fun i => decide (2 ^ 20 ≤ hitTotal e.hits i)) = true := by
    simpa only [List.all_eq_true, List.mem_range, decide_eq_true_eq] using hn
  rw [hall, hp, hf]
  rfl

/-- R160-R163, R433: accepted tables go live; those that pass the ageing limit for the first time are reported. -/
theorem State.buildTables_of_accepted {z : State} (ha : e.accepts cal = true) (hz : z = (s.setBe b (e.renewed b)).spareReady b) :
    s.buildTables b =
      if (decide (1024 < driftOf b e.hits) && !e.aged) = true then z.ageing ((z.beChannel b).getD b) else z := by
  have hset : s.setBe b { e with
      hits := [], live := some e.hits, stored := some e.hits, cal := 0, fails := 0, gen := e.gen + 1,
      drift := driftOf b e.hits, aged := e.aged || decide (1024 < driftOf b e.hits) } = s.setBe b (e.renewed b) := rfl
  subst hz hc
  unfold State.buildTables
  simp only [← he, roundGuard_full hp hf hn, ha, Bool.false_eq_true, if_false, if_true, hset]
  rcases lt_or_ge b 256 with h | h
  · simp only [if_neg (not_le.mpr h), State.spareReady_of_lower h]
  · cases hu : (s.setBe b (e.renewed b)).spareUser (b - 256) with
    | none => simp only [if_pos h, State.spareReady_of_idle h hu]
    | some m => simp only [if_pos h, State.spareReady_of_user h hu]

/-- R162: a rejection that is not the third in a row is counted. -/
theorem State.buildTables_of_rejected (ha : e.accepts cal = false) (h3 : (e.fails + 1) % 3 ≠ 0) :
    s.buildTables b = s.setBe b { e with hits := [], fails := e.fails + 1 } := by
  subst hc
  unfold State.buildTables
  simp only [← he, roundGuard_full hp hf hn, ha, if_neg h3, Bool.false_eq_true, if_false]

/-- R162: the third rejection in a row takes the live tables out of use and reports it. -/
theorem State.buildTables_of_third {y : State} {n : Nat} (ha : e.accepts cal = false) (h3 : (e.fails + 1) % 3 = 0)
    (hy : y = s.setBe b ({ e with hits := [], fails := e.fails + 1 } : BackEnd).fallBack) (hb : y.beChannel b = some n) :
    s.buildTables b = y.raise .TCH_BE_EVENT_CAL_FAIL n := by
  subst hc hy
  unfold State.buildTables
  simp only [← he, roundGuard_full hp hf hn, ha, if_pos h3, hb, Bool.false_eq_true, if_false]

end

/-- R163, R433: an ageing limit is reported when the drift first passes it. -/
theorem firstAgeing_iff (e : BackEnd) (d : Nat) : (decide (1024 < d) && !e.aged) = true ↔ 1024 < d ∧ e.aged = false := by
  simp

theorem exec_calTableBuild_of_eq {s y : State} {t b : Nat} (hb : isBackEnd b = true) (h : (s.at t).buildTables b = y) :
    exec (.calTableBuild t b) s = .next y := (if_pos hb).trans (congrArg Host.Outcome.next h)

/-- Settles O22: a hit, and the three ends of a round by the acceptance of its tables and the count of rejections. -/
theorem calibrationEventsTakeEffect : Obligations.CalibrationEventsTakeEffect := by
  intro s u t b cal e hu hb he hc hp hf
  subst hu
  have hbuild {y : State} := exec_calTableBuild_of_eq (s := s) (t := t) (y := y) hb
  refine ⟨fun bin i key h hl hi hk => (if_pos hb).trans (congrArg Host.Outcome.next (State.calHit_of_fires he hp hf h hl hi hk)),
    fun hn => ⟨fun y z ha hy hz => ?_, fun ha h3 => hbuild (State.buildTables_of_rejected he hp hf hc hn ha h3),
      fun n y ha h3 hy hbn => hbuild (State.buildTables_of_third he hp hf hc hn ha h3 hy hbn)⟩⟩
  have hready : z = y.spareReady b := by
    obtain ⟨h, hz⟩ | ⟨h, hu, hz⟩ | ⟨m, h, hu, hz⟩ := hz
    · rw [hz, State.spareReady_of_lower h]
    · rw [hz, State.spareReady_of_idle h hu]
    · rw [hz, State.spareReady_of_user h hu]
  have hz' : (s.at t).buildTables b = _ := State.buildTables_of_accepted he hp hf hc hn ha (hready.trans (hy ▸ rfl))
  refine ⟨fun hd => hbuild (hz'.trans (if_neg ?_)), fun hd hg => hbuild (hz'.trans (if_pos ?_))⟩
  · rw [firstAgeing_iff]
    rintro ⟨h1, h2⟩
    rcases hd with hd | hd
    · omega
    · simp [hd] at h2
  · exact (firstAgeing_iff _ _).mpr ⟨hd, hg⟩

end Sys2Proof.Machine
end

section
/-!
Substitution of back-ends (R155, R182-R185, R441): the switch to the spare, the end of its warm-up, the rejoin, and the faults of
back-ends.
-/

namespace Sys2Proof.Machine

section
variable {s : State} {n b : Nat}

/-! ## The switch and the rejoin -/

theorem State.switchOver_of_due {count : Nat} {x : Int}
    (h : s.switchTime n = some x ∧ x ≤ s.recTick n ∨ s.switchTime n = none ∧ (s.chan n).sub = 1 ∧ (s.chan n).armed = false ∧
      (s.chan n).subAt + 10 * qUs ≤ s.now ∧ x = s.nextBound n) : s.switchOver n count = s.switchAt n count x := by
  obtain ⟨ht, hx⟩ | ⟨ht, h1, ha, hn, rfl⟩ := h
  · simp only [State.switchOver, ht, if_pos hx]
  · simp only [State.switchOver, ht, if_pos (And.intro h1 (And.intro ha hn))]

theorem State.switchOver_of_early {count : Nat} {x : Int}
    (h : s.switchTime n = some x ∧ s.recTick n < x ∨ s.switchTime n = none ∧ (s.chan n).sub ≠ 1) : s.switchOver n count = s := by
  obtain ⟨ht, hx⟩ | ⟨ht, h1⟩ := h
  · simp only [State.switchOver, ht, if_neg (not_le.mpr hx)]
  · simp only [State.switchOver, ht, h1, false_and, if_false]

/-- R185: what the front-end's counter has counted since a fault is read before the change-over. -/
theorem State.switchAt_of_counter {count : Nat} {x : Int} {w : State} (hw : (s.src n).ovf = none ∧ w = s ∨
      (∃ e, (s.src n).ovf = some e ∧ w = if e.causes.contains 2 then s.readCounter n count else s)) {z y : State}
    (hz : z = w.changeOver n (spareKey (n / 12)) rSwitch x [])
    (hy : y = (z.setChan n { z.chan n with sub := 2, subDue := none, chgAt := some x }).stopEnd n) :
    s.switchAt n count x = State.unitDone (State.raise { y with life := { y.life with
      subs := y.life.subs.set (n / 12) (n % 12) } } .TCH_BE_EVENT_SWITCHED n) := by
  subst hy hz
  obtain ⟨ho, rfl⟩ | ⟨e, ho, rfl⟩ := hw
  · simp only [State.switchAt, ho]
  · simp only [State.switchAt, ho]

theorem State.rejoin_of_due {x : Int} (h : s.rejoinTime n = some x ∧ x ≤ s.recTick n ∨
      (∃ a, s.rejoinTime n = none ∧ (s.chan n).back = some a ∧ (s.chan n).sub = 2 ∧ (s.chan n).armed = false ∧
        a + 10 * qUs ≤ s.now ∧ x = s.nextBound n)) : s.rejoin n = s.rejoinAt n x := by
  obtain ⟨ht, hx⟩ | ⟨a, ht, hb, h2, ha, hn, rfl⟩ := h
  · simp only [State.rejoin, ht, if_pos hx]
  · simp only [State.rejoin, ht, hb, if_pos (And.intro h2 (And.intro ha hn))]

/-- R182: four seconds without a live table end the warm-up with a fault of the calibration. -/
theorem State.warmupOver_of_late (h1 : (s.chan n).sub = 1) (hn : (s.chan n).subNow = false) (hd : (s.chan n).subDue = none)
    (h4 : (s.chan n).subAt + 4 * qSec ≤ s.now) :
    s.warmupOver n = (s.setChan n { s.chan n with subDue := some s.now }).raise .TCH_BE_EVENT_CAL_FAIL n :=
  if_pos ⟨h1, hn, hd, h4⟩

/-! ## Faults -/

theorem State.beFault_of_stopped (h : (s.be b).fault ≠ none ∨ s.endPowered b = false) : s.beFault b = s := by
  refine if_pos ?_
  obtain h | h := h
  · simp [Option.isSome_iff_ne_none.mpr h]
  · simp [h]

section
variable {y : State} (hf : (s.be b).fault = none) (hp : s.endPowered b = true)
  (hy : y = s.setBe b { s.be b with fault := some s.now })
include hf hp hy

/-- R184, R185: the channel that a faulted back-end served begins an episode; with AUTO and a free spare it is retired. -/
theorem State.beFault_of_serving {w : State} (hs : y.serves b = some n)
    (hw : w = if ((y.raise .TCH_BE_EVENT_FAULT n).src n).taking then (y.raise .TCH_BE_EVENT_FAULT n).beginCause n 2 false
      else y.raise .TCH_BE_EVENT_FAULT n) :
    s.beFault b = if (w.flag .TCH_SPARE_CFG_AUTO n && (w.spareUser (n / 12)).isNone) = true then w.retire n true else w := by
  subst hw hy
  simp only [State.beFault, hf, hp, hs, Option.isSome_none, Bool.not_true, Bool.or_self, Bool.false_eq_true, if_false]

/-- R184: a back-end of a channel that it does not serve only reports its fault. -/
theorem State.beFault_of_idle (hs : y.serves b = none) (hb : y.beChannel b = some n) :
    s.beFault b = y.raise .TCH_BE_EVENT_FAULT n := by
  subst hy
  simp only [State.beFault, hf, hp, hs, hb, Option.isSome_none, Bool.not_true, Bool.or_self, Bool.false_eq_true, if_false]

/-- R184: the back-end of a loop-back, of PPS_IN or of SYSREF leaves a gap in its own source. -/
theorem State.beFault_of_loopback (hs : y.serves b = none) (hb : y.beChannel b = none) :
    s.beFault b = if (y.src b).taking then y.beginCause b 2 false else y := by
  subst hy
  simp only [State.beFault, hf, hp, hs, hb, Option.isSome_none, Bool.not_true, Bool.or_self, Bool.false_eq_true, if_false]

end

theorem exec_backendFault_of_eq {t : Nat} {y : State} (hb : isBackEnd b = true) (h : (s.at t).beFault b = y) :
    exec (.backendFault t b) s = .next y := (if_pos hb).trans (congrArg Host.Outcome.next h)

theorem exec_interpolatorNoHits_eq {t : Nat} (hb : isBackEnd b = true) :
    exec (.interpolatorNoHits t b) s = .next (if (s.at t).noHits b then (s.at t).beFault b else s.at t) := if_pos hb

end

/-- Settles O24: each change-over at its time, and a fault by what the back-end serves. -/
theorem substitutionEventsTakeEffect : Obligations.SubstitutionEventsTakeEffect := by
  intro s u t hu
  subst hu
  refine ⟨fun n c count x w z y hn hc h hw hz hy => ?_, fun n c count x hn hc h => ?_, fun n c hn hc h1 hnow hd h4 => ?_,
    fun n c x ret z y hn hc h hret hz hy => ?_, fun b y hb hf hp hy => ⟨fun n z w hs hz hw => ⟨fun ha hu => ?_, fun h => ?_⟩,
      fun n hs hbn => ?_, fun hs hbn => ⟨fun ht => ?_, fun ht => ?_⟩⟩, fun b hb h => ?_,
    fun b hb => ⟨fun h => ⟨?_, ?_⟩, fun h => ?_⟩⟩
  · subst hc
    exact (if_pos hn).trans (congrArg Host.Outcome.next ((State.switchOver_of_due h).trans (State.switchAt_of_counter hw hz hy)))
  · subst hc
    exact (if_pos hn).trans (congrArg Host.Outcome.next (State.switchOver_of_early h))
  · subst hc
    exact (if_pos hn).trans (congrArg Host.Outcome.next (State.warmupOver_of_late h1 hnow hd h4))
  · subst hy hz hret hc
    exact (if_pos hn).trans (congrArg Host.Outcome.next (State.rejoin_of_due h))
  · subst hz
    exact exec_backendFault_of_eq hb ((State.beFault_of_serving hf hp hy hs hw).trans (if_pos (by simp [ha, hu])))
  · subst hz
    refine exec_backendFault_of_eq hb ((State.beFault_of_serving hf hp hy hs hw).trans (if_neg ?_))
    obtain h | h := h
    · simp [h]
    · simp [h]
  · exact exec_backendFault_of_eq hb (State.beFault_of_idle hf hp hy hs hbn)
  · exact exec_backendFault_of_eq hb ((State.beFault_of_loopback hf hp hy hs hbn).trans (if_pos ht))
  · exact exec_backendFault_of_eq hb ((State.beFault_of_loopback hf hp hy hs hbn).trans (if_neg (by simp [ht])))
  · exact exec_backendFault_of_eq hb (State.beFault_of_stopped h)
  · exact (exec_interpolatorNoHits_eq hb).trans (congrArg Host.Outcome.next (if_pos h))
  · exact exec_backendFault_of_eq hb rfl
  · exact (exec_interpolatorNoHits_eq hb).trans (congrArg Host.Outcome.next (if_neg (by simp [h])))

end Sys2Proof.Machine
end

section
/-!
Data of the converter links and the start of a waveform channel (R191-R193, R206, R211, R212, R214).
-/

namespace Sys2Proof.Machine

/-! ## The start of a channel -/

section
variable {s : State} {n : Nat}

/-- R214: the chain at the start of a channel: one that ran before it (`runs`) goes to the user that R215 gives; one that starts takes
the stages of its user after 2048 samples, and the estimates that it keeps. -/
def State.startedChain (s : State) (m : Nat) (runs : Bool) : State :=
  if runs then s.reuser m s.tick
  else s.setWave m { s.wave m with
    sets := [{ s.waveSet (s.chainUser m) s.tick with change := 3, len := 2048 }]
    set := { s.waveSet (s.chainUser m) s.tick with change := 3, len := 0 }
    corr := (s.wave m).kept.getD (0, 0, 0) }

/-- R211, R212: the first opening of a channel that starts, by its window mode. -/
def State.firstOpening (s : State) (n : Nat) (start : Int) : State :=
  match s.get .WCH_WIN_CFG_MODE n with
  | 0 => s.openWindow n start
  | 1 =>
    let period := s.get .WCH_WIN_PERIOD_COARSE n * 2048
    let first := (s.timerOpening n 0).getD 0
    if period = 0 then
      if first < start then (s.setWave n { s.wave n with nextJ := 1 }).missWindow n else s
    else s.setWave n { s.wave n with nextJ := ((start - first).toNat + (period - 1)) / period }
  | _ => s

theorem State.startIngest_of_ready {m : Nat} {start : Int} (hm : m = s.chainOf n) (ha : (s.wave n).armed = true)
    (hs : (s.wave n).startAt = none) (hv : s.time.valid = true) (hh : s.startsHeld = false) (hal : s.slotsAligned m = true)
    (hst : start = ceilCoarse (s.recTick (144 + n))) :
    s.startIngest n = (((s.setWave n { s.wave n with startAt := some s.now }).setSure (144 + n) (start - 2048)).startedChain m
      (s.chainRuns m)).firstOpening n start := by
  subst hm hst
  refine if_neg ?_
  simp [ha, hs, hv, hh, hal]

theorem State.firstOpening_of_armMode {start : Int} (h : s.get .WCH_WIN_CFG_MODE n = 0) :
    s.firstOpening n start = s.openWindow n start := by
  simp only [State.firstOpening, h]

/-- R212: a TIMER channel of one opening that the start is past misses it. -/
theorem State.firstOpening_of_single_past {start : Int} (h : s.get .WCH_WIN_CFG_MODE n = 1)
    (hp : s.get .WCH_WIN_PERIOD_COARSE n = 0) (hlt : (s.timerOpening n 0).getD 0 < start) :
    s.firstOpening n start = (s.setWave n { s.wave n with nextJ := 1 }).missWindow n := by
  simp only [State.firstOpening, h, hp, Nat.zero_mul, if_true, if_pos hlt]

theorem State.firstOpening_of_single_ahead {start : Int} (h : s.get .WCH_WIN_CFG_MODE n = 1)
    (hp : s.get .WCH_WIN_PERIOD_COARSE n = 0) (hle : start ≤ (s.timerOpening n 0).getD 0) : s.firstOpening n start = s := by
  simp only [State.firstOpening, h, hp, Nat.zero_mul, if_true, if_neg (not_lt.mpr hle)]

/-- R211: a TIMER channel that repeats goes on with its first opening that is not before the start. -/
theorem State.firstOpening_of_periodic {start : Int} {per : Nat} (h : s.get .WCH_WIN_CFG_MODE n = 1)
    (hp : per = s.get .WCH_WIN_PERIOD_COARSE n * 2048) (h0 : 0 < per) :
    s.firstOpening n start = s.setWave n { s.wave n with
      nextJ := ((start - (s.timerOpening n 0).getD 0).toNat + (per - 1)) / per } := by
  simp only [State.firstOpening, h, ← hp, if_neg h0.ne']

/-- R211: a MARKER channel waits for its marker. -/
theorem State.firstOpening_of_markerMode {start : Int} (h : 2 ≤ s.get .WCH_WIN_CFG_MODE n) : s.firstOpening n start = s := by
  unfold State.firstOpening
  split
  · omega
  · omega
  · rfl

end

/-! ## An extended multiblock -/

/-- R193: whether sample `j` of slot `x` of a chain lies in a multiblock in error. -/
def badSample (bad : List (Nat × Nat)) (x j : Nat) : Bool := bad.any fun q => q.1 == x && inMultiblock q.2 j

section
variable {s y : State} {m : Nat} {a b : List Int} (hy : y = s.setWave m { s.wave m with badIn := [] })
include hy

/-- A pair of slots of which one brings no sample takes none. -/
theorem State.releaseEmb_of_pair_empty (hp : y.get .WCH_SOURCE_PAIR m = 0) (h : a = [] ∨ b = []) :
    s.releaseEmb m a b = y.stopChain m := by
  have hlen : min a.length b.length = 0 := by rcases h with rfl | rfl <;> simp
  subst hy
  simp only [State.releaseEmb, hp, hlen, List.range_zero, List.foldl_nil]

variable {bad : List (Nat × Nat)} (hbad : bad = (s.wave m).badIn)
include hbad

/-- R191, R194: a chain on one slot takes the samples of that slot, in order. -/
theorem State.releaseEmb_of_single {x : Nat} {l : List Int}
    (h : y.get .WCH_SOURCE_PAIR m = 1 ∧ x = 0 ∧ l = a ∨ y.get .WCH_SOURCE_PAIR m = 2 ∧ x = 1 ∧ l = b) :
    s.releaseEmb m a b = ((List.range l.length).foldl (fun v j =>
      v.chainSample m (s.lemcEdge m - y.signed .WCH_CV_LAT_TICKS (2 * m + x) * 3125 + (j * v.spacing m : Nat))
        (128 * l.getD j 0) (l.getD j 0 == -2048 || l.getD j 0 == 2047) (badSample bad x j)) y).stopChain m := by
  subst hbad hy
  rcases h with ⟨hp, rfl, rfl⟩ | ⟨hp, rfl, rfl⟩ <;> simp only [State.releaseEmb, hp, badSample]

/-- R191, R196: a pair of slots takes its samples in turn, corrected together. -/
theorem State.releaseEmb_of_pair {va vb x0 : Int} {bd : Bool × Bool} {w : (Int × Int) × State} {x1 : State}
    (hp : y.get .WCH_SOURCE_PAIR m = 0) (ha : a = [va]) (hb : b = [vb])
    (hbd : bd = (badSample bad 0 0, badSample bad 1 0)) (hw : w = y.correctPair m va vb (bd.1 || bd.2))
    (hx0 : x0 = s.lemcEdge m - y.signed .WCH_CV_LAT_TICKS (2 * m) * 3125)
    (hx1 : x1 = w.2.chainSample m (x0 + (2 * 0 * w.2.spacing m : Nat)) w.1.1 (va == -2048 || va == 2047) bd.1) :
    s.releaseEmb m a b = (x1.chainSample m (x0 + ((2 * 0 + 1) * x1.spacing m : Nat)) w.1.2
      (vb == -2048 || vb == 2047) bd.2).stopChain m := by
  subst hx1 hx0 hw hbd hbad hy ha hb
  simp only [State.releaseEmb, hp]
  rfl

end

/-! ## The slots -/

section
variable {s : State} {slot : Nat}

theorem State.noteMargin_of_aligned {octets : Nat} (h : (s.slot slot).state = 3) :
    s.noteMargin slot octets = s.setSlot slot { s.slot slot with margins :=
      ((s.slot slot).margins.filter fun x => decide (s.now ≤ x.1 + qSec) && decide (x.2 < octets)) ++ [(s.now, octets)] } :=
  if_pos h

/-- R193: a margin that is left is noted, and no fault. -/
theorem State.checkMargin_of_pos {octets : Nat} (h : 0 < octets) : s.checkMargin slot octets = s.noteMargin slot octets :=
  if_neg fun hc => h.ne' hc.1

/-- R193: a CRC-12 mismatch joins those of the last millisecond; the sixteenth is an ingest fault. -/
theorem State.crcMismatch_of_feeding {y : State} {bad : List Nat} (h3 : (s.slot slot).state = 3) (hf : s.slotFeeds slot = true)
    (hy : y = s.crcError slot)
    (hbad : bad = y.now :: ((y.slot slot).bad.filter fun x => decide (y.now < x + qMs)).take 15) :
    s.crcMismatch slot = if 16 ≤ bad.length then (y.setSlot slot { y.slot slot with bad := bad }).ingestFault slot
      else y.setSlot slot { y.slot slot with bad := bad } := by
  subst hbad hy
  exact if_pos ⟨h3, hf⟩

theorem State.slotLost_of_feeding (h3 : (s.slot slot).state = 3) (hf : s.slotFeeds slot = true) :
    s.slotLost slot = s.ingestFault slot := by
  simp only [State.slotLost, h3, hf, Nat.reduceLT, and_self, if_false, if_true]

/-- R193: a slot that feeds no armed channel falls back to BLOCK (log entry 43). -/
theorem State.slotLost_of_idle (h2 : 2 ≤ (s.slot slot).state) (h : ¬ ((s.slot slot).state = 3 ∧ s.slotFeeds slot = true)) :
    s.slotLost slot = s.setSlot slot { s.slot slot with state := 1, bad := [] } := by
  simp only [State.slotLost, if_neg (Nat.not_lt.mpr h2), if_neg h]

end

/-! ## The commands -/

section
variable {s : State} {t n slot : Nat}

theorem exec_ingestStart (hn : n < numWaves) : exec (.ingestStart t n) s = .next ((s.at t).startIngest n) := if_pos hn

theorem exec_jesdCrcError (hn : slot < numSlots) : exec (.jesdCrcError t slot) s = .next ((s.at t).crcMismatch slot) := if_pos hn

theorem exec_ingestFault (hn : slot < numSlots) : exec (.ingestFault t slot) s = .next ((s.at t).slotLost slot) := if_pos hn

/-- R191: a slot in BLOCK that has lock waits for SYSREF in EMB. -/
theorem exec_embLock_of_block (hn : slot < numSlots) (h : ((s.at t).slot slot).state = 1) :
    exec (.embLock t slot) s = .next ((s.at t).setSlot slot { (s.at t).slot slot with state := 2 }) :=
  (if_pos hn).trans (congrArg Host.Outcome.next (if_pos h))

section
variable {m ma mb : Nat} {a b : List Int} {v : State} (hm : m < numWaves)
  (hv : v = ((s.at t).checkMargin (2 * m) ma).checkMargin (2 * m + 1) mb)
include hm hv

theorem exec_embRelease_of_flowing (hf : v.flowing m = true) (hh : v.time.halted = false) :
    exec (.embRelease t m a b ma mb) s = .next (v.releaseEmb m a b) := by
  subst hv
  exact (if_pos hm).trans (congrArg Host.Outcome.next (if_pos (by simp [hf, hh])))

/-- R191: where no data flows a release leaves only its margins. -/
theorem exec_embRelease_of_stopped (h : v.flowing m = false ∨ v.time.halted = true) :
    exec (.embRelease t m a b ma mb) s = .next v := by
  subst hv
  exact (if_pos hm).trans (congrArg Host.Outcome.next (if_neg (by rcases h with h | h <;> simp [h])))

end

end

/-- Settles O27: a start by the window mode, a release by the slots that the chain uses, and the faults of a slot by what it
feeds. -/
theorem ingestEventsTakeEffect : Obligations.IngestEventsTakeEffect := by
  intro s u t hu
  subst hu
  refine ⟨fun n c m y z start hn hc hm ha hs hv hh hal hst hy hz => ?_, fun m a b ma mb v y bad hm hv hbad hy => ⟨fun h => ?_,
      fun hf hh => ⟨fun x l h => ?_, fun hp h => ?_, fun va vb bd w x0 x1 hp ha hb hbd hw hx0 hx1 => ?_⟩⟩,
    fun slot octets h3 => ⟨State.noteMargin_of_aligned h3, fun h0 => State.checkMargin_of_pos h0⟩,
    fun slot y bad hn h3 hf hy hbad => ?_, fun slot hn => ⟨fun h3 hf => ?_, fun h2 h => ?_, fun h => exec_embLock_of_block hn h⟩⟩
  · subst hc
    have hstart : exec (.ingestStart t n) s = .next (z.firstOpening n start) := by
      rw [exec_ingestStart hn, State.startIngest_of_ready hm ha hs hv hh hal hst, ← hy, hz]
      rfl
    rw [hstart]
    exact ⟨fun h => by rw [State.firstOpening_of_armMode h],
      fun h hp => ⟨fun hlt => by rw [State.firstOpening_of_single_past h hp hlt],
        fun hle => by rw [State.firstOpening_of_single_ahead h hp hle]⟩,
      fun per h hp h0 => by rw [State.firstOpening_of_periodic h hp h0],
      fun h => by rw [State.firstOpening_of_markerMode h]⟩
  · exact exec_embRelease_of_stopped hm hv h
  · rw [exec_embRelease_of_flowing hm hv hf hh, State.releaseEmb_of_single hy hbad h]
    rfl
  · rw [exec_embRelease_of_flowing hm hv hf hh, State.releaseEmb_of_pair_empty hy hp h]
  · rw [exec_embRelease_of_flowing hm hv hf hh, State.releaseEmb_of_pair hy hbad hp ha hb hbd hw hx0 hx1]
  · rw [exec_jesdCrcError hn, State.crcMismatch_of_feeding h3 hf hy hbad]
    exact ⟨fun hlt => by rw [if_neg (Nat.not_le.mpr hlt)], fun heq => by rw [if_pos heq.ge]; rfl⟩
  · rw [exec_ingestFault hn, State.slotLost_of_feeding h3 hf]
    rfl
  · rw [exec_ingestFault hn, State.slotLost_of_idle h2 h]

end Sys2Proof.Machine
end

section
/-!
The windows of a waveform channel (R193, R202, R204, R211-R213, R215): the opening that falls due, the close of a window, what
the stream has reached, and the end of the convergence interval.
-/

namespace Sys2Proof.Machine

section
variable {s : State} {n : Nat} {o : Int}

/-! ## Openings -/

theorem State.windowDue_of_reached (ho : s.nextOpening n = some o) (ha : (s.wave n).armed = true)
    (hs : (s.wave n).startAt ≠ none) (hd : o ≤ s.recTick (144 + n)) :
    s.windowDue n =
      (s.setWave n { s.wave n with nextJ := (s.wave n).nextJ + 1, due := (s.wave n).due.drop 1 }).openWindow n o := by
  simp only [State.windowDue, ho]
  exact if_pos ⟨ha, Option.isSome_iff_ne_none.mpr hs, hd⟩

/-- R212: an opening while a window is open, or while another opening waits, is missed. -/
theorem State.openWindow_of_busy
    (h : (s.wave n).waiting ≠ none ∨ ∃ w ∈ (s.wave n).wins, w.shut = false ∧ w.before o = true) :
    s.openWindow n o = s.missWindow n := by
  refine if_pos ?_
  rcases h with h | ⟨w, hw, hshut, hbefore⟩
  · simp [Option.isSome_iff_ne_none.mpr h]
  · have hany : ((s.wave n).wins.any fun w => !w.shut && w.before o) = true :=
      List.any_eq_true.mpr ⟨w, hw, by simp [hshut, hbefore]⟩
    simp [hany]

section
variable (hwait : (s.wave n).waiting = none) (hwins : ∀ w ∈ (s.wave n).wins, w.shut = true ∨ w.before o = false)
include hwait hwins

/-- A channel with no window open and none waiting takes its opening by the class of the channel. -/
theorem State.openWindow_of_free :
    s.openWindow n o =
      if s.flag .WCH_SOURCE_CLASS n then
        (((s.preempt n o).pushWindow n o o false).reuser (s.chainOf n) (o + s.delayOf (144 + n))).followWindows n
      else if (s.users (s.chainOf n)).any fun g => s.flag .WCH_SOURCE_CLASS g && (s.wave g).isOpen then
        ((s.setWave n { s.wave n with waiting := some { opened := o, requested := o, closes := none } }).count
          .WCH_PREEMPT_COUNT n).raise .WCH_EVENT_PREEMPTED n
      else ((s.pushWindow n o o false).reuser (s.chainOf n) (o + s.delayOf (144 + n))).followWindows n := by
  refine if_neg ?_
  have hnone : ((s.wave n).wins.any fun w => !w.shut && w.before o) = false :=
    List.any_eq_false.mpr fun w hw => by rcases hwins w hw with h | h <;> simp [h]
  simp [hnone, hwait]

/-- R215: a guard window preempts the survey window of its chain. -/
theorem State.openWindow_of_guard (hc : s.flag .WCH_SOURCE_CLASS n = true) :
    s.openWindow n o =
      (((s.preempt n o).pushWindow n o o false).reuser (s.chainOf n) (o + s.delayOf (144 + n))).followWindows n :=
  (State.openWindow_of_free hwait hwins).trans (if_pos hc)

/-- R215: a survey opening under a guard window waits for its close. -/
theorem State.openWindow_of_preempted (hc : s.flag .WCH_SOURCE_CLASS n = false)
    (hg : ((s.users (s.chainOf n)).any fun g => s.flag .WCH_SOURCE_CLASS g && (s.wave g).isOpen) = true) :
    s.openWindow n o =
      ((s.setWave n { s.wave n with waiting := some { opened := o, requested := o, closes := none } }).count
        .WCH_PREEMPT_COUNT n).raise .WCH_EVENT_PREEMPTED n :=
  (State.openWindow_of_free hwait hwins).trans ((if_neg (by simp [hc])).trans (if_pos hg))

theorem State.openWindow_of_survey (hc : s.flag .WCH_SOURCE_CLASS n = false)
    (hg : ((s.users (s.chainOf n)).any fun g => s.flag .WCH_SOURCE_CLASS g && (s.wave g).isOpen) = false) :
    s.openWindow n o =
      ((s.pushWindow n o o false).reuser (s.chainOf n) (o + s.delayOf (144 + n))).followWindows n :=
  (State.openWindow_of_free hwait hwins).trans ((if_neg (by simp [hc])).trans (if_neg (by simp [hg])))

end

/-! ## Closes -/

/-- R213, R215: a window whose length has passed closes; the close of a guard window lets the survey window restart. -/
theorem State.shutWindow_of_due {w : Window} {x : Int} {y z : State} (hw : (s.wave n).wins.find? (fun v => !v.shut) = some w)
    (hx : w.closes = some x) (hd : x ≤ s.recTick (144 + n))
    (hy : y = s.setWave n { s.wave n with wins := (s.wave n).wins.map fun v => if v.shut then v else { v with shut := true } })
    (hz : z = if y.flag .WCH_SOURCE_CLASS n then y.guardClosed n x else y) :
    s.shutWindow n = (z.followWindows n).stopChain (z.chainOf n) := by
  simp only [State.shutWindow, hw, hx, if_pos hd, ← hy, ← hz]

/-! ## What the stream has reached -/

/-- A repeated operation that leaves a state as it is leaves it however often it runs. -/
theorem times_of_fixed {α : Type} {f : α → α} {a : α} (h : f a = a) (k : Nat) : times f k a = a :=
  times_pred (P := (· = a)) (fun b hb => by rw [hb, h]) rfl

theorem Window.above_of_open {w : Window} {rec : Int} (h : w.shut = false ∨ w.before rec = true) : w.above rec = false := by
  rcases h with h | h
  · simp [Window.above, h]
  · cases hc : w.closes with
    | none => simp [Window.above, hc]
    | some x =>
      have hlt : rec < x := by simpa [Window.before, hc] using h
      simp [Window.above, hc, hlt]

/-- Within a window that has begun and whose close is not reached, the stream meets no opening and no close. -/
theorem State.windowEvent_of_inside {w : Window} {ws : List Window} {rec : Int} (hw : (s.wave n).wins = w :: ws)
    (hb : w.begun = true) (ha : w.above rec = false) : s.windowEvent n rec = s := by
  simp only [State.windowEvent, hw, hb, ha, Bool.not_true, Bool.false_eq_true, if_false]

theorem State.advance_of_inside {w : Window} {ws : List Window} {rec : Int} (hw : (s.wave n).wins = w :: ws)
    (hb : w.begun = true) (ha : w.above rec = false) :
    s.advance n rec = (s.setSure (144 + n) (min rec (w.closes.getD rec) - 1)).flush (144 + n) := by
  have hstay := times_of_fixed (f := fun v : State => v.windowEvent n rec) (State.windowEvent_of_inside hw hb ha)
  simp only [State.advance, hstay, hw, hb, if_true]

theorem State.followWindows_of_flowing (h : s.flowing (s.chainOf n) = true) :
    s.followWindows n = s.advance n ((s.src (144 + n)).sure + 1) := if_pos h

/-- R193: without data the stream reaches nothing. -/
theorem State.followWindows_of_idle (h : s.flowing (s.chainOf n) = false) : s.followWindows n = s.idleWindows n :=
  if_neg (by simp [h])

end

/-! ## The commands -/

section
variable {s : State} {t n : Nat}

theorem exec_windowOpen (hn : n < numWaves) : exec (.windowOpen t n) s = .next ((s.at t).windowDue n) := if_pos hn

theorem exec_windowClose (hn : n < numWaves) : exec (.windowClose t n) s = .next ((s.at t).shutWindow n) := if_pos hn

theorem exec_waveformSettleEnd (hn : n < numWaves) : exec (.waveformSettleEnd t n) s = .next ((s.at t).followWindows n) :=
  if_pos hn

/-- R204: the convergence interval ends once all its samples have passed. -/
theorem exec_convEnd_of_passed {m : Nat} (hn : n < numWaves) (hm : m = (s.at t).chainOf n) (h : ((s.at t).wave m).conv = 0) :
    exec (.convEnd t n) s = .next ((s.at t).setWave m { (s.at t).wave m with convOn := false }) := by
  subst hm
  exact (if_pos hn).trans (congrArg Host.Outcome.next (if_pos h))

end

/-- Settles O28: an opening by what it finds, a close at its instant, a settle as far as the stream has reached. -/
theorem waveformWindowEventsTakeEffect : Obligations.WaveformWindowEventsTakeEffect := by
  intro s u t n m c hu hn hc hm
  subst hu hc
  refine ⟨fun o y ho ha hs hd hy => ?_, fun w x y z hw hx hd hy hz => ?_, fun w ws sure hf hw hb hsure hopen => ?_,
    fun hf => ?_, fun h => exec_convEnd_of_passed hn hm h⟩
  · have hexec : exec (.windowOpen t n) s = .next (y.openWindow n o) := by
      rw [exec_windowOpen hn, State.windowDue_of_reached ho ha hs hd, ← hy]
    rw [hexec]
    exact ⟨fun h => congrArg Host.Outcome.next (State.openWindow_of_busy h), fun hwait hwins =>
      ⟨fun hg => congrArg Host.Outcome.next (State.openWindow_of_guard hwait hwins hg), fun hsv =>
        ⟨fun hg => congrArg Host.Outcome.next (State.openWindow_of_preempted hwait hwins hsv hg),
          fun hg => congrArg Host.Outcome.next (State.openWindow_of_survey hwait hwins hsv hg)⟩⟩⟩
  · rw [exec_windowClose hn, State.shutWindow_of_due hw hx hd hy hz]
  · subst hm hsure
    rw [exec_waveformSettleEnd hn, State.followWindows_of_flowing hf,
      State.advance_of_inside hw hb (Window.above_of_open hopen)]
  · subst hm
    rw [exec_waveformSettleEnd hn, State.followWindows_of_idle hf]

end Sys2Proof.Machine
end

section
/-!
Crystallisers (R216, R288, R291-R293): FREEZE, CLEAR and RELEASE as register writes, the end of a clear, of a staging merge and
of a sweep.
-/

namespace Sys2Proof.Machine

/-! ## The commands as register writes -/

section
variable {s a : State} {t p n : Nat}

theorem exec_freeze_one (hp : isPort p = true) (hn : n < numUnits) (h : takesWriteIn (s.at t) p .CRY_CTL n 1 a) :
    exec (.freeze t p n 1) s = .next (reported (a.freezeCry n true) p) :=
  (if_pos ⟨hn, hp⟩).trans (congrArg Host.Outcome.next (State.hostWrite_effect (Command.CRY_CTL hn) (by rfl) (by rfl) h))

theorem exec_freeze_zero (hp : isPort p = true) (hn : n < numUnits) (h : takesWriteIn (s.at t) p .CRY_CTL n 0 a) :
    exec (.freeze t p n 0) s = .next (reported (a.freezeCry n false) p) :=
  (if_pos ⟨hn, hp⟩).trans (congrArg Host.Outcome.next (State.hostWrite_effect (Command.CRY_CTL hn) (by rfl) (by rfl) h))

theorem exec_clear (hp : isPort p = true) (hn : n < numUnits) (h : takesWriteIn (s.at t) p .CRY_CMD n 1 a) :
    exec (.clear t p n) s = .next (reported (a.clearCry n) p) :=
  (if_pos ⟨hn, hp⟩).trans (congrArg Host.Outcome.next (State.hostWrite_effect (Command.CRY_CMD hn) (by rfl) (by rfl) h))

theorem exec_release (hp : isPort p = true) (hn : n < numUnits) (h : takesWriteIn (s.at t) p .CRY_CMD n 2 a) :
    exec (.release t p n) s = .next (reported (a.releaseCry n) p) :=
  (if_pos ⟨hn, hp⟩).trans (congrArg Host.Outcome.next (State.hostWrite_effect (Command.CRY_CMD hn) (by rfl) (by rfl) h))

end

/-- A write that is taken leaves the crystallisers; only its effect changes them. -/
theorem State.cry_of_taken {u a : State} {p n i w : Nat} {r : Reg} (h : takesWriteIn u p r i w a) : a.cry n = u.cry n := by
  obtain ⟨-, rfl⟩ := h
  rfl

/-! ## What they do to the crystalliser -/

section
variable {s b : State} {n : Nat}

theorem State.freezeCry_of_resting (hb : b = s.put .CRY_CTL_FREEZE n 1) (hf : (s.cry n).frozen = false)
    (hs : (s.cry n).freezes = false) (hc : (s.cry n).clearEnd = none) (hm : (s.cry n).kind ≠ 2 ∨ (s.cry n).sweep = none) :
    s.freezeCry n true = b.setCry n { s.cry n with frozen := true } := by
  have hbusy : ((s.cry n).clearEnd.isSome || ((s.cry n).kind == 2 && (s.cry n).sweep.isSome)) = false := by
    rcases hm with hm | hm <;> simp [hc, hm]
  subst hb
  simp only [State.freezeCry, hf, hs, hbusy, Bool.not_true, Bool.or_self, Bool.false_eq_true, if_false]
  rfl

/-- R291, R293: a clear or a sweep in progress ends first. -/
theorem State.freezeCry_of_running (hb : b = s.put .CRY_CTL_FREEZE n 1) (hf : (s.cry n).frozen = false)
    (hs : (s.cry n).freezes = false) (h : (s.cry n).clearEnd ≠ none ∨ (s.cry n).kind = 2 ∧ (s.cry n).sweep ≠ none) :
    s.freezeCry n true = b.setCry n { s.cry n with freezes := true } := by
  have hbusy : ((s.cry n).clearEnd.isSome || ((s.cry n).kind == 2 && (s.cry n).sweep.isSome)) = true := by
    rcases h with h | ⟨h2, h⟩
    · simp [Option.isSome_iff_ne_none.mpr h]
    · simp [h2, Option.isSome_iff_ne_none.mpr h]
  subst hb
  simp only [State.freezeCry, hf, hs, hbusy, Bool.not_true, Bool.or_self, Bool.false_eq_true, if_false, if_true]
  rfl

/-- R291: FREEZE of a crystalliser that is frozen, or freezes already, writes its bit alone. -/
theorem State.freezeCry_of_frozen (h : (s.cry n).frozen = true ∨ (s.cry n).freezes = true) :
    s.freezeCry n true = s.put .CRY_CTL_FREEZE n 1 :=
  if_pos (show ((s.cry n).frozen || (s.cry n).freezes) = true by rcases h with h | h <;> simp [h])

theorem State.clearCry_of_idle (h : (s.cry n).mergeEnd = none) :
    s.clearCry n = s.setCry n { s.cry n with
      clearEnd := some (s.now + (s.cry n).granules.length * 3200 * qNs), clearReq := false, sweep := none } := by
  simp only [State.clearCry, h, granuleTime]

/-- R293: a CLEAR waits for a merge in progress. -/
theorem State.clearCry_of_merging (h : (s.cry n).mergeEnd ≠ none) :
    s.clearCry n = s.setCry n { s.cry n with clearReq := true } := by
  obtain ⟨x, hx⟩ := Option.ne_none_iff_exists'.mp h
  simp only [State.clearCry, hx]

/-! ## What ends by itself -/

/-- R291: a clear that is due leaves every bin, cell and counter at zero; a FREEZE that waited for it takes effect. -/
theorem State.endClear_of_due {x : Nat} {y z : State} (hc : (s.cry n).clearEnd = some x) (hx : x ≤ s.now)
    (hy : y = (s.cry n).granules.foldl State.zeroGranule s)
    (hz : z = ((((List.range 8).foldl (fun v h =>
      (((v.put .CRY_H_UNDER_COUNT (histKey n h) 0).put .CRY_H_OVER_COUNT (histKey n h) 0).put
        .CRY_H_TOTAL_COUNT (histKey n h) 0).put .CRY_H_STATUS_SAT (histKey n h) 0) y).put .CRY_MAP_SWEEPS_COUNT n 0).put
          .CRY_MAP_SKIPPED_COUNT n 0).put .CRY_MAP_CLIP_COUNT n 0) :
    s.endClear n = (z.put .CRY_MAP_STATUS_SAT n 0).setCry n { (z.put .CRY_MAP_STATUS_SAT n 0).cry n with
      clearEnd := none, frozen := (s.cry n).frozen || (s.cry n).freezes, freezes := false } := by
  simp only [State.endClear, hc, if_neg (Nat.not_lt.mpr hx), ← hy, ← hz]

theorem State.endMerge_of_nothing {x : Nat} (hm : (s.cry n).mergeEnd = some x) (hx : x ≤ s.now)
    (h : (s.cry n).staging = [] ∨ (s.cry n).granules = []) (hr : (s.cry n).clearReq = false) :
    s.endMerge n = s.setCry n { s.cry n with mergeEnd := none } := by
  have hzip : List.zip (s.cry n).staging (s.cry n).granules = [] := by
    rcases h with h | h <;> simp [h]
  simp only [State.endMerge, hm, if_neg (Nat.not_lt.mpr hx), hzip, hr, List.foldl_nil, Bool.false_eq_true, if_false]

/-- R292, R293: the cells of the staging granule are added to those of the other, and a clear that waited starts. -/
theorem State.endMerge_of_granule {x g d w : Nat} {y : State} (hm : (s.cry n).mergeEnd = some x) (hx : x ≤ s.now)
    (hg : (s.cry n).staging = [g]) (hd : (s.cry n).granules = [d]) (hw : w = if (s.cry n).kind = 2 then 2 else 4)
    (hsat : (s.mergeCells g d w).2 = false)
    (hy : y = (s.mergeCells g d w).1.setCry n { (s.mergeCells g d w).1.cry n with mergeEnd := none }) :
    s.endMerge n = if (s.cry n).clearReq then y.clearCry n else y := by
  simp only [State.endMerge, hm, if_neg (Nat.not_lt.mpr hx), hg, hd, ← hw, List.zip_cons_cons, List.zip_nil_left,
    List.foldl_cons, List.foldl_nil, hsat, Bool.false_eq_true, if_false, ← hy]

/-- R288: a sweep that has covered its columns is counted; a FREEZE that waited for it takes effect. -/
theorem State.endSweep_of_covered {x : Int} {k : Nat} (hs : (s.cry n).sweep = some (x, k))
    (hk : 1024 * max 1 (s.get .CRY_MAP_CFG_COLW n) ≤ k) :
    s.endSweep n = (s.setCry n { s.cry n with
      sweep := none, frozen := (s.cry n).frozen || (s.cry n).freezes, freezes := false }).count .CRY_MAP_SWEEPS_COUNT n := by
  simp only [State.endSweep, hs, if_pos hk]

end

/-- Settles O32: the host's commands are register writes, and each event is one lemma on what falls due. -/
theorem crystalliserCommandsTakeEffect : Obligations.CrystalliserCommandsTakeEffect := by
  intro s u a t p n c hu hn hc
  subst hu
  refine ⟨fun b hp h hb => ?_, fun hp h => ?_, fun hp h => ?_, fun hp h => ?_,
    fun x y z hx hnow hy hz => ?_, fun x hx hnow => ⟨fun h hr => ?_, fun g d w y hg hd hw hsat hy => ?_⟩, fun x k hx hk => ?_⟩
  · obtain rfl : c = a.cry n := hc.trans (State.cry_of_taken h).symm
    rw [exec_freeze_one hp hn h]
    exact ⟨fun hf hs hcl hm => by rw [State.freezeCry_of_resting hb hf hs hcl hm],
      fun hf hs hrun => by rw [State.freezeCry_of_running hb hf hs hrun],
      fun hfz => by rw [State.freezeCry_of_frozen hfz, hb]⟩
  · obtain rfl : c = a.cry n := hc.trans (State.cry_of_taken h).symm
    exact exec_freeze_zero hp hn h
  · obtain rfl : c = a.cry n := hc.trans (State.cry_of_taken h).symm
    rw [exec_clear hp hn h]
    exact ⟨fun hm => by rw [State.clearCry_of_idle hm], fun hm => by rw [State.clearCry_of_merging hm]⟩
  · obtain rfl : c = a.cry n := hc.trans (State.cry_of_taken h).symm
    exact exec_release hp hn h
  · subst hc
    exact (if_pos hn).trans (congrArg Host.Outcome.next (State.endClear_of_due hx hnow hy hz))
  · subst hc
    exact (if_pos hn).trans (congrArg Host.Outcome.next (State.endMerge_of_nothing hx hnow h hr))
  · subst hc
    exact (if_pos hn).trans (congrArg Host.Outcome.next (State.endMerge_of_granule hx hnow hg hd hw hsat hy))
  · subst hc
    exact (if_pos hn).trans (congrArg Host.Outcome.next (State.endSweep_of_covered hx hk))

end Sys2Proof.Machine
end

section
/-!
The host commands of service life (R247, R430, R438, R441-R443): LEDGER_SYNC, REFRESH, UNIT_RETIRE and UNIT_RETURN as register
writes, and what each does to the unit that it names.
-/

namespace Sys2Proof.Machine

/-! ## The ledger entry and the refresh -/

section
variable {s a : State} {t p : Nat}

theorem exec_ledgerSync (hp : isPort p = true) (h : takesWriteIn (s.at t) p .LIFE_CMD 0 2 a) :
    exec (.ledgerSync t p) s = .next (reported (a.ledger kHourly) p) :=
  (if_pos hp).trans (congrArg Host.Outcome.next (State.hostWrite_effect Command.LIFE_CMD (by rfl) (by rfl) h))

theorem exec_refresh (hp : isPort p = true) (h : takesWriteIn (s.at t) p .LIFE_CMD 0 1 a) :
    exec (.refresh t p) s = .next (reported a.askRefresh p) :=
  (if_pos hp).trans (congrArg Host.Outcome.next (State.hostWrite_effect Command.LIFE_CMD (by rfl) (by rfl) h))

theorem State.askRefresh_of_running (h : s.life.refStage ≠ 0) : s.askRefresh = s := if_pos h

/-- R438: a refresh that can run starts. -/
theorem State.askRefresh_of_runs (h0 : s.life.refStage = 0) (hr : s.refreshRuns = true) : s.askRefresh = s.startRefresh := by
  rw [State.askRefresh, if_neg (not_not_intro h0), if_pos hr]

/-- R438: one that cannot run yet waits (log entry 56). -/
theorem State.askRefresh_of_waits (h0 : s.life.refStage = 0) (hr : s.refreshRuns = false) :
    s.askRefresh = { s with life := { s.life with refWant := true } } := by
  rw [State.askRefresh, if_neg (not_not_intro h0), if_neg (by simp [hr])]

end

/-! ## The word of LIFE_UNIT_CMD: the kind and the index of a unit, with RETIRE or RETURN (R441) -/

section
variable {kind index : Nat} (hk : kind < 4) (hi : index < 64)
include hk hi

theorem State.wordWith_unitCmd (u : State) {f : Fld} (hf : f = .LIFE_UNIT_CMD_RETIRE ∨ f = .LIFE_UNIT_CMD_RETURN) :
    u.wordWith .LIFE_UNIT_CMD 0 [(.LIFE_UNIT_CMD_KIND, kind), (.LIFE_UNIT_CMD_INDEX, index), (f, 1)] =
      kind + index * 2 ^ 8 + 2 ^ f.desc.lo := by
  have e : Reg.LIFE_UNIT_CMD.fields = [.LIFE_UNIT_CMD_KIND, .LIFE_UNIT_CMD_INDEX, .LIFE_UNIT_CMD_RETIRE, .LIFE_UNIT_CMD_RETURN] := rfl
  have ek : Fld.LIFE_UNIT_CMD_KIND.place kind = kind * 2 ^ 0 := Fld.place_fits hk
  have ei : Fld.LIFE_UNIT_CMD_INDEX.place index = index * 2 ^ 8 := Fld.place_fits hi
  have sr : Fld.LIFE_UNIT_CMD_RETIRE.stores = false := rfl
  have st : Fld.LIFE_UNIT_CMD_RETURN.stores = false := rfl
  rcases hf with rfl | rfl
  · have ef : Fld.LIFE_UNIT_CMD_RETIRE.place 1 = 2 ^ Fld.LIFE_UNIT_CMD_RETIRE.desc.lo := rfl
    simp [State.wordWith, e, ek, ei, ef, st, Nat.add_assoc]
  · have ef : Fld.LIFE_UNIT_CMD_RETURN.place 1 = 2 ^ Fld.LIFE_UNIT_CMD_RETURN.desc.lo := rfl
    simp [State.wordWith, e, ek, ei, ef, sr, Nat.add_assoc]

theorem State.wordWith_unitRetire (u : State) : u.wordWith .LIFE_UNIT_CMD 0
    [(.LIFE_UNIT_CMD_KIND, kind), (.LIFE_UNIT_CMD_INDEX, index), (.LIFE_UNIT_CMD_RETIRE, 1)] % 2 ^ 32 =
      kind + index * 2 ^ 8 + 2 ^ 16 := by
  have e : Fld.LIFE_UNIT_CMD_RETIRE.desc.lo = 16 := rfl
  rw [State.wordWith_unitCmd hk hi u (.inl rfl), e]
  omega

theorem State.wordWith_unitReturn (u : State) : u.wordWith .LIFE_UNIT_CMD 0
    [(.LIFE_UNIT_CMD_KIND, kind), (.LIFE_UNIT_CMD_INDEX, index), (.LIFE_UNIT_CMD_RETURN, 1)] % 2 ^ 32 =
      kind + index * 2 ^ 8 + 2 ^ 17 := by
  have e : Fld.LIFE_UNIT_CMD_RETURN.desc.lo = 17 := rfl
  rw [State.wordWith_unitCmd hk hi u (.inr rfl), e]
  omega

/-- A write of LIFE_UNIT_CMD stores KIND and INDEX, and its RETIRE (bit 0 of `key`) or RETURN (bit 1) acts on the unit that
they name. -/
theorem State.writeReg_unitCmd {s b : State} {p key : Nat} (hf : s.Fits)
    (hb : b = (s.put .LIFE_UNIT_CMD_KIND 0 kind).put .LIFE_UNIT_CMD_INDEX 0 index) :
    s.writeReg p .LIFE_UNIT_CMD 0 (kind + index * 2 ^ 8 + key * 2 ^ 16) =
      if key % 2 = 1 then b.retireUnit kind index
      else if key / 2 % 2 = 1 then b.returnUnit kind index
      else b := by
  subst hb
  generalize hw : kind + index * 2 ^ 8 + key * 2 ^ 16 = w
  have ek : w / 2 ^ 0 % 2 ^ 2 = kind := by omega
  have ei : w / 2 ^ 8 % 2 ^ 6 = index := by omega
  have er : wants .LIFE_UNIT_CMD_RETIRE w = decide (key % 2 = 1) := by
    have e : wants .LIFE_UNIT_CMD_RETIRE w = decide (w / 2 ^ 16 % 2 ^ 1 = 1) := by rfl
    rw [e]
    congr 2
    omega
  have et : wants .LIFE_UNIT_CMD_RETURN w = decide (key / 2 % 2 = 1) := by
    have e : wants .LIFE_UNIT_CMD_RETURN w = decide (w / 2 ^ 17 % 2 ^ 1 = 1) := by rfl
    rw [e]
    congr 2
    omega
  have e : s.writeReg p .LIFE_UNIT_CMD 0 w =
      State.effectAo ((s.put .LIFE_UNIT_CMD_KIND 0 (w / 2 ^ 0 % 2 ^ 2)).put .LIFE_UNIT_CMD_INDEX 0 (w / 2 ^ 8 % 2 ^ 6))
        s p .LIFE_UNIT_CMD 0 w := by rfl
  have hf' := State.fits_put hf .LIFE_UNIT_CMD_KIND 0 kind
  have gk : ((s.put .LIFE_UNIT_CMD_KIND 0 kind).put .LIFE_UNIT_CMD_INDEX 0 index).get .LIFE_UNIT_CMD_KIND = kind := by
    rw [State.get_put_fits hf', if_neg (by decide), State.get_put_fits hf, if_pos ⟨rfl, rfl⟩]
    exact Nat.mod_eq_of_lt hk
  have gi : ((s.put .LIFE_UNIT_CMD_KIND 0 kind).put .LIFE_UNIT_CMD_INDEX 0 index).get .LIFE_UNIT_CMD_INDEX = index := by
    rw [State.get_put_fits hf', if_pos ⟨rfl, rfl⟩]
    exact Nat.mod_eq_of_lt hi
  rw [e, ek, ei]
  simp only [State.effectAo, gk, gi, er, et, decide_eq_true_eq]

end

/-! ## The retirement and the return of a unit -/

/-- A write that is taken leaves the register fields; only its effect changes them. -/
theorem State.fits_of_taken {s a : State} {t p i v : Nat} {r : Reg} (hs : Sound s) (h : takesWriteIn (s.at t) p r i v a) :
    a.Fits := by
  obtain ⟨-, rfl⟩ := h
  exact State.fits_at (State.fits_of_sound hs) t

section
variable {s a b : State} {t p kind index : Nat} (hs : Sound s) (hp : isPort p = true) (hk : kind < 4) (hi : index < 64)
  (hb : b = (a.put .LIFE_UNIT_CMD_KIND 0 kind).put .LIFE_UNIT_CMD_INDEX 0 index)
include hs hp hk hi hb

theorem exec_unitRetire (h : takesWriteIn (s.at t) p .LIFE_UNIT_CMD 0 (kind + index * 2 ^ 8 + 2 ^ 16) a) :
    exec (.unitRetire t p kind index) s = .next (reported (b.retireUnit kind index) p) :=
  (if_pos hp).trans (congrArg Host.Outcome.next (State.hostWrite_effect Command.LIFE_UNIT_CMD
    (State.wordWith_unitRetire hk hi _) (State.writeReg_unitCmd (key := 1) hk hi (State.fits_of_taken hs h) hb) h))

theorem exec_unitReturn (h : takesWriteIn (s.at t) p .LIFE_UNIT_CMD 0 (kind + index * 2 ^ 8 + 2 ^ 17) a) :
    exec (.unitReturn t p kind index) s = .next (reported (b.returnUnit kind index) p) :=
  (if_pos hp).trans (congrArg Host.Outcome.next (State.hostWrite_effect Command.LIFE_UNIT_CMD
    (State.wordWith_unitReturn hk hi _) (State.writeReg_unitCmd (key := 2) hk hi (State.fits_of_taken hs h) hb) h))

end

section
variable {b y : State} {index : Nat}

/-- R247, R441: the contexts of an engine that retires move in turn to the engines that go on working. -/
theorem State.retireUnit_engine (hy : y = { b with life := { b.life with engBusy := some (index, true) } }) :
    b.retireUnit 0 index = y.moveContexts ((b.armedContexts.filter fun n => b.engineOf n == index).mapIdx fun i n =>
      (n, y.workEngines.getD (i % max 1 y.workEngines.length) index)) := by
  subst hy
  rfl

/-- R443: what lies above the lowered memory top is lost as the migration begins (log entry 56). -/
theorem State.retireUnit_pseudoChannel (hy : y = { b with life := { b.life with pchBusy := some (index, true) } }) :
    b.retireUnit 1 index = y.dropAbove := by
  subst hy
  rfl

theorem State.retireUnit_sluice
    (hy : y = { b with life := { b.life with sluAt := some b.now } }.setSl index { b.sl index with state := 6 }) :
    b.retireUnit 2 index =
      (y.put .LIFE_SLU_RETIRED_BITS 0 (b.get .LIFE_SLU_RETIRED_BITS ||| 2 ^ index)).unitDone := by
  subst hy
  rfl

/-- R247, R441: the contexts whose home is the engine that returns move back to it. -/
theorem State.returnUnit_engine (hy : y = { b with life := { b.life with engBusy := some (index, false) } }) :
    b.returnUnit 0 index = y.moveContexts
      ((y.armedContexts.filter fun n => n % 24 == index && y.engineOf n != index).map fun n => (n, index)) := by
  subst hy
  rfl

theorem State.returnUnit_pseudoChannel (hy : y = { b with life := { b.life with pchBusy := some (index, false) } }) :
    b.returnUnit 1 index = y := by
  subst hy
  rfl

theorem State.returnUnit_sluice
    (hy : y = ({ b with life := { b.life with sluAt := some b.now } }.clearSluRegs index).setSl index {}) :
    b.returnUnit 2 index = (y.put .LIFE_SLU_RETIRED_BITS 0
      (b.get .LIFE_SLU_RETIRED_BITS &&& ((2 ^ 32 - 1) ^^^ 2 ^ index))).unitDone := by
  subst hy
  rfl

end

/-- Settles O49: each command is its register write; what it does follows the state of the refresh, or the kind of the unit. -/
theorem lifeHostCommandsTakeEffect : Obligations.LifeHostCommandsTakeEffect := by
  intro s u a t p hu hp
  subst hu
  refine ⟨fun h => exec_ledgerSync hp h, fun h => ?refresh, fun kind index b w y hs hk hi hw hb => ?unit⟩
  case refresh =>
    rw [exec_refresh hp h]
    exact ⟨fun h0 => by rw [State.askRefresh_of_running h0], fun h0 hr => by rw [State.askRefresh_of_runs h0 hr]; rfl,
      fun h0 hr => by rw [State.askRefresh_of_waits h0 hr]⟩
  case unit =>
    subst hw
    refine ⟨fun h => ?retire, fun h => ?giveBack⟩
    case retire =>
      rw [exec_unitRetire hs hp hk hi hb h]
      refine ⟨?_, ?_, ?_⟩ <;> rintro rfl hy
      · rw [State.retireUnit_engine hy]
      · rw [State.retireUnit_pseudoChannel hy]
      · rw [State.retireUnit_sluice hy]
    case giveBack =>
      rw [exec_unitReturn hs hp hk hi hb h]
      refine ⟨?_, ?_, ?_⟩ <;> rintro rfl hy
      · rw [State.returnUnit_engine hy]
      · rw [State.returnUnit_pseudoChannel hy]
      · rw [State.returnUnit_sluice hy]

end Sys2Proof.Machine
end

section
/-!
Mask units and verdict rules (R297, R299, R305, R306, R308, R391): the entries that are decided once their spans have passed,
RULE_ENABLE as a register write, the end of a presence window, and the verdict that a link sends.
-/

namespace Sys2Proof.Machine

/-! ## Mask units -/

/-- R297, R299: a mask unit that runs, while the time is not halted, decides the entries of every open instance. -/
theorem State.maskPassed_of_running {s y : State} {n : Nat} (ht : s.time.halted = false) (hr : s.maskRuns n = true)
    (hy : y = s.setMask n { s.mask n with instances := (s.mask n).instances.map fun i =>
      { i with entries := ((List.range i.entries.length).zip i.entries).map fun x => s.decideEntry n x.1 i.ref x.2 } }) :
    s.maskPassed n = y.settleMask n := by
  subst hy
  exact if_neg (by simp [ht, hr])

/-! ## The enable of a rule -/

/-- R305, R407: a write of VD_CFG stores every field but ENABLE, whose write enables or disables the rule. -/
theorem State.writeReg_vdCfg (s : State) (p v w : Nat) :
    s.writeReg p .VD_CFG v w = (s.store .VD_CFG v w fun f => !f.own).enableRule v (bit w 31) := by rfl

theorem exec_ruleEnable {s a y : State} {t p v w en : Nat} (hp : isPort p = true) (hv : v < numRules)
    (hw : w = (s.at t).wordWith .VD_CFG v [(.VD_CFG_ENABLE, en)] % 2 ^ 32) (h : takesWriteIn (s.at t) p .VD_CFG v w a)
    (hy : y = a.store .VD_CFG v w fun f => !f.own) :
    exec (.ruleEnable t p v en) s = .next (reported (y.enableRule v (bit w 31)) p) := by
  subst hy
  exact (if_pos ⟨hv, hp⟩).trans (congrArg Host.Outcome.next
    (State.hostWrite_effect (Command.VD_CFG hv) hw.symm (State.writeReg_vdCfg a p v w) h))

/-- The fields that a write stores leave the verdict rules. -/
theorem State.store_rules (s : State) (r : Reg) (i w : Nat) (q : Fld → Bool) : (s.store r i w q).rules = s.rules :=
  List.foldlRecOn (motive := fun x : State => x.rules = s.rules) _ _ rfl fun _ h _ _ => h

/-- A write that is taken and stored leaves the verdict rules; only its effect changes them. -/
theorem State.rule_of_stored {u a : State} {p i w v : Nat} {r : Reg} {q : Fld → Bool} (h : takesWriteIn u p r i w a) :
    (a.store r i w q).rule v = u.rule v := by
  obtain ⟨-, rfl⟩ := h
  rw [State.rule, State.store_rules]
  rfl

section
variable {s : State} {v : Nat}

/-- R305: a rule that is enabled starts with nothing. -/
theorem State.enableRule_of_disabled (h : s.flag .VD_CFG_ENABLE v = false) :
    s.enableRule v true = (s.setRule v {}).put .VD_CFG_ENABLE v 1 :=
  if_pos (by simp [h])

/-- R305: a rule that is disabled keeps no window and no target edge. -/
theorem State.disableRule_of_enabled (h : s.flag .VD_CFG_ENABLE v = true) :
    s.enableRule v false =
      (s.setRule v { s.rule v with window := none, lost := false, kept := [] }).put .VD_CFG_ENABLE v 0 := by
  rw [State.enableRule, if_neg (by simp), if_pos (by simp [h])]

theorem State.enableRule_of_unchanged {on : Bool} (h : on = s.flag .VD_CFG_ENABLE v) : s.enableRule v on = s := by
  subst h
  rw [State.enableRule, if_neg (by simp), if_neg (by simp)]

/-! ## The end of a presence window -/

theorem State.endPresence_of_passed {w x : Int} (hw : (s.rule v).window = some w) (hx : x = w + s.ruleHi v)
    (ht : s.time.halted = false) (he : s.flag .VD_CFG_ENABLE v = true) (h2 : s.get .VD_CFG_TYPE v = 2)
    (hp : s.spanPassed (s.get .VD_SRC_SRC v) x = true) :
    s.endPresence v = (s.setRule v { s.rule v with window := none, lost := false }).decide_ v
      (if (s.rule v).lost ∨ s.metBreak (s.get .VD_SRC_SRC v) (w + s.ruleLo v) x = true ∨
          s.metBreak (s.get .VD_SRC_SRC_B v) w x = true then vLost else vAbsent) 0 x := by
  subst hx
  simp only [State.endPresence, hw]
  exact if_pos (by simp [ht, he, h2, hp])

end

/-! ## The verdicts of a link -/

/-- R308, R391: an admitted link with a transmitter sends its oldest verdict, which is counted for the link and for its rule. -/
theorem State.sendVerdict_of_queued {s : State} {b m w : Nat} {rest : List (Nat × Nat)}
    (hq : (s.link b).verdicts = (m, w) :: rest) (ha : (s.link b).admitted = true) (ht : (s.link b).tx ≠ 0) :
    s.sendVerdict b = (((s.setLink b { s.link b with verdicts := rest }).sendBlock b (verdictBlock w)).count
      .LNK_LINK_VERDICTS_COUNT b).count .VD_SENT_COUNT (w / 2 ^ 56) := by
  simp only [State.sendVerdict, hq]
  exact if_pos (by simp [ha, ht])

/-- Settles O33: RULE_ENABLE follows the rule's ENABLE as it stands; of the other four each has one case. -/
theorem verdictCommandsTakeEffect : Obligations.VerdictCommandsTakeEffect := by
  intro s u a t p v r hu hv hr
  subst hu hr
  refine ⟨fun n y hn ht hrun hy => ?mask, fun w y en hp hw h hy => ?enable, fun w x hw hx ht he h2 hpass => ?window, ?expiry,
    fun b m w rest hb hq ha htx => ?verdict⟩
  case mask => exact (if_pos hn).trans (congrArg _ (State.maskPassed_of_running ht hrun hy))
  case enable =>
    have hrule : y.rule v = (s.at t).rule v := by rw [hy, State.rule_of_stored h]
    rw [exec_ruleEnable hp hv hw h hy, ← hrule]
    refine ⟨fun hon hf => ?_, fun hoff hf => ?_, fun hsame => ?_⟩
    · rw [hon, State.enableRule_of_disabled hf]
    · rw [hoff, State.disableRule_of_enabled hf]
    · rw [State.enableRule_of_unchanged hsame]
  case window => exact (if_pos hv).trans (congrArg _ (State.endPresence_of_passed hw hx ht he h2 hpass))
  case expiry => exact if_pos hv
  case verdict => exact (if_pos hb).trans (congrArg _ (State.sendVerdict_of_queued hq ha htx))

end Sys2Proof.Machine
end

section
/-!
The markers and the trip outputs (R314, R316, R318, R320, R321, R322): the arm and the disarm of a marker and the writes of
the trip registers as register writes, and the firing and the falling edge that come when they are due.
-/

namespace Sys2Proof.Machine

/-! ## The commands as register writes -/

section
variable {s a : State} {t p k i : Nat}

theorem exec_markerArm (hp : isPort p = true) (hk : k < numMarkers) (h : takesWriteIn (s.at t) p .MRK_CTL k 1 a) :
    exec (.markerArm t p k) s = .next (reported ((a.put .MRK_CTL_ARM k 1).armMarker k) p) :=
  (if_pos ⟨hk, hp⟩).trans (congrArg Host.Outcome.next (State.hostWrite_effect (Command.MRK_CTL hk) (by rfl) (by rfl) h))

theorem exec_markerDisarm (hp : isPort p = true) (hk : k < numMarkers) (h : takesWriteIn (s.at t) p .MRK_CTL k 0 a) :
    exec (.markerDisarm t p k) s = .next (reported ((a.put .MRK_CTL_ARM k 0).disarmMarker k) p) :=
  (if_pos ⟨hk, hp⟩).trans (congrArg Host.Outcome.next (State.hostWrite_effect (Command.MRK_CTL hk) (by rfl) (by rfl) h))

/-- R318: the selection of an output is the whole 64-bit value of its register, and every output follows it at once. -/
theorem State.hostWrite_lines {u : State} {w : Nat} {r : Reg} {f : Fld} (c : PairCommand r i)
    (hs : SMap.wf (fun _ => ({} : Port)) u.ports = true) (hr : r.fields = [f]) (hlo : f.desc.lo = 0) (hwd : f.desc.w = 64)
    (hw : w < 2 ^ 64) (hx : a.writeReg p r i w = (a.put f i (w / 2 ^ 0 % 2 ^ 64)).settleTrips) (h : takesPairIn u p r i w a) :
    u.hostWrite p r i [(f, w)] = reportedPair (a.put f i w).settleTrips p := by
  have e : u.wordWith r i [(f, w)] = w := by
    rw [State.wordWith_one u hr, Fld.place_fits (hwd ▸ hw), hlo, Nat.pow_zero, Nat.mul_one]
  rw [State.hostWrite_pair c hs e hw h, hx, Nat.pow_zero, Nat.div_one, Nat.mod_eq_of_lt hw]

theorem exec_tripSelect_marker {w : Nat} (hs : Sound s) (hp : isPort p = true) (hk : k < numMarkers) (hw : w < 2 ^ 64)
    (h : takesPairIn (s.at t) p .MRK_TRIPSEL k w a) :
    exec (.tripSelect t p false k w) s = .next (reportedPair (a.put .MRK_TRIPSEL_LINES k w).settleTrips p) :=
  (if_pos ⟨hk, hp⟩).trans (congrArg Host.Outcome.next (State.hostWrite_lines (PairCommand.MRK_TRIPSEL hk)
    (State.wf_ports (s := s) hs) (by rfl) (by rfl) (by rfl) hw (by rfl) h))

theorem exec_tripSelect_output {w : Nat} (hs : Sound s) (hp : isPort p = true) (hi : i < numTrips) (hw : w < 2 ^ 64)
    (h : takesPairIn (s.at t) p .TRIP_SEL i w a) :
    exec (.tripSelect t p true i w) s = .next (reportedPair (a.put .TRIP_SEL_LINES i w).settleTrips p) :=
  (if_pos ⟨hi, hp⟩).trans (congrArg Host.Outcome.next (State.hostWrite_lines (PairCommand.TRIP_SEL hi)
    (State.wf_ports (s := s) hs) (by rfl) (by rfl) (by rfl) hw (by rfl) h))

section
variable {latch force mk : Nat} (hl : latch < 4) (hf : force < 2) (hm : mk < 32)
include hl hf hm

/-- The word of TRIP_CFG from its three fields. -/
theorem State.wordWith_tripCfg (u : State) : u.wordWith .TRIP_CFG i
    [(.TRIP_CFG_LATCH, latch), (.TRIP_CFG_FORCE, force), (.TRIP_CFG_REL_MK, mk)] = latch + force * 4 + mk * 256 := by
  have el : Fld.TRIP_CFG_LATCH.place latch = latch * 2 ^ 0 := Fld.place_fits hl
  have ef : Fld.TRIP_CFG_FORCE.place force = force * 2 ^ 2 := Fld.place_fits hf
  have em : Fld.TRIP_CFG_REL_MK.place mk = mk * 2 ^ 8 := Fld.place_fits hm
  rw [State.wordWith_three u (by rfl) (by decide) (by decide) (by decide), el, ef, em]
  omega

/-- The three fields of TRIP_CFG from its word. -/
theorem bits_tripCfg : bits (latch + force * 4 + mk * 256) 0 2 = latch ∧ bits (latch + force * 4 + mk * 256) 2 1 = force ∧
    bits (latch + force * 4 + mk * 256) 8 5 = mk := by
  simp only [bits]
  omega

/-- R320, R322: the three fields of TRIP_CFG are stored, and every output follows them. -/
theorem State.writeReg_tripCfg (s : State) (p i : Nat) :
    s.writeReg p .TRIP_CFG i (latch + force * 4 + mk * 256) = (((s.put .TRIP_CFG_LATCH i latch).put
      .TRIP_CFG_FORCE i force).put .TRIP_CFG_REL_MK i mk).settleTrips := by
  obtain ⟨el, ef, em⟩ := bits_tripCfg hl hf hm
  generalize latch + force * 4 + mk * 256 = w at el ef em
  subst el ef em
  rfl

theorem exec_tripCfg (hp : isPort p = true) (hi : i < numTrips)
    (h : takesWriteIn (s.at t) p .TRIP_CFG i (latch + force * 4 + mk * 256) a) :
    exec (.tripCfg t p i (latch + force * 4 + mk * 256)) s = .next (reported (((a.put .TRIP_CFG_LATCH i latch).put
      .TRIP_CFG_FORCE i force).put .TRIP_CFG_REL_MK i mk).settleTrips p) := by
  obtain ⟨el, ef, em⟩ := bits_tripCfg hl hf hm
  have e : (s.at t).wordWith .TRIP_CFG i [(.TRIP_CFG_LATCH, bits (latch + force * 4 + mk * 256) 0 2),
      (.TRIP_CFG_FORCE, bits (latch + force * 4 + mk * 256) 2 1),
      (.TRIP_CFG_REL_MK, bits (latch + force * 4 + mk * 256) 8 5)] % 2 ^ 32 = latch + force * 4 + mk * 256 := by
    rw [el, ef, em, State.wordWith_tripCfg hl hf hm]
    omega
  exact (if_pos ⟨hi, hp⟩).trans (congrArg Host.Outcome.next (State.hostWrite_effect (Command.TRIP_CFG hi) e
    (State.writeReg_tripCfg hl hf hm a p i) h))

end

end

/-! ## The arm and the disarm of a marker -/

section
variable {s y : State} {k : Nat}

theorem State.armMarker_of_armed (ha : (s.marker k).armed = true) : s.armMarker k = s := if_pos ha

/-- R316: a single firing whose time has passed at the arm is missed. -/
theorem State.armMarker_of_late (ha : (s.marker k).armed = false) (hp : s.get .MRK_CFG_PATTERN k = 0) (hv : s.time.valid = true)
    (ht : s.markerT0 k < s.tick)
    (hy : y = (s.setMarker k { s.marker k with
      armed := true, armAt := s.tick, ending := false, last := false, next := none }).count .MRK_MISSED_COUNT k) :
    s.armMarker k = y.startLoop k := by
  subst hy
  have hlate : s.get .MRK_CFG_PATTERN k = 0 ∧ s.time.valid = true ∧ s.markerT0 k < s.tick := ⟨hp, hv, ht⟩
  simp only [State.armMarker, ha, Bool.false_eq_true, if_false, if_pos hlate]

/-- R316: every other arm waits for the first firing of the pattern from the present on. -/
theorem State.armMarker_of_due (ha : (s.marker k).armed = false)
    (h : s.get .MRK_CFG_PATTERN k ≠ 0 ∨ s.time.valid = false ∨ s.tick ≤ s.markerT0 k)
    (hy : y = s.setMarker k { s.marker k with
      armed := true, armAt := s.tick, ending := false, last := false, next := some (s.firstFiring k s.tick) }) :
    s.armMarker k = y.startLoop k := by
  subst hy
  have hdue : ¬ (s.get .MRK_CFG_PATTERN k = 0 ∧ s.time.valid = true ∧ s.markerT0 k < s.tick) := by
    rintro ⟨hp, hv, ht⟩
    rcases h with h | h | h
    · exact h hp
    · simp [hv] at h
    · exact absurd ht (not_lt.mpr h)
  simp only [State.armMarker, ha, Bool.false_eq_true, if_false, if_neg hdue]

theorem State.disarmMarker_of_disarmed (ha : (s.marker k).armed = false) : s.disarmMarker k = s := if_neg (by simp [ha])

/-- R316, R321: a pulse in progress, or one whose rising edge falls in the cycle of the disarm, completes. -/
theorem State.disarmMarker_of_pulse {v : Bool} (ha : (s.marker k).armed = true) (hv : v = s.firesNow k)
    (h : ((s.marker k).ball || v) = true) :
    s.disarmMarker k = s.setMarker k { s.marker k with
      armed := false, next := if v then (s.marker k).next else none, last := v, ending := true } := by
  subst hv
  simp only [State.disarmMarker, ha, h, if_true]

theorem State.disarmMarker_of_quiet (ha : (s.marker k).armed = true) (hv : s.firesNow k = false) (hb : (s.marker k).ball = false)
    (hy : y = s.setMarker k { s.marker k with armed := false, next := none, last := false, ending := false }) :
    s.disarmMarker k = y.endMarker k := by
  subst hy
  simp only [State.disarmMarker, ha, hv, hb, Bool.or_self, Bool.false_eq_true, if_true, if_false]

end

/-- A register field that is stored leaves the markers. -/
theorem State.marker_put (s : State) (f : Fld) (i v k : Nat) : (s.put f i v).marker k = s.marker k := by
  simp only [State.marker, State.put_markers]

/-- Settles O34: the arm has three cases and the disarm three, by the marker as it stands; the writes of the trip registers
store their fields, and every output follows. -/
theorem markerHostCommandsTakeEffect : Obligations.MarkerHostCommandsTakeEffect := by
  intro s u a t p k i m hu hp hk hi hm
  subst hu
  refine ⟨fun b h hb => ?arm, fun b h hb => ?disarm, fun w hs hw h => exec_tripSelect_marker hs hp hk hw h,
    fun w hs hw h => exec_tripSelect_output hs hp hi hw h, fun latch force mk hl hf hmk h => exec_tripCfg hl hf hmk hp hi h⟩
  case arm =>
    obtain rfl : m = b.marker k := by rw [hm, hb, State.marker_put]
    rw [exec_markerArm hp hk h, ← hb]
    refine ⟨fun ha => ?_, fun y ha hpat hv ht hy => ?_, fun y ha hdue hy => ?_⟩
    · rw [State.armMarker_of_armed ha]
    · rw [State.armMarker_of_late ha hpat hv ht hy]
    · rw [State.armMarker_of_due ha hdue hy]
  case disarm =>
    obtain rfl : m = b.marker k := by rw [hm, hb, State.marker_put]
    rw [exec_markerDisarm hp hk h, ← hb]
    refine ⟨fun ha => ?_, fun v ha hv hpulse => ?_, fun y ha hv hball hy => ?_⟩
    · rw [State.disarmMarker_of_disarmed ha]
    · rw [State.disarmMarker_of_pulse ha hv hpulse]
    · rw [State.disarmMarker_of_quiet ha hv hball hy]

/-! ## Firings -/

section
variable {s y z r : State} {t k bin j : Nat} {x : Int}

/-- A counter that advances trips no marker and releases none. -/
theorem State.markerTripped_count (s : State) (f : Fld) (i n k : Nat) : (s.count f i n).markerTripped k = s.markerTripped k := by
  simp only [State.markerTripped, State.marker, State.count_markers]

/-- R314: a marker that is not tripped rises. -/
theorem State.pulse_of_free (ht : s.markerTripped k = false)
    (hz : z = ((s.count .MRK_FIRED_COUNT k).setMarker k { s.marker k with
      ball := true, high := some (x + (s.get .MRK_WIDTH_STEPS k * 64 : Nat)) }).loopEdge k true bin) :
    s.pulse k bin x = z := by
  subst hz
  simp only [State.pulse, State.markerTripped_count, ht, Bool.false_eq_true, if_false]

/-- R321: the pulse of a marker that is tripped, with no trip near, is suppressed. -/
theorem State.pulse_of_tripped (ht : s.markerTripped k = true) (hn : (s.marker k).tripAt = none)
    (hz : z = (s.count .MRK_FIRED_COUNT k).free.2.count .MRK_SUPPRESSED_COUNT k) : s.pulse k bin x = z := by
  subst hz
  simp only [State.pulse, State.markerTripped_count, ht, hn, if_true, Bool.false_and, Bool.false_eq_true, if_false]

section
variable (hj : (s.marker k).next = some j) (hx : s.firingTime k j = some x)
  (ha : (s.marker k).armed = true ∨ (s.marker k).last = true) (hv : s.time.valid = true) (hd : s.instOf x ≤ s.now)
  (hy : y = s.setMarker k { s.marker k with next := if (s.marker k).last then none else some (s.nextFiring k j), last := false })
include hj hx ha hv hd hy

/-- R314, R316: a firing that is due is done with: it is missed, or it has its pulse; the last one of a disarmed marker closes
the loop-back unless the output is high. -/
theorem State.fire_of_due {e : Option Int}
    (hz : (if x < (s.marker k).armAt + 5242880 ∨ x < s.time.validAt ∨ s.time.halted = true then
        (none, y.count .MRK_MISSED_COUNT k)
      else (some x, (y.releaseNext k).pulse k bin x)) = (e, z)) :
    s.fire k bin = (e, if (s.marker k).last && !(z.marker k).ball then z.endMarker k else z) := by
  have hdue : ((s.marker k).armed = true ∨ (s.marker k).last = true) ∧ s.time.valid = true ∧ s.instOf x ≤ s.now :=
    ⟨ha, hv, hd⟩
  have ht : y.time = s.time := by rw [hy, State.setMarker_time]
  rw [← ht] at hz
  simp only [State.fire, hj, hx, if_pos hdue, ← hy, hz]

/-- R316: a firing that is missed is counted, and delivers no marker event. -/
theorem State.fire_of_missed (hm : x < (s.marker k).armAt + 5242880 ∨ x < s.time.validAt ∨ s.time.halted = true)
    (hz : z = y.count .MRK_MISSED_COUNT k) :
    s.fire k bin = (none, if (s.marker k).last && !(z.marker k).ball then z.endMarker k else z) :=
  State.fire_of_due hj hx ha hv hd hy ((if_pos hm).trans (by rw [hz]))

/-- R314, R320: a firing in time releases the NEXT latches before its pulse, and delivers a marker event at its time. -/
theorem State.fire_of_timely (h1 : (s.marker k).armAt + 5242880 ≤ x) (h2 : s.time.validAt ≤ x) (h3 : s.time.halted = false)
    (hz : (y.releaseNext k).pulse k bin x = z) :
    s.fire k bin = (some x, if (s.marker k).last && !(z.marker k).ball then z.endMarker k else z) := by
  have hm : ¬ (x < (s.marker k).armAt + 5242880 ∨ x < s.time.validAt ∨ s.time.halted = true) := by
    simp [h1, h2, h3]
  exact State.fire_of_due hj hx ha hv hd hy ((if_neg hm).trans (by rw [hz]))

end

theorem exec_firing_of_missed (hk : k < numMarkers) (h : (s.at t).fire k bin = (none, r)) :
    exec (.firing t k bin) s = .next r := by
  refine (if_pos hk).trans ?_
  rw [h]

/-- R211, R295: the marker event reaches the waveform channels and the mask units. -/
theorem exec_firing_of_timely (hk : k < numMarkers) (h : (s.at t).fire k bin = (some x, r)) :
    exec (.firing t k bin) s = .next ((r.waveMarker k x).masksMarker k x) := by
  refine (if_pos hk).trans ?_
  rw [h]

/-- R314, R317: the falling edge of a pulse that is due, the last of a marker that has been disarmed. -/
theorem State.fall_of_due (hh : (s.marker k).high = some x) (hd : s.instOf x ≤ s.now)
    (hy : y = (s.setMarker k { s.marker k with ball := false, high := none }).loopEdge k false bin) :
    s.fall k bin = if (s.marker k).ending then y.endMarker k else y := by
  subst hy
  simp only [State.fall, hh, if_pos hd]

end

/-- Settles O35: a firing that is due is missed or in time, and one in time rises or is suppressed. -/
theorem markerEventsTakeEffect : Obligations.MarkerEventsTakeEffect := by
  intro s u t k bin m hu hk hm
  subst hu hm
  refine ⟨fun j x y hj hx ha hv hd hy => ⟨fun z hmiss hz => ?missed, fun h1 h2 h3 =>
    ⟨fun z r htrip hz hr => ?rises, fun z r htrip hnone hz hr => ?suppressed⟩⟩, fun x y hh hd hy => ?falls⟩
  case missed => exact exec_firing_of_missed hk (State.fire_of_missed hj hx ha hv hd hy hmiss hz)
  case rises =>
    subst hr
    exact exec_firing_of_timely hk (State.fire_of_timely hj hx ha hv hd hy h1 h2 h3 (State.pulse_of_free htrip hz))
  case suppressed =>
    subst hr
    exact exec_firing_of_timely hk (State.fire_of_timely hj hx ha hv hd hy h1 h2 h3 (State.pulse_of_tripped htrip hnone hz))
  case falls => exact (if_pos hk).trans (congrArg _ (State.fall_of_due hh hd hy))

end Sys2Proof.Machine
end

section
/-!
The commands of a host to Sluice (R328, R330, R337, R338, R340, R345): each as a register write, and what it does to the
channel or to the engine. The clauses on commands of the same AOCLK cycle are R343's, with the cycles counted from instant 0
as the model's choice (log entries 9, 90).
-/

namespace Sys2Proof.Machine

/-! ## The commands as register writes -/

/-- R337: the write of the first field of SLU_ENGINE_CTL alone. -/
theorem State.writeReg_disableAll (s : State) (p : Nat) : s.writeReg p .SLU_ENGINE_CTL 0 1 = s.disableAll := by
  have hd : wants .SLU_ENGINE_CTL_DISABLE_ALL 1 = true := by rfl
  have hr : wants .SLU_ENGINE_CTL_RESUME 1 = false := by rfl
  have e : s.writeReg p .SLU_ENGINE_CTL 0 1 = s.effectSlu .SLU_ENGINE_CTL 0 1 := by rfl
  simp only [e, State.effectSlu, hd, hr, Bool.false_eq_true, if_true, if_false]

/-- R340: the write of the second field of SLU_ENGINE_CTL alone. -/
theorem State.writeReg_engineResume (s : State) (p : Nat) : s.writeReg p .SLU_ENGINE_CTL 0 2 = s.resumeEngine := by
  have hd : wants .SLU_ENGINE_CTL_DISABLE_ALL 2 = false := by rfl
  have hr : wants .SLU_ENGINE_CTL_RESUME 2 = true := by rfl
  have e : s.writeReg p .SLU_ENGINE_CTL 0 2 = s.effectSlu .SLU_ENGINE_CTL 0 2 := by rfl
  simp only [e, State.effectSlu, hd, hr, Bool.false_eq_true, if_true, if_false]

section
variable {s a : State} {t p c : Nat} (hp : isPort p = true)
include hp

section
variable (hc : c < numSluice)
include hc

theorem exec_go (h : takesWriteIn (s.at t) p .SLU_CTL c 1 a) :
    exec (.go t p c) s = .next (reported (a.goSlu c) p) :=
  (if_pos ⟨hc, hp⟩).trans (congrArg Host.Outcome.next (State.hostWrite_effect (Command.SLU_CTL hc) (by rfl) (by rfl) h))

theorem exec_disable (h : takesWriteIn (s.at t) p .SLU_CTL c 2 a) :
    exec (.disable t p c) s = .next (reported (a.disableSlu c) p) :=
  (if_pos ⟨hc, hp⟩).trans (congrArg Host.Outcome.next (State.hostWrite_effect (Command.SLU_CTL hc) (by rfl) (by rfl) h))

theorem exec_pause (h : takesWriteIn (s.at t) p .SLU_CTL c 4 a) :
    exec (.pause t p c) s = .next (reported (a.pauseSlu c) p) :=
  (if_pos ⟨hc, hp⟩).trans (congrArg Host.Outcome.next (State.hostWrite_effect (Command.SLU_CTL hc) (by rfl) (by rfl) h))

theorem exec_resume (h : takesWriteIn (s.at t) p .SLU_CTL c 8 a) :
    exec (.resume t p c) s = .next (reported (a.resumeSlu c) p) :=
  (if_pos ⟨hc, hp⟩).trans (congrArg Host.Outcome.next (State.hostWrite_effect (Command.SLU_CTL hc) (by rfl) (by rfl) h))

theorem exec_listCommit (h : takesWriteIn (s.at t) p .SLU_COMMIT c 1 a) :
    exec (.listCommit t p c) s = .next (reported (a.commitList c) p) :=
  (if_pos ⟨hc, hp⟩).trans (congrArg Host.Outcome.next (State.hostWrite_effect (Command.SLU_COMMIT hc) (by rfl) (by rfl) h))

end

theorem exec_engineResume (h : takesWriteIn (s.at t) p .SLU_ENGINE_CTL 0 2 a) :
    exec (.engineResume t p) s = .next (reported a.resumeEngine p) :=
  (if_pos hp).trans (congrArg Host.Outcome.next (State.hostWrite_effect Command.SLU_ENGINE_CTL (by rfl)
    (State.writeReg_engineResume a p) h))

theorem exec_disableAll (h : takesWriteIn (s.at t) p .SLU_ENGINE_CTL 0 1 a) :
    exec (.disableAll t p) s = .next (reported a.disableAll p) :=
  (if_pos hp).trans (congrArg Host.Outcome.next (State.hostWrite_effect Command.SLU_ENGINE_CTL (by rfl)
    (State.writeReg_disableAll a p) h))

end

/-! ## GO -/

section
variable {s y : State} {c : Nat}

/-- R328: a start, whose instant the channel keeps for the commands of the same cycle. -/
theorem State.beginSlu_of_started {request : Bool} (hy : y = s.startSlu c) : s.beginSlu c request =
    (y.setSl c { y.sl c with startAt := some (y.now, request), stopAt := none }).grantCredits c := by
  subst hy
  rfl

theorem State.goSlu_of_first (h : s.startedNow c = false) : s.goSlu c = s.beginSlu c false := if_neg (by simp [h])

/-- R343: GO takes the place of a start request of the same cycle, which counts as ignored. -/
theorem State.goSlu_of_request {o : Nat} (h : s.startedNow c = true) (hx : (s.sl c).startAt = some (o, true)) :
    s.goSlu c = (s.setSl c { s.sl c with startAt := some (o, false) }).count .SLU_CREDIT_IGNORED c := by
  simp only [State.goSlu, if_pos h, hx]

/-- R343: a second GO of the same cycle has no effect. -/
theorem State.goSlu_of_repeat {o : Nat} (h : s.startedNow c = true) (hx : (s.sl c).startAt = some (o, false)) :
    s.goSlu c = s := by
  simp only [State.goSlu, if_pos h, hx]

/-! ## DISABLE, PAUSE and RESUME -/

theorem State.disableSlu_of_stopped (h : (s.sl c).state = 0 ∨ (s.sl c).state = 4 ∨ (s.sl c).state = 6) :
    s.disableSlu c = s := if_pos h

section
variable (h0 : (s.sl c).state ≠ 0) (h4 : (s.sl c).state ≠ 4) (h6 : (s.sl c).state ≠ 6)
include h0 h4 h6

/-- R343: a channel that completes in the cycle completes, and the DISABLE comes late. -/
theorem State.disableSlu_of_ending (he : s.sluEnds c = true) :
    s.disableSlu c = (s.completeSlu c).raise .SLU_EVENT_ABORT_LATE c := by
  simp only [State.disableSlu, h0, h4, h6, he, or_self, if_false, if_true]

/-- R337, R343: a channel that goes on is idle at once; the credits of the cycle count as ignored. -/
theorem State.disableSlu_of_active {late : Nat} (he : s.sluEnds c = false)
    (hy : y = s.setSl c { s.sl c with
      state := 0, desc := none, going := false, room := 0, recv := [], saved := [], stopAt := some s.now })
    (hl : late = min (y.get .SLU_CREDIT_AVAIL c)
      (if aoCycle (s.sl c).credits.1 = aoCycle y.now then (s.sl c).credits.2 else 0)) :
    s.disableSlu c = ((y.put .SLU_CREDIT_AVAIL c 0).count .SLU_CREDIT_IGNORED c late).dropCommit c := by
  subst hy hl
  simp only [State.disableSlu, h0, h4, h6, he, or_self, if_false, Bool.false_eq_true]

end

theorem State.pauseSlu_of_ending (he : s.sluEnds c = true) : s.pauseSlu c = s.completeSlu c := if_pos he

theorem State.pauseSlu_of_running (he : s.sluEnds c = false) (h : (s.sl c).state = 1) :
    s.pauseSlu c = s.setSl c { s.sl c with state := 2 } := by
  simp only [State.pauseSlu, he, Bool.false_eq_true, if_false, if_pos h]

theorem State.pauseSlu_of_other (he : s.sluEnds c = false) (h : (s.sl c).state ≠ 1) : s.pauseSlu c = s := by
  simp only [State.pauseSlu, he, Bool.false_eq_true, if_false, if_neg h]

theorem State.resumeSlu_of_paused (h : (s.sl c).state = 3) : s.resumeSlu c = s.setSl c { s.sl c with state := 1 } := if_pos h

theorem State.resumeSlu_of_other (h : (s.sl c).state ≠ 3) : s.resumeSlu c = s := if_neg h

/-! ## LIST_COMMIT -/

theorem State.commitList_of_inactive (h : (s.sl c).state = 0 ∨ 3 < (s.sl c).state) : s.commitList c = s.applyList c := if_pos h

section
variable (h1 : 1 ≤ (s.sl c).state) (h3 : (s.sl c).state ≤ 3)
include h1 h3

/-- R330: on an active channel the list address waits for the end of a descriptor. -/
theorem State.commitList_of_active (hw : (s.sl c).commit = none) :
    s.commitList c = s.setSl c { s.sl c with commit := some s.now } := by
  have hact : ¬ ((s.sl c).state = 0 ∨ 3 < (s.sl c).state) := by omega
  simp only [State.commitList, if_neg hact, hw, Option.isSome_none, Bool.false_eq_true, if_false]

theorem State.commitList_of_waiting (hw : (s.sl c).commit ≠ none) : s.commitList c = s := by
  have hact : ¬ ((s.sl c).state = 0 ∨ 3 < (s.sl c).state) := by omega
  simp only [State.commitList, if_neg hact, Option.isSome_iff_ne_none.mpr hw, if_true]

end

/-! ## The engine -/

theorem State.resumeEngine_of_undeclared (h : (s.resetSluice.rest kSluice).declared = none) :
    s.resumeEngine = s.resetSluice := by
  simp only [State.resumeEngine, h, Option.isSome_none, Bool.false_eq_true, if_false]

/-- R340: the reset ends a declared failure of Sluice. -/
theorem State.resumeEngine_of_declared {z : Nat} (h : (s.resetSluice.rest kSluice).declared = some z) :
    s.resumeEngine = s.resetSluice.endRestore kSluice := by
  simp only [State.resumeEngine, h, Option.isSome_some, if_true]

end

/-- Settles O36: each command is its register write; what it does follows the state of the channel, and for GO and DISABLE
what the same cycle has brought. -/
theorem sluiceHostCommandsTakeEffect : Obligations.SluiceHostCommandsTakeEffect := by
  intro s u a t p c x hu hp hc hx
  subst hu hx
  refine ⟨fun y z h hno hy hz => ?start, fun o h hnow ho => ?request, fun o h hnow ho => ?again,
    fun h hst => ?stopped, fun h h0 h4 h6 he => ?ending, fun y late h h0 h4 h6 he hy hl => ?disable,
    fun h => ⟨fun he => ?_, fun he h1 => ?_, fun he h1 => ?_⟩, fun h => ⟨fun h3 => ?_, fun h3 => ?_⟩,
    fun h => ⟨fun hst => ?_, fun h1 h3 hw => ?_, fun h1 h3 hw => ?_⟩, fun h hd => ?reset, fun z h hd => ?restored,
    fun h => exec_disableAll hp h⟩
  case start => rw [exec_go hp hc h, State.goSlu_of_first hno, State.beginSlu_of_started hy, hz]
  case request => rw [exec_go hp hc h, State.goSlu_of_request hnow ho]
  case again => rw [exec_go hp hc h, State.goSlu_of_repeat hnow ho]
  case stopped => rw [exec_disable hp hc h, State.disableSlu_of_stopped hst]
  case ending => rw [exec_disable hp hc h, State.disableSlu_of_ending h0 h4 h6 he]
  case disable => rw [exec_disable hp hc h, State.disableSlu_of_active h0 h4 h6 he hy hl]
  · rw [exec_pause hp hc h, State.pauseSlu_of_ending he]
  · rw [exec_pause hp hc h, State.pauseSlu_of_running he h1]
  · rw [exec_pause hp hc h, State.pauseSlu_of_other he h1]
  · rw [exec_resume hp hc h, State.resumeSlu_of_paused h3]
  · rw [exec_resume hp hc h, State.resumeSlu_of_other h3]
  · rw [exec_listCommit hp hc h, State.commitList_of_inactive hst]
  · rw [exec_listCommit hp hc h, State.commitList_of_active h1 h3 hw]
  · rw [exec_listCommit hp hc h, State.commitList_of_waiting h1 h3 hw]
  case reset => rw [exec_engineResume hp h, State.resumeEngine_of_undeclared hd]
  case restored => rw [exec_engineResume hp h, State.resumeEngine_of_declared hd]

end Sys2Proof.Machine
end

section
/-!
The events of Sluice (R332, R334, R335, R338, R339, R340): drained pauses, bursts, completions, the halt of the engine and its
reset by itself. The turn that each burst takes and the credits that it grants are the model's choice (log entry 33), as are
the size of a burst in memory and the list address that is taken over at a stop (log entry 58), and the sections of the image
that the engine's own reset applies again (log entry 86).
-/

namespace Sys2Proof.Machine

section
variable {s y : State} {c : Nat}

theorem exec_pauseDrained_of_pausing {t : Nat} (hc : c < numSluice) (h : ((s.at t).sl c).state = 2) :
    exec (.pauseDrained t c) s = .next ((s.at t).setSl c { (s.at t).sl c with state := 3 }) :=
  (if_pos hc).trans (congrArg _ (if_pos h))

/-! ## Bursts -/

/-- R326: a channel that runs from its registers fetches no descriptor. -/
theorem State.fetchDesc_of_register (hl : s.sluList c = false) : s.fetchDesc c = s := if_neg (by simp [hl])

/-- R332: what a channel must not wait for: an acknowledgement, its memory, a credit or data, and the link of its destination. -/
theorem State.sluWaits_eq_false {dst : Nat} (ha : s.waitsAck c = false) (hm : s.waitsMem c = false)
    (hc : s.waitsCredit c = false) (hto : s.sluTo c = some dst)
    (hlink : ∀ b, s.portAt (some dst) = some b → (s.link b.1).admitted = true) : s.sluWaits c = false := by
  simp only [State.sluWaits, ha, hm, hc, hto, Bool.false_or]
  cases hport : s.portAt (some dst) with
  | none => rfl
  | some b => simp [hlink b hport]

/-- R332, R334: a running channel of a REGISTER transfer that does not wait takes the turn of its group and moves its next
bytes. -/
theorem State.sluBurst_of_ready {src dst : Nat} {ecc : Bool} (hr : s.sluRuns = true) (h1 : (s.sl c).state = 1)
    (hl : s.sluList c = false) (ha : s.waitsAck c = false) (hy : y = s.grantCredits c) (hd : (y.sl c).desc = none)
    (hturn : y.sluTurn c = true) (hw : y.sluWaits c = false) (hfrom : y.sluFrom c = some src) (hto : y.sluTo c = some dst) :
    s.sluBurst c ecc =
      ({ y with slu := { y.slu with turn := y.slu.turn.set (y.sluGroup c) c } }).moveBytes c src dst ecc := by
  have hgo : (!(s.sluRuns && (s.sl c).state == 1)) = false := by simp [hr, h1]
  have hstop : ¬ ((s.sl c).state ≠ 1 ∨ s.waitsAck c = true) := by simp [h1, ha]
  have hgrant : (y.sluWaits c || !y.sluTurn c) = false := by simp [hw, hturn]
  have hplain : ¬ ((y.sl c).desc.isSome = true ∧ (y.sl c).going = false) := by simp [hd]
  simp only [State.sluBurst, hgo, State.fetchDesc_of_register hl, if_neg hstop, ← hy, hgrant, hfrom, hto, if_neg hplain,
    Bool.false_eq_true, if_false]

/-! ## Completions -/

/-- R335: the last byte of a REGISTER transfer. -/
theorem State.completeSlu_of_register (hdue : s.sluDue c = true) (hl : s.sluList c = false) (hy : y = s.handOver c) :
    s.completeSlu c = ((y.setSl c { y.sl c with state := 4, saved := [] }).sluEvent .SLU_EVENT_DONE c).dropCommit c := by
  subst hy
  simp only [State.completeSlu, hdue, hl, Bool.not_true, Bool.false_eq_true, if_false]

/-- R335: the last byte of a descriptor: its events, the commit that waits, and the end of its list. -/
theorem State.completeSlu_of_descriptor {d : Desc} {z w : State} (hdue : s.sluDue c = true) (hl : s.sluList c = true)
    (hd : (s.sl c).desc = some d) (hy : y = if d.half then s.sluEvent .SLU_EVENT_HALF c else s)
    (hz : z = if d.irq then y.sluEvent .SLU_EVENT_DESC c else y)
    (hw : w = (z.setSl c { s.sl c with desc := none, going := false, saved := [], list := d.next, ended := d.last }).handOver c) :
    s.completeSlu c = if d.last && (s.sl c).held.isNone then
      ((w.setSl c { w.sl c with state := 4 }).sluEvent .SLU_EVENT_DONE c).dropCommit c else w := by
  subst hw hz hy
  simp only [State.completeSlu, hdue, hl, hd, Bool.not_true, Bool.false_eq_true, if_false]

theorem exec_descriptorComplete {t : Nat} (hc : c < numSluice) :
    exec (.descriptorComplete t c) s = .next ((s.at t).completeSlu c) := if_pos hc

/-! ## The engine -/

/-- R339: a fault found while some channel is active halts the engine. -/
theorem exec_engineHalt_of_active {t cause ad : Nat} (hc : c < numSluice)
    (h : ((s.at t).sl c).state = 1 ∨ ((s.at t).sl c).state = 2) (h1 : 1 ≤ cause) (h6 : cause ≤ 6) :
    exec (.engineHalt t cause ad) s = .next ((s.at t).haltSluice cause ad) := by
  have hbusy : ((List.range 32).any fun d => ((s.at t).sl d).state == 1 || ((s.at t).sl d).state == 2) = true :=
    List.any_eq_true.mpr ⟨c, List.mem_range.mpr hc, by simpa using h⟩
  exact congrArg Host.Outcome.next (if_pos ⟨hbusy, h1, h6⟩)

/-- R340: 1 ms after a halt, the engine with its registers and the sections of the image that address it. -/
theorem State.autoRestore_of_due {z : State} (hh : s.slu.halted = true) (hf : s.flag .SLU_ENGINE_CFG_AUTO_RESTORE = true)
    (ht : s.slu.haltAt + qMs ≤ s.now)
    (hy : y = (List.range 32).foldl (fun s c => if (s.sl c).held.isSome then s
      else (s.clearSluRegs c).setSl c { state := if (s.sl c).state = 6 then 6 else 0 }) s.resetSluice)
    (hz : z = y.reapply kSluice) :
    s.autoRestore = if (z.rest kSluice).declared.isSome then z.endRestore kSluice else z := by
  have hdue : s.slu.halted = true ∧ s.flag .SLU_ENGINE_CFG_AUTO_RESTORE = true ∧ s.slu.haltAt + qMs ≤ s.now := ⟨hh, hf, ht⟩
  simp only [State.autoRestore, if_pos hdue, ← hy, ← hz]

end

/-- Settles O37: each event comes in a state that meets its condition, and has there the effect of its rule. -/
theorem sluiceEventsTakeEffect : Obligations.SluiceEventsTakeEffect := by
  intro s u t c x hu hc hx
  subst hu hx
  refine ⟨exec_pauseDrained_of_pausing hc,
    fun y src dst ecc hr h1 hl ha hy hd hturn hack hmem hcredit hfrom hto hlink => ?burst, fun y hdue hl hy => ?register,
    fun y z w d hdue hl hd hy hz hw => ?descriptor, fun cause ad h h1 h6 => exec_engineHalt_of_active hc h h1 h6,
    fun y z hh hf ht hy hz => congrArg Host.Outcome.next (State.autoRestore_of_due hh hf ht hy hz)⟩
  case burst =>
    have hw : y.sluWaits c = false := State.sluWaits_eq_false hack hmem hcredit hto hlink
    exact (if_pos hc).trans (congrArg _ (State.sluBurst_of_ready hr h1 hl ha hy hd hturn hw hfrom hto))
  case register => rw [exec_descriptorComplete hc, State.completeSlu_of_register hdue hl hy]
  case descriptor => rw [exec_descriptorComplete hc, State.completeSlu_of_descriptor hdue hl hd hy hz hw]

end Sys2Proof.Machine
end

section
/-!
One step of the block: the command at the front of the queue, or nothing (log entry 7).
-/

namespace Sys2Proof.Machine

/-- Settles O1: a step takes the command off the queue and runs it. -/
theorem stepRunsFrontCommand : Obligations.StepRunsFrontCommand := fun _ _ _ => rfl

/-- Settles O2. -/
theorem stepIdlesOnEmptyQueue : Obligations.StepIdlesOnEmptyQueue := by
  intro s h
  simp only [step, h]

end Sys2Proof.Machine
end

section
/-!
The commands of a host to the lanes (R353, R355, R357, R359-R362, R393): each as a register write, and what it does by the
state of the lane. A lane in SEEK whose quad is in P0 queues at once, and in P2 only loses its back-off, as the model's choice
(log entry 36).
-/

namespace Sys2Proof.Machine

/-! ## A register field that is set leaves the units -/

@[simp] theorem State.lane_put (s : State) (f : Fld) (i v l : Nat) : (s.put f i v).lane l = s.lane l := rfl
@[simp] theorem State.quad_put (s : State) (f : Fld) (i v q : Nat) : (s.put f i v).quad q = s.quad q := rfl
@[simp] theorem State.link_put (s : State) (f : Fld) (i v b : Nat) : (s.put f i v).link b = s.link b := rfl

/-! ## The word of LNK_LANE_CTL: ENABLE, P1_REQ and MANUAL_SLIP -/

section
variable {en q m : Nat} (he : en < 2) (hq : q < 2) (hm : m < 2)
include he hq hm

theorem State.wordWith_laneEnable {u : State} {l : Nat} (hpq : u.get .LNK_LANE_CTL_P1_REQ l = q)
    (hpm : u.get .LNK_LANE_CTL_MANUAL_SLIP l = m) :
    u.wordWith .LNK_LANE_CTL l [(.LNK_LANE_CTL_ENABLE, en)] % 2 ^ 32 = en + q * 2 + m * 4 := by
  have e : u.wordWith .LNK_LANE_CTL l [(.LNK_LANE_CTL_ENABLE, en)] = en % 2 ^ 1 * 2 ^ 0 +
    (u.get .LNK_LANE_CTL_P1_REQ l % 2 ^ 1 * 2 ^ 1 + (u.get .LNK_LANE_CTL_MANUAL_SLIP l % 2 ^ 1 * 2 ^ 2 + 0)) := by rfl
  omega

theorem State.wordWith_p1Req {u : State} {l : Nat} (hpe : u.get .LNK_LANE_CTL_ENABLE l = en)
    (hpm : u.get .LNK_LANE_CTL_MANUAL_SLIP l = m) :
    u.wordWith .LNK_LANE_CTL l [(.LNK_LANE_CTL_P1_REQ, q)] % 2 ^ 32 = en + q * 2 + m * 4 := by
  have e : u.wordWith .LNK_LANE_CTL l [(.LNK_LANE_CTL_P1_REQ, q)] = u.get .LNK_LANE_CTL_ENABLE l % 2 ^ 1 * 2 ^ 0 +
    (q % 2 ^ 1 * 2 ^ 1 + (u.get .LNK_LANE_CTL_MANUAL_SLIP l % 2 ^ 1 * 2 ^ 2 + 0)) := by rfl
  omega

/-- R353, R362: the write stores MANUAL_SLIP, then acts on ENABLE, and on P1_REQ where it changes. -/
theorem State.writeReg_laneCtl {s y : State} {p l : Nat} (hy : y = (s.put .LNK_LANE_CTL_MANUAL_SLIP l m).enableLane l en) :
    s.writeReg p .LNK_LANE_CTL l (en + q * 2 + m * 4) = if q = y.get .LNK_LANE_CTL_P1_REQ l then y else y.reqP1 l q := by
  subst hy
  generalize hw : en + q * 2 + m * 4 = w
  obtain rfl : w / 2 ^ 0 % 2 ^ 1 = en := by omega
  obtain rfl : w / 2 ^ 1 % 2 ^ 1 = q := by omega
  obtain rfl : w / 2 ^ 2 % 2 ^ 1 = m := by omega
  rfl

end

/-! ## The commands as register writes -/

section
variable {s a y : State} {t p l : Nat} (hp : isPort p = true) (hl : l < numLanes)
include hp hl

theorem exec_laneEnable {en q m : Nat} (he : en < 2) (hq : q < 2) (hm : m < 2) (hpq : (s.at t).get .LNK_LANE_CTL_P1_REQ l = q)
    (hpm : (s.at t).get .LNK_LANE_CTL_MANUAL_SLIP l = m) (h : takesWriteIn (s.at t) p .LNK_LANE_CTL l (en + q * 2 + m * 4) a)
    (hy : y = (a.put .LNK_LANE_CTL_MANUAL_SLIP l m).enableLane l en) :
    exec (.laneEnable t p l en) s =
      .next (reported (if q = y.get .LNK_LANE_CTL_P1_REQ l then y else y.reqP1 l q) p) :=
  (if_pos ⟨hl, hp⟩).trans (congrArg Host.Outcome.next (State.hostWrite_effect (Command.LNK_LANE_CTL hl)
    (State.wordWith_laneEnable he hq hm hpq hpm) (State.writeReg_laneCtl he hq hm hy) h))

theorem exec_p1Req {en q m : Nat} (he : en < 2) (hq : q < 2) (hm : m < 2) (hpe : (s.at t).get .LNK_LANE_CTL_ENABLE l = en)
    (hpm : (s.at t).get .LNK_LANE_CTL_MANUAL_SLIP l = m) (h : takesWriteIn (s.at t) p .LNK_LANE_CTL l (en + q * 2 + m * 4) a)
    (hy : y = (a.put .LNK_LANE_CTL_MANUAL_SLIP l m).enableLane l en) :
    exec (.p1Req t p l q) s = .next (reported (if q = y.get .LNK_LANE_CTL_P1_REQ l then y else y.reqP1 l q) p) :=
  (if_pos ⟨hl, hp⟩).trans (congrArg Host.Outcome.next (State.hostWrite_effect (Command.LNK_LANE_CTL hl)
    (State.wordWith_p1Req he hq hm hpe hpm) (State.writeReg_laneCtl he hq hm hy) h))

theorem exec_retrain (h : takesWriteIn (s.at t) p .LNK_LANE_CMD l 1 a) :
    exec (.retrain t p l) s = .next (reported (a.retrainLane l) p) :=
  (if_pos ⟨hl, hp⟩).trans (congrArg Host.Outcome.next (State.hostWrite_effect (Command.LNK_LANE_CMD hl) (by rfl) (by rfl) h))

theorem exec_slip (h : takesWriteIn (s.at t) p .LNK_LANE_CMD l 2 a) :
    exec (.slip t p l) s = .next (reported (a.slipLane l) p) :=
  (if_pos ⟨hl, hp⟩).trans (congrArg Host.Outcome.next (State.hostWrite_effect (Command.LNK_LANE_CMD hl) (by rfl) (by rfl) h))

theorem exec_laneRetire (h : takesWriteIn (s.at t) p .LNK_LANE_CMD l 4 a) :
    exec (.laneRetire t p l) s = .next (reported (a.laneRetire l) p) :=
  (if_pos ⟨hl, hp⟩).trans (congrArg Host.Outcome.next (State.hostWrite_effect (Command.LNK_LANE_CMD hl) (by rfl) (by rfl) h))

theorem exec_laneReturn (h : takesWriteIn (s.at t) p .LNK_LANE_CMD l 8 a) :
    exec (.laneReturn t p l) s = .next (reported (a.laneReturn l) p) :=
  (if_pos ⟨hl, hp⟩).trans (congrArg Host.Outcome.next (State.hostWrite_effect (Command.LNK_LANE_CMD hl) (by rfl) (by rfl) h))

end

/-! ## ENABLE -/

section
variable {s : State} {l en : Nat}

/-- R353: a write of the ENABLE that stands only stores it. -/
theorem State.enableLane_of_same (h : s.get .LNK_LANE_CTL_ENABLE l = en) :
    s.enableLane l en = s.put .LNK_LANE_CTL_ENABLE l en := by
  simp only [State.enableLane, h, true_or, if_true]

/-- R360: a retired lane keeps its state. -/
theorem State.enableLane_of_retired (h : (s.lane l).state = 8) : s.enableLane l en = s.put .LNK_LANE_CTL_ENABLE l en := by
  simp only [State.enableLane, State.lane_put, h, or_true, if_true]

theorem State.enableLane_of_unused (h0 : s.get .LNK_LANE_CTL_ENABLE l = 0) (hst : (s.lane l).state = 0) :
    s.enableLane l 1 =
      (((s.put .LNK_LANE_CTL_ENABLE l 1).setLane l { s.lane l with state := 9 }).noteEnable l).wakeLanes := by
  simp only [State.enableLane, h0, State.lane_put, hst, or_self, if_false, if_true, Nat.one_ne_zero, OfNat.zero_ne_ofNat]

/-- R365: a lane in service leaves it first; any other one is unused at once. -/
theorem State.enableLane_of_disabled (h1 : s.get .LNK_LANE_CTL_ENABLE l = 1) (hst : (s.lane l).state ≠ 8) :
    s.enableLane l 0 = if (s.lane l).service then
        (s.put .LNK_LANE_CTL_ENABLE l 0).setLane l { s.lane l with off := true, leaving := true, place := false }
      else (s.put .LNK_LANE_CTL_ENABLE l 0).unuse l := by
  cases hsv : (s.lane l).service <;>
    simp only [State.enableLane, h1, State.lane_put, hst, hsv, or_self, if_false, if_true, Nat.zero_ne_one, Bool.false_eq_true]

end

/-! ## RETRAIN and SLIP -/

section
variable {s : State} {l : Nat}

theorem State.retrainLane_of_queued (h : (s.lane l).state = 1) :
    s.retrainLane l = s.setLane l { s.lane l with backoff := 0 } := by
  simp only [State.retrainLane, h]

/-- R359: a lane in an attempt begins it again, at SIGNAL. -/
theorem State.retrainLane_of_attempt (h2 : 2 ≤ (s.lane l).state) (h5 : (s.lane l).state ≤ 5) :
    s.retrainLane l = s.setLane l { s.lane l with state := 2, eyeTry := false, phaseAt := s.now, tryAt := s.now } := by
  obtain h | h | h | h : (s.lane l).state = 2 ∨ (s.lane l).state = 3 ∨ (s.lane l).state = 4 ∨ (s.lane l).state = 5 := by omega
  all_goals simp only [State.retrainLane, h]

theorem State.retrainLane_of_trained (h : (s.lane l).state = 6) : s.retrainLane l = s.startRetrain l := by
  simp only [State.retrainLane, h]

theorem State.retrainLane_of_seeking (h : (s.lane l).state = 7) : s.retrainLane l =
    if (s.quad (l / 4)).pwr = 0 then (s.setLane l { s.lane l with backoff := 0 }).enqueue l false
    else s.setLane l { s.lane l with backoff := 0 } := by
  simp only [State.retrainLane, h]

/-- R359: an unused, retired or waiting lane ignores it. -/
theorem State.retrainLane_of_other (h : (s.lane l).state = 0 ∨ 7 < (s.lane l).state) : s.retrainLane l = s := by
  simp only [State.retrainLane]
  split
  case h_8 => rfl
  all_goals omega

theorem State.slipLane_of_manual (h : s.flag .LNK_LANE_CTL_MANUAL_SLIP l = true) :
    s.slipLane l = s.setLane l { s.lane l with slip := ((s.lane l).slip + 1) % 66 } := if_pos h

theorem State.slipLane_of_automatic (h : s.flag .LNK_LANE_CTL_MANUAL_SLIP l = false) : s.slipLane l = s :=
  if_neg (Bool.eq_false_iff.mp h)

/-! ## RETIRE and RETURN -/

/-- R360: a lane in service leaves it at the next ALIGN, and is retired then. -/
theorem State.laneRetire_of_service (h : (s.lane l).service = true) :
    s.laneRetire l = s.setLane l { s.lane l with retire := true, leaving := true, place := false } := if_pos h

theorem State.laneRetire_of_idle (h : (s.lane l).service = false) : s.laneRetire l = s.retireNow l :=
  if_neg (Bool.eq_false_iff.mp h)

/-- R361: the lane starts afresh with its presets, and queues where it is enabled. -/
theorem State.laneReturn_eq {y z : State}
    (hy : y = s.setLane l { cfg := (s.lane l).cfg, state := 0, taps := s.presets l, returns := true })
    (hz : z = { y with gov := { y.gov with returns := if y.isJesd l then y.gov.returns else y.gov.returns ++ [l] } }) :
    s.laneReturn l = if z.flag .LNK_LANE_CTL_ENABLE l then z.enqueue l false else z := by
  subst hz hy
  rfl

end

/-- Settles O38: each command is its register write; what it does follows the state of the lane. -/
theorem laneHostCommandsTakeEffect : Obligations.LaneHostCommandsTakeEffect := by
  intro s u a t p l x hu hp hl hx
  subst hu hx
  refine ⟨fun w y en q m he hq hm hpq hpm hw h hy hyq => ?enable, fun z hz h0 hst => ?on, fun z hz h1 hst => ?off,
    fun z hz hst => State.enableLane_of_retired (hz ▸ hst),
    fun h => ⟨fun hst => ?_, fun h2 h5 => ?_, fun hst => ?_, fun hst hq => ?_, fun hst hq => ?_, fun hst => ?_⟩,
    fun h => ⟨fun hm => ?_, fun hm => ?_⟩, fun h => ⟨fun hsv => ?_, fun hsv => ?_⟩, fun y z h hy hz => ?back,
    fun w y en v m hs he hv hm hpe hpm hw h hy => ?p1⟩
  case enable => rw [exec_laneEnable hp hl he hq hm hpq hpm (hw ▸ h) hy, if_pos hyq.symm]
  case on => rw [← hz] at hst ⊢; exact State.enableLane_of_unused h0 hst
  case off => rw [← hz] at hst ⊢; exact State.enableLane_of_disabled h1 hst
  case back => rw [exec_laneReturn hp hl h, State.laneReturn_eq hy hz]
  case p1 =>
    have hf : a.Fits := State.fits_of_taken hs h
    have ha : a.get .LNK_LANE_CTL_ENABLE l = en := by obtain ⟨-, rfl⟩ := h; exact hpe
    have hen : (a.put .LNK_LANE_CTL_MANUAL_SLIP l m).get .LNK_LANE_CTL_ENABLE l = en := by
      rw [State.get_put_fits hf, if_neg (fun e => nomatch e.1), ha]
    rw [exec_p1Req hp hl he hv hm hpe hpm (hw ▸ h) (hy.trans (State.enableLane_of_same hen).symm)]
    exact ⟨fun hsame => by rw [if_pos hsame], fun hnew => by rw [if_neg hnew]⟩
  · rw [exec_retrain hp hl h, State.retrainLane_of_queued hst]
  · rw [exec_retrain hp hl h, State.retrainLane_of_attempt h2 h5]
  · rw [exec_retrain hp hl h, State.retrainLane_of_trained hst]
  · rw [exec_retrain hp hl h, State.retrainLane_of_seeking hst, if_pos hq]
  · rw [exec_retrain hp hl h, State.retrainLane_of_seeking hst, if_neg hq]
  · rw [exec_retrain hp hl h, State.retrainLane_of_other hst]
  · rw [exec_slip hp hl h, State.slipLane_of_manual hm]
  · rw [exec_slip hp hl h, State.slipLane_of_automatic hm]
  · rw [exec_laneRetire hp hl h, State.laneRetire_of_service hsv]
  · rw [exec_laneRetire hp hl h, State.laneRetire_of_idle hsv]

end Sys2Proof.Machine
end

section
/-!
The power states of a quad and ENABLE of a link (R363, R377): each as a register write, and what it does. An exit from P2 with
no lane trained or in SEEK only wakes the lanes that wait, as the model's choice (log entry 35).
-/

namespace Sys2Proof.Machine

section
variable {s a : State} {t p q b : Nat} (hp : isPort p = true)
include hp

theorem exec_p2 (hq : q < numQuads) (h : takesWriteIn (s.at t) p .LNK_QUAD_CTL q 2 a) :
    exec (.p2 t p q) s = .next (reported (a.writePwr q 2) p) :=
  (if_pos ⟨hq, hp⟩).trans (congrArg Host.Outcome.next (State.hostWrite_effect (Command.LNK_QUAD_CTL hq) (by rfl) (by rfl) h))

theorem exec_p2Exit (hq : q < numQuads) (h : takesWriteIn (s.at t) p .LNK_QUAD_CTL q 0 a) :
    exec (.p2Exit t p q) s = .next (reported (a.writePwr q 0) p) :=
  (if_pos ⟨hq, hp⟩).trans (congrArg Host.Outcome.next (State.hostWrite_effect (Command.LNK_QUAD_CTL hq) (by rfl) (by rfl) h))

theorem exec_linkUp_on (hb : b < numLinks) (h : takesWriteIn (s.at t) p .LNK_LINK_CTL b 1 a) : exec (.linkUp t p b 1) s =
    .next (reported ((a.put .LNK_LINK_CTL_ENABLE b 1).enableLink b 1 (a.get .LNK_LINK_CTL_ENABLE b)) p) :=
  (if_pos ⟨hb, hp⟩).trans (congrArg Host.Outcome.next (State.hostWrite_effect (Command.LNK_LINK_CTL hb) (by rfl) (by rfl) h))

theorem exec_linkUp_off (hb : b < numLinks) (h : takesWriteIn (s.at t) p .LNK_LINK_CTL b 0 a) : exec (.linkUp t p b 0) s =
    .next (reported ((a.put .LNK_LINK_CTL_ENABLE b 0).enableLink b 0 (a.get .LNK_LINK_CTL_ENABLE b)) p) :=
  (if_pos ⟨hb, hp⟩).trans (congrArg Host.Outcome.next (State.hostWrite_effect (Command.LNK_LINK_CTL hb) (by rfl) (by rfl) h))

end

/-! ## The power states of a quad -/

section
variable {s y : State} {q v : Nat}

theorem State.writePwr_of_same (h : s.get .LNK_QUAD_CTL_PWR q = v) : s.writePwr q v = s.put .LNK_QUAD_CTL_PWR q v := by
  simp only [State.writePwr, h, if_true]

/-- R363: the entry to P2 powers the quad down; its lanes lose their block lock. -/
theorem State.writePwr_of_entry (h : s.get .LNK_QUAD_CTL_PWR q ≠ 2) : s.writePwr q 2 = (List.range 4).foldl
    (fun s i => s.setLane (4 * q + i) { s.lane (4 * q + i) with lock := false })
    ((s.put .LNK_QUAD_CTL_PWR q 2).setQuad q { s.quad q with pwr := 2, pll := false }) := by
  simp only [State.writePwr, if_neg h.symm, State.quad_put, if_true]

section
variable (hy : y = s.put .LNK_QUAD_CTL_PWR q 0)
include hy

/-- R363: the exit begins where some lane is trained or in SEEK. -/
theorem State.writePwr_of_exit {used : Bool} (h : s.get .LNK_QUAD_CTL_PWR q ≠ 0) (h2 : (s.quad q).pwr = 2)
    (hu : used = (List.range 4).any fun i => (y.lane (4 * q + i)).state == 6 || (y.lane (4 * q + i)).state == 7) :
    s.writePwr q 0 = if used then y.setQuad q { s.quad q with pwr := 1, exitAt := y.now } else y.wakeLanes := by
  subst hu hy
  simp only [State.writePwr, if_neg h.symm, State.quad_put, h2, OfNat.zero_ne_ofNat, if_false, if_true]

theorem State.writePwr_of_awake (h2 : (s.quad q).pwr ≠ 2) : s.writePwr q 0 = y := by
  subst hy
  by_cases h : s.get .LNK_QUAD_CTL_PWR q = 0
  · exact State.writePwr_of_same h
  · simp only [State.writePwr, if_neg (Ne.symm h), State.quad_put, h2, OfNat.zero_ne_ofNat, if_false]

end

end

/-! ## ENABLE of a link -/

section
variable {s z : State} {b en was : Nat}

theorem State.enableLink_of_same (h : was = en) : s.enableLink b en was = s := if_pos h.symm

/-- R120, R377: the link waits for the governor's grant. -/
theorem State.enableLink_on : s.enableLink b 1 0 =
    ((s.linkLanes b).foldl State.noteEnable (s.setLink b { s.link b with pend := true })).submit 1 (.link b) := by
  simp only [State.enableLink, Nat.one_ne_zero, if_false, if_true]

theorem State.enableLink_off_pending (h : (s.link b).pend = true) :
    s.enableLink b 0 1 = (s.setLink b { s.link b with pend := false }).retract (.link b) := by
  simp only [State.enableLink, Nat.zero_ne_one, h, if_false, if_true]

/-- R377: a link that is up goes down, and the costs of its lanes are released. -/
theorem State.enableLink_off_granted (h : (s.link b).pend = false) (hz : z = s.setLink b { s.link b with up := false }) :
    s.enableLink b 0 1 = ((z.linkLanes b).foldl (fun s l => s.releaseCost (.lane l)) z).noteBoot := by
  subst hz
  simp only [State.enableLink, Nat.zero_ne_one, h, if_false, Bool.false_eq_true]

end

/-- Settles O39: each command is its register write; what it does follows the field and the unit as they stood before it. -/
theorem quadAndLinkHostCommandsTakeEffect : Obligations.QuadAndLinkHostCommandsTakeEffect := by
  intro s u a t p q b x k hu hp hq hb hx hk
  subst hu hx hk
  refine ⟨fun h => ⟨fun hw => ?_, fun hw => ?_⟩, fun y used h hy hu => ⟨fun hw h2 hu1 => ?_, fun hw h2 hu0 => ?_, fun hw => ?_⟩,
    fun y h hy => ⟨fun hw => ?_, fun hw => ?_⟩, fun y z h hy hz => ⟨fun hw hpd => ?_, fun hw hpd => ?_, fun hw => ?_⟩⟩
  · rw [exec_p2 hp hq h, State.writePwr_of_entry hw]
  · rw [exec_p2 hp hq h, State.writePwr_of_same hw]
  · rw [exec_p2Exit hp hq h, State.writePwr_of_exit hy hw h2 hu, if_pos hu1]
  · rw [exec_p2Exit hp hq h, State.writePwr_of_exit hy hw h2 hu, if_neg (Bool.eq_false_iff.mp hu0)]
  · rw [exec_p2Exit hp hq h]
    rcases hw with hw | hw
    · rw [State.writePwr_of_same hw, hy]
    · rw [State.writePwr_of_awake hy hw]
  · subst hy
    rw [exec_linkUp_on hp hb h, hw, State.enableLink_on, State.link_put]
  · rw [exec_linkUp_on hp hb h, State.enableLink_of_same hw, hy]
  · rw [exec_linkUp_off hp hb h, hw, ← hy, State.enableLink_off_pending (by rw [hy, State.link_put, hpd]), hy, State.link_put]
  · rw [exec_linkUp_off hp hb h, hw, ← hy,
      State.enableLink_off_granted (by rw [hy, State.link_put, hpd]) (hz.trans (by rw [hy, State.link_put]))]
  · rw [exec_linkUp_off hp hb h, State.enableLink_of_same hw, hy]

end Sys2Proof.Machine
end

section
/-!
What happens to a lane after its training (R350, R351, R355-R357, R363-R365, R393): the losses of signal and of lock, SEEK, the eye
and adaptation, the ends of P1 and P2, and the fault of a quad. A queued lane that loses its signal begins its attempt at SIGNAL,
as the model's choice (log entry 36); the number of invalid headers at a loss of lock is a free value (log entry 3).
-/

namespace Sys2Proof.Machine

section
variable {s y z : State} {l q : Nat} {x : Lane} (hx : x = s.lane l)

/-! ## Signal and lock -/

section
include hx

/-- R360: a lane that is to retire is retired with the loss of its signal; any other one goes to SEEK. -/
theorem State.losLane_of_listening (h2 : 2 ≤ x.state) (h6 : x.state ≤ 6) (hl : s.listens l = true) :
    s.losLane l = if x.retire then s.retireNow l
      else (((s.setLane l { x with signal := false }).ingestLost l).toSeek l).raise .LNK_LANE_EVENT_LOS l := by
  subst hx
  exact if_pos ⟨h2, h6, hl⟩

/-- R356: a queued lane has lost its lock too, and begins at SIGNAL. -/
theorem State.losLane_of_queued (h1 : x.state = 1) :
    s.losLane l = s.setLane l { x with signal := false, lock := false, eyeTry := false } := by
  subst hx
  exact (if_neg (by omega)).trans (if_pos h1)

/-- R356, R362, R363: a lane that is out of use, or that does not listen, takes only the fact. -/
theorem State.losLane_of_deaf (h : x.state = 0 ∨ 6 < x.state ∨ 1 < x.state ∧ s.listens l = false) :
    s.losLane l = s.setLane l { x with signal := false } := by
  subst hx
  have hact : ¬ (2 ≤ (s.lane l).state ∧ (s.lane l).state ≤ 6 ∧ s.listens l = true) := by
    rintro ⟨h2, h6, hl⟩
    simp only [hl, Bool.true_eq_false, and_false, or_false] at h
    omega
  exact (if_neg hact).trans (if_neg (by omega))

section
variable (hk : x.lock = true) (hl : s.listens l = true)
  (hy : y = s.free.2.count .LNK_LANE_SHERR_COUNT l (8 + s.free.1 % 25))
include hk hl hy

/-- R355: what a lane that listens does when it loses its lock: a trained one queues with its presets, one in ADAPT or FFE
begins its attempt again, any other one takes only the fact. -/
theorem State.unlockLane_of_locked (hz : z = (y.ingestLost l).stopLane l false) :
    s.unlockLane l =
      if x.state = 6 then
        ((z.setLane l { z.lane l with taps := z.presets l }).enqueue l false).raise .LNK_LANE_EVENT_LOST_LOCK l
      else if x.state = 4 ∨ x.state = 5 then
        y.setLane l { x with state := 2, lock := false, eyeTry := false, phaseAt := y.now, tryAt := y.now }
      else y.setLane l { x with lock := false, eyeTry := false } := by
  subst hz hy hx
  exact if_pos (by rw [hk, hl]; rfl)

end

/-! ## SEEK -/

/-- R357: a lane in SEEK queues again after its back-off, or half a second into SEEK where signal energy is detected. -/
theorem State.retrySeek_of_due {signal : Bool} (h7 : x.state = 7) (hq : (s.quad (l / 4)).pwr = 0)
    (ht : x.seekAt + 500 * 2 ^ x.backoff * qMs ≤ s.now ∨ signal = true ∧ x.seekAt + 500 * qMs ≤ s.now) :
    s.retrySeek l signal = (s.setLane l { x with signal := x.signal || signal }).enqueue l false := by
  subst hx
  exact if_pos ⟨h7, hq, ht⟩

/-! ## The eye and adaptation -/

section
variable (h6 : x.state = 6) (hp : x.p1 = false) (hq : (s.quad (l / 4)).pwr = 0)
include h6 hp hq

section
variable {vm hm : Nat} (hy : y = (s.put .LNK_LANE_EYE_VMARGIN l vm).put .LNK_LANE_EYE_HMARGIN l hm)
include hy

theorem State.measureEye_of_good (hv : y.get .LNK_QUAD_CFG_EYE_VMIN (l / 4) ≤ vm)
    (hh : y.get .LNK_QUAD_CFG_EYE_HMIN (l / 4) ≤ hm) : s.measureEye l vm hm = y.setLane l { x with lows := 0 } := by
  subst hy hx
  exact (if_pos ⟨h6, hp, hq⟩).trans (if_neg (by omega))

/-- R351: the low measurements in a row are counted, and the sixteenth begins an eye retraining, but not under an armed channel. -/
theorem State.measureEye_of_low (hlow : vm < y.get .LNK_QUAD_CFG_EYE_VMIN (l / 4) ∨ hm < y.get .LNK_QUAD_CFG_EYE_HMIN (l / 4))
    (hz : z = (y.setLane l { x with lows := 0 }).raise .LNK_LANE_EVENT_EYE_LOW l) :
    s.measureEye l vm hm = if x.lows + 1 < 16 then y.setLane l { x with lows := x.lows + 1 }
      else if z.feedsArmed l false then z else z.startRetrain l := by
  subst hz hy hx
  exact (if_pos ⟨h6, hp, hq⟩).trans (if_pos hlow)

end

/-- R350: one step of the CTLE and of each DFE tap, held to the tap's range and to 8 from its trained value. -/
theorem State.adaptLane_of_trained {steps : List Int} : s.adaptLane l steps = (List.range 13).foldl (fun y j =>
    (fun i z => if (steps.getD j 0).sign = 0 then y
      else if 8 < (z - (y.lane l).trained.getD i 0).natAbs ∨ z < tapLow i ∨ tapHigh i < z then
        (y.count .LNK_LANE_GUARD_COUNT l).raise .LNK_LANE_EVENT_GUARD l
      else y.setLane l { y.lane l with taps := (y.lane l).taps.set i z })
    (if j = 0 then 0 else j + 3) ((y.lane l).taps.getD (if j = 0 then 0 else j + 3) 0 + (steps.getD j 0).sign))
    (s.setLane l { x with frozen := false }) := by
  subst hx
  exact if_pos ⟨h6, hp, hq⟩

end

end

/-! ## The ends of P2 -/

/-- R363: the trained lanes of the quad have their block lock again. -/
theorem State.exitDone_of_inTime (h1 : (s.quad q).pwr = 1) (ht : s.now ≤ (s.quad q).exitAt + 1200 * qUs)
    (hy : y = (List.range 4).foldl (fun s i =>
      if (s.lane (4 * q + i)).state = 6 then s.setLane (4 * q + i) { s.lane (4 * q + i) with lock := true } else s)
      (s.setQuad q { s.quad q with pwr := 0, pll := true })) : s.exitDone q = y.wakeLanes := by
  subst hy
  exact if_pos ⟨h1, ht⟩

/-- R363: a lane without block lock 1.2 ms into the exit queues with the taps that it holds. -/
theorem State.exitLate_of_due {k : Quad} (hx : x = s.lane l) (hk : k = s.quad (l / 4)) (h0 : k.exitAt ≠ 0)
    (ht : k.exitAt + 1200 * qUs ≤ s.now) (h1 : k.pwr ≤ 1) (h6 : x.state = 6) (hl : x.lock = false)
    (hy : y = s.setQuad (l / 4) { k with pwr := 0, pll := true }) :
    s.exitLate l = (((y.setLane l { x with p1 := false }).stopLane l false).enqueue l false).wakeLanes := by
  subst hy hk hx
  exact if_pos ⟨h0, ht, h1, h6, hl⟩

end

/-- Settles O41: each event is one lemma on the state of the lane, or of its quad. -/
theorem laneEventsTakeEffect : Obligations.LaneEventsTakeEffect := by
  intro s u t l q x hu hl hq hx
  subst hu
  refine ⟨fun h2 h6 hls => ⟨fun hr => ?_, fun hr => ?_⟩, fun h1 => ?_, fun hd => ?_,
    fun y z hk hls hy hz => ⟨fun h6 => ?_, fun h45 => ?_, fun ho => ?_⟩, fun signal h7 hp ht => ?_,
    fun vm hm y h6 hp1 hp hy => ⟨fun hv hh => ?_, fun hlow hn => ?_, fun z hlow hn hz => ?_⟩,
    fun steps h6 hp1 hp => ?_, fun h6 hj => ?_, ?_, fun y h1 ht hy => ?_, fun y k hk h0 ht h1 h6 hlk hy => ?_, fun hp => ?_⟩
  · exact (if_pos hl).trans (congrArg Host.Outcome.next ((State.losLane_of_listening hx h2 h6 hls).trans (if_pos hr)))
  · exact (if_pos hl).trans (congrArg Host.Outcome.next
      ((State.losLane_of_listening hx h2 h6 hls).trans (if_neg (Bool.eq_false_iff.mp hr))))
  · exact (if_pos hl).trans (congrArg Host.Outcome.next (State.losLane_of_queued hx h1))
  · exact (if_pos hl).trans (congrArg Host.Outcome.next (State.losLane_of_deaf hx hd))
  · exact (if_pos hl).trans (congrArg Host.Outcome.next ((State.unlockLane_of_locked hx hk hls hy hz).trans (if_pos h6)))
  · exact (if_pos hl).trans (congrArg Host.Outcome.next
      ((State.unlockLane_of_locked hx hk hls hy hz).trans ((if_neg (by omega)).trans (if_pos h45))))
  · exact (if_pos hl).trans (congrArg Host.Outcome.next
      ((State.unlockLane_of_locked hx hk hls hy hz).trans ((if_neg (by omega)).trans (if_neg (by omega)))))
  · exact (if_pos hl).trans (congrArg Host.Outcome.next (State.retrySeek_of_due hx h7 hp ht))
  · exact (if_pos hl).trans (congrArg Host.Outcome.next (State.measureEye_of_good hx h6 hp1 hp hy hv hh))
  · exact (if_pos hl).trans (congrArg Host.Outcome.next
      ((State.measureEye_of_low hx h6 hp1 hp hy hlow rfl).trans (if_pos (by omega))))
  · exact (if_pos hl).trans (congrArg Host.Outcome.next
      ((State.measureEye_of_low hx h6 hp1 hp hy hlow hz).trans (if_neg (by omega))))
  · exact (if_pos hl).trans (congrArg Host.Outcome.next (State.adaptLane_of_trained hx h6 hp1 hp))
  · subst hx
    exact (if_pos hl).trans (congrArg Host.Outcome.next (if_pos ⟨h6, hj⟩))
  · subst hx
    exact if_pos hl
  · exact (if_pos hq).trans (congrArg Host.Outcome.next (State.exitDone_of_inTime h1 ht hy))
  · exact (if_pos hl).trans (congrArg Host.Outcome.next (State.exitLate_of_due hx hk h0 ht h1 h6 hlk hy))
  · exact (if_pos hq).trans (congrArg Host.Outcome.next (if_neg hp))

end Sys2Proof.Machine
end

section
/-!
The DATA blocks that a link hears (R350, R380, R381, R383): a word of the packet in progress, or of the selected stream.
-/

namespace Sys2Proof.Machine

section
variable {s y : State} {b w : Nat} {k : Link} (hh : s.linkHears b = true) (hy : y = s.thawLanes b) (hk : k = y.link b)
include hh hy hk

/-- R380: the word of a packet in progress; the packet whose words have all come is taken. -/
theorem State.recvData_of_packet {len : Nat} {ws : List Nat} (hp : k.packet = some (len, ws)) :
    s.recvData b w = if len ≤ ws.length + 1 then (y.setLink b { k with packet := none }).takePacket b (ws ++ [w])
      else y.setLink b { k with packet := some (len, ws ++ [w]) } := by
  subst hk hy
  simp only [State.recvData, hh, hp, Bool.not_true, Bool.false_eq_true, if_false, List.length_append, List.length_singleton]

section
variable (hp : k.packet = none)
include hp

theorem State.recvData_of_unadmitted (ha : k.admitted = false) : s.recvData b w = y := by
  subst hk hy
  simp only [State.recvData, hh, hp, ha, Bool.not_true, Bool.not_false, Bool.false_eq_true, if_false, if_true]

variable (ha : k.admitted = true)
include ha

/-- R380: a DATA block with no stream selected is an error of the protocol. -/
theorem State.recvData_of_unselected (hs : k.stream = none) : s.recvData b w = y.raise .LNK_LINK_EVENT_PROTOCOL b := by
  subst hk hy
  simp only [State.recvData, hh, hp, ha, hs, Bool.not_true, Bool.false_eq_true, if_false]

/-- R383: a word that no channel of the stream takes is lost, and an error of the protocol. -/
theorem State.recvData_of_stream {stream : Nat} {taken : Bool} {z : State} (hs : k.stream = some stream)
    (hz : y.takeData b stream w = (taken, z)) :
    s.recvData b w = if taken then z else (z.count .LNK_LINK_LOST_BLOCKS_COUNT b).raise .LNK_LINK_EVENT_PROTOCOL b := by
  subst hk hy
  simp only [State.recvData, hh, hp, ha, hs, hz, Bool.not_true, Bool.false_eq_true, if_false]

end

end

/-- Settles O44: the word belongs to the packet in progress, or else to the selected stream. -/
theorem dataBlocksTakeEffect : Obligations.DataBlocksTakeEffect := by
  intro s u y t b w k hu hb hh hw hk hy
  subst hu
  have block {x : State} (h : (s.at t).recvData b w = x) : exec (.data t b w) s = .next x := by
    rw [← h]
    exact (if_pos hb).trans (by rw [Nat.mod_eq_of_lt hw])
  refine ⟨fun len ws hp hl => ?_, fun len ws hp hl => ?_, fun hp ha => block (State.recvData_of_unadmitted hh hy hk hp ha),
    fun hp ha hs => block (State.recvData_of_unselected hh hy hk hp ha hs), fun stream z hp ha hs hz => ?_,
    fun stream z hp ha hs hz => ?_⟩
  · exact block ((State.recvData_of_packet hh hy hk hp).trans (if_neg (by omega)))
  · exact block ((State.recvData_of_packet hh hy hk hp).trans (if_pos hl))
  · exact block ((State.recvData_of_stream hh hy hk hp ha hs hz).trans (if_pos rfl))
  · exact block ((State.recvData_of_stream hh hy hk hp ha hs hz).trans (if_neg Bool.false_ne_true))

end Sys2Proof.Machine
end

section
/-!
The control blocks that a link hears (R370, R373, R379, R380, R382, R383, R388, R389): the block by its type, its CHECK and its SUB,
and what each SUB does. A start request that GO would refuse is ignored and counted, as the model's choice (log entry 34).
-/

namespace Sys2Proof.Machine

/-! ## Blocks -/

section
variable {s y : State} {b w : Nat} (hh : s.linkHears b = true) (hy : y = s.breakPacket b)
include hh hy

theorem State.recvBlock_of_ctrl (ht : w % 256 = 0x78) (hc : checkOk w = true) : s.recvBlock b w = y.recvCtrl b w := by
  subst hy
  simp only [State.recvBlock, hh, ht, hc, Bool.not_true, Bool.false_or, Nat.reduceBEq, Nat.reduceEqDiff, Bool.false_eq_true,
    or_true, if_false, if_true]

/-- R373: a block with a bad CHECK is counted. -/
theorem State.recvBlock_of_badCheck (ht : w % 256 = 0x78 ∨ w % 256 = 0x4B) (hc : checkOk w = false) :
    s.recvBlock b w = y.count .LNK_LINK_CHK_ERR_COUNT b := by
  subst hy
  rcases ht with ht | ht <;>
    simp only [State.recvBlock, hh, ht, hc, Bool.not_true, Bool.not_false, Bool.false_or, Nat.reduceBEq, Nat.reduceEqDiff,
      Bool.false_eq_true, or_true, true_or, if_false, if_true]

/-- R370: a block of an unknown type is counted. -/
theorem State.recvBlock_of_unknownType (h0 : w % 256 ≠ 0) (h33 : w % 256 ≠ 0x33) (h4b : w % 256 ≠ 0x4B) (h55 : w % 256 ≠ 0x55)
    (h78 : w % 256 ≠ 0x78) : s.recvBlock b w = y.count .LNK_LINK_UNKNOWN_COUNT b := by
  subst hy
  have hhead : (!s.linkHears b || w % 256 == 0x33) = false := by simp [hh, h33]
  simp only [State.recvBlock, hhead, h0, h4b, h55, h78, Bool.false_eq_true, or_self, if_false]

end

/-! ## The SUBs of a control block -/

section
variable {s : State} {b w : Nat}

/-- R380: STREAM selects the stream of the data blocks that follow, on an admitted link. -/
theorem State.recvCtrl_of_stream (h : bits w 8 4 = subStream) : s.recvCtrl b w =
    if (s.link b).admitted then s.setLink b { s.link b with stream := some (bits w 16 6) } else s := if_pos h

theorem State.recvCtrl_of_credit (h : bits w 8 4 = subCredit) : s.recvCtrl b w = s.recvCredit b w :=
  (if_neg (by rw [h]; decide)).trans (if_pos h)

theorem State.recvCtrl_of_start (h : bits w 8 4 = subStart) :
    s.recvCtrl b w = if (s.link b).admitted then s.startRequest b (bits w 16 6) else s := by
  simp only [State.recvCtrl, h, subStart, subStream, subCredit, Nat.reduceEqDiff, OfNat.ofNat_ne_zero, if_false, if_true]

theorem State.recvCtrl_of_time (h : bits w 8 4 = subTimeSet ∨ bits w 8 4 = subLeap) :
    s.recvCtrl b w = s.timeCommand b (bits w 8 4) w := by
  rcases h with h | h <;>
    simp only [State.recvCtrl, h, subStart, subStream, subCredit, subPkt, subTimeSet, subLeap, Nat.reduceEqDiff,
      OfNat.ofNat_ne_zero, or_true, true_or, if_false, if_true]

theorem State.recvCtrl_of_trigger (h : bits w 8 4 = subTrigger) : s.recvCtrl b w = s.linkTrigger b w := by
  simp only [State.recvCtrl, h, subStart, subStream, subCredit, subPkt, subTimeSet, subLeap, subTrigger, Nat.reduceEqDiff,
    OfNat.ofNat_ne_zero, or_self, if_false, if_true]

/-- R370: a block of an unknown SUB is counted. -/
theorem State.recvCtrl_of_unknown (h : bits w 8 4 = subAck ∨ subP1 < bits w 8 4) :
    s.recvCtrl b w = s.count .LNK_LINK_UNKNOWN_COUNT b := by
  have hn : ∀ k, k ≤ subP1 → k ≠ subAck → bits w 8 4 ≠ k := by
    rintro k h9 h6 rfl
    exact h.elim h6 (Nat.not_lt.mpr h9)
  simp only [State.recvCtrl, hn subStream (by decide) (by decide), hn subCredit (by decide) (by decide),
    hn subStart (by decide) (by decide), hn subPkt (by decide) (by decide), hn subTimeSet (by decide) (by decide),
    hn subLeap (by decide) (by decide), hn subTrigger (by decide) (by decide), hn subTrain (by decide) (by decide),
    hn subP1 (by decide) (by decide), or_self, if_false]

/-! ## CREDIT and START -/

/-- R382: CREDIT names the total of a stream; the link takes what it has grown by. -/
theorem State.recvCredit_of_admitted (h : (s.link b).admitted = true) : s.recvCredit b w =
    (s.setLink b { s.link b with taken := SMap.set (fun _ => 0) (s.link b).taken (bits w 16 6) (bits w 22 12) }).takeCredits b
      (bits w 16 6) ((bits w 22 12 + 4096 - SMap.get (fun _ => 0) (s.link b).taken (bits w 16 6)) % 4096) :=
  if_neg (by simp [h])

theorem State.recvCredit_of_waiting (h : (s.link b).admitted = false) : s.recvCredit b w = s := if_pos (by simp [h])

section
variable {stream c : Nat}

theorem State.startRequest_of_none (h : s.remoteFor b stream = none) : s.startRequest b stream = s := by
  simp only [State.startRequest, h]

section
variable (h : s.remoteFor b stream = some c)
include h

/-- R331: a start request begins the channel that it reaches. -/
theorem State.startRequest_of_begins (hn : s.startedNow c = false) (hg : s.goError c = none) :
    s.startRequest b stream = s.beginSlu c true := by
  simp only [State.startRequest, h, hn, hg, Option.isSome_none, Bool.or_self, Bool.false_eq_true, if_false]

theorem State.startRequest_of_refused (hr : s.startedNow c = true ∨ s.goError c ≠ none) :
    s.startRequest b stream = s.count .SLU_CREDIT_IGNORED c := by
  have href : (s.startedNow c || (s.goError c).isSome) = true := by
    rcases hr with hr | hr
    · simp [hr]
    · simp [Option.isSome_iff_ne_none.mpr hr]
  simp only [State.startRequest, h, if_pos href]

end

end

/-! ## TIME_SET and LEAP -/

section
variable {sub : Nat}

/-- R388: a command that is repeated is answered with the ACK that is kept. -/
theorem State.timeCommand_of_kept {r : Kept}
    (h : (s.link b).kept.find? (fun r => r.tag == bits w 16 8 && r.crc == 2 ^ 32 + sub) = some r) :
    s.timeCommand b sub w = s.sendBlock b (r.words.headD 0) := by
  simp only [State.timeCommand, h]

section
variable (h : (s.link b).kept.find? (fun r => r.tag == bits w 16 8 && r.crc == 2 ^ 32 + sub) = none)
include h

theorem State.timeCommand_of_locked (ht : s.get .LNK_LINK_CFG_TIME b = 0) :
    s.timeCommand b sub w = s.sendAck b sub (bits w 16 8) respLocked 0 := by
  simp only [State.timeCommand, h, if_pos ht]

section
variable (ht : s.get .LNK_LINK_CFG_TIME b ≠ 0)
include ht

theorem State.timeCommand_of_waiting (ha : (s.link b).admitted = false) :
    s.timeCommand b sub w = s.sendAck b sub (bits w 16 8) respBusy 0 := by
  simp only [State.timeCommand, h, if_neg ht, if_pos ha]

variable (ha : (s.link b).admitted = true)
include ha

theorem State.timeCommand_of_leap (hs : sub = subLeap) : s.timeCommand b sub w =
    (s.announceLink (bits w 24 32) (bits w 12 1)).sendAck b sub (bits w 16 8) respOk 0 := by
  simp only [State.timeCommand, h, if_neg ht, ha, Bool.true_eq_false, if_false, if_pos hs]

/-- R388, R395: a second is set where no lower link has set one in the cycle and no unit runs. -/
theorem State.timeCommand_of_timeSet (hs : sub = subTimeSet) : s.timeCommand b sub w =
    if s.setByLower b then s.sendAck b sub (bits w 16 8) respBusy 0
    else if s.quiet then
      (fun z : State => { z with time := { z.time with setBy := some (z.now, b) } }.sendAck b sub (bits w 16 8) respOk 0)
        (s.acceptSec (bits w 24 32) true)
    else s.sendAck b sub (bits w 16 8) respNak eState := by
  have hn : ¬ sub = subLeap := by rw [hs]; decide
  simp only [State.timeCommand, h, if_neg ht, ha, Bool.true_eq_false, if_false, if_neg hn]

end

end

end

/-! ## TRIGGER -/

theorem State.linkTrigger_of_disabled (h : s.get .LNK_LINK_CFG_TRIG b = 0) : s.linkTrigger b w = s := if_pos h

section
variable (h : s.get .LNK_LINK_CFG_TRIG b ≠ 0)
include h

theorem State.linkTrigger_of_badCode (hc : bits w 24 8 ≠ bits w 16 8 ^^^ 0xFF) :
    s.linkTrigger b w = s.count .LNK_LINK_CHK_ERR_COUNT b := (if_neg h).trans (if_pos hc)

variable (hc : bits w 24 8 = bits w 16 8 ^^^ 0xFF)
include hc

theorem State.linkTrigger_of_waiting (ha : (s.link b).admitted = false) : s.linkTrigger b w = s :=
  (if_neg h).trans ((if_neg (not_not_intro hc)).trans (if_pos ha))

/-- R389, R395: a code meets the conditions of a boundary once. -/
theorem State.linkTrigger_of_admitted {y : State} {at_ : Int} {codes : List Nat} (ha : (s.link b).admitted = true)
    (hy : y = s.count .LNK_LINK_TRIGGERS_COUNT b) (hat : at_ = ceilCoarse y.tick)
    (hcodes : codes = if y.time.linkTrig.1 = at_ then y.time.linkTrig.2 else []) :
    s.linkTrigger b w = if y.time.halted = true ∨ codes.contains (bits w 16 8) = true then y
      else ({ y with time := { y.time with linkTrig := (at_, bits w 16 8 :: codes) } }).aqEvents (.link (bits w 16 8) at_) := by
  subst hcodes hat hy
  exact (if_neg h).trans ((if_neg (not_not_intro hc)).trans (if_neg (by simp [ha])))

end

end

/-- Settles O42: a block is taken by its type and CHECK, a control block by its SUB, and each SUB by what the link is. -/
theorem controlBlocksTakeEffect : Obligations.ControlBlocksTakeEffect := by
  intro s t b w hb hh y k tag sec triggered at_ codes
  have block {x : State} (h : (s.at t).recvBlock b w = x) :
      (if b < numLinks then .next ((s.at t).recvBlock b w) else .fault .noSuchUnit : Host.Outcome State Fault Refusal) = .next x :=
    (if_pos hb).trans (congrArg Host.Outcome.next h)
  refine ⟨fun ht hc => ?ctrl, fun ht hc => block (State.recvBlock_of_badCheck hh rfl ht hc),
    fun h0 h33 h4b h55 h78 => block (State.recvBlock_of_unknownType hh rfl h0 h33 h4b h55 h78)⟩
  have ctrl {x : State} (h : y.recvCtrl b w = x) :=
    block ((State.recvBlock_of_ctrl hh rfl ht hc).trans h)
  refine ⟨fun hs => ⟨fun ha => ?_, fun ha => ?_⟩, fun hs => ⟨fun ha => ?_, fun ha => ?_⟩,
    fun hs => ⟨fun ha hr => ?_, fun c ha hr hn hg => ?_, fun c ha hr href => ?_, fun ha => ?_⟩,
    fun hs => ?timeSet, fun hs => ?leap, fun hs => ?trigger, fun hs => ctrl (State.recvCtrl_of_unknown hs)⟩
  case timeSet =>
    have time {x : State} (h : y.timeCommand b subTimeSet w = x) :=
      ctrl ((State.recvCtrl_of_time (.inl hs)).trans (hs ▸ h))
    refine ⟨fun r hr => time (State.timeCommand_of_kept hr), fun hr => ⟨fun h0 => time (State.timeCommand_of_locked hr h0),
      fun hn ha => time (State.timeCommand_of_waiting hr hn ha), fun hn ha hl => ?_, fun z hn ha hl hq hz => ?_,
      fun hn ha hl hq => ?_⟩⟩
    all_goals refine time ((State.timeCommand_of_timeSet hr hn ha rfl).trans ?_)
    · exact if_pos hl
    · subst hz
      exact (if_neg (Bool.eq_false_iff.mp hl)).trans (if_pos hq)
    · exact (if_neg (Bool.eq_false_iff.mp hl)).trans (if_neg (Bool.eq_false_iff.mp hq))
  case leap =>
    have time {x : State} (h : y.timeCommand b subLeap w = x) :=
      ctrl ((State.recvCtrl_of_time (.inr hs)).trans (hs ▸ h))
    exact ⟨fun r hr => time (State.timeCommand_of_kept hr), fun hr => ⟨fun h0 => time (State.timeCommand_of_locked hr h0),
      fun hn ha => time (State.timeCommand_of_waiting hr hn ha),
      fun hn ha => time (State.timeCommand_of_leap hr hn ha rfl)⟩⟩
  case trigger =>
    have trig {x : State} (h : y.linkTrigger b w = x) := ctrl ((State.recvCtrl_of_trigger hs).trans h)
    exact ⟨fun h0 => trig (State.linkTrigger_of_disabled h0), fun hn hbad => trig (State.linkTrigger_of_badCode hn hbad),
      fun hn hgood ha => trig (State.linkTrigger_of_waiting hn hgood ha),
      fun hn hgood ha => trig (State.linkTrigger_of_admitted hn hgood ha rfl rfl rfl)⟩
  · exact ctrl ((State.recvCtrl_of_stream hs).trans (if_pos ha))
  · exact ctrl ((State.recvCtrl_of_stream hs).trans (if_neg (Bool.eq_false_iff.mp ha)))
  · exact ctrl ((State.recvCtrl_of_credit hs).trans (State.recvCredit_of_admitted ha))
  · exact ctrl ((State.recvCtrl_of_credit hs).trans (State.recvCredit_of_waiting ha))
  · exact ctrl ((State.recvCtrl_of_start hs).trans ((if_pos ha).trans (State.startRequest_of_none hr)))
  · exact ctrl ((State.recvCtrl_of_start hs).trans ((if_pos ha).trans (State.startRequest_of_begins hr hn hg)))
  · exact ctrl ((State.recvCtrl_of_start hs).trans ((if_pos ha).trans (State.startRequest_of_refused hr href)))
  · exact ctrl ((State.recvCtrl_of_start hs).trans (if_neg (Bool.eq_false_iff.mp ha)))

end Sys2Proof.Machine
end

section
/-!
The ALIGN slots and the lane-local blocks (R371-R378, R382, R392, R393). NOT_READY is sent once a slot, as the model's choice (log
entry 47); whether the parity of a lane agrees is a free value (log entry 44).
-/

namespace Sys2Proof.Machine

@[simp] theorem State.lane_count (s : State) (f : Fld) (i n l : Nat) : (s.count f i n).lane l = s.lane l := rfl

section
variable {s y z v : State} {b l w : Nat} {x : Lane}

/-! ## The ALIGN slot of a link -/

/-- R371: with no lane trained or in service the admission ends, and no ALIGN is sent. -/
theorem State.alignSlot_of_silent (h : ∀ m ∈ s.linkLanes b, (s.lane m).state ≠ 6 ∧ (s.lane m).service = false)
    (hz : z = if (s.link b).admitted then s.endLink b else s) :
    s.alignSlot b = z.setLink b { z.link b with aseq := 0, rxAseq := none, tx := 0, offer := 0 } := by
  have hnone : ((s.linkLanes b).any fun m => (s.lane m).state == 6 || (s.lane m).service) = false := by
    simpa only [List.any_eq_false, Bool.or_eq_true, beq_iff_eq, not_or, Bool.not_eq_true] using h
  subst hz
  exact if_pos hnone

/-- R371-R378: the slot of a link with a lane that is trained or in service. -/
theorem State.alignSlot_of_heard {ready : Bool} (h : ∃ m ∈ s.linkLanes b, (s.lane m).state = 6 ∨ (s.lane m).service = true)
    (hy : y = (s.linkLanes b).foldl State.takeService ((s.linkLanes b).foldl (fun s m => s.missAlign b m)
      ((s.linkLanes b).foldl (fun s m => s.enterP1 b m) s)))
    (hz : z = y.setLink b { y.link b with tx := y.laneMask b (·.service), offer := y.laneMask b (·.deskew) })
    (hr : ready = (!(z.linkWorking b).isEmpty && (z.linkWorking b).all fun m => (z.lane m).state == 6 && (z.lane m).deskew))
    (hv : v = (if !(z.link b).admitted && (z.link b).up && ready then z.admitLink b
      else if (z.link b).admitted && (z.link b).tx == 0 && (s.link b).tx != 0 then z.endLink b else z).sendAligns b) :
    s.alignSlot b = (fun r => if !(r.link b).admitted && (r.link b).tx != 0 then r.sendBlock b (r.notReadyBlock b) else r)
      (v.setLink b { v.link b with aseq := ((v.link b).aseq + 1) % 256 }) := by
  have hsome : ¬ ((s.linkLanes b).any fun m => (s.lane m).state == 6 || (s.lane m).service) = false := by
    simpa only [Bool.not_eq_false, List.any_eq_true, Bool.or_eq_true, beq_iff_eq] using h
  subst hv hr hz hy
  exact if_neg hsome

/-! ## ALIGN of the partner -/

section
variable {c : Nat} (hx : x = s.lane l) (hc : c = s.get .LNK_LANE_CFG_LINK l) (hj : s.isJesd l = false) (hcfg : x.cfg = true)
  (h6 : x.state = 6) (hk : x.lock = true) (hw : w % 256 = 0x33)
include hx hc hj hcfg h6 hk hw

theorem State.recvAlign_of_badCheck (hb : checkOk w = false) : s.recvAlign l w = s.count .LNK_LINK_CHK_ERR_COUNT c := by
  subst hx hc
  simp only [State.recvAlign, hj, hcfg, h6, hk, hw, hb, Bool.not_true, Bool.not_false, bne_self_eq_false, Bool.or_self,
    Bool.false_eq_true, if_false, if_true]

section
variable (hb : checkOk w = true) (hy : y = if s.free.1 % 2 = 1 then s.free.2.count .LNK_LINK_BIP_ERR_COUNT c else s.free.2)
include hb hy

/-- R374: an ALIGN that fits the other deskewed lanes of the link deskews its lane. -/
theorem State.recvAlign_of_fit {d : Nat} (hd : y.alignFits c l (bits w 24 8) = some d) :
    s.recvAlign l w = y.takeAlign c l w d := by
  subst hc hx hy
  simp only [State.recvAlign, hj, hcfg, h6, hk, hw, hb, hd, Bool.not_true, bne_self_eq_false, Bool.or_self,
    Bool.false_eq_true, if_false]

/-- R374: any other one takes the deskew from it. -/
theorem State.recvAlign_of_misfit (hd : y.alignFits c l (bits w 24 8) = none) :
    s.recvAlign l w = (y.setLane l { x with deskew := false, miss := 0 }).raise .LNK_LINK_EVENT_DESKEW_FAIL c := by
  have hlane : y.lane l = x := by
    rw [hy, hx]
    split
    · exact State.lane_count _ _ _ _ _
    · rfl
  rw [← hlane]
  subst hc hx hy
  simp only [State.recvAlign, hj, hcfg, h6, hk, hw, hb, hd, Bool.not_true, bne_self_eq_false, Bool.or_self,
    Bool.false_eq_true, if_false]

end

end

/-! ## CREDIT again -/

/-- R382: the latest CREDIT of a stream is sent again every 100 µs while a channel waits for data of it. -/
theorem State.repeatCredit_of_waiting {k : Link} {stream c : Nat} (hk : k = s.link b) (ha : k.admitted = true) (hc : c < 32)
    (hp : s.portAt (s.sluFrom c) = some (b, stream)) (hr : 0 < (s.sl c).room)
    (ht : SMap.get (fun _ => 0) k.repeatAt stream + 100 * qUs ≤ s.now) : s.repeatCredit b stream =
      (s.setLink b { k with repeatAt := SMap.set (fun _ => 0) k.repeatAt stream s.now }).sendBlock b
        (creditWord stream (SMap.get (fun _ => 0) k.given stream)) := by
  have hwaits : ((List.range 32).any fun c =>
      s.portAt (s.sluFrom c) == some (b, stream) && decide (0 < (s.sl c).room)) = true :=
    List.any_eq_true.mpr ⟨c, List.mem_range.mpr hc, by simp [hp, hr]⟩
  subst hk
  exact if_pos (by rw [ha, hwaits, decide_eq_true ht]; rfl)

/-! ## TRAIN and P1 -/

section
variable (hx : x = s.lane l) (hj : s.isJesd l = false) (hw : w % 256 = 0x78)
include hx hj hw

section
variable (h5 : x.state = 5) (hs : bits w 8 4 = subTrain)
include h5 hs

theorem State.recvTrain_of_badCheck (hb : checkOk w = false) :
    s.recvTrain l w = s.count .LNK_LINK_CHK_ERR_COUNT (s.get .LNK_LANE_CFG_LINK l) := by
  subst hx
  simp only [State.recvTrain, hj, h5, hw, hs, hb, Bool.not_false, bne_self_eq_false, Bool.or_self, Bool.false_eq_true, if_false,
    if_true]

/-- R392: the transmitter takes the codes that the partner asks for where they lie in range; the lane answers with its own. -/
theorem State.recvTrain_of_goodCheck (hb : checkOk w = true)
    (hy : y = if !bit w 31 then s else if ffeOk (bits w 16 4) (bits w 20 6) (bits w 26 5) then s.setLane l { x with
        taps := ((x.taps.set 1 (bits w 16 4 : Nat)).set 2 (bits w 20 6 : Nat)).set 3 (bits w 26 5 : Nat), reject := false }
      else s.setLane l { x with reject := true }) :
    s.recvTrain l w = if bit w 48 then (y.sendTrain l).ffeDone l else y.sendTrain l := by
  subst hy hx
  simp only [State.recvTrain, hj, h5, hw, hs, hb, Bool.not_true, bne_self_eq_false, Bool.or_self, Bool.false_eq_true, if_false]

end

section
variable (h6 : x.state = 6) (hs : bits w 8 4 = subP1)
include h6 hs

theorem State.recvP1_of_badCheck (hb : checkOk w = false) :
    s.recvP1 l w = s.count .LNK_LINK_CHK_ERR_COUNT (s.get .LNK_LANE_CFG_LINK l) := by
  subst hx
  simp only [State.recvP1, hj, h6, hw, hs, hb, Bool.not_false, bne_self_eq_false, Bool.or_self, Bool.false_eq_true, if_false,
    if_true]

theorem State.recvP1_of_goodCheck (hb : checkOk w = true) : s.recvP1 l w = s.setLane l { x with muted := true } := by
  subst hx
  simp only [State.recvP1, hj, h6, hw, hs, hb, Bool.not_true, bne_self_eq_false, Bool.or_self, Bool.false_eq_true, if_false]

end

end

end

/-- Settles O43: the slot by whether a lane is trained or in service, and each block of a lane by its CHECK. -/
theorem alignmentTakesEffect : Obligations.AlignmentTakesEffect := by
  intro s u t b l w x k hu hb hl hx hk
  subst hu hk
  refine ⟨fun z h hz => (if_pos hb).trans (congrArg _ (State.alignSlot_of_silent h hz)),
    fun y z v ready h hy hz hr hv => (if_pos hb).trans (congrArg _ (State.alignSlot_of_heard h hy hz hr hv)),
    fun c y hc hj hcfg h6 hk hw hy => ⟨fun hbad => ?_, fun d hgood hd => ?_, fun hgood hd => ?_⟩,
    fun stream c ha hc hp hr ht => (if_pos hb).trans (congrArg _ (State.repeatCredit_of_waiting rfl ha hc hp hr ht)),
    fun y hj h5 hw hs => ⟨fun hbad => ?_, fun hgood hy => ?_⟩, fun hj h6 hw hs => ⟨fun hbad => ?_, fun hgood => ?_⟩⟩
  · exact (if_pos hl).trans (congrArg _ (State.recvAlign_of_badCheck hx hc hj hcfg h6 hk hw hbad))
  · exact (if_pos hl).trans (congrArg _ (State.recvAlign_of_fit hx hc hj hcfg h6 hk hw hgood hy hd))
  · exact (if_pos hl).trans (congrArg _ (State.recvAlign_of_misfit hx hc hj hcfg h6 hk hw hgood hy hd))
  · exact (if_pos hl).trans (congrArg _ (State.recvTrain_of_badCheck hx hj hw h5 hs hbad))
  · exact (if_pos hl).trans (congrArg _ (State.recvTrain_of_goodCheck hx hj hw h5 hs hgood hy))
  · exact (if_pos hl).trans (congrArg _ (State.recvP1_of_badCheck hx hj hw h6 hs hbad))
  · exact (if_pos hl).trans (congrArg _ (State.recvP1_of_goodCheck hx hj hw h6 hs hgood))

end Sys2Proof.Machine
end

section
/-!
The request packets that a link hears (R380, R384-R387, R396): what each is answered. The order in which the answers are tried, what
counts as malformed and the range of COUNT are the model's choice (log entry 46), as are the answers at the crossing that are
still to come (log entry 47); a write with LINK_CFG.REG = 1 is LOCKED before it can be BUSY (log entry 46).
-/

namespace Sys2Proof.Machine

/-! ## The accesses of a packet -/

theorem any_accesses (p : Nat → Bool) (ad count : Nat) :
    ((List.range count).map fun k => ad + 4 * k).any p = true ↔ ∃ j, j < count ∧ p (ad + 4 * j) = true := by
  simp only [List.any_map, List.any_eq_true, List.mem_range, Function.comp_apply]

theorem all_accesses (p : Nat → Bool) (ad count : Nat) :
    ((List.range count).map fun k => ad + 4 * k).all p = true ↔ ∀ j, j < count → p (ad + 4 * j) = true := by
  simp only [List.all_map, List.all_eq_true, List.mem_range, Function.comp_apply]

/-- R385: the answer to a packet none of whose accesses is carried out. -/
def State.refusePacket (s : State) (b op tag crc resp err : Nat) : State :=
  s.respond b tag crc (withCrc [respWord op tag 0 resp err]) resp err

/-- R385, R386: the answer to a packet that was carried out, and the port's report. -/
def State.answerPacket (s : State) (b op tag crc : Nat) (data : List Nat) (err done : Nat) : State :=
  (s.setPort (16 + b) { s.port (16 + b) with resp := {
    data := data, status := if err = 0 then respOk else respNak, err := err, done := done
    flags := b2n (s.port (16 + b)).gate + 2 * b2n s.irq } }).respond b tag crc
    (withCrc (respWord op tag done (if err = 0 then respOk else respNak) err :: pairWords data))
    (if err = 0 then respOk else respNak) err

/-! ## The order of the answers -/

section
variable {s : State} {b op tag count ad crc : Nat} {ws : List Nat} (hop : op = bits (ws.headD 0) 0 8)
  (htag : tag = bits (ws.headD 0) 8 8) (hcount : count = bits (ws.headD 0) 16 8) (had : ad = bits (ws.headD 0) 32 32)
  (hcrc : crc = ws.getLast?.getD 0 % 2 ^ 32)
include htag hcrc

/-- R386: a packet whose response is kept is answered with it. -/
theorem State.takePacket_of_kept {r : Kept} (hreg : s.get .LNK_LINK_CFG_REG b ≠ 0)
    (hk : (s.link b).kept.find? (fun r => r.tag == tag && r.crc == crc) = some r) :
    s.takePacket b ws = (s.count .LNK_LINK_PKTS_COUNT b).sendPacket b r.words := by
  subst htag hcrc
  simp only [State.takePacket, if_neg hreg, hk]

include hop

theorem State.takePacket_of_disabled (hreg : s.get .LNK_LINK_CFG_REG b = 0) :
    s.takePacket b ws = s.refusePacket b op tag crc respLocked 0 := by
  subst hop htag hcrc
  exact if_pos hreg

section
variable (hreg : s.get .LNK_LINK_CFG_REG b ≠ 0)
  (hk : (s.link b).kept.find? (fun r => r.tag == tag && r.crc == crc) = none)
include hreg hk

theorem State.takePacket_of_malformed (hbad : packetBad ws = true) :
    s.takePacket b ws = s.refusePacket b op tag crc respNak ePacket := by
  subst hop htag hcrc
  simp only [State.takePacket, if_neg hreg, hk, hbad, if_true, State.refusePacket]

variable (hgood : packetBad ws = false)
include hgood hcount had

/-- R384: with LINK_CFG.REG = 1 a link may only read what has no side effect. -/
theorem State.takePacket_of_readOnly (h1 : s.get .LNK_LINK_CFG_REG b = 1)
    (hside : op = 1 ∨ ∃ j, j < count ∧ s.sideEffect (ad + 4 * j) = true) :
    s.takePacket b ws = s.refusePacket b op tag crc respLocked 0 := by
  subst hop htag hcount had hcrc
  have hlock := And.intro h1 (hside.imp_right (any_accesses _ _ _).mpr)
  simp only [State.takePacket, if_neg hreg, hk, hgood, Bool.false_eq_true, if_false, if_pos hlock, State.refusePacket]

variable (hfree : s.get .LNK_LINK_CFG_REG b = 1 → op ≠ 1 ∧ ∀ j, j < count → s.sideEffect (ad + 4 * j) = false)
include hfree

/-- What a packet that LINK_CFG.REG allows meets next: the admission and the boot, then the crossing. -/
theorem State.takePacket_of_allowed : s.takePacket b ws =
    if (!((s.link b).admitted && s.dev != .boot) &&
        !(op == 0 && ((List.range count).map fun k => ad + 4 * k).all inDevBoot)) = true then
      s.refusePacket b op tag crc respBusy 0
    else if 64 ≤ s.pktsPending.length ∨ ((List.range count).map fun k => ad + 4 * k).any s.restoring = true then
      s.refusePacket b op tag crc respBusy 0
    else s.runPacket b op tag count ad crc ((unpairWords (ws.drop 1).dropLast).take count) := by
  subst hop htag hcount had hcrc
  have hopen : ¬ (s.get .LNK_LINK_CFG_REG b = 1 ∧ (bits (ws.headD 0) 0 8 = 1 ∨ ((List.range (bits (ws.headD 0) 16 8)).map
      fun k => bits (ws.headD 0) 32 32 + 4 * k).any s.sideEffect = true)) := by
    rintro ⟨h1, hside⟩
    obtain ⟨hread, hnone⟩ := hfree h1
    obtain ⟨j, hj, hside⟩ := (any_accesses _ _ _).mp (hside.resolve_left hread)
    rw [hnone j hj] at hside
    exact Bool.false_ne_true hside
  simp only [State.takePacket, if_neg hreg, hk, hgood, Bool.false_eq_true, if_false, if_neg hopen, State.refusePacket]

/-- R122, R378: before admission and in BOOT a link only reads DEV and BOOT. -/
theorem State.takePacket_of_early (ha : (s.link b).admitted = false ∨ s.dev = .boot)
    (hacc : op = 1 ∨ ∃ j, j < count ∧ inDevBoot (ad + 4 * j) = false) :
    s.takePacket b ws = s.refusePacket b op tag crc respBusy 0 := by
  have hclosed : ((s.link b).admitted && s.dev != .boot) = false := by
    rcases ha with ha | ha
    · rw [ha, Bool.false_and]
    · rw [ha, bne_self_eq_false, Bool.and_false]
  have hother : (op == 0 && ((List.range count).map fun k => ad + 4 * k).all inDevBoot) = false := by
    rw [Bool.eq_false_iff, ne_eq, Bool.and_eq_true, beq_iff_eq, all_accesses]
    rintro ⟨h0, hall⟩
    rcases hacc with h1 | ⟨j, hj, hout⟩
    · omega
    · rw [hall j hj] at hout
      exact Bool.false_ne_true hout.symm
  rw [State.takePacket_of_allowed hop htag hcount had hcrc hreg hk hgood hfree, hclosed, hother]
  rfl

/-- R123, R386: with 64 packets pending at the crossing, or for a subsystem under restoration, the answer is BUSY. -/
theorem State.takePacket_of_pending (ha : (s.link b).admitted = true) (hd : s.dev ≠ .boot)
    (hfull : 64 ≤ s.pktsPending.length ∨ ∃ j, j < count ∧ s.restoring (ad + 4 * j) = true) :
    s.takePacket b ws = s.refusePacket b op tag crc respBusy 0 := by
  rw [State.takePacket_of_allowed hop htag hcount had hcrc hreg hk hgood hfree, if_neg (by simp [ha, hd]),
    if_pos (hfull.imp_right (any_accesses _ _ _).mpr)]

/-- R386: any other packet is carried out. -/
theorem State.takePacket_of_carried
    (ha : (s.link b).admitted = true ∧ s.dev ≠ .boot ∨ op = 0 ∧ ∀ j, j < count → inDevBoot (ad + 4 * j) = true)
    (hl : s.pktsPending.length < 64) (hr : ∀ j, j < count → s.restoring (ad + 4 * j) = false) :
    s.takePacket b ws = s.runPacket b op tag count ad crc ((unpairWords (ws.drop 1).dropLast).take count) := by
  have hserved : ¬ (!((s.link b).admitted && s.dev != .boot) &&
      !(op == 0 && ((List.range count).map fun k => ad + 4 * k).all inDevBoot)) = true := by
    rcases ha with ⟨ha, hd⟩ | ⟨h0, hall⟩
    · simp [ha, hd]
    · simp [h0, (all_accesses _ _ _).mpr hall]
  have hroom : ¬ (64 ≤ s.pktsPending.length ∨ ((List.range count).map fun k => ad + 4 * k).any s.restoring = true) := by
    rw [any_accesses]
    rintro (hfull | ⟨j, hj, hbusy⟩)
    · omega
    · rw [hr j hj] at hbusy
      exact Bool.false_ne_true hbusy
  rw [State.takePacket_of_allowed hop htag hcount had hcrc hreg hk hgood hfree, if_neg hserved, if_neg hroom]

end

end

/-! ## A packet that is carried out -/

section
variable {s : State} {b : Nat}

/-- R386, R398: the answer comes within 500 ns for each access and 10 µs in all, behind the earlier ones of the link. -/
theorem State.awaitAnswer_eq (s : State) (b count : Nat) : ∃ x,
    s.awaitAnswer b count = { s.free.2 with pkts := s.pktsPending ++ [(b, x)] } ∧ s.now ≤ x ∧
      x ≤ max ((s.pktsPending.filter fun e => e.1 == b).foldl (fun m e => max m e.2) s.now)
        (s.now + min (count * 500 * qNs) (10 * qUs)) := by
  refine ⟨_, rfl, le_trans (Nat.le_add_right _ _) (le_max_right _ _), max_le_max le_rfl ?_⟩
  exact Nat.add_le_add_left (Nat.lt_succ_iff.mp (Nat.mod_lt _ (Nat.succ_pos _))) _

section
variable {v z : State} {op tag count ad crc err done : Nat} {un : Bool} {data : List Nat} (hv : v = s.awaitAnswer b count)
include hv

theorem State.runPacket_of_read {ds : List Nat} (h0 : op = 0)
    (hz : v.readRun (16 + b) 4 ad count = (ds, err, done, un, z)) :
    s.runPacket b op tag count ad crc data = z.answerPacket b op tag crc (ds.take done) err done := by
  subst hv
  simp only [State.runPacket, if_pos h0, hz]
  rfl

theorem State.runPacket_of_write (h1 : op = 1) (hz : v.writeRun (16 + b) ad data = (err, done, un, z)) :
    s.runPacket b op tag count ad crc data = z.answerPacket b op tag crc [] err done := by
  subst hv
  have h0 : ¬ op = 0 := by omega
  simp only [State.runPacket, if_neg h0, hz, List.take_nil]
  rfl

end

end

/-- Settles O45: each packet has the first answer of R384-R387 that applies to it. -/
theorem packetsTakeEffect : Obligations.PacketsTakeEffect := by
  intro s u y t b op tag count ad crc ws k hu hb hh hy hk hop htag hcount had hcrc
  subst hu hk
  have packet {x : State} (h : y.takePacket b ws = x) :
      (if b < numLinks then .next ((s.at t).recvPacket b ws) else .fault .noSuchUnit : Host.Outcome State Fault Refusal) =
        .next x := by
    rw [if_pos hb, State.recvPacket, if_pos hh, ← hy, h]
  refine ⟨fun r hr hkept => ?kept, fun z hkept hbad hr hz => ?malformed, fun z h hz => ?locked,
    fun hkept hgood hr hfree => ⟨fun z ha hacc hz => ?early, fun z hfull ha hd hz => ?busy, fun hl hrest ha => ?carried⟩⟩
  case kept =>
    have hx := packet (State.takePacket_of_kept htag hcrc hr hkept)
    exact ⟨hx, hx⟩
  case malformed =>
    subst hz
    have hx := packet (State.takePacket_of_malformed hop htag hcrc hr hkept hbad)
    exact ⟨hx, hx⟩
  case locked =>
    subst hz
    have hx : y.takePacket b ws = y.refusePacket b op tag crc respLocked 0 := by
      rcases h with h0 | ⟨hkept, hgood, h1, hside⟩
      · exact State.takePacket_of_disabled hop htag hcrc h0
      · exact State.takePacket_of_readOnly hop htag hcount had hcrc (by omega) hkept hgood h1 hside
    exact ⟨packet hx, packet hx⟩
  case early =>
    subst hz
    have hx := packet (State.takePacket_of_early hop htag hcount had hcrc hr hkept hgood hfree ha hacc)
    exact ⟨hx, hx⟩
  case busy =>
    subst hz
    have hx := packet (State.takePacket_of_pending hop htag hcount had hcrc hr hkept hgood hfree ha hd hfull)
    exact ⟨hx, hx⟩
  case carried =>
    have hx := State.takePacket_of_carried hop htag hcount had hcrc hr hkept hgood hfree ha hl hrest
    obtain ⟨x, hv, hlo, hhi⟩ := y.awaitAnswer_eq b count
    refine ⟨_, x, rfl, hlo, hhi, fun ds err done un z r h0 hz hresp => ?_, fun err done un z r h1 hz hresp => ?_⟩
    · subst hresp
      exact packet (hx.trans (State.runPacket_of_read hv.symm h0 hz))
    · subst hresp
      exact packet (hx.trans (State.runPacket_of_write hv.symm h1 hz))

end Sys2Proof.Machine
end

section
/-!
The transactions of the SPI management port (R399-R403, R407, R408, R411), each by its runs of reads or writes.
-/

namespace Sys2Proof.Machine

section
variable {s y : State} {n a : Nat} (hd : s.dev ≠ .off)
include hd

/-! ## Reads -/

/-- R408: one read that is carried out answers the bytes of its register. -/
theorem State.spiRead_of_register {w i x : Nat} {r : Reg} (hs : SMap.wf (fun _ => ({} : Port)) s.ports = true)
    (h : takesRead s 0 a w r i) (hw : w = 1 ∨ w = 2 ∨ w = 4)
    (hy : y = if r.desc.blk = .MC then (readFalls s 0).afterBank else readFalls s 0)
    (hx : x = s.readReg 0 false r i % 2 ^ 32 / 2 ^ (8 * (a % 4)) % 2 ^ (8 * w)) :
    s.spiRead w 1 a = y.trailer 0 [x] 0 1 false := by
  have hone : ¬ (if w = 4 then 1 = 0 ∨ 64 < 1 else (1 : Nat) ≠ 1) := by rcases hw with rfl | rfl | rfl <;> decide
  have hm : a % 2 ^ 32 = a := by
    obtain ⟨-, -, -, hsmall, -⟩ := h
    omega
  have hrun : s.readRun 0 w a 1 = ([x], 0, 1, false, y) := by
    subst hx hy
    simp only [State.readRun, hm, State.readAccess_taken hs h, ne_eq, not_true_eq_false, if_false, Bool.not_true, Bool.or_self,
      b2n, Nat.zero_add, if_true]
  rw [State.spiRead, if_neg hd, if_neg hone, hrun]

/-- R400: COUNT is 1 where an access is narrower than a word. -/
theorem State.spiRead_of_badNarrow {w : Nat} (hw : w ≠ 4) (hn : n ≠ 1) :
    s.spiRead w n a = (s.busError 0 false a eWidth).trailer 0 [] eWidth 0 false := by
  have hbad : (if w = 4 then n = 0 ∨ 64 < n else n ≠ 1) := by rwa [if_neg hw]
  exact (if_neg hd).trans (if_pos hbad)

theorem State.spiRead_of_badCount (hn : n = 0 ∨ 64 < n) :
    s.spiRead 4 n a = (s.busError 0 false a eWidth).trailer 0 [] eWidth 0 false :=
  (if_neg hd).trans (if_pos hn)

theorem State.spiRead_of_run {ds : List Nat} {e done : Nat} {un : Bool} (h1 : 1 ≤ n) (h64 : n ≤ 64)
    (h : s.readRun 0 4 a n = (ds, e, done, un, y)) : s.spiRead 4 n a = y.trailer 0 ds e done un := by
  have hn : ¬ (n = 0 ∨ 64 < n) := by omega
  simp only [State.spiRead, if_neg hd, if_true, if_neg hn, h]

/-! ## Writes -/

theorem State.spiWrite_of_register {i v : Nat} {r : Reg} (c : Command r i) (hv : v < 2 ^ 32) (h : takesWrite s 0 r i v) :
    s.spiWrite 1 (r.addr i) [v] = reported ((accepted s 0 r i v).writeReg 0 r i v) 0 := by
  have hport := State.portWrite_taken c hv ⟨h, rfl⟩
  rw [← hport, State.portWrite, State.portWrites, if_neg hd, State.spiWrite, if_neg hd, if_neg (by decide)]
  rfl

theorem State.spiWrite_of_badCount {data : List Nat} (hn : n = 0 ∨ 64 < n) :
    s.spiWrite n a data = (s.busError 0 true a eWidth).trailer 0 [] eWidth 0 false :=
  (if_neg hd).trans (if_pos hn)

theorem State.spiWrite_of_run {data : List Nat} {e done : Nat} {un : Bool} (h1 : 1 ≤ n) (h64 : n ≤ 64)
    (hl : data.length = n) (h : s.writeRun 0 a data = (e, done, un, y)) : s.spiWrite n a data = y.trailer 0 [] e done un := by
  have hn : ¬ (n = 0 ∨ 64 < n) := by omega
  have hdata : (List.range n).map (fun k => data.getD k 0) = data :=
    List.ext_getElem (by simp [hl]) fun k hk hk' => by simp [List.getElem?_eq_getElem hk']
  simp only [State.spiWrite, if_neg hd, if_neg hn, hdata, h]

/-! ## Transactions cut short -/

/-- R402: the writes whose four bytes came are carried out, and the latches fall. -/
theorem State.cutShort_of_writes {bytes : List Byte} {e done : Nat} {un : Bool} (h1 : 1 ≤ n) (h64 : n ≤ 64)
    (h : s.writeRun 0 a ((bigWords bytes).take n) = (e, done, un, y)) :
    s.cutShort 4 n a bytes = y.setPort 0 { y.port 0 with rd := none, wr := none } := by
  simp only [State.cutShort, if_neg hd, h, OfNat.ofNat_ne_one, Nat.reduceEqDiff, or_self, if_false, and_self, h1, h64, if_true,
    State.clearLatch]

/-- R402: the reads whose data was shifted out are carried out, and the latches fall. -/
theorem State.cutShort_of_reads {bytes : List Byte} {ds : List Nat} {e done : Nat} {un : Bool} (h1 : 1 ≤ n) (h64 : n ≤ 64)
    (h : s.readRun 0 4 a (min n ((bytes.length - 4) / 4)) = (ds, e, done, un, y)) :
    s.cutShort 3 n a bytes = y.setPort 0 { y.port 0 with rd := none, wr := none } := by
  simp only [State.cutShort, if_neg hd, h, OfNat.ofNat_ne_one, Nat.reduceEqDiff, Nat.reduceLeDiff, or_self, if_false, and_self,
    h1, h64, if_true, State.clearLatch]

end

/-- Settles O46: each transaction is its run, and one access of a register is a run of one. -/
theorem spiTransactionsTakeEffect : Obligations.SpiTransactionsTakeEffect := by
  intro s u t n ad data hu hd
  subst hu
  refine ⟨fun w r i y x hs h hy hx => ?read, fun r i v c hv h => congrArg _ (State.spiWrite_of_register hd c hv h),
    fun hn => ⟨congrArg _ (State.spiRead_of_badNarrow hd (by decide) hn), congrArg _ (State.spiRead_of_badNarrow hd (by decide) hn)⟩,
    fun hn => ⟨congrArg _ (State.spiRead_of_badCount hd hn), congrArg _ (State.spiWrite_of_badCount hd hn)⟩,
    fun ds e done un y h1 h64 h => congrArg _ (State.spiRead_of_run hd h1 h64 h),
    fun e done un y h1 h64 hl h => congrArg _ (State.spiWrite_of_run hd h1 h64 hl h), congrArg Host.Outcome.next (if_neg hd),
    fun bytes e done un y h1 h64 h => congrArg _ (State.cutShort_of_writes hd h1 h64 h),
    fun bytes ds e done un y h1 h64 h => congrArg _ (State.cutShort_of_reads hd h1 h64 h)⟩
  have hread (hw : w = 1 ∨ w = 2 ∨ w = 4) : (s.at t).spiRead w 1 ad = y.trailer 0 [x] 0 1 false :=
    State.spiRead_of_register hd (State.wf_ports (s := s) hs) h hw hy hx
  exact ⟨fun hw => congrArg _ (hw ▸ hread (.inl hw)), fun hw => congrArg _ (hw ▸ hread (.inr (.inl hw))),
    fun hw => congrArg _ (hw ▸ hread (.inr (.inr hw)))⟩

end Sys2Proof.Machine
end

section
/-!
The JTAG port (R404): the access that Update-DR of REGACC holds acts then, as the model's choice (log entry 14), and completes
within 500 ns at a free instant (log entry 3).
-/

namespace Sys2Proof.Machine

/-- R404: REGACC is selected. -/
def State.selectRegacc (s : State) : State := { s with jtag := { s.jtag with instr := 4, drive := false } }

/-- R404: what REGACC holds after an access: its answer, and when it completes. -/
def State.regaccDone (s : State) (op : Nat) (x : Reply) : State :=
  { s.free.2 with jtag := { s.jtag with
    op := op, doneAt := some (s.now + s.free.1 % (500 * qNs + 1)), data := x.data
    status := if x.err ≠ 0 then 2 else if x.served then 0 else 5, err := x.err } }

section
variable {s y : State} {dr : Nat}

/-! ## Update-DR of REGACC -/

section
variable (hs : s.jtagServed = true) (hy : y = s.selectRegacc)
include hy

/-- R404: an access while the one before has not completed is not carried out. -/
theorem State.regAcc_of_busy {x : Nat} (hx : s.jtag.doneAt = some x) (hb : s.now < x) : s.regAcc dr = y := by
  subst hy
  exact if_pos (by simp [hx, hb])

section
variable (hx : ∀ x, s.jtag.doneAt = some x → x ≤ s.now)
include hs hx

/-- R404: the access that the register holds, by its OP. -/
theorem State.regAcc_of_free : s.regAcc dr = (fun a : Reply × State => a.2.regaccDone (bits dr 64 2) a.1)
    (if bits dr 64 2 = 1 then y.writeAccess 1 (bits dr 32 32) (bits dr 0 32)
      else y.readAccess 1 (bits dr 32 32) (if bits dr 64 2 = 2 then 2 else if bits dr 64 2 = 3 then 1 else 4)) := by
  subst hy
  have hserved : s.selectRegacc.jtagServed = true := hs
  have hidle : (match s.selectRegacc.jtag.doneAt with
    | some x => decide (s.selectRegacc.now < x)
    | none => false) = false := by
    cases h : s.selectRegacc.jtag.doneAt with
    | none => rfl
    | some x => exact decide_eq_false (Nat.not_lt.mpr (hx x h))
  have hgo : (!s.selectRegacc.jtagServed || match s.selectRegacc.jtag.doneAt with
    | some x => decide (s.selectRegacc.now < x)
    | none => false) = false := by
    rw [hserved, hidle]
    rfl
  exact if_neg (Bool.eq_false_iff.mp hgo)

section
variable {r : Reg} {i : Nat}

theorem State.regAcc_of_write {z : State} (c : Command r i) (h1 : bits dr 64 2 = 1) (ha : bits dr 32 32 = r.addr i)
    (h : takesWrite y 1 r i (bits dr 0 32)) (hz : z = (accepted y 1 r i (bits dr 0 32)).writeReg 1 r i (bits dr 0 32)) :
    s.regAcc dr = z.regaccDone 1 {} := by
  have hm : bits dr 0 32 % 2 ^ 32 = bits dr 0 32 := Nat.mod_mod _ _
  have hw := State.writeAccess_taken c (hm.symm ▸ h)
  rw [hm, ← hz] at hw
  rw [State.regAcc_of_free hs hy hx, if_pos h1, ha, hw, h1]

theorem State.regAcc_of_read {z : State} {w : Nat} (hp : SMap.wf (fun _ => ({} : Port)) y.ports = true) (h1 : bits dr 64 2 ≠ 1)
    (hw : w = if bits dr 64 2 = 2 then 2 else if bits dr 64 2 = 3 then 1 else 4) (h : takesRead y 1 (bits dr 32 32) w r i)
    (hz : z = if r.desc.blk = .MC then (readFalls y 1).afterBank else readFalls y 1) :
    s.regAcc dr = z.regaccDone (bits dr 64 2)
      { data := y.readReg 1 false r i % 2 ^ 32 / 2 ^ (8 * (bits dr 32 32 % 4)) % 2 ^ (8 * w) } := by
  rw [State.regAcc_of_free hs hy hx, if_neg h1, ← hw, State.readAccess_taken hp h, hz]

end

/-- R404, R412: a write that is a bus error reports its code. -/
theorem State.regAcc_of_writeError {z : State} {e : Nat} (h1 : bits dr 64 2 = 1)
    (h : y.writeAccess 1 (bits dr 32 32) (bits dr 0 32) = ({ err := e }, z)) : s.regAcc dr = z.regaccDone 1 { err := e } := by
  rw [State.regAcc_of_free hs hy hx, if_pos h1, h, h1]

end

end

/-! ## Capture-DR -/

theorem State.captureReg_of_busy {x : Nat} (hx : s.jtag.doneAt = some x) (hb : s.now < x) :
    s.captureReg = { s with jtag := { s.jtag with dr := 2 ^ 40 } } := by
  simp only [State.captureReg, hx, decide_eq_true hb, if_true]

theorem State.captureReg_of_done (hx : ∀ x, s.jtag.doneAt = some x → x ≤ s.now) : s.captureReg =
    { s with jtag := { s.jtag with dr := s.jtag.data + s.jtag.err * 2 ^ 32 + s.jtag.status * 2 ^ 40 } } := by
  cases h : s.jtag.doneAt with
  | none => simp only [State.captureReg, h, Bool.false_eq_true, if_false]
  | some x => simp only [State.captureReg, h, decide_eq_false (Nat.not_lt.mpr (hx x h)), Bool.false_eq_true, if_false]

end

/-- Settles O47: an access is its register access with the instant of its end; every other instruction loads its register. -/
theorem jtagTakesEffect : Obligations.JtagTakesEffect := by
  intro s u t dr hu hs
  subst hu
  refine ⟨fun x y e hx hb hy _ => congrArg _ (State.regAcc_of_busy hy hx hb),
    fun y r i hx hy => ⟨fun z c h1 ha h hz => ?write, fun z w hsound h1 hw h hz => ?read, fun e z _ h1 h he => ?error⟩,
    fun x hx hb => ?_, fun hx => ?_, congrArg Host.Outcome.next (if_pos hs), congrArg Host.Outcome.next (if_pos hs),
    fun balls load => congrArg Host.Outcome.next (if_pos hs), fun balls => congrArg Host.Outcome.next (if_pos hs)⟩
  case write => exact congrArg _ (State.regAcc_of_write hs hy hx c h1 ha h hz)
  case read =>
    have hp : SMap.wf (fun _ => ({} : Port)) y.ports = true := hy ▸ State.wf_ports (s := s) hsound
    exact congrArg _ (State.regAcc_of_read hs hy hx hp h1 hw h hz)
  case error =>
    refine congrArg _ ((State.regAcc_of_writeError hs hy hx h1 h).trans ?_)
    simp only [State.regaccDone, if_pos he]
  · exact congrArg Host.Outcome.next ((if_pos hs).trans (State.captureReg_of_busy hx hb))
  · exact congrArg Host.Outcome.next ((if_pos hs).trans (State.captureReg_of_done hx))

end Sys2Proof.Machine
end

section
/-!
The hours of the device and the ledger (R426, R428-R431, R433, R441-R443). An hour consumes life where a logic tick fell in it, as
the model's choice (log entries 28, 55).
-/

namespace Sys2Proof.Machine

section
variable {s y : State}

/-! ## Hours -/

/-- R433: a ring oscillator of an island that is on is measured; one that is past its limit ages its island once. -/
def State.measureRing (rings : List (Nat × Int)) (s : State) (k : Nat) : State :=
  match rings[k]? with
  | some x =>
    if (if k = 8 then s.is8State == 0 else (s.island k).state == 0) = true then
      (fun y => if x.2 < -3000 ∧ (y.island k).aged = false
        then (y.setIsland k { y.island k with aged := true }).ageing k else y)
        ((s.put .LIFE_RO_FREQ k x.1).put .LIFE_RO_DRIFT k (ofSigned 16 x.2))
    else s
  | none => s

/-- R426: a whole hour is counted, and its sums begin again. -/
def State.countHour (s : State) : State :=
  { s.count .LIFE_HOURS_COUNT with
    life := { s.life with wholeAt := s.life.wholeAt + 3600 * qSec }, gov := { s.gov with hourTj := 0, hourP := 0, hourN := 0 } }

/-- R426: the life that an hour with these sums has consumed. -/
def State.consumeHour (s : State) (g : Gov) : State :=
  { s with life := { s.life with
    consumed := min (s.life.consumed + consumedHour g.hourTj g.hourP g.hourN) (2 ^ 64 - 1)
    lifeHours := s.life.lifeHours + 1, sumTj := s.life.sumTj + quotI (g.hourTj * 65536) g.hourN
    sumP := s.life.sumP + quot (g.hourP * 65536) (950 * g.hourN) } }

theorem State.lifeHour_of_whole {rings : List (Nat × Int)} (hd : s.dev ≠ .off) (ht : s.life.wholeAt + 3600 * qSec ≤ s.now) :
    s.lifeHour rings = (List.range 9).foldl (State.measureRing rings)
      (if s.gov.hourN = 0 then s.countHour else s.countHour.consumeHour s.gov).showLife := by
  have hgo : ¬ (s.dev = .off ∨ s.now < s.life.wholeAt + 3600 * qSec) := not_or.mpr ⟨hd, Nat.not_lt.mpr ht⟩
  by_cases h0 : s.gov.hourN = 0
  all_goals
    simp only [State.lifeHour, if_neg hgo, State.count_gov, h0, if_true, if_false]
    congr 1
    funext z k
    unfold State.measureRing
    cases rings[k]? <;> rfl

/-- R430: an HOURLY entry falls due every hour. -/
theorem State.hourlyDue_of_hour (hd : s.dev ≠ .off) (ht : s.life.hoursAt + 3600 * qSec ≤ s.now) : s.hourlyDue =
    { s with life := { s.life with hoursAt := s.life.hoursAt + 3600 * qSec } }.ledger kHourly :=
  if_neg (not_or.mpr ⟨hd, Nat.not_lt.mpr ht⟩)

/-! ## The entry that is due first -/

section
variable {j : LedgerJob} {rest : List LedgerJob} (hf : s.ledgerFree = true) (hn : s.life.jobs ≠ [])
  (hy : y = if 8192 ≤ s.life.slots then s.changeHalf else s) (hj : y.life.jobs = j :: rest)
include hf hn hy hj

/-- R428-R430: an entry that reads back well is the next one of its half. -/
theorem State.writeLedger_of_good {z : State} (hz : z = { y with life := { y.life with
      jobs := rest, tries := 0, slots := y.life.slots + 1
      image := y.life.image ++ [(y.life.half, y.life.slots, (y.ledgerEntry j).map (BitVec.ofNat 8))]
      sinceHour := if j.kind = kHourly then 0 else y.life.sinceHour + 1
      sinceServ := if j.kind = kService then 0 else y.life.sinceServ + 1 } }.count .LIFE_ENTRIES_COUNT) :
    s.writeLedger true = (z.after63 kHourly z.life.sinceHour).after63 kService z.life.sinceServ := by
  have hgo : (!s.ledgerFree || s.life.jobs.isEmpty) = false := by simp [hf, hn]
  subst hz
  simp only [State.writeLedger, hgo, ← hy, hj, Bool.false_eq_true, if_false, if_true]

/-- R431: an entry that does not read back is tried again in the next slot, and dropped after the third try. -/
theorem State.writeLedger_of_bad : s.writeLedger false =
    { y with life := { y.life with
      jobs := if 2 ≤ y.life.tries then rest else j :: rest
      tries := if 2 ≤ y.life.tries then 0 else y.life.tries + 1, slots := y.life.slots + 1 } }.raise .LIFE_EVENT_LEDGER_FAIL := by
  have hgo : (!s.ledgerFree || s.life.jobs.isEmpty) = false := by simp [hf, hn]
  have hlast : (3 ≤ y.life.tries + 1) = (2 ≤ y.life.tries) := propext Nat.succ_le_succ_iff
  simp only [State.writeLedger, hgo, ← hy, hj, hlast, Bool.false_eq_true, if_false, decide_eq_true_eq]

end

/-! ## The ends of a migration and of an engine's moves -/

theorem State.migrated_of_busy {p : Nat} {retire : Bool} (h : s.life.pchBusy = some (p, retire)) : s.migrated =
    ({ s with life := { s.life with pchBusy := none } }.put .LIFE_PCH_RETIRED_BITS 0
      (if retire then s.get .LIFE_PCH_RETIRED_BITS ||| 2 ^ p
        else s.get .LIFE_PCH_RETIRED_BITS &&& ((2 ^ 64 - 1) ^^^ 2 ^ p))).unitDone := by
  simp only [State.migrated, h]

theorem State.engineMoved_of_busy {e : Nat} {retire : Bool} (h : s.life.engBusy = some (e, retire))
    (hm : ∀ x ∈ s.ctxs, x.2.move = none) : s.engineMoved =
    ({ s with life := { s.life with engBusy := none } }.put .LIFE_ENG_RETIRED_BITS 0
      (if retire then s.get .LIFE_ENG_RETIRED_BITS ||| 2 ^ e
        else s.get .LIFE_ENG_RETIRED_BITS &&& ((2 ^ 24 - 1) ^^^ 2 ^ e))).unitDone := by
  have hrest : (s.ctxs.any fun x => x.2.move.isSome) = false := by
    simpa only [List.any_eq_false, Option.not_isSome_iff_eq_none] using hm
  simp only [State.engineMoved, h, hrest, Bool.false_eq_true, if_false]

end

/-- Settles O50: an hour by whether a logic tick fell in it, an entry by how it reads back, and each end by what began it. -/
theorem ledgerEventsTakeEffect : Obligations.LedgerEventsTakeEffect := by
  intro s u t hu
  subst hu
  refine ⟨fun rings y z hd ht hy h0 hn => ?hour, fun hd ht => congrArg _ (State.hourlyDue_of_hour hd ht),
    fun y j rest hf hn hy hj => ⟨fun z hz => congrArg _ (State.writeLedger_of_good hf hn hy hj hz), fun ht => ?again,
      fun ht => ?dropped⟩,
    fun p h => congrArg _ (State.migrated_of_busy h), fun p h => congrArg _ (State.migrated_of_busy h),
    fun e h hm => congrArg _ (State.engineMoved_of_busy h hm), fun e h hm => congrArg _ (State.engineMoved_of_busy h hm)⟩
  case hour =>
    have hz : z = if (s.at t).gov.hourN = 0 then (s.at t).countHour else (s.at t).countHour.consumeHour (s.at t).gov := by
      subst hy
      split
      · exact h0 ‹_›
      · exact hn ‹_›
    exact congrArg _ ((State.lifeHour_of_whole hd ht).trans (by rw [← hz]; rfl))
  case again =>
    have hmore : ¬ 2 ≤ y.life.tries := by omega
    refine congrArg _ ((State.writeLedger_of_bad hf hn hy hj).trans ?_)
    rw [if_neg hmore, if_neg hmore, ← hj]
  case dropped =>
    refine congrArg _ ((State.writeLedger_of_bad hf hn hy hj).trans ?_)
    rw [if_pos ht, if_pos ht]

end Sys2Proof.Machine
end

section
/-!
Reading after writing (15_register_interface.md): register fields, fields in force and bytes of memory.
-/

namespace Sys2Proof.Machine

/-- R415: a field that is applied is in force as a host reads it; every other field stays in force as it was. -/
theorem State.inForce_apply {s : State} (h : SMap.wf regDefault s.force = true) (f g : Fld) (i j : Nat) :
    (s.apply f i).inForce g j = if g = f ∧ j = i then s.get f i else s.inForce g j := by
  have hkey : g.key j = f.key i ↔ g = f ∧ j = i := ⟨Fld.key_inj, fun ⟨hf, hi⟩ => by rw [hf, hi]⟩
  simp only [State.inForce, State.apply, SMap.get_set h, hkey]

/-- Settles O54: the laws of the sparse maps, which are in canonical form in a sound state. -/
theorem readsFollowWrites : Obligations.ReadsFollowWrites := by
  intro s x hs hx
  have hforce : SMap.wf regDefault s.force = true := (Bool.and_eq_true_iff.mp hs.force).1
  exact ⟨State.get_put hs.regs, fun f g i j v => State.inForce_congr (State.put_force s f i v) g j,
    State.inForce_apply hforce, fun a b v => State.readByte_writeByte hs.mem a b v, fun h => SMap.ext hs.mem hx.mem h⟩

end Sys2Proof.Machine
end

section
/-!
The places of granules in HBM (R437, R443): a granule whose pseudo-channel is retired lies behind the rows of the working ones, in the
part that is the retired one's own; the address map takes 512 MiB away for each pseudo-channel that is retired or is being
retired, and reads the place of a granule so while it migrates too, as the model's choice (log entry 57).
-/

namespace Sys2Proof.Machine

/-! ## Pseudo-channels -/

/-- R443: whether a pseudo-channel is retired, and the working ones in order. -/
def State.pchRetired (s : State) (p : Nat) : Bool := bit (s.get .LIFE_PCH_RETIRED_BITS) p
def State.pchWork (s : State) : List Nat := (List.range 64).filter fun p => !s.pchRetired p

section
variable {s : State} {p q g h : Nat}

theorem State.mem_pchWork : p ∈ s.pchWork ↔ p < 64 ∧ s.pchRetired p = false := by
  simp only [State.pchWork, List.mem_filter, List.mem_range, Bool.not_eq_true']

/-- The number of the retired pseudo-channels below one. -/
theorem length_filter_range (f : Nat → Bool) (n : Nat) : ((List.range n).filter f).length = Nat.count (f · = true) n := by
  induction n with
  | zero => rfl
  | succ n ih => cases hf : f n <;> simp [List.range_succ, Nat.count_succ, ih, hf]

/-- The retired and the working pseudo-channels are all of them. -/
theorem State.count_add_pchWork (s : State) : Nat.count (s.pchRetired · = true) 64 + s.pchWork.length = 64 := by
  have hsplit := (List.range 64).length_eq_length_filter_add s.pchRetired
  rw [length_filter_range, List.length_range] at hsplit
  exact hsplit.symm

/-! ## Below the memory top -/

/-- The memory top leaves at most 512 MiB for each working pseudo-channel. -/
theorem State.hbmTop_le (s : State) : s.hbmTop ≤ s.pchWork.length * 2 ^ 29 := by
  have hcount := s.count_add_pchWork
  have hpop : State.hbmTop.popBits (s.get .LIFE_PCH_RETIRED_BITS) 64 = Nat.count (s.pchRetired · = true) 64 :=
    length_filter_range s.pchRetired 64
  refine Nat.mul_le_mul_right _ ((Nat.sub_le _ _).trans ?_)
  rw [hpop]
  omega

theorem State.group_lt (h : g * 4096 < s.hbmTop) : g / 64 < s.pchWork.length * 2048 := by
  have := s.hbmTop_le
  omega

/-! ## Places -/

theorem State.placeOf_of_working (h : s.pchRetired (g % 64) = false) : s.placeOf g = (g % 64, g / 64) :=
  if_neg (Bool.eq_false_iff.mp h)

/-- The row of a granule of a retired pseudo-channel. -/
def State.retiredRow (s : State) (g : Nat) : Nat :=
  s.pchWork.length * 2048 + Nat.count (s.pchRetired · = true) (g % 64) * 2048 + g / 64 / s.pchWork.length

theorem State.placeOf_of_retired (h : s.pchRetired (g % 64) = true) :
    s.placeOf g = (s.pchWork.getD (g / 64 % s.pchWork.length) 0, s.retiredRow g) := by
  rw [State.retiredRow, ← length_filter_range]
  exact if_pos h

section
variable (hw : 0 < s.pchWork.length)
include hw

theorem State.getD_pchWork_mem (q : Nat) : s.pchWork.getD (q % s.pchWork.length) 0 ∈ s.pchWork := by
  rw [List.getD_eq_getElem _ _ (Nat.mod_lt q hw)]
  exact List.getElem_mem _

/-- R443: a granule lies in a working pseudo-channel. -/
theorem State.placeOf_mem (g : Nat) : (s.placeOf g).1 ∈ s.pchWork := by
  cases hr : s.pchRetired (g % 64) with
  | false =>
    rw [State.placeOf_of_working hr]
    exact State.mem_pchWork.mpr ⟨Nat.mod_lt _ (by decide), hr⟩
  | true =>
    rw [State.placeOf_of_retired hr]
    exact State.getD_pchWork_mem hw _

end

/-- Such a row lies behind the rows of the working pseudo-channels, and in the part of the granule's own pseudo-channel. -/
theorem State.retiredRow_bounds (hg : g * 4096 < s.hbmTop) (hr : s.pchRetired (g % 64) = true) :
    s.pchWork.length * 2048 ≤ s.retiredRow g ∧ s.retiredRow g < 131072 ∧
      (s.retiredRow g - s.pchWork.length * 2048) / 2048 = Nat.count (s.pchRetired · = true) (g % 64) ∧
      (s.retiredRow g - s.pchWork.length * 2048) % 2048 = g / 64 / s.pchWork.length := by
  have hcount := s.count_add_pchWork
  have hbelow := Nat.count_strict_mono (p := (s.pchRetired · = true)) hr (Nat.mod_lt g (by decide : 0 < 64))
  have hq : g / 64 / s.pchWork.length < 2048 := Nat.div_lt_of_lt_mul (State.group_lt hg)
  rw [State.retiredRow]
  generalize g / 64 / s.pchWork.length = q at hq ⊢
  generalize Nat.count (s.pchRetired · = true) (g % 64) = i at hbelow ⊢
  omega

theorem State.placeOf_row_lt (hg : g * 4096 < s.hbmTop) : (s.placeOf g).2 < 131072 := by
  cases hr : s.pchRetired (g % 64) with
  | false =>
    have hcount := s.count_add_pchWork
    have hgroup := State.group_lt hg
    have hrow : (s.placeOf g).2 = g / 64 := congrArg Prod.snd (State.placeOf_of_working hr)
    omega
  | true =>
    obtain ⟨-, hlt, -⟩ := State.retiredRow_bounds hg hr
    exact (congrArg Prod.snd (State.placeOf_of_retired hr)).trans_lt hlt

/-- The working pseudo-channel and the row give the group of 64 granules of a retired one. -/
theorem State.group_inj {a b : Nat} (hw : 0 < s.pchWork.length)
    (hp : s.pchWork.getD (a % s.pchWork.length) 0 = s.pchWork.getD (b % s.pchWork.length) 0)
    (hd : a / s.pchWork.length = b / s.pchWork.length) : a = b := by
  have ha := Nat.mod_lt a hw
  have hb := Nat.mod_lt b hw
  have hnodup : s.pchWork.Nodup := List.nodup_range.filter _
  rw [List.getD_eq_getElem _ _ ha, List.getD_eq_getElem _ _ hb, hnodup.getElem_inj_iff] at hp
  rw [← Nat.div_add_mod a s.pchWork.length, ← Nat.div_add_mod b s.pchWork.length, hp, hd]

theorem State.placeOf_inj (hg : g * 4096 < s.hbmTop) (hh : h * 4096 < s.hbmTop) (e : s.placeOf g = s.placeOf h) : g = h := by
  have hgg := State.group_lt hg
  have hgh := State.group_lt hh
  cases hrg : s.pchRetired (g % 64) with
  | false =>
    rw [State.placeOf_of_working hrg] at e
    cases hrh : s.pchRetired (h % 64) with
    | false =>
      rw [State.placeOf_of_working hrh, Prod.mk.injEq] at e
      omega
    | true =>
      obtain ⟨hlow, -⟩ := State.retiredRow_bounds hh hrh
      rw [State.placeOf_of_retired hrh, Prod.mk.injEq] at e
      omega
  | true =>
    obtain ⟨hlow, -, hig, hqg⟩ := State.retiredRow_bounds hg hrg
    rw [State.placeOf_of_retired hrg] at e
    cases hrh : s.pchRetired (h % 64) with
    | false =>
      rw [State.placeOf_of_working hrh, Prod.mk.injEq] at e
      omega
    | true =>
      obtain ⟨-, -, hih, hqh⟩ := State.retiredRow_bounds hh hrh
      rw [State.placeOf_of_retired hrh, Prod.mk.injEq] at e
      obtain ⟨hp, hrow⟩ := e
      rw [hrow] at hig hqg
      have hpch : g % 64 = h % 64 :=
        Nat.count_injective (p := (s.pchRetired · = true)) hrg hrh (hig.symm.trans hih)
      have hgroup : g / 64 = h / 64 := State.group_inj (by omega) hp (hqg.symm.trans hqh)
      omega

end

/-- Settles O58. -/
theorem granulesHavePlacesOfTheirOwn : Obligations.GranulesHavePlacesOfTheirOwn := by
  intro s g h hg hh
  have hw : 0 < s.pchWork.length := by
    have := State.group_lt hg
    omega
  obtain ⟨hp, hr⟩ := State.mem_pchWork.mp (State.placeOf_mem hw g)
  exact ⟨hp, hr, State.placeOf_row_lt hg, State.placeOf_inj hg hh⟩

/-! ## What the patrol skips -/

/-- R437: a read of an address that the patrol skips changes nothing. -/
theorem State.patrol_of_skipped {s : State} {ad result : Nat} {spare : Bool} (h : s.patrolled ad = false) :
    s.patrol ad result spare false = s := by
  simp only [State.patrol, h, Bool.not_false, if_true, Bool.false_eq_true, if_false, ite_self]

/-- R437: addresses from the memory top on. -/
theorem State.patrolled_of_above {s : State} {ad : Nat} (h : s.hbmTop ≤ ad) : s.patrolled ad = false := by
  simp only [State.patrolled, decide_eq_false (Nat.not_lt.mpr h), Bool.false_and]

/-- R437: granules of a pseudo-channel that migrates. -/
theorem State.patrolled_of_migrating {s : State} {ad : Nat} {b : Bool}
    (h : s.life.pchBusy = some ((s.placeOf (ad / 4096)).1, b)) : s.patrolled ad = false := by
  simp only [State.patrolled, h, bne_self_eq_false, Bool.and_false]

/-- Settles O57: what is skipped is not patrolled, and some working pseudo-channel is enough for every granule. -/
theorem patrolSkipsWhatItMust : Obligations.PatrolSkipsWhatItMust := by
  intro s u
  refine ⟨fun t hu => ⟨fun ad result spare h => ?_, fun ad result spare b h => ?_⟩, fun g p hp hr => ?_⟩
  · subst hu
    exact congrArg _ (State.patrol_of_skipped (State.patrolled_of_above h))
  · subst hu
    exact congrArg _ (State.patrol_of_skipped (State.patrolled_of_migrating h))
  · exact State.mem_pchWork.mp (State.placeOf_mem (List.length_pos_of_mem (State.mem_pchWork.mpr ⟨hp, hr⟩)) g)

end Sys2Proof.Machine
end

section
/-!
Event registers (R410): their flags and SEQ, the setting of a flag, and the write-back.
-/

namespace Sys2Proof.Machine

/-- The event registers that R410 governs with every flag one bit wide and SEQ in [31:24]; TB_STATUS and TB_ISLAND_UNLOCK, which hold
flags too, are no part of the statement. -/
def eventRegs : List Reg := [.PWR_EVENT, .HVS_EVENT, .BOOT_EVENT, .TCH_WIN_EVENT, .TCH_BE_EVENT, .WCH_EVENT, .MC_EVENT, .AQ_EVENT,
  .CRY_EVENT, .MSK_EVENT, .MRK_EVENT, .TRIP_EVENT, .SLU_EVENT, .SLU_ENGINE_EVENT, .LNK_LANE_EVENT, .LNK_LINK_EVENT, .DEV_EVENT,
  .LIFE_EVENT, .VD_EVENT]

/-! ## The layout of an event register -/

/-- R410: a flag of an event register, beside the register's SEQ. -/
structure Fld.IsFlag (f : Fld) (r : Reg) : Prop where
  width  : f.desc.w = 1
  seq    : f.seqOf.desc = ⟨r, 24, 8, .RO⟩
  seqNe  : f.seqOf ≠ f
  shared : ∀ g ∈ r.fields, g.desc.acc = .EV → g.seqOf = f.seqOf

/-- R410: what makes a register an event register, as a check. -/
def Reg.eventOk (r : Reg) : Bool :=
  decide r.fields.Nodup && r.fields.all fun f => decide (f.desc.acc = .RO) || decide (f.desc.acc = .EV) &&
    (f.desc.w == 1 && decide (f.seqOf.desc = ⟨r, 24, 8, .RO⟩) && decide (f.seqOf ≠ f) &&
      r.fields.all fun g => !decide (g.desc.acc = .EV) || decide (g.seqOf = f.seqOf))

theorem eventOk_of_mem {r : Reg} (h : r ∈ eventRegs) : r.eventOk = true :=
  (by decide : ∀ r ∈ eventRegs, r.eventOk = true) r h

section
variable {r : Reg} (h : r ∈ eventRegs)
include h

theorem fields_nodup_of_event : r.fields.Nodup := by
  have hok := eventOk_of_mem h
  rw [Reg.eventOk, Bool.and_eq_true, decide_eq_true_eq] at hok
  exact hok.1

theorem acc_of_event {f : Fld} (hf : f ∈ r.fields) : f.desc.acc = .RO ∨ f.desc.acc = .EV := by
  have hok := eventOk_of_mem h
  rw [Reg.eventOk, Bool.and_eq_true, List.all_eq_true] at hok
  have hfield := hok.2 f hf
  rw [Bool.or_eq_true, Bool.and_eq_true, decide_eq_true_eq, decide_eq_true_eq] at hfield
  exact hfield.imp_right And.left

theorem isFlag_of_event {f : Fld} (hf : f ∈ r.fields) (ha : f.desc.acc = .EV) : f.IsFlag r := by
  have hok := eventOk_of_mem h
  rw [Reg.eventOk, Bool.and_eq_true, List.all_eq_true] at hok
  have hfield := hok.2 f hf
  simp only [ha, reduceCtorEq, decide_false, decide_true, Bool.false_or, Bool.true_and, Bool.and_eq_true, beq_iff_eq,
    decide_eq_true_eq, List.all_eq_true, Bool.or_eq_true, Bool.not_eq_true', decide_eq_false_iff_not] at hfield
  obtain ⟨⟨⟨hw, hseq⟩, hne⟩, hall⟩ := hfield
  exact ⟨hw, hseq, hne, fun g hg hga => (hall g hg).resolve_left (not_not_intro hga)⟩

end

/-! ## The setting of a flag -/

section
variable {s : State} {r : Reg} {f : Fld} (hs : s.Fits) (hf : f.IsFlag r)
include hs hf

theorem State.get_raise_flag (i : Nat) : (s.raise f i).get f i = 1 := by
  have hne : ¬ (f = f.seqOf ∧ i = i) := fun e => hf.seqNe e.1.symm
  rw [State.raise, State.bump, State.get_put_fits (State.fits_put hs f i 1), if_neg hne, State.get_put_fits hs, if_pos ⟨rfl, rfl⟩,
    hf.width]
  rfl

/-- R410: SEQ advances modulo 256 at every setting. -/
theorem State.get_raise_seq (i : Nat) : (s.raise f i).get f.seqOf i = (s.get f.seqOf i + 1) % 256 := by
  have hne : ¬ (f.seqOf = f ∧ i = i) := fun e => hf.seqNe e.1
  rw [State.raise, State.bump, State.get_put_fits (State.fits_put hs f i 1), if_pos ⟨rfl, rfl⟩, State.get_put_fits hs, if_neg hne,
    hf.seq]
  rfl

omit hf in
theorem State.get_raise_other {g : Fld} {i j : Nat} (h : g ≠ f ∧ g ≠ f.seqOf ∨ j ≠ i) :
    (s.raise f i).get g j = s.get g j := by
  have hseq : ¬ (g = f.seqOf ∧ j = i) := fun e => h.elim (fun hg => hg.2 e.1) fun hj => hj e.2
  have hflag : ¬ (g = f ∧ j = i) := fun e => h.elim (fun hg => hg.1 e.1) fun hj => hj e.2
  rw [State.raise, State.bump, State.get_put_fits (State.fits_put hs f i 1), if_neg hseq, State.get_put_fits hs, if_neg hflag]

end

/-! ## The write-back -/

/-- R410: a flag that is written as 1 is cleared. -/
def State.clearFlag (i v : Nat) (s : State) (g : Fld) : State := s.put g i (s.get g i - (s.get g i &&& g.part v))

/-- The flags of a register. -/
def Reg.flags (r : Reg) : List Fld := r.fields.filter fun f => decide (f.desc.acc = .EV)

section
variable {s : State} {f : Fld} {fs : List Fld} {i v : Nat} (hs : s.Fits)
include hs

theorem State.get_clearFlags_of_not_mem (h : f ∉ fs) : (fs.foldl (State.clearFlag i v) s).get f i = s.get f i := by
  induction fs generalizing s with
  | nil => rfl
  | cons g fs ih =>
    rw [List.mem_cons, not_or] at h
    have hs' : (s.clearFlag i v g).Fits := State.fits_put hs _ _ _
    rw [List.foldl_cons, ih hs' h.2, State.clearFlag, State.get_put_fits hs, if_neg fun e => h.1 e.1]

theorem State.get_clearFlags_of_mem (hn : fs.Nodup) (h : f ∈ fs) :
    (fs.foldl (State.clearFlag i v) s).get f i = (s.get f i - (s.get f i &&& f.part v)) % 2 ^ f.desc.w := by
  induction fs generalizing s with
  | nil => exact absurd h List.not_mem_nil
  | cons g fs ih =>
    obtain ⟨hg, hfs⟩ := List.nodup_cons.mp hn
    have hs' : (s.clearFlag i v g).Fits := State.fits_put hs _ _ _
    rw [List.foldl_cons]
    by_cases e : f = g
    · rw [State.get_clearFlags_of_not_mem hs' (e ▸ hg), State.clearFlag, e, State.get_put_fits hs, if_pos ⟨rfl, rfl⟩]
    · rw [ih hs' hfs ((List.mem_cons.mp h).resolve_left e), State.clearFlag, State.get_put_fits hs, if_neg fun h => e h.1]

end

/-- What a one-bit flag keeps of itself. -/
theorem flag_cleared {x b : Nat} (hx : x < 2) : (x - (x &&& b % 2)) % 2 = if (b % 2 == 1) = true then 0 else x := by
  rcases Nat.mod_two_eq_zero_or_one b with hb | hb
  · simp [hb]
    omega
  · obtain rfl | rfl : x = 0 ∨ x = 1 := by omega
    · simp [hb]
    · simp [hb]

section
variable {s : State} {r : Reg} {f : Fld} {i v : Nat} (hr : r ∈ eventRegs) (hf : f ∈ r.fields) (ha : f.desc.acc = .EV)
include hr hf ha

/-- R410: all flags of a register share its SEQ, which decides whether a write has effect. -/
theorem State.writeBack_eq : s.writeBack r i v =
    if v / 2 ^ 24 % 256 = s.get f.seqOf i then r.flags.foldl (State.clearFlag i v) s else s := by
  have hmem : f ∈ r.flags := List.mem_filter.mpr ⟨hf, decide_eq_true ha⟩
  cases hl : r.flags with
  | nil =>
    rw [hl] at hmem
    exact absurd hmem List.not_mem_nil
  | cons f0 fs =>
    have h0 : f0 ∈ r.fields ∧ f0.desc.acc = .EV := by
      have hm0 : f0 ∈ r.flags := hl ▸ List.mem_cons_self
      rw [Reg.flags, List.mem_filter, decide_eq_true_eq] at hm0
      exact hm0
    rw [← (isFlag_of_event hr hf ha).shared f0 h0.1 h0.2]
    rw [Reg.flags] at hl
    simp only [State.writeBack, hl]
    rfl

/-- R410: a write with the present SEQ clears each flag that it writes as 1. -/
theorem State.get_writeBack_of_match (hs : s.Fits) (hv : v / 2 ^ 24 % 256 = s.get f.seqOf i) :
    (s.writeBack r i v).get f i = if bit v f.desc.lo then 0 else s.get f i := by
  have hflag := isFlag_of_event hr hf ha
  have hmem : f ∈ r.flags := List.mem_filter.mpr ⟨hf, decide_eq_true ha⟩
  have hlt : s.get f i < 2 := by
    have h := State.get_lt hs f i
    rwa [hflag.width] at h
  have hpart : f.part v = v / 2 ^ f.desc.lo % 2 := by rw [Fld.part, bits, hflag.width, Nat.pow_one]
  have hnodup : r.flags.Nodup := (fields_nodup_of_event hr).filter _
  rw [State.writeBack_eq hr hf ha, if_pos hv, State.get_clearFlags_of_mem hs hnodup hmem, hpart, hflag.width, Nat.pow_one]
  exact flag_cleared hlt

end

/-- R410, R412: no write of an event register is a bus error. -/
theorem State.writeError_of_event {s : State} {r : Reg} {p i v : Nat} (hr : r ∈ eventRegs) : s.writeError p r i v = none := by
  have hchecks : s.valueBad (s.store r i v fun _ => true) r i v = false ∧ s.stateBad (s.store r i v fun _ => true) r i v = false ∧
      s.unitErrors (s.store r i v fun _ => true) p r i v = [] ∧ r ≠ .WCH_SOURCE := by
    simp only [eventRegs, List.mem_cons, List.not_mem_nil, or_false] at hr
    rcases hr with rfl | rfl | rfl | rfl | rfl | rfl | rfl | rfl | rfl | rfl | rfl | rfl | rfl | rfl | rfl | rfl | rfl | rfl | rfl
    all_goals exact ⟨rfl, rfl, rfl, by decide⟩
  obtain ⟨hvalue, hstate, hunit, hsource⟩ := hchecks
  have hacc : ∀ f ∈ r.fields, f.desc.acc ≠ .ST ∧ f.desc.acc ≠ .KY := fun f hf => by
    rcases acc_of_event hr hf with h | h <;> simp [h]
  have hstruct : s.structural r i v = false := by
    have hnone : (r.fields.any fun f => decide (f.desc.acc = .ST) && s.get f i != f.part v) = false :=
      List.any_eq_false.mpr fun f hf => by simp [(hacc f hf).1]
    simp only [State.structural, hnone, hsource, decide_false, Bool.false_and, Bool.or_self]
  have hkeyed : s.keyed r i v = false := List.any_eq_false.mpr fun f hf => by simp [(hacc f hf).2]
  simp only [State.writeError, hstruct, hkeyed, hvalue, hstate, hunit, Bool.false_and, List.map_nil, List.append_nil]
  refine lowestCode_none fun x hx => ?_
  simp only [List.mem_cons, List.not_mem_nil, or_false] at hx
  rcases hx with rfl | rfl | rfl | rfl <;> rfl

/-- Settles O55: the layout of the register is a check of the tables; its effects are those of fields that are set. -/
theorem eventRegistersFollowSeq : Obligations.EventRegistersFollowSeq := by
  intro s r f g i j v p hs hr hf ha
  have hfits : s.Fits := State.fits_of_sound hs
  have hflag : f.IsFlag r := isFlag_of_event hr hf ha
  refine ⟨by rw [hflag.seq]; exact ⟨rfl, rfl, rfl⟩,
    ⟨State.get_raise_flag hfits hflag i, State.get_raise_seq hfits hflag i, State.get_raise_other hfits⟩,
    State.get_writeBack_of_match hr hf ha hfits, fun hv => ?_, State.writeError_of_event hr⟩
  rw [State.writeBack_eq hr hf ha, if_neg hv]

end Sys2Proof.Machine
end

section
/-!
Bus errors (R412, R413): what the record of a bus error sets and leaves, and what a refused write of a register does.
-/

namespace Sys2Proof.Machine

/-! ## The record of a bus error -/

theorem State.fits_raise {s : State} (h : s.Fits) (f : Fld) (i : Nat) : (s.raise f i).Fits :=
  State.fits_put (State.fits_put h _ _ _) _ _ _

theorem State.fits_count {s : State} (h : s.Fits) (f : Fld) (i n : Nat) : (s.count f i n).Fits := State.fits_put h _ _ _

theorem busErrorFlag_isFlag : Fld.DEV_EVENT_BUS_ERROR.IsFlag .DEV_EVENT := isFlag_of_event (by decide) (by decide) rfl

section
variable {s : State} (hs : s.Fits) (p a code : Nat) (wr : Bool)
include hs

/-- R413: the fields that the record sets, beside its counter. -/
theorem State.get_busError {f : Fld} (hc : f ≠ .DEV_BUSERR_COUNT_COUNT) (j : Nat) : (s.busError p wr a code).get f j =
    if f = .DEV_BUSERR_ADDR_ADDR ∧ j = 0 then a % 2 ^ 32
    else if f = .DEV_BUSERR_WRITE ∧ j = 0 then b2n wr % 2
    else if f = .DEV_BUSERR_PORT ∧ j = 0 then p % 32
    else if f = .DEV_BUSERR_CODE ∧ j = 0 then code % 256
    else (s.raise .DEV_EVENT_BUS_ERROR).get f j := by
  have hraise : (s.raise .DEV_EVENT_BUS_ERROR).Fits := State.fits_raise hs _ _
  have hcode := State.fits_put hraise .DEV_BUSERR_CODE 0 code
  have hport := State.fits_put hcode .DEV_BUSERR_PORT 0 p
  have hwrite := State.fits_put hport .DEV_BUSERR_WRITE 0 (b2n wr)
  have haddr := State.fits_put hwrite .DEV_BUSERR_ADDR_ADDR 0 a
  rw [State.busError, State.count, State.get_put_fits haddr, if_neg fun h => hc h.1, State.get_put_fits hwrite,
    State.get_put_fits hport, State.get_put_fits hcode, State.get_put_fits hraise]
  rfl

theorem State.get_busError_flag : (s.busError p wr a code).get .DEV_EVENT_BUS_ERROR = 1 := by
  simp [State.get_busError hs, State.get_raise_flag hs busErrorFlag_isFlag]

theorem State.get_busError_code : (s.busError p wr a code).get .DEV_BUSERR_CODE = code % 256 := by
  simp [State.get_busError hs]

theorem State.get_busError_write : (s.busError p wr a code).get .DEV_BUSERR_WRITE = b2n wr := by
  cases wr <;> simp [State.get_busError hs, b2n]

theorem State.get_busError_addr : (s.busError p wr a code).get .DEV_BUSERR_ADDR_ADDR = a % 2 ^ 32 := by
  simp [State.get_busError hs]

/-- R413: no field of another register is touched. -/
theorem State.get_busError_other {f : Fld} (he : f.desc.reg ≠ .DEV_EVENT) (hb : f.desc.reg ≠ .DEV_BUSERR)
    (ha : f.desc.reg ≠ .DEV_BUSERR_ADDR) (hc : f.desc.reg ≠ .DEV_BUSERR_COUNT) (j : Nat) :
    (s.busError p wr a code).get f j = s.get f j := by
  have hflag : f ≠ .DEV_EVENT_BUS_ERROR := fun e => he (e ▸ rfl)
  have hseq : f ≠ Fld.seqOf .DEV_EVENT_BUS_ERROR := fun e => he (e ▸ rfl)
  have hcode : f ≠ .DEV_BUSERR_CODE := fun e => hb (e ▸ rfl)
  have hport : f ≠ .DEV_BUSERR_PORT := fun e => hb (e ▸ rfl)
  have hwrite : f ≠ .DEV_BUSERR_WRITE := fun e => hb (e ▸ rfl)
  have haddr : f ≠ .DEV_BUSERR_ADDR_ADDR := fun e => ha (e ▸ rfl)
  have hcount : f ≠ .DEV_BUSERR_COUNT_COUNT := fun e => hc (e ▸ rfl)
  simp [State.get_busError hs p a code wr hcount, hcode, hport, hwrite, haddr, State.get_raise_other hs (.inl ⟨hflag, hseq⟩)]

end

/-! ## A refused write -/

/-- R412, R413, R414: the state that a refused write of a register leaves: the read latch has fallen, the gate is closed, and the bus
error is recorded. -/
def refused (s : State) (p a e : Nat) : State := ((readFalls s p).closeGate p).busError p true a e

section
variable {s : State} {p : Nat} {r : Reg} {i v e : Nat} (c : Command r i) (hv : v < 2 ^ 32)
  (h1 : s.servedAt p (r.addr i) true = true) (h2 : s.holdServes (.reg r i false) = true) (h3 : (s.port p).wr = none)
  (he : (readFalls s p).writeError p r i ((readFalls s p).settledWord p r i v) = some e) (hbudget : e ≠ eBudget)
include c hv h1 h2 h3 he hbudget

theorem State.writeAccess_refused : s.writeAccess p (r.addr i) v = ({ err := e }, refused s p (r.addr i) e) := by
  have hsmall := c.small
  have ha : r.addr i % 2 ^ 28 / 4 * 4 = r.addr i := by
    have := c.word
    omega
  have hb : bits (r.addr i) 28 2 = 0 := by
    simp only [bits]
    omega
  have hc : bit (r.addr i) 30 = false := by
    have hz : r.addr i / 2 ^ 30 = 0 := by omega
    simp only [bit, hz]
    rfl
  have hd : ¬ 2 ^ 31 ≤ r.addr i := by omega
  have herr : (readFalls s p).addrError (r.addr i) false = none := by
    simp only [State.addrError, ha, hb, hc, if_neg hd, c.place]
    apply lowestCode_none
    have h2' : (readFalls s p).holdServes (.reg r i false) = true := h2
    have hrw : (Place.reg r i false).readOnly = false := c.rw
    simp [c.word, h2', hrw]
  have hserved : (readFalls s p).servedAt p (r.addr i) true = true := h1
  have hm : v % 2 ^ 32 = v := Nat.mod_eq_of_lt hv
  have hnote : ∀ x : State, x.noteRefusal r e = x := fun x => if_neg fun h => hbudget h.1
  simp only [State.writeAccess, h3, ha, c.place, Bool.false_eq_true, if_false, State.dropPair_none h3, hserved, Bool.not_true, herr,
    c.one, Bool.false_and, hb, aliased, Nat.zero_ne_one, OfNat.zero_ne_ofNat, hm, State.writeWhole, he, hnote]
  rfl

/-- R401: the port reports the code, with no access carried out. -/
theorem State.portWrites_refused (hon : s.dev ≠ .off) (he0 : e ≠ 0) :
    s.portWrites p (r.addr i) [v] = (refused s p (r.addr i) e).trailer p [] e 0 false := by
  have hm : r.addr i % 2 ^ 32 = r.addr i := by
    have := c.small
    omega
  have hne : ((⟨0, e, true⟩ : Reply).err ≠ 0) = True := eq_true he0
  simp only [State.portWrites, if_neg hon, State.writeRun, hm, State.writeAccess_refused c hv h1 h2 h3 he hbudget, hne, if_true]

end

theorem State.gate_refused {s : State} (hp : SMap.wf (fun _ => ({} : Port)) s.ports = true) (p a e : Nat) :
    ((refused s p a e).port p).gate = false := by
  have hwf : SMap.wf (fun _ => ({} : Port)) (readFalls s p).ports = true := SMap.wf_set hp
  have hport : (refused s p a e).port p = ((readFalls s p).closeGate p).port p := by
    simp [refused, State.busError, State.port, State.count_ports]
  rw [hport, State.closeGate, State.port_setPort hwf, if_pos rfl]

theorem State.get_trailer (s : State) (p : Nat) (data : List Nat) (err done : Nat) (un : Bool) (f : Fld) (i : Nat) :
    (s.trailer p data err done un).get f i = s.get f i := rfl

/-- Settles O56: the write ends at its refusal, whose record touches the registers of the bus error alone. -/
theorem refusedWritesChangeNothingElse : Obligations.RefusedWritesChangeNothingElse := by
  intro s u t p r i v e hu hp c hv hs hon h1 h2 h3 he he0 hbudget
  subst hu
  have hfits : ((readFalls (s.at t) p).closeGate p).Fits := hs.regs
  have hports : SMap.wf (fun _ => ({} : Port)) (s.at t).ports = true := State.wf_ports (s := s) hs
  have hwf : SMap.wf (fun _ => ({} : Port)) (refused (s.at t) p (r.addr i) e).ports = true := SMap.wf_set (SMap.wf_set hports)
  have haddr : r.addr i % 2 ^ 32 = r.addr i := by
    have := c.small
    omega
  refine ⟨(refused (s.at t) p (r.addr i) e).trailer p [] e 0 false, ?_, ?_, ?_, ?_, ?_, ?_, ?_, ?_, fun f j hev hb ha hc => ?_,
    rfl, rfl, rfl, rfl, rfl, rfl⟩
  · rw [exec, execRegisterWrite, if_pos hp, State.portWrite, State.portWrites_refused c hv h1 h2 h3 he hbudget hon he0]
  · rw [State.trailer, State.port_setPort hwf, if_pos rfl]
    exact if_pos he0
  · rw [State.trailer, State.port_setPort hwf, if_pos rfl]
  · rw [State.trailer, State.port_setPort hwf, if_pos rfl]
    exact State.gate_refused hports p _ e
  · rw [State.flag, State.get_trailer, refused, State.get_busError_flag hfits]
    rfl
  · rw [State.get_trailer, refused, State.get_busError_code hfits]
  · rw [State.get_trailer, refused, State.get_busError_write hfits]
    rfl
  · rw [State.get_trailer, refused, State.get_busError_addr hfits, haddr]
  · rw [State.get_trailer, refused, State.get_busError_other hfits _ _ _ _ hev hb ha hc]
    rfl

end Sys2Proof.Machine
end
